-- ==== Sys2Proof/Word.lean ====
section
/-!
DEFINITION. The words of the K96 and the shape of its sparse stores.

Registers are 32 bits, counters 64 bits, core data paths up to 64 bits (R8, R46, R149). A store of many like things
(registers, memory bytes, tables, threads) is a list of key and value pairs in one canonical form.
-/

namespace Sys2Proof

/-- A byte of a frame, a memory or a buffer. -/
abbrev Byte := BitVec 8
/-- A 16-bit word. -/
abbrev W16 := BitVec 16
/-- A register of a page (R46). -/
abbrev W32 := BitVec 32
/-- A 64-bit counter, accumulator or memory word. -/
abbrev W64 := BitVec 64

/-- A sparse store: keys strictly rising, no entry equal to what an unlisted key reads as. -/
abbrev Tab (α : Type) := List (Nat × α)

/-- A bit range [hi:lo] of a register (R8). -/
structure Fld where
  hi : Nat
  lo : Nat
  deriving DecidableEq, Repr

end Sys2Proof
end

