-- ==== Sys2Proof/Syntax.lean ====
section
/-!
DEFINITION. The commands of the block, one constructor per row of the opcode table, with their operands.

A command names the place it acts on (zone, engine, port, core, thread, ring ...) by the spec's numbers (R4). Choices
that the spec leaves to the hardware and that are not values (which free cells, which candidate entry) are operands.
-/

namespace Sys2Proof

abbrev Zone := Fin 4
abbrev Engine := Fin 16
abbrev Lane := Fin 256
abbrev Port := Fin 256
abbrev Class := Fin 8
abbrev Tid := Fin 8
abbrev Stack := Fin 4
abbrev Host2 := Fin 2
/-- A place: 0 the hub, 1 + z zone z (R427). -/
abbrev Place := Fin 5
/-- Device-wide core identifier: 32 z + core, or 128 to 131 (R4); WellFormed says which numbers name a core. -/
abbrev Cid := Fin 132

/-- The masters of register pages (R36, R53): their precedence is the order here. -/
inductive Master where
  | hostA
  | hostB
  | firmware (c : Fin 4)
  | kernel (c : Cid)
  deriving DecidableEq, Repr

/-- One write of a cycle: its master, its width in bytes, its data, and the byte of the register at which it begins (R46, R50). -/
structure Write where
  m : Master
  nbytes : Nat
  v : W64
  off : Nat := 0
  deriving DecidableEq, Repr

/-- The four kinds of host rings (R405). -/
inductive RingKind where
  | punt | inject | tdma | event
  deriving DecidableEq, Repr

/-- One request to the Urn allocation port (R274). -/
structure AllocReq where
  requester : Nat
  owner : Nat
  cells : List Nat
  len : Nat
  marked : Bool
  deriving DecidableEq, Repr

/-- What a table-DMA channel read for one descriptor: its words, the buffer records, and whether the host read failed. -/
structure DmaReq where
  desc : List W32
  data : List W32
  readErr : Bool
  deriving DecidableEq, Repr

/-- An HBM burst that a read found in error (R329): its address / 32, and the syndrome of an error that was corrected. -/
structure BurstErr where
  burst : Nat
  synd : Option (BitVec 8)
  deriving DecidableEq, Repr

/-- What a fault is: hard or transient, and the HBM burst in error, if it is a burst's. -/
structure FaultFound where
  hard : Bool
  burst : Option BurstErr
  deriving DecidableEq, Repr

/-- The accesses of one read: its length in bytes and the masters that read in the cycle (R47, R53). -/
structure ReadAcc where
  nbytes : Nat
  masters : List Master
  deriving DecidableEq, Repr

/-- The header of a flit: its sequence number, and the number up to which the sender has received (R16). -/
structure FlitHead where
  seq : Nat
  ack : Nat
  deriving DecidableEq, Repr

/-- The 40 bits of each data lane of a flit as the sender holds them and as they arrived (R16). -/
structure FlitBits where
  sent : List (BitVec 40)
  got : List (BitVec 40)
  deriving DecidableEq, Repr

/-- A received codeword: the symbol errors on each lane of its port, and the alignment markers in error that came with it (R69, R84). -/
structure Codeword where
  errs : List Nat
  amErr : Nat
  deriving DecidableEq, Repr

/-- The end of power-up training: which stacks trained, and which pseudo-channels of them failed (R339). -/
structure Training where
  ok : List Bool
  failed : List (Fin 128)
  deriving DecidableEq, Repr

/-- Where an operation of table DMA addresses an entry: by position, or by key in an LPM table (R255). -/
inductive EntAt where
  | pos (n : Nat)
  | key (k : List Byte)
  deriving DecidableEq, Repr

/-- One record of the twin link (R493). -/
structure SyncRec where
  tbl : Nat
  key : List Byte
  data : W64
  del : Bool
  time : Nat
  deriving DecidableEq, Repr


/-- One window of a reference: present, its count against the other reference and against the RC oscillator (R439). -/
structure RefCount where
  present : Bool
  other : Nat
  rc : Nat
  deriving DecidableEq, Repr
/-- The commands of the K96: one constructor per row of the opcode table. -/
inductive Instr where
  -- Register pages (Register pages and access rules)
  /-- R52. A write to a register that has no row of its own is checked in order and applied field by field. -/
  | registerWrite (addr : BitVec 26) (ws : List Write)
  /-- R49. An access to an unimplemented page reads all ones, discards writes and records itself in DEV_ERR. -/
  | unimplementedPageAccess (addr : BitVec 26) (m : Master) (write : Bool)
  /-- R51. Reading the low half of a 64-bit counter latches its high half for the reading master. -/
  | counterLoRead (addr : BitVec 26) (m : Master)
  /-- R53. A read of an RC register returns its value and clears it once, even when several masters read in the same cycle. -/
  | rcRead (addr : BitVec 26) (r : ReadAcc)
  /-- R41. Setting PAGE_CTRL.HOLD asks the block to finish its packet or flight in progress and stop. -/
  | hold (page : BitVec 14) (m : Master)
  /-- R41. The block stops and PAGE_STATUS.HELD rises, so that RWH fields accept writes. -/
  | held (page : BitVec 14)
  /-- R41. Clearing HOLD resumes the block with the RWH values written during the hold, and cross-field rules are judged there. -/
  | holdRelease (page : BitVec 14) (m : Master)
  /-- R39. Writing PAGE_CTRL.COMMIT arms the staging set to take effect at the block's next boundary. -/
  | commit (page : BitVec 14) (m : Master)
  /-- R39. At its next packet or flight boundary the block takes the whole staging set in one step and judges the cross-field rules. -/
  | commitBoundary (page : BitVec 14)
  /-- R36. Writing PAGE_CTRL.DISCARD drops every staged value. -/
  | discard (page : BitVec 14) (m : Master)
  /-- R36. Writing INT_FORCE sets INT_STATUS bits as if the events had occurred. -/
  | intForce (page : BitVec 14) (m : Master) (v : W32)
  /-- R44. Setting DEV_GROUP_HOLD.HOLD holds every group page that the group master may write. -/
  | groupHold (m : Master) (epochEn : Bool)
  /-- R43. Clearing DEV_GROUP_HOLD.HOLD releases the group pages, at once or at the epoch. -/
  | groupHoldRelease (m : Master) (epochEn : Bool)
  /-- R43. DEV_GROUP_HOLD.COMMIT writes PAGE_CTRL.COMMIT on every group page in one MC cycle, at once or at the epoch. -/
  | groupCommit (m : Master) (hold epochEn : Bool)
  /-- R43. DEV_GROUP_HOLD.CANCEL cancels the pending epoch actions armed before the write. -/
  | groupCancel (m : Master) (hold epochEn commit : Bool)
  /-- R45. In the first MC cycle at or after the epoch the pending commit and release go to every group page. -/
  | epochAction
  /-- R44. A write of a DEV_GROUP_PAGE entry is taken, or discarded while the group is held or pending. -/
  | groupPageWrite (i : Fin 16) (m : Master) (v : W32)
  -- Die links (Hub, zones and the journey of a packet)
  /-- R23. XB_LINK_CTRL.RETRAIN retrains the die link and isolates the zone until the PRBS test passes. -/
  | retrain (z : Zone) (m : Master)
  /-- R23. Writing XB_LINK_CTRL.ISOLATE isolates the zone by command, or returns its link through retraining. -/
  | isolate (z : Zone) (m : Master) (on : Bool)
  /-- R19. A die-link flit arrives and its CRC is checked: its sequence number and the acknowledgement of its header, the 40 bits of
  each data lane as the sender holds them and as they arrived, and whether the CRC of granule 159 matches. -/
  | flitReceive (z : Zone) (toHub : Bool) (head : FlitHead) (bits : FlitBits) (crcOk : Bool)
  /-- R374. The replayed flit is compared with the failed copy and each differing lane counts one fault. -/
  | replayAttribution (z : Zone) (toHub : Bool)
  /-- R392. A zone cuts itself off from the hub and applies the isolation rules. -/
  | zoneIsolate (z : Zone) (cause : Nat)
  /-- R394. A retrained die link passes its 1 ms PRBS test and cross-zone traffic resumes. -/
  | linkPrbsPass (z : Zone)
  /-- R394. Every RAS_LINK_RETRY.PERIOD_MS the hub retrains an isolated zone's link. -/
  | linkRetry (z : Zone)
  /-- R394. The rebuild of the zone's replicated tables ends, the freeze clears and REBUILT rises. -/
  | rebuilt (z : Zone)
  -- Optical line side
  /-- R67. Once a second the engine measures each laser input's power. -/
  | liMeasure (e : Engine) (p0 p1 : W16)
  /-- R62. An input falling below RETIRE moves all draw to the other input and becomes SUSPECT. -/
  | liSwitchover (e : Engine) (i : Fin 2) (pw : W16)
  /-- R63. An input that holds WARN for 10 s returns to GOOD, or a SHADOW input within range becomes GOOD. -/
  | liRecover (e : Engine) (i : Fin 2)
  /-- R61. After ROTATE_HOURS powered hours the engine swaps its major input over a 1 s ramp. -/
  | liRotate (e : Engine)
  /-- R63. OE_CTRL.LI0_RESTORE puts a RETIRED input LI0 into SHADOW. -/
  | li0Restore (e : Engine) (m : Master)
  /-- R63. OE_CTRL.LI1_RESTORE puts a RETIRED input LI1 into SHADOW. -/
  | li1Restore (e : Engine) (m : Master)
  /-- R65. LASER_INTERLOCK_N rising sets every lane dark and commands every laser source off. -/
  | interlockHigh (nack : W32)
  /-- R65. LASER_INTERLOCK_N falling re-enables the sources, relocks the rings and retrains the ports. -/
  | interlockLow (nack : W32)
  /-- R66. A lane's output monitor finds it above its limit, sets it dark and counts a fault. -/
  | laneOverpower (l : Lane)
  /-- R67. Every 2 ms a ring heater loop retunes its lane and counts a miss when outside the lock window. -/
  | heaterRetune (l : Lane) (heater : Nat) (inWindow locked : Bool)
  /-- R69. A received RS(544,514) codeword is decoded, corrected or marked uncorrectable, and counted. -/
  | fecCodeword (p : Port) (w : Codeword)
  /-- R70. A port's UP state changes with lane lock and fault signalling. -/
  | linkChange (p : Port) (locks : BitVec 4) (localFault remoteFault : Bool)
  /-- R72. A port whose lanes have locked opens at the next commit boundary. -/
  | portOpen (p : Port)
  /-- R71. A whole frame received by the MAC is checked, discarded or counted and passed on. The stamp point and the last bit are given as the
PCS sees them. -/
  | frameReceive (p : Port) (bytes : List Byte) (uncorr : Bool) (sfd lastBit : Nat)
  /-- R74. A class's pause time expires and its frames may start again. -/
  | pauseExpiry (p : Port) (c : Class)
  /-- R76. The MAC prepares and sends a flow-control frame ahead of data at the next frame boundary. -/
  | xoff (p : Port)
  /-- R76. While the cause persists, XOFF is sent again each time half of QUANTA has elapsed. -/
  | xoffRepeat (p : Port)
  -- Strainer and admission
  /-- R109. Once per FC cycle each pool and store shed count is re-evaluated. -/
  | shedCount (z : Zone)
  /-- R87. A Strainer pipeline takes a packet from its express or normal queue and starts its 30 CC parse. -/
  | parse (z : Zone) (pl : Fin 4)
  /-- R95. The parse ends, the lane metadata is written and any malformed action is applied. -/
  | parseDone (z : Zone) (pl : Fin 4)
  /-- R88. Admission writes the frame into Urn cells and gives the packet to its flight former. -/
  | cellWrite (z : Zone) (pl : Fin 4) (cells : List Nat)
  /-- R102. At each whole microsecond every punt policer gains RATE/1000 tokens up to BURST. -/
  | puntPolicerRefill (z : Zone)
  -- Flights and the Barista
  /-- R122. A former closes its open flight and enters it in the flight queue. -/
  | flightClose (z : Zone) (pl : Fin 4) (express : Bool)
  /-- R132. Once per FC cycle the Barista moves a flight into a prefetch slot under the strict or weighted discipline. -/
  | dispatch (z : Zone)
  /-- R138. The Barista gives the highest-level kernel item to a waiting kernel thread. -/
  | kernelGive (place : Place)
  /-- R128. A new 64-tick window begins and the express cap count restarts. -/
  | expressWindow (z : Zone)
  /-- R141. After 64 FC cycles with GROW or more waiting flights the next in-service core joins the active set. -/
  | activeGrow (z : Zone)
  /-- R141. A core idle for SHRINK x 256 CC leaves the active set. -/
  | activeShrink (z : Zone)
  /-- R131. A free flight thread takes a flight from its core's slot and issues its first instruction. -/
  | flightStart (z : Zone) (core : Fin 26) (t : Tid)
  /-- R135. A flight that suffered a transient fault is rebuilt from the cell buffer into the recovery group. -/
  | flightRebuild (z : Zone) (entry : Nat)
  /-- R145. The Barista raises a reported lock holder to its highest waiter's rank. -/
  | piRaise (c : Cid) (t : Tid)
  /-- R453. A die's Kettle budget level changes and takes effect in the next FC cycle. -/
  | levelChange (die : Fin 5)
  -- Chrotale instructions, form A
  /-- R196. Does nothing. -/
  | opNop (c : Cid) (t : Tid) (f : BitVec 24)
  /-- R196. Loads the operand zero-extended into A. -/
  | opLd (c : Cid) (t : Tid) (f : BitVec 24)
  /-- R196. Loads the operand sign-extended into A. -/
  | opLds (c : Cid) (t : Tid) (f : BitVec 24)
  /-- R196. Stores the low w bits of A. -/
  | opSt (c : Cid) (t : Tid) (f : BitVec 24)
  /-- R196. Loads X from an operand. -/
  | opXld (c : Cid) (t : Tid) (f : BitVec 24)
  /-- R196. Loads Y from an operand. -/
  | opYld (c : Cid) (t : Tid) (f : BitVec 24)
  /-- R196. Stores X. -/
  | opXst (c : Cid) (t : Tid) (f : BitVec 24)
  /-- R196. Stores Y. -/
  | opYst (c : Cid) (t : Tid) (f : BitVec 24)
  /-- R196. Sets X from A. -/
  | opXset (c : Cid) (t : Tid) (f : BitVec 24)
  /-- R196. Sets Y from A. -/
  | opYset (c : Cid) (t : Tid) (f : BitVec 24)
  /-- R196. Gives X to A. -/
  | opXget (c : Cid) (t : Tid) (f : BitVec 24)
  /-- R196. Gives Y to A. -/
  | opYget (c : Cid) (t : Tid) (f : BitVec 24)
  /-- R196. Adds an immediate to X modulo 65,536. -/
  | opXadd (c : Cid) (t : Tid) (f : BitVec 24)
  /-- R196. Adds an immediate to Y modulo 65,536. -/
  | opYadd (c : Cid) (t : Tid) (f : BitVec 24)
  /-- R197. Loads an n-bit field into A. -/
  | opLdf (c : Cid) (t : Tid) (f : BitVec 24)
  /-- R197. Writes the low n bits of A into a field. -/
  | opStf (c : Cid) (t : Tid) (f : BitVec 24)
  /-- R199. Adds the operand to A. -/
  | opAdd (c : Cid) (t : Tid) (f : BitVec 24)
  /-- R199. Adds the operand and carry to A. -/
  | opAdc (c : Cid) (t : Tid) (f : BitVec 24)
  /-- R199. Subtracts the operand from A. -/
  | opSub (c : Cid) (t : Tid) (f : BitVec 24)
  /-- R199. Subtracts the operand and borrow from A. -/
  | opSbc (c : Cid) (t : Tid) (f : BitVec 24)
  /-- R199. Negates A. -/
  | opNeg (c : Cid) (t : Tid) (f : BitVec 24)
  /-- R199. Sets flags from A minus the operand. -/
  | opCmp (c : Cid) (t : Tid) (f : BitVec 24)
  /-- R198. Sets Z and N from A AND the operand. -/
  | opTst (c : Cid) (t : Tid) (f : BitVec 24)
  /-- R198. Signed minimum. -/
  | opMin (c : Cid) (t : Tid) (f : BitVec 24)
  /-- R198. Signed maximum. -/
  | opMax (c : Cid) (t : Tid) (f : BitVec 24)
  /-- R198. Unsigned minimum. -/
  | opMinu (c : Cid) (t : Tid) (f : BitVec 24)
  /-- R198. Unsigned maximum. -/
  | opMaxu (c : Cid) (t : Tid) (f : BitVec 24)
  /-- R200. Low w bits of the product. -/
  | opMul (c : Cid) (t : Tid) (f : BitVec 24)
  /-- R198. High w bits of the signed product. -/
  | opMulh (c : Cid) (t : Tid) (f : BitVec 24)
  /-- R198. High w bits of the unsigned product. -/
  | opMulhu (c : Cid) (t : Tid) (f : BitVec 24)
  /-- R200. Signed quotient; the thread is unready for 7 CC. -/
  | opDiv (c : Cid) (t : Tid) (f : BitVec 24)
  /-- R200. Unsigned quotient; the thread is unready for 7 CC. -/
  | opDivu (c : Cid) (t : Tid) (f : BitVec 24)
  /-- R200. Signed remainder; the thread is unready for 7 CC. -/
  | opRem (c : Cid) (t : Tid) (f : BitVec 24)
  /-- R200. Unsigned remainder; the thread is unready for 7 CC. -/
  | opRemu (c : Cid) (t : Tid) (f : BitVec 24)
  /-- R157. The 7 CC after a division end and its thread is ready again. -/
  | divisionReady (c : Cid) (t : Tid)
  /-- R201. A AND operand. -/
  | opAnd (c : Cid) (t : Tid) (f : BitVec 24)
  /-- R201. A OR operand. -/
  | opOr (c : Cid) (t : Tid) (f : BitVec 24)
  /-- R201. A XOR operand. -/
  | opXor (c : Cid) (t : Tid) (f : BitVec 24)
  /-- R201. Complements A. -/
  | opNot (c : Cid) (t : Tid) (f : BitVec 24)
  /-- R202. Shifts A left. -/
  | opShl (c : Cid) (t : Tid) (f : BitVec 24)
  /-- R202. Shifts A right logically. -/
  | opShr (c : Cid) (t : Tid) (f : BitVec 24)
  /-- R202. Shifts A right arithmetically. -/
  | opSar (c : Cid) (t : Tid) (f : BitVec 24)
  /-- R202. Rotates A left. -/
  | opRol (c : Cid) (t : Tid) (f : BitVec 24)
  /-- R202. Rotates A right. -/
  | opRor (c : Cid) (t : Tid) (f : BitVec 24)
  /-- R201. Counts the 1 bits of A. -/
  | opPopc (c : Cid) (t : Tid) (f : BitVec 24)
  /-- R201. Counts the leading zero bits of A. -/
  | opClz (c : Cid) (t : Tid) (f : BitVec 24)
  /-- R201. Counts the trailing zero bits of A. -/
  | opCtz (c : Cid) (t : Tid) (f : BitVec 24)
  /-- R201. Reverses the bytes of A. -/
  | opBswap (c : Cid) (t : Tid) (f : BitVec 24)
  /-- R201. Sign-extends A to 64 bits. -/
  | opSext (c : Cid) (t : Tid) (f : BitVec 24)
  /-- R201. Zero-extends A to 64 bits. -/
  | opZext (c : Cid) (t : Tid) (f : BitVec 24)
  /-- R203. Adds to the cursor. -/
  | opCadd (c : Cid) (t : Tid) (f : BitVec 24)
  /-- R203. Sets the cursor. -/
  | opCset (c : Cid) (t : Tid) (f : BitVec 24)
  /-- R203. Gives the cursor to A. -/
  | opCget (c : Cid) (t : Tid) (f : BitVec 24)
  /-- R160. Sets P from a condition in every active lane. -/
  | opSetp (c : Cid) (t : Tid) (f : BitVec 24)
  /-- R161. Removes active lanes with P set from ACT. -/
  | opKill (c : Cid) (t : Tid) (f : BitVec 24)
  /-- R160. Loads P of all lanes from a 32-bit value read in lane 0. -/
  | opLdp (c : Cid) (t : Tid) (f : BitVec 24)
  /-- R204. Branches unconditionally. -/
  | opBr (c : Cid) (t : Tid) (f : BitVec 24)
  /-- R205. Branches when the condition holds under scope Q. -/
  | opBc (c : Cid) (t : Tid) (f : BitVec 24)
  /-- R165. Pushes the return index and branches. -/
  | opCall (c : Cid) (t : Tid) (f : BitVec 24)
  /-- R165. Pops the return index and continues there. -/
  | opRet (c : Cid) (t : Tid) (f : BitVec 24)
  /-- R205. Branches when a helper's input queue is full. -/
  | opBhb (c : Cid) (t : Tid) (f : BitVec 24)
  /-- R206. Pushes A onto the data stack. -/
  | opPush (c : Cid) (t : Tid) (f : BitVec 24)
  /-- R206. Pops the data stack into A. -/
  | opPop (c : Cid) (t : Tid) (f : BitVec 24)
  /-- R206. Drops the top of the data stack. -/
  | opDrops (c : Cid) (t : Tid) (f : BitVec 24)
  /-- R162. Moves lanes with P set to a child thread or a serialised path. -/
  | opFork (c : Cid) (t : Tid) (f : BitVec 24)
  /-- R163. Acts on the fork frame at the top of the return stack. -/
  | opJoin (c : Cid) (t : Tid) (f : BitVec 24)
  /-- R163. A waiting JOIN finds its child ended and merges its surviving lanes. -/
  | joinComplete (c : Cid) (t : Tid)
  /-- R157. The thread goes last among its rank for one CC. -/
  | opYield (c : Cid) (t : Tid) (f : BitVec 24)
  /-- R138. A kernel thread blocks until a work item is given. -/
  | opWait (c : Cid) (t : Tid) (f : BitVec 24)
  /-- R161. The root thread ends the flight, or a child ends as by JOIN. -/
  | opDone (c : Cid) (t : Tid) (f : BitVec 24)
  /-- R208. With children ended and slots clear, the flight hands every lane to the reorder stage and frees its entry. -/
  | doneComplete (c : Cid) (t : Tid)
  /-- R139. A kernel thread offers A of lane 0 to the kernel queue. -/
  | opPost (c : Cid) (t : Tid) (f : BitVec 24)
  /-- R207. Sets the kernel thread's issue level until its next WAIT. -/
  | opPrio (c : Cid) (t : Tid) (f : BitVec 24)
  /-- R209. Writes a DROP verdict with a reason. -/
  | opDrop (c : Cid) (t : Tid) (f : BitVec 24)
  /-- R209. Writes a PUNT verdict with a reason. -/
  | opPunt (c : Cid) (t : Tid) (f : BitVec 24)
  /-- R210. Traps to vector 16 + D. -/
  | opTrap (c : Cid) (t : Tid) (f : BitVec 24)
  /-- R172. Returns from a trap to CSR_TPC + D. -/
  | opRett (c : Cid) (t : Tid) (f : BitVec 24)
  /-- R176. Reads a CSR into A. -/
  | opCsrr (c : Cid) (t : Tid) (f : BitVec 24)
  /-- R176. A kernel thread writes a CSR from lane 0. -/
  | opCsrw (c : Cid) (t : Tid) (f : BitVec 24)
  /-- R191. Waits until every helper instruction of the thread is complete at its target. -/
  | opFence (c : Cid) (t : Tid) (f : BitVec 24)
  /-- R191. The last outstanding helper effect completes and the fenced thread is ready. -/
  | fenceDone (c : Cid) (t : Tid)
  /-- R210. The kernel thread becomes HALTED and raises HALT. -/
  | opHalt (c : Cid) (t : Tid) (f : BitVec 24)
  /-- R171. An unassigned opcode traps to vector 1. -/
  | illegalOp (c : Cid) (t : Tid) (w : W32)
  -- Infusers
  /-- R213. A helper refuses an instruction, which traps to vector 2. -/
  | helperRefused (c : Cid) (t : Tid) (w : W32)
  /-- R223. Searches an on-die table and refreshes a hit's stamp. -/
  | srch (c : Cid) (t : Tid) (sel : BitVec 4) (id : BitVec 16)
  /-- R223. Searches an on-die table without refreshing the stamp. -/
  | srchNoRefresh (c : Cid) (t : Tid) (sel : BitVec 4) (id : BitVec 16)
  /-- R223. Searches an HBM-extension table. -/
  | srchx (c : Cid) (t : Tid) (noRefresh : Bool) (sel : BitVec 4) (id : BitVec 16)
  /-- R224. Inserts or updates a key in a table. -/
  | insrt (c : Cid) (t : Tid) (sel : BitVec 4) (id : BitVec 16)
  /-- R224. Inserts a key only when absent. -/
  | insrtOnly (c : Cid) (t : Tid) (sel : BitVec 4) (id : BitVec 16)
  /-- R224. Updates a key only when present. -/
  | insrtUpdate (c : Cid) (t : Tid) (sel : BitVec 4) (id : BitVec 16)
  /-- R224. Removes a key from a table. -/
  | del (c : Cid) (t : Tid) (sel : BitVec 4) (id : BitVec 16)
  /-- R225. Standard CRC32C of the key bytes. -/
  | hashCrc32c (c : Cid) (t : Tid) (sel : BitVec 4) (id : BitVec 16)
  /-- R225. CRC32C with STR_HASH_SEED and no final inversion. -/
  | hashSeeded (c : Cid) (t : Tid) (sel : BitVec 4) (id : BitVec 16)
  /-- R225. Toeplitz hash with a secret in S. -/
  | hashToeplitz (c : Cid) (t : Tid) (sel : BitVec 4) (id : BitVec 16)
  /-- R226. Folded ones-complement sum over the window. -/
  | csumSum (c : Cid) (t : Tid) (sel : BitVec 4) (id : BitVec 16)
  /-- R226. Complemented ones-complement sum, ready for a checksum field. -/
  | csumComplement (c : Cid) (t : Tid) (sel : BitVec 4) (id : BitVec 16)
  /-- R226. CRC32C over the window. -/
  | csumCrc32c (c : Cid) (t : Tid) (sel : BitVec 4) (id : BitVec 16)
  /-- R227. Charges a meter colour-blind. -/
  | meterBlind (c : Cid) (t : Tid) (sel : BitVec 4) (id : BitVec 16)
  /-- R227. Charges a meter colour-aware. -/
  | meterAware (c : Cid) (t : Tid) (sel : BitVec 4) (id : BitVec 16)
  /-- R228. Adds packets and bytes to a counter pair, posted. -/
  | count (c : Cid) (t : Tid) (sub : Fin 3) (sel : BitVec 4) (id : BitVec 16)
  /-- R230. Loads a global memory word into the slot. -/
  | gld (c : Cid) (t : Tid) (size : Fin 4) (sel : BitVec 4) (id : BitVec 16)
  /-- R230. A kernel thread reads a register through the register window. -/
  | gldRegister (c : Cid) (t : Tid) (sel : BitVec 4) (id : BitVec 16)
  /-- R230. Stores 8 to 64 bits to global memory, posted. -/
  | gst (c : Cid) (t : Tid) (size : Fin 4) (sel : BitVec 4) (id : BitVec 16)
  /-- R230. Stores 16 aligned bytes to global memory, posted. -/
  | gst16 (c : Cid) (t : Tid) (sel : BitVec 4) (id : BitVec 16)
  /-- R230. A kernel thread writes a register through the register window. -/
  | gstRegister (c : Cid) (t : Tid) (sel : BitVec 4) (id : BitVec 16)
  /-- R230. A hub kernel thread writes four instructions into an image bank alias. -/
  | gstImage (c : Cid) (t : Tid) (sel : BitVec 4) (id : BitVec 16)
  /-- R232. Atomic fetch-add at the memory. -/
  | atomFetchAdd (c : Cid) (t : Tid) (wide : Bool) (sel : BitVec 4) (id : BitVec 16)
  /-- R232. Atomic fetch-and. -/
  | atomFetchAnd (c : Cid) (t : Tid) (wide : Bool) (sel : BitVec 4) (id : BitVec 16)
  /-- R232. Atomic fetch-or. -/
  | atomFetchOr (c : Cid) (t : Tid) (wide : Bool) (sel : BitVec 4) (id : BitVec 16)
  /-- R232. Atomic swap. -/
  | atomSwap (c : Cid) (t : Tid) (wide : Bool) (sel : BitVec 4) (id : BitVec 16)
  /-- R232. Atomic compare-swap. -/
  | atomCompareSwap (c : Cid) (t : Tid) (wide : Bool) (sel : BitVec 4) (id : BitVec 16)
  /-- R233. Takes the lock on a word; the thread waits until every lane is granted. -/
  | lock (c : Cid) (t : Tid) (wide : Bool) (sel : BitVec 4) (id : BitVec 16)
  /-- R233. Releases the lock on a word, posted. -/
  | unlk (c : Cid) (t : Tid) (sel : BitVec 4) (id : BitVec 16)
  /-- R234. Writes 64 random bits into each lane's slot. -/
  | rand (c : Cid) (t : Tid) (sel : BitVec 4) (id : BitVec 16)
  /-- R234. Samples the timebase in whole nanoseconds. -/
  | tstampNs (c : Cid) (t : Tid) (sel : BitVec 4) (id : BitVec 16)
  /-- R234. Samples the timebase with 16 fractional bits. -/
  | tstampFrac (c : Cid) (t : Tid) (sel : BitVec 4) (id : BitVec 16)
  /-- R235. Asks Carafe for mirror copies of the lane's frame. -/
  | mirr (c : Cid) (t : Tid) (sel : BitVec 4) (id : BitVec 16)
  /-- R216. A helper takes lanes of the oldest queued entry at its rate. -/
  | helperTake (c : Cid) (h : Fin 10) (n : Nat)
  /-- R216. A lane's result or completion word is written and its pending bit clears. -/
  | helperResult (c : Cid) (t : Tid) (slot : Fin 4) (lane : Fin 32)
  /-- R218. A posted helper effect completes at its target. -/
  | postedEffect (c : Cid) (h : Fin 10)
  /-- R219. A lane's result does not arrive within the timeout and its slot is poisoned. -/
  | helperTimeout (c : Cid) (t : Tid) (slot : Fin 4) (lane : Fin 32)
  -- Tables, learning and table DMA
  /-- R241. The update port inserts a key into an EXACT table by ways, moves, stash or eviction. -/
  | insertion (p : Place) (tbl : Fin 32)
  /-- R247. The hub applies a change to a replicated master and sends the resulting writes to all zones. -/
  | masterApply
  /-- R247. A zone applies a hub write to its replica in hub order. -/
  | distributionWrite (z : Zone)
  /-- R251. The update port handles a learn candidate as new, refresh or move. -/
  | learnUpdate (z : Zone)
  /-- R254. The sweep visits an entry and deletes or reports it when aged. -/
  | agingSweep (p : Place) (tbl : Fin 40) (pos : Nat)
  /-- R254. The hub judges an aged replicated entry by the freshest stamp of the four replicas. -/
  | agedReport
  /-- R256. A table entry lock held past its limit is released. -/
  | lockExpired (p : Place) (tbl : Fin 40) (r : Bool) (pos : Nat)
  /-- R255. Table DMA reads entries by position. -/
  | dmaRead (h : Host2) (ch : Fin 8) (q : DmaReq)
  /-- R255. Table DMA reads an entry and sets its lock. -/
  | dmaReadLock (h : Host2) (ch : Fin 8) (q : DmaReq)
  /-- R255. Table DMA writes an entry. -/
  | dmaWrite (h : Host2) (ch : Fin 8) (q : DmaReq)
  /-- R255. Table DMA writes an entry and clears its lock in one step. -/
  | dmaWriteUnlock (h : Host2) (ch : Fin 8) (q : DmaReq)
  /-- R255. Table DMA clears a lock. -/
  | dmaUnlock (h : Host2) (ch : Fin 8) (q : DmaReq)
  /-- R255. Table DMA inserts a key. -/
  | dmaInsert (h : Host2) (ch : Fin 8) (q : DmaReq)
  /-- R255. Table DMA deletes a key. -/
  | dmaDelete (h : Host2) (ch : Fin 8) (q : DmaReq)
  /-- R255. Table DMA searches a key. -/
  | dmaSearch (h : Host2) (ch : Fin 8) (q : DmaReq)
  /-- R244. Table DMA reads a counter pair and zeroes it in one step. -/
  | dmaReadClear (h : Host2) (ch : Fin 8) (q : DmaReq)
  /-- R255. The firmware clears any lock. -/
  | forceUnlock (p : Place) (tbl : Fin 40) (r : Bool) (at_ : EntAt)
  /-- R259. Setting a TBL_HOLD bit holds a table and refuses its search and update instructions. -/
  | tblHold (z : Zone) (m : Master) (v : W32)
  /-- R259. Once accepted searches are taken, TBL_HELD rises for the table. -/
  | tblHeld (z : Zone) (tbl : Fin 32)
  /-- R261. A zone fetches an uncorrectable extension row from the master. -/
  | rowFetch (z : Zone) (tbl : Fin 32) (poss : List Nat)
  -- Urn
  /-- R274. The Urn allocation port grants or empties requests for cells. -/
  | alloc (z : Zone) (reqs : List AllocReq)
  /-- R272. A buffer's owner hands it on or frees it. -/
  | ownerTransfer (z : Zone) (handle : BitVec 32) (by_ : Nat) (dst : Option Nat)
  /-- R276. References are added to a buffer, making it SHARED. -/
  | refAdd (z : Zone) (handle : BitVec 32) (m by_ : Nat)
  /-- R276. A fetch-add decrement of a SHARED buffer frees it when it returns 1. -/
  | refDecrement (z : Zone) (handle : BitVec 32)
  /-- R281. At each 100 ms multiple a leak pass over all buffer records starts. -/
  | leakPass (z : Zone)
  /-- R281. The pass ends and the age histogram is replaced. -/
  | leakPassEnd (z : Zone)
  /-- R287. A spill page is written to HBM and its frames' cells are freed once accepted. -/
  | pageWrite (z : Zone) (voq : Fin 2048)
  /-- R288. Urn reads a chain's head page back into cells. -/
  | refill (z : Zone) (voq : Fin 2048) (cells : List Nat) (bad : List (Nat × Nat)) (nextBad : Bool)
  /-- R294. A handle written to URN_PEEK snapshots its record. -/
  | urnPeek (z : Zone) (m : Master) (handle : BitVec 32)
  /-- R295. URN_AUDIT_CTRL.LOG_CLEAR empties the leak log. -/
  | logClear (z : Zone) (m : Master)
  -- Reorder, VOQs, Carafe and egress
  /-- R298. Each FC cycle the reorder stage releases entries in sequence and acts on their verdicts. -/
  | reorderRelease (z : Zone)
  /-- R298. An entry waits past HOLD and the domain gives up the missing numbers. -/
  | gap (z : Zone) (d : Fin 512)
  /-- R305. Carafe expands a group into copies and ends the domain's wait. -/
  | expansion (z : Zone)
  /-- R306. Carafe makes mirror copies from a MIRR request or MIRROR verdict. -/
  | mirrorExpansion (z : Zone)
  /-- R303. A VOQ with frames asks its port's traffic manager for one credit. -/
  | creditRequest (z : Zone) (voq : Fin 2048)
  /-- R303. A traffic manager grants a credit round-robin among asking zones. -/
  | creditGrant (p : Port) (c : Class)
  /-- R303. A VOQ with positive balance sends its head frame to staging. -/
  | voqSend (z : Zone) (voq : Fin 2048)
  /-- R307. A port chooses its next frame by strict priority and DRR, and its edit begins. -/
  | portSelect (p : Port)
  /-- R310. The 25 FC edit ends with list, ECN mark, padding and FCS, and shapers are charged. -/
  | editDone (p : Port)
  /-- R310. The MAC sends an edited frame and its last byte frees its reference or cells. -/
  | frameTransmit (p : Port)
  /-- R308. Each 256 ns interval every shaper bucket gains 0.032 x RATE bytes. -/
  | shaperRefill (z : Zone)
  /-- R323. Writes the group window into a Carafe group in one step. -/
  | gwrite (m : Master)
  /-- R323. Reads a Carafe group into the window. -/
  | gread (m : Master)
  /-- R323. Writes the member window into a member word. -/
  | mwrite (m : Master)
  /-- R323. Reads a member word into the window. -/
  | mread (m : Master)
  /-- R325. A write of EDT_WDATA writes an edit memory word or is refused. -/
  | edtWdata (z : Zone) (m : Master) (v : W32)
  -- HBM controllers
  /-- R331. A bank chooses and serves its next request by promotion, class and row. -/
  | hbmRequest (pc : Fin 128) (bank : Fin 48)
  /-- R331. A request that waited its class's age limit is promoted. -/
  | hbmPromote (pc : Fin 128) (bank : Fin 48) (idx : Nat)
  /-- R337. A new activation window begins and all row counts restart. -/
  | hammerWindow (stack : Stack)
  /-- R336. A pseudo-channel's bank refresh interval elapses. -/
  | refresh (pc : Fin 128) (bank : Fin 48)
  /-- R336. Every 1 ms the controller reads the stack temperature and sets HOT. -/
  | hbmTempRead (stack : Stack) (temp : BitVec 8)
  /-- R339. Power-up training of the stacks completes or fails. -/
  | hbmTraining (x : Training)
  /-- R339. Every 100 ms read-eye tracking runs on an active stack. -/
  | readEyeTrack (stack : Stack)
  /-- R343. Patrol scrub reads HBM blocks in class 5. -/
  | patrolScrub (pc : Fin 128) (block : Nat)
  /-- R342. A permanent pseudo-channel's blocks move into the spare area. -/
  | migration (pc : Fin 128)
  /-- R342. The copy into the spare area completes. -/
  | migrationDone (pc : Fin 128)
  /-- R343. HBM_PC_STATE.RESTORE starts the pattern test of a RETIRED pseudo-channel. -/
  | hbmRestore (pc : Fin 128) (m : Master)
  /-- R343. The patterns and copy-back finish and the pseudo-channel becomes GOOD or RETIRED. -/
  | hbmRestoreDone (pc : Fin 128) (ok : Bool)
  -- Steep, locks and atomics
  /-- R350. A request presented to a Steep resource is granted by rotation or lost with back-off. -/
  | arbRequest (res : Nat) (reqs rels : List Nat)
  /-- R352. A tenancy reaches HOLD_LIMIT and the hold watchdog ends it. -/
  | wdBite (res : Nat) (requester : Nat)
  /-- R353. ARB_REQ_STATE.RESTORE puts a RETIRED requester into SHADOW. -/
  | requesterRestore (m : Master)
  /-- R370. ARB_REQ_STATE.CLEAR_MAX zeroes a requester's longest wait. -/
  | clearMax (m : Master)
  /-- R370. A write of ARB_REQ_SEL snapshots a requester's counters. -/
  | arbReqSel (m : Master) (v : W32)
  /-- R371. A write of a peek address snapshots that lock. -/
  | lkuPeek (m : Master) (hi : Bool) (v : W32)
  /-- R356. The lock unit grants a waiting lane or slot its lock with the word's value. -/
  | lockGrant (addr : Nat)
  /-- R358. A release reaching the lock unit passes the lock to its highest waiter or frees it. -/
  | lockRelease (addr : Nat)
  /-- R358. A hold reaches LKU_AGE_LIMIT and is reported. -/
  | longHold (addr : Nat)
  /-- R364. A read of LK_ACQUIRE enters the slot's request and stalls for a grant. -/
  | lkAcquire (h : Host2) (i : Fin 64)
  /-- R364. LK_HOST_LIMIT passes and LK_ACQUIRE returns the current holder. -/
  | lkAcquireTimeout (h : Host2) (i : Fin 64)
  /-- R363. LK_CMD.RELEASE releases the lock at the slot's address. -/
  | lkRelease (h : Host2) (i : Fin 64)
  /-- R363. LK_CMD.CANCEL withdraws the slot's waiting request. -/
  | lkCancel (h : Host2) (i : Fin 64)
  /-- R364. A write of a slot address withdraws its queued request. -/
  | lkAddrWrite (h : Host2) (i : Fin 64) (hi : Bool) (v : W32)
  -- Integrity and faults
  /-- R383. A fault on a channel is judged by the transient-or-permanent rule. -/
  | fault (chan : W64) (f : FaultFound)
  /-- R383. A SUSPECT channel returns to GOOD at the end of its window. -/
  | suspectExpiry (chan : W64)
  /-- R375. A control path parity error is repeated once and counted. -/
  | parityError (unit : W64) (repeatFails : Bool)
  /-- R380. Cupping scrubs SRAM hourly and the ternary array every 10 ms. -/
  | sramScrub (pl : Place) (inst : Nat) (word : Nat)
  /-- R378. A merge buffer entry open for 16 cycles completes by read-modify-write. -/
  | mergeTimeout (pl : Place) (inst : Nat)
  /-- R386. A retired SRAM row's copy into its spare completes. -/
  | rowCopyDone (chan : W64)
  /-- R388. A retirement, takeover or restoration is journalled into the retirement map. -/
  | retirementJournal
  /-- R381. PW_TEST_CTRL.WRITE writes the test word, raw or checked. -/
  | pwTestWrite (pl : Place) (m : Master)
  /-- R381. PW_TEST_CTRL.READ reads the test word, raw or checked. -/
  | pwTestRead (pl : Place) (m : Master)
  /-- R389. RAS_REG_STATE.RESTORE puts a RETIRED channel into SHADOW for testing. -/
  | restore (m : Master)
  /-- R389. A channel's shadow test passes or fails. -/
  | shadowEnd (chan : W64) (pass : Bool)
  /-- R391. A shadow run's copies are compared and it passes or restarts. -/
  | shadowRunEnd (z : Zone)
  -- Host ports and management interfaces
  /-- R403. A write of a punt ring doorbell sets its producer index. -/
  | puntDoorbell (h : Host2) (r : Fin 64) (nbytes : Nat) (v : W32)
  /-- R403. A write of an inject ring doorbell sets its producer index. -/
  | injectDoorbell (h : Host2) (r : Fin 64) (nbytes : Nat) (v : W32)
  /-- R403. A write of a table DMA doorbell sets its producer index. -/
  | tdmaDoorbell (h : Host2) (r : Fin 8) (nbytes : Nat) (v : W32)
  /-- R403. A write of an event ring doorbell returns entries. -/
  | eventDoorbell (h : Host2) (r : Fin 4) (nbytes : Nat) (v : W32)
  /-- R403. An access to an unlisted BAR2 offset reads 0 and is logged. -/
  | bar2HoleAccess (h : Host2) (off : Nat) (write : Bool)
  /-- R408. The punt copy completes, its completion is written and the buffer freed. -/
  | puntDone (h : Host2) (r : Fin 64) (desc : List W32) (readErr : Bool)
  /-- R410. A DIRECT inject is read, given cells and handed to a VOQ or Carafe. -/
  | injectDirect (h : Host2) (r : Fin 64) (desc : List W32) (bytes : List Byte) (cells : List Nat) (readErr : Bool)
  /-- R410. A PIPELINE inject enters the admission store as a received frame. -/
  | injectPipeline (h : Host2) (r : Fin 64) (desc : List W32) (bytes : List Byte) (readErr : Bool)
  /-- R410. An inject without cells for 100 µs completes with NO_CELLS. -/
  | noCells (h : Host2) (r : Fin 64) (desc : List W32)
  /-- R413. A ring's time threshold passes and it triggers its vector. -/
  | moderationTimer (h : Host2) (kind : RingKind) (ring : Nat)
  /-- R414. An unmasked MSI-X vector sends its pending message once. -/
  | vectorUnmask (h : Host2) (v : Fin 128)
  /-- R414. The function enters D3hot and holds its entries and vectors. -/
  | d3hot (h : Host2) (pmeEn : Bool)
  /-- R414. Return to D0 writes held entries and sends each held vector. -/
  | d0Return (h : Host2)
  /-- R404. Hot Reset, link-down, FLR or PERST resets a function and disables its rings. -/
  | functionReset (h : Host2)
  /-- R420. ENABLE rising sets the ring's indices to 0 and PHASE to 1. -/
  | ringEnable (h : Host2) (kind : RingKind) (ring : Nat) (m : Master)
  /-- R415. The READ command reads page words for a board controller. -/
  | i3cRead (addr : W32) (n : Nat)
  /-- R415. The WRITE command writes page words. -/
  | i3cWrite (addr : W32) (words : List W32)
  /-- R415. The STATUS command returns status and the ALARM cause. -/
  | i3cStatus
  /-- R415. CCC ENTDAA assigns a dynamic address. -/
  | entdaa (da : BitVec 7)
  /-- R415. CCC SETDASA sets a dynamic address from the static one. -/
  | setdasa (da : BitVec 7)
  /-- R415. CCC SETNEWDA changes the dynamic address. -/
  | setnewda (da : BitVec 7)
  /-- R415. CCC RSTDAA resets the dynamic address. -/
  | rstdaa
  /-- R415. CCC ENEC enables events such as IBIs. -/
  | enec (ev : Byte)
  /-- R415. CCC DISEC disables events. -/
  | disec (ev : Byte)
  /-- R415. CCC GETPID returns the provisional ID. -/
  | getpid
  /-- R415. CCC GETBCR returns the bus characteristics. -/
  | getbcr
  /-- R415. CCC GETDCR returns the device characteristics. -/
  | getdcr
  /-- R415. CCC GETSTATUS returns the target status. -/
  | getstatus
  /-- R415. CCC GETMWL returns the maximum write length. -/
  | getmwl
  /-- R415. CCC SETMWL sets the maximum write length. -/
  | setmwl (v : W16)
  /-- R415. CCC GETMRL returns the maximum read length. -/
  | getmrl
  /-- R415. CCC SETMRL sets the maximum read length. -/
  | setmrl (v : W16)
  /-- R415. CCC RSTACT sets the target reset action. -/
  | rstact (act : Byte)
  /-- R416. The laser controller turns a source slot on. -/
  | sourceOn (i : Fin 32) (ack : Bool)
  /-- R416. The laser controller turns a source slot off. -/
  | sourceOff (i : Fin 32) (ack : Bool)
  /-- R417. A received character is judged and placed in the receive FIFO. -/
  | uartRxChar (b : Byte) (stopBit : Bool)
  /-- R417. A character leaves the transmit FIFO. -/
  | uartTxChar
  /-- R417. A low longer than one frame is counted as a break. -/
  | uartBreak
  /-- R418. JTAG instruction BYPASS. -/
  | bypass (bits : List Bool)
  /-- R418. JTAG instruction IDCODE returns 0x1E96_095D. -/
  | idcode (bits : List Bool)
  /-- R418. JTAG instruction SAMPLE/PRELOAD. -/
  | samplePreload (bits : List Bool)
  /-- R418. JTAG instruction EXTEST. -/
  | extest (bits : List Bool)
  /-- R418. JTAG MEMACC reaches register pages through the firmware. -/
  | memacc (addr : BitVec 26) (write : Option W32)
  /-- R421. A selected edge of a GPIO sets its event. -/
  | gpioEdge (n : Fin 16) (rise : Bool)
  -- Events
  /-- R425. An edge on an event source sets PENDING and counts. -/
  | edge (src : Fin 512) (core : Fin 26)
  /-- R426. Each MC cycle each target selects its highest-priority ready source and delivers it. -/
  | select
  /-- R428. A read of CLAIM_t returns and claims the selected source. -/
  | claim (t : Fin 8) (ms : List Master)
  /-- R429. A write of COMPLETE_t ends a source's service. -/
  | complete (t : Fin 8) (m : Master) (v : W32)
  /-- R431. Edges latched while the MC clock was stopped set PENDING and MERGED. -/
  | latchedEdge (src : Fin 512)
  /-- R433. A group's count or timer releases its held sources. -/
  | coalesceRelease (g : Fin 64)
  /-- R436. A GROUP_RELEASE bit releases a coalescing group at once. -/
  | groupRelease (m : Master) (hi : Bool) (v : W32)
  /-- R435. An armed timebase alarm fires and re-arms or disarms. -/
  | alarmFire (a : Fin 16)
  /-- R435. Arming an alarm, at once firing and setting LATE when already due. -/
  | alarmArm (a : Fin 16) (m : Master)
  /-- R435. A write of an alarm time clears ARM. -/
  | alarmTimeWrite (a : Fin 16) (m : Master) (hi : Bool) (v : W32)
  /-- R437. SRC_STATE.CLEAR clears PENDING, COUNT and MERGED. -/
  | srcClear (src : Fin 512) (m : Master)
  /-- R437. SRC_STATE.FORCE_COMPLETE ends ACTIVE as a complete would. -/
  | forceComplete (src : Fin 512) (m : Master)
  -- Clocks, timebase, power and the Kettle
  /-- R439. A 100 µs window judges each reference pass or fail. -/
  | refWindow (a b : RefCount)
  /-- R439. The RC oscillator sees no edge of a reference for 60 ns. -/
  | refLoss (r : Fin 2)
  /-- R441. After a reference is accepted the loop ramps to 6.25 GHz and the lanes retrain. -/
  | coastEnd
  /-- R446. TB_CMD.SET loads TB_SET into the timebase. -/
  | tbSet (m : Master)
  /-- R446. TB_CMD.ADJUST adds TB_ADJ to the timebase. -/
  | tbAdjust (m : Master)
  /-- R445. A read of TB_NOW_LO latches the high and fraction words. -/
  | tbNowRead (m : Master)
  /-- R447. A PPS_IN rising edge is stamped with the timebase. -/
  | ppsIn
  /-- R447. At each second plus offset PPS_OUT rises. -/
  | ppsOut
  /-- R447. PPS_OUT falls after WIDTH_US. -/
  | ppsOutFall
  /-- R453. Every 100 µs the Kettle reads the die temperature sensors. -/
  | sensorRead (temps : List (BitVec 16))
  /-- R453. VIN below 6.0 V for CRANK_US forces level 2. -/
  | crank (mv : Nat)
  /-- R453. VIN below 4.5 V forces level 4. -/
  | vinLow (mv : Nat)
  /-- R453. VIN back above a threshold for CLEAR_US clears its cause. -/
  | vinClear (mv : Nat)
  /-- R455. VIN below 4.2 V starts the retained-state shutdown. -/
  | shutdown (mv : Nat)
  /-- R456. A sensor over its trip temperature for 1 ms shuts the module down. -/
  | thermalTrip (sensor : Fin 68)
  /-- R457. Each 1 ms power window raises or lowers the cap level. -/
  | capWindow (mw : Nat)
  /-- R459. A rail without its phase spares holds its dies at level 2 or 3. -/
  | phaseLimit (rail : Nat) (level : Nat)
  /-- R449. A unit with no work enters NAP. -/
  | unitNap (u : Nat)
  /-- R449. A unit idle for 10 µs enters DOZE. -/
  | unitDoze (u : Nat)
  /-- R449. A unit idle for 2 ms enters DORMANT. -/
  | unitDormant (u : Nat)
  /-- R449. Work addressed to a sleeping unit wakes it. -/
  | unitWake (u : Nat)
  /-- R451. The Kettle selects RUN, SLEEP or DEEP SLEEP from the next known event. -/
  | stateSelect
  /-- R452. A wake request returns the device to RUN. -/
  | wake (cause : Nat)
  /-- R452. The time wake_at arrives and wake begins. -/
  | wakeAt
  /-- R519. VSTBY below 3.0 V for 10 µs starts the shutdown and then OFF. -/
  | vstbyLoss
  -- Start-up, retained state, in-service change and twin
  /-- R469. VIN good samples the straps and starts the power-up. -/
  | vinGood (straps : W32)
  /-- R470. A zone is powered, self-tested and restored. -/
  | zonePowerUp (z : Zone) (failedCores : List Nat)
  /-- R470. A zone's engines finish calibration and its sources are enabled. -/
  | engineCalibrated (z : Zone) (nack : W32)
  /-- R471. A zone opens forwarding and its domains restart at 0. -/
  | zoneOpen (z : Zone)
  /-- R471. Every powered zone has opened and the module reaches FWD_OPEN. -/
  | fwdOpen
  /-- R473. WARM_RST_N or DEV_RESET.WARM with its key resets and restores the zones. -/
  | warm (by_ : Option (Master × W32))
  /-- R524. PORST_N low resets the module. -/
  | porst
  /-- R524. EN falling starts the shutdown and the device enters OFF. -/
  | enLow
  /-- R475. Caddy programs the dirty set into a journal page. -/
  | journalProgram
  /-- R476. A flush programs the whole dirty set at once. -/
  | flush
  /-- R497. CDY_CMD.SYNC programs the dirty set now. -/
  | sync (m : Master)
  /-- R479. CDY_CMD.SNAPSHOT asks for a snapshot. -/
  | snapshot (m : Master)
  /-- R479. Caddy writes a full snapshot after a journal page, at most every 10 s. -/
  | autoSnapshot
  /-- R479. A snapshot's trailer is committed and its journal pages freed. -/
  | snapshotCommitted
  /-- R480. CDY_CMD.SAVE_CFG saves edit memory and Carafe. -/
  | saveCfg (m : Master)
  /-- R480. Caddy saves the configuration 60 s after the last write. -/
  | autoCfgSave
  /-- R481. CDY_CMD.CHECKPOINT asks for a table checkpoint. -/
  | checkpoint (m : Master)
  /-- R481. Every CKPT_MIN minutes Caddy writes a table checkpoint. -/
  | autoCheckpoint
  /-- R485. CDY_CMD.ERASE with its key invalidates the stored state. -/
  | erase (m : Master) (key : W16)
  /-- R474. A NAND block fails to program or erase and is retired. -/
  | badBlock (b : Nat)
  /-- R487. CDY_FW_CTRL.STORE copies a firmware image into the idle copy. -/
  | store (m : Master)
  /-- R487. Hulvalos checks the stored copy and reports stored or failed. -/
  | storeDone (ok : Bool) (version : W32)
  /-- R487. CDY_FW_CTRL.SWITCH starts the live handover. -/
  | switch (m : Master)
  /-- R487. The new copy is READY for 10 s and becomes the boot copy. -/
  | handoverDone
  /-- R487. The new copy is not READY within 2 s and the old copy resumes. -/
  | handoverRevert
  /-- R488. Every 10 µs a module sends a heartbeat. -/
  | heartbeatSend
  /-- R488. A partner heartbeat is received. -/
  | heartbeat (state : Nat) (primary : Bool) (serial : W64) (jsize : Nat)
  /-- R491. 30 µs without a heartbeat moves the module to SPLIT or PARTNER_LOST. -/
  | heartbeatLoss
  /-- R489. TWIN_ALIVE_IN changes between alive and silent. -/
  | aliveChange (alive : Bool)
  /-- R491. JOIN_MS passes without pairing. -/
  | joinTimeout
  /-- R491. Every RETRY_MS the hub retrains the twin link. -/
  | twinRetry (lanes : BitVec 16)
  /-- R493. A partner sync record is applied to the master. -/
  | syncRecord (r : SyncRec)
  /-- R494. Journal reconciliation ends and both modules enter PAIRED. -/
  | reconciled (partner : List SyncRec) (whole : Bool)
  -- Performance counters and telemetry
  /-- R507. At each effective period every probe latches its value. -/
  | sample
  /-- R507. TEL_CMD.SAMPLE_NOW takes one further sample. -/
  | sampleNow (m : Master)
  /-- R510. Cupping finishes writing a sample's records. -/
  | exportDone
  /-- R512. TEL_CMD.CLEAR_WM zeroes every VOQ maximum. -/
  | clearWm (m : Master)
  /-- R514. TEL_PMC_CTRL.CLEAR zeroes a core's four PMCs. -/
  | pmcClear (z : Zone) (k : Fin 26) (m : Master)
  /-- R506. TEL_PMC_CTRL.UNFREEZE resumes frozen PMCs. -/
  | unfreeze (z : Zone) (k : Fin 26) (m : Master)
  /-- R181. Writing 1 to bit t of CORE_KCTRL.RESUME or HCC_KCTRL.RESUME resumes a HALTED kernel thread after its HALT, or at CSR_TPC after a double trap. -/
  | resume (page : BitVec 14) (m : Master) (v : W32)
  /-- R419. A host PCIe link trains to L0, changes speed or width, or enters or leaves L1 or L1.2, and HIF EV0 LINK rises. -/
  | hostLinkChange (h : Host2) (width speed pm : Nat)
  /-- R265. A master change that has not reached every zone within 2 µs, because a die link is not UP, raises HTB EV3 DIST_LATE. -/
  | distLate
  /-- R493. The partner's acknowledgement of a sync record arrives, so the record is no longer pending and the journal start moves past it. -/
  | syncAcknowledgement
  deriving DecidableEq, Repr

end Sys2Proof
end

