-- ==== Sys2Proof/Config.lean ====
section
/-!
DEFINITION. What a part fixes and the spec does not: per-part values, and the free values of results the spec leaves open.
Every constant here is opaque: no statement can rest on a value of it.
-/

namespace Sys2Proof.Config

/-- Ordering variant: 0 EXK96-A1P, 1 EXK96-A1F (R2, DEV_ID.VARIANT). -/
opaque variant : BitVec 1
/-- Serial number of the boot record (R501). -/
opaque serial : BitVec 64
/-- Base of the module's block of 256 MAC addresses (R501). -/
opaque macBase : BitVec 48
/-- Factory QUAD_TS_RX and QUAD_TS_TX of a quad, characterised at test (R79). -/
opaque quadTs : Nat → Bool → BitVec 32
/-- Free 64-bit value number `n`: each use advances the counter `free` of the state. -/
opaque free64 : Nat → BitVec 64

/-- Free byte `i` of free value `n`. -/
opaque freeByte : Nat → Nat → BitVec 8

/-- Check bits of a 64-bit SRAM word: the SECDED matrix is not in the spec (R373). -/
opaque eccGen : BitVec 64 → BitVec 8
/-- What a syndrome other than 0 corrects: the bits to change of check bits and data, or none when uncorrectable (R373). -/
opaque eccFix : BitVec 8 → Option (BitVec 72)
/-- The stored check bits of a poisoned word with this data (R373). -/
opaque eccPoison : BitVec 64 → BitVec 8
/-- Rows of an SRAM array whose size the spec does not give, by place and array number (R400, R539). -/
opaque openRows : Nat → Nat → BitVec 11

/-- Descriptors of the reorder stage (block 0), or entries of the flight queue (1), that a row of queue memory `i` of a zone holds: the order
of its words is open (R387, R539). -/
opaque rowEntries : Nat → Nat → Nat → Nat

/-- Word of the link memory that holds the link of a cell, or its buffer record: the order of its words is open (R539). -/
opaque linkWord : Nat → Bool → BitVec 32
/-- What a stored word of table SRAM holds after an entry's key, data and stamp are written over word `i` of the entry: the spec gives an
entry's bytes no layout (R539). -/
opaque entBits : BitVec 64 → List (BitVec 8) → BitVec 64 → Nat → Nat → BitVec 64
/-- Valid bit, key, data and stamp that an entry's bits spell with other bits in word `w`: the layout is open (R539). -/
opaque entOf : BitVec 64 → List (BitVec 8) → BitVec 64 → Nat → Nat → Bool × List (BitVec 8) × BitVec 64 × Nat
/-- The 256-byte bucket that way `i` of an extension EXACT table chooses from a key's hash in a region of so many blocks (R260). -/
opaque extBucket : Nat → BitVec 32 → Nat → Nat

/-- Fixed latency of a port from the beginning of an edit to the transmit connector, in 2^-16 ns (R316). -/
opaque txDelay : Nat → BitVec 32

/-- Bytes that one record of a changed register takes in a journal page of 4 KiB (R475); 0 stands for 1. -/
opaque recordBytes : Nat

/-- Which dies (zones 0 to 3, hub 4) a converter rail feeds (R453, R459). -/
opaque railFeeds : Nat → Nat → Bool

/-- Provisional ID, bus and device characteristics that the I3C target reports (R415). -/
opaque i3cPid : BitVec 48
opaque i3cBcr : BitVec 8
opaque i3cDcr : BitVec 8

end Sys2Proof.Config
end

