-- ==== Sys2Proof/Machine/Addr.lean ====
section
/-!
DEFINITION. Addresses of the register pages and their registers (R32 to R35 and the register tables of every chapter), in BAR0 bytes.
The names are the spec's; arguments are the zone, engine, quad, core, stack or host and the index of the register.
-/

namespace Sys2Proof.Machine.Rg
open Sys2Proof

/-- The first address of zone `z`'s region (R32). -/
def zoneBase (z : Nat) : Nat := 0x1000000 + z * 0x400000
def baseDEV : Nat := 0x0000000
def baseCLK : Nat := 0x0010000
def basePWR : Nat := 0x0020000
def baseTB : Nat := 0x0030000
def baseIC : Nat := 0x0040000
def baseCDY : Nat := 0x0050000
def baseMGT : Nat := 0x0060000
def baseHIF (h : Nat) : Nat := 0x0070000 + h * 0x8000
def baseTWN : Nat := 0x0080000
def baseXB (z : Nat) : Nat := 0x0090000 + z * 0x1000
def baseCAR : Nat := 0x00A0000
def baseLKU : Nat := 0x00B0000
def baseHTB : Nat := 0x00C0000
def baseARB : Nat := 0x00D0000
def baseRAS : Nat := 0x00E0000
def baseHBM (s : Nat) : Nat := 0x0100000 + s * 0x10000
def baseHCC (k : Nat) : Nat := 0x0200000 + k * 0x1000
def baseTEL : Nat := 0x0400000
def baseTELZ (z : Nat) : Nat := 0x0402000 + z * 0x1000
def baseZCTL (z : Nat) : Nat := zoneBase z
def baseOE (e : Nat) : Nat := zoneBase (e / 4) + 0x10000 + (e % 4) * 0x2000
def baseQUAD (q : Nat) : Nat := zoneBase (q / 16) + 0x20000 + (q % 16) * 0x1000
def baseSTR (z : Nat) : Nat := zoneBase z + 0x40000
def baseADM (z : Nat) : Nat := zoneBase z + 0x50000
def baseBAR (z : Nat) : Nat := zoneBase z + 0x60000
def baseCORE (c : Nat) : Nat := zoneBase (c / 32) + 0x80000 + (c % 32) * 0x1000
def baseTBL (z : Nat) : Nat := zoneBase z + 0xA0000
def baseURN (z : Nat) : Nat := zoneBase z + 0xC0000
def baseROB (z : Nat) : Nat := zoneBase z + 0xD0000
def baseTM (z : Nat) : Nat := zoneBase z + 0xE0000
def baseEDT (z : Nat) : Nat := zoneBase z + 0xF0000
def baseZRAS (z : Nat) : Nat := zoneBase z + 0x100000

/-- Page of an address, R32. -/
def pageOf (a : Nat) : Nat := a / 0x1000
/-- SRC_CFG and SRC_STATE of a source (R437). -/
def SRC_CFG (src : Nat) : Nat := baseIC + 0x3040 + (src / 256) * 0x1000 + 4 * (src % 256)
def SRC_STATE (src : Nat) : Nat := baseIC + 0x5040 + (src / 256) * 0x1000 + 4 * (src % 256)
/-- ARB_RES and BITES of a resource number (R368, R369). -/
def ARB_RES (r : Nat) : Nat := baseARB + 0x1040 + 4 * r
def ARB_BITES (r : Nat) : Nat := baseARB + 0x2040 + 8 * r
/-- Class shapers of port 64z + i (R321). -/
def TM_CSH_RATE (z i c : Nat) : Nat := baseTM z + 0x3040 + (i / 32) * 0x1000 + 64 * (i % 32) + 8 * c
def TM_CSH_BURST (z i c : Nat) : Nat := TM_CSH_RATE z i c + 4
/-- Ring blocks (R420): kind 0 punt, 1 inject, 2 table DMA, 3 event. -/
def ringBlock (h kind r : Nat) : Nat :=
  baseHIF h + (if kind == 3 then 0x3140 else 0x1040 + kind * 0x1000) + 0x20 * r
/-- Performance block of core `c` in its counter window (R502, R504). -/
def perfBlock (c : Nat) : Nat := zoneBase (c / 32) + 0x300000 + 0x1000 * (c % 32)

def XB_LINK_CTRL (z : Nat) : Nat := baseXB z + 0x40
def XB_LINK_STATUS (z : Nat) : Nat := baseXB z + 0x44
def XB_REPLAY_CNT (z : Nat) : Nat := baseXB z + 0x48
def XB_CRC_ERR (z : Nat) : Nat := baseXB z + 0x50
def XB_ISO_DROP (z : Nat) : Nat := baseXB z + 0x58
def DEV_ERR : Nat := baseDEV + 0x40
def DEV_ERR_ADDR : Nat := baseDEV + 0x44
def DEV_GROUP_HOLD : Nat := baseDEV + 0x50
def DEV_GROUP_STATUS : Nat := baseDEV + 0x54
def DEV_GROUP_EPOCH_LO : Nat := baseDEV + 0x58
def DEV_GROUP_EPOCH_HI : Nat := baseDEV + 0x5c
def DEV_GROUP_PAGE (i : Nat) : Nat := baseDEV + 0x80 + i * 0x4
def OE_CTRL (e : Nat) : Nat := baseOE e + 0x40
def OE_STATUS (e : Nat) : Nat := baseOE e + 0x44
def OE_LI_SHARE (e : Nat) : Nat := baseOE e + 0x48
def OE_LI_ELAPSED (e : Nat) : Nat := baseOE e + 0x4c
def OE_LI_PWR (e : Nat) : Nat := baseOE e + 0x50
def OE_LI_THRESH (e : Nat) : Nat := baseOE e + 0x54
def OE_LI_SWITCH_CNT (e : Nat) : Nat := baseOE e + 0x58
def OE_CAL_MISS_CNT (e : Nat) : Nat := baseOE e + 0x60
def OE_LANE_CTRL (e i : Nat) : Nat := baseOE e + 0x1040 + i * 0x10
def OE_LANE_PWR (e i : Nat) : Nat := baseOE e + 0x1044 + i * 0x10
def OE_LANE_RING (e i : Nat) : Nat := baseOE e + 0x1048 + i * 0x10
def OE_LANE_PRBS_ERR (e i : Nat) : Nat := baseOE e + 0x104c + i * 0x10
def QUAD_MODE (q : Nat) : Nat := baseQUAD q + 0x40
def QUAD_FC (q : Nat) : Nat := baseQUAD q + 0x44
def QUAD_PFC_CLASS (q : Nat) : Nat := baseQUAD q + 0x48
def QUAD_PAUSE_TIME (q : Nat) : Nat := baseQUAD q + 0x4c
def QUAD_MAC_LO (q : Nat) : Nat := baseQUAD q + 0x50
def QUAD_MAC_HI (q : Nat) : Nat := baseQUAD q + 0x54
def QUAD_MAX_FRAME (q : Nat) : Nat := baseQUAD q + 0x58
def QUAD_PTP (q : Nat) : Nat := baseQUAD q + 0x5c
def QUAD_TS_RX (q : Nat) : Nat := baseQUAD q + 0x60
def QUAD_TS_TX (q : Nat) : Nat := baseQUAD q + 0x64
def QUAD_STATUS (q : Nat) : Nat := baseQUAD q + 0x68
def RX_FRAMES_OK (q i : Nat) : Nat := baseQUAD q + 0x100 + i * 0x200
def RX_OCTETS_OK (q i : Nat) : Nat := baseQUAD q + 0x108 + i * 0x200
def RX_FCS_ERR (q i : Nat) : Nat := baseQUAD q + 0x110 + i * 0x200
def RX_UNDERSIZE (q i : Nat) : Nat := baseQUAD q + 0x118 + i * 0x200
def RX_OVERSIZE (q i : Nat) : Nat := baseQUAD q + 0x120 + i * 0x200
def RX_PAUSE (q i : Nat) : Nat := baseQUAD q + 0x128 + i * 0x200
def RX_PFC (q i : Nat) : Nat := baseQUAD q + 0x130 + i * 0x200
def RX_CTRL_OTHER (q i : Nat) : Nat := baseQUAD q + 0x138 + i * 0x200
def START_DISCARD (q i : Nat) : Nat := baseQUAD q + 0x140 + i * 0x200
def HELD_DISCARD (q i : Nat) : Nat := baseQUAD q + 0x148 + i * 0x200
def TX_FRAMES (q i : Nat) : Nat := baseQUAD q + 0x150 + i * 0x200
def TX_OCTETS (q i : Nat) : Nat := baseQUAD q + 0x158 + i * 0x200
def TX_PAUSE (q i : Nat) : Nat := baseQUAD q + 0x160 + i * 0x200
def TX_PFC (q i : Nat) : Nat := baseQUAD q + 0x168 + i * 0x200
def FEC_CW (q i : Nat) : Nat := baseQUAD q + 0x170 + i * 0x200
def FEC_CW_UNCORR (q i : Nat) : Nat := baseQUAD q + 0x178 + i * 0x200
def RX_XOFF (q i j : Nat) : Nat := baseQUAD q + 0x180 + i * 0x200 + j * 0x8
def TX_XOFF (q i j : Nat) : Nat := baseQUAD q + 0x1c0 + i * 0x200 + j * 0x8
def FEC_BIN (q i j : Nat) : Nat := baseQUAD q + 0x200 + i * 0x200 + j * 0x8
def PCS_AM_ERR (q i : Nat) : Nat := baseQUAD q + 0x280 + i * 0x200
def PCS_LOCK_LOSS (q i : Nat) : Nat := baseQUAD q + 0x288 + i * 0x200
def LINK_DOWN (q i : Nat) : Nat := baseQUAD q + 0x290 + i * 0x200
def FEC_SYM_CORR (q i : Nat) : Nat := baseQUAD q + 0x900 + i * 0x20
def LANE_LOCK_LOSS (q i : Nat) : Nat := baseQUAD q + 0x908 + i * 0x20
def STR_DEPTH (z : Nat) : Nat := baseSTR z + 0x40
def STR_UDP_PORTS (z : Nat) : Nat := baseSTR z + 0x44
def STR_HASH_SEED (z : Nat) : Nat := baseSTR z + 0x48
def STR_ACTION (z : Nat) : Nat := baseSTR z + 0x4c
def STR_PCP_MAP (z : Nat) : Nat := baseSTR z + 0x50
def STR_TC_MAP (z : Nat) : Nat := baseSTR z + 0x54
def STR_DSCP_MAP (z i : Nat) : Nat := baseSTR z + 0x58 + i * 0x4
def STR_DSCP_MAP6 (z : Nat) : Nat := baseSTR z + 0x70
def STR_STATUS (z : Nat) : Nat := baseSTR z + 0x100
def MAL_CNT (z i : Nat) : Nat := baseSTR z + 0x80 + i * 0x8
def STR_PARTIAL_CNT (z : Nat) : Nat := baseSTR z + 0x108
def STR_PARSED_CNT (z i : Nat) : Nat := baseSTR z + 0x110 + i * 0x8
def STR_CTRL_CNT (z : Nat) : Nat := baseSTR z + 0x130
def STR_PORT (z i : Nat) : Nat := baseSTR z + 0x1040 + i * 0x4
def ETYPE (z i : Nat) : Nat := baseSTR z + 0x2040 + i * 0x4
def DA_LO (z i : Nat) : Nat := baseSTR z + 0x2080 + i * 0x10
def DA_HI (z i : Nat) : Nat := baseSTR z + 0x2084 + i * 0x10
def DA_MASK_LO (z i : Nat) : Nat := baseSTR z + 0x2088 + i * 0x10
def DA_MASK_HI (z i : Nat) : Nat := baseSTR z + 0x208c + i * 0x10
def L4 (z i : Nat) : Nat := baseSTR z + 0x2180 + i * 0x4
def PORT_MAL (z i : Nat) : Nat := baseSTR z + 0x3040 + i * 0x10
def PORT_CTRL (z i : Nat) : Nat := baseSTR z + 0x3048 + i * 0x10
def ADM_CLS_XOFF (z i : Nat) : Nat := baseADM z + 0x40 + i * 0x10
def ADM_CLS_XON (z i : Nat) : Nat := baseADM z + 0x44 + i * 0x10
def ADM_CLS_HEADROOM (z i : Nat) : Nat := baseADM z + 0x48 + i * 0x10
def ADM_CLS_LIMIT (z i : Nat) : Nat := baseADM z + 0x4c + i * 0x10
def ADM_SHED (z : Nat) : Nat := baseADM z + 0xc0
def ADM_SHED_STEP (z : Nat) : Nat := baseADM z + 0xc4
def ADM_SHED_HYST (z : Nat) : Nat := baseADM z + 0xc8
def ADM_STORE_PFC (z : Nat) : Nat := baseADM z + 0xcc
def ADM_STORE_SHED (z : Nat) : Nat := baseADM z + 0xd0
def ADM_STORE_HYST (z : Nat) : Nat := baseADM z + 0xd4
def ADM_CTRL_LIMIT (z : Nat) : Nat := baseADM z + 0xd8
def ADM_STATUS (z : Nat) : Nat := baseADM z + 0xdc
def ADM_STORE_OCC (z i : Nat) : Nat := baseADM z + 0xe0 + i * 0x4
def ADM_DROP (z i j : Nat) : Nat := baseADM z + 0x100 + i * 0x40 + j * 0x8
def ADM_ADMIT (z i : Nat) : Nat := baseADM z + 0x280 + i * 0x8
def ADM_DROP_SEQ (z i : Nat) : Nat := baseADM z + 0x2c0 + i * 0x8
def PUNT_POL (z i : Nat) : Nat := baseADM z + 0x1040 + i * 0x4
def PUNT_MAP (z i : Nat) : Nat := baseADM z + 0x10c0 + i * 0x4
def ADM_OCC (z i : Nat) : Nat := baseADM z + 0x1800 + i * 0x4
def PUNT_POL_DROP (z i : Nat) : Nat := baseADM z + 0x1100 + i * 0x8
def PUNT_POL_PASS (z i : Nat) : Nat := baseADM z + 0x1200 + i * 0x8
def BAR_CTRL (z : Nat) : Nat := baseBAR z + 0x40
def BAR_FORMER (z i : Nat) : Nat := baseBAR z + 0x44 + i * 0x4
def BAR_EXPRESS (z : Nat) : Nat := baseBAR z + 0x54
def BAR_KERNEL (z : Nat) : Nat := baseBAR z + 0x58
def BAR_WEIGHT (z : Nat) : Nat := baseBAR z + 0x5c
def BAR_PACK (z : Nat) : Nat := baseBAR z + 0x60
def BAR_STATUS (z : Nat) : Nat := baseBAR z + 0x64
def BAR_KSTATUS (z : Nat) : Nat := baseBAR z + 0x68
def BAR_ACTIVE (z : Nat) : Nat := baseBAR z + 0x6c
def BAR_SHADOW (z : Nat) : Nat := baseBAR z + 0x70
def CORE_LOAD (z i : Nat) : Nat := baseBAR z + 0x1200 + i * 0x4
def BAR_DISPATCH (z i : Nat) : Nat := baseBAR z + 0x1040 + i * 0x8
def BAR_LANES (z : Nat) : Nat := baseBAR z + 0x10c0
def BAR_FULL (z : Nat) : Nat := baseBAR z + 0x10c8
def BAR_REEXEC (z : Nat) : Nat := baseBAR z + 0x10d0
def BAR_SHADOW_DONE (z : Nat) : Nat := baseBAR z + 0x10d8
def BAR_KGIVEN (z : Nat) : Nat := baseBAR z + 0x10e0
def BAR_POST_BUSY_CNT (z : Nat) : Nat := baseBAR z + 0x10e8
def BAR_EXPRESS_DEMOTED (z : Nat) : Nat := baseBAR z + 0x10f0
def BAR_DISPLACED (z : Nat) : Nat := baseBAR z + 0x10f8
def BAR_PI_RAISE (z : Nat) : Nat := baseBAR z + 0x1100
def CORE_CTRL (c : Nat) : Nat := baseCORE c + 0x40
def CORE_BUDGET (c : Nat) : Nat := baseCORE c + 0x44
def CORE_STATUS (c : Nat) : Nat := baseCORE c + 0x48
def CORE_TRAP_LAST (c : Nat) : Nat := baseCORE c + 0x4c
def CORE_KCTRL (c : Nat) : Nat := baseCORE c + 0x50
def CORE_THREAD (c i : Nat) : Nat := baseCORE c + 0x60 + i * 0x4
def CORE_ISSUED (c : Nat) : Nat := baseCORE c + 0x80
def CORE_FLIGHTS_DONE (c : Nat) : Nat := baseCORE c + 0x88
def CORE_TRAPS (c : Nat) : Nat := baseCORE c + 0x90
def CORE_DOUBLE_TRAPS (c : Nat) : Nat := baseCORE c + 0x98
def CORE_BUDGET_DROPS (c : Nat) : Nat := baseCORE c + 0xa0
def CORE_UNCORR (c : Nat) : Nat := baseCORE c + 0xa8
def CORE_FORK_THREAD (c : Nat) : Nat := baseCORE c + 0xb0
def CORE_FORK_SERIAL (c : Nat) : Nat := baseCORE c + 0xb8
def ZCTL_IMG (z : Nat) : Nat := baseZCTL z + 0x40
def ZCTL_IMG_STATUS (z : Nat) : Nat := baseZCTL z + 0x44
def ZCTL_IMG_VALID (z : Nat) : Nat := baseZCTL z + 0x48
def HCC_STATUS (k : Nat) : Nat := baseHCC k + 0x40
def HCC_TRAP_LAST (k : Nat) : Nat := baseHCC k + 0x44
def HCC_KCTRL (k : Nat) : Nat := baseHCC k + 0x48
def HCC_THREAD (k i : Nat) : Nat := baseHCC k + 0x60 + i * 0x4
def HCC_ISSUED (k : Nat) : Nat := baseHCC k + 0x80
def HCC_TRAPS (k : Nat) : Nat := baseHCC k + 0x88
def HCC_DOUBLE_TRAPS (k : Nat) : Nat := baseHCC k + 0x90
def HCC_UNCORR (k : Nat) : Nat := baseHCC k + 0x98
def TBL_CTRL (z : Nat) : Nat := baseTBL z + 0x40
def TBL_HOLD (z : Nat) : Nat := baseTBL z + 0x44
def TBL_HELD (z : Nat) : Nat := baseTBL z + 0x48
def TBL_LEARN_CFG (z : Nat) : Nat := baseTBL z + 0x4c
def TBL_LEARN_PORTS (z i : Nat) : Nat := baseTBL z + 0x50 + i * 0x4
def TBL_LEARN_DATA (z i : Nat) : Nat := baseTBL z + 0x58 + i * 0x4
def TBL_LOCK_LIMIT (z : Nat) : Nat := baseTBL z + 0x60
def TBL_STATUS (z : Nat) : Nat := baseTBL z + 0x64
def TBL_LEARN_NEW (z : Nat) : Nat := baseTBL z + 0x68
def TBL_LEARN_MOVE (z : Nat) : Nat := baseTBL z + 0x70
def TBL_LEARN_DROP (z : Nat) : Nat := baseTBL z + 0x78
def TBL_AGED (z : Nat) : Nat := baseTBL z + 0x80
def TBL_EVICTED (z : Nat) : Nat := baseTBL z + 0x88
def TBL_NO_ROOM (z : Nat) : Nat := baseTBL z + 0x90
def TBL_LOCK_EXPIRED (z : Nat) : Nat := baseTBL z + 0x98
def TBL_REJECTED (z : Nat) : Nat := baseTBL z + 0xa0
def TBL_DESC (z i : Nat) : Nat := baseTBL z + 0x1040 + i * 0x20
def TBL_REGION_A (z i : Nat) : Nat := baseTBL z + 0x1044 + i * 0x20
def TBL_REGION_B (z i : Nat) : Nat := baseTBL z + 0x1048 + i * 0x20
def TBL_AGE (z i : Nat) : Nat := baseTBL z + 0x104c + i * 0x20
def TBL_MISS_LO (z i : Nat) : Nat := baseTBL z + 0x1050 + i * 0x20
def TBL_MISS_HI (z i : Nat) : Nat := baseTBL z + 0x1054 + i * 0x20
def TBL_TSTATUS (z i : Nat) : Nat := baseTBL z + 0x1058 + i * 0x20
def TBL_CAPACITY (z i : Nat) : Nat := baseTBL z + 0x105c + i * 0x20
def TBL_HIT (z i : Nat) : Nat := baseTBL z + 0x2040 + i * 0x10
def TBL_MISSES (z i : Nat) : Nat := baseTBL z + 0x2048 + i * 0x10
def HTB_EXT_CTRL : Nat := baseHTB + 0x40
def HTB_LOCK_LIMIT : Nat := baseHTB + 0x44
def HTB_STATUS : Nat := baseHTB + 0x48
def HTB_DESC_ERR : Nat := baseHTB + 0x4c
def HTB_XHOLD : Nat := baseHTB + 0x50
def HTB_DIST_MAX : Nat := baseHTB + 0x54
def HTB_DIST_UPDATES : Nat := baseHTB + 0x58
def HTB_DIST_REJECT : Nat := baseHTB + 0x60
def HTB_LEARN_EVT_DROP : Nat := baseHTB + 0x68
def HTB_AGED : Nat := baseHTB + 0x70
def HTB_LOCK_EXPIRED : Nat := baseHTB + 0x78
def HTB_XDESC (i : Nat) : Nat := baseHTB + 0x1040 + i * 0x20
def HTB_XREGION (i : Nat) : Nat := baseHTB + 0x1044 + i * 0x20
def HTB_XAGE (i : Nat) : Nat := baseHTB + 0x1048 + i * 0x20
def HTB_XMISS_LO (i : Nat) : Nat := baseHTB + 0x104c + i * 0x20
def HTB_XMISS_HI (i : Nat) : Nat := baseHTB + 0x1050 + i * 0x20
def HTB_XENTRIES (i : Nat) : Nat := baseHTB + 0x1054 + i * 0x20
def HTB_XCAPACITY (i : Nat) : Nat := baseHTB + 0x1058 + i * 0x20
def HTB_XSEARCH (i : Nat) : Nat := baseHTB + 0x2040 + i * 0x10
def HTB_XHIT (i : Nat) : Nat := baseHTB + 0x2048 + i * 0x10
def URN_POOL_WARN (z : Nat) : Nat := baseURN z + 0x40
def URN_POOL_SHED (z : Nat) : Nat := baseURN z + 0x44
def URN_POOL_PRESSURE (z : Nat) : Nat := baseURN z + 0x48
def URN_POOL_RESERVE (z : Nat) : Nat := baseURN z + 0x4c
def URN_POOL_HYST (z : Nat) : Nat := baseURN z + 0x50
def URN_POOL_STATUS (z : Nat) : Nat := baseURN z + 0x54
def URN_SPILL_CTRL (z : Nat) : Nat := baseURN z + 0x58
def URN_SPILL_LEVELS (z : Nat) : Nat := baseURN z + 0x5c
def URN_PG_THRESH (z : Nat) : Nat := baseURN z + 0x60
def URN_SPILL_REGION (z : Nat) : Nat := baseURN z + 0x64
def URN_PG_STATUS (z : Nat) : Nat := baseURN z + 0x68
def URN_SPILL_VOQS (z : Nat) : Nat := baseURN z + 0x6c
def URN_PEEK (z : Nat) : Nat := baseURN z + 0x70
def URN_PEEK_OWNER (z : Nat) : Nat := baseURN z + 0x74
def URN_PEEK_INFO (z : Nat) : Nat := baseURN z + 0x78
def URN_PEEK_STAMP (z : Nat) : Nat := baseURN z + 0x7c
def URN_AUDIT_LIMIT (z i : Nat) : Nat := baseURN z + 0x1040 + i * 0x4
def URN_AUDIT_CTRL (z : Nat) : Nat := baseURN z + 0x1058
def URN_AUDIT_STATUS (z : Nat) : Nat := baseURN z + 0x105c
def OUTSTANDING (z i : Nat) : Nat := baseURN z + 0x1060 + i * 0x4
def URN_HIST (z i : Nat) : Nat := baseURN z + 0x1080 + i * 0x4
def LEAK_LOG_HANDLE (z i : Nat) : Nat := baseURN z + 0x1140 + i * 0x8
def LEAK_LOG_INFO (z i : Nat) : Nat := baseURN z + 0x1144 + i * 0x8
def FREE_REFUSED (z i : Nat) : Nat := baseURN z + 0x1200 + i * 0x8
def REFCNT_ERR (z : Nat) : Nat := baseURN z + 0x1230
def ALLOC_EMPTY (z : Nat) : Nat := baseURN z + 0x1238
def LEAK_FOUND (z : Nat) : Nat := baseURN z + 0x1240
def LEAK_RECLAIMED (z : Nat) : Nat := baseURN z + 0x1248
def SPILL_OUT (z : Nat) : Nat := baseURN z + 0x1250
def SPILL_IN (z : Nat) : Nat := baseURN z + 0x1258
def SPILL_DROP (z : Nat) : Nat := baseURN z + 0x1260
def PG_FULL_DROP (z : Nat) : Nat := baseURN z + 0x1268
def CELLS_ALLOC (z : Nat) : Nat := baseURN z + 0x1270
def ROB_CTRL (z : Nat) : Nat := baseROB z + 0x40
def ROB_STATUS (z : Nat) : Nat := baseROB z + 0x44
def ROB_PUNT_MAP (z i : Nat) : Nat := baseROB z + 0x50 + i * 0x4
def FWD_UC (z : Nat) : Nat := baseROB z + 0x100
def FWD_MC (z : Nat) : Nat := baseROB z + 0x108
def ROB_MIRROR (z : Nat) : Nat := baseROB z + 0x110
def ROB_PUNT (z : Nat) : Nat := baseROB z + 0x118
def ROB_DROP (z : Nat) : Nat := baseROB z + 0x120
def ROB_GAP (z : Nat) : Nat := baseROB z + 0x128
def ROB_LATE (z : Nat) : Nat := baseROB z + 0x130
def FORCED_GAP (z : Nat) : Nat := baseROB z + 0x138
def BAD_DEST (z : Nat) : Nat := baseROB z + 0x140
def DOWN_DROP (z : Nat) : Nat := baseROB z + 0x148
def ROB_RELEASED (z : Nat) : Nat := baseROB z + 0x150
def DROP_REASON (z i : Nat) : Nat := baseROB z + 0x200 + i * 0x8
def TM_CTRL (z : Nat) : Nat := baseTM z + 0x40
def TM_STATUS (z : Nat) : Nat := baseTM z + 0x44
def TM_VOQ_PEEK (z : Nat) : Nat := baseTM z + 0x48
def TM_VOQ_DEPTH (z : Nat) : Nat := baseTM z + 0x4c
def TM_WRED_MIN (z i : Nat) : Nat := baseTM z + 0x50 + i * 0x10
def TM_WRED_MAX (z i : Nat) : Nat := baseTM z + 0x54 + i * 0x10
def TM_WRED_P (z i : Nat) : Nat := baseTM z + 0x58 + i * 0x10
def TM_VOQ_LIMIT (z i : Nat) : Nat := baseTM z + 0x5c + i * 0x10
def TM_ECN_TH (z i : Nat) : Nat := baseTM z + 0xd0 + i * 0x8
def TM_ECN_P (z i : Nat) : Nat := baseTM z + 0xd4 + i * 0x8
def WRED_DROP (z i : Nat) : Nat := baseTM z + 0x140 + i * 0x8
def LIMIT_DROP (z i : Nat) : Nat := baseTM z + 0x180 + i * 0x8
def TM_PORT_ETS (z i : Nat) : Nat := baseTM z + 0x1040 + i * 0x10
def TM_PORT_W0 (z i : Nat) : Nat := baseTM z + 0x1044 + i * 0x10
def TM_PORT_W1 (z i : Nat) : Nat := baseTM z + 0x1048 + i * 0x10
def TM_PSH_RATE (z i : Nat) : Nat := baseTM z + 0x2040 + i * 0x8
def TM_PSH_BURST (z i : Nat) : Nat := baseTM z + 0x2044 + i * 0x8
def TM_CSH_RATE_A (z i : Nat) : Nat := baseTM z + 0x3040 + i * 0x8
def TM_CSH_BURST_A (z i : Nat) : Nat := baseTM z + 0x3044 + i * 0x8
def TM_CSH_RATE_B (z i : Nat) : Nat := baseTM z + 0x4040 + i * 0x8
def TM_CSH_BURST_B (z i : Nat) : Nat := baseTM z + 0x4044 + i * 0x8
def ECN_MARK_PORT (z i : Nat) : Nat := baseTM z + 0x5040 + i * 0x8
def TM_FLUSHED (z i : Nat) : Nat := baseTM z + 0x5240 + i * 0x8
def CAR_GROUP_SEL : Nat := baseCAR + 0x40
def CAR_GROUP_LO : Nat := baseCAR + 0x44
def CAR_GROUP_HI : Nat := baseCAR + 0x48
def CAR_CMD : Nat := baseCAR + 0x4c
def CAR_MEMBER_SEL : Nat := baseCAR + 0x50
def CAR_MEMBER : Nat := baseCAR + 0x54
def CAR_MQ (i : Nat) : Nat := baseCAR + 0x58 + i * 0x4
def CAR_EXPANSIONS : Nat := baseCAR + 0x80
def CAR_COPIES : Nat := baseCAR + 0x88
def MC_BAD_GROUP : Nat := baseCAR + 0x90
def REFCNT_REFUSED : Nat := baseCAR + 0x98
def MIRROR_REFUSED : Nat := baseCAR + 0xa0
def MC_PARTIAL_ALL : Nat := baseCAR + 0xa8
def MC_PARTIAL (i : Nat) : Nat := baseCAR + 0x1040 + i * 0x8
def EDT_SET (z : Nat) : Nat := baseEDT z + 0x40
def EDT_STATUS (z : Nat) : Nat := baseEDT z + 0x44
def EDT_EDITED (z : Nat) : Nat := baseEDT z + 0x80
def EDT_BAD_EDIT (z : Nat) : Nat := baseEDT z + 0x88
def EDT_OVERSIZE (z : Nat) : Nat := baseEDT z + 0x90
def EDT_RUNT_PAD (z : Nat) : Nat := baseEDT z + 0x98
def EDT_CE_MARKED (z : Nat) : Nat := baseEDT z + 0xa0
def EDT_PTP_TC (z : Nat) : Nat := baseEDT z + 0xa8
def EDT_PTP_NO_TS (z : Nat) : Nat := baseEDT z + 0xb0
def EDT_WRITE_REFUSED (z : Nat) : Nat := baseEDT z + 0xb8
def EDT_WADDR (z : Nat) : Nat := baseEDT z + 0x1040
def EDT_WDATA (z : Nat) : Nat := baseEDT z + 0x1044
def EDT_RDATA (z : Nat) : Nat := baseEDT z + 0x1048
def HBM_CTRL (s : Nat) : Nat := baseHBM s + 0x40
def HBM_STATUS (s : Nat) : Nat := baseHBM s + 0x44
def HBM_AGE (s i : Nat) : Nat := baseHBM s + 0x48 + i * 0x4
def HBM_HAMMER (s : Nat) : Nat := baseHBM s + 0x54
def HBM_THROTTLE (s : Nat) : Nat := baseHBM s + 0x58
def HBM_THR_LAST (s : Nat) : Nat := baseHBM s + 0x5c
def HBM_PC_STATE (s i : Nat) : Nat := baseHBM s + 0x1040 + i * 0x4
def HBM_READS (s : Nat) : Nat := baseHBM s + 0x2040
def HBM_WRITES (s : Nat) : Nat := baseHBM s + 0x2048
def HBM_CORRECTED (s : Nat) : Nat := baseHBM s + 0x2050
def HBM_UNCORR (s : Nat) : Nat := baseHBM s + 0x2058
def HBM_RFM (s : Nat) : Nat := baseHBM s + 0x2060
def HBM_THROTTLED (s : Nat) : Nat := baseHBM s + 0x2068
def HBM_ACTIVATES (s : Nat) : Nat := baseHBM s + 0x2070
def HBM_REFRESHES (s : Nat) : Nat := baseHBM s + 0x2078
def HBM_SERVED (s i : Nat) : Nat := baseHBM s + 0x2080 + i * 0x8
def HBM_PROMOTED (s i : Nat) : Nat := baseHBM s + 0x20b0 + i * 0x8
def HBM_HAZARD (s : Nat) : Nat := baseHBM s + 0x20e0
def ARB_CTRL : Nat := baseARB + 0x40
def ARB_WD_LAST : Nat := baseARB + 0x44
def ARB_WD_TIME_LO : Nat := baseARB + 0x48
def ARB_WD_TIME_HI : Nat := baseARB + 0x4c
def ARB_STATUS : Nat := baseARB + 0x50
def ARB_RES_A (i : Nat) : Nat := baseARB + 0x1040 + i * 0x4
def ARB_RES_B (i : Nat) : Nat := baseARB + 0x1080 + i * 0x4
def ARB_RES_C (i : Nat) : Nat := baseARB + 0x11c0 + i * 0x4
def ARB_BITES_A (i : Nat) : Nat := baseARB + 0x2040 + i * 0x8
def ARB_BITES_B (i : Nat) : Nat := baseARB + 0x20c0 + i * 0x8
def ARB_BITES_C (i : Nat) : Nat := baseARB + 0x2340 + i * 0x8
def ARB_REQ_SEL : Nat := baseARB + 0x3040
def ARB_REQ_STATE : Nat := baseARB + 0x3044
def ARB_REQ_MAXWAIT : Nat := baseARB + 0x3058
def ARB_REQ_GRANTS : Nat := baseARB + 0x3048
def ARB_REQ_WAITS : Nat := baseARB + 0x3050
def LKU_CTRL : Nat := baseLKU + 0x40
def LK_HOST_LIMIT : Nat := baseLKU + 0x44
def LKU_AGE_LIMIT : Nat := baseLKU + 0x48
def LKU_STATUS : Nat := baseLKU + 0x4c
def LKU_WAIT : Nat := baseLKU + 0x50
def LKU_PEEK_ADDR_LO : Nat := baseLKU + 0x54
def LKU_PEEK_ADDR_HI : Nat := baseLKU + 0x58
def LKU_PEEK_HOLDER : Nat := baseLKU + 0x5c
def LKU_PEEK_WAIT : Nat := baseLKU + 0x60
def LKU_GRANTS : Nat := baseLKU + 0x80
def LKU_CONTENDED : Nat := baseLKU + 0x88
def LKU_FULL_WAIT : Nat := baseLKU + 0x90
def LKU_UNLK_NONE : Nat := baseLKU + 0x98
def LKU_PI_REPORTS : Nat := baseLKU + 0xa0
def LKU_PI_HOST : Nat := baseLKU + 0xa8
def LKU_TAKEOVER : Nat := baseLKU + 0xb0
def LKU_HOST_TIMEOUT : Nat := baseLKU + 0xb8
def LKU_LONG_HOLD : Nat := baseLKU + 0xc0
def ATOM_OPS (i : Nat) : Nat := baseLKU + 0x1040 + i * 0x8
def ATOM_CAS_FAIL : Nat := baseLKU + 0x1068
def ATOM_UNMAPPED : Nat := baseLKU + 0x1070
def RAS_RULE (i : Nat) : Nat := baseRAS + 0x40 + i * 0x4
def RAS_LINK_RETRY : Nat := baseRAS + 0x64
def RAS_REG_SEL : Nat := baseRAS + 0x68
def RAS_REG_ID0 : Nat := baseRAS + 0x6c
def RAS_REG_ID1 : Nat := baseRAS + 0x70
def RAS_REG_STATE : Nat := baseRAS + 0x74
def RAS_REG_TIME_LO : Nat := baseRAS + 0x78
def RAS_REG_TIME_HI : Nat := baseRAS + 0x7c
def RAS_REG_STATUS : Nat := baseRAS + 0x80
def PW_SEL : Nat := baseRAS + 0x1040
def PW_INST : Nat := baseRAS + 0x1044
def PW_LOG_ADDR : Nat := baseRAS + 0x1048
def PW_LOG_INFO : Nat := baseRAS + 0x104c
def PW_LOG_TIME_LO : Nat := baseRAS + 0x1050
def PW_LOG_TIME_HI : Nat := baseRAS + 0x1054
def PW_TEST_CTRL : Nat := baseRAS + 0x1058
def PW_TEST_ADDR : Nat := baseRAS + 0x105c
def PW_TEST_DATA_LO : Nat := baseRAS + 0x1060
def PW_TEST_DATA_HI : Nat := baseRAS + 0x1064
def PW_TEST_CHECK : Nat := baseRAS + 0x1068
def PW_ROWS : Nat := baseRAS + 0x106c
def PW_CORRECTED : Nat := baseRAS + 0x1080
def PW_UNCORR : Nat := baseRAS + 0x1088
def PW_SCRUB_PASSES : Nat := baseRAS + 0x1090
def PW_LOG_OVERFLOW : Nat := baseRAS + 0x1098
def PW_ROWS_SPARED : Nat := baseRAS + 0x10a0
def RAS_FAULTS (i : Nat) : Nat := baseRAS + 0x2040 + i * 0x8
def RAS_RETIRED (i : Nat) : Nat := baseRAS + 0x20c0 + i * 0x8
def RAS_RESTORED (i : Nat) : Nat := baseRAS + 0x2140 + i * 0x8
def RAS_PARITY_RETRY : Nat := baseRAS + 0x21c0
def RAS_REG_OVERFLOW : Nat := baseRAS + 0x21c8
def ZPW_SEL (z : Nat) : Nat := baseZRAS z + 0x40
def ZPW_INST (z : Nat) : Nat := baseZRAS z + 0x44
def ZPW_LOG_ADDR (z : Nat) : Nat := baseZRAS z + 0x48
def ZPW_LOG_INFO (z : Nat) : Nat := baseZRAS z + 0x4c
def ZPW_LOG_TIME_LO (z : Nat) : Nat := baseZRAS z + 0x50
def ZPW_LOG_TIME_HI (z : Nat) : Nat := baseZRAS z + 0x54
def ZPW_TEST_CTRL (z : Nat) : Nat := baseZRAS z + 0x58
def ZPW_TEST_ADDR (z : Nat) : Nat := baseZRAS z + 0x5c
def ZPW_TEST_DATA_LO (z : Nat) : Nat := baseZRAS z + 0x60
def ZPW_TEST_DATA_HI (z : Nat) : Nat := baseZRAS z + 0x64
def ZPW_TEST_CHECK (z : Nat) : Nat := baseZRAS z + 0x68
def ZPW_ROWS (z : Nat) : Nat := baseZRAS z + 0x6c
def ZRAS_SHADOW_CFG (z : Nat) : Nat := baseZRAS z + 0xc0
def ZRAS_SHADOW_STATUS (z : Nat) : Nat := baseZRAS z + 0xc4
def ZRAS_REBUILD (z : Nat) : Nat := baseZRAS z + 0xc8
def ZPW_CORRECTED (z : Nat) : Nat := baseZRAS z + 0x80
def ZPW_UNCORR (z : Nat) : Nat := baseZRAS z + 0x88
def ZPW_SCRUB_PASSES (z : Nat) : Nat := baseZRAS z + 0x90
def ZPW_LOG_OVERFLOW (z : Nat) : Nat := baseZRAS z + 0x98
def ZPW_ROWS_SPARED (z : Nat) : Nat := baseZRAS z + 0xa0
def HIF_STATUS (h : Nat) : Nat := baseHIF h + 0x40
def HIF_ERR (h : Nat) : Nat := baseHIF h + 0x44
def PUNT_FRAMES (h : Nat) : Nat := baseHIF h + 0x80
def PUNT_BYTES (h : Nat) : Nat := baseHIF h + 0x88
def PUNT_NOBUF (h : Nat) : Nat := baseHIF h + 0x90
def PUNT_D3_DROP (h : Nat) : Nat := baseHIF h + 0x98
def INJ_FRAMES (h : Nat) : Nat := baseHIF h + 0xa0
def INJ_BYTES (h : Nat) : Nat := baseHIF h + 0xa8
def INJ_FAIL (h : Nat) : Nat := baseHIF h + 0xb0
def TDMA_DESC (h : Nat) : Nat := baseHIF h + 0xb8
def EVT_DROP (h i : Nat) : Nat := baseHIF h + 0xc0 + i * 0x8
def MSIX_SENT (h : Nat) : Nat := baseHIF h + 0xe0
def PME_SENT (h : Nat) : Nat := baseHIF h + 0xe8
def PRING_BASE_LO (h i : Nat) : Nat := baseHIF h + 0x1040 + i * 0x20
def PRING_BASE_HI (h i : Nat) : Nat := baseHIF h + 0x1044 + i * 0x20
def PRING_CBASE_LO (h i : Nat) : Nat := baseHIF h + 0x1048 + i * 0x20
def PRING_CBASE_HI (h i : Nat) : Nat := baseHIF h + 0x104c + i * 0x20
def PRING_CTL (h i : Nat) : Nat := baseHIF h + 0x1050 + i * 0x20
def PRING_THR (h i : Nat) : Nat := baseHIF h + 0x1054 + i * 0x20
def PRING_IDX (h i : Nat) : Nat := baseHIF h + 0x1058 + i * 0x20
def PRING_MOD (h i : Nat) : Nat := baseHIF h + 0x105c + i * 0x20
def IRING_BASE_LO (h i : Nat) : Nat := baseHIF h + 0x2040 + i * 0x20
def IRING_BASE_HI (h i : Nat) : Nat := baseHIF h + 0x2044 + i * 0x20
def IRING_CBASE_LO (h i : Nat) : Nat := baseHIF h + 0x2048 + i * 0x20
def IRING_CBASE_HI (h i : Nat) : Nat := baseHIF h + 0x204c + i * 0x20
def IRING_CTL (h i : Nat) : Nat := baseHIF h + 0x2050 + i * 0x20
def IRING_THR (h i : Nat) : Nat := baseHIF h + 0x2054 + i * 0x20
def IRING_IDX (h i : Nat) : Nat := baseHIF h + 0x2058 + i * 0x20
def IRING_MOD (h i : Nat) : Nat := baseHIF h + 0x205c + i * 0x20
def TRING_BASE_LO (h i : Nat) : Nat := baseHIF h + 0x3040 + i * 0x20
def TRING_BASE_HI (h i : Nat) : Nat := baseHIF h + 0x3044 + i * 0x20
def TRING_CBASE_LO (h i : Nat) : Nat := baseHIF h + 0x3048 + i * 0x20
def TRING_CBASE_HI (h i : Nat) : Nat := baseHIF h + 0x304c + i * 0x20
def TRING_CTL (h i : Nat) : Nat := baseHIF h + 0x3050 + i * 0x20
def TRING_THR (h i : Nat) : Nat := baseHIF h + 0x3054 + i * 0x20
def TRING_IDX (h i : Nat) : Nat := baseHIF h + 0x3058 + i * 0x20
def TRING_MOD (h i : Nat) : Nat := baseHIF h + 0x305c + i * 0x20
def ERING_BASE_LO (h i : Nat) : Nat := baseHIF h + 0x3140 + i * 0x20
def ERING_BASE_HI (h i : Nat) : Nat := baseHIF h + 0x3144 + i * 0x20
def ERING_CBASE_LO (h i : Nat) : Nat := baseHIF h + 0x3148 + i * 0x20
def ERING_CBASE_HI (h i : Nat) : Nat := baseHIF h + 0x314c + i * 0x20
def ERING_CTL (h i : Nat) : Nat := baseHIF h + 0x3150 + i * 0x20
def ERING_THR (h i : Nat) : Nat := baseHIF h + 0x3154 + i * 0x20
def ERING_IDX (h i : Nat) : Nat := baseHIF h + 0x3158 + i * 0x20
def ERING_MOD (h i : Nat) : Nat := baseHIF h + 0x315c + i * 0x20
def MGT_FW : Nat := baseMGT + 0x40
def MGT_FW_VERSION : Nat := baseMGT + 0x44
def MGT_DBG : Nat := baseMGT + 0x48
def UART_BAUD : Nat := baseMGT + 0x1040
def UART_LEVELS : Nat := baseMGT + 0x1044
def UART_FRAMING : Nat := baseMGT + 0x1060
def UART_BREAK : Nat := baseMGT + 0x1068
def UART_OVERRUN : Nat := baseMGT + 0x1070
def I3C_ADDR : Nat := baseMGT + 0x2040
def LSR_CTRL : Nat := baseMGT + 0x2044
def LSR_SLOT (i : Nat) : Nat := baseMGT + 0x2060 + i * 0x4
def LSR_NACK : Nat := baseMGT + 0x20e0
def GPIO_OUT : Nat := baseMGT + 0x3040
def GPIO_OE : Nat := baseMGT + 0x3044
def GPIO_IN : Nat := baseMGT + 0x3048
def GPIO_EDGE_RISE : Nat := baseMGT + 0x304c
def GPIO_EDGE_FALL : Nat := baseMGT + 0x3050
def CLAIM_1 : Nat := baseIC + 0x40
def COMPLETE_1 : Nat := baseIC + 0x44
def CLAIM_2 : Nat := baseIC + 0x48
def COMPLETE_2 : Nat := baseIC + 0x4c
def COMPLETE_3 : Nat := baseIC + 0x54
def CLAIM_4 : Nat := baseIC + 0x58
def COMPLETE_4 : Nat := baseIC + 0x5c
def CLAIM_5 : Nat := baseIC + 0x60
def COMPLETE_5 : Nat := baseIC + 0x64
def CLAIM_6 : Nat := baseIC + 0x68
def COMPLETE_6 : Nat := baseIC + 0x6c
def IC_CTRL : Nat := baseIC + 0x70
def IC_ERR : Nat := baseIC + 0x74
def IC_PINS : Nat := baseIC + 0x78
def IC_KWAIT : Nat := baseIC + 0x7c
def ALARM_TIME_LO (i : Nat) : Nat := baseIC + 0x1040 + i * 0x10
def ALARM_TIME_HI (i : Nat) : Nat := baseIC + 0x1044 + i * 0x10
def ALARM_CTRL (i : Nat) : Nat := baseIC + 0x1048 + i * 0x10
def ALARM_PERIOD_NS (i : Nat) : Nat := baseIC + 0x104c + i * 0x10
def IC_GROUP (i : Nat) : Nat := baseIC + 0x2040 + i * 0x8
def IC_GROUP_STATE (i : Nat) : Nat := baseIC + 0x2044 + i * 0x8
def GROUP_RELEASE_LO : Nat := baseIC + 0x2240
def GROUP_RELEASE_HI : Nat := baseIC + 0x2244
def SRC_CFG_LOW (i : Nat) : Nat := baseIC + 0x3040 + i * 0x4
def SRC_CFG_HIGH (i : Nat) : Nat := baseIC + 0x4040 + i * 0x4
def SRC_STATE_LOW (i : Nat) : Nat := baseIC + 0x5040 + i * 0x4
def SRC_STATE_HIGH (i : Nat) : Nat := baseIC + 0x6040 + i * 0x4
def CLK_CTRL : Nat := baseCLK + 0x40
def CLK_STATUS : Nat := baseCLK + 0x44
def CLK_COUNT (i : Nat) : Nat := baseCLK + 0x48 + i * 0x4
def CLK_SWITCH_CNT : Nat := baseCLK + 0x50
def CLK_COAST_CNT : Nat := baseCLK + 0x58
def CLK_RUN_EN : Nat := baseCLK + 0x1040
def CLK_SLEEP_EN : Nat := baseCLK + 0x1044
def CLK_DEEP_EN : Nat := baseCLK + 0x1048
def TB_NOW_LO : Nat := baseTB + 0x40
def TB_NOW_HI : Nat := baseTB + 0x44
def TB_NOW_FRAC : Nat := baseTB + 0x48
def TB_RATE_LO : Nat := baseTB + 0x4c
def TB_RATE_HI : Nat := baseTB + 0x50
def TB_SET_LO : Nat := baseTB + 0x54
def TB_SET_HI : Nat := baseTB + 0x58
def TB_SET_FRAC : Nat := baseTB + 0x5c
def TB_CMD : Nat := baseTB + 0x60
def TB_ADJ : Nat := baseTB + 0x64
def TB_PPS : Nat := baseTB + 0x68
def TB_PPS_OFFSET : Nat := baseTB + 0x6c
def TB_PPS_IN_LO : Nat := baseTB + 0x70
def TB_PPS_IN_HI : Nat := baseTB + 0x74
def TB_PPS_IN_FRAC : Nat := baseTB + 0x78
def TB_STATUS : Nat := baseTB + 0x7c
def TB_STEP_CNT : Nat := baseTB + 0x1040
def TB_PPS_IN_CNT : Nat := baseTB + 0x1048
def PWR_LEVELS : Nat := basePWR + 0x40
def PWR_CAUSE : Nat := basePWR + 0x44
def PWR_FORCE : Nat := basePWR + 0x48
def PWR_VIN : Nat := basePWR + 0x4c
def PWR_CRANK : Nat := basePWR + 0x50
def PWR_INPUT : Nat := basePWR + 0x54
def PWR_CAP : Nat := basePWR + 0x58
def PWR_CRANK_CNT : Nat := basePWR + 0x60
def PWR_VIN_LOW_CNT : Nat := basePWR + 0x68
def PWR_THERM_CNT : Nat := basePWR + 0x70
def PWR_CAP_CNT : Nat := basePWR + 0x78
def PWR_DIE_T : Nat := basePWR + 0x1040
def PWR_HBM_T : Nat := basePWR + 0x1044
def PWR_THYST : Nat := basePWR + 0x1048
def PWR_TEMP (i : Nat) : Nat := basePWR + 0x1080 + i * 0x4
def PWR_SHARE (i : Nat) : Nat := basePWR + 0x2040 + i * 0x4
def PWR_STATE : Nat := basePWR + 0x3040
def PWR_HOST_WAKE_LO : Nat := basePWR + 0x3044
def PWR_HOST_WAKE_HI : Nat := basePWR + 0x3048
def PWR_NEXT : Nat := basePWR + 0x304c
def PWR_UNIT_EN : Nat := basePWR + 0x3050
def PWR_MAX_ACTIVE (i : Nat) : Nat := basePWR + 0x3054 + i * 0x4
def PWR_SLEEP_ENTRIES : Nat := basePWR + 0x3080
def PWR_DEEP_ENTRIES : Nat := basePWR + 0x3088
def PWR_WAKE_LATE : Nat := basePWR + 0x3090
def CDY_CTRL : Nat := baseCDY + 0x40
def CDY_STATUS : Nat := baseCDY + 0x44
def CDY_SNAP_SEQ : Nat := baseCDY + 0x48
def CDY_JRNL_SEQ : Nat := baseCDY + 0x4c
def CDY_CMD : Nat := baseCDY + 0x50
def CDY_FW_CTRL : Nat := baseCDY + 0x54
def CDY_FW_SRC : Nat := baseCDY + 0x58
def CDY_FW_LEN : Nat := baseCDY + 0x5c
def CDY_LOG_IDX : Nat := baseCDY + 0x60
def CDY_LOG_W (i : Nat) : Nat := baseCDY + 0x64 + i * 0x4
def CDY_SNAPSHOTS : Nat := baseCDY + 0x1040
def CDY_JOURNAL_PAGES : Nat := baseCDY + 0x1048
def CDY_CFG_SAVES : Nat := baseCDY + 0x1050
def CDY_CHECKPOINTS : Nat := baseCDY + 0x1058
def CDY_DEFERRED : Nat := baseCDY + 0x1060
def CDY_PROG_FAIL : Nat := baseCDY + 0x1068
def CDY_BAD_BLOCKS : Nat := baseCDY + 0x1070
def CDY_READ_CORR : Nat := baseCDY + 0x1078
def TWN_CTRL : Nat := baseTWN + 0x40
def TWN_STATUS : Nat := baseTWN + 0x44
def TWN_DUAL (i : Nat) : Nat := baseTWN + 0x48 + i * 0x4
def TWN_SYNC : Nat := baseTWN + 0x68
def TWN_JOURNAL : Nat := baseTWN + 0x6c
def TWN_PARTNER_LO : Nat := baseTWN + 0x70
def TWN_PARTNER_HI : Nat := baseTWN + 0x74
def TWN_LANES : Nat := baseTWN + 0x78
def TWN_HB_RX : Nat := baseTWN + 0x1040
def TWN_SPLITS : Nat := baseTWN + 0x1048
def TWN_PARTNER_LOSTS : Nat := baseTWN + 0x1050
def TWN_SYNC_TX : Nat := baseTWN + 0x1058
def TWN_SYNC_RX : Nat := baseTWN + 0x1060
def TWN_SYNC_SUPERSEDED : Nat := baseTWN + 0x1068
def TWN_JOURNAL_OVF_CNT : Nat := baseTWN + 0x1070
def TWN_BLOCK_DISCARD : Nat := baseTWN + 0x1078
def DEV_ID : Nat := baseDEV + 0x1040
def DEV_SERIAL_LO : Nat := baseDEV + 0x1044
def DEV_SERIAL_HI : Nat := baseDEV + 0x1048
def DEV_MAC_LO : Nat := baseDEV + 0x104c
def DEV_MAC_HI : Nat := baseDEV + 0x1050
def DEV_STRAPS : Nat := baseDEV + 0x1054
def DEV_PHASE : Nat := baseDEV + 0x1058
def DEV_OPEN_MS : Nat := baseDEV + 0x105c
def DEV_POWERUPS : Nat := baseDEV + 0x1060
def DEV_RESET : Nat := baseDEV + 0x1064
def TEL_CTRL : Nat := baseTEL + 0x40
def TEL_PERIOD : Nat := baseTEL + 0x44
def TEL_CWIN : Nat := baseTEL + 0x48
def TEL_CMD : Nat := baseTEL + 0x4c
def TEL_STATUS : Nat := baseTEL + 0x50
def TEL_HBM_BASE : Nat := baseTEL + 0x54
def TEL_HBM_SIZE : Nat := baseTEL + 0x58
def TEL_HBM_WPTR : Nat := baseTEL + 0x5c
def TEL_SAMPLES : Nat := baseTEL + 0x60
def TEL_SKIPPED : Nat := baseTEL + 0x68
def TEL_EXPORTED : Nat := baseTEL + 0x70
def TEL_ALERTS : Nat := baseTEL + 0x78
def TEL_PROBE (i : Nat) : Nat := baseTEL + 0x1040 + i * 0x10
def TEL_PROBE_INDEX (i : Nat) : Nat := baseTEL + 0x1044 + i * 0x10
def TEL_ALERT_LO (i : Nat) : Nat := baseTEL + 0x1048 + i * 0x10
def TEL_ALERT_HI (i : Nat) : Nat := baseTEL + 0x104c + i * 0x10
def TEL_PMC_SEL (z i : Nat) : Nat := baseTELZ z + 0x40 + i * 0x8
def TEL_PMC_THRESH (z i : Nat) : Nat := baseTELZ z + 0x44 + i * 0x8
def TEL_PMC_CTRL (z i : Nat) : Nat := baseTELZ z + 0x380 + i * 0x4
def TEL_PMC_HITMAP (z : Nat) : Nat := baseTELZ z + 0x3f0

end Sys2Proof.Machine.Rg
end

