-- ==== Sys2Proof/Machine/Fields.lean ====
section
/-!
DEFINITION. Bit ranges of the register fields (R8), named REGISTER_FIELD as the spec's tables name them.
-/

namespace Sys2Proof.Machine.Fl
open Sys2Proof

def XB_LINK_CTRL_RETRAIN : Fld := ⟨0, 0⟩
def XB_LINK_CTRL_ISOLATE : Fld := ⟨1, 1⟩
def XB_LINK_CTRL_SPARE_AUTO : Fld := ⟨2, 2⟩
def XB_LINK_STATUS_STATE : Fld := ⟨2, 0⟩
def XB_LINK_STATUS_SPARED_TX : Fld := ⟨13, 8⟩
def XB_LINK_STATUS_SPARED_RX : Fld := ⟨21, 16⟩
def XB_LINK_STATUS_REPLAY : Fld := ⟨24, 24⟩
def XB_LINK_STATUS_NARROW : Fld := ⟨25, 25⟩
def DEV_ERR_UNIMPL : Fld := ⟨0, 0⟩
def DEV_ERR_GRP_BUSY : Fld := ⟨1, 1⟩
def DEV_ERR_GRP_BADPAGE : Fld := ⟨2, 2⟩
def DEV_ERR_GRP_OWNER : Fld := ⟨3, 3⟩
def DEV_ERR_EPOCH_LATE : Fld := ⟨4, 4⟩
def DEV_ERR_ADDR_ADDR : Fld := ⟨25, 0⟩
def DEV_ERR_ADDR_MASTER : Fld := ⟨28, 26⟩
def DEV_ERR_ADDR_WRITE : Fld := ⟨29, 29⟩
def DEV_GROUP_HOLD_HOLD : Fld := ⟨0, 0⟩
def DEV_GROUP_HOLD_EPOCH_EN : Fld := ⟨1, 1⟩
def DEV_GROUP_HOLD_COMMIT : Fld := ⟨2, 2⟩
def DEV_GROUP_HOLD_CANCEL : Fld := ⟨3, 3⟩
def DEV_GROUP_STATUS_ALL_HELD : Fld := ⟨0, 0⟩
def DEV_GROUP_STATUS_PENDING : Fld := ⟨1, 1⟩
def DEV_GROUP_STATUS_HELD_MAP : Fld := ⟨31, 16⟩
def DEV_GROUP_EPOCH_LO_EPOCH : Fld := ⟨31, 0⟩
def DEV_GROUP_EPOCH_HI_EPOCH : Fld := ⟨31, 0⟩
def DEV_GROUP_PAGE_PAGE : Fld := ⟨13, 0⟩
def DEV_GROUP_PAGE_VALID : Fld := ⟨31, 31⟩
def OE_CTRL_ENABLE : Fld := ⟨0, 0⟩
def OE_CTRL_ROTATE_EN : Fld := ⟨1, 1⟩
def OE_CTRL_LI_FORCE : Fld := ⟨5, 4⟩
def OE_CTRL_LI0_RESTORE : Fld := ⟨8, 8⟩
def OE_CTRL_LI1_RESTORE : Fld := ⟨9, 9⟩
def OE_STATUS_LI0_STATE : Fld := ⟨2, 0⟩
def OE_STATUS_LI1_STATE : Fld := ⟨6, 4⟩
def OE_STATUS_MAJOR : Fld := ⟨8, 8⟩
def OE_STATUS_INTERLOCK : Fld := ⟨9, 9⟩
def OE_STATUS_LIT : Fld := ⟨10, 10⟩
def OE_STATUS_RING_LOCK : Fld := ⟨31, 16⟩
def OE_LI_SHARE_MAJOR_PCT : Fld := ⟨6, 0⟩
def OE_LI_SHARE_ROTATE_HOURS : Fld := ⟨31, 16⟩
def OE_LI_ELAPSED_HOURS : Fld := ⟨15, 0⟩
def OE_LI_PWR_LI0_PWR : Fld := ⟨15, 0⟩
def OE_LI_PWR_LI1_PWR : Fld := ⟨31, 16⟩
def OE_LI_THRESH_WARN : Fld := ⟨7, 0⟩
def OE_LI_THRESH_RETIRE : Fld := ⟨15, 8⟩
def OE_LI_THRESH_HIGH : Fld := ⟨23, 16⟩
def OE_LANE_CTRL_TX_DISABLE : Fld := ⟨0, 0⟩
def OE_LANE_CTRL_PRBS_GEN : Fld := ⟨1, 1⟩
def OE_LANE_CTRL_PRBS_CHK : Fld := ⟨2, 2⟩
def OE_LANE_PWR_TX_OMA : Fld := ⟨15, 0⟩
def OE_LANE_PWR_RX_PWR : Fld := ⟨31, 16⟩
def OE_LANE_RING_HEATER : Fld := ⟨11, 0⟩
def OE_LANE_PRBS_ERR_ERRORS : Fld := ⟨31, 0⟩
def QUAD_MODE_MODE : Fld := ⟨2, 0⟩
def QUAD_MODE_PORT_EN : Fld := ⟨7, 4⟩
def QUAD_FC_FC_MODE (i : Nat) : Fld := ⟨1 + 2 * i, 0 + 2 * i⟩
def QUAD_PFC_CLASS_CLASS_EN (i : Nat) : Fld := ⟨7 + 8 * i, 0 + 8 * i⟩
def QUAD_PAUSE_TIME_QUANTA : Fld := ⟨15, 0⟩
def QUAD_MAC_LO_ADDR : Fld := ⟨31, 0⟩
def QUAD_MAC_HI_ADDR : Fld := ⟨15, 0⟩
def QUAD_MAX_FRAME_MAX_FRAME : Fld := ⟨13, 0⟩
def QUAD_PTP_TS_EN : Fld := ⟨0, 0⟩
def QUAD_PTP_TS_HOST : Fld := ⟨1, 1⟩
def QUAD_TS_RX_OFFSET : Fld := ⟨31, 0⟩
def QUAD_TS_TX_OFFSET : Fld := ⟨31, 0⟩
def QUAD_STATUS_UP (i : Nat) : Fld := ⟨0 + 4 * i, 0 + 4 * i⟩
def QUAD_STATUS_LFAULT (i : Nat) : Fld := ⟨1 + 4 * i, 1 + 4 * i⟩
def QUAD_STATUS_RFAULT (i : Nat) : Fld := ⟨2 + 4 * i, 2 + 4 * i⟩
def QUAD_STATUS_PAUSED (i : Nat) : Fld := ⟨3 + 4 * i, 3 + 4 * i⟩
def QUAD_STATUS_LANE_LOCK : Fld := ⟨19, 16⟩
def STR_DEPTH_MAX_BYTES : Fld := ⟨8, 0⟩
def STR_DEPTH_MAX_HDRS : Fld := ⟨20, 16⟩
def STR_DEPTH_MAX_ENCAP : Fld := ⟨22, 21⟩
def STR_DEPTH_DEPTH_MODE : Fld := ⟨24, 24⟩
def STR_UDP_PORTS_VXLAN_PORT : Fld := ⟨15, 0⟩
def STR_UDP_PORTS_GENEVE_PORT : Fld := ⟨31, 16⟩
def STR_HASH_SEED_SEED : Fld := ⟨31, 0⟩
def STR_ACTION_ACT (i : Nat) : Fld := ⟨1 + 2 * i, 0 + 2 * i⟩
def STR_PCP_MAP_CLASS (i : Nat) : Fld := ⟨2 + 3 * i, 0 + 3 * i⟩
def STR_TC_MAP_CLASS (i : Nat) : Fld := ⟨2 + 3 * i, 0 + 3 * i⟩
def STR_DSCP_MAP_CLASS (i : Nat) : Fld := ⟨2 + 3 * i, 0 + 3 * i⟩
def STR_DSCP_MAP6_CLASS (i : Nat) : Fld := ⟨2 + 3 * i, 0 + 3 * i⟩
def STR_STATUS_NORMAL_STOP : Fld := ⟨3, 0⟩
def STR_STATUS_EXPRESS_STOP : Fld := ⟨7, 4⟩
def STR_PORT_HDR_EN : Fld := ⟨13, 0⟩
def STR_PORT_STRICT : Fld := ⟨14, 14⟩
def STR_PORT_TRUST : Fld := ⟨17, 16⟩
def STR_PORT_DEFAULT_CLASS : Fld := ⟨20, 18⟩
def STR_PORT_HASH_SEL : Fld := ⟨22, 21⟩
def STR_PORT_CTRL_EN : Fld := ⟨23, 23⟩
def ETYPE_ETYPE : Fld := ⟨15, 0⟩
def ETYPE_CLASS : Fld := ⟨18, 16⟩
def ETYPE_VALID : Fld := ⟨31, 31⟩
def DA_LO_ADDR : Fld := ⟨31, 0⟩
def DA_HI_ADDR : Fld := ⟨15, 0⟩
def DA_HI_CLASS : Fld := ⟨18, 16⟩
def DA_HI_VALID : Fld := ⟨31, 31⟩
def DA_MASK_LO_MASK : Fld := ⟨31, 0⟩
def DA_MASK_HI_MASK : Fld := ⟨15, 0⟩
def L4_PORT : Fld := ⟨15, 0⟩
def L4_PROTO : Fld := ⟨16, 16⟩
def L4_DIR : Fld := ⟨18, 17⟩
def L4_CLASS : Fld := ⟨21, 19⟩
def L4_VALID : Fld := ⟨31, 31⟩
def ADM_CLS_XOFF_XOFF : Fld := ⟨17, 0⟩
def ADM_CLS_XON_XON : Fld := ⟨17, 0⟩
def ADM_CLS_HEADROOM_HEADROOM : Fld := ⟨17, 0⟩
def ADM_CLS_LIMIT_LIMIT : Fld := ⟨17, 0⟩
def ADM_SHED_KETTLE_MASK : Fld := ⟨7, 0⟩
def ADM_SHED_SHED_MASK : Fld := ⟨15, 8⟩
def ADM_SHED_STEP_STEP : Fld := ⟨17, 0⟩
def ADM_SHED_HYST_HYST : Fld := ⟨17, 0⟩
def ADM_STORE_PFC_XOFF : Fld := ⟨14, 0⟩
def ADM_STORE_PFC_XON : Fld := ⟨30, 16⟩
def ADM_STORE_SHED_SHED : Fld := ⟨14, 0⟩
def ADM_STORE_SHED_STEP : Fld := ⟨29, 16⟩
def ADM_STORE_HYST_HYST : Fld := ⟨13, 0⟩
def ADM_CTRL_LIMIT_CELLS : Fld := ⟨17, 0⟩
def ADM_STATUS_SHED_SET : Fld := ⟨7, 0⟩
def ADM_STATUS_KETTLE : Fld := ⟨10, 8⟩
def ADM_STATUS_STORE_XOFF : Fld := ⟨15, 12⟩
def ADM_STATUS_PRESSURE : Fld := ⟨16, 16⟩
def ADM_STATUS_RESERVE : Fld := ⟨17, 17⟩
def ADM_STATUS_POOL_SET : Fld := ⟨25, 18⟩
def ADM_STORE_OCC_BLOCKS : Fld := ⟨14, 0⟩
def PUNT_POL_RATE : Fld := ⟨15, 0⟩
def PUNT_POL_BURST : Fld := ⟨31, 16⟩
def PUNT_MAP_POLICER (i : Nat) : Fld := ⟨4 + 8 * i, 0 + 8 * i⟩
def ADM_OCC_CELLS : Fld := ⟨17, 0⟩
def ADM_OCC_XOFF : Fld := ⟨18, 18⟩
def ADM_OCC_LOSSLESS : Fld := ⟨19, 19⟩
def BAR_CTRL_FORCE_WEIGHTED : Fld := ⟨0, 0⟩
def BAR_CTRL_PACK_EN : Fld := ⟨1, 1⟩
def BAR_FORMER_NLEVEL : Fld := ⟨3, 0⟩
def BAR_FORMER_NCLASS : Fld := ⟨7, 4⟩
def BAR_FORMER_XLEVEL : Fld := ⟨11, 8⟩
def BAR_FORMER_XCLASS : Fld := ⟨15, 12⟩
def BAR_EXPRESS_RESV : Fld := ⟨6, 0⟩
def BAR_EXPRESS_CAP : Fld := ⟨23, 16⟩
def BAR_KERNEL_KTHREADS : Fld := ⟨1, 0⟩
def BAR_KERNEL_DEFER_LEVEL : Fld := ⟨7, 4⟩
def BAR_KERNEL_EVENT_RESV : Fld := ⟨15, 8⟩
def BAR_WEIGHT_W_NORMAL : Fld := ⟨7, 0⟩
def BAR_WEIGHT_W_SHADOW : Fld := ⟨15, 8⟩
def BAR_WEIGHT_W_REEXEC : Fld := ⟨23, 16⟩
def BAR_WEIGHT_W_KERNEL : Fld := ⟨31, 24⟩
def BAR_PACK_GROW : Fld := ⟨9, 0⟩
def BAR_PACK_MIN_ACTIVE : Fld := ⟨20, 16⟩
def BAR_PACK_SHRINK : Fld := ⟨31, 24⟩
def BAR_STATUS_ENTRIES : Fld := ⟨10, 0⟩
def BAR_STATUS_WEIGHTED : Fld := ⟨11, 11⟩
def BAR_STATUS_KETTLE : Fld := ⟨14, 12⟩
def BAR_STATUS_ACTIVE : Fld := ⟨20, 16⟩
def BAR_STATUS_NSTOP : Fld := ⟨27, 24⟩
def BAR_STATUS_XSTOP : Fld := ⟨31, 28⟩
def BAR_KSTATUS_ITEMS : Fld := ⟨12, 0⟩
def BAR_KSTATUS_BUSY : Fld := ⟨13, 13⟩
def BAR_KSTATUS_WAITING : Fld := ⟨21, 16⟩
def BAR_ACTIVE_CORES : Fld := ⟨25, 0⟩
def BAR_SHADOW_REMAIN : Fld := ⟨12, 0⟩
def BAR_SHADOW_CORE : Fld := ⟨20, 16⟩
def BAR_SHADOW_RUN : Fld := ⟨21, 21⟩
def CORE_LOAD_BUSY : Fld := ⟨3, 0⟩
def CORE_LOAD_SLOTS : Fld := ⟨5, 4⟩
def CORE_LOAD_ACTIVE : Fld := ⟨6, 6⟩
def CORE_LOAD_RAISED : Fld := ⟨7, 7⟩
def CORE_CTRL_FORK_EN : Fld := ⟨0, 0⟩
def CORE_BUDGET_LIMIT : Fld := ⟨19, 0⟩
def CORE_BUDGET_GRACE : Fld := ⟨31, 20⟩
def CORE_STATUS_READY : Fld := ⟨7, 0⟩
def CORE_STATUS_STALLED : Fld := ⟨15, 8⟩
def CORE_STATUS_IN_TRAP : Fld := ⟨23, 16⟩
def CORE_TRAP_LAST_CAUSE : Fld := ⟨4, 0⟩
def CORE_TRAP_LAST_THREAD : Fld := ⟨10, 8⟩
def CORE_TRAP_LAST_BANK : Fld := ⟨12, 12⟩
def CORE_TRAP_LAST_PC : Fld := ⟨29, 16⟩
def CORE_KCTRL_RESUME : Fld := ⟨7, 0⟩
def CORE_THREAD_PC : Fld := ⟨13, 0⟩
def CORE_THREAD_BANK : Fld := ⟨14, 14⟩
def CORE_THREAD_STATE : Fld := ⟨18, 16⟩
def CORE_THREAD_LEVEL : Fld := ⟨23, 20⟩
def CORE_THREAD_LANES : Fld := ⟨29, 24⟩
def ZCTL_IMG_BANK : Fld := ⟨0, 0⟩
def ZCTL_IMG_STATUS_ACTIVE : Fld := ⟨0, 0⟩
def ZCTL_IMG_STATUS_OTHER_BUSY : Fld := ⟨1, 1⟩
def ZCTL_IMG_STATUS_OTHER_FLIGHTS : Fld := ⟨26, 16⟩
def ZCTL_IMG_VALID_VALID_A : Fld := ⟨0, 0⟩
def ZCTL_IMG_VALID_VALID_B : Fld := ⟨1, 1⟩
def HCC_STATUS_READY : Fld := ⟨7, 0⟩
def HCC_STATUS_STALLED : Fld := ⟨15, 8⟩
def HCC_STATUS_IN_TRAP : Fld := ⟨23, 16⟩
def HCC_TRAP_LAST_CAUSE : Fld := ⟨4, 0⟩
def HCC_TRAP_LAST_THREAD : Fld := ⟨10, 8⟩
def HCC_TRAP_LAST_PC : Fld := ⟨29, 16⟩
def HCC_KCTRL_RESUME : Fld := ⟨7, 0⟩
def HCC_THREAD_PC : Fld := ⟨13, 0⟩
def HCC_THREAD_STATE : Fld := ⟨18, 16⟩
def HCC_THREAD_LEVEL : Fld := ⟨23, 20⟩
def TBL_CTRL_LEARN_EN : Fld := ⟨0, 0⟩
def TBL_CTRL_SWEEP_EN : Fld := ⟨1, 1⟩
def TBL_HOLD_TABLE : Fld := ⟨31, 0⟩
def TBL_HELD_HELD : Fld := ⟨31, 0⟩
def TBL_LEARN_CFG_TABLE : Fld := ⟨4, 0⟩
def TBL_LEARN_CFG_VALID : Fld := ⟨31, 31⟩
def TBL_LEARN_PORTS_PORTS : Fld := ⟨31, 0⟩
def TBL_LEARN_DATA_DATA : Fld := ⟨31, 0⟩
def TBL_LOCK_LIMIT_LIMIT : Fld := ⟨23, 0⟩
def TBL_STATUS_LEARN_Q : Fld := ⟨10, 0⟩
def TBL_STATUS_FROZEN : Fld := ⟨11, 11⟩
def TBL_DESC_TYPE : Fld := ⟨2, 0⟩
def TBL_DESC_SCOPE : Fld := ⟨3, 3⟩
def TBL_DESC_KEY_BYTES : Fld := ⟨10, 4⟩
def TBL_DESC_EVICT : Fld := ⟨12, 11⟩
def TBL_DESC_EVENT_EN : Fld := ⟨13, 13⟩
def TBL_DESC_EVENT_HOST : Fld := ⟨14, 14⟩
def TBL_DESC_BANK : Fld := ⟨15, 15⟩
def TBL_REGION_A_BASE : Fld := ⟨8, 0⟩
def TBL_REGION_A_SIZE : Fld := ⟨24, 16⟩
def TBL_REGION_B_BASE : Fld := ⟨8, 0⟩
def TBL_REGION_B_SIZE : Fld := ⟨24, 16⟩
def TBL_AGE_TICK_MS : Fld := ⟨15, 0⟩
def TBL_AGE_LIMIT : Fld := ⟨31, 16⟩
def TBL_MISS_LO_MISS : Fld := ⟨31, 0⟩
def TBL_MISS_HI_MISS : Fld := ⟨30, 0⟩
def TBL_TSTATUS_ENTRIES : Fld := ⟨22, 0⟩
def TBL_TSTATUS_STASH : Fld := ⟨31, 23⟩
def TBL_CAPACITY_CAPACITY : Fld := ⟨22, 0⟩
def TBL_CAPACITY_OLD_BUSY : Fld := ⟨23, 23⟩
def TBL_CAPACITY_ACTIVE_BANK : Fld := ⟨24, 24⟩
def HTB_EXT_CTRL_LIMIT_GIB : Fld := ⟨3, 0⟩
def HTB_LOCK_LIMIT_LIMIT : Fld := ⟨23, 0⟩
def HTB_STATUS_DIST_PENDING : Fld := ⟨11, 0⟩
def HTB_STATUS_ZONE_REACH : Fld := ⟨15, 12⟩
def HTB_DESC_ERR_MISMATCH : Fld := ⟨31, 0⟩
def HTB_XHOLD_TABLE : Fld := ⟨7, 0⟩
def HTB_XHOLD_HELD : Fld := ⟨15, 8⟩
def HTB_DIST_MAX_DIST_MAX : Fld := ⟨31, 0⟩
def HTB_XDESC_TYPE : Fld := ⟨1, 0⟩
def HTB_XDESC_KEY_BYTES : Fld := ⟨7, 2⟩
def HTB_XDESC_EVENT_EN : Fld := ⟨8, 8⟩
def HTB_XDESC_EVENT_HOST : Fld := ⟨9, 9⟩
def HTB_XREGION_BASE : Fld := ⟨7, 0⟩
def HTB_XREGION_SIZE : Fld := ⟨23, 16⟩
def HTB_XAGE_TICK_MS : Fld := ⟨15, 0⟩
def HTB_XAGE_LIMIT : Fld := ⟨31, 16⟩
def HTB_XMISS_LO_MISS : Fld := ⟨31, 0⟩
def HTB_XMISS_HI_MISS : Fld := ⟨30, 0⟩
def HTB_XENTRIES_ENTRIES : Fld := ⟨26, 0⟩
def HTB_XCAPACITY_CAPACITY : Fld := ⟨26, 0⟩
def URN_POOL_WARN_CELLS : Fld := ⟨17, 0⟩
def URN_POOL_SHED_CELLS : Fld := ⟨17, 0⟩
def URN_POOL_PRESSURE_CELLS : Fld := ⟨17, 0⟩
def URN_POOL_RESERVE_CELLS : Fld := ⟨17, 0⟩
def URN_POOL_HYST_HYST : Fld := ⟨15, 0⟩
def URN_POOL_STATUS_OCC : Fld := ⟨17, 0⟩
def URN_POOL_STATUS_WARN : Fld := ⟨18, 18⟩
def URN_POOL_STATUS_PRESSURE : Fld := ⟨19, 19⟩
def URN_POOL_STATUS_SHED : Fld := ⟨20, 20⟩
def URN_POOL_STATUS_RESERVE : Fld := ⟨21, 21⟩
def URN_SPILL_CTRL_CLASS_EN : Fld := ⟨7, 0⟩
def URN_SPILL_CTRL_KEEP_MASK : Fld := ⟨15, 8⟩
def URN_SPILL_CTRL_SLOW_SHIFT : Fld := ⟨17, 16⟩
def URN_SPILL_LEVELS_ON : Fld := ⟨15, 0⟩
def URN_SPILL_LEVELS_REFILL : Fld := ⟨31, 16⟩
def URN_PG_THRESH_PG_WARN : Fld := ⟨7, 0⟩
def URN_PG_THRESH_PG_PRESSURE : Fld := ⟨15, 8⟩
def URN_PG_THRESH_PG_SHED : Fld := ⟨23, 16⟩
def URN_PG_THRESH_PG_RESERVE : Fld := ⟨31, 24⟩
def URN_SPILL_REGION_BASE_GIB : Fld := ⟨6, 0⟩
def URN_SPILL_REGION_SIZE_GIB : Fld := ⟨11, 8⟩
def URN_PG_STATUS_USED : Fld := ⟨21, 0⟩
def URN_PG_STATUS_PG_WARN : Fld := ⟨22, 22⟩
def URN_PG_STATUS_PG_PRESSURE : Fld := ⟨23, 23⟩
def URN_PG_STATUS_PG_SHED : Fld := ⟨24, 24⟩
def URN_PG_STATUS_PG_RESERVE : Fld := ⟨25, 25⟩
def URN_PG_STATUS_SPILLING : Fld := ⟨26, 26⟩
def URN_PG_STATUS_LOST : Fld := ⟨31, 27⟩
def URN_SPILL_VOQS_COUNT : Fld := ⟨11, 0⟩
def URN_PEEK_HANDLE : Fld := ⟨31, 0⟩
def URN_PEEK_OWNER_OWNER : Fld := ⟨15, 0⟩
def URN_PEEK_OWNER_INCARN : Fld := ⟨23, 16⟩
def URN_PEEK_OWNER_MATCH : Fld := ⟨24, 24⟩
def URN_PEEK_OWNER_STALE : Fld := ⟨25, 25⟩
def URN_PEEK_INFO_COUNT : Fld := ⟨15, 0⟩
def URN_PEEK_INFO_CELLS : Fld := ⟨21, 16⟩
def URN_PEEK_STAMP_STAMP : Fld := ⟨31, 0⟩
def URN_AUDIT_LIMIT_LIMIT : Fld := ⟨23, 0⟩
def URN_AUDIT_LIMIT_RECLAIM : Fld := ⟨24, 24⟩
def URN_AUDIT_CTRL_EN : Fld := ⟨0, 0⟩
def URN_AUDIT_CTRL_LOG_CLEAR : Fld := ⟨1, 1⟩
def URN_AUDIT_STATUS_RUNNING : Fld := ⟨0, 0⟩
def URN_AUDIT_STATUS_LOG_VALID : Fld := ⟨5, 1⟩
def URN_AUDIT_STATUS_LOG_NEXT : Fld := ⟨9, 6⟩
def URN_AUDIT_STATUS_PASSES : Fld := ⟨31, 10⟩
def OUTSTANDING_BUFFERS : Fld := ⟨17, 0⟩
def URN_HIST_BUFFERS : Fld := ⟨17, 0⟩
def LEAK_LOG_HANDLE_HANDLE : Fld := ⟨31, 0⟩
def LEAK_LOG_INFO_OWNER : Fld := ⟨15, 0⟩
def LEAK_LOG_INFO_AGE_MS : Fld := ⟨30, 16⟩
def LEAK_LOG_INFO_RECLAIMED : Fld := ⟨31, 31⟩
def ROB_CTRL_HOLD_US : Fld := ⟨15, 0⟩
def ROB_STATUS_USED : Fld := ⟨13, 0⟩
def ROB_PUNT_MAP_RING (i : Nat) : Fld := ⟨5 + 8 * i, 0 + 8 * i⟩
def ROB_PUNT_MAP_HOST (i : Nat) : Fld := ⟨6 + 8 * i, 6 + 8 * i⟩
def TM_CTRL_WRED_EN : Fld := ⟨7, 0⟩
def TM_CTRL_ECN_EN : Fld := ⟨15, 8⟩
def TM_STATUS_STAGE_USED : Fld := ⟨10, 0⟩
def TM_VOQ_PEEK_VOQ : Fld := ⟨10, 0⟩
def TM_VOQ_DEPTH_CELLS : Fld := ⟨17, 0⟩
def TM_VOQ_DEPTH_SPILL : Fld := ⟨18, 18⟩
def TM_WRED_MIN_MIN : Fld := ⟨17, 0⟩
def TM_WRED_MAX_MAX : Fld := ⟨17, 0⟩
def TM_WRED_P_PMAX : Fld := ⟨7, 0⟩
def TM_VOQ_LIMIT_LIMIT : Fld := ⟨17, 0⟩
def TM_ECN_TH_MIN : Fld := ⟨15, 0⟩
def TM_ECN_TH_MAX : Fld := ⟨31, 16⟩
def TM_ECN_P_PMAX : Fld := ⟨7, 0⟩
def TM_PORT_ETS_STRICT : Fld := ⟨7, 0⟩
def TM_PORT_ETS_CLASS_SHAPE_EN : Fld := ⟨15, 8⟩
def TM_PORT_ETS_CREDITS : Fld := ⟨23, 16⟩
def TM_PORT_ETS_PORT_SHAPE_EN : Fld := ⟨24, 24⟩
def TM_PORT_W0_W (i : Nat) : Fld := ⟨6 + 8 * i, 0 + 8 * i⟩
def TM_PORT_W1_W (i : Nat) : Fld := ⟨6 + 8 * i, 0 + 8 * i⟩
def TM_PSH_RATE_RATE : Fld := ⟨19, 0⟩
def TM_PSH_BURST_BURST : Fld := ⟨23, 0⟩
def TM_CSH_RATE_A_RATE : Fld := ⟨19, 0⟩
def TM_CSH_BURST_A_BURST : Fld := ⟨23, 0⟩
def TM_CSH_RATE_B_RATE : Fld := ⟨19, 0⟩
def TM_CSH_BURST_B_BURST : Fld := ⟨23, 0⟩
def CAR_GROUP_SEL_GROUP : Fld := ⟨15, 0⟩
def CAR_GROUP_LO_BASE : Fld := ⟨19, 0⟩
def CAR_GROUP_LO_COUNT : Fld := ⟨28, 20⟩
def CAR_GROUP_LO_VALID : Fld := ⟨29, 29⟩
def CAR_GROUP_HI_HOLD : Fld := ⟨7, 0⟩
def CAR_CMD_GWRITE : Fld := ⟨0, 0⟩
def CAR_CMD_GREAD : Fld := ⟨1, 1⟩
def CAR_CMD_MWRITE : Fld := ⟨2, 2⟩
def CAR_CMD_MREAD : Fld := ⟨3, 3⟩
def CAR_MEMBER_SEL_INDEX : Fld := ⟨19, 0⟩
def CAR_MEMBER_PORT : Fld := ⟨7, 0⟩
def CAR_MEMBER_CLASS : Fld := ⟨10, 8⟩
def CAR_MEMBER_CLASS_EN : Fld := ⟨11, 11⟩
def CAR_MEMBER_EDIT : Fld := ⟨27, 12⟩
def CAR_MEMBER_VALID : Fld := ⟨31, 31⟩
def CAR_MQ_USED : Fld := ⟨8, 0⟩
def EDT_SET_SET : Fld := ⟨0, 0⟩
def EDT_STATUS_ACTIVE : Fld := ⟨0, 0⟩
def EDT_STATUS_OLD_BUSY : Fld := ⟨1, 1⟩
def EDT_WADDR_WORD : Fld := ⟨19, 0⟩
def EDT_WADDR_WSET : Fld := ⟨20, 20⟩
def EDT_WADDR_AUTOINC : Fld := ⟨21, 21⟩
def EDT_WDATA_DATA : Fld := ⟨31, 0⟩
def EDT_RDATA_RDATA : Fld := ⟨31, 0⟩
def HBM_CTRL_SCRUB_EN : Fld := ⟨0, 0⟩
def HBM_CTRL_TRACK_EN : Fld := ⟨1, 1⟩
def HBM_CTRL_DORMANT_EN : Fld := ⟨2, 2⟩
def HBM_CTRL_PC_SPARE : Fld := ⟨3, 3⟩
def HBM_STATUS_STATE : Fld := ⟨2, 0⟩
def HBM_STATUS_HOT : Fld := ⟨3, 3⟩
def HBM_STATUS_TEMP : Fld := ⟨11, 4⟩
def HBM_STATUS_SPARE_PC : Fld := ⟨18, 12⟩
def HBM_STATUS_SPARE_USED : Fld := ⟨19, 19⟩
def HBM_STATUS_MIGRATING : Fld := ⟨20, 20⟩
def HBM_AGE_EVEN : Fld := ⟨15, 0⟩
def HBM_AGE_ODD : Fld := ⟨31, 16⟩
def HBM_HAMMER_THRESHOLD : Fld := ⟨15, 0⟩
def HBM_HAMMER_WINDOW_MS : Fld := ⟨23, 16⟩
def HBM_THROTTLE_COUNT : Fld := ⟨7, 0⟩
def HBM_THROTTLE_EN : Fld := ⟨8, 8⟩
def HBM_THR_LAST_REQUESTER : Fld := ⟨9, 0⟩
def HBM_THR_LAST_PC : Fld := ⟨16, 10⟩
def HBM_PC_STATE_STATE : Fld := ⟨2, 0⟩
def HBM_PC_STATE_REPAIR_FULL : Fld := ⟨3, 3⟩
def HBM_PC_STATE_REPAIRS : Fld := ⟨11, 4⟩
def HBM_PC_STATE_RESTORE : Fld := ⟨12, 12⟩
def ARB_CTRL_WD_EN : Fld := ⟨0, 0⟩
def ARB_CTRL_FAULT_EN : Fld := ⟨1, 1⟩
def ARB_WD_LAST_REQUESTER : Fld := ⟨9, 0⟩
def ARB_WD_LAST_RESOURCE : Fld := ⟨22, 16⟩
def ARB_WD_TIME_LO_TIME : Fld := ⟨31, 0⟩
def ARB_WD_TIME_HI_TIME : Fld := ⟨31, 0⟩
def ARB_STATUS_RETIRED : Fld := ⟨10, 0⟩
def ARB_STATUS_SUSPECT : Fld := ⟨26, 16⟩
def ARB_RES_A_HOLD_LIMIT : Fld := ⟨15, 0⟩
def ARB_RES_A_WD_EN : Fld := ⟨16, 16⟩
def ARB_RES_B_HOLD_LIMIT : Fld := ⟨15, 0⟩
def ARB_RES_B_WD_EN : Fld := ⟨16, 16⟩
def ARB_RES_C_HOLD_LIMIT : Fld := ⟨15, 0⟩
def ARB_RES_C_WD_EN : Fld := ⟨16, 16⟩
def ARB_REQ_SEL_REQUESTER : Fld := ⟨9, 0⟩
def ARB_REQ_STATE_STATE : Fld := ⟨2, 0⟩
def ARB_REQ_STATE_LOSSES : Fld := ⟨7, 4⟩
def ARB_REQ_STATE_RESTORE : Fld := ⟨8, 8⟩
def ARB_REQ_STATE_CLEAR_MAX : Fld := ⟨9, 9⟩
def ARB_REQ_MAXWAIT_FC_CYCLES : Fld := ⟨31, 0⟩
def LKU_CTRL_HOST_LEVEL : Fld := ⟨3, 0⟩
def LK_HOST_LIMIT_LIMIT_US : Fld := ⟨15, 0⟩
def LKU_AGE_LIMIT_AGE_US : Fld := ⟨23, 0⟩
def LKU_STATUS_HELD : Fld := ⟨12, 0⟩
def LKU_STATUS_FULL : Fld := ⟨13, 13⟩
def LKU_WAIT_WAITERS : Fld := ⟨12, 0⟩
def LKU_PEEK_ADDR_LO_ADDR : Fld := ⟨31, 0⟩
def LKU_PEEK_ADDR_HI_ADDR : Fld := ⟨7, 0⟩
def LKU_PEEK_HOLDER_HOLDER : Fld := ⟨30, 0⟩
def LKU_PEEK_HOLDER_HELD : Fld := ⟨31, 31⟩
def LKU_PEEK_WAIT_COUNT : Fld := ⟨7, 0⟩
def LKU_PEEK_WAIT_TOP_LEVEL : Fld := ⟨11, 8⟩
def LKU_PEEK_WAIT_TOP_KERNEL : Fld := ⟨12, 12⟩
def LKU_PEEK_WAIT_ORPHAN : Fld := ⟨13, 13⟩
def RAS_RULE_N : Fld := ⟨7, 0⟩
def RAS_RULE_WINDOW_MS : Fld := ⟨31, 8⟩
def RAS_LINK_RETRY_PERIOD_MS : Fld := ⟨15, 0⟩
def RAS_REG_SEL_INDEX : Fld := ⟨9, 0⟩
def RAS_REG_ID0_UNIT : Fld := ⟨23, 0⟩
def RAS_REG_ID0_PLACE : Fld := ⟨27, 24⟩
def RAS_REG_ID0_TYPE : Fld := ⟨31, 28⟩
def RAS_REG_ID1_ELEMENT : Fld := ⟨31, 0⟩
def RAS_REG_STATE_STATE : Fld := ⟨2, 0⟩
def RAS_REG_STATE_COUNT : Fld := ⟨10, 3⟩
def RAS_REG_STATE_VALID : Fld := ⟨11, 11⟩
def RAS_REG_STATE_HARD : Fld := ⟨12, 12⟩
def RAS_REG_STATE_SPARE_IN : Fld := ⟨13, 13⟩
def RAS_REG_STATE_RESTORE : Fld := ⟨14, 14⟩
def RAS_REG_STATE_TOTAL : Fld := ⟨31, 16⟩
def RAS_REG_TIME_LO_TIME : Fld := ⟨31, 0⟩
def RAS_REG_TIME_HI_TIME : Fld := ⟨31, 0⟩
def RAS_REG_STATUS_USED : Fld := ⟨10, 0⟩
def PW_SEL_INSTANCE : Fld := ⟨15, 0⟩
def PW_SEL_ENTRY : Fld := ⟨19, 16⟩
def PW_INST_SPARES_LEFT : Fld := ⟨11, 0⟩
def PW_INST_SPARES : Fld := ⟨23, 12⟩
def PW_LOG_ADDR_WORD : Fld := ⟨19, 0⟩
def PW_LOG_ADDR_VALID : Fld := ⟨31, 31⟩
def PW_LOG_INFO_SYNDROME : Fld := ⟨7, 0⟩
def PW_LOG_INFO_COUNT : Fld := ⟨15, 8⟩
def PW_LOG_INFO_INJECTED : Fld := ⟨16, 16⟩
def PW_LOG_TIME_LO_TIME : Fld := ⟨31, 0⟩
def PW_LOG_TIME_HI_TIME : Fld := ⟨31, 0⟩
def PW_TEST_CTRL_BYPASS : Fld := ⟨0, 0⟩
def PW_TEST_CTRL_NOFAULT : Fld := ⟨1, 1⟩
def PW_TEST_CTRL_WRITE : Fld := ⟨2, 2⟩
def PW_TEST_CTRL_READ : Fld := ⟨3, 3⟩
def PW_TEST_ADDR_WORD : Fld := ⟨19, 0⟩
def PW_TEST_DATA_LO_DATA : Fld := ⟨31, 0⟩
def PW_TEST_DATA_HI_DATA : Fld := ⟨31, 0⟩
def PW_TEST_CHECK_CHECK : Fld := ⟨7, 0⟩
def PW_TEST_CHECK_VALID : Fld := ⟨8, 8⟩
def PW_ROWS_ROWS : Fld := ⟨11, 0⟩
def ZPW_SEL_INSTANCE : Fld := ⟨15, 0⟩
def ZPW_SEL_ENTRY : Fld := ⟨19, 16⟩
def ZPW_INST_SPARES_LEFT : Fld := ⟨11, 0⟩
def ZPW_INST_SPARES : Fld := ⟨23, 12⟩
def ZPW_LOG_ADDR_WORD : Fld := ⟨19, 0⟩
def ZPW_LOG_ADDR_VALID : Fld := ⟨31, 31⟩
def ZPW_LOG_INFO_SYNDROME : Fld := ⟨7, 0⟩
def ZPW_LOG_INFO_COUNT : Fld := ⟨15, 8⟩
def ZPW_LOG_INFO_INJECTED : Fld := ⟨16, 16⟩
def ZPW_LOG_TIME_LO_TIME : Fld := ⟨31, 0⟩
def ZPW_LOG_TIME_HI_TIME : Fld := ⟨31, 0⟩
def ZPW_TEST_CTRL_BYPASS : Fld := ⟨0, 0⟩
def ZPW_TEST_CTRL_NOFAULT : Fld := ⟨1, 1⟩
def ZPW_TEST_CTRL_WRITE : Fld := ⟨2, 2⟩
def ZPW_TEST_CTRL_READ : Fld := ⟨3, 3⟩
def ZPW_TEST_ADDR_WORD : Fld := ⟨19, 0⟩
def ZPW_TEST_DATA_LO_DATA : Fld := ⟨31, 0⟩
def ZPW_TEST_DATA_HI_DATA : Fld := ⟨31, 0⟩
def ZPW_TEST_CHECK_CHECK : Fld := ⟨7, 0⟩
def ZPW_TEST_CHECK_VALID : Fld := ⟨8, 8⟩
def ZPW_ROWS_ROWS : Fld := ⟨11, 0⟩
def ZRAS_SHADOW_CFG_MIN_JUDGED : Fld := ⟨12, 0⟩
def ZRAS_SHADOW_STATUS_JUDGED : Fld := ⟨12, 0⟩
def ZRAS_SHADOW_STATUS_UNJUDGED : Fld := ⟨28, 16⟩
def ZRAS_SHADOW_STATUS_MISMATCH : Fld := ⟨29, 29⟩
def ZRAS_SHADOW_STATUS_PASSED : Fld := ⟨30, 30⟩
def ZRAS_REBUILD_REBUILDING : Fld := ⟨0, 0⟩
def HIF_STATUS_WIDTH : Fld := ⟨2, 0⟩
def HIF_STATUS_SPEED : Fld := ⟨5, 3⟩
def HIF_STATUS_LINK_PM : Fld := ⟨7, 6⟩
def HIF_STATUS_D3HOT : Fld := ⟨8, 8⟩
def HIF_STATUS_BME : Fld := ⟨9, 9⟩
def HIF_STATUS_HELD_IRQ : Fld := ⟨10, 10⟩
def HIF_STATUS_LANES_GOOD : Fld := ⟨18, 11⟩
def HIF_ERR_BAR2_HOLE : Fld := ⟨0, 0⟩
def HIF_ERR_DB_NARROW : Fld := ⟨1, 1⟩
def HIF_ERR_DB_RANGE : Fld := ⟨2, 2⟩
def HIF_ERR_HOST_READ_ERR : Fld := ⟨3, 3⟩
def PRING_BASE_LO_ADDR : Fld := ⟨31, 0⟩
def PRING_BASE_HI_ADDR : Fld := ⟨31, 0⟩
def PRING_CBASE_LO_ADDR : Fld := ⟨31, 0⟩
def PRING_CBASE_HI_ADDR : Fld := ⟨31, 0⟩
def PRING_CTL_LOG2_SIZE : Fld := ⟨3, 0⟩
def PRING_CTL_ENABLE : Fld := ⟨4, 4⟩
def PRING_CTL_VEC_EN : Fld := ⟨5, 5⟩
def PRING_CTL_VECTOR : Fld := ⟨12, 6⟩
def PRING_CTL_ZONE : Fld := ⟨14, 13⟩
def PRING_THR_COUNT : Fld := ⟨15, 0⟩
def PRING_THR_TIME_US : Fld := ⟨31, 16⟩
def PRING_IDX_CONSUMED : Fld := ⟨15, 0⟩
def PRING_IDX_DOORBELL : Fld := ⟨31, 16⟩
def PRING_MOD_UNANNOUNCED : Fld := ⟨15, 0⟩
def PRING_MOD_TIMER : Fld := ⟨16, 16⟩
def PRING_MOD_HELD : Fld := ⟨17, 17⟩
def IRING_BASE_LO_ADDR : Fld := ⟨31, 0⟩
def IRING_BASE_HI_ADDR : Fld := ⟨31, 0⟩
def IRING_CBASE_LO_ADDR : Fld := ⟨31, 0⟩
def IRING_CBASE_HI_ADDR : Fld := ⟨31, 0⟩
def IRING_CTL_LOG2_SIZE : Fld := ⟨3, 0⟩
def IRING_CTL_ENABLE : Fld := ⟨4, 4⟩
def IRING_CTL_VEC_EN : Fld := ⟨5, 5⟩
def IRING_CTL_VECTOR : Fld := ⟨12, 6⟩
def IRING_CTL_ZONE : Fld := ⟨14, 13⟩
def IRING_THR_COUNT : Fld := ⟨15, 0⟩
def IRING_THR_TIME_US : Fld := ⟨31, 16⟩
def IRING_IDX_CONSUMED : Fld := ⟨15, 0⟩
def IRING_IDX_DOORBELL : Fld := ⟨31, 16⟩
def IRING_MOD_UNANNOUNCED : Fld := ⟨15, 0⟩
def IRING_MOD_TIMER : Fld := ⟨16, 16⟩
def IRING_MOD_HELD : Fld := ⟨17, 17⟩
def TRING_BASE_LO_ADDR : Fld := ⟨31, 0⟩
def TRING_BASE_HI_ADDR : Fld := ⟨31, 0⟩
def TRING_CBASE_LO_ADDR : Fld := ⟨31, 0⟩
def TRING_CBASE_HI_ADDR : Fld := ⟨31, 0⟩
def TRING_CTL_LOG2_SIZE : Fld := ⟨3, 0⟩
def TRING_CTL_ENABLE : Fld := ⟨4, 4⟩
def TRING_CTL_VEC_EN : Fld := ⟨5, 5⟩
def TRING_CTL_VECTOR : Fld := ⟨12, 6⟩
def TRING_CTL_ZONE : Fld := ⟨14, 13⟩
def TRING_THR_COUNT : Fld := ⟨15, 0⟩
def TRING_THR_TIME_US : Fld := ⟨31, 16⟩
def TRING_IDX_CONSUMED : Fld := ⟨15, 0⟩
def TRING_IDX_DOORBELL : Fld := ⟨31, 16⟩
def TRING_MOD_UNANNOUNCED : Fld := ⟨15, 0⟩
def TRING_MOD_TIMER : Fld := ⟨16, 16⟩
def TRING_MOD_HELD : Fld := ⟨17, 17⟩
def ERING_BASE_LO_ADDR : Fld := ⟨31, 0⟩
def ERING_BASE_HI_ADDR : Fld := ⟨31, 0⟩
def ERING_CBASE_LO_ADDR : Fld := ⟨31, 0⟩
def ERING_CBASE_HI_ADDR : Fld := ⟨31, 0⟩
def ERING_CTL_LOG2_SIZE : Fld := ⟨3, 0⟩
def ERING_CTL_ENABLE : Fld := ⟨4, 4⟩
def ERING_CTL_VEC_EN : Fld := ⟨5, 5⟩
def ERING_CTL_VECTOR : Fld := ⟨12, 6⟩
def ERING_CTL_ZONE : Fld := ⟨14, 13⟩
def ERING_THR_COUNT : Fld := ⟨15, 0⟩
def ERING_THR_TIME_US : Fld := ⟨31, 16⟩
def ERING_IDX_CONSUMED : Fld := ⟨15, 0⟩
def ERING_IDX_DOORBELL : Fld := ⟨31, 16⟩
def ERING_MOD_UNANNOUNCED : Fld := ⟨15, 0⟩
def ERING_MOD_TIMER : Fld := ⟨16, 16⟩
def ERING_MOD_HELD : Fld := ⟨17, 17⟩
def MGT_FW_COPY : Fld := ⟨0, 0⟩
def MGT_FW_READY : Fld := ⟨1, 1⟩
def MGT_FW_VERSION_VERSION : Fld := ⟨31, 0⟩
def MGT_DBG_MEMACC_EN : Fld := ⟨0, 0⟩
def UART_BAUD_DIV : Fld := ⟨11, 0⟩
def UART_BAUD_FRAC : Fld := ⟨17, 12⟩
def UART_LEVELS_RX_LEVEL : Fld := ⟨6, 0⟩
def UART_LEVELS_TX_LEVEL : Fld := ⟨14, 8⟩
def I3C_ADDR_DYN_ADDR : Fld := ⟨6, 0⟩
def I3C_ADDR_DA_VALID : Fld := ⟨7, 7⟩
def I3C_ADDR_STATIC_ADDR : Fld := ⟨14, 8⟩
def LSR_CTRL_CTL_EN : Fld := ⟨0, 0⟩
def LSR_CTRL_I2C_SRC : Fld := ⟨1, 1⟩
def LSR_SLOT_ADDR : Fld := ⟨6, 0⟩
def LSR_SLOT_VALID : Fld := ⟨7, 7⟩
def LSR_SLOT_EN_REG : Fld := ⟨15, 8⟩
def LSR_SLOT_ON_VAL : Fld := ⟨23, 16⟩
def LSR_SLOT_OFF_VAL : Fld := ⟨31, 24⟩
def GPIO_OUT_OUT : Fld := ⟨15, 0⟩
def GPIO_OE_OE : Fld := ⟨15, 0⟩
def GPIO_IN_IN : Fld := ⟨15, 0⟩
def GPIO_EDGE_RISE_EN : Fld := ⟨15, 0⟩
def GPIO_EDGE_FALL_EN : Fld := ⟨15, 0⟩
def CLAIM_1_WORD : Fld := ⟨31, 0⟩
def COMPLETE_1_ID : Fld := ⟨9, 0⟩
def CLAIM_2_WORD : Fld := ⟨31, 0⟩
def COMPLETE_2_ID : Fld := ⟨9, 0⟩
def COMPLETE_3_ID : Fld := ⟨9, 0⟩
def CLAIM_4_WORD : Fld := ⟨31, 0⟩
def COMPLETE_4_ID : Fld := ⟨9, 0⟩
def CLAIM_5_WORD : Fld := ⟨31, 0⟩
def COMPLETE_5_ID : Fld := ⟨9, 0⟩
def CLAIM_6_WORD : Fld := ⟨31, 0⟩
def COMPLETE_6_ID : Fld := ⟨9, 0⟩
def IC_CTRL_EN : Fld := ⟨0, 0⟩
def IC_ERR_COMPLETE_BAD : Fld := ⟨0, 0⟩
def IC_ERR_POST_STALL : Fld := ⟨1, 1⟩
def IC_PINS_LOW : Fld := ⟨2, 0⟩
def IC_KWAIT_SOURCES : Fld := ⟨9, 0⟩
def ALARM_TIME_LO_TIME : Fld := ⟨31, 0⟩
def ALARM_TIME_HI_TIME : Fld := ⟨31, 0⟩
def ALARM_CTRL_ARM : Fld := ⟨0, 0⟩
def ALARM_CTRL_LATE : Fld := ⟨1, 1⟩
def ALARM_PERIOD_NS_PERIOD : Fld := ⟨31, 0⟩
def IC_GROUP_COUNT : Fld := ⟨15, 0⟩
def IC_GROUP_TIME_US : Fld := ⟨31, 16⟩
def IC_GROUP_STATE_EDGES : Fld := ⟨15, 0⟩
def IC_GROUP_STATE_TIMER : Fld := ⟨16, 16⟩
def GROUP_RELEASE_LO_RELEASE : Fld := ⟨31, 0⟩
def GROUP_RELEASE_HI_RELEASE : Fld := ⟨31, 0⟩
def SRC_CFG_LOW_MASK : Fld := ⟨0, 0⟩
def SRC_CFG_LOW_PRIO : Fld := ⟨4, 1⟩
def SRC_CFG_LOW_TARGET : Fld := ⟨7, 5⟩
def SRC_CFG_LOW_CO_EN : Fld := ⟨8, 8⟩
def SRC_CFG_LOW_GROUP : Fld := ⟨14, 9⟩
def SRC_CFG_LOW_VECTOR : Fld := ⟨21, 15⟩
def SRC_CFG_LOW_KPLACE : Fld := ⟨24, 22⟩
def SRC_CFG_LOW_KCORE : Fld := ⟨29, 25⟩
def SRC_CFG_LOW_WAKE_EN : Fld := ⟨30, 30⟩
def SRC_CFG_HIGH_MASK : Fld := ⟨0, 0⟩
def SRC_CFG_HIGH_PRIO : Fld := ⟨4, 1⟩
def SRC_CFG_HIGH_TARGET : Fld := ⟨7, 5⟩
def SRC_CFG_HIGH_CO_EN : Fld := ⟨8, 8⟩
def SRC_CFG_HIGH_GROUP : Fld := ⟨14, 9⟩
def SRC_CFG_HIGH_VECTOR : Fld := ⟨21, 15⟩
def SRC_CFG_HIGH_KPLACE : Fld := ⟨24, 22⟩
def SRC_CFG_HIGH_KCORE : Fld := ⟨29, 25⟩
def SRC_CFG_HIGH_WAKE_EN : Fld := ⟨30, 30⟩
def SRC_STATE_LOW_PENDING : Fld := ⟨0, 0⟩
def SRC_STATE_LOW_ACTIVE : Fld := ⟨1, 1⟩
def SRC_STATE_LOW_MERGED : Fld := ⟨2, 2⟩
def SRC_STATE_LOW_HELD : Fld := ⟨3, 3⟩
def SRC_STATE_LOW_COUNT : Fld := ⟨11, 4⟩
def SRC_STATE_LOW_CLEAR : Fld := ⟨12, 12⟩
def SRC_STATE_LOW_FORCE_COMPLETE : Fld := ⟨13, 13⟩
def SRC_STATE_HIGH_PENDING : Fld := ⟨0, 0⟩
def SRC_STATE_HIGH_ACTIVE : Fld := ⟨1, 1⟩
def SRC_STATE_HIGH_MERGED : Fld := ⟨2, 2⟩
def SRC_STATE_HIGH_HELD : Fld := ⟨3, 3⟩
def SRC_STATE_HIGH_COUNT : Fld := ⟨11, 4⟩
def SRC_STATE_HIGH_CLEAR : Fld := ⟨12, 12⟩
def SRC_STATE_HIGH_FORCE_COMPLETE : Fld := ⟨13, 13⟩
def CLK_CTRL_PREFER : Fld := ⟨0, 0⟩
def CLK_CTRL_REVERT : Fld := ⟨1, 1⟩
def CLK_CTRL_B_EN : Fld := ⟨2, 2⟩
def CLK_STATUS_ACTIVE : Fld := ⟨0, 0⟩
def CLK_STATUS_A_OK : Fld := ⟨1, 1⟩
def CLK_STATUS_B_OK : Fld := ⟨2, 2⟩
def CLK_STATUS_COAST : Fld := ⟨3, 3⟩
def CLK_STATUS_LOCK : Fld := ⟨4, 4⟩
def CLK_STATUS_DISAGREE : Fld := ⟨5, 5⟩
def CLK_STATUS_A_PASSES : Fld := ⟨7, 6⟩
def CLK_STATUS_B_PASSES : Fld := ⟨9, 8⟩
def CLK_COUNT_COUNT : Fld := ⟨15, 0⟩
def CLK_COUNT_VS_RC : Fld := ⟨16, 16⟩
def CLK_RUN_EN_EN : Fld := ⟨3, 0⟩
def CLK_SLEEP_EN_EN : Fld := ⟨3, 0⟩
def CLK_DEEP_EN_EN : Fld := ⟨3, 0⟩
def TB_NOW_LO_NOW : Fld := ⟨31, 0⟩
def TB_NOW_HI_NOW : Fld := ⟨31, 0⟩
def TB_NOW_FRAC_FRAC : Fld := ⟨15, 0⟩
def TB_RATE_LO_RATE : Fld := ⟨31, 0⟩
def TB_RATE_HI_RATE : Fld := ⟨7, 0⟩
def TB_SET_LO_SET : Fld := ⟨31, 0⟩
def TB_SET_HI_SET : Fld := ⟨31, 0⟩
def TB_SET_FRAC_FRAC : Fld := ⟨15, 0⟩
def TB_CMD_SET : Fld := ⟨0, 0⟩
def TB_CMD_ADJUST : Fld := ⟨1, 1⟩
def TB_ADJ_ADJ : Fld := ⟨31, 0⟩
def TB_PPS_PPS_EN : Fld := ⟨0, 0⟩
def TB_PPS_WIDTH_US : Fld := ⟨31, 16⟩
def TB_PPS_OFFSET_OFFSET : Fld := ⟨31, 0⟩
def TB_PPS_IN_LO_NS : Fld := ⟨31, 0⟩
def TB_PPS_IN_HI_NS : Fld := ⟨31, 0⟩
def TB_PPS_IN_FRAC_FRAC : Fld := ⟨15, 0⟩
def TB_STATUS_HOLDOVER : Fld := ⟨0, 0⟩
def TB_STATUS_ZONE_SYNC : Fld := ⟨4, 1⟩
def PWR_LEVELS_ZONE (i : Nat) : Fld := ⟨2 + 4 * i, 0 + 4 * i⟩
def PWR_CAUSE_CAUSE : Fld := ⟨6, 0⟩
def PWR_FORCE_FORCE : Fld := ⟨2, 0⟩
def PWR_VIN_VIN_MV : Fld := ⟨15, 0⟩
def PWR_VIN_MIN_MV : Fld := ⟨31, 16⟩
def PWR_CRANK_CRANK_US : Fld := ⟨7, 0⟩
def PWR_CRANK_CLEAR_US : Fld := ⟨15, 8⟩
def PWR_INPUT_INPUT_DW : Fld := ⟨15, 0⟩
def PWR_CAP_CAP_W : Fld := ⟨9, 0⟩
def PWR_DIE_T_T1 : Fld := ⟨7, 0⟩
def PWR_DIE_T_T2 : Fld := ⟨15, 8⟩
def PWR_DIE_T_T3 : Fld := ⟨23, 16⟩
def PWR_DIE_T_T4 : Fld := ⟨31, 24⟩
def PWR_HBM_T_T1 : Fld := ⟨7, 0⟩
def PWR_HBM_T_T2 : Fld := ⟨15, 8⟩
def PWR_HBM_T_T3 : Fld := ⟨23, 16⟩
def PWR_HBM_T_T4 : Fld := ⟨31, 24⟩
def PWR_THYST_HYST : Fld := ⟨3, 0⟩
def PWR_TEMP_TEMP : Fld := ⟨7, 0⟩
def PWR_SHARE_FLOOR : Fld := ⟨7, 0⟩
def PWR_SHARE_CEIL : Fld := ⟨15, 8⟩
def PWR_SHARE_NOW : Fld := ⟨23, 16⟩
def PWR_STATE_STATE : Fld := ⟨1, 0⟩
def PWR_STATE_SLEEP_EN : Fld := ⟨4, 4⟩
def PWR_STATE_DEEP_EN : Fld := ⟨5, 5⟩
def PWR_HOST_WAKE_LO_NS : Fld := ⟨31, 0⟩
def PWR_HOST_WAKE_HI_NS : Fld := ⟨31, 0⟩
def PWR_NEXT_NEXT_US : Fld := ⟨27, 0⟩
def PWR_NEXT_SOURCE : Fld := ⟨31, 28⟩
def PWR_UNIT_EN_NAP_EN : Fld := ⟨0, 0⟩
def PWR_UNIT_EN_DOZE_EN : Fld := ⟨1, 1⟩
def PWR_UNIT_EN_DORMANT_EN : Fld := ⟨2, 2⟩
def PWR_MAX_ACTIVE_MAX_ACTIVE : Fld := ⟨4, 0⟩
def PWR_MAX_ACTIVE_LEVEL : Fld := ⟨10, 8⟩
def CDY_CTRL_AUTO_CFG : Fld := ⟨0, 0⟩
def CDY_CTRL_CKPT_EN : Fld := ⟨1, 1⟩
def CDY_CTRL_CKPT_MIN : Fld := ⟨15, 8⟩
def CDY_STATUS_SOURCE : Fld := ⟨1, 0⟩
def CDY_STATUS_AREA : Fld := ⟨2, 2⟩
def CDY_STATUS_PENDING : Fld := ⟨3, 3⟩
def CDY_STATUS_CFG_DIRTY : Fld := ⟨4, 4⟩
def CDY_STATUS_CKPT_VALID : Fld := ⟨5, 5⟩
def CDY_STATUS_BUSY : Fld := ⟨6, 6⟩
def CDY_STATUS_WEAR : Fld := ⟨15, 8⟩
def CDY_SNAP_SEQ_SEQ : Fld := ⟨31, 0⟩
def CDY_JRNL_SEQ_SEQ : Fld := ⟨31, 0⟩
def CDY_CMD_SYNC : Fld := ⟨0, 0⟩
def CDY_CMD_SNAPSHOT : Fld := ⟨1, 1⟩
def CDY_CMD_SAVE_CFG : Fld := ⟨2, 2⟩
def CDY_CMD_CHECKPOINT : Fld := ⟨3, 3⟩
def CDY_CMD_ERASE : Fld := ⟨4, 4⟩
def CDY_CMD_KEY : Fld := ⟨31, 24⟩
def CDY_FW_CTRL_STORE : Fld := ⟨0, 0⟩
def CDY_FW_CTRL_SWITCH : Fld := ⟨1, 1⟩
def CDY_FW_CTRL_RUNNING : Fld := ⟨4, 4⟩
def CDY_FW_CTRL_BOOT_COPY : Fld := ⟨5, 5⟩
def CDY_FW_CTRL_STATE : Fld := ⟨10, 8⟩
def CDY_FW_SRC_SRC_PAGE : Fld := ⟨23, 12⟩
def CDY_FW_LEN_LEN : Fld := ⟨24, 0⟩
def CDY_LOG_IDX_LOG_IDX : Fld := ⟨19, 0⟩
def CDY_LOG_W_W : Fld := ⟨31, 0⟩
def TWN_CTRL_EN : Fld := ⟨0, 0⟩
def TWN_CTRL_JOIN_MS : Fld := ⟨19, 8⟩
def TWN_CTRL_RETRY_MS : Fld := ⟨31, 20⟩
def TWN_STATUS_STATE : Fld := ⟨2, 0⟩
def TWN_STATUS_ROLE : Fld := ⟨3, 3⟩
def TWN_STATUS_ROLE_CONFLICT : Fld := ⟨4, 4⟩
def TWN_STATUS_LINK_UP : Fld := ⟨5, 5⟩
def TWN_STATUS_ALIVE_IN : Fld := ⟨6, 6⟩
def TWN_STATUS_BLOCKING : Fld := ⟨7, 7⟩
def TWN_STATUS_JOURNAL_OVF : Fld := ⟨8, 8⟩
def TWN_STATUS_RECONCILING : Fld := ⟨9, 9⟩
def TWN_DUAL_DUAL : Fld := ⟨31, 0⟩
def TWN_SYNC_SYNC : Fld := ⟨31, 0⟩
def TWN_JOURNAL_JOURNAL : Fld := ⟨16, 0⟩
def TWN_PARTNER_LO_SERIAL : Fld := ⟨31, 0⟩
def TWN_PARTNER_HI_SERIAL : Fld := ⟨31, 0⟩
def TWN_LANES_TX_LOCK : Fld := ⟨7, 0⟩
def TWN_LANES_RX_LOCK : Fld := ⟨15, 8⟩
def DEV_ID_PART : Fld := ⟨15, 0⟩
def DEV_ID_REV : Fld := ⟨23, 16⟩
def DEV_ID_VARIANT : Fld := ⟨24, 24⟩
def DEV_SERIAL_LO_SERIAL : Fld := ⟨31, 0⟩
def DEV_SERIAL_HI_SERIAL : Fld := ⟨31, 0⟩
def DEV_MAC_LO_MAC : Fld := ⟨31, 0⟩
def DEV_MAC_HI_MAC : Fld := ⟨15, 0⟩
def DEV_STRAPS_BOOT_SEL : Fld := ⟨1, 0⟩
def DEV_STRAPS_TWIN_ROLE : Fld := ⟨2, 2⟩
def DEV_STRAPS_FACTORY : Fld := ⟨3, 3⟩
def DEV_STRAPS_MGMT_ADDR : Fld := ⟨5, 4⟩
def DEV_PHASE_PHASE : Fld := ⟨3, 0⟩
def DEV_PHASE_ZONE_UP : Fld := ⟨7, 4⟩
def DEV_PHASE_ZONE_OPEN : Fld := ⟨11, 8⟩
def DEV_PHASE_FWD_OPEN : Fld := ⟨12, 12⟩
def DEV_PHASE_WARM : Fld := ⟨13, 13⟩
def DEV_OPEN_MS_OPEN_MS : Fld := ⟨15, 0⟩
def DEV_POWERUPS_POWERUPS : Fld := ⟨31, 0⟩
def DEV_RESET_WARM : Fld := ⟨0, 0⟩
def DEV_RESET_KEY : Fld := ⟨31, 24⟩
def TEL_CTRL_EN : Fld := ⟨0, 0⟩
def TEL_CTRL_HOST : Fld := ⟨1, 1⟩
def TEL_CTRL_HBM_EN : Fld := ⟨2, 2⟩
def TEL_PERIOD_PERIOD_US : Fld := ⟨23, 0⟩
def TEL_CWIN_BASE (i : Nat) : Fld := ⟨3 + 4 * i, 0 + 4 * i⟩
def TEL_CMD_CLEAR_WM : Fld := ⟨0, 0⟩
def TEL_CMD_SAMPLE_NOW : Fld := ⟨1, 1⟩
def TEL_STATUS_SEQ : Fld := ⟨23, 0⟩
def TEL_STATUS_BUSY : Fld := ⟨24, 24⟩
def TEL_HBM_BASE_HBM_BASE : Fld := ⟨16, 0⟩
def TEL_HBM_SIZE_HBM_SIZE : Fld := ⟨15, 0⟩
def TEL_HBM_WPTR_WPTR : Fld := ⟨31, 0⟩
def TEL_PROBE_KIND : Fld := ⟨4, 0⟩
def TEL_PROBE_MODE : Fld := ⟨6, 5⟩
def TEL_PROBE_INDEX_INDEX : Fld := ⟨31, 0⟩
def TEL_ALERT_LO_ALERT : Fld := ⟨31, 0⟩
def TEL_ALERT_HI_ALERT : Fld := ⟨31, 0⟩
def TEL_PMC_SEL_EVT : Fld := ⟨3, 0⟩
def TEL_PMC_SEL_HELPER : Fld := ⟨7, 4⟩
def TEL_PMC_SEL_SCOPE : Fld := ⟨9, 8⟩
def TEL_PMC_SEL_CHAIN : Fld := ⟨10, 10⟩
def TEL_PMC_SEL_FREEZE : Fld := ⟨11, 11⟩
def TEL_PMC_THRESH_THRESH : Fld := ⟨31, 0⟩
def TEL_PMC_CTRL_CLEAR : Fld := ⟨0, 0⟩
def TEL_PMC_CTRL_UNFREEZE : Fld := ⟨1, 1⟩
def TEL_PMC_CTRL_FROZEN : Fld := ⟨2, 2⟩
def TEL_PMC_CTRL_HIT : Fld := ⟨7, 4⟩
def TEL_PMC_HITMAP_CORES : Fld := ⟨25, 0⟩

end Sys2Proof.Machine.Fl
end

