-- ==== Sys2Proof/Machine/RegTab.lean ====
section
/-!
DEFINITION. The register tables of the spec (R8 to R11), page by page: every register's offset, its fields with their
access code, whether they are kept, their factory value and the values that are not reserved; and the 64-bit counters.
-/

namespace Sys2Proof.Machine
open Sys2Proof

/-- Access codes of R9. -/
inductive Acc where
  | rw | rwc | rwh | ro | w1c | w1s | rc | wo
  deriving DecidableEq, Repr

/-- One field: its bits, access code, Kept, factory value and the ranges of values that are not reserved on their own
(no range listed: every value is allowed). -/
structure FieldD where
  hi : Nat
  lo : Nat
  acc : Acc
  kept : Bool
  fact : Nat
  allow : List (Nat × Nat)
  deriving DecidableEq, Repr

/-- A register or an array of `count` of them, `stride` bytes apart; `claim` marks a claim or latch read (R46). -/
structure RegD where
  off : Nat
  count : Nat
  stride : Nat
  claim : Bool
  fields : List FieldD
  deriving DecidableEq, Repr

/-- A 64-bit counter or a (two-dimensional) array of them. -/
structure CtrD where
  off : Nat
  n1 : Nat
  s1 : Nat
  n2 : Nat
  s2 : Nat
  deriving DecidableEq, Repr

/-- The block's own registers of one page, above the common header. -/
structure PageD where
  regs : List RegD
  ctrs : List CtrD
  deriving DecidableEq, Repr

def pgXB0Regs : List RegD :=
  [⟨0x40, 1, 0x4, false, [⟨0, 0, .w1s, false, 0, []⟩, ⟨1, 1, .rw, false, 0, []⟩, ⟨2, 2, .rw, true, 1, []⟩]⟩,
   ⟨0x44, 1, 0x4, false, [⟨2, 0, .ro, false, 0, []⟩, ⟨13, 8, .ro, false, 0, []⟩, ⟨21, 16, .ro, false, 0, []⟩, ⟨24, 24, .ro, false, 0, []⟩, ⟨25, 25, .ro, false, 0, []⟩]⟩]
def pgXB0 : PageD := ⟨pgXB0Regs, [⟨0x48, 1, 0x8, 1, 0x8⟩, ⟨0x50, 1, 0x8, 1, 0x8⟩, ⟨0x58, 1, 0x8, 1, 0x8⟩]⟩
def pgDEV0Regs : List RegD :=
  [⟨0x40, 1, 0x4, false, [⟨0, 0, .w1c, false, 0, []⟩, ⟨1, 1, .w1c, false, 0, []⟩, ⟨2, 2, .w1c, false, 0, []⟩, ⟨3, 3, .w1c, false, 0, []⟩, ⟨4, 4, .w1c, false, 0, []⟩]⟩,
   ⟨0x44, 1, 0x4, false, [⟨25, 0, .ro, false, 0, []⟩, ⟨28, 26, .ro, false, 0, []⟩, ⟨29, 29, .ro, false, 0, []⟩]⟩,
   ⟨0x50, 1, 0x4, false, [⟨0, 0, .rw, false, 0, []⟩, ⟨1, 1, .rw, false, 0, []⟩, ⟨2, 2, .w1s, false, 0, []⟩, ⟨3, 3, .w1s, false, 0, []⟩]⟩,
   ⟨0x54, 1, 0x4, false, [⟨0, 0, .ro, false, 0, []⟩, ⟨1, 1, .ro, false, 0, []⟩, ⟨31, 16, .ro, false, 0, []⟩]⟩,
   ⟨0x58, 1, 0x4, false, [⟨31, 0, .rw, false, 0, []⟩]⟩,
   ⟨0x5c, 1, 0x4, false, [⟨31, 0, .rw, false, 0, []⟩]⟩,
   ⟨0x80, 16, 0x4, false, [⟨13, 0, .rw, false, 0, []⟩, ⟨31, 31, .rw, false, 0, []⟩]⟩]
def pgDEV0 : PageD := ⟨pgDEV0Regs, []⟩
def pgOE0Regs : List RegD :=
  [⟨0x40, 1, 0x4, false, [⟨0, 0, .rw, true, 1, []⟩, ⟨1, 1, .rw, true, 1, []⟩, ⟨5, 4, .rwh, true, 0, [(0, 2)]⟩, ⟨8, 8, .w1s, false, 0, []⟩, ⟨9, 9, .w1s, false, 0, []⟩]⟩,
   ⟨0x44, 1, 0x4, false, [⟨2, 0, .ro, false, 0, []⟩, ⟨6, 4, .ro, false, 0, []⟩, ⟨8, 8, .ro, false, 0, []⟩, ⟨9, 9, .ro, false, 0, []⟩, ⟨10, 10, .ro, false, 0, []⟩, ⟨31, 16, .ro, false, 0, []⟩]⟩,
   ⟨0x48, 1, 0x4, false, [⟨6, 0, .rw, true, 55, [(50, 65)]⟩, ⟨31, 16, .rw, true, 1000, [(1, 65535)]⟩]⟩,
   ⟨0x4c, 1, 0x4, false, [⟨15, 0, .ro, false, 0, []⟩]⟩,
   ⟨0x50, 1, 0x4, false, [⟨15, 0, .ro, false, 0, []⟩, ⟨31, 16, .ro, false, 0, []⟩]⟩,
   ⟨0x54, 1, 0x4, false, [⟨7, 0, .rw, true, 150, []⟩, ⟨15, 8, .rw, true, 130, []⟩, ⟨23, 16, .rw, true, 195, []⟩]⟩]
def pgOE0 : PageD := ⟨pgOE0Regs, [⟨0x58, 1, 0x8, 1, 0x8⟩, ⟨0x60, 1, 0x8, 1, 0x8⟩]⟩
def pgOE1Regs : List RegD :=
  [⟨0x40, 16, 0x10, false, [⟨0, 0, .rw, true, 0, []⟩, ⟨1, 1, .rwh, false, 0, []⟩, ⟨2, 2, .rw, false, 0, []⟩]⟩,
   ⟨0x44, 16, 0x10, false, [⟨15, 0, .ro, false, 0, []⟩, ⟨31, 16, .ro, false, 0, []⟩]⟩,
   ⟨0x48, 16, 0x10, false, [⟨11, 0, .ro, false, 0, []⟩]⟩,
   ⟨0x4c, 16, 0x10, false, [⟨31, 0, .rc, false, 0, []⟩]⟩]
def pgOE1 : PageD := ⟨pgOE1Regs, []⟩
def pgQUAD0Regs : List RegD :=
  [⟨0x40, 1, 0x4, false, [⟨2, 0, .rwh, true, 0, [(0, 4)]⟩, ⟨7, 4, .rwh, true, 15, []⟩]⟩,
   ⟨0x44, 1, 0x4, false, [⟨1, 0, .rwc, true, 0, [(0, 2)]⟩, ⟨3, 2, .rwc, true, 0, [(0, 2)]⟩, ⟨5, 4, .rwc, true, 0, [(0, 2)]⟩, ⟨7, 6, .rwc, true, 0, [(0, 2)]⟩]⟩,
   ⟨0x48, 1, 0x4, false, [⟨7, 0, .rwc, true, 0, []⟩, ⟨15, 8, .rwc, true, 0, []⟩, ⟨23, 16, .rwc, true, 0, []⟩, ⟨31, 24, .rwc, true, 0, []⟩]⟩,
   ⟨0x4c, 1, 0x4, false, [⟨15, 0, .rwc, true, 65535, [(1, 65535)]⟩]⟩,
   ⟨0x50, 1, 0x4, false, [⟨31, 0, .rw, true, 0, []⟩]⟩,
   ⟨0x54, 1, 0x4, false, [⟨15, 0, .rw, true, 0, []⟩]⟩,
   ⟨0x58, 1, 0x4, false, [⟨13, 0, .rwc, true, 9216, [(1518, 9216)]⟩]⟩,
   ⟨0x5c, 1, 0x4, false, [⟨0, 0, .rwc, true, 0, []⟩, ⟨1, 1, .rwc, true, 0, []⟩]⟩] ++
  [⟨0x60, 1, 0x4, false, [⟨31, 0, .rw, true, 0, []⟩]⟩,
   ⟨0x64, 1, 0x4, false, [⟨31, 0, .rw, true, 0, []⟩]⟩,
   ⟨0x68, 1, 0x4, false, [⟨0, 0, .ro, false, 0, []⟩, ⟨4, 4, .ro, false, 0, []⟩, ⟨8, 8, .ro, false, 0, []⟩, ⟨12, 12, .ro, false, 0, []⟩, ⟨1, 1, .ro, false, 0, []⟩, ⟨5, 5, .ro, false, 0, []⟩, ⟨9, 9, .ro, false, 0, []⟩, ⟨13, 13, .ro, false, 0, []⟩, ⟨2, 2, .ro, false, 0, []⟩, ⟨6, 6, .ro, false, 0, []⟩, ⟨10, 10, .ro, false, 0, []⟩, ⟨14, 14, .ro, false, 0, []⟩, ⟨3, 3, .ro, false, 0, []⟩, ⟨7, 7, .ro, false, 0, []⟩, ⟨11, 11, .ro, false, 0, []⟩, ⟨15, 15, .ro, false, 0, []⟩, ⟨19, 16, .ro, false, 0, []⟩]⟩]
def pgQUAD0 : PageD := ⟨pgQUAD0Regs, [⟨0x100, 4, 0x200, 1, 0x8⟩, ⟨0x108, 4, 0x200, 1, 0x8⟩, ⟨0x110, 4, 0x200, 1, 0x8⟩, ⟨0x118, 4, 0x200, 1, 0x8⟩, ⟨0x120, 4, 0x200, 1, 0x8⟩, ⟨0x128, 4, 0x200, 1, 0x8⟩, ⟨0x130, 4, 0x200, 1, 0x8⟩, ⟨0x138, 4, 0x200, 1, 0x8⟩, ⟨0x140, 4, 0x200, 1, 0x8⟩, ⟨0x148, 4, 0x200, 1, 0x8⟩, ⟨0x150, 4, 0x200, 1, 0x8⟩, ⟨0x158, 4, 0x200, 1, 0x8⟩, ⟨0x160, 4, 0x200, 1, 0x8⟩, ⟨0x168, 4, 0x200, 1, 0x8⟩, ⟨0x170, 4, 0x200, 1, 0x8⟩, ⟨0x178, 4, 0x200, 1, 0x8⟩, ⟨0x180, 4, 0x200, 8, 0x8⟩, ⟨0x1c0, 4, 0x200, 8, 0x8⟩, ⟨0x200, 4, 0x200, 16, 0x8⟩, ⟨0x280, 4, 0x200, 1, 0x8⟩, ⟨0x288, 4, 0x200, 1, 0x8⟩, ⟨0x290, 4, 0x200, 1, 0x8⟩, ⟨0x900, 4, 0x20, 1, 0x8⟩, ⟨0x908, 4, 0x20, 1, 0x8⟩]⟩
def pgSTR0Regs : List RegD :=
  [⟨0x40, 1, 0x4, false, [⟨8, 0, .rwc, true, 256, [(64, 256)]⟩, ⟨20, 16, .rwc, true, 24, [(1, 24)]⟩, ⟨22, 21, .rwc, true, 2, [(0, 2)]⟩, ⟨24, 24, .rwc, true, 0, []⟩]⟩,
   ⟨0x44, 1, 0x4, false, [⟨15, 0, .rwc, true, 4789, []⟩, ⟨31, 16, .rwc, true, 6081, []⟩]⟩,
   ⟨0x48, 1, 0x4, false, [⟨31, 0, .rwc, true, 4294967295, []⟩]⟩,
   ⟨0x4c, 1, 0x4, false, [⟨1, 0, .rwc, true, 0, [(0, 2)]⟩, ⟨3, 2, .rwc, true, 0, [(0, 2)]⟩, ⟨5, 4, .rwc, true, 0, [(0, 2)]⟩, ⟨7, 6, .rwc, true, 0, [(0, 2)]⟩, ⟨9, 8, .rwc, true, 0, [(0, 2)]⟩, ⟨11, 10, .rwc, true, 0, [(0, 2)]⟩, ⟨13, 12, .rwc, true, 2, [(0, 2)]⟩, ⟨15, 14, .rwc, true, 0, [(0, 2)]⟩, ⟨17, 16, .rwc, true, 2, [(0, 2)]⟩, ⟨19, 18, .rwc, true, 2, [(0, 2)]⟩, ⟨21, 20, .rwc, true, 2, [(0, 2)]⟩, ⟨23, 22, .rwc, true, 0, [(0, 2)]⟩, ⟨25, 24, .rwc, true, 0, [(0, 2)]⟩, ⟨27, 26, .rwc, true, 2, [(0, 2)]⟩, ⟨29, 28, .rwc, true, 0, [(0, 2)]⟩, ⟨31, 30, .rwc, true, 1, [(0, 2)]⟩]⟩,
   ⟨0x50, 1, 0x4, false, [⟨2, 0, .rwc, true, 0, []⟩, ⟨5, 3, .rwc, true, 1, []⟩, ⟨8, 6, .rwc, true, 2, []⟩, ⟨11, 9, .rwc, true, 3, []⟩, ⟨14, 12, .rwc, true, 4, []⟩, ⟨17, 15, .rwc, true, 5, []⟩, ⟨20, 18, .rwc, true, 6, []⟩, ⟨23, 21, .rwc, true, 7, []⟩]⟩,
   ⟨0x54, 1, 0x4, false, [⟨2, 0, .rwc, true, 0, []⟩, ⟨5, 3, .rwc, true, 1, []⟩, ⟨8, 6, .rwc, true, 2, []⟩, ⟨11, 9, .rwc, true, 3, []⟩, ⟨14, 12, .rwc, true, 4, []⟩, ⟨17, 15, .rwc, true, 5, []⟩, ⟨20, 18, .rwc, true, 6, []⟩, ⟨23, 21, .rwc, true, 7, []⟩]⟩,
   ⟨0x58, 6, 0x4, false, [⟨2, 0, .rwc, true, 0, []⟩, ⟨5, 3, .rwc, true, 0, []⟩, ⟨8, 6, .rwc, true, 0, []⟩, ⟨11, 9, .rwc, true, 0, []⟩, ⟨14, 12, .rwc, true, 0, []⟩, ⟨17, 15, .rwc, true, 0, []⟩, ⟨20, 18, .rwc, true, 0, []⟩, ⟨23, 21, .rwc, true, 0, []⟩, ⟨26, 24, .rwc, true, 0, []⟩, ⟨29, 27, .rwc, true, 0, []⟩]⟩,
   ⟨0x70, 1, 0x4, false, [⟨2, 0, .rwc, true, 7, []⟩, ⟨5, 3, .rwc, true, 7, []⟩, ⟨8, 6, .rwc, true, 7, []⟩, ⟨11, 9, .rwc, true, 7, []⟩]⟩] ++
  [⟨0x100, 1, 0x4, false, [⟨3, 0, .ro, false, 0, []⟩, ⟨7, 4, .ro, false, 0, []⟩]⟩]
def pgSTR0 : PageD := ⟨pgSTR0Regs, [⟨0x80, 16, 0x8, 1, 0x8⟩, ⟨0x108, 1, 0x8, 1, 0x8⟩, ⟨0x110, 4, 0x8, 1, 0x8⟩, ⟨0x130, 1, 0x8, 1, 0x8⟩]⟩
def pgSTR1Regs : List RegD :=
  [⟨0x40, 64, 0x4, false, [⟨13, 0, .rwc, true, 16383, []⟩, ⟨14, 14, .rwc, true, 0, []⟩, ⟨17, 16, .rwc, true, 1, []⟩, ⟨20, 18, .rwc, true, 0, []⟩, ⟨22, 21, .rwc, true, 1, [(0, 2)]⟩, ⟨23, 23, .rwc, true, 1, []⟩]⟩]
def pgSTR1 : PageD := ⟨pgSTR1Regs, []⟩
def pgSTR2Regs : List RegD :=
  [⟨0x40, 16, 0x4, false, [⟨15, 0, .rwc, true, 0, []⟩, ⟨18, 16, .rwc, true, 0, []⟩, ⟨31, 31, .rwc, true, 0, []⟩]⟩,
   ⟨0x80, 16, 0x10, false, [⟨31, 0, .rwc, true, 0, []⟩]⟩,
   ⟨0x84, 16, 0x10, false, [⟨15, 0, .rwc, true, 0, []⟩, ⟨18, 16, .rwc, true, 0, []⟩, ⟨31, 31, .rwc, true, 0, []⟩]⟩,
   ⟨0x88, 16, 0x10, false, [⟨31, 0, .rwc, true, 0, []⟩]⟩,
   ⟨0x8c, 16, 0x10, false, [⟨15, 0, .rwc, true, 0, []⟩]⟩,
   ⟨0x180, 32, 0x4, false, [⟨15, 0, .rwc, true, 0, []⟩, ⟨16, 16, .rwc, true, 0, []⟩, ⟨18, 17, .rwc, true, 0, [(1, 3)]⟩, ⟨21, 19, .rwc, true, 0, []⟩, ⟨31, 31, .rwc, true, 0, []⟩]⟩]
def pgSTR2 : PageD := ⟨pgSTR2Regs, []⟩
def pgSTR3Regs : List RegD :=
  []
def pgSTR3 : PageD := ⟨pgSTR3Regs, [⟨0x40, 64, 0x10, 1, 0x8⟩, ⟨0x48, 64, 0x10, 1, 0x8⟩]⟩
def pgADM0Regs : List RegD :=
  [⟨0x40, 8, 0x10, false, [⟨17, 0, .rwc, true, 1024, []⟩]⟩,
   ⟨0x44, 8, 0x10, false, [⟨17, 0, .rwc, true, 768, []⟩]⟩,
   ⟨0x48, 8, 0x10, false, [⟨17, 0, .rwc, true, 2048, []⟩]⟩,
   ⟨0x4c, 8, 0x10, false, [⟨17, 0, .rwc, true, 8192, []⟩]⟩,
   ⟨0xc0, 1, 0x4, false, [⟨7, 0, .rwc, true, 15, []⟩, ⟨15, 8, .rwc, true, 127, []⟩]⟩,
   ⟨0xc4, 1, 0x4, false, [⟨17, 0, .rwc, true, 1024, [(1, 262143)]⟩]⟩,
   ⟨0xc8, 1, 0x4, false, [⟨17, 0, .rwc, true, 256, []⟩]⟩,
   ⟨0xcc, 1, 0x4, false, [⟨14, 0, .rwc, true, 12288, [(0, 30464)]⟩, ⟨30, 16, .rwc, true, 11264, []⟩]⟩] ++
  [⟨0xd0, 1, 0x4, false, [⟨14, 0, .rwc, true, 8192, []⟩, ⟨29, 16, .rwc, true, 512, [(1, 16383)]⟩]⟩,
   ⟨0xd4, 1, 0x4, false, [⟨13, 0, .rwc, true, 128, []⟩]⟩,
   ⟨0xd8, 1, 0x4, false, [⟨17, 0, .rwc, true, 512, []⟩]⟩,
   ⟨0xdc, 1, 0x4, false, [⟨7, 0, .ro, false, 0, []⟩, ⟨10, 8, .ro, false, 0, []⟩, ⟨15, 12, .ro, false, 0, []⟩, ⟨16, 16, .ro, false, 0, []⟩, ⟨17, 17, .ro, false, 0, []⟩, ⟨25, 18, .ro, false, 0, []⟩]⟩,
   ⟨0xe0, 4, 0x4, false, [⟨14, 0, .ro, false, 0, []⟩]⟩]
def pgADM0 : PageD := ⟨pgADM0Regs, [⟨0x100, 6, 0x40, 8, 0x8⟩, ⟨0x280, 8, 0x8, 1, 0x8⟩, ⟨0x2c0, 8, 0x8, 1, 0x8⟩]⟩
def pgADM1Regs : List RegD :=
  [⟨0x40, 32, 0x4, false, [⟨15, 0, .rwc, true, 1000, []⟩, ⟨31, 16, .rwc, true, 256, [(1, 65535)]⟩]⟩,
   ⟨0xc0, 16, 0x4, false, [⟨4, 0, .rwc, true, 0, []⟩, ⟨12, 8, .rwc, true, 0, []⟩, ⟨20, 16, .rwc, true, 0, []⟩, ⟨28, 24, .rwc, true, 0, []⟩]⟩,
   ⟨0x800, 512, 0x4, false, [⟨17, 0, .ro, false, 0, []⟩, ⟨18, 18, .ro, false, 0, []⟩, ⟨19, 19, .ro, false, 0, []⟩]⟩]
def pgADM1 : PageD := ⟨pgADM1Regs, [⟨0x100, 32, 0x8, 1, 0x8⟩, ⟨0x200, 32, 0x8, 1, 0x8⟩]⟩
def pgBAR0Regs : List RegD :=
  [⟨0x40, 1, 0x4, false, [⟨0, 0, .rwc, false, 0, []⟩, ⟨1, 1, .rwc, true, 1, []⟩]⟩,
   ⟨0x44, 4, 0x4, false, [⟨3, 0, .rwc, true, 8, []⟩, ⟨7, 4, .rwc, true, 0, []⟩, ⟨11, 8, .rwc, true, 12, []⟩, ⟨15, 12, .rwc, true, 1, []⟩]⟩,
   ⟨0x54, 1, 0x4, false, [⟨6, 0, .rwc, true, 64, []⟩, ⟨23, 16, .rwc, true, 32, []⟩]⟩,
   ⟨0x58, 1, 0x4, false, [⟨1, 0, .rwh, true, 1, [(0, 2)]⟩, ⟨7, 4, .rwc, true, 8, []⟩, ⟨15, 8, .rwc, true, 64, []⟩]⟩,
   ⟨0x5c, 1, 0x4, false, [⟨7, 0, .rwc, true, 8, []⟩, ⟨15, 8, .rwc, true, 2, []⟩, ⟨23, 16, .rwc, true, 4, []⟩, ⟨31, 24, .rwc, true, 2, []⟩]⟩,
   ⟨0x60, 1, 0x4, false, [⟨9, 0, .rwc, true, 64, [(1, 1023)]⟩, ⟨20, 16, .rwc, true, 4, [(1, 24)]⟩, ⟨31, 24, .rwc, true, 16, [(1, 255)]⟩]⟩,
   ⟨0x64, 1, 0x4, false, [⟨10, 0, .ro, false, 0, []⟩, ⟨11, 11, .ro, false, 0, []⟩, ⟨14, 12, .ro, false, 0, []⟩, ⟨20, 16, .ro, false, 0, []⟩, ⟨27, 24, .ro, false, 0, []⟩, ⟨31, 28, .ro, false, 0, []⟩]⟩,
   ⟨0x68, 1, 0x4, false, [⟨12, 0, .ro, false, 0, []⟩, ⟨13, 13, .ro, false, 0, []⟩, ⟨21, 16, .ro, false, 0, []⟩]⟩] ++
  [⟨0x6c, 1, 0x4, false, [⟨25, 0, .ro, false, 0, []⟩]⟩,
   ⟨0x70, 1, 0x4, false, [⟨12, 0, .ro, false, 0, []⟩, ⟨20, 16, .ro, false, 0, []⟩, ⟨21, 21, .ro, false, 0, []⟩]⟩]
def pgBAR0 : PageD := ⟨pgBAR0Regs, []⟩
def pgBAR1Regs : List RegD :=
  [⟨0x200, 26, 0x4, false, [⟨3, 0, .ro, false, 0, []⟩, ⟨5, 4, .ro, false, 0, []⟩, ⟨6, 6, .ro, false, 0, []⟩, ⟨7, 7, .ro, false, 0, []⟩]⟩]
def pgBAR1 : PageD := ⟨pgBAR1Regs, [⟨0x40, 16, 0x8, 1, 0x8⟩, ⟨0xc0, 1, 0x8, 1, 0x8⟩, ⟨0xc8, 1, 0x8, 1, 0x8⟩, ⟨0xd0, 1, 0x8, 1, 0x8⟩, ⟨0xd8, 1, 0x8, 1, 0x8⟩, ⟨0xe0, 1, 0x8, 1, 0x8⟩, ⟨0xe8, 1, 0x8, 1, 0x8⟩, ⟨0xf0, 1, 0x8, 1, 0x8⟩, ⟨0xf8, 1, 0x8, 1, 0x8⟩, ⟨0x100, 1, 0x8, 1, 0x8⟩]⟩
def pgCORE0Regs : List RegD :=
  [⟨0x40, 1, 0x4, false, [⟨0, 0, .rwc, true, 1, []⟩]⟩,
   ⟨0x44, 1, 0x4, false, [⟨19, 0, .rwc, true, 65536, [(64, 1048575)]⟩, ⟨31, 20, .rwc, true, 256, [(16, 4095)]⟩]⟩,
   ⟨0x48, 1, 0x4, false, [⟨7, 0, .ro, false, 0, []⟩, ⟨15, 8, .ro, false, 0, []⟩, ⟨23, 16, .ro, false, 0, []⟩]⟩,
   ⟨0x4c, 1, 0x4, false, [⟨4, 0, .ro, false, 0, []⟩, ⟨10, 8, .ro, false, 0, []⟩, ⟨12, 12, .ro, false, 0, []⟩, ⟨29, 16, .ro, false, 0, []⟩]⟩,
   ⟨0x50, 1, 0x4, false, [⟨7, 0, .w1s, false, 0, []⟩]⟩,
   ⟨0x60, 8, 0x4, false, [⟨13, 0, .ro, false, 0, []⟩, ⟨14, 14, .ro, false, 0, []⟩, ⟨18, 16, .ro, false, 0, []⟩, ⟨23, 20, .ro, false, 0, []⟩, ⟨29, 24, .ro, false, 0, []⟩]⟩]
def pgCORE0 : PageD := ⟨pgCORE0Regs, [⟨0x80, 1, 0x8, 1, 0x8⟩, ⟨0x88, 1, 0x8, 1, 0x8⟩, ⟨0x90, 1, 0x8, 1, 0x8⟩, ⟨0x98, 1, 0x8, 1, 0x8⟩, ⟨0xa0, 1, 0x8, 1, 0x8⟩, ⟨0xa8, 1, 0x8, 1, 0x8⟩, ⟨0xb0, 1, 0x8, 1, 0x8⟩, ⟨0xb8, 1, 0x8, 1, 0x8⟩]⟩
def pgZCTL0Regs : List RegD :=
  [⟨0x40, 1, 0x4, false, [⟨0, 0, .rwc, true, 0, []⟩]⟩,
   ⟨0x44, 1, 0x4, false, [⟨0, 0, .ro, false, 0, []⟩, ⟨1, 1, .ro, false, 0, []⟩, ⟨26, 16, .ro, false, 0, []⟩]⟩,
   ⟨0x48, 1, 0x4, false, [⟨0, 0, .rw, true, 0, []⟩, ⟨1, 1, .rw, true, 0, []⟩]⟩]
def pgZCTL0 : PageD := ⟨pgZCTL0Regs, []⟩
def pgHCC0Regs : List RegD :=
  [⟨0x40, 1, 0x4, false, [⟨7, 0, .ro, false, 0, []⟩, ⟨15, 8, .ro, false, 0, []⟩, ⟨23, 16, .ro, false, 0, []⟩]⟩,
   ⟨0x44, 1, 0x4, false, [⟨4, 0, .ro, false, 0, []⟩, ⟨10, 8, .ro, false, 0, []⟩, ⟨29, 16, .ro, false, 0, []⟩]⟩,
   ⟨0x48, 1, 0x4, false, [⟨7, 0, .w1s, false, 0, []⟩]⟩,
   ⟨0x60, 8, 0x4, false, [⟨13, 0, .ro, false, 0, []⟩, ⟨18, 16, .ro, false, 0, []⟩, ⟨23, 20, .ro, false, 0, []⟩]⟩]
def pgHCC0 : PageD := ⟨pgHCC0Regs, [⟨0x80, 1, 0x8, 1, 0x8⟩, ⟨0x88, 1, 0x8, 1, 0x8⟩, ⟨0x90, 1, 0x8, 1, 0x8⟩, ⟨0x98, 1, 0x8, 1, 0x8⟩]⟩
def pgTBL0Regs : List RegD :=
  [⟨0x40, 1, 0x4, false, [⟨0, 0, .rw, true, 1, []⟩, ⟨1, 1, .rw, true, 1, []⟩]⟩,
   ⟨0x44, 1, 0x4, false, [⟨31, 0, .rw, false, 0, []⟩]⟩,
   ⟨0x48, 1, 0x4, false, [⟨31, 0, .ro, false, 0, []⟩]⟩,
   ⟨0x4c, 1, 0x4, false, [⟨4, 0, .rwc, true, 0, []⟩, ⟨31, 31, .rwc, true, 0, []⟩]⟩,
   ⟨0x50, 2, 0x4, false, [⟨31, 0, .rwc, true, 0, []⟩]⟩,
   ⟨0x58, 2, 0x4, false, [⟨31, 0, .rwc, true, 0, []⟩]⟩,
   ⟨0x60, 1, 0x4, false, [⟨23, 0, .rw, true, 10000, [(1, 16777215)]⟩]⟩,
   ⟨0x64, 1, 0x4, false, [⟨10, 0, .ro, false, 0, []⟩, ⟨11, 11, .ro, false, 0, []⟩]⟩]
def pgTBL0 : PageD := ⟨pgTBL0Regs, [⟨0x68, 1, 0x8, 1, 0x8⟩, ⟨0x70, 1, 0x8, 1, 0x8⟩, ⟨0x78, 1, 0x8, 1, 0x8⟩, ⟨0x80, 1, 0x8, 1, 0x8⟩, ⟨0x88, 1, 0x8, 1, 0x8⟩, ⟨0x90, 1, 0x8, 1, 0x8⟩, ⟨0x98, 1, 0x8, 1, 0x8⟩, ⟨0xa0, 1, 0x8, 1, 0x8⟩]⟩
def pgTBL1Regs : List RegD :=
  [⟨0x40, 32, 0x20, false, [⟨2, 0, .rwc, true, 0, [(0, 5)]⟩, ⟨3, 3, .rwc, true, 0, []⟩, ⟨10, 4, .rwc, true, 0, []⟩, ⟨12, 11, .rwc, true, 0, [(0, 2)]⟩, ⟨13, 13, .rwc, true, 0, []⟩, ⟨14, 14, .rwc, true, 0, []⟩, ⟨15, 15, .rwc, true, 0, []⟩]⟩,
   ⟨0x44, 32, 0x20, false, [⟨8, 0, .rwc, true, 0, []⟩, ⟨24, 16, .rwc, true, 0, []⟩]⟩,
   ⟨0x48, 32, 0x20, false, [⟨8, 0, .rwc, true, 0, []⟩, ⟨24, 16, .rwc, true, 0, []⟩]⟩,
   ⟨0x4c, 32, 0x20, false, [⟨15, 0, .rwc, true, 1000, [(1, 65535)]⟩, ⟨31, 16, .rwc, true, 0, [(0, 65534)]⟩]⟩,
   ⟨0x50, 32, 0x20, false, [⟨31, 0, .rwc, true, 0, []⟩]⟩,
   ⟨0x54, 32, 0x20, false, [⟨30, 0, .rwc, true, 0, []⟩]⟩,
   ⟨0x58, 32, 0x20, false, [⟨22, 0, .ro, false, 0, []⟩, ⟨31, 23, .ro, false, 0, []⟩]⟩,
   ⟨0x5c, 32, 0x20, false, [⟨22, 0, .ro, false, 0, []⟩, ⟨23, 23, .ro, false, 0, []⟩, ⟨24, 24, .ro, false, 0, []⟩]⟩]
def pgTBL1 : PageD := ⟨pgTBL1Regs, []⟩
def pgTBL2Regs : List RegD :=
  []
def pgTBL2 : PageD := ⟨pgTBL2Regs, [⟨0x40, 32, 0x10, 1, 0x8⟩, ⟨0x48, 32, 0x10, 1, 0x8⟩]⟩
def pgHTB0Regs : List RegD :=
  [⟨0x40, 1, 0x4, false, [⟨3, 0, .rw, true, 4, [(0, 8)]⟩]⟩,
   ⟨0x44, 1, 0x4, false, [⟨23, 0, .rw, true, 10000, [(1, 16777215)]⟩]⟩,
   ⟨0x48, 1, 0x4, false, [⟨11, 0, .ro, false, 0, []⟩, ⟨15, 12, .ro, false, 0, []⟩]⟩,
   ⟨0x4c, 1, 0x4, false, [⟨31, 0, .ro, false, 0, []⟩]⟩,
   ⟨0x50, 1, 0x4, false, [⟨7, 0, .rw, false, 0, []⟩, ⟨15, 8, .ro, false, 0, []⟩]⟩,
   ⟨0x54, 1, 0x4, false, [⟨31, 0, .rc, false, 0, []⟩]⟩]
def pgHTB0 : PageD := ⟨pgHTB0Regs, [⟨0x58, 1, 0x8, 1, 0x8⟩, ⟨0x60, 1, 0x8, 1, 0x8⟩, ⟨0x68, 1, 0x8, 1, 0x8⟩, ⟨0x70, 1, 0x8, 1, 0x8⟩, ⟨0x78, 1, 0x8, 1, 0x8⟩]⟩
def pgHTB1Regs : List RegD :=
  [⟨0x40, 8, 0x20, false, [⟨1, 0, .rwc, true, 0, []⟩, ⟨7, 2, .rwc, true, 0, []⟩, ⟨8, 8, .rwc, true, 0, []⟩, ⟨9, 9, .rwc, true, 0, []⟩]⟩,
   ⟨0x44, 8, 0x20, false, [⟨7, 0, .rwc, true, 0, []⟩, ⟨23, 16, .rwc, true, 0, []⟩]⟩,
   ⟨0x48, 8, 0x20, false, [⟨15, 0, .rwc, true, 1000, [(100, 65535)]⟩, ⟨31, 16, .rwc, true, 0, [(0, 65534)]⟩]⟩,
   ⟨0x4c, 8, 0x20, false, [⟨31, 0, .rwc, true, 0, []⟩]⟩,
   ⟨0x50, 8, 0x20, false, [⟨30, 0, .rwc, true, 0, []⟩]⟩,
   ⟨0x54, 8, 0x20, false, [⟨26, 0, .ro, false, 0, []⟩]⟩,
   ⟨0x58, 8, 0x20, false, [⟨26, 0, .ro, false, 0, []⟩]⟩]
def pgHTB1 : PageD := ⟨pgHTB1Regs, []⟩
def pgHTB2Regs : List RegD :=
  []
def pgHTB2 : PageD := ⟨pgHTB2Regs, [⟨0x40, 8, 0x10, 1, 0x8⟩, ⟨0x48, 8, 0x10, 1, 0x8⟩]⟩
def pgURN0Regs : List RegD :=
  [⟨0x40, 1, 0x4, false, [⟨17, 0, .rwc, true, 65536, [(0, 131072)]⟩]⟩,
   ⟨0x44, 1, 0x4, false, [⟨17, 0, .rwc, true, 81920, [(0, 131072)]⟩]⟩,
   ⟨0x48, 1, 0x4, false, [⟨17, 0, .rwc, true, 90112, [(0, 131072)]⟩]⟩,
   ⟨0x4c, 1, 0x4, false, [⟨17, 0, .rwc, true, 129024, [(0, 131072)]⟩]⟩,
   ⟨0x50, 1, 0x4, false, [⟨15, 0, .rwc, true, 1024, []⟩]⟩,
   ⟨0x54, 1, 0x4, false, [⟨17, 0, .ro, false, 0, []⟩, ⟨18, 18, .ro, false, 0, []⟩, ⟨19, 19, .ro, false, 0, []⟩, ⟨20, 20, .ro, false, 0, []⟩, ⟨21, 21, .ro, false, 0, []⟩]⟩,
   ⟨0x58, 1, 0x4, false, [⟨7, 0, .rwc, true, 127, []⟩, ⟨15, 8, .rwc, true, 112, []⟩, ⟨17, 16, .rwc, true, 2, []⟩]⟩,
   ⟨0x5c, 1, 0x4, false, [⟨15, 0, .rwc, true, 2048, [(1, 65535)]⟩, ⟨31, 16, .rwc, true, 1024, []⟩]⟩] ++
  [⟨0x60, 1, 0x4, false, [⟨7, 0, .rwc, true, 192, []⟩, ⟨15, 8, .rwc, true, 224, []⟩, ⟨23, 16, .rwc, true, 240, []⟩, ⟨31, 24, .rwc, true, 252, []⟩]⟩,
   ⟨0x64, 1, 0x4, false, [⟨6, 0, .rwh, true, 0, [(0, 95)]⟩, ⟨11, 8, .rwh, true, 8, [(0, 8)]⟩]⟩,
   ⟨0x68, 1, 0x4, false, [⟨21, 0, .ro, false, 0, []⟩, ⟨22, 22, .ro, false, 0, []⟩, ⟨23, 23, .ro, false, 0, []⟩, ⟨24, 24, .ro, false, 0, []⟩, ⟨25, 25, .ro, false, 0, []⟩, ⟨26, 26, .ro, false, 0, []⟩, ⟨31, 27, .ro, false, 0, []⟩]⟩,
   ⟨0x6c, 1, 0x4, false, [⟨11, 0, .ro, false, 0, []⟩]⟩,
   ⟨0x70, 1, 0x4, false, [⟨31, 0, .rw, false, 0, []⟩]⟩,
   ⟨0x74, 1, 0x4, false, [⟨15, 0, .ro, false, 0, []⟩, ⟨23, 16, .ro, false, 0, []⟩, ⟨24, 24, .ro, false, 0, []⟩, ⟨25, 25, .ro, false, 0, []⟩]⟩,
   ⟨0x78, 1, 0x4, false, [⟨15, 0, .ro, false, 0, []⟩, ⟨21, 16, .ro, false, 0, []⟩]⟩,
   ⟨0x7c, 1, 0x4, false, [⟨31, 0, .ro, false, 0, []⟩]⟩]
def pgURN0 : PageD := ⟨pgURN0Regs, []⟩
def pgURN1Regs : List RegD :=
  [⟨0x40, 6, 0x4, false, [⟨23, 0, .rw, true, 0, [(1, 16777215)]⟩, ⟨24, 24, .rw, true, 0, []⟩]⟩,
   ⟨0x58, 1, 0x4, false, [⟨0, 0, .rw, true, 1, []⟩, ⟨1, 1, .w1s, false, 0, []⟩]⟩,
   ⟨0x5c, 1, 0x4, false, [⟨0, 0, .ro, false, 0, []⟩, ⟨5, 1, .ro, false, 0, []⟩, ⟨9, 6, .ro, false, 0, []⟩, ⟨31, 10, .ro, false, 0, []⟩]⟩,
   ⟨0x60, 6, 0x4, false, [⟨17, 0, .ro, false, 0, []⟩]⟩,
   ⟨0x80, 48, 0x4, false, [⟨17, 0, .ro, false, 0, []⟩]⟩,
   ⟨0x140, 16, 0x8, false, [⟨31, 0, .ro, false, 0, []⟩]⟩,
   ⟨0x144, 16, 0x8, false, [⟨15, 0, .ro, false, 0, []⟩, ⟨30, 16, .ro, false, 0, []⟩, ⟨31, 31, .ro, false, 0, []⟩]⟩]
def pgURN1 : PageD := ⟨pgURN1Regs, [⟨0x200, 6, 0x8, 1, 0x8⟩, ⟨0x230, 1, 0x8, 1, 0x8⟩, ⟨0x238, 1, 0x8, 1, 0x8⟩, ⟨0x240, 1, 0x8, 1, 0x8⟩, ⟨0x248, 1, 0x8, 1, 0x8⟩, ⟨0x250, 1, 0x8, 1, 0x8⟩, ⟨0x258, 1, 0x8, 1, 0x8⟩, ⟨0x260, 1, 0x8, 1, 0x8⟩, ⟨0x268, 1, 0x8, 1, 0x8⟩, ⟨0x270, 1, 0x8, 1, 0x8⟩]⟩
def pgROB0Regs : List RegD :=
  [⟨0x40, 1, 0x4, false, [⟨15, 0, .rwc, true, 50, [(1, 65535)]⟩]⟩,
   ⟨0x44, 1, 0x4, false, [⟨13, 0, .ro, false, 0, []⟩]⟩,
   ⟨0x50, 16, 0x4, false, [⟨5, 0, .rwc, true, 0, []⟩, ⟨13, 8, .rwc, true, 0, []⟩, ⟨21, 16, .rwc, true, 0, []⟩, ⟨29, 24, .rwc, true, 0, []⟩, ⟨6, 6, .rwc, true, 0, []⟩, ⟨14, 14, .rwc, true, 0, []⟩, ⟨22, 22, .rwc, true, 0, []⟩, ⟨30, 30, .rwc, true, 0, []⟩]⟩]
def pgROB0 : PageD := ⟨pgROB0Regs, [⟨0x100, 1, 0x8, 1, 0x8⟩, ⟨0x108, 1, 0x8, 1, 0x8⟩, ⟨0x110, 1, 0x8, 1, 0x8⟩, ⟨0x118, 1, 0x8, 1, 0x8⟩, ⟨0x120, 1, 0x8, 1, 0x8⟩, ⟨0x128, 1, 0x8, 1, 0x8⟩, ⟨0x130, 1, 0x8, 1, 0x8⟩, ⟨0x138, 1, 0x8, 1, 0x8⟩, ⟨0x140, 1, 0x8, 1, 0x8⟩, ⟨0x148, 1, 0x8, 1, 0x8⟩, ⟨0x150, 1, 0x8, 1, 0x8⟩, ⟨0x200, 64, 0x8, 1, 0x8⟩]⟩
def pgTM0Regs : List RegD :=
  [⟨0x40, 1, 0x4, false, [⟨7, 0, .rwc, true, 0, []⟩, ⟨15, 8, .rwc, true, 0, []⟩]⟩,
   ⟨0x44, 1, 0x4, false, [⟨10, 0, .ro, false, 0, []⟩]⟩,
   ⟨0x48, 1, 0x4, false, [⟨10, 0, .rw, false, 0, []⟩]⟩,
   ⟨0x4c, 1, 0x4, false, [⟨17, 0, .ro, false, 0, []⟩, ⟨18, 18, .ro, false, 0, []⟩]⟩,
   ⟨0x50, 8, 0x10, false, [⟨17, 0, .rwc, true, 2048, []⟩]⟩,
   ⟨0x54, 8, 0x10, false, [⟨17, 0, .rwc, true, 8192, []⟩]⟩,
   ⟨0x58, 8, 0x10, false, [⟨7, 0, .rwc, true, 64, []⟩]⟩,
   ⟨0x5c, 8, 0x10, false, [⟨17, 0, .rwc, true, 16384, []⟩]⟩] ++
  [⟨0xd0, 8, 0x8, false, [⟨15, 0, .rwc, true, 64, []⟩, ⟨31, 16, .rwc, true, 512, []⟩]⟩,
   ⟨0xd4, 8, 0x8, false, [⟨7, 0, .rwc, true, 64, []⟩]⟩]
def pgTM0 : PageD := ⟨pgTM0Regs, [⟨0x140, 8, 0x8, 1, 0x8⟩, ⟨0x180, 8, 0x8, 1, 0x8⟩]⟩
def pgTM1Regs : List RegD :=
  [⟨0x40, 64, 0x10, false, [⟨7, 0, .rwc, true, 192, []⟩, ⟨15, 8, .rwc, true, 0, []⟩, ⟨23, 16, .rwc, true, 0, []⟩, ⟨24, 24, .rwc, true, 0, []⟩]⟩,
   ⟨0x44, 64, 0x10, false, [⟨6, 0, .rwc, true, 10, [(0, 100)]⟩, ⟨14, 8, .rwc, true, 10, [(0, 100)]⟩, ⟨22, 16, .rwc, true, 20, [(0, 100)]⟩, ⟨30, 24, .rwc, true, 20, [(0, 100)]⟩]⟩,
   ⟨0x48, 64, 0x10, false, [⟨6, 0, .rwc, true, 20, [(0, 100)]⟩, ⟨14, 8, .rwc, true, 20, [(0, 100)]⟩, ⟨22, 16, .rwc, true, 0, [(0, 100)]⟩, ⟨30, 24, .rwc, true, 0, [(0, 100)]⟩]⟩]
def pgTM1 : PageD := ⟨pgTM1Regs, []⟩
def pgTM2Regs : List RegD :=
  [⟨0x40, 64, 0x8, false, [⟨19, 0, .rwc, true, 0, []⟩]⟩,
   ⟨0x44, 64, 0x8, false, [⟨23, 0, .rwc, true, 16384, [(1, 16777215)]⟩]⟩]
def pgTM2 : PageD := ⟨pgTM2Regs, []⟩
def pgTM3Regs : List RegD :=
  [⟨0x40, 256, 0x8, false, [⟨19, 0, .rwc, true, 0, []⟩]⟩,
   ⟨0x44, 256, 0x8, false, [⟨23, 0, .rwc, true, 16384, [(1, 16777215)]⟩]⟩]
def pgTM3 : PageD := ⟨pgTM3Regs, []⟩
def pgTM4Regs : List RegD :=
  [⟨0x40, 256, 0x8, false, [⟨19, 0, .rwc, true, 0, []⟩]⟩,
   ⟨0x44, 256, 0x8, false, [⟨23, 0, .rwc, true, 16384, [(1, 16777215)]⟩]⟩]
def pgTM4 : PageD := ⟨pgTM4Regs, []⟩
def pgTM5Regs : List RegD :=
  []
def pgTM5 : PageD := ⟨pgTM5Regs, [⟨0x40, 64, 0x8, 1, 0x8⟩, ⟨0x240, 64, 0x8, 1, 0x8⟩]⟩
def pgCAR0Regs : List RegD :=
  [⟨0x40, 1, 0x4, false, [⟨15, 0, .rw, false, 0, []⟩]⟩,
   ⟨0x44, 1, 0x4, false, [⟨19, 0, .rw, false, 0, []⟩, ⟨28, 20, .rw, false, 0, [(0, 256)]⟩, ⟨29, 29, .rw, false, 0, []⟩]⟩,
   ⟨0x48, 1, 0x4, false, [⟨7, 0, .rw, false, 0, []⟩]⟩,
   ⟨0x4c, 1, 0x4, false, [⟨0, 0, .w1s, false, 0, []⟩, ⟨1, 1, .w1s, false, 0, []⟩, ⟨2, 2, .w1s, false, 0, []⟩, ⟨3, 3, .w1s, false, 0, []⟩]⟩,
   ⟨0x50, 1, 0x4, false, [⟨19, 0, .rw, false, 0, []⟩]⟩,
   ⟨0x54, 1, 0x4, false, [⟨7, 0, .rw, false, 0, []⟩, ⟨10, 8, .rw, false, 0, []⟩, ⟨11, 11, .rw, false, 0, []⟩, ⟨27, 12, .rw, false, 0, []⟩, ⟨31, 31, .rw, false, 0, []⟩]⟩,
   ⟨0x58, 4, 0x4, false, [⟨8, 0, .ro, false, 0, []⟩]⟩]
def pgCAR0 : PageD := ⟨pgCAR0Regs, [⟨0x80, 1, 0x8, 1, 0x8⟩, ⟨0x88, 1, 0x8, 1, 0x8⟩, ⟨0x90, 1, 0x8, 1, 0x8⟩, ⟨0x98, 1, 0x8, 1, 0x8⟩, ⟨0xa0, 1, 0x8, 1, 0x8⟩, ⟨0xa8, 1, 0x8, 1, 0x8⟩]⟩
def pgCAR1Regs : List RegD :=
  []
def pgCAR1 : PageD := ⟨pgCAR1Regs, [⟨0x40, 256, 0x8, 1, 0x8⟩]⟩
def pgEDT0Regs : List RegD :=
  [⟨0x40, 1, 0x4, false, [⟨0, 0, .rwc, true, 0, []⟩]⟩,
   ⟨0x44, 1, 0x4, false, [⟨0, 0, .ro, false, 0, []⟩, ⟨1, 1, .ro, false, 0, []⟩]⟩]
def pgEDT0 : PageD := ⟨pgEDT0Regs, [⟨0x80, 1, 0x8, 1, 0x8⟩, ⟨0x88, 1, 0x8, 1, 0x8⟩, ⟨0x90, 1, 0x8, 1, 0x8⟩, ⟨0x98, 1, 0x8, 1, 0x8⟩, ⟨0xa0, 1, 0x8, 1, 0x8⟩, ⟨0xa8, 1, 0x8, 1, 0x8⟩, ⟨0xb0, 1, 0x8, 1, 0x8⟩, ⟨0xb8, 1, 0x8, 1, 0x8⟩]⟩
def pgEDT1Regs : List RegD :=
  [⟨0x40, 1, 0x4, false, [⟨19, 0, .rw, false, 0, []⟩, ⟨20, 20, .rw, false, 0, []⟩, ⟨21, 21, .rw, false, 0, []⟩]⟩,
   ⟨0x44, 1, 0x4, false, [⟨31, 0, .wo, false, 0, []⟩]⟩,
   ⟨0x48, 1, 0x4, false, [⟨31, 0, .ro, false, 0, []⟩]⟩]
def pgEDT1 : PageD := ⟨pgEDT1Regs, []⟩
def pgHBM0Regs : List RegD :=
  [⟨0x40, 1, 0x4, false, [⟨0, 0, .rw, true, 1, []⟩, ⟨1, 1, .rw, true, 1, []⟩, ⟨2, 2, .rw, true, 0, []⟩, ⟨3, 3, .rw, true, 1, []⟩]⟩,
   ⟨0x44, 1, 0x4, false, [⟨2, 0, .ro, false, 0, []⟩, ⟨3, 3, .ro, false, 0, []⟩, ⟨11, 4, .ro, false, 0, []⟩, ⟨18, 12, .ro, false, 0, []⟩, ⟨19, 19, .ro, false, 0, []⟩, ⟨20, 20, .ro, false, 0, []⟩]⟩,
   ⟨0x48, 3, 0x4, false, [⟨15, 0, .rwc, true, 2048, [(16, 65535)]⟩, ⟨31, 16, .rwc, true, 2048, [(16, 65535)]⟩]⟩,
   ⟨0x54, 1, 0x4, false, [⟨15, 0, .rwc, true, 4000, [(512, 65535)]⟩, ⟨23, 16, .rwc, true, 32, [(1, 255)]⟩]⟩,
   ⟨0x58, 1, 0x4, false, [⟨7, 0, .rwc, true, 16, [(1, 255)]⟩, ⟨8, 8, .rwc, true, 1, []⟩]⟩,
   ⟨0x5c, 1, 0x4, false, [⟨9, 0, .ro, false, 0, []⟩, ⟨16, 10, .ro, false, 0, []⟩]⟩]
def pgHBM0 : PageD := ⟨pgHBM0Regs, []⟩
def pgHBM1Regs : List RegD :=
  [⟨0x40, 32, 0x4, false, [⟨2, 0, .ro, false, 0, []⟩, ⟨3, 3, .ro, false, 0, []⟩, ⟨11, 4, .ro, false, 0, []⟩, ⟨12, 12, .w1s, false, 0, []⟩]⟩]
def pgHBM1 : PageD := ⟨pgHBM1Regs, []⟩
def pgHBM2Regs : List RegD :=
  []
def pgHBM2 : PageD := ⟨pgHBM2Regs, [⟨0x40, 1, 0x8, 1, 0x8⟩, ⟨0x48, 1, 0x8, 1, 0x8⟩, ⟨0x50, 1, 0x8, 1, 0x8⟩, ⟨0x58, 1, 0x8, 1, 0x8⟩, ⟨0x60, 1, 0x8, 1, 0x8⟩, ⟨0x68, 1, 0x8, 1, 0x8⟩, ⟨0x70, 1, 0x8, 1, 0x8⟩, ⟨0x78, 1, 0x8, 1, 0x8⟩, ⟨0x80, 6, 0x8, 1, 0x8⟩, ⟨0xb0, 6, 0x8, 1, 0x8⟩, ⟨0xe0, 1, 0x8, 1, 0x8⟩]⟩
def pgARB0Regs : List RegD :=
  [⟨0x40, 1, 0x4, false, [⟨0, 0, .rw, true, 1, []⟩, ⟨1, 1, .rw, true, 1, []⟩]⟩,
   ⟨0x44, 1, 0x4, false, [⟨9, 0, .ro, false, 0, []⟩, ⟨22, 16, .ro, false, 0, []⟩]⟩,
   ⟨0x48, 1, 0x4, false, [⟨31, 0, .ro, false, 0, []⟩]⟩,
   ⟨0x4c, 1, 0x4, false, [⟨31, 0, .ro, false, 0, []⟩]⟩,
   ⟨0x50, 1, 0x4, false, [⟨10, 0, .ro, false, 0, []⟩, ⟨26, 16, .ro, false, 0, []⟩]⟩]
def pgARB0 : PageD := ⟨pgARB0Regs, []⟩
def pgARB1Regs : List RegD :=
  [⟨0x40, 11, 0x4, false, [⟨15, 0, .rwc, true, 4096, [(16, 65535)]⟩, ⟨16, 16, .rwc, true, 1, []⟩]⟩,
   ⟨0x80, 76, 0x4, false, [⟨15, 0, .rwc, true, 4096, [(16, 65535)]⟩, ⟨16, 16, .rwc, true, 1, []⟩]⟩,
   ⟨0x1c0, 16, 0x4, false, [⟨15, 0, .rwc, true, 4096, [(16, 65535)]⟩, ⟨16, 16, .rwc, true, 1, []⟩]⟩]
def pgARB1 : PageD := ⟨pgARB1Regs, []⟩
def pgARB2Regs : List RegD :=
  []
def pgARB2 : PageD := ⟨pgARB2Regs, [⟨0x40, 11, 0x8, 1, 0x8⟩, ⟨0xc0, 76, 0x8, 1, 0x8⟩, ⟨0x340, 16, 0x8, 1, 0x8⟩]⟩
def pgARB3Regs : List RegD :=
  [⟨0x40, 1, 0x4, false, [⟨9, 0, .rw, false, 0, []⟩]⟩,
   ⟨0x44, 1, 0x4, false, [⟨2, 0, .ro, false, 0, []⟩, ⟨7, 4, .ro, false, 0, []⟩, ⟨8, 8, .w1s, false, 0, []⟩, ⟨9, 9, .w1s, false, 0, []⟩]⟩,
   ⟨0x58, 1, 0x4, false, [⟨31, 0, .ro, false, 0, []⟩]⟩]
def pgARB3 : PageD := ⟨pgARB3Regs, [⟨0x48, 1, 0x8, 1, 0x8⟩, ⟨0x50, 1, 0x8, 1, 0x8⟩]⟩
def pgLKU0Regs : List RegD :=
  [⟨0x40, 1, 0x4, false, [⟨3, 0, .rw, true, 8, []⟩]⟩,
   ⟨0x44, 1, 0x4, false, [⟨15, 0, .rw, true, 20, [(1, 65535)]⟩]⟩,
   ⟨0x48, 1, 0x4, false, [⟨23, 0, .rw, true, 0, []⟩]⟩,
   ⟨0x4c, 1, 0x4, false, [⟨12, 0, .ro, false, 0, []⟩, ⟨13, 13, .ro, false, 0, []⟩]⟩,
   ⟨0x50, 1, 0x4, false, [⟨12, 0, .ro, false, 0, []⟩]⟩,
   ⟨0x54, 1, 0x4, false, [⟨31, 0, .rw, false, 0, []⟩]⟩,
   ⟨0x58, 1, 0x4, false, [⟨7, 0, .rw, false, 0, []⟩]⟩,
   ⟨0x5c, 1, 0x4, false, [⟨30, 0, .ro, false, 0, []⟩, ⟨31, 31, .ro, false, 0, []⟩]⟩] ++
  [⟨0x60, 1, 0x4, false, [⟨7, 0, .ro, false, 0, []⟩, ⟨11, 8, .ro, false, 0, []⟩, ⟨12, 12, .ro, false, 0, []⟩, ⟨13, 13, .ro, false, 0, []⟩]⟩]
def pgLKU0 : PageD := ⟨pgLKU0Regs, [⟨0x80, 1, 0x8, 1, 0x8⟩, ⟨0x88, 1, 0x8, 1, 0x8⟩, ⟨0x90, 1, 0x8, 1, 0x8⟩, ⟨0x98, 1, 0x8, 1, 0x8⟩, ⟨0xa0, 1, 0x8, 1, 0x8⟩, ⟨0xa8, 1, 0x8, 1, 0x8⟩, ⟨0xb0, 1, 0x8, 1, 0x8⟩, ⟨0xb8, 1, 0x8, 1, 0x8⟩, ⟨0xc0, 1, 0x8, 1, 0x8⟩]⟩
def pgLKU1Regs : List RegD :=
  []
def pgLKU1 : PageD := ⟨pgLKU1Regs, [⟨0x40, 5, 0x8, 1, 0x8⟩, ⟨0x68, 1, 0x8, 1, 0x8⟩, ⟨0x70, 1, 0x8, 1, 0x8⟩]⟩
def pgRAS0Regs : List RegD :=
  [⟨0x40, 9, 0x4, false, [⟨7, 0, .rw, true, 3, [(1, 255)]⟩, ⟨31, 8, .rw, true, 1000, [(1, 16777215)]⟩]⟩,
   ⟨0x64, 1, 0x4, false, [⟨15, 0, .rw, true, 100, []⟩]⟩,
   ⟨0x68, 1, 0x4, false, [⟨9, 0, .rw, false, 0, []⟩]⟩,
   ⟨0x6c, 1, 0x4, false, [⟨23, 0, .ro, false, 0, []⟩, ⟨27, 24, .ro, false, 0, []⟩, ⟨31, 28, .ro, false, 0, []⟩]⟩,
   ⟨0x70, 1, 0x4, false, [⟨31, 0, .ro, false, 0, []⟩]⟩,
   ⟨0x74, 1, 0x4, false, [⟨2, 0, .ro, false, 0, []⟩, ⟨10, 3, .ro, false, 0, []⟩, ⟨11, 11, .ro, false, 0, []⟩, ⟨12, 12, .ro, false, 0, []⟩, ⟨13, 13, .ro, false, 0, []⟩, ⟨14, 14, .w1s, false, 0, []⟩, ⟨31, 16, .ro, false, 0, []⟩]⟩,
   ⟨0x78, 1, 0x4, false, [⟨31, 0, .ro, false, 0, []⟩]⟩,
   ⟨0x7c, 1, 0x4, false, [⟨31, 0, .ro, false, 0, []⟩]⟩] ++
  [⟨0x80, 1, 0x4, false, [⟨10, 0, .ro, false, 0, []⟩]⟩]
def pgRAS0 : PageD := ⟨pgRAS0Regs, []⟩
def pgRAS1Regs : List RegD :=
  [⟨0x40, 1, 0x4, false, [⟨15, 0, .rw, false, 0, []⟩, ⟨19, 16, .rw, false, 0, []⟩]⟩,
   ⟨0x44, 1, 0x4, false, [⟨11, 0, .ro, false, 0, []⟩, ⟨23, 12, .ro, false, 0, []⟩]⟩,
   ⟨0x48, 1, 0x4, false, [⟨19, 0, .ro, false, 0, []⟩, ⟨31, 31, .ro, false, 0, []⟩]⟩,
   ⟨0x4c, 1, 0x4, false, [⟨7, 0, .ro, false, 0, []⟩, ⟨15, 8, .ro, false, 0, []⟩, ⟨16, 16, .ro, false, 0, []⟩]⟩,
   ⟨0x50, 1, 0x4, false, [⟨31, 0, .ro, false, 0, []⟩]⟩,
   ⟨0x54, 1, 0x4, false, [⟨31, 0, .ro, false, 0, []⟩]⟩,
   ⟨0x58, 1, 0x4, false, [⟨0, 0, .rw, false, 0, []⟩, ⟨1, 1, .rw, false, 1, []⟩, ⟨2, 2, .w1s, false, 0, []⟩, ⟨3, 3, .w1s, false, 0, []⟩]⟩,
   ⟨0x5c, 1, 0x4, false, [⟨19, 0, .rw, false, 0, []⟩]⟩] ++
  [⟨0x60, 1, 0x4, false, [⟨31, 0, .rw, false, 0, []⟩]⟩,
   ⟨0x64, 1, 0x4, false, [⟨31, 0, .rw, false, 0, []⟩]⟩,
   ⟨0x68, 1, 0x4, false, [⟨7, 0, .rw, false, 0, []⟩, ⟨8, 8, .ro, false, 0, []⟩]⟩,
   ⟨0x6c, 1, 0x4, false, [⟨11, 0, .ro, false, 0, []⟩]⟩]
def pgRAS1 : PageD := ⟨pgRAS1Regs, [⟨0x80, 1, 0x8, 1, 0x8⟩, ⟨0x88, 1, 0x8, 1, 0x8⟩, ⟨0x90, 1, 0x8, 1, 0x8⟩, ⟨0x98, 1, 0x8, 1, 0x8⟩, ⟨0xa0, 1, 0x8, 1, 0x8⟩]⟩
def pgRAS2Regs : List RegD :=
  []
def pgRAS2 : PageD := ⟨pgRAS2Regs, [⟨0x40, 9, 0x8, 1, 0x8⟩, ⟨0xc0, 9, 0x8, 1, 0x8⟩, ⟨0x140, 9, 0x8, 1, 0x8⟩, ⟨0x1c0, 1, 0x8, 1, 0x8⟩, ⟨0x1c8, 1, 0x8, 1, 0x8⟩]⟩
def pgZRAS0Regs : List RegD :=
  [⟨0x40, 1, 0x4, false, [⟨15, 0, .rw, false, 0, []⟩, ⟨19, 16, .rw, false, 0, []⟩]⟩,
   ⟨0x44, 1, 0x4, false, [⟨11, 0, .ro, false, 0, []⟩, ⟨23, 12, .ro, false, 0, []⟩]⟩,
   ⟨0x48, 1, 0x4, false, [⟨19, 0, .ro, false, 0, []⟩, ⟨31, 31, .ro, false, 0, []⟩]⟩,
   ⟨0x4c, 1, 0x4, false, [⟨7, 0, .ro, false, 0, []⟩, ⟨15, 8, .ro, false, 0, []⟩, ⟨16, 16, .ro, false, 0, []⟩]⟩,
   ⟨0x50, 1, 0x4, false, [⟨31, 0, .ro, false, 0, []⟩]⟩,
   ⟨0x54, 1, 0x4, false, [⟨31, 0, .ro, false, 0, []⟩]⟩,
   ⟨0x58, 1, 0x4, false, [⟨0, 0, .rw, false, 0, []⟩, ⟨1, 1, .rw, false, 1, []⟩, ⟨2, 2, .w1s, false, 0, []⟩, ⟨3, 3, .w1s, false, 0, []⟩]⟩,
   ⟨0x5c, 1, 0x4, false, [⟨19, 0, .rw, false, 0, []⟩]⟩] ++
  [⟨0x60, 1, 0x4, false, [⟨31, 0, .rw, false, 0, []⟩]⟩,
   ⟨0x64, 1, 0x4, false, [⟨31, 0, .rw, false, 0, []⟩]⟩,
   ⟨0x68, 1, 0x4, false, [⟨7, 0, .rw, false, 0, []⟩, ⟨8, 8, .ro, false, 0, []⟩]⟩,
   ⟨0x6c, 1, 0x4, false, [⟨11, 0, .ro, false, 0, []⟩]⟩,
   ⟨0xc0, 1, 0x4, false, [⟨12, 0, .rw, true, 256, [(1, 4096)]⟩]⟩,
   ⟨0xc4, 1, 0x4, false, [⟨12, 0, .ro, false, 0, []⟩, ⟨28, 16, .ro, false, 0, []⟩, ⟨29, 29, .ro, false, 0, []⟩, ⟨30, 30, .ro, false, 0, []⟩]⟩,
   ⟨0xc8, 1, 0x4, false, [⟨0, 0, .ro, false, 0, []⟩]⟩]
def pgZRAS0 : PageD := ⟨pgZRAS0Regs, [⟨0x80, 1, 0x8, 1, 0x8⟩, ⟨0x88, 1, 0x8, 1, 0x8⟩, ⟨0x90, 1, 0x8, 1, 0x8⟩, ⟨0x98, 1, 0x8, 1, 0x8⟩, ⟨0xa0, 1, 0x8, 1, 0x8⟩]⟩
def pgHIF0Regs : List RegD :=
  [⟨0x40, 1, 0x4, false, [⟨2, 0, .ro, false, 0, []⟩, ⟨5, 3, .ro, false, 0, []⟩, ⟨7, 6, .ro, false, 0, []⟩, ⟨8, 8, .ro, false, 0, []⟩, ⟨9, 9, .ro, false, 0, []⟩, ⟨10, 10, .ro, false, 0, []⟩, ⟨18, 11, .ro, false, 0, []⟩]⟩,
   ⟨0x44, 1, 0x4, false, [⟨0, 0, .w1c, false, 0, []⟩, ⟨1, 1, .w1c, false, 0, []⟩, ⟨2, 2, .w1c, false, 0, []⟩, ⟨3, 3, .w1c, false, 0, []⟩]⟩]
def pgHIF0 : PageD := ⟨pgHIF0Regs, [⟨0x80, 1, 0x8, 1, 0x8⟩, ⟨0x88, 1, 0x8, 1, 0x8⟩, ⟨0x90, 1, 0x8, 1, 0x8⟩, ⟨0x98, 1, 0x8, 1, 0x8⟩, ⟨0xa0, 1, 0x8, 1, 0x8⟩, ⟨0xa8, 1, 0x8, 1, 0x8⟩, ⟨0xb0, 1, 0x8, 1, 0x8⟩, ⟨0xb8, 1, 0x8, 1, 0x8⟩, ⟨0xc0, 4, 0x8, 1, 0x8⟩, ⟨0xe0, 1, 0x8, 1, 0x8⟩, ⟨0xe8, 1, 0x8, 1, 0x8⟩]⟩
def pgHIF1Regs : List RegD :=
  [⟨0x40, 64, 0x20, false, [⟨31, 0, .rw, false, 0, []⟩]⟩,
   ⟨0x44, 64, 0x20, false, [⟨31, 0, .rw, false, 0, []⟩]⟩,
   ⟨0x48, 64, 0x20, false, [⟨31, 0, .rw, false, 0, []⟩]⟩,
   ⟨0x4c, 64, 0x20, false, [⟨31, 0, .rw, false, 0, []⟩]⟩,
   ⟨0x50, 64, 0x20, false, [⟨3, 0, .rw, false, 6, [(6, 15)]⟩, ⟨4, 4, .rw, false, 0, []⟩, ⟨5, 5, .rw, false, 0, []⟩, ⟨12, 6, .rw, false, 0, []⟩, ⟨14, 13, .ro, false, 0, []⟩]⟩,
   ⟨0x54, 64, 0x20, false, [⟨15, 0, .rw, false, 1, []⟩, ⟨31, 16, .rw, false, 0, []⟩]⟩,
   ⟨0x58, 64, 0x20, false, [⟨15, 0, .ro, false, 0, []⟩, ⟨31, 16, .ro, false, 0, []⟩]⟩,
   ⟨0x5c, 64, 0x20, false, [⟨15, 0, .ro, false, 0, []⟩, ⟨16, 16, .ro, false, 0, []⟩, ⟨17, 17, .ro, false, 0, []⟩]⟩]
def pgHIF1 : PageD := ⟨pgHIF1Regs, []⟩
def pgHIF2Regs : List RegD :=
  [⟨0x40, 64, 0x20, false, [⟨31, 0, .rw, false, 0, []⟩]⟩,
   ⟨0x44, 64, 0x20, false, [⟨31, 0, .rw, false, 0, []⟩]⟩,
   ⟨0x48, 64, 0x20, false, [⟨31, 0, .rw, false, 0, []⟩]⟩,
   ⟨0x4c, 64, 0x20, false, [⟨31, 0, .rw, false, 0, []⟩]⟩,
   ⟨0x50, 64, 0x20, false, [⟨3, 0, .rw, false, 6, [(6, 15)]⟩, ⟨4, 4, .rw, false, 0, []⟩, ⟨5, 5, .rw, false, 0, []⟩, ⟨12, 6, .rw, false, 0, []⟩, ⟨14, 13, .rw, false, 0, []⟩]⟩,
   ⟨0x54, 64, 0x20, false, [⟨15, 0, .rw, false, 1, []⟩, ⟨31, 16, .rw, false, 0, []⟩]⟩,
   ⟨0x58, 64, 0x20, false, [⟨15, 0, .ro, false, 0, []⟩, ⟨31, 16, .ro, false, 0, []⟩]⟩,
   ⟨0x5c, 64, 0x20, false, [⟨15, 0, .ro, false, 0, []⟩, ⟨16, 16, .ro, false, 0, []⟩, ⟨17, 17, .ro, false, 0, []⟩]⟩]
def pgHIF2 : PageD := ⟨pgHIF2Regs, []⟩
def pgHIF3Regs : List RegD :=
  [⟨0x40, 8, 0x20, false, [⟨31, 0, .rw, false, 0, []⟩]⟩,
   ⟨0x44, 8, 0x20, false, [⟨31, 0, .rw, false, 0, []⟩]⟩,
   ⟨0x48, 8, 0x20, false, [⟨31, 0, .rw, false, 0, []⟩]⟩,
   ⟨0x4c, 8, 0x20, false, [⟨31, 0, .rw, false, 0, []⟩]⟩,
   ⟨0x50, 8, 0x20, false, [⟨3, 0, .rw, false, 6, [(6, 15)]⟩, ⟨4, 4, .rw, false, 0, []⟩, ⟨5, 5, .rw, false, 0, []⟩, ⟨12, 6, .rw, false, 0, []⟩, ⟨14, 13, .ro, false, 0, []⟩]⟩,
   ⟨0x54, 8, 0x20, false, [⟨15, 0, .rw, false, 1, []⟩, ⟨31, 16, .rw, false, 0, []⟩]⟩,
   ⟨0x58, 8, 0x20, false, [⟨15, 0, .ro, false, 0, []⟩, ⟨31, 16, .ro, false, 0, []⟩]⟩,
   ⟨0x5c, 8, 0x20, false, [⟨15, 0, .ro, false, 0, []⟩, ⟨16, 16, .ro, false, 0, []⟩, ⟨17, 17, .ro, false, 0, []⟩]⟩] ++
  [⟨0x140, 4, 0x20, false, [⟨31, 0, .rw, false, 0, []⟩]⟩,
   ⟨0x144, 4, 0x20, false, [⟨31, 0, .rw, false, 0, []⟩]⟩,
   ⟨0x148, 4, 0x20, false, [⟨31, 0, .ro, false, 0, []⟩]⟩,
   ⟨0x14c, 4, 0x20, false, [⟨31, 0, .ro, false, 0, []⟩]⟩,
   ⟨0x150, 4, 0x20, false, [⟨3, 0, .rw, false, 6, [(6, 15)]⟩, ⟨4, 4, .rw, false, 0, []⟩, ⟨5, 5, .rw, false, 0, []⟩, ⟨12, 6, .rw, false, 0, []⟩, ⟨14, 13, .ro, false, 0, []⟩]⟩,
   ⟨0x154, 4, 0x20, false, [⟨15, 0, .rw, false, 1, []⟩, ⟨31, 16, .rw, false, 0, []⟩]⟩,
   ⟨0x158, 4, 0x20, false, [⟨15, 0, .ro, false, 0, []⟩, ⟨31, 16, .ro, false, 0, []⟩]⟩,
   ⟨0x15c, 4, 0x20, false, [⟨15, 0, .ro, false, 0, []⟩, ⟨16, 16, .ro, false, 0, []⟩, ⟨17, 17, .ro, false, 0, []⟩]⟩]
def pgHIF3 : PageD := ⟨pgHIF3Regs, []⟩
def pgMGT0Regs : List RegD :=
  [⟨0x40, 1, 0x4, false, [⟨0, 0, .ro, false, 0, []⟩, ⟨1, 1, .ro, false, 0, []⟩]⟩,
   ⟨0x44, 1, 0x4, false, [⟨31, 0, .ro, false, 0, []⟩]⟩,
   ⟨0x48, 1, 0x4, false, [⟨0, 0, .rw, true, 1, []⟩]⟩]
def pgMGT0 : PageD := ⟨pgMGT0Regs, []⟩
def pgMGT1Regs : List RegD :=
  [⟨0x40, 1, 0x4, false, [⟨11, 0, .rw, true, 105, [(4, 4095)]⟩, ⟨17, 12, .rw, true, 61, []⟩]⟩,
   ⟨0x44, 1, 0x4, false, [⟨6, 0, .ro, false, 0, []⟩, ⟨14, 8, .ro, false, 0, []⟩]⟩]
def pgMGT1 : PageD := ⟨pgMGT1Regs, [⟨0x60, 1, 0x8, 1, 0x8⟩, ⟨0x68, 1, 0x8, 1, 0x8⟩, ⟨0x70, 1, 0x8, 1, 0x8⟩]⟩
def pgMGT2Regs : List RegD :=
  [⟨0x40, 1, 0x4, false, [⟨6, 0, .ro, false, 0, []⟩, ⟨7, 7, .ro, false, 0, []⟩, ⟨14, 8, .ro, false, 52, []⟩]⟩,
   ⟨0x44, 1, 0x4, false, [⟨0, 0, .rw, true, 1, []⟩, ⟨1, 1, .rw, true, 0, []⟩]⟩,
   ⟨0x60, 32, 0x4, false, [⟨6, 0, .rw, true, 0, []⟩, ⟨7, 7, .rw, true, 0, []⟩, ⟨15, 8, .rw, true, 0, []⟩, ⟨23, 16, .rw, true, 0, []⟩, ⟨31, 24, .rw, true, 0, []⟩]⟩]
def pgMGT2 : PageD := ⟨pgMGT2Regs, [⟨0xe0, 1, 0x8, 1, 0x8⟩]⟩
def pgMGT3Regs : List RegD :=
  [⟨0x40, 1, 0x4, false, [⟨15, 0, .rw, true, 0, []⟩]⟩,
   ⟨0x44, 1, 0x4, false, [⟨15, 0, .rw, true, 0, []⟩]⟩,
   ⟨0x48, 1, 0x4, false, [⟨15, 0, .ro, false, 0, []⟩]⟩,
   ⟨0x4c, 1, 0x4, false, [⟨15, 0, .rw, true, 0, []⟩]⟩,
   ⟨0x50, 1, 0x4, false, [⟨15, 0, .rw, true, 0, []⟩]⟩]
def pgMGT3 : PageD := ⟨pgMGT3Regs, []⟩
def pgIC0Regs : List RegD :=
  [⟨0x40, 1, 0x4, true, [⟨31, 0, .ro, false, 0, []⟩]⟩,
   ⟨0x44, 1, 0x4, false, [⟨9, 0, .wo, false, 0, []⟩]⟩,
   ⟨0x48, 1, 0x4, true, [⟨31, 0, .ro, false, 0, []⟩]⟩,
   ⟨0x4c, 1, 0x4, false, [⟨9, 0, .wo, false, 0, []⟩]⟩,
   ⟨0x54, 1, 0x4, false, [⟨9, 0, .wo, false, 0, []⟩]⟩,
   ⟨0x58, 1, 0x4, true, [⟨31, 0, .ro, false, 0, []⟩]⟩,
   ⟨0x5c, 1, 0x4, false, [⟨9, 0, .wo, false, 0, []⟩]⟩,
   ⟨0x60, 1, 0x4, true, [⟨31, 0, .ro, false, 0, []⟩]⟩] ++
  [⟨0x64, 1, 0x4, false, [⟨9, 0, .wo, false, 0, []⟩]⟩,
   ⟨0x68, 1, 0x4, true, [⟨31, 0, .ro, false, 0, []⟩]⟩,
   ⟨0x6c, 1, 0x4, false, [⟨9, 0, .wo, false, 0, []⟩]⟩,
   ⟨0x70, 1, 0x4, false, [⟨0, 0, .rw, true, 1, []⟩]⟩,
   ⟨0x74, 1, 0x4, false, [⟨0, 0, .w1c, false, 0, []⟩, ⟨1, 1, .w1c, false, 0, []⟩]⟩,
   ⟨0x78, 1, 0x4, false, [⟨2, 0, .ro, false, 0, []⟩]⟩,
   ⟨0x7c, 1, 0x4, false, [⟨9, 0, .ro, false, 0, []⟩]⟩]
def pgIC0 : PageD := ⟨pgIC0Regs, []⟩
def pgIC1Regs : List RegD :=
  [⟨0x40, 16, 0x10, false, [⟨31, 0, .rw, false, 0, []⟩]⟩,
   ⟨0x44, 16, 0x10, false, [⟨31, 0, .rw, false, 0, []⟩]⟩,
   ⟨0x48, 16, 0x10, false, [⟨0, 0, .rw, false, 0, []⟩, ⟨1, 1, .w1c, false, 0, []⟩]⟩,
   ⟨0x4c, 16, 0x10, false, [⟨31, 0, .rw, false, 0, []⟩]⟩]
def pgIC1 : PageD := ⟨pgIC1Regs, []⟩
def pgIC2Regs : List RegD :=
  [⟨0x40, 64, 0x8, false, [⟨15, 0, .rw, true, 0, []⟩, ⟨31, 16, .rw, true, 100, []⟩]⟩,
   ⟨0x44, 64, 0x8, false, [⟨15, 0, .ro, false, 0, []⟩, ⟨16, 16, .ro, false, 0, []⟩]⟩,
   ⟨0x240, 1, 0x4, false, [⟨31, 0, .w1s, false, 0, []⟩]⟩,
   ⟨0x244, 1, 0x4, false, [⟨31, 0, .w1s, false, 0, []⟩]⟩]
def pgIC2 : PageD := ⟨pgIC2Regs, []⟩
def pgIC3Regs : List RegD :=
  [⟨0x40, 256, 0x4, false, [⟨0, 0, .rw, true, 1, []⟩, ⟨4, 1, .rw, true, 0, []⟩, ⟨7, 5, .rw, true, 0, [(0, 6)]⟩, ⟨8, 8, .rw, true, 0, []⟩, ⟨14, 9, .rw, true, 0, []⟩, ⟨21, 15, .rw, true, 0, []⟩, ⟨24, 22, .rw, true, 0, [(0, 4)]⟩, ⟨29, 25, .rw, true, 31, [(0, 25), (31, 31)]⟩, ⟨30, 30, .rw, true, 0, []⟩]⟩]
def pgIC3 : PageD := ⟨pgIC3Regs, []⟩
def pgIC4Regs : List RegD :=
  [⟨0x40, 256, 0x4, false, [⟨0, 0, .rw, true, 1, []⟩, ⟨4, 1, .rw, true, 0, []⟩, ⟨7, 5, .rw, true, 0, [(0, 6)]⟩, ⟨8, 8, .rw, true, 0, []⟩, ⟨14, 9, .rw, true, 0, []⟩, ⟨21, 15, .rw, true, 0, []⟩, ⟨24, 22, .rw, true, 0, [(0, 4)]⟩, ⟨29, 25, .rw, true, 31, [(0, 25), (31, 31)]⟩, ⟨30, 30, .rw, true, 0, []⟩]⟩]
def pgIC4 : PageD := ⟨pgIC4Regs, []⟩
def pgIC5Regs : List RegD :=
  [⟨0x40, 256, 0x4, false, [⟨0, 0, .ro, false, 0, []⟩, ⟨1, 1, .ro, false, 0, []⟩, ⟨2, 2, .ro, false, 0, []⟩, ⟨3, 3, .ro, false, 0, []⟩, ⟨11, 4, .ro, false, 0, []⟩, ⟨12, 12, .w1s, false, 0, []⟩, ⟨13, 13, .w1s, false, 0, []⟩]⟩]
def pgIC5 : PageD := ⟨pgIC5Regs, []⟩
def pgIC6Regs : List RegD :=
  [⟨0x40, 256, 0x4, false, [⟨0, 0, .ro, false, 0, []⟩, ⟨1, 1, .ro, false, 0, []⟩, ⟨2, 2, .ro, false, 0, []⟩, ⟨3, 3, .ro, false, 0, []⟩, ⟨11, 4, .ro, false, 0, []⟩, ⟨12, 12, .w1s, false, 0, []⟩, ⟨13, 13, .w1s, false, 0, []⟩]⟩]
def pgIC6 : PageD := ⟨pgIC6Regs, []⟩
def pgCLK0Regs : List RegD :=
  [⟨0x40, 1, 0x4, false, [⟨0, 0, .rw, true, 0, []⟩, ⟨1, 1, .rw, true, 0, []⟩, ⟨2, 2, .rw, true, 1, []⟩]⟩,
   ⟨0x44, 1, 0x4, false, [⟨0, 0, .ro, false, 0, []⟩, ⟨1, 1, .ro, false, 0, []⟩, ⟨2, 2, .ro, false, 0, []⟩, ⟨3, 3, .ro, false, 0, []⟩, ⟨4, 4, .ro, false, 0, []⟩, ⟨5, 5, .ro, false, 0, []⟩, ⟨7, 6, .ro, false, 0, []⟩, ⟨9, 8, .ro, false, 0, []⟩]⟩,
   ⟨0x48, 2, 0x4, false, [⟨15, 0, .ro, false, 0, []⟩, ⟨16, 16, .ro, false, 0, []⟩]⟩]
def pgCLK0 : PageD := ⟨pgCLK0Regs, [⟨0x50, 1, 0x8, 1, 0x8⟩, ⟨0x58, 1, 0x8, 1, 0x8⟩]⟩
def pgCLK1Regs : List RegD :=
  [⟨0x40, 1, 0x4, false, [⟨3, 0, .ro, false, 15, []⟩]⟩,
   ⟨0x44, 1, 0x4, false, [⟨3, 0, .rw, true, 4, []⟩]⟩,
   ⟨0x48, 1, 0x4, false, [⟨3, 0, .rw, true, 0, [(0, 7)]⟩]⟩]
def pgCLK1 : PageD := ⟨pgCLK1Regs, []⟩
def pgTB0Regs : List RegD :=
  [⟨0x40, 1, 0x4, false, [⟨31, 0, .ro, false, 0, []⟩]⟩,
   ⟨0x44, 1, 0x4, false, [⟨31, 0, .ro, false, 0, []⟩]⟩,
   ⟨0x48, 1, 0x4, false, [⟨15, 0, .ro, false, 0, []⟩]⟩,
   ⟨0x4c, 1, 0x4, false, [⟨31, 0, .rwc, false, 515396075, []⟩]⟩,
   ⟨0x50, 1, 0x4, false, [⟨7, 0, .rwc, false, 5, []⟩]⟩,
   ⟨0x54, 1, 0x4, false, [⟨31, 0, .rw, false, 0, []⟩]⟩,
   ⟨0x58, 1, 0x4, false, [⟨31, 0, .rw, false, 0, []⟩]⟩,
   ⟨0x5c, 1, 0x4, false, [⟨15, 0, .rw, false, 0, []⟩]⟩] ++
  [⟨0x60, 1, 0x4, false, [⟨0, 0, .w1s, false, 0, []⟩, ⟨1, 1, .w1s, false, 0, []⟩]⟩,
   ⟨0x64, 1, 0x4, false, [⟨31, 0, .rw, false, 0, []⟩]⟩,
   ⟨0x68, 1, 0x4, false, [⟨0, 0, .rw, true, 0, []⟩, ⟨31, 16, .rw, true, 10000, [(1, 65535)]⟩]⟩,
   ⟨0x6c, 1, 0x4, false, [⟨31, 0, .rw, true, 0, [(0, 499999999), (3794967297, 4294967295)]⟩]⟩,
   ⟨0x70, 1, 0x4, false, [⟨31, 0, .ro, false, 0, []⟩]⟩,
   ⟨0x74, 1, 0x4, false, [⟨31, 0, .ro, false, 0, []⟩]⟩,
   ⟨0x78, 1, 0x4, false, [⟨15, 0, .ro, false, 0, []⟩]⟩,
   ⟨0x7c, 1, 0x4, false, [⟨0, 0, .ro, false, 0, []⟩, ⟨4, 1, .ro, false, 0, []⟩]⟩]
def pgTB0 : PageD := ⟨pgTB0Regs, []⟩
def pgTB1Regs : List RegD :=
  []
def pgTB1 : PageD := ⟨pgTB1Regs, [⟨0x40, 1, 0x8, 1, 0x8⟩, ⟨0x48, 1, 0x8, 1, 0x8⟩]⟩
def pgPWR0Regs : List RegD :=
  [⟨0x40, 1, 0x4, false, [⟨2, 0, .ro, false, 0, []⟩, ⟨6, 4, .ro, false, 0, []⟩, ⟨10, 8, .ro, false, 0, []⟩, ⟨14, 12, .ro, false, 0, []⟩, ⟨18, 16, .ro, false, 0, []⟩]⟩,
   ⟨0x44, 1, 0x4, false, [⟨6, 0, .ro, false, 0, []⟩]⟩,
   ⟨0x48, 1, 0x4, false, [⟨2, 0, .rw, false, 0, [(0, 4)]⟩]⟩,
   ⟨0x4c, 1, 0x4, false, [⟨15, 0, .ro, false, 0, []⟩, ⟨31, 16, .rc, false, 65535, []⟩]⟩,
   ⟨0x50, 1, 0x4, false, [⟨7, 0, .rw, true, 50, [(1, 255)]⟩, ⟨15, 8, .rw, true, 20, []⟩]⟩,
   ⟨0x54, 1, 0x4, false, [⟨15, 0, .ro, false, 0, []⟩]⟩,
   ⟨0x58, 1, 0x4, false, [⟨9, 0, .rw, true, 820, [(100, 820)]⟩]⟩]
def pgPWR0 : PageD := ⟨pgPWR0Regs, [⟨0x60, 1, 0x8, 1, 0x8⟩, ⟨0x68, 1, 0x8, 1, 0x8⟩, ⟨0x70, 1, 0x8, 1, 0x8⟩, ⟨0x78, 1, 0x8, 1, 0x8⟩]⟩
def pgPWR1Regs : List RegD :=
  [⟨0x40, 1, 0x4, false, [⟨7, 0, .rw, true, 95, []⟩, ⟨15, 8, .rw, true, 100, []⟩, ⟨23, 16, .rw, true, 105, []⟩, ⟨31, 24, .rw, true, 108, []⟩]⟩,
   ⟨0x44, 1, 0x4, false, [⟨7, 0, .rw, true, 90, []⟩, ⟨15, 8, .rw, true, 95, []⟩, ⟨23, 16, .rw, true, 100, []⟩, ⟨31, 24, .rw, true, 103, []⟩]⟩,
   ⟨0x48, 1, 0x4, false, [⟨3, 0, .rw, true, 3, [(1, 15)]⟩]⟩,
   ⟨0x80, 64, 0x4, false, [⟨7, 0, .ro, false, 0, []⟩]⟩]
def pgPWR1 : PageD := ⟨pgPWR1Regs, []⟩
def pgPWR2Regs : List RegD :=
  [⟨0x40, 8, 0x4, false, [⟨7, 0, .rw, true, 0, []⟩, ⟨15, 8, .rw, true, 255, []⟩, ⟨23, 16, .ro, false, 0, []⟩]⟩]
def pgPWR2 : PageD := ⟨pgPWR2Regs, []⟩
def pgPWR3Regs : List RegD :=
  [⟨0x40, 1, 0x4, false, [⟨1, 0, .ro, false, 0, []⟩, ⟨4, 4, .rw, true, 1, []⟩, ⟨5, 5, .rw, true, 0, []⟩]⟩,
   ⟨0x44, 1, 0x4, false, [⟨31, 0, .rw, false, 0, []⟩]⟩,
   ⟨0x48, 1, 0x4, false, [⟨31, 0, .rw, false, 0, []⟩]⟩,
   ⟨0x4c, 1, 0x4, false, [⟨27, 0, .ro, false, 0, []⟩, ⟨31, 28, .ro, false, 0, []⟩]⟩,
   ⟨0x50, 1, 0x4, false, [⟨0, 0, .rw, true, 1, []⟩, ⟨1, 1, .rw, true, 1, []⟩, ⟨2, 2, .rw, true, 0, []⟩]⟩,
   ⟨0x54, 4, 0x4, false, [⟨4, 0, .rw, true, 24, [(1, 24)]⟩, ⟨10, 8, .rw, true, 3, [(1, 4)]⟩]⟩]
def pgPWR3 : PageD := ⟨pgPWR3Regs, [⟨0x80, 1, 0x8, 1, 0x8⟩, ⟨0x88, 1, 0x8, 1, 0x8⟩, ⟨0x90, 1, 0x8, 1, 0x8⟩]⟩
def pgCDY0Regs : List RegD :=
  [⟨0x40, 1, 0x4, false, [⟨0, 0, .rw, true, 1, []⟩, ⟨1, 1, .rw, true, 0, []⟩, ⟨15, 8, .rw, true, 60, [(60, 255)]⟩]⟩,
   ⟨0x44, 1, 0x4, false, [⟨1, 0, .ro, false, 0, []⟩, ⟨2, 2, .ro, false, 0, []⟩, ⟨3, 3, .ro, false, 0, []⟩, ⟨4, 4, .ro, false, 0, []⟩, ⟨5, 5, .ro, false, 0, []⟩, ⟨6, 6, .ro, false, 0, []⟩, ⟨15, 8, .ro, false, 0, []⟩]⟩,
   ⟨0x48, 1, 0x4, false, [⟨31, 0, .ro, false, 0, []⟩]⟩,
   ⟨0x4c, 1, 0x4, false, [⟨31, 0, .ro, false, 0, []⟩]⟩,
   ⟨0x50, 1, 0x4, false, [⟨0, 0, .w1s, false, 0, []⟩, ⟨1, 1, .w1s, false, 0, []⟩, ⟨2, 2, .w1s, false, 0, []⟩, ⟨3, 3, .w1s, false, 0, []⟩, ⟨4, 4, .w1s, false, 0, []⟩, ⟨31, 24, .wo, false, 0, []⟩]⟩,
   ⟨0x54, 1, 0x4, false, [⟨0, 0, .w1s, false, 0, []⟩, ⟨1, 1, .w1s, false, 0, []⟩, ⟨4, 4, .ro, false, 0, []⟩, ⟨5, 5, .ro, false, 0, []⟩, ⟨10, 8, .ro, false, 0, []⟩]⟩,
   ⟨0x58, 1, 0x4, false, [⟨23, 12, .rw, false, 0, []⟩]⟩,
   ⟨0x5c, 1, 0x4, false, [⟨24, 0, .rw, false, 0, [(1, 16777216)]⟩]⟩] ++
  [⟨0x60, 1, 0x4, false, [⟨19, 0, .rw, false, 0, []⟩]⟩,
   ⟨0x64, 4, 0x4, false, [⟨31, 0, .ro, false, 0, []⟩]⟩]
def pgCDY0 : PageD := ⟨pgCDY0Regs, []⟩
def pgCDY1Regs : List RegD :=
  []
def pgCDY1 : PageD := ⟨pgCDY1Regs, [⟨0x40, 1, 0x8, 1, 0x8⟩, ⟨0x48, 1, 0x8, 1, 0x8⟩, ⟨0x50, 1, 0x8, 1, 0x8⟩, ⟨0x58, 1, 0x8, 1, 0x8⟩, ⟨0x60, 1, 0x8, 1, 0x8⟩, ⟨0x68, 1, 0x8, 1, 0x8⟩, ⟨0x70, 1, 0x8, 1, 0x8⟩, ⟨0x78, 1, 0x8, 1, 0x8⟩]⟩
def pgTWN0Regs : List RegD :=
  [⟨0x40, 1, 0x4, false, [⟨0, 0, .rw, true, 0, []⟩, ⟨19, 8, .rw, true, 1000, [(10, 4095)]⟩, ⟨31, 20, .rw, true, 100, [(10, 4095)]⟩]⟩,
   ⟨0x44, 1, 0x4, false, [⟨2, 0, .ro, false, 0, []⟩, ⟨3, 3, .ro, false, 0, []⟩, ⟨4, 4, .ro, false, 0, []⟩, ⟨5, 5, .ro, false, 0, []⟩, ⟨6, 6, .ro, false, 0, []⟩, ⟨7, 7, .ro, false, 0, []⟩, ⟨8, 8, .ro, false, 0, []⟩, ⟨9, 9, .ro, false, 0, []⟩]⟩,
   ⟨0x48, 8, 0x4, false, [⟨31, 0, .rwc, true, 0, []⟩]⟩,
   ⟨0x68, 1, 0x4, false, [⟨31, 0, .rwc, true, 0, []⟩]⟩,
   ⟨0x6c, 1, 0x4, false, [⟨16, 0, .ro, false, 0, []⟩]⟩,
   ⟨0x70, 1, 0x4, false, [⟨31, 0, .ro, false, 0, []⟩]⟩,
   ⟨0x74, 1, 0x4, false, [⟨31, 0, .ro, false, 0, []⟩]⟩,
   ⟨0x78, 1, 0x4, false, [⟨7, 0, .ro, false, 0, []⟩, ⟨15, 8, .ro, false, 0, []⟩]⟩]
def pgTWN0 : PageD := ⟨pgTWN0Regs, []⟩
def pgTWN1Regs : List RegD :=
  []
def pgTWN1 : PageD := ⟨pgTWN1Regs, [⟨0x40, 1, 0x8, 1, 0x8⟩, ⟨0x48, 1, 0x8, 1, 0x8⟩, ⟨0x50, 1, 0x8, 1, 0x8⟩, ⟨0x58, 1, 0x8, 1, 0x8⟩, ⟨0x60, 1, 0x8, 1, 0x8⟩, ⟨0x68, 1, 0x8, 1, 0x8⟩, ⟨0x70, 1, 0x8, 1, 0x8⟩, ⟨0x78, 1, 0x8, 1, 0x8⟩]⟩
def pgDEV1Regs : List RegD :=
  [⟨0x40, 1, 0x4, false, [⟨15, 0, .ro, false, 150, []⟩, ⟨23, 16, .ro, false, 161, []⟩, ⟨24, 24, .ro, false, 0, []⟩]⟩,
   ⟨0x44, 1, 0x4, false, [⟨31, 0, .ro, false, 0, []⟩]⟩,
   ⟨0x48, 1, 0x4, false, [⟨31, 0, .ro, false, 0, []⟩]⟩,
   ⟨0x4c, 1, 0x4, false, [⟨31, 0, .ro, false, 0, []⟩]⟩,
   ⟨0x50, 1, 0x4, false, [⟨15, 0, .ro, false, 0, []⟩]⟩,
   ⟨0x54, 1, 0x4, false, [⟨1, 0, .ro, false, 0, []⟩, ⟨2, 2, .ro, false, 0, []⟩, ⟨3, 3, .ro, false, 0, []⟩, ⟨5, 4, .ro, false, 0, []⟩]⟩,
   ⟨0x58, 1, 0x4, false, [⟨3, 0, .ro, false, 0, []⟩, ⟨7, 4, .ro, false, 0, []⟩, ⟨11, 8, .ro, false, 0, []⟩, ⟨12, 12, .ro, false, 0, []⟩, ⟨13, 13, .ro, false, 0, []⟩]⟩,
   ⟨0x5c, 1, 0x4, false, [⟨15, 0, .ro, false, 0, []⟩]⟩] ++
  [⟨0x60, 1, 0x4, false, [⟨31, 0, .ro, false, 0, []⟩]⟩,
   ⟨0x64, 1, 0x4, false, [⟨0, 0, .w1s, false, 0, []⟩, ⟨31, 24, .wo, false, 0, []⟩]⟩]
def pgDEV1 : PageD := ⟨pgDEV1Regs, []⟩
def pgTEL0Regs : List RegD :=
  [⟨0x40, 1, 0x4, false, [⟨0, 0, .rw, true, 0, []⟩, ⟨1, 1, .rw, true, 0, []⟩, ⟨2, 2, .rw, true, 0, []⟩]⟩,
   ⟨0x44, 1, 0x4, false, [⟨23, 0, .rw, true, 1000, [(10, 16777215)]⟩]⟩,
   ⟨0x48, 1, 0x4, false, [⟨3, 0, .rw, false, 0, []⟩, ⟨7, 4, .rw, false, 0, []⟩, ⟨11, 8, .rw, false, 0, []⟩, ⟨15, 12, .rw, false, 0, []⟩]⟩,
   ⟨0x4c, 1, 0x4, false, [⟨0, 0, .w1s, false, 0, []⟩, ⟨1, 1, .w1s, false, 0, []⟩]⟩,
   ⟨0x50, 1, 0x4, false, [⟨23, 0, .ro, false, 0, []⟩, ⟨24, 24, .ro, false, 0, []⟩]⟩,
   ⟨0x54, 1, 0x4, false, [⟨16, 0, .rw, true, 0, [(0, 98303)]⟩]⟩,
   ⟨0x58, 1, 0x4, false, [⟨15, 0, .rw, true, 0, []⟩]⟩,
   ⟨0x5c, 1, 0x4, false, [⟨31, 0, .ro, false, 0, []⟩]⟩]
def pgTEL0 : PageD := ⟨pgTEL0Regs, [⟨0x60, 1, 0x8, 1, 0x8⟩, ⟨0x68, 1, 0x8, 1, 0x8⟩, ⟨0x70, 1, 0x8, 1, 0x8⟩, ⟨0x78, 1, 0x8, 1, 0x8⟩]⟩
def pgTEL1Regs : List RegD :=
  [⟨0x40, 64, 0x10, false, [⟨4, 0, .rwc, true, 0, [(0, 11)]⟩, ⟨6, 5, .rwc, true, 0, [(0, 2)]⟩]⟩,
   ⟨0x44, 64, 0x10, false, [⟨31, 0, .rwc, true, 0, []⟩]⟩,
   ⟨0x48, 64, 0x10, false, [⟨31, 0, .rwc, true, 0, []⟩]⟩,
   ⟨0x4c, 64, 0x10, false, [⟨31, 0, .rwc, true, 0, []⟩]⟩]
def pgTEL1 : PageD := ⟨pgTEL1Regs, []⟩
def pgTELZ0Regs : List RegD :=
  [⟨0x40, 104, 0x8, false, [⟨3, 0, .rw, false, 0, [(0, 14)]⟩, ⟨7, 4, .rw, false, 0, []⟩, ⟨9, 8, .rw, false, 0, [(0, 2)]⟩, ⟨10, 10, .rw, false, 0, []⟩, ⟨11, 11, .rw, false, 0, []⟩]⟩,
   ⟨0x44, 104, 0x8, false, [⟨31, 0, .rw, false, 0, []⟩]⟩,
   ⟨0x380, 26, 0x4, false, [⟨0, 0, .w1s, false, 0, []⟩, ⟨1, 1, .w1s, false, 0, []⟩, ⟨2, 2, .ro, false, 0, []⟩, ⟨7, 4, .w1c, false, 0, []⟩]⟩,
   ⟨0x3f0, 1, 0x4, false, [⟨25, 0, .ro, false, 0, []⟩]⟩]
def pgTELZ0 : PageD := ⟨pgTELZ0Regs, []⟩

/-- The page with only the header (R36). -/
def pgHeader : PageD := ⟨[], []⟩

/-- The layout of page `idx` of a block of type code `ty` (R33, R34). -/
def pageLayout : Nat → Nat → PageD
  | 0xa, 0 => pgXB0
  | 0x1, 0 => pgDEV0
  | 0x21, 0 => pgOE0
  | 0x21, 1 => pgOE1
  | 0x22, 0 => pgQUAD0
  | 0x23, 0 => pgSTR0
  | 0x23, 1 => pgSTR1
  | 0x23, 2 => pgSTR2
  | 0x23, 3 => pgSTR3
  | 0x24, 0 => pgADM0
  | 0x24, 1 => pgADM1
  | 0x25, 0 => pgBAR0
  | 0x25, 1 => pgBAR1
  | 0x26, 0 => pgCORE0
  | 0x20, 0 => pgZCTL0
  | 0x11, 0 => pgHCC0
  | 0x27, 0 => pgTBL0
  | 0x27, 1 => pgTBL1
  | 0x27, 2 => pgTBL2
  | 0xd, 0 => pgHTB0
  | 0xd, 1 => pgHTB1
  | 0xd, 2 => pgHTB2
  | 0x28, 0 => pgURN0
  | 0x28, 1 => pgURN1
  | 0x29, 0 => pgROB0
  | 0x2a, 0 => pgTM0
  | 0x2a, 1 => pgTM1
  | 0x2a, 2 => pgTM2
  | 0x2a, 3 => pgTM3
  | 0x2a, 4 => pgTM4
  | 0x2a, 5 => pgTM5
  | 0xb, 0 => pgCAR0
  | 0xb, 1 => pgCAR1
  | 0x2b, 0 => pgEDT0
  | 0x2b, 1 => pgEDT1
  | 0x10, 0 => pgHBM0
  | 0x10, 1 => pgHBM1
  | 0x10, 2 => pgHBM2
  | 0xe, 0 => pgARB0
  | 0xe, 1 => pgARB1
  | 0xe, 2 => pgARB2
  | 0xe, 3 => pgARB3
  | 0xc, 0 => pgLKU0
  | 0xc, 1 => pgLKU1
  | 0xf, 0 => pgRAS0
  | 0xf, 1 => pgRAS1
  | 0xf, 2 => pgRAS2
  | 0x2c, 0 => pgZRAS0
  | 0x8, 0 => pgHIF0
  | 0x8, 1 => pgHIF1
  | 0x8, 2 => pgHIF2
  | 0x8, 3 => pgHIF3
  | 0x7, 0 => pgMGT0
  | 0x7, 1 => pgMGT1
  | 0x7, 2 => pgMGT2
  | 0x7, 3 => pgMGT3
  | 0x5, 0 => pgIC0
  | 0x5, 1 => pgIC1
  | 0x5, 2 => pgIC2
  | 0x5, 3 => pgIC3
  | 0x5, 4 => pgIC4
  | 0x5, 5 => pgIC5
  | 0x5, 6 => pgIC6
  | 0x2, 0 => pgCLK0
  | 0x2, 1 => pgCLK1
  | 0x4, 0 => pgTB0
  | 0x4, 1 => pgTB1
  | 0x3, 0 => pgPWR0
  | 0x3, 1 => pgPWR1
  | 0x3, 2 => pgPWR2
  | 0x3, 3 => pgPWR3
  | 0x6, 0 => pgCDY0
  | 0x6, 1 => pgCDY1
  | 0x9, 0 => pgTWN0
  | 0x9, 1 => pgTWN1
  | 0x1, 1 => pgDEV1
  | 0x12, 0 => pgTEL0
  | 0x12, 1 => pgTEL1
  | 0x12, 2 => pgTELZ0
  | 0x12, 3 => pgTELZ0
  | 0x12, 4 => pgTELZ0
  | 0x12, 5 => pgTELZ0
  | _, _ => pgHeader

end Sys2Proof.Machine
end

