-- ==== Sys2Proof/Machine/State.lean ====
section
/-!
DEFINITION. The state of the K96 as plain data: every register, queue, buffer, counter, mode and pin the spec names, the
queue of waiting commands, and the state after reset. Each field carries its reset value; INVENTORY.md lists every piece
with the rule that names it.
-/

namespace Sys2Proof.Machine
open Sys2Proof

/-- A register page: its header state (R36 to R42, R538). -/
structure PageSt where
  /-- PAGE_STATUS.READY -/
  ready : Bool := false
  /-- PAGE_CTRL.HOLD -/
  hold : Bool := false
  /-- held by group hold (R44) -/
  group : Bool := false
  /-- PAGE_STATUS.HELD -/
  held : Bool := false
  /-- PAGE_CTRL.COMMIT -/
  commit : Bool := false
  /-- the master that wrote the pending commit -/
  commitBy : Master := .hostA
  /-- PAGE_STATUS.GENERATION -/
  gen : BitVec 8 := 0
  /-- PAGE_ERR -/
  err : BitVec 8 := 0
  /-- PAGE_ERR_INFO -/
  info : W32 := 0
  /-- PAGE_OWNER.OWNER -/
  owner : BitVec 2 := 0
  intStatus : W32 := 0
  intMask : W32 := 0
  deriving DecidableEq, Repr

/-- Values waiting in a page: the bits written and their values (the staging set R39, or the values of a hold R41). -/
structure Staged where
  mask : W32 := 0
  val : W32 := 0
  deriving DecidableEq, Repr

/-- An event source (R425, R431, R432, R433). -/
structure Src where
  pending : Bool := false
  active : Bool := false
  merged : Bool := false
  count : BitVec 8 := 0
  /-- held by coalescing -/
  held : Bool := false
  /-- released by its group and not yet claimed -/
  released : Bool := false
  /-- its host request has been made (R426) -/
  requested : Bool := false
  /-- the target that delivered it, while ACTIVE -/
  target : Nat := 0
  /-- the shared CORE sources: cores whose INT_STATUS bit is 1 (R424) -/
  cores : Nat := 0
  /-- asynchronous latch (R431) -/
  latch : Bool := false
  /-- kept in an isolated zone (R432) -/
  isoPending : Bool := false
  isoCount : BitVec 8 := 0
  deriving DecidableEq, Repr

/-- A coalescing group: edges of the window and the timebase (ns) of its start (R433). -/
structure CoGroup where
  edges : Nat := 0
  start : Option Nat := none
  deriving DecidableEq, Repr

/-- Event and interrupt controller. -/
structure Ic where
  srcs : Tab Src := []
  groups : Tab CoGroup := []
  /-- MC cycle until which the pins of targets 4, 5, 6 stay low (R430) -/
  pinUntil : Tab Nat := []
  /-- an episode of refused kernel posts is open (R427) -/
  stall : Bool := false
  deriving DecidableEq, Repr

/-- A pending timebase step (R446). -/
inductive TbStep where
  | set (value : Nat)
  | adjust (ns : Int)
  deriving DecidableEq, Repr

/-- What leaves the block: messages, host memory writes, frames, replies. -/
inductive Out where
  | msix (h v : Nat)
  | pme (h : Nat)
  | hostWrite (h : Nat) (addr : Nat) (words : List W32)
  | hostBytes (h : Nat) (addr : Nat) (bytes : List Byte)
  | lockReply (h slot : Nat) (word : W32)
  | barReply (h : Nat) (word : W32)
  | frame (port : Nat) (bytes : List Byte)
  | flow (port : Nat) (bytes : List Byte)
  | i3c (words : List W32)
  | i3cBytes (bytes : List Byte)
  | i3cIbi
  | source (addr reg val : Nat)
  | uart (b : Byte)
  | jtag (bits : List Bool)
  | twinRecord (r : SyncRec)
  | heartbeat (state : Nat) (primary : Bool) (serial : W64) (jsize : Nat)
  | pps (level : Bool)
  /-- a port begins or ends to signal remote fault (R70) -/
  | remoteFault (port : Nat) (on : Bool)
  /-- the sender's replay from flit `seq` on, out of its replay buffer (R19) -/
  | replay (zone : Nat) (toHub : Bool) (seq : Nat) (flits : List (List (BitVec 40)))
  deriving DecidableEq, Repr

/-! ### Die links (R16 to R23, R374, R392 to R394) -/

/-- One direction of a die link. -/
structure LinkDir where
  /-- data lanes lost without a spare: the link runs on 512 - 32 x this many lanes (R20) -/
  lost : Nat := 0
  /-- spare lanes serving in place of data lanes: (retired physical lane, spare lane) -/
  spares : List (Nat × Nat) := []
  /-- sequence number of the next flit to deliver (R19) -/
  next : Nat := 0
  /-- flits delivered, in order and once -/
  delivered : Nat := 0
  /-- a replay is awaited -/
  replay : Bool := false
  /-- copies of flits that failed their CRC: sequence number and the 40 bits of each lane (R374) -/
  failed : List (Nat × List (BitVec 40)) := []
  /-- failed copies whose replay has come, with the replayed flit, to be compared -/
  pairs : List (List (BitVec 40) × List (BitVec 40)) := []
  /-- successive failures of one flit (R392) -/
  fails : Nat := 0
  /-- replay buffer of the sender: the last 128 flits sent and not acknowledged, sequence number and bits (R19) -/
  buf : List (Nat × List (BitVec 40)) := []
  /-- payload granules taken in this MC cycle (R16, R18) -/
  used : Nat := 0
  deriving DecidableEq, Repr

/-- The die link of a zone. `state`: 0 DOWN, 1 TRAINING, 2 PRBS, 3 UP, 4 ISOLATED. -/
structure Link where
  state : Nat := 0
  isolated : Bool := false
  /-- timebase (ns) at which the PRBS test began -/
  prbs : Nat := 0
  /-- timebase (ns) of the last retrain attempt -/
  tried : Nat := 0
  /-- rebuild of the replicas in progress (R394) -/
  rebuilding : Bool := false
  up : LinkDir := {}
  down : LinkDir := {}
  deriving DecidableEq, Repr

/-! ### Optical line side (R56 to R84) -/

/-- A laser input; its state is that of its fault channel (R385). -/
structure LaserIn where
  /-- power, signed, 0.01 dBm -/
  pw : W16 := 0
  /-- below RETIRE when last compared; an input not yet measured is taken so -/
  below : Bool := true
  /-- start (ns) of the run at or above WARN -/
  run : Option Nat := none
  /-- entry (ns) into SHADOW -/
  shadow : Option Nat := none
  deriving DecidableEq, Repr

/-- An optical engine. -/
structure EngineSt where
  /-- 0 LI0 is major, 1 LI1 -/
  major : Bool := false
  /-- powered hours restored from the wear record, and the periods of `Life.powered` at which they began to count -/
  hours : Nat := 0
  since : Nat := 0
  calibrated : Bool := false
  /-- both inputs below RETIRE (R64) -/
  noLight : Bool := false
  /-- 0 both inputs are drawn from by share, 1 LI0 alone, 2 LI1 alone (R61, R62) -/
  draw : Nat := 0
  deriving DecidableEq, Repr

/-- A line lane. -/
structure LaneSt where
  ring : Bool := false
  /-- set dark by its output monitor (R66) -/
  dark : Bool := false
  /-- timebase (ns) from which ring and FEC lock have held in SHADOW -/
  shadow : Option Nat := none
  deriving DecidableEq, Repr

/-- A port. -/
structure PortSt where
  /-- quad lanes of the port with FEC and marker lock, bit k for its k-th lane -/
  locks : Nat := 0
  lfault : Bool := false
  rfault : Bool := false
  up : Bool := false
  /-- opened at a commit boundary since its lanes locked (R72) -/
  opened : Bool := false
  /-- in standby-blocking (R492) -/
  blocked : Bool := false
  /-- classes for which the port last sent XOFF, and when (2^-32 ns) for each; in PAUSE mode one time, at class 0 -/
  xoffSent : Nat := 0
  xoffAt : Tab Nat := []
  /-- it signals remote fault to its partner (R70) -/
  rfSent : Bool := false
  deriving DecidableEq, Repr

structure Line where
  /-- LASER_INTERLOCK_N low: emission permitted (reset value: DESIGN CHOICE, log 6) -/
  permit : Bool := false
  lasers : Tab LaserIn := []
  engines : Tab EngineSt := []
  lanes : Tab LaneSt := []
  ports : Tab PortSt := []
  /-- expiry (2^-32 ns) of the pause of port p, class c at key 8 p + c; 0 none (R74) -/
  pause : Tab Nat := []
  deriving DecidableEq, Repr

/-! ### Admission and the Strainer (R85 to R120) -/

/-- A frame in an admission store. -/
structure Pkt where
  bytes : List Byte
  port : Nat
  cls : Nat
  seq : Nat
  marked : Bool
  lossless : Bool
  /-- PCS timestamp, 0 when not taken (R79) -/
  stamp : W64
  deriving DecidableEq, Repr

/-- The result of a parse (R95 to R100): status word, the six layer offsets, key hash, malformed reason and its action. -/
structure Parse where
  status : Nat
  offs : List Nat
  hash : W32
  mal : Option Nat
  act : Nat
  deriving DecidableEq, Repr

/-- A packet in a pipeline after its store: with its parse and the queue it came from. -/
structure Parsed where
  pkt : Pkt
  res : Parse
  express : Bool
  /-- MC cycle in which the parse began -/
  start : Nat
  deriving DecidableEq, Repr

/-- A Strainer pipeline with its part of the admission store. -/
structure Pipe where
  normal : List Pkt := []
  express : List Pkt := []
  parsing : List Parsed := []
  /-- parsed, waiting for the cell write -/
  parsed : List Parsed := []
  /-- blocks held by admitted frames -/
  blocks : Nat := 0
  /-- store shed count (R109) -/
  shed : Nat := 0
  /-- the store cause of R108 holds -/
  storeXoff : Bool := false
  deriving DecidableEq, Repr

/-- An order domain (R103 to R108, R297). -/
structure Domain where
  /-- next sequence number to give -/
  next : Nat := 0
  /-- occupancy in cells -/
  occ : Nat := 0
  /-- numbers outstanding -/
  out : Nat := 0
  /-- the occupancy and outstanding-number causes of R108 -/
  xOcc : Bool := false
  xOut : Bool := false
  /-- NEXT of the reorder stage -/
  rel : Nat := 0
  mcWait : Bool := false
  deriving DecidableEq, Repr

structure Adm where
  pipes : Tab Pipe := []
  /-- domains by 8 x port + class -/
  doms : Tab Domain := []
  /-- pool shed count of a zone -/
  poolShed : Tab Nat := []
  /-- control cells of a zone (R110 check 3) -/
  ctrlCells : Tab Nat := []
  /-- tokens of policer p of zone z at 32 z + p, in 1/1000 -/
  tokens : Tab Nat := []
  /-- the whole microsecond of the last refill of a zone -/
  tokenUs : Tab Nat := []
  deriving DecidableEq, Repr

/-! ### Flights and the Barista (R121 to R148) -/

/-- A lane as its packet enters a flight: buffer, packet values, header window and metadata (R95, R152). -/
structure LaneInit where
  handle : W32
  len : Nat
  dom : Nat
  seq : Nat
  marked : Bool
  lossless : Bool
  stamp : W64
  h : List Byte
  m : List Byte
  deriving DecidableEq, Repr

/-- Where a flight is: in the queue, in a prefetch slot of a core, or running on a thread. -/
inductive FlightLoc where
  | queued
  | slot (cid : Nat)
  | run (cid : Nat) (t : Nat)
  /-- met a transient fault; not yet rebuilt -/
  | lost
  deriving DecidableEq, Repr

/-- A flight with its queue entry (R123, R124, R135, R136, R175). -/
structure Flight where
  /-- number of this run of the flight; its queue entry -/
  id : Nat
  entry : Nat
  zone : Nat
  cls : Nat
  level : Nat
  pipe : Nat
  express : Bool
  bank : Nat
  lanes : List LaneInit
  loc : FlightLoc
  /-- 0 normal and express, 1 shadow copy, 2 re-executed -/
  group : Nat
  displaced : Bool
  /-- core of the first fault -/
  faultCore : Option Nat
  /-- level under the cap of R128 once demoted -/
  demoted : Bool
  /-- issues since its start; LIMIT and GRACE, and FORK_EN, as they stood at its start (R175, R538) -/
  issues : Nat
  limit : Nat := 0
  grace : Nat := 0
  forkEn : Bool := true
  /-- the original of a shadow copy; a copy has been made -/
  copyOf : Option Nat
  copied : Bool
  /-- this original or copy has executed DONE -/
  finished : Bool
  /-- order of entry into the queue -/
  order : Nat
  /-- order of its return to the head of its level (R130, R181, R386); 0: it has not returned -/
  back : Nat := 0
  /-- owner index of its buffers once it has started (R271) -/
  owner : Option Nat
  /-- order of its dispatch -/
  placed : Nat
  /-- recorded for the comparator (R391): requests as (lane, word, A, key bytes), results as (lane, value) in the order
  received, final verdicts as (lane, bits [49:0]) -/
  trace : List (Nat × W32 × W64 × List Byte)
  results : List (Nat × W64)
  verdicts : List (Nat × Nat)
  deriving DecidableEq, Repr

/-- A former: its open flight and whether it is stopped (R121 to R126). -/
structure Former where
  lanes : List LaneInit := []
  stopped : Bool := false
  /-- it has resumed, and the packets that waited meanwhile have not all come (R31) -/
  backlog : Bool := false
  deriving DecidableEq, Repr

/-- The Barista of a zone. -/
structure BarZone where
  /-- express window (MC count / 64) and express-level dispatches in it (R128) -/
  window : Nat := 0
  expressUsed : Nat := 0
  /-- weighted discipline in force at the last look (R133) -/
  weighted : Bool := true
  credits : List Nat := [0, 0, 0, 0]
  last : Nat := 3
  /-- active set, bit k core k -/
  active : Nat := 0
  /-- MC cycle since which GROW or more flights have waited -/
  growSince : Option Nat := none
  /-- shadow run: copies still to run, core, in progress; judged, unjudged, results of the last run (R136, R391, R397) -/
  remain : Nat := 0
  shadowCore : Nat := 0
  run : Bool := false
  judged : Nat := 0
  unjudged : Nat := 0
  mismatch : Bool := false
  passed : Bool := false
  deriving DecidableEq, Repr

/-- A raise of R145: the holder's core and thread, the lock, the waiter's rank (band 1 flight, 0 kernel), and the flight
or item during which the lock was taken. -/
structure Raise where
  cid : Nat
  t : Nat
  addr : Nat
  band : Nat
  level : Nat
  tag : Nat
  deriving DecidableEq, Repr

structure Bar where
  formers : Tab Former := []
  flights : List Flight := []
  zones : Tab BarZone := []
  /-- kernel queues by place, in the order posted (R138, R427) -/
  items : Tab (List W64) := []
  raises : List Raise := []
  /-- MC cycle of the last flight instruction of a core -/
  issued : Tab Nat := []
  /-- numbers for flights and for order -/
  seq : Nat := 0
  deriving DecidableEq, Repr

/-! ### Cores (R149 to R183, R373 to R378) -/

/-- A 64-bit word of an on-die SRAM array (R373, R377): stored data, what its check bits differ by from those of the
data, poisoned check bits, written by a bypass test (R381). -/
structure SWord where
  valid : Bool := false
  data : W64 := 0
  chk : BitVec 8 := 0
  poison : Bool := false
  inj : Bool := false
  deriving DecidableEq, Repr

/-- An open merge entry: word, bytes gathered (bit 7 - i for byte i of the word), their values, MC cycle of its start. -/
structure MergeE where
  word : Nat
  mask : Nat
  val : Nat
  at_ : Nat
  deriving DecidableEq, Repr

/-- The lane's registers (R149): accumulator, cursor, flags, predicate. -/
structure LaneCtx where
  a : W64 := 0
  cur : W16 := 0
  z : Bool := false
  n : Bool := false
  c : Bool := false
  v : Bool := false
  p : Bool := false
  deriving DecidableEq, Repr

/-- An entry of a return stack (R162 to R165): a return address; a frame of a child thread (alive, or ended with its
surviving lanes and their registers); a serialised frame. -/
inductive RFrame where
  | ret (pc : Nat)
  | child (thread : Nat) (alive : Bool) (mask : Nat) (regs : List (Nat × LaneCtx))
  | serial (path : Bool) (resume rest survivors : Nat)
  deriving DecidableEq, Repr

/-- What a thread waits for (R157, R191): nothing, the 7 CC of a division, a child (JOIN), its own end (DONE or a child's
end), a grant of a lock (LOCK), FENCE. -/
inductive Wait where
  | none | div | join | done | lock | fence
  deriving DecidableEq, Repr

/-- A thread (R149). `state`: 0 IDLE, 1 FLIGHT, 2 CHILD, 3 KWAIT, 4 KRUN, 5 HALTED, 6 DRAIN (R181). -/
structure Thread where
  state : Nat := 0
  pc : Nat := 0
  bank : Nat := 0
  x : W16 := 0
  y : W16 := 0
  sp : Nat := 0
  rstack : List RFrame := []
  act : Nat := 0
  lanes : Tab LaneCtx := []
  inTrap : Bool := false
  tpc : Nat := 0
  tcause : Nat := 0
  tinfo : W32 := 0
  tlanes : Nat := 0
  /-- issue level: of the flight, of the kernel item, or set by PRIO -/
  level : Nat := 0
  /-- the root thread whose H and M its lanes use -/
  home : Nat := 0
  parent : Option Nat := none
  flight : Option Nat := none
  wait : Wait := .none
  /-- number of the kernel item or flight in progress, for R145 -/
  tag : Nat := 0
  /-- HALTED by a double trap (R181) -/
  dbl : Bool := false
  /-- kernel item in progress -/
  item : Option W64 := none
  /-- order of its last issue in the round-robin (R127, R157) -/
  issued : Nat := 0
  deriving DecidableEq, Repr

/-- What the next instruction of a thread stalled on when it was last offered (R158): nothing, the full queue of a helper, or slots
of lanes that were pending. -/
inductive Stall where
  | none
  | queue (helper : Nat)
  | slots (lanes slots : List Nat)
  deriving DecidableEq, Repr

structure Cores where
  /-- threads at 8 x core identifier + thread -/
  threads : Tab Thread := []
  /-- stalls met since a thread's last issue, at 8 x core identifier + thread (R157, R158) -/
  stalls : Tab Stall := []
  /-- thread + 1 that executed YIELD in the core's previous CC, 0 none (R157) -/
  yields : Tab Nat := []
  /-- on-die SRAM words at (place x 65536 + array) x 2^20 + word (R398, R539) -/
  sram : Tab SWord := []
  /-- open merge entries of an SRAM, oldest first, by place x 65536 + its number (R378) -/
  merge : Tab (List MergeE) := []
  /-- pending result slots of lane n of root thread t of core c, at (8 c + t) 32 + n (R158) -/
  pend : Tab Nat := []
  /-- items and flights begun, for tags -/
  tags : Nat := 0
  deriving DecidableEq, Repr

/-! ### Infusers (R215 to R221) -/

/-- A lane of a queued helper instruction with what was captured at its issue. -/
structure HLane where
  lane : Nat
  a : W64
  key : List Byte
  len : Nat
  /-- CSUM: the cursor -/
  cur : Nat
  /-- MIRR: the buffer of the lane's frame, its domain and sequence number, its mark and lossless class -/
  handle : W32
  dom : Nat
  seq : Nat
  marked : Bool
  lossless : Bool
  deriving DecidableEq, Repr

/-- An entry of a helper's input queue of a core. -/
structure HEntry where
  word : W32
  t : Nat
  home : Nat
  lanes : List HLane
  flight : Option Nat
  /-- issued by a shadow copy (R391) -/
  copy : Bool
  /-- LOCK: the holder identifier and the tag of the flight or item that issued it (R144, R355) -/
  holder : Nat := 0
  tag : Nat := 0
  /-- TSTAMP: the timebase sampled at issue, in 2^-32 ns -/
  stamp : Nat
  /-- searches and updates: the descriptor values of the table that the thread uses (R257) -/
  regs : List W32
  deriving DecidableEq, Repr

/-- A result on its way to a slot. `timed`: its helper gives it up after the timeout of R217. -/
structure HRes where
  helper : Nat
  timed : Bool
  cid : Nat
  t : Nat
  home : Nat
  slot : Nat
  lane : Nat
  value : W64
  poison : Bool
  flight : Option Nat
  deriving DecidableEq, Repr

/-- The effect of a posted instruction at its target (R218). -/
inductive PostEff where
  | count (zone pair packets bytes : Nat)
  | store (addr : Nat) (bytes : List Byte)
  | register (addr : Nat) (v : W32)
  | image (zone bank addr : Nat) (bytes : List Byte)
  | unlock (addr : Nat)
  | mirror (handle : W32) (group trunc dom seq refs : Nat) (ctrl lossless : Bool)
  deriving DecidableEq, Repr

/-- A posted effect on its way to its target, with the slot of its completion word. -/
structure HPost where
  cid : Nat
  helper : Nat
  t : Nat
  home : Nat
  slot : Nat
  lane : Nat
  eff : PostEff
  deriving DecidableEq, Repr

/-- The turns of a helper that a zone's cores share (R216): the core served last, by its number in the zone, and whether its entry was cut
short. -/
structure Turn where
  last : Nat := 25
  cut : Bool := false
  deriving DecidableEq, Repr

structure Infusers where
  /-- input queues, oldest first, at 16 x core identifier + helper -/
  queues : Tab (List HEntry) := []
  /-- turns, at 16 x zone + helper -/
  turns : Tab Turn := []
  results : List HRes := []
  posts : List HPost := []
  deriving DecidableEq, Repr

/-! ### Tables, learning and distribution (R236 to R261) -/

/-- A table entry. `key`: EXACT key; LPM key with its length byte; TERNARY value. `lock`: the channel (8 x host + channel)
that locked it and the time (ns). A whole extension table lies at place 0, table 32 + x. -/
structure TEnt where
  valid : Bool := false
  key : List Byte := []
  mask : List Byte := []
  data : W64 := 0
  stamp : Nat := 0
  lock : Option (Nat × Nat) := none
  deriving DecidableEq, Repr

/-- A lane of INSRT or DEL taken by the update port and not yet performed. -/
structure PortOp where
  cid : Nat
  t : Nat
  home : Nat
  slot : Nat
  lane : Nat
  flight : Option Nat
  tbl : Nat
  del : Bool
  sub : Nat
  key : List Byte
  data : W64
  /-- descriptor values of its flight -/
  regs : List W32
  deriving DecidableEq, Repr

/-- What a zone asks of the hub for a replicated table (R247). -/
inductive ChKind where
  | insert (sub : Nat) (learn : Bool)
  | del
  | unstash
  deriving DecidableEq, Repr

/-- A change on its way to the master: the zone and region in which it was made provisionally, the positions of the replica it touched, and
what it left there. -/
structure Change where
  zone : Nat
  tbl : Nat
  kind : ChKind
  key : List Byte
  data : W64
  region : Nat
  touched : List (Nat × TEnt)
  deriving DecidableEq, Repr

/-- The entry writes of one master change on their way to a zone: number of the change, its time (ns), and
(table, region, position, entry). -/
structure DistW where
  id : Nat
  at_ : Nat
  late : Bool
  writes : List (Nat × Nat × Nat × TEnt)
  deriving DecidableEq, Repr

/-- Former descriptor values of a table that a commit replaced: in use by flights of an order below `flights` and kernel
items of a tag up to `items` (R257). `zone` 4: an extension table. -/
structure TblOld where
  zone : Nat
  tbl : Nat
  flights : Nat
  items : Nat
  busy : Bool
  regs : List W32
  deriving DecidableEq, Repr

structure Tables where
  /-- entries by ((64 x place + table) x 2 + region) x 2^32 + position -/
  ents : Tab TEnt := []
  /-- operations at the update port of a zone -/
  port : Tab (List PortOp) := []
  /-- learn candidates of a zone: key and port -/
  learn : Tab (List (List Byte × Nat)) := []
  /-- changes on their way to the hub -/
  changes : List Change := []
  dist : Tab (List DistW) := []
  seq : Nat := 0
  /-- aged replicated entries reported: zone, table, region, position -/
  aged : List (Nat × Nat × Nat × Nat) := []
  /-- entries of replicas to be fetched from the master: zone, table, region, position -/
  fetch : List (Nat × Nat × Nat × Nat) := []
  old : List TblOld := []
  /-- HTB_EXT_CTRL.LIMIT_GIB in force: the value at the last power-up (R265) -/
  extGib : Nat := 4
  deriving DecidableEq, Repr

/-! ### Urn (R268 to R295) -/

/-- A buffer record with its chain and contents. `kind` 0: the cell is free. -/
structure Buf where
  kind : Nat := 0
  index : Nat := 0
  incarn : BitVec 8 := 0
  count : Nat := 0
  cells : List Nat := []
  /-- LENGTH: bytes of the frame, FCS included -/
  len : Nat := 0
  bytes : List Byte := []
  /-- 1 + the MC cycle of its last transfer (R283) -/
  moved : Nat := 0
  /-- timebase at allocation in whole µs, modulo 2^32 -/
  stamp : Nat := 0
  stale : Bool := false
  tstamp : W64 := 0
  /-- order domain charged for it, if its cells count in one (R106) -/
  charged : Option Nat := none
  marked : Bool := false
  deriving DecidableEq, Repr

/-- A descriptor (R273) with the path of its frame. -/
structure Desc where
  handle : W32
  len : Nat
  edit : Nat
  dom : Nat
  seq : Nat
  port : Nat
  cls : Nat
  ecn : Bool
  ts2 : Bool
  ctrl : Bool
  lossless : Bool
  /-- a multicast or mirror copy: its frame crosses the die links and it releases a reference -/
  copy : Bool
  /-- the inject ring (64 x host + ring) it came from; its order-domain and sequence word is then the TAG (R409) -/
  inj : Option Nat
  deriving DecidableEq, Repr

/-- A spill page of a chain (R285): its number, the frames that start in it with their first slot, the cells of the
frames that fill its slots in order (handle, cell of the chain), its position, and whether it lies in HBM. -/
structure Page where
  num : Nat
  descs : List (Desc × Nat)
  slots : List (W32 × Nat)
  pos : Nat
  written : Bool
  deriving DecidableEq, Repr

/-- A virtual output queue (R286 to R288, R302 to R304). -/
structure Voq where
  q : List Desc := []
  spill : Bool := false
  chain : List Page := []
  /-- position of the next page of the chain -/
  pages : Nat := 0
  /-- credit balance in bytes -/
  balance : Int := 0
  /-- credits asked for and not granted -/
  asked : Nat := 0
  /-- greatest depth in cells (R502) -/
  most : Nat := 0
  deriving DecidableEq, Repr

/-- Urn of a zone. -/
structure UrnZone where
  /-- pool occupancy: cells allocated plus cells charged and not yet written -/
  occ : Nat := 0
  warn : Bool := false
  pressure : Bool := false
  reserve : Bool := false
  pgWarn : Bool := false
  lost : Nat := 0
  /-- the pages of lost chains -/
  lostPages : List Nat := []
  leakRun : Bool := false
  /-- buckets found by the pass in progress, 8 x (kind - 1) + bucket -/
  hist : List Nat := []
  /-- 1 + the 100 ms multiple of the last pass -/
  leakAt : Nat := 0
  logValid : Nat := 0
  logNext : Nat := 0
  passes : Nat := 0
  deriving DecidableEq, Repr

structure Urn where
  zones : Tab UrnZone := []
  /-- records by 131072 z + head cell -/
  bufs : Tab Buf := []
  /-- cells withdrawn from the pool, by the same key (R387) -/
  bad : List Nat := []
  /-- words of a cell written since its valid bits were cleared, from its first on, by the same key (R377) -/
  high : Tab Nat := []
  /-- VOQs by 2048 z + 8 port + class -/
  voqs : Tab Voq := []
  deriving DecidableEq, Repr

/-! ### Reorder stage, Carafe, traffic managers, edit (R296 to R325) -/

/-- An entry of the reorder stage: a lane with its verdict word (R155), or a released slot (`handle` none). -/
structure REntry where
  dom : Nat
  seq : Nat
  verdict : W64
  handle : Option W32
  arrival : Nat
  marked : Bool
  lossless : Bool
  deriving DecidableEq, Repr

/-- A request to Carafe: a released MC verdict (its domain waits) or a mirror request (R305, R306, R235). -/
structure CarReq where
  handle : W32
  group : Nat
  cls : Nat
  dom : Nat
  seq : Nat
  ecn : Bool
  ts2 : Bool
  ctrl : Bool
  lossless : Bool
  /-- bytes kept by MIRR; 0 the whole frame -/
  trunc : Nat
  /-- the domain whose wait ends -/
  waits : Bool
  /-- references to the buffer that the request holds -/
  refs : Nat
  /-- mirror copies (R306), and the inject ring a host's request came from -/
  mirror : Bool
  inj : Option Nat
  deriving DecidableEq, Repr

/-- An edit in progress or done. -/
structure Edit where
  desc : Desc
  zone : Nat
  bytes : List Byte
  tstamp : W64
  set : Nat
  mark : Bool
  /-- timebase (2^-32 ns) of its beginning -/
  start : Nat
  deriving DecidableEq, Repr

/-- Scheduler of an egress port (R303, R307, R308). -/
structure TmPort where
  deficit : List Nat := [0, 0, 0, 0, 0, 0, 0, 0]
  pointer : Nat := 0
  /-- buckets in 1/1000 byte: eight classes, then the port -/
  buckets : List Int := [16384000, 16384000, 16384000, 16384000, 16384000, 16384000, 16384000, 16384000, 16384000]
  edits : List Edit := []
  /-- edited frames at the MAC -/
  mac : List Edit := []
  deriving DecidableEq, Repr

/-- Staging of (port, class): frames with their ingress zone, bytes and receive stamp; the zone granted last. -/
structure Staging where
  frames : List (Desc × Nat × List Byte × W64) := []
  last : Nat := 3
  deriving DecidableEq, Repr

structure Egr where
  /-- waiting entries of a zone in order of arrival -/
  entries : Tab (List REntry) := []
  /-- domain after which a zone's reorder stage goes on -/
  turn : Tab Nat := []
  /-- Carafe's queues of a zone: released MC and MIRROR verdicts, and MIRR requests -/
  car : Tab (List CarReq) := []
  mirr : Tab (List CarReq) := []
  ports : Tab TmPort := []
  staging : Tab Staging := []
  /-- last 256 ns interval that refilled a zone's shapers -/
  shaperAt : Tab Nat := []
  groups : Tab W64 := []
  members : Tab W32 := []
  /-- edit memory of zone z, set s, word w at (2 z + s) 294912 + w -/
  editMem : Tab W32 := []
  /-- OTHER_BUSY of zone z's image banks at the last look, at z; OLD_BUSY of its edit sets at 4 + z -/
  oldBusy : Tab Bool := []
  deriving DecidableEq, Repr

/-! ### HBM controllers (R326 to R343, R540) -/

/-- A queued request: its service class, row, direction, requester (R348), arrival in FC cycles and order. -/
structure HReq where
  cls : Nat
  row : Nat
  write : Bool
  requester : Nat
  at_ : Nat
  order : Nat
  promoted : Bool
  deriving DecidableEq, Repr

/-- A bank: its queue, in-order mode (R332), open row and activations of rows in the window (R337). -/
structure HBank where
  q : List HReq := []
  inOrder : Bool := false
  openRow : Option Nat := none
  acts : List (Nat × Nat) := []
  deriving DecidableEq, Repr

structure Hbm where
  banks : Tab HBank := []
  /-- number of the next request -/
  seq : Nat := 0
  /-- PC_SPARE in force since power-up (R342) -/
  pcSpare : Bool := true
  /-- training failed as a whole: the module runs without HBM (R339) -/
  absent : Bool := false
  /-- activation window of a stack, as a multiple of its length -/
  window : Tab Nat := []
  /-- back-off answers still due, at 1024 x stack + requester (R338) -/
  throttle : Tab Nat := []
  /-- the pseudo-channel the spare area is for, if any, and the copy: 0 waiting to start, 1 copying, 2 serving, 3 pattern
  test and copy back -/
  spareOf : Option Nat := none
  copy : Nat := 0
  /-- blocks below this one are known to have been copied (R342) -/
  copied : Nat := 0
  /-- whether MIGRATING has been seen in the test and copy back of R343: 0 not yet, 1 copying, 2 copied -/
  copyBack : Nat := 0
  /-- pseudo-channels in SHADOW whose test waits for the release of HBM page 0 (R344) -/
  waiting : List Nat := []
  /-- timebase (ns) of the last refresh of a pseudo-channel (R336) -/
  refAt : Tab Nat := []
  /-- RETIRED pseudo-channels without the spare area (R342) -/
  lost : List Nat := []
  /-- 32-byte bursts with poisoned check bits, by address / 32 -/
  poison : List Nat := []
  /-- timebase (ns) of the last read-eye tracking of a stack -/
  tracked : Tab Nat := []
  /-- block next to be scrubbed in a pseudo-channel -/
  scrub : Tab Nat := []
  deriving DecidableEq, Repr

/-! ### Steep and the lock unit (R347 to R365) -/

/-- Steep's account of a requester: loss count, FC cycle from which it may present again, first presentation of its
waiting request, grants, losses and longest wait. -/
structure Requester where
  loss : Nat := 0
  next : Nat := 0
  first : Option Nat := none
  grants : Nat := 0
  waits : Nat := 0
  maxWait : Nat := 0
  /-- bites that its zone or hub unit has counted as failures (R352) -/
  failures : Nat := 0
  deriving DecidableEq, Repr

/-- A tenancy: the requester, the FC cycle in which it began, and ARB_RES as it was then (R368). -/
structure Tenant where
  req : Nat
  start : Nat
  cfg : W32
  deriving DecidableEq, Repr

/-- A resource: the requester granted last, its tenancies in the order of their beginning, and the first FC cycle in which it can judge
requests again. -/
structure Resource where
  pointer : Nat := 0
  tenants : List Tenant := []
  cycle : Nat := 0
  deriving DecidableEq, Repr

structure Steep where
  reqs : Tab Requester := []
  res : Tab Resource := []
  deriving DecidableEq, Repr

/-- An entry of the lock table: the aligned 8 bytes, the holder, whether the hold is orphaned, its start (ns), whether
its age has been reported, the flight or item that took it, the highest rank reported + 1, the LOCK that took it (its order), and
the rebuilt flight that may take an orphaned hold over (R361). -/
structure LockEnt where
  addr : Nat
  holder : Nat
  orphan : Bool
  start : Nat
  aged : Bool
  tag : Nat
  top : Nat
  order : Nat := 0
  heir : Option Nat := none
  deriving DecidableEq, Repr

/-- A waiting lane (`host` none) or host slot (64 x host + slot). `stage`: 0 waits on the lock, 1 in the
full list, 2 the lock has passed to it. -/
structure LockWait where
  addr : Nat
  word : Nat
  size : Nat
  stage : Nat
  order : Nat
  host : Option Nat
  cid : Nat
  t : Nat
  home : Nat
  slot : Nat
  lane : Nat
  flight : Option Nat
  /-- holder identifier and tag of a waiting lane -/
  holder : Nat := 0
  tag : Nat := 0
  deriving DecidableEq, Repr

/-- A host lock slot: its address registers, a grant kept for the next read, the start (ns) of an outstanding read. -/
structure LockSlot where
  lo : W32 := 0
  hi : W32 := 0
  kept : Option W32 := none
  stall : Option Nat := none
  deriving DecidableEq, Repr

structure LockUnit where
  table : List LockEnt := []
  waiters : List LockWait := []
  slots : Tab LockSlot := []
  seq : Nat := 0
  deriving DecidableEq, Repr

/-! ### Fault channels and SRAM logs (R379 to R391) -/

/-- A fault channel: state 0 GOOD, 1 SUSPECT, 2 SHADOW, 3 RETIRED, 4 SPARE; window start (ns), count in it, total. -/
structure Chan where
  state : Nat := 0
  start : Nat := 0
  count : Nat := 0
  total : Nat := 0
  hard : Bool := false
  spareIn : Bool := false
  deriving DecidableEq, Repr

/-- An entry of a correctable-error log: word, syndrome, occurrences, injected, time (ns). -/
structure LogE where
  word : Nat
  synd : BitVec 8
  count : Nat
  inj : Bool
  time : Nat
  deriving DecidableEq, Repr

structure Ras where
  /-- channels by word 0 x 2^32 + word 1 of their identifier -/
  chans : Tab Chan := []
  /-- registry: entry number to channel key + 1 -/
  registry : Tab Nat := []
  /-- correctable-error logs of arrays, by place x 65536 + array -/
  logs : Tab (List LogE) := []
  /-- faults met in this step and not yet judged: channel, hard -/
  todo : List (Nat × Bool) := []
  /-- retired rows whose copy into a spare runs -/
  copies : List Nat := []
  /-- channels whose change waits for its record in the retirement map (R388) -/
  journal : List Nat := []
  /-- the retirement map in Caddy: 1 + 2 x state + spare-in of each channel recorded (R388) -/
  map : Tab Nat := []
  /-- scrub: the word of an array scrubbed last + 1 -/
  scrub : Tab Nat := []
  deriving DecidableEq, Repr

/-! ### Host functions and management interfaces (R401 to R421) -/

/-- A ring: entries made since ENABLE rose, start of its timer (2^-32 ns), entries held in D3hot. -/
structure Ring where
  done : Nat := 0
  timer : Option Nat := none
  held : List (Nat × List W32) := []
  /-- time (ns) since which an inject waits for cells (R410) -/
  wait : Option Nat := none
  deriving DecidableEq, Repr

/-- A punt that a ring has taken and is copying (R408). -/
structure PuntJob where
  handle : W32
  idx : Nat
  reason : Nat
  port : Nat
  cls : Nat
  ctrl : Bool
  stamp : W64
  user : Nat
  deriving DecidableEq, Repr

structure Hif where
  /-- rings by 512 x host + (punt r, inject 64 + r, table DMA 128 + c, event 136 + e) -/
  rings : Tab Ring := []
  /-- punts in progress by 64 x host + ring -/
  punts : Tab (List PuntJob) := []
  /-- MSI-X vectors of a host that are not masked, pending, and held in D3hot -/
  open_ : Tab Nat := []
  pend : Tab Nat := []
  held : Tab Nat := []
  pmeEn : Tab Bool := []
  pmeStatus : Tab Bool := []
  deriving DecidableEq, Repr

/-- The I3C target, the laser sources, the UART and JTAG. -/
structure Mgt where
  /-- events enabled by ENEC: bit 0 IBI -/
  i3cEv : Nat := 0
  mwl : Nat := 0
  mrl : Nat := 0
  rstact : Nat := 0
  /-- ALARM cause (R415) -/
  alarm : W32 := 0
  /-- source slots that are on -/
  sources : Nat := 0
  rx : List Byte := []
  /-- a received character of the FIFO that carries a framing error -/
  rxErr : List Bool := []
  tx : List Byte := []
  /-- the receiver waits for the line to be high -/
  rxHunt : Bool := false
  /-- the boundary register, and whether EXTEST drives the lands from it (R418) -/
  boundary : List Bool := []
  extest : Bool := false
  deriving DecidableEq, Repr

/-! ### Clocks, timebase, Kettle (R438 to R459) -/

/-- The timebase copy of an isolated zone, with the rate it keeps (R393, R446). -/
structure ZoneTb where
  tb : Nat
  rate : Nat
  deriving DecidableEq, Repr

/-- Power state of a unit (R448): 0 ACTIVE, 1 NAP, 2 DOZE, 3 DORMANT; the timebase (ns) since which it is idle. -/
structure UnitPw where
  state : Nat := 0
  idle : Option Nat := none
  deriving DecidableEq, Repr

structure Kettle where
  /-- the converters are off: before VIN good, after a shutdown or with EN low -/
  off : Bool := true
  /-- a thermal trip keeps the module off (R456) -/
  tripped : Bool := false
  /-- causes of R453 -/
  crank : Bool := false
  /-- timebase in ns since when VIN has been read below 6.0 V, at or above 6.0 V, and at or above 4.5 V -/
  below6 : Option Nat := none
  above6 : Option Nat := none
  above45 : Option Nat := none
  /-- windows of 1 ms that had ended when the last one was judged (R457) -/
  capAt : Nat := 0
  vinLow : Bool := false
  /-- level that each die sensor and each stack asks for, of the cap, of each rail -/
  dieTherm : Tab Nat := []
  hbmTherm : Tab Nat := []
  capLevel : Nat := 0
  rails : Tab Nat := []
  /-- timebase (ns) since which a sensor has been at its trip temperature: sensors 0 to 63, stacks 64 to 67 -/
  hot : Tab (Option Nat) := []
  /-- level that an isolated zone keeps, set at the isolation (R393) -/
  kept : Tab (Option Nat) := []
  /-- references that passed their last window, bit 0 A, bit 1 B (R439) -/
  lastPass : Nat := 0
  /-- whole ns at which a wake begins (R451) -/
  wakeAt : Option Nat := none
  units : Tab UnitPw := []
  /-- copies of isolated zones -/
  ztb : Tab (Option ZoneTb) := []
  /-- PPS_OUT is high until this timebase, in whole ns -/
  pps : Option Nat := none
  /-- the second of the last PPS_OUT rise -/
  ppsLast : Option Int := none
  /-- TB_RATE in force for the next advance of the timebase (R446) -/
  rate : Nat := 0x51EB851EB
  deriving DecidableEq, Repr

/-! ### Start-up and retained state (R469 to R501) -/

structure Life where
  /-- zones that have opened forwarding, bit z (R471) -/
  zopen : Nat := 0
  /-- a non-recoverable module stop (R375) -/
  stopped : Bool := false
  /-- periods of 5.12 ns since VIN good or the warm reset (OPEN_MS) -/
  age : Nat := 0
  /-- periods of 5.12 ns of powered operation since VIN good (R61) -/
  powered : Nat := 0
  /-- timebase (ns) at which a zone last opened forwarding -/
  openAt : Nat := 0
  /-- time (ns) since which a source slot is on -/
  lit : Tab Nat := []
  /-- PG_OUT is high; ALARM_N is low -/
  pgOut : Bool := false
  alarm : Bool := false
  /-- FWD_OPEN has read 1 since VIN good -/
  opened : Bool := false
  /-- what Caddy holds for a restoration of this power-up: image banks (bit 2 z + b), a configuration save, a checkpoint;
  with FACTORY set, only what has been written since (R484) -/
  imgAvail : Nat := 0
  cfgAvail : Bool := false
  ckptAvail : Bool := false
  deriving DecidableEq, Repr

/-- A committed snapshot of Kept state: its sequence number, the last journal page it includes, register values. -/
structure Snap where
  seq : Nat
  upTo : Nat
  kept : Tab W32
  deriving DecidableEq, Repr

/-- A committed journal page: register, bits, values. -/
structure JPage where
  seq : Nat
  recs : List (Nat × W32 × W32)
  deriving DecidableEq, Repr

/-- A committed configuration save (R480). -/
structure CfgSave where
  seq : Nat
  edit : Tab W32
  groups : Tab W64
  members : Tab W32
  deriving DecidableEq, Repr

/-- A table of a checkpoint: zone (4 for a master), table, descriptor registers, entries by region x 2^32 + position. -/
structure CkptTbl where
  zone : Nat
  tbl : Nat
  regs : List W32
  ents : Tab TEnt
  deriving DecidableEq, Repr

/-- A record of the event log (R483). -/
structure LogRec where
  w0 : W32
  w1 : W32
  w2 : W32
  w3 : W32
  deriving DecidableEq, Repr

/-- Caddy: what survives the loss of supply, and what it is doing. -/
structure Caddy where
  snap0 : Option Snap := none
  snap1 : Option Snap := none
  journal : List JPage := []
  /-- sequence number of the latest committed page and of the latest snapshot ever written -/
  jseq : Nat := 0
  sseq : Nat := 0
  /-- images area: SRAM words of bank b of zone z at 2 z + b, with their VALID bits -/
  images : Tab (Tab W64) := []
  imgValid : Nat := 0
  cfg0 : Option CfgSave := none
  cfg1 : Option CfgSave := none
  ckpt0 : Option (List CkptTbl) := none
  ckpt1 : Option (List CkptTbl) := none
  /-- the latest checkpoint is in area 1 -/
  ckptLast : Bool := false
  log : List LogRec := []
  powerups : Nat := 0
  bootCopy : Bool := false
  /-- versions of the firmware copies A and B -/
  versions : W32 × W32 := (0, 0)
  /-- rotation hours of the engines in the wear records -/
  hours : Tab Nat := []
  /-- dirty set: bits of registers whose change is not yet durable, and when (ns) its page began -/
  dirty : Tab W32 := []
  dirtyAt : Option Nat := none
  /-- times (ns) of the journal programs of the last hour, newest first -/
  progs : List Nat := []
  /-- a program has been deferred for the page that waits -/
  deferred : Bool := false
  /-- the snapshot being written, the start of the last one (ns), and a snapshot asked for -/
  snapping : Option Snap := none
  snapAt : Option Nat := none
  snapWant : Bool := false
  /-- an area holds a snapshot that a loss of supply cut short: its CRC fails (R477, R478) -/
  torn : Bool := false
  /-- a flush is due (R476) -/
  flushWant : Bool := false
  /-- FACTORY start whose first durable change is still to come (R484) -/
  fresh : Bool := false
  /-- configuration: last write, starts of saves in 24 h newest first, last automatic save, a commanded save that waits -/
  cfgDirty : Bool := false
  cfgAt : Nat := 0
  saves : List Nat := []
  autoAt : Option Nat := none
  saveWant : Bool := false
  /-- last checkpoint (ns), one asked for -/
  ckptAt : Option Nat := none
  ckptWant : Bool := false
  /-- firmware handover: time (ns) of SWITCH, and since which the new copy is READY -/
  switchAt : Option Nat := none
  readyAt : Option Nat := none
  deriving DecidableEq, Repr

structure Twin where
  /-- last heartbeat received, entry into JOINING, last retrain (ns) -/
  hbAt : Option Nat := none
  joinAt : Nat := 0
  retryAt : Nat := 0
  /-- TWIN_ALIVE_OUT toggles -/
  toggling : Bool := false
  /-- own records that the partner has not acknowledged, and the journal of R494: one for each key -/
  own : List SyncRec := []
  /-- it has left PAIRED and not reconciled since: it keeps a journal -/
  left : Bool := false
  /-- last heartbeat sent (ns) -/
  sentAt : Option Nat := none
  /-- the partner's journal size from its last heartbeat -/
  partner : Nat := 0
  deriving DecidableEq, Repr

/-! ### Performance counters and telemetry (R502 to R514) -/

/-- Telemetry. Its counters, SEQ and HIT bits stand in their registers; the blocks of R504 at their window addresses. -/
structure Tel where
  /-- value of a probe at its last latch (R508) -/
  last : Tab W64 := []
  /-- greatest value of its source since -/
  top : Tab Int := []
  /-- probes whose baseline the next boundary takes -/
  fresh : Nat := 0
  /-- boundaries and SAMPLE_NOW since power-up (R507) -/
  seq : Nat := 0
  /-- boundary (whole ns) handled last -/
  boundary : Nat := 0
  /-- a sample being sent: its records of eight words -/
  job : Option (List (List W32)) := none
  /-- cores whose PMCs are frozen, bit 26 z + k, and those that freeze at the end of the step (R506) -/
  frozen : Nat := 0
  freezing : Nat := 0
  deriving DecidableEq, Repr

/-- Everything of the block but its memory and the queue of commands. -/
structure Dev where
  /-- MC cycles elapsed -/
  mc : Nat := 0
  /-- the timebase in units of 2^-32 ns (R444) -/
  tb : Nat := 0
  /-- a step the next tick loads -/
  tbStep : Option TbStep := none
  regs : Tab W32 := []
  staged : Tab Staged := []
  heldW : Tab Staged := []
  pages : Tab PageSt := []
  /-- the group master (R43) -/
  groupBy : Master := .hostA
  /-- a release by group hold waits for the epoch (R43) -/
  relPend : Bool := false
  ctrs : Tab W64 := []
  /-- high-half latches, by counter address and master (R51) -/
  latch : Tab W32 := []
  ic : Ic := {}
  link : Tab Link := []
  line : Line := {}
  adm : Adm := {}
  bar : Bar := {}
  urn : Urn := {}
  egr : Egr := {}
  core : Cores := {}
  inf : Infusers := {}
  hbm : Hbm := {}
  steep : Steep := {}
  lku : LockUnit := {}
  ras : Ras := {}
  ket : Kettle := {}
  life : Life := {}
  tbl : Tables := {}
  hif : Hif := {}
  mgt : Mgt := {}
  tel : Tel := {}
  caddy : Caddy := {}
  twin : Twin := {}
  /-- the number of the next free value (the model's own field, DESIGN CHOICE, log 1) -/
  free : Nat := 0
  /-- data last returned to each master -/
  rdata : Tab W64 := []
  out : List Out := []
  deriving DecidableEq, Repr

/-- Memory as a list of cells in canonical form: HBM and hub shared SRAM by global address (R229). -/
abbrev Memory := List Host.Cell

/-- The machine: the waiting commands, first in, first out; global memory; everything else. -/
structure State where
  pending : List Instr := []
  mem : Memory := []
  dev : Dev := {}
  deriving DecidableEq, Repr

/-- No command of this block stops the machine; the type is kept for the interface. `halted` is raised by nobody: safe. -/
inductive Fault where
  /-- raised by nobody; safe -/
  | halted
  deriving DecidableEq, Repr

/-- Refusals: only a command that has no meaning yet. -/
inductive Refusal where
  /-- raised by the dispatch for a command not modelled yet; safe -/
  | notModelled (mnemonic : String)
  deriving DecidableEq, Repr

/-- The machine under PORST_N, before VIN is good (R522, R524): every register at its factory value, no page ready. -/
def State.reset : State := {}


end Sys2Proof.Machine
end

