-- ==== Sys2Proof/Machine/Tab.lean ====
section
/-!
DEFINITION. Reading and writing a sparse store (Tab) in its one canonical form: keys strictly rising and no entry equal
to what an unlisted key reads as. Bit-field and byte helpers over registers.
-/

namespace Sys2Proof.Machine
open Sys2Proof

/-- What key `k` holds: the listed value, else the default. -/
def tget {α : Type} (d : Nat → α) (t : Tab α) (k : Nat) : α :=
  (t.lookup k).getD (d k)

/-- Put an entry at its place in the order of keys. -/
def tput {α : Type} (k : Nat) (v : α) : Tab α → Tab α
  | [] => [(k, v)]
  | (a, b) :: r => if k < a then (k, v) :: (a, b) :: r else if k = a then (k, v) :: r else (a, b) :: tput k v r

/-- Drop key `k`. -/
def tdrop {α : Type} (k : Nat) (t : Tab α) : Tab α := t.filter (fun e => e.1 != k)

/-- Write `v` at `k`: writing the default removes the entry. -/
def tset {α : Type} [DecidableEq α] (d : Nat → α) (t : Tab α) (k : Nat) (v : α) : Tab α :=
  if v = d k then tdrop k t else tput k v t

/-- Change the value at `k`. -/
def tmod {α : Type} [DecidableEq α] (d : Nat → α) (t : Tab α) (k : Nat) (f : α → α) : Tab α :=
  tset d t k (f (tget d t k))

/-- Keys strictly rising. -/
def rising {α : Type} : Tab α → Bool
  | [] => true
  | [_] => true
  | (a, _) :: (b, w) :: r => decide (a < b) && rising ((b, w) :: r)

/-- The canonical form. -/
def canon {α : Type} [DecidableEq α] (d : Nat → α) (t : Tab α) : Bool :=
  rising t && t.all (fun e => decide (e.2 ≠ d e.1))

/-- The value of a field as a number. -/
def getF (v : W32) (f : Fld) : Nat := (v.toNat >>> f.lo) % 2 ^ (f.hi + 1 - f.lo)

/-- The bits of a field. -/
def maskF (f : Fld) : Nat := (2 ^ (f.hi + 1 - f.lo) - 1) <<< f.lo

/-- `v` with field `f` set to `x` modulo its width. -/
def putF (v : W32) (f : Fld) (x : Nat) : W32 :=
  let m := BitVec.ofNat 32 (maskF f)
  (v &&& ~~~m) ||| (BitVec.ofNat 32 (x % 2 ^ (f.hi + 1 - f.lo) * 2 ^ f.lo))

/-- Bit `n` of a number. -/
def bit (x n : Nat) : Bool := x.testBit n

/-- `x` with bit `n` set. -/
def setBit (x n : Nat) : Nat := x ||| (1 <<< n)

/-- `x` with bit `n` cleared. -/
def clrBit (x n : Nat) : Nat := if x.testBit n then x - 1 <<< n else x

/-- 0 or 1. -/
def b2n (b : Bool) : Nat := if b then 1 else 0

/-- Number of bits set among the first `n`. -/
def popBelow (x : Nat) : Nat → Nat
  | 0 => 0
  | n + 1 => popBelow x n + b2n (x.testBit n)

/-- The bits set among the first `n`, rising. -/
def bitsOf (x n : Nat) : List Nat := (List.range n).filter (fun i => x.testBit i)

/-- The number whose set bits are listed. -/
def ofBits (l : List Nat) : Nat := l.foldl (fun a i => a ||| (1 <<< i)) 0

/-- The first bit set among the first `n`. -/
def lowest (x n : Nat) : Option Nat := (List.range n).find? (fun i => x.testBit i)

/-- Two's complement value of the low `w` bits. -/
def sint (w x : Nat) : Int :=
  let y := x % 2 ^ w
  if y < 2 ^ (w - 1) then (y : Int) else (y : Int) - (2 ^ w : Nat)

/-- The low `w` bits of an integer. -/
def wrapInt (w : Nat) (x : Int) : Nat := (x % (2 ^ w : Nat)).toNat

/-- A list cut into runs of at most `n`, at most `k` of them. -/
def runsOf (n : Nat) : Nat → List α → List (List α)
  | k + 1, x :: l => (x :: l).take n :: runsOf n k ((x :: l).drop n)
  | _, _ => []

/-- Ceiling of a division. -/
def cdiv (a b : Nat) : Nat := (a + b - 1) / b

/-- Big-endian number of a list of bytes. -/
def beNat (l : List Byte) : Nat := l.foldl (fun a b => a * 256 + b.toNat) 0

/-- The `n` big-endian bytes of a number. -/
def beBytes : Nat → Nat → List Byte
  | 0, _ => []
  | n + 1, x => BitVec.ofNat 8 (x / 256 ^ n) :: beBytes n x

/-- Little-endian number of a list of bytes. -/
def leNat (l : List Byte) : Nat := beNat l.reverse

/-- The `n` little-endian bytes of a number. -/
def leBytes (n x : Nat) : List Byte := (beBytes n x).reverse

/-- Byte `i` of a list, 0 beyond its end. -/
def byteAt (l : List Byte) (i : Nat) : Nat := (l.getD i 0).toNat

/-- Big-endian `n` bytes at offset `i`, bytes beyond the end reading 0. -/
def beAt (l : List Byte) (i n : Nat) : Nat := (List.range n).foldl (fun a k => a * 256 + byteAt l (i + k)) 0

/-- Replace the bytes from offset `i` by `ws`, where both exist. -/
def patch (l : List Byte) (i : Nat) (ws : List Byte) : List Byte :=
  l.zipIdx.map (fun e => if i ≤ e.2 && e.2 < i + ws.length then ws.getD (e.2 - i) e.1 else e.1)

/-- Change element `i` of a list. -/
def lmod {α : Type} (l : List α) (i : Nat) (f : α → α) : List α :=
  l.zipIdx.map (fun e => if e.2 == i then f e.1 else e.1)

end Sys2Proof.Machine
end

