-- ==== Sys2Proof/Machine/Ops.lean ====
section
/-!
DEFINITION. The named operations over registers, counters, page events, outputs, free values and memory that every
meaning uses (Register pages and access rules, R32 to R55; R425, R431 to R433 for the edge of an event source).
-/

namespace Sys2Proof.Machine
open Sys2Proof

/-- A result that is a next state whose devices changed. -/
def State.onDev (s : State) (f : Dev → Dev) : Host.Outcome State Fault Refusal := .next { s with dev := f s.dev }

/-- The same where the change reads memory. -/
def State.onDevM (s : State) (f : Memory → Dev → Dev) : Host.Outcome State Fault Refusal :=
  .next { s with dev := f s.mem s.dev }

/-- A result that is a next state whose memory and devices changed. -/
def State.onMem (s : State) (f : Memory → Dev → Memory × Dev) : Host.Outcome State Fault Refusal :=
  .next { s with mem := (f s.mem s.dev).1, dev := (f s.mem s.dev).2 }

/-! ## Pages (R32 to R36) -/

/-- What a page belongs to: type code, index among its block's pages, INSTANCE value, zone. -/
structure PageId where
  ty : Nat
  idx : Nat
  inst : Nat
  zone : Nat
  deriving DecidableEq, Repr

/-- One row of the page directory: first page, pages, type, pages of one block. -/
structure DirRow where
  first : Nat
  n : Nat
  ty : Nat
  per : Nat
  deriving DecidableEq, Repr

/-- Hub pages of R33. -/
def hubDir : List DirRow :=
  [⟨0x0, 4, 0x01, 4⟩, ⟨0x10, 2, 0x02, 2⟩, ⟨0x20, 4, 0x03, 4⟩, ⟨0x30, 2, 0x04, 2⟩, ⟨0x40, 16, 0x05, 16⟩,
   ⟨0x50, 2, 0x06, 2⟩, ⟨0x60, 4, 0x07, 4⟩, ⟨0x70, 16, 0x08, 8⟩, ⟨0x80, 2, 0x09, 2⟩, ⟨0x90, 4, 0x0A, 1⟩,
   ⟨0xA0, 4, 0x0B, 4⟩, ⟨0xB0, 2, 0x0C, 2⟩, ⟨0xC0, 8, 0x0D, 8⟩, ⟨0xD0, 4, 0x0E, 4⟩, ⟨0xE0, 4, 0x0F, 4⟩] ++
  [⟨0x100, 8, 0x10, 8⟩, ⟨0x110, 8, 0x10, 8⟩, ⟨0x120, 8, 0x10, 8⟩, ⟨0x130, 8, 0x10, 8⟩, ⟨0x200, 4, 0x11, 1⟩,
   ⟨0x400, 16, 0x12, 16⟩]

/-- Zone pages of R34, as page offsets in the zone. -/
def zoneDir : List DirRow :=
  [⟨0x0, 1, 0x20, 1⟩, ⟨0x10, 8, 0x21, 2⟩, ⟨0x20, 16, 0x22, 1⟩, ⟨0x40, 4, 0x23, 4⟩, ⟨0x50, 2, 0x24, 2⟩,
   ⟨0x60, 2, 0x25, 2⟩, ⟨0x80, 26, 0x26, 1⟩, ⟨0xA0, 8, 0x27, 8⟩, ⟨0xC0, 2, 0x28, 2⟩, ⟨0xD0, 1, 0x29, 1⟩,
   ⟨0xE0, 8, 0x2A, 8⟩, ⟨0xF0, 2, 0x2B, 2⟩, ⟨0x100, 1, 0x2C, 1⟩]

/-- The row that holds page offset `p`. -/
def dirRow (rows : List DirRow) (p : Nat) : Option DirRow := rows.find? (fun r => r.first ≤ p && p < r.first + r.n)

/-- The identity of BAR0 page number `pg`, none for an unimplemented page (R32). -/
def pageId (pg : Nat) : Option PageId :=
  if pg < 0x1000 then
    (dirRow hubDir pg).map (fun r =>
      let k := (pg - r.first) / r.per
      ⟨r.ty, (pg - r.first) % r.per, if r.ty = 0x10 then (pg - 0x100) / 16 else k, 0⟩)
  else if pg < 0x2000 then
    let z := (pg - 0x1000) / 0x400
    let p := (pg - 0x1000) % 0x400
    (dirRow zoneDir p).map (fun r => ⟨r.ty, (p - r.first) % r.per, 64 * z + (p - r.first) / r.per, z⟩)
  else none

/-- Every implemented page number. -/
def allPages : List Nat :=
  (hubDir.flatMap (fun r => (List.range r.n).map (fun i => r.first + i))) ++
  ((List.range 4).flatMap (fun z => zoneDir.flatMap (fun r =>
    (List.range r.n).map (fun i => 0x1000 + 0x400 * z + r.first + i))))

/-- The implemented pages of the hub, and of zone `z`. -/
def hubPages : List Nat := hubDir.flatMap (fun r => (List.range r.n).map (fun i => r.first + i))
def zonePages (z : Nat) : List Nat :=
  zoneDir.flatMap (fun r => (List.range r.n).map (fun i => 0x1000 + 0x400 * z + r.first + i))

/-- First event source and number of events of a page (R422, R423, R424); none: INT_BASE.NONE. -/
def pageEvents (p : PageId) : Option (Nat × Nat) :=
  let z := 128 + 96 * p.zone
  let l := p.inst % 64
  match p.ty, p.idx with
  | 0x05, 1 => some (0, 16)
  | 0x05, 0 => some (16, 2)
  | 0x02, 0 => some (20, 4)
  | 0x03, 0 => some (24, 8)
  | 0x04, 0 => some (32, 4)
  | 0x06, 0 => some (36, 4)
  | 0x09, 0 => some (40, 4)
  | 0x12, 0 => some (44, 4)
  | 0x08, 0 => some (48 + 4 * p.inst, 4)
  | 0x0B, 0 => some (56, 3)
  | 0x0D, 0 => some (60, 4)
  | 0x0E, 0 => some (64, 2)
  | 0x0C, 0 => some (66, 4)
  | 0x0F, 0 => some (70, 5)
  | 0x10, 0 => some (80 + 6 * p.inst, 6)
  | 0x07, 0 => some (104, 1)
  | 0x07, 1 => some (105, 1)
  | 0x07, 2 => some (106, 1)
  | 0x07, 3 => some (112, 16)
  | 0x20, 0 => some (z, 1)
  | 0x21, 0 => some (z + 1 + 4 * l, 4)
  | 0x22, 0 => some (z + 17 + 2 * l, 2)
  | 0x23, 0 => some (z + 49, 2)
  | 0x24, 0 => some (z + 51, 3)
  | 0x24, 1 => some (z + 54, 1)
  | 0x25, 0 => some (z + 55, 4)
  | 0x26, 0 => some (z + 59, 4)
  | 0x27, 0 => some (z + 63, 5)
  | 0x28, 0 => some (z + 68, 8)
  | 0x29, 0 => some (z + 76, 3)
  | 0x2A, 0 => some (z + 79, 1)
  | 0x2A, 5 => some (z + 80, 1)
  | 0x2B, 0 => some (z + 81, 3)
  | 0x2C, 0 => some (z + 84, 4)
  | _, _ => none

/-- The registers of a page. PC_SPARE stands on the page of stack 0 alone: on the others it reads 0 and ignores writes (R344). -/
def regsOf (p : PageId) : List RegD :=
  let l := (pageLayout p.ty p.idx).regs
  if p.ty == 0x10 && p.idx == 0 && p.inst != 0 then
    l.map (fun r => if r.off == 0x40 then { r with fields := r.fields.filter (fun f => f.lo != 3) } else r)
  else l

/-- The register description and index that cover byte offset `off` of a page. -/
def regAt (p : PageId) (off : Nat) : Option (RegD × Nat) :=
  ((regsOf p).find? (fun r =>
    r.off ≤ off && (off - r.off) % r.stride < 4 && (off - r.off) / r.stride < r.count)).map
    (fun r => (r, (off - r.off) / r.stride))

/-- The offset of the low half of the 64-bit counter that covers offset `off`, if one does. -/
def ctrAt (p : PageId) (off : Nat) : Option Nat :=
  ((pageLayout p.ty p.idx).ctrs.find? (fun c =>
    c.off ≤ off && (off - c.off) / c.s1 < c.n1 && ((off - c.off) % c.s1) / c.s2 < c.n2 &&
      ((off - c.off) % c.s1) % c.s2 < 8)).map
    (fun c => off - ((off - c.off) % c.s1) % c.s2)

/-- Minimum FLOOR of background activity `a` (R458); 0 where the table names a rate or nothing (log 5). -/
def shareMin (a : Nat) : Nat :=
  match a with
  | 1 => 255
  | 2 => 16
  | 5 => 8
  | 6 => 16
  | _ => 0

/-- Factory contents of control-marking entries (R91). -/
def etypeFactory (i : Nat) : Nat :=
  match i with
  | 0 => 0x80078809
  | 1 => 0x800788CC
  | 2 => 0x800788F7
  | 3 => 0x80070806
  | _ => 0
def l4Factory (i : Nat) : Nat :=
  let e (port proto dir : Nat) := port + proto * 65536 + dir * 0x20000 + 7 * 0x80000 + 0x80000000
  match i with
  | 0 => e 319 0 1
  | 1 => e 320 0 1
  | 2 => e 179 1 3
  | 3 => e 3784 0 1
  | 4 => e 4784 0 1
  | 5 => e 646 1 3
  | _ => 0x20000

/-- Factory bits that a register's table does not give as one number. -/
def factorySpecial (p : PageId) (off i : Nat) : Nat :=
  let l := p.inst % 64
  let q := 16 * p.zone + l
  match p.ty, p.idx, off with
  | 0x22, 0, 0x050 => (Config.macBase.toNat + 4 * q) % 2 ^ 32
  | 0x22, 0, 0x054 => (Config.macBase.toNat + 4 * q) / 2 ^ 32 % 2 ^ 16
  | 0x22, 0, 0x060 => (Config.quadTs q false).toNat
  | 0x22, 0, 0x064 => (Config.quadTs q true).toNat
  | 0x23, 0, 0x058 => (List.range 10).foldl (fun a m => a + ((10 * i + m) / 8) * 8 ^ m) 0
  | 0x23, 2, 0x040 => etypeFactory i
  | 0x23, 2, 0x080 => if i = 0 then 0xC2000000 else 0
  | 0x23, 2, 0x084 => if i = 0 then 0x80070180 else 0
  | 0x23, 2, 0x088 => if i = 0 then 0xFFFFFFF0 else 0
  | 0x23, 2, 0x08C => if i = 0 then 0xFFFF else 0
  | 0x23, 2, 0x180 => l4Factory i
  | 0x24, 1, 0x0C0 => (List.range 4).foldl (fun a m => a + ((4 * i + m) % 32) * 256 ^ m) 0
  | 0x28, 0, 0x064 => 8 + 8 * p.zone
  | 0x28, 1, 0x040 => if i = 0 || i = 2 then 10 else if i = 1 || i = 5 then 1000 else 10000
  | 0x03, 2, 0x040 => shareMin i
  | 0x01, 1, 0x040 => Config.variant.toNat * 2 ^ 24
  | 0x01, 1, 0x044 => Config.serial.toNat % 2 ^ 32
  | 0x01, 1, 0x048 => Config.serial.toNat / 2 ^ 32
  | 0x01, 1, 0x04C => Config.macBase.toNat % 2 ^ 32
  | 0x01, 1, 0x050 => Config.macBase.toNat / 2 ^ 32
  | _, _, _ => 0

/-- The value of the block register at BAR0 address `a` after a power-up that restores no snapshot (R8). -/
def factory (a : Nat) : W32 :=
  match pageId (a / 0x1000) with
  | none => 0
  | some p =>
    match regAt p (a % 0x1000) with
    | none => 0
    | some (r, i) =>
      BitVec.ofNat 32 ((r.fields.foldl (fun x f => x + f.fact * 2 ^ f.lo) 0) + factorySpecial p r.off i)

def pageDflt : Nat → PageSt := fun _ => {}
def stagedDflt : Nat → Staged := fun _ => {}
def zero64 : Nat → W64 := fun _ => 0
def zero32 : Nat → W32 := fun _ => 0
def zeroN : Nat → Nat := fun _ => 0
def srcDflt : Nat → Src := fun _ => {}
def groupDflt : Nat → CoGroup := fun _ => {}

/-! ## Reading and writing registers and counters as the hardware does -/

/-- The stored value of a register. -/
def rd (d : Dev) (a : Nat) : W32 := tget factory d.regs a
/-- A field of a register. -/
def rf (d : Dev) (a : Nat) (f : Fld) : Nat := getF (rd d a) f
/-- A one-bit field. -/
def rb (d : Dev) (a : Nat) (f : Fld) : Bool := rf d a f != 0
/-- Set a register. -/
def wr (d : Dev) (a : Nat) (v : W32) : Dev := { d with regs := tset factory d.regs a v }
/-- Set a field of a register. -/
def wf (d : Dev) (a : Nat) (f : Fld) (x : Nat) : Dev := wr d a (putF (rd d a) f x)
/-- The value of the counter whose low half lies at `a`. -/
def ctr (d : Dev) (a : Nat) : W64 := tget zero64 d.ctrs a
/-- Add `n` to a counter, wrapping at 2^64. -/
def bump (d : Dev) (a n : Nat) : Dev := { d with ctrs := tset zero64 d.ctrs a (ctr d a + BitVec.ofNat 64 n) }
/-- Set a counter. -/
def setCtr (d : Dev) (a : Nat) (v : W64) : Dev := { d with ctrs := tset zero64 d.ctrs a v }

/-- The header state of page `pg`. -/
def page (d : Dev) (pg : Nat) : PageSt := tget pageDflt d.pages pg
/-- Change the header state of page `pg`. -/
def modPage (d : Dev) (pg : Nat) (f : PageSt → PageSt) : Dev := { d with pages := tmod pageDflt d.pages pg f }

/-- Whole nanoseconds of the timebase (R444). -/
def nowNs (d : Dev) : Nat := d.tb / 2 ^ 32

/-- Send something out of the block. -/
def emit (d : Dev) (o : Out) : Dev := { d with out := d.out ++ [o] }

/-- The next free value: a constant nothing constrains, numbered by the counter `free`. -/
def freeVal (d : Dev) : W64 := Config.free64 d.free
/-- The counter moves on when a free value has been used. -/
def useFree (d : Dev) : Dev := { d with free := d.free + 1 }

/-- Key of a master: host A 0, host B 1, firmware core c 2 + c, kernel thread of core cid 16 + cid (R51). -/
def masterKey : Master → Nat
  | .hostA => 0
  | .hostB => 1
  | .firmware c => 2 + c.val
  | .kernel c => 16 + c.val

/-- Master code of PAGE_ERR_INFO.MASTER. -/
def masterCode : Master → Nat
  | .hostA => 0
  | .hostB => 1
  | .firmware _ => 2
  | .kernel _ => 3

/-- CORE_ID of PAGE_ERR_INFO: the device-wide core identifier of masters 2 and 3. -/
def masterCore : Master → Nat
  | .hostA => 0
  | .hostB => 0
  | .firmware c => 128 + c.val
  | .kernel c => c.val

/-- Give read data to a master. -/
def giveKey (d : Dev) (k : Nat) (v : W64) : Dev := { d with rdata := tset zero64 d.rdata k v }
def give (d : Dev) (m : Master) (v : W32) : Dev := giveKey d (masterKey m) (v.setWidth 64)

/-! ## Event sources -/

/-- State of source `n`. -/
def src (d : Dev) (n : Nat) : Src := tget srcDflt d.ic.srcs n
/-- Change source `n`. -/
def modSrc (d : Dev) (n : Nat) (f : Src → Src) : Dev := { d with ic := { d.ic with srcs := tmod srcDflt d.ic.srcs n f } }
/-- Add 1 to an 8-bit count that saturates. -/
def satInc8 (c : BitVec 8) : BitVec 8 := if c = 255 then 255 else c + 1
/-- Group `g`. -/
def coGroup (d : Dev) (g : Nat) : CoGroup := tget groupDflt d.ic.groups g
def modGroup (d : Dev) (g : Nat) (f : CoGroup → CoGroup) : Dev :=
  { d with ic := { d.ic with groups := tmod groupDflt d.ic.groups g f } }

/-- Sources held in a group. -/
def heldIn (d : Dev) (g : Nat) : List Nat :=
  (d.ic.srcs.filter (fun e => e.2.held && rf d (Rg.SRC_CFG e.1) Fl.SRC_CFG_LOW_GROUP == g)).map (·.1)
/-- A release of group `g`: its held sources become ready, its count and timer end (R433). -/
def releaseGroup (d : Dev) (g : Nat) : Dev :=
  modGroup ((heldIn d g).foldl (fun d n => modSrc d n (fun s => { s with held := false, released := true })) d) g (fun _ => {})
/-- The group's time threshold has passed. -/
def groupTimedOut (d : Dev) (g : Nat) : Bool :=
  let t := rf d (Rg.IC_GROUP g) Fl.IC_GROUP_TIME_US
  match (coGroup d g).start with
  | some t0 => t != 0 && t0 + t * 1000 ≤ nowNs d
  | none => false

/-- R433: a source with CO_EN that would become ready is held in its group; an edge of a held source counts in the group,
and the first one starts the group's timer. An edge at or after the end of a window belongs to the next. -/
def coalesce (d : Dev) (n : Nat) (isEdge : Bool) : Dev :=
  let cfg := Rg.SRC_CFG n
  if rb d cfg Fl.SRC_CFG_LOW_CO_EN && (src d n).pending && !(src d n).active && !(src d n).released then
    let g := rf d cfg Fl.SRC_CFG_LOW_GROUP
    let d := if groupTimedOut d g then releaseGroup d g else d
    let s := src d n
    let join (d : Dev) : Dev :=
      modGroup (modSrc d n (fun x => { x with held := true, released := false })) g
        (fun x => { x with edges := x.edges + b2n isEdge, start := x.start.or (some (nowNs d)) })
    if s.held then (if isEdge then modGroup d g (fun x => { x with edges := x.edges + 1 }) else d)
    else if rb d cfg Fl.SRC_CFG_LOW_MASK then d
    else if s.released && !isEdge then d
    else join d
  else d

/-- R425: an edge sets PENDING and adds 1 to COUNT, which saturates. -/
def applyEdge (d : Dev) (n : Nat) : Dev :=
  coalesce (modSrc d n (fun s => { s with pending := true, count := satInc8 s.count })) n true

/-- R424: the set of cores of a shared CORE source. -/
def noteCore (d : Dev) (n core : Nat) (on : Bool) : Dev :=
  modSrc d n (fun s => { s with cores := if on then setBit s.cores core else clrBit s.cores core })

/-! ## Zones, levels, clocks -/

def linkDflt : Nat → Link := fun _ => {}
/-- The die link of zone `z`. -/
def lnk (d : Dev) (z : Nat) : Link := tget linkDflt d.link z
def modLink (d : Dev) (z : Nat) (f : Link → Link) : Dev := { d with link := tmod linkDflt d.link z f }
/-- Zone `z` is isolated from the hub (R392). -/
def isolated (d : Dev) (z : Nat) : Bool := (lnk d z).isolated

/-- Data lanes of a direction of a die link (R20). -/
def dirLanes (x : LinkDir) : Nat := 512 - 32 * x.lost
def dirOf (l : Link) (toHub : Bool) : LinkDir := if toHub then l.up else l.down
def modDir (d : Dev) (z : Nat) (toHub : Bool) (f : LinkDir → LinkDir) : Dev :=
  modLink d z (fun l => if toHub then { l with up := f l.up } else { l with down := f l.down })
/-- Payload granules that a direction carries in one MC cycle: four flits of 158, fewer on a narrow link (R16, R20). -/
def linkGranules (x : LinkDir) : Nat := 4 * 158 * dirLanes x / 512
/-- `n` granules cross the link. Packets and credits are served first and take what they need (R18). -/
def crossLink (d : Dev) (z : Nat) (toHub : Bool) (n : Nat) : Dev := modDir d z toHub (fun x => { x with used := x.used + n })
/-- The capacity that packets leave has room for `n` granules of other traffic in this MC cycle (R18). -/
def linkLeaves (d : Dev) (z : Nat) (toHub : Bool) (n : Nat) : Bool :=
  (dirOf (lnk d z) toHub).used + n ≤ linkGranules (dirOf (lnk d z) toHub)
/-- Granules of `n` bytes. -/
def granules (n : Nat) : Nat := cdiv n 16

/-- Budget level in force: zones 0 to 3, hub 4 (R453). -/
def level (d : Dev) (die : Nat) : Nat := rf d Rg.PWR_LEVELS (Fl.PWR_LEVELS_ZONE die)
/-- The root loop coasts (R441). -/
def coasting (d : Dev) : Bool := rb d Rg.CLK_STATUS Fl.CLK_STATUS_COAST
/-- The clock tree group `g` (0 CC, 1 FC, 2 MC, 3 HBM) runs (R442). -/
def treeRuns (d : Dev) (g : Nat) : Bool :=
  match rf d Rg.PWR_STATE Fl.PWR_STATE_STATE with
  | 1 => (rf d Rg.CLK_SLEEP_EN Fl.CLK_SLEEP_EN_EN).testBit g
  | 2 => (rf d Rg.CLK_DEEP_EN Fl.CLK_DEEP_EN_EN).testBit g
  | _ => true

def ztbDflt : Nat → Option ZoneTb := fun _ => none
/-- The timebase, in 2^-32 ns, as zone `z` sees it: its own copy while it is isolated (R393, R444). -/
def tbIn (d : Dev) (z : Nat) : Nat :=
  match tget ztbDflt d.ket.ztb z with
  | some c => c.tb
  | none => d.tb
/-- Whole ns in zone `z`. -/
def nsIn (d : Dev) (z : Nat) : Nat := tbIn d z / 2 ^ 32
/-- Elapsed time since a stored time: 0 while the stored time lies ahead (R446). -/
def elapsed (now since : Nat) : Nat := now - since

/-! ## Page events and page errors (R36, R52) -/

/-- The place of an event source: 0 hub, 1 + z zone z (R4). -/
def srcPlace (n : Nat) : Nat := if n < 128 then 0 else 1 + (n - 128) / 96

/-- An edge on source `n`: kept in an isolated zone (R432), latched while the MC clock is stopped (R431), where a source
with WAKE_EN makes a wake due at once, else applied. -/
def edgeOn (d : Dev) (n : Nat) : Dev :=
  let pl := srcPlace n
  if pl != 0 && isolated d (pl - 1) then
    modSrc d n (fun s => { s with isoPending := true, isoCount := satInc8 s.isoCount })
  else if !treeRuns d 2 then
    let d := modSrc d n (fun s => { s with latch := true })
    if rb d (Rg.SRC_CFG n) Fl.SRC_CFG_LOW_WAKE_EN then { d with ket := { d.ket with wakeAt := some (nowNs d) } } else d
  else applyEdge d n

/-- Page event `n` of page `pg` occurs: its INT_STATUS bit sets, and a rise with the mask bit 0 is an edge (R36). -/
def raise (d : Dev) (pg n : Nat) : Dev :=
  match pageId pg with
  | none => d
  | some p =>
    match pageEvents p with
    | none => d
    | some (base, _) =>
      let s := page d pg
      if s.intStatus.toNat.testBit n then d
      else
        let d := modPage d pg (fun s => { s with intStatus := s.intStatus ||| BitVec.ofNat 32 (1 <<< n) })
        let d := if p.ty = 0x26 then noteCore d (base + n) (p.inst % 64) true else d
        if s.intMask.toNat.testBit n then d else edgeOn d (base + n)

/-- Raise on the page that holds address `a`. -/
def raiseAt (d : Dev) (a n : Nat) : Dev := raise d (Rg.pageOf a) n

def unitDflt : Nat → UnitPw := fun _ => {}
/-- Power state of unit `u` (R448; the numbers of units are the model's, log 44). -/
def unitState (d : Dev) (u : Nat) : Nat := (tget unitDflt d.ket.units u).state
/-- The device is in RUN (R450). -/
def devRuns (d : Dev) : Bool := rf d Rg.PWR_STATE Fl.PWR_STATE_STATE == 0
/-- The unit runs: the device is in RUN and the unit ACTIVE (R448, R450). -/
def unitRuns (d : Dev) (u : Nat) : Bool := devRuns d && unitState d u == 0
/-- Unit number of HBM stack `s`. -/
def stackUnit (s : Nat) : Nat := 132 + s

/-- The device returns to RUN (R452): stacks that the device state put into self-refresh serve again. -/
def wakeDev (d : Dev) : Dev :=
  if rf d Rg.PWR_STATE Fl.PWR_STATE_STATE == 0 then d
  else
    let d := (List.range 4).foldl (fun d s =>
      let st := rf d (Rg.HBM_STATUS s) Fl.HBM_STATUS_STATE
      if st == 5 || (st == 4 && unitState d (stackUnit s) < 2) then wf d (Rg.HBM_STATUS s) Fl.HBM_STATUS_STATE 2 else d) d
    raise (wf { d with ket := { d.ket with wakeAt := none } } Rg.PWR_STATE Fl.PWR_STATE_STATE 0) (Rg.pageOf Rg.basePWR) 6
/-- An access to a page whose clock is stopped wakes the device; the page answers in RUN (R442). -/
def wakePage (d : Dev) : Dev := if treeRuns d 2 then d else wakeDev d

/-- Set bit `bitn` of PAGE_ERR and record the access (R36, R52). -/
def pageErr (d : Dev) (pg bitn off : Nat) (write : Bool) (m : Master) : Dev :=
  modPage d pg (fun s => { s with
    err := s.err ||| BitVec.ofNat 8 (1 <<< bitn)
    info := BitVec.ofNat 32 (off + bitn * 2 ^ 12 + b2n write * 2 ^ 15 + masterCode m * 2 ^ 16 + masterCore m * 2 ^ 24) })

/-- A write or command refused as a reserved value: RSVD_VALUE at address `a`. -/
def rsvd (d : Dev) (a : Nat) (m : Master) : Dev := pageErr d (Rg.pageOf a) 3 (a % 0x1000) true m

/-- R49: an access to an unimplemented page is recorded in DEV_ERR and DEV_ERR_ADDR. -/
def unimpl (d : Dev) (a : Nat) (write : Bool) (m : Master) : Dev :=
  let d := wr d Rg.DEV_ERR (rd d Rg.DEV_ERR ||| 1)
  wr d Rg.DEV_ERR_ADDR (BitVec.ofNat 32 (a % 2 ^ 26 + masterCode m * 2 ^ 26 + b2n write * 2 ^ 29))

/-- The zone whose kernel threads a master is one of. -/
def masterZone : Master → Option Nat
  | .kernel c => if c.val < 128 then some (c.val / 32) else none
  | _ => none

/-- Whether page `pg` answers master `m`: pages of an isolated zone answer only that zone's own kernel threads, and an
isolated zone reaches only its own pages (R393). -/
def reaches (d : Dev) (pg : Nat) (m : Master) : Bool :=
  let own := masterZone m
  (match own with
   | some z => !isolated d z || (0x1000 + 0x400 * z ≤ pg && pg < 0x1400 + 0x400 * z)
   | none => true) &&
  (if 0x1000 ≤ pg && pg < 0x2000 then !isolated d ((pg - 0x1000) / 0x400) || own == some ((pg - 0x1000) / 0x400)
   else true)

/-- Whether the owner field lets `m` write (R54). -/
def mayWrite (owner : Nat) : Master → Bool
  | .hostA => owner == 0 || owner == 1
  | .hostB => owner == 0 || owner == 2
  | .firmware _ => owner == 0 || owner == 3
  | .kernel _ => owner == 0

/-- A write of `m` to the command or register at address `a`, checked in the order of R52 (unimplemented, NOT_READY,
OWNER); `f` is its effect. -/
def guardWrite (d : Dev) (a : Nat) (m : Master) (f : Dev → Dev) : Dev :=
  let pg := Rg.pageOf a
  let d := wakePage d
  if (pageId pg).isNone || !reaches d pg m then unimpl d a true m
  else if !(page d pg).ready then pageErr d pg 7 (a % 0x1000) true m
  else if !mayWrite (page d pg).owner.toNat m then pageErr d pg 5 (a % 0x1000) true m
  else f d

/-- A read of a command register by `m`: `f` is its effect when the page answers. -/
def guardRead (d : Dev) (a : Nat) (m : Master) (f : Dev → Dev) : Dev :=
  let pg := Rg.pageOf a
  let d := wakePage d
  if (pageId pg).isNone || !reaches d pg m then give (unimpl d a false m) m 0xFFFFFFFF
  else if !(page d pg).ready then give d m 0
  else f d

/-- Both halves of a 64-bit pair of registers. -/
def rd64 (d : Dev) (lo hi : Nat) : Nat := (rd d lo).toNat + (rd d hi).toNat * 2 ^ 32
/-- Write both halves. -/
def wr64 (d : Dev) (lo hi x : Nat) : Dev := wr (wr d lo (BitVec.ofNat 32 x)) hi (BitVec.ofNat 32 (x / 2 ^ 32))

/-! ## Event log of Caddy (R483) -/

/-- A record of the event log: the newest first, the latest 1,048,576 kept. -/
def addLog (d : Dev) (kind detail : Nat) : Dev :=
  let c := d.caddy
  let r : LogRec := {
    w0 := BitVec.ofNat 32 (kind + c.powerups % 2 ^ 24 * 2 ^ 8), w1 := BitVec.ofNat 32 (nowNs d)
    w2 := BitVec.ofNat 32 (nowNs d / 2 ^ 32), w3 := BitVec.ofNat 32 detail }
  { d with caddy := { c with log := (r :: c.log).take 1048576 } }

/-! ## Memory -/

/-- What an unlisted byte of global memory reads as (log 3). -/
def memDflt : Nat → Byte := fun _ => 0

/-- Byte at global address `a`. -/
def Memory.read (m : Memory) (a : Nat) : Byte := tget memDflt m a
/-- Write a byte, keeping the canonical form. -/
def Memory.write (m : Memory) (a : Nat) (b : Byte) : Memory := tset memDflt m a b
/-- `n` bytes from `a`. -/
def Memory.readN (m : Memory) (a n : Nat) : List Byte := (List.range n).map (fun i => m.read (a + i))
/-- Write bytes from `a` up. -/
def Memory.writeN (m : Memory) (a : Nat) (l : List Byte) : Memory :=
  l.zipIdx.foldl (fun m e => m.write (a + e.2) e.1) m
/-- Big-endian word of `n` bytes (R153). -/
def Memory.be (m : Memory) (a n : Nat) : Nat := beNat (m.readN a n)
/-- The canonical form: addresses strictly rising, no entry equal to what an unlisted address reads as. -/
def Memory.wf (m : Memory) : Bool := canon memDflt m

end Sys2Proof.Machine
end

