-- ==== Sys2Proof/Machine/HostOps.lean ====
section
/-!
DEFINITION. Host rings: entries and completions with their phase, moderation, MSI-X vectors and power management (R405,
R406, R412 to R414, R420).
-/

namespace Sys2Proof.Machine
open Sys2Proof

def kindNo : RingKind → Nat
  | .punt => 0
  | .inject => 1
  | .tdma => 2
  | .event => 3

def modHif (d : Dev) (f : Hif → Hif) : Dev := { d with hif := f d.hif }
def ringDflt : Nat → Ring := fun _ => {}
/-- Key of ring `r` of a kind of host `h`. -/
def ringKey (h kind r : Nat) : Nat := 512 * h + 64 * kind + (if kind == 3 then 8 else 0) + r
def ring (d : Dev) (h kind r : Nat) : Ring := tget ringDflt d.hif.rings (ringKey h kind r)
def modRing (d : Dev) (h kind r : Nat) (f : Ring → Ring) : Dev :=
  modHif d (fun x => { x with rings := tmod ringDflt x.rings (ringKey h kind r) f })
/-- The registers of a ring's block. -/
def ringCtl (h kind r : Nat) : Nat := Rg.ringBlock h kind r + 0x10
def ringThr (h kind r : Nat) : Nat := Rg.ringBlock h kind r + 0x14
def ringIdx (h kind r : Nat) : Nat := Rg.ringBlock h kind r + 0x18
def ringMod (h kind r : Nat) : Nat := Rg.ringBlock h kind r + 0x1C
def ringEnabled (d : Dev) (h kind r : Nat) : Bool := rb d (ringCtl h kind r) Fl.PRING_CTL_ENABLE
def ringSize (d : Dev) (h kind r : Nat) : Nat := 2 ^ rf d (ringCtl h kind r) Fl.PRING_CTL_LOG2_SIZE
def ringConsumed (d : Dev) (h kind r : Nat) : Nat := rf d (ringIdx h kind r) Fl.PRING_IDX_CONSUMED
def ringDoorbell (d : Dev) (h kind r : Nat) : Nat := rf d (ringIdx h kind r) Fl.PRING_IDX_DOORBELL
def hifPage (h : Nat) : Nat := Rg.pageOf (Rg.baseHIF h)
/-- The ring's page is held (R419). -/
def ringHeld (d : Dev) (h kind r : Nat) : Bool :=
  let p := page d (Rg.pageOf (Rg.ringBlock h kind r))
  p.held || p.hold || p.group
def inD3 (d : Dev) (h : Nat) : Bool := rb d (Rg.HIF_STATUS h) Fl.HIF_STATUS_D3HOT
/-- A ring takes its next descriptor. -/
def ringTakes (d : Dev) (h kind r : Nat) : Bool :=
  ringEnabled d h kind r && !ringHeld d h kind r && !inD3 d h && (page d (hifPage h)).ready &&
    ringConsumed d h kind r != ringDoorbell d h kind r
/-- One descriptor is taken; answers its index. -/
def takeDesc (d : Dev) (h kind r : Nat) : Nat × Dev :=
  let c := ringConsumed d h kind r
  (c, wf d (ringIdx h kind r) Fl.PRING_IDX_CONSUMED (c + 1))

/-- The link leaves L1 or L1.2 before the function sends (R414). -/
def toL0 (d : Dev) (h : Nat) : Dev :=
  if rf d (Rg.HIF_STATUS h) Fl.HIF_STATUS_LINK_PM == 0 then d
  else raise (wf d (Rg.HIF_STATUS h) Fl.HIF_STATUS_LINK_PM 0) (hifPage h) 0

/-- Send vector `v`, or set its pending bit when it is masked. -/
def sendVector (d : Dev) (h v : Nat) : Dev :=
  if (tget zeroN d.hif.open_ h).testBit v then bump (emit (toL0 d h) (.msix h v)) (Rg.MSIX_SENT h) 1
  else modHif d (fun x => { x with pend := tmod zeroN x.pend h (fun b => setBit b v) })

/-- A request for vector `v` (R413, R414): held with PM_PME in D3hot. -/
def requestVector (d : Dev) (h v : Nat) : Dev :=
  if inD3 d h then
    let d := modHif d (fun x => { x with held := tmod zeroN x.held h (fun b => setBit b v) })
    let d := wf d (Rg.HIF_STATUS h) Fl.HIF_STATUS_HELD_IRQ 1
    let d := modHif d (fun x => { x with pmeStatus := tset (fun _ => false) x.pmeStatus h true })
    if tget (fun _ => false) d.hif.pmeEn h then bump (emit d (.pme h)) (Rg.PME_SENT h) 1 else d
  else sendVector d h v

/-- The ring triggers: its vector is requested, its count restarts and its timer stops. -/
def trigger (d : Dev) (h kind r : Nat) : Dev :=
  let d := if rb d (ringCtl h kind r) Fl.PRING_CTL_VEC_EN then requestVector d h (rf d (ringCtl h kind r) Fl.PRING_CTL_VECTOR) else d
  modRing (wf d (ringMod h kind r) Fl.PRING_MOD_UNANNOUNCED 0) h kind r (fun x => { x with timer := none })

/-- A completion or event entry was made: it is unannounced until an interrupt covers it. -/
def unannounced (d : Dev) (h kind r : Nat) : Dev :=
  let n := rf d (ringMod h kind r) Fl.PRING_MOD_UNANNOUNCED + 1
  let d := wf d (ringMod h kind r) Fl.PRING_MOD_UNANNOUNCED n
  let d := modRing d h kind r (fun x => { x with timer := x.timer.or (some d.tb) })
  let c := rf d (ringThr h kind r) Fl.PRING_THR_COUNT
  if c != 0 && c ≤ n then trigger d h kind r else d

/-- Write one entry of a completion or event ring: `words` without the phase, which its last word takes in bit 31. -/
def makeEntry (d : Dev) (h kind r : Nat) (words : List W32) : Dev :=
  let x := ring d h kind r
  let size := ringSize d h kind r
  let base := if kind == 3 then rd64 d (Rg.ringBlock h kind r) (Rg.ringBlock h kind r + 4) else rd64 d (Rg.ringBlock h kind r + 8) (Rg.ringBlock h kind r + 12)
  let addr := base + 4 * words.length * (x.done % size)
  let ph := if x.done / size % 2 == 0 then 2 ^ 31 else 0
  let words := lmod words (words.length - 1) (fun w => BitVec.ofNat 32 (w.toNat % 2 ^ 31 + ph))
  let d := modRing d h kind r (fun x => { x with done := x.done + 1 })
  let d := if inD3 d h then modRing d h kind r (fun x => { x with held := x.held ++ [(addr, words)] })
    else emit (toL0 d h) (.hostWrite h addr words)
  unannounced d h kind r

/-- An event entry for ring `e` (R406, R412): dropped and counted when the ring is full or held; a ring out of service takes
none. Answers whether it was written. -/
def postEvent (d : Dev) (h e ty : Nat) (words : List Nat) : Dev × Bool :=
  if !ringEnabled d h 3 e then (d, false)
  else
    let n := ringConsumed d h 3 e
    if (n + 65536 - ringDoorbell d h 3 e) % 65536 == ringSize d h 3 e || ringHeld d h 3 e then
      (raise (bump d (Rg.EVT_DROP h e) 1) (hifPage h) 3, false)
    else
      let ws := (List.range 8).map (fun i => BitVec.ofNat 32 (words.getD i 0 + (if i == 7 then ty * 2 ^ 24 else 0)))
      (makeEntry (wf d (ringIdx h 3 e) Fl.PRING_IDX_CONSUMED (n + 1)) h 3 e ws, true)

/-- HIF_ERR bit `b` is set: event HOST_ERR. -/
def hifErr (d : Dev) (h b : Nat) : Dev := raise (wr d (Rg.HIF_ERR h) (rd d (Rg.HIF_ERR h) ||| BitVec.ofNat 32 (2 ^ b))) (hifPage h) 2

/-- A completion of 16 bytes: index and status, and two further words. -/
def complete4 (d : Dev) (h kind r idx status w1 : Nat) : Dev :=
  let d := if status == 5 then hifErr d h 3 else d
  makeEntry d h kind r [BitVec.ofNat 32 (idx % 65536 + status * 65536), BitVec.ofNat 32 w1, 0, 0]

/-- Words as bytes of host memory, and back: words are little-endian. -/
def wordsBytes (l : List W32) : List Byte := l.flatMap (fun w => leBytes 4 w.toNat)
def bytesWords : List Byte → List W32
  | a :: b :: c :: e :: r => BitVec.ofNat 32 (leNat [a, b, c, e]) :: bytesWords r
  | [] => []
  | l => [BitVec.ofNat 32 (leNat l)]

end Sys2Proof.Machine
end

