-- ==== Sys2Proof/Machine/Perf.lean ====
section
/-!
DEFINITION. The performance block of a core and its programmable counters (R503 to R506), and the maxima of the telemetry
probes (R508).
-/

namespace Sys2Proof.Machine
open Sys2Proof

def modTel (d : Dev) (f : Tel → Tel) : Dev := { d with tel := f d.tel }

/-- The performance block of a zone core lies in the counter window of its zone (R502). -/
def perfBase (cid : Nat) : Nat := 0x1000000 + 0x400000 * (cid / 32) + 0x300000 + 0x1000 * (cid % 32)
/-- Add 1 to a counter of the block; hub cores have none. -/
def perf (d : Dev) (cid off : Nat) : Dev := if cid < 128 then bump d (perfBase cid + off) 1 else d
/-- Address of PMC `i` of a zone core. -/
def pmcAddr (cid i : Nat) : Nat := perfBase cid + 0x80 + 4 * i
/-- The core's bit among the frozen ones. -/
def pmcBit (cid : Nat) : Nat := 26 * (cid / 32) + cid % 32

/-- Some HIT bit of the zone is set. -/
def anyHit (d : Dev) (z : Nat) : Bool :=
  (List.range 26).any (fun k => rf d (Rg.TEL_PMC_CTRL z k) Fl.TEL_PMC_CTRL_HIT != 0)

/-- Add `n` to PMC `i`: the threshold, and the carry into a chained counter (R505, R506). -/
def pmcBump (d : Dev) (cid i n : Nat) : Dev :=
  let z := cid / 32
  let k := cid % 32
  let v := (rd d (pmcAddr cid i)).toNat
  let th := (rd d (Rg.TEL_PMC_THRESH z (4 * k + i))).toNat
  let d := wr d (pmcAddr cid i) (BitVec.ofNat 32 (v + n))
  if th != 0 && v < th && th ≤ v + n then
    let first := !anyHit d z
    let h := Rg.TEL_PMC_CTRL z k
    let d := wf d h Fl.TEL_PMC_CTRL_HIT (setBit (rf d h Fl.TEL_PMC_CTRL_HIT) i)
    let d := wf d (Rg.TEL_PMC_HITMAP z) Fl.TEL_PMC_HITMAP_CORES (setBit (rf d (Rg.TEL_PMC_HITMAP z) Fl.TEL_PMC_HITMAP_CORES) k)
    let d := if first then raise d (Rg.pageOf Rg.baseTEL) 0 else d
    if rb d (Rg.TEL_PMC_SEL z (4 * k + i)) Fl.TEL_PMC_SEL_FREEZE then
      modTel d (fun t => { t with freezing := setBit t.freezing (pmcBit cid) })
    else d
  else d

/-- An amount for the PMCs of a core that select event `evt`, from a thread of the kind given. -/
def pmc (d : Dev) (cid evt n : Nat) (kernel : Bool) (helper : Nat) : Dev :=
  if 128 ≤ cid || n == 0 || d.tel.frozen.testBit (pmcBit cid) then d
  else
    let z := cid / 32
    let k := cid % 32
    (List.range 4).foldl (fun d i =>
      let s := Rg.TEL_PMC_SEL z (4 * k + i)
      let scope := rf d s Fl.TEL_PMC_SEL_SCOPE
      if rf d s Fl.TEL_PMC_SEL_EVT == evt && !(i % 2 == 1 && rb d s Fl.TEL_PMC_SEL_CHAIN) &&
          (scope == 0 || (scope == 1 && !kernel) || (scope == 2 && kernel)) &&
          (evt != 4 || rf d s Fl.TEL_PMC_SEL_HELPER == helper) then
        let v := (rd d (pmcAddr cid i)).toNat
        let d := pmcBump d cid i n
        if i % 2 == 0 && 2 ^ 32 ≤ v + n && rb d (Rg.TEL_PMC_SEL z (4 * k + i + 1)) Fl.TEL_PMC_SEL_CHAIN then
          pmcBump d cid (i + 1) 1
        else d
      else d) d

/-- Freezes of this step come into force. -/
def settleFreeze (d : Dev) : Dev :=
  if d.tel.freezing == 0 then d else modTel d (fun t => { t with frozen := t.frozen ||| t.freezing, freezing := 0 })

/-- A source of kind `kind` and index `idx` has the value `v` now: maxima of the probes in mode 1 (R508). -/
def probeMax (d : Dev) (kind idx : Nat) (v : Int) : Dev :=
  if d.regs.any (fun e => Rg.TEL_PROBE 0 ≤ e.1 && e.1 ≤ Rg.TEL_PROBE_INDEX 63) then
    (List.range 64).foldl (fun d j =>
      if rf d (Rg.TEL_PROBE j) Fl.TEL_PROBE_KIND == kind && rf d (Rg.TEL_PROBE j) Fl.TEL_PROBE_MODE == 1 &&
          (rd d (Rg.TEL_PROBE_INDEX j)).toNat == idx then
        modTel d (fun t => { t with top := tmod (fun _ => 0) t.top j (fun x => max x v) })
      else d) d
  else d

end Sys2Proof.Machine
end

