-- ==== Sys2Proof/Machine/LineOps.lean ====
section
/-!
DEFINITION. Ports and lanes as the other blocks see them: port geometry (R57), UP and usable ports (R70, R72, R492),
pause timers (R74), lossless domains (R107) and the causes of XOFF (R108).
-/

namespace Sys2Proof.Machine
open Sys2Proof

def portDflt : Nat → PortSt := fun _ => {}
def laneDflt : Nat → LaneSt := fun _ => {}
def engineDflt : Nat → EngineSt := fun _ => {}
def laserDflt : Nat → LaserIn := fun _ => {}

/-- State of port `p`, of line lane `l`, of engine `e`, of laser input `i` of engine `e`. -/
def port (d : Dev) (p : Nat) : PortSt := tget portDflt d.line.ports p
def modPort (d : Dev) (p : Nat) (f : PortSt → PortSt) : Dev :=
  { d with line := { d.line with ports := tmod portDflt d.line.ports p f } }
def lane (d : Dev) (l : Nat) : LaneSt := tget laneDflt d.line.lanes l
def modLane (d : Dev) (l : Nat) (f : LaneSt → LaneSt) : Dev :=
  { d with line := { d.line with lanes := tmod laneDflt d.line.lanes l f } }
def engine (d : Dev) (e : Nat) : EngineSt := tget engineDflt d.line.engines e
def modEngine (d : Dev) (e : Nat) (f : EngineSt → EngineSt) : Dev :=
  { d with line := { d.line with engines := tmod engineDflt d.line.engines e f } }
def laser (d : Dev) (e i : Nat) : LaserIn := tget laserDflt d.line.lasers (2 * e + i)
def modLaser (d : Dev) (e i : Nat) (f : LaserIn → LaserIn) : Dev :=
  { d with line := { d.line with lasers := tmod laserDflt d.line.lasers (2 * e + i) f } }

/-- Port mode of quad `q`. -/
def quadMode (d : Dev) (q : Nat) : Nat := rf d (Rg.QUAD_MODE q) Fl.QUAD_MODE_MODE
/-- Lanes of one port of a mode (R57). -/
def modeLanes (m : Nat) : Nat := match m with | 0 => 4 | 1 => 2 | 4 => 4 | _ => 1
/-- Port number `p` begins a port in the current mode. -/
def portBegins (d : Dev) (p : Nat) : Bool := p % modeLanes (quadMode d (p / 4)) == 0
/-- The lanes of port `p`. -/
def portLanes (d : Dev) (p : Nat) : List Nat := (List.range (modeLanes (quadMode d (p / 4)))).map (fun k => p + k)
/-- The port that lane `l` belongs to. -/
def lanePort (d : Dev) (l : Nat) : Nat := l - l % modeLanes (quadMode d (l / 4))
/-- QUAD_MODE.PORT_EN of the port. -/
def portEnabled (d : Dev) (p : Nat) : Bool := (rf d (Rg.QUAD_MODE (p / 4)) Fl.QUAD_MODE_PORT_EN).testBit (p % 4)
/-- Port rate, in units of 100 Gbit/s. -/
def portRate (d : Dev) (p : Nat) : Nat := match quadMode d (p / 4) with | 0 => 8 | 1 => 4 | 2 => 2 | 3 => 1 | _ => 4
/-- Page number of a quad's page. -/
def quadPage (q : Nat) : Nat := Rg.pageOf (Rg.baseQUAD q)
/-- The quad's page is held (R72). -/
def quadHeld (d : Dev) (q : Nat) : Bool := (page d (quadPage q)).held
/-- The port is UP (R70), and the module has not stopped (R375). -/
def portUp (d : Dev) (p : Nat) : Bool := (port d p).up && !d.life.stopped
/-- The reorder stage and Carafe may enqueue to the port: it begins a port, is UP, enabled and not blocked (R299, R492). -/
def portUsable (d : Dev) (p : Nat) : Bool :=
  portBegins d p && portUp d p && portEnabled d p && !(port d p).blocked
/-- The zone of a port. -/
def portZone (p : Nat) : Nat := p / 64
/-- A port's own MAC address (QUAD_MAC plus slot). -/
def ownMac (d : Dev) (p : Nat) : Nat :=
  (rf d (Rg.QUAD_MAC_LO (p / 4)) Fl.QUAD_MAC_LO_ADDR + rf d (Rg.QUAD_MAC_HI (p / 4)) Fl.QUAD_MAC_HI_ADDR * 2 ^ 32 + p % 4) % 2 ^ 48

/-- The lane emits light: permitted, engine in service and fed, calibrated, not dark by its monitor, by TX_DISABLE, by a disabled port or
while coasting (R64 to R66, R83, R441). -/
def laneLit (d : Dev) (l : Nat) : Bool :=
  d.line.permit && rb d (Rg.OE_CTRL (l / 16)) Fl.OE_CTRL_ENABLE && (engine d (l / 16)).calibrated && !(engine d (l / 16)).noLight &&
    !(lane d l).dark && !rb d (Rg.OE_LANE_CTRL (l / 16) (l % 16)) Fl.OE_LANE_CTRL_TX_DISABLE && portEnabled d (lanePort d l) && !coasting d
/-- Every lane of the port emits light. -/
def portLit (d : Dev) (p : Nat) : Bool := (portLanes d p).all (laneLit d)
/-- The port begins or ends to signal remote fault to its partner (R70). -/
def signalFault (d : Dev) (p : Nat) (on : Bool) : Dev :=
  if (port d p).rfSent == on then d else emit (modPort d p (fun s => { s with rfSent := on })) (.remoteFault p on)

/-- The port whose counter lies at `a`: those of QUAD pages and of TM page 5. -/
def ctrPort (a : Nat) : Option Nat :=
  let off := a % 0x1000
  match pageId (a / 0x1000) with
  | some p =>
    if p.ty == 0x22 && 0x100 ≤ off && off < 0x900 then some (4 * (16 * p.zone + p.inst % 64) + (off - 0x100) / 0x200)
    else if p.ty == 0x2A && p.idx == 5 && 0x40 ≤ off && off < 0x440 then some (64 * p.zone + (off - 0x40) % 0x200 / 8)
    else none
  | none => none
/-- What a counter reads: those of a port number that begins no port read 0 (R57). -/
def ctrShown (d : Dev) (a : Nat) : W64 :=
  match ctrPort a with
  | some p => if portBegins d p then ctr d a else 0
  | none => ctr d a

/-- The engine draws light from input `i`: by its share, alone, or by LI_FORCE (R61, R62, R81). -/
def drawsFrom (d : Dev) (e i : Nat) : Bool :=
  let force := rf d (Rg.OE_CTRL e) Fl.OE_CTRL_LI_FORCE
  if force == 0 then (engine d e).draw == 0 || (engine d e).draw == i + 1 else force == i + 1 && (engine d e).draw != 2 - i
/-- R62: all draw moves from input `i` to the other, which counts where the engine drew from it. -/
def moveDraw (d : Dev) (e i : Nat) : Dev :=
  let d := if drawsFrom d e i then bump d (Rg.OE_LI_SWITCH_CNT e) 1 else d
  modEngine d e (fun x => { x with draw := 2 - i })

/-- Flow-control mode of a port: 0 none, 1 PAUSE, 2 PFC. -/
def fcMode (d : Dev) (p : Nat) : Nat := rf d (Rg.QUAD_FC (p / 4)) (Fl.QUAD_FC_FC_MODE (p % 4))
/-- Classes of the port with PFC. -/
def pfcClasses (d : Dev) (p : Nat) : Nat := rf d (Rg.QUAD_PFC_CLASS (p / 4)) (Fl.QUAD_PFC_CLASS_CLASS_EN (p % 4))
/-- R107: the order domain of port `p`, class `c` is lossless. -/
def lossless (d : Dev) (p c : Nat) : Bool :=
  match fcMode d p with | 1 => true | 2 => (pfcClasses d p).testBit c | _ => false

/-- Pause quantum of port `p`, in 2^-32 ns times 25: 0.64 ns at 800G (R74). -/
def quanta25 (d : Dev) (p : Nat) (q : Nat) : Nat := q * 16 * (8 / portRate d p) * 2 ^ 32
/-- Expiry, in 2^-32 ns, of the pause of port `p`, class `c`; 0 none. -/
def pauseEnd (d : Dev) (p c : Nat) : Nat := tget zeroN d.line.pause (8 * p + c)
def setPause (d : Dev) (p c t : Nat) : Dev :=
  { d with line := { d.line with pause := tset zeroN d.line.pause (8 * p + c) t } }
/-- A frame of the class may start in the first MC cycle whose timebase is at or after the expiry (R74). -/
def paused (d : Dev) (p c : Nat) : Bool := tbIn d (portZone p) < pauseEnd d p c

/-! ## Admission: occupancies and XOFF causes (R106, R108) -/

def domDflt : Nat → Domain := fun _ => {}
def pipeDflt : Nat → Pipe := fun _ => {}
def dom (d : Dev) (n : Nat) : Domain := tget domDflt d.adm.doms n
def modDom (d : Dev) (n : Nat) (f : Domain → Domain) : Dev :=
  { d with adm := { d.adm with doms := tmod domDflt d.adm.doms n f } }
/-- Pipeline `k` of zone `z`. -/
def pipe (d : Dev) (z k : Nat) : Pipe := tget pipeDflt d.adm.pipes (4 * z + k)
def modPipe (d : Dev) (z k : Nat) (f : Pipe → Pipe) : Dev :=
  { d with adm := { d.adm with pipes := tmod pipeDflt d.adm.pipes (4 * z + k) f } }

/-- A cause with hysteresis: set at or above `on`, cleared below `off`. -/
def hyst (was : Bool) (x on off : Nat) : Bool := if on ≤ x then true else if x < off then false else was

/-- Judge the occupancy and outstanding-number causes of domain `n` again. -/
def watchDom (d : Dev) (n : Nat) : Dev :=
  let z := n / 512
  let c := n % 8
  let xoff := rf d (Rg.ADM_CLS_XOFF z c) Fl.ADM_CLS_XOFF_XOFF
  let xon := rf d (Rg.ADM_CLS_XON z c) Fl.ADM_CLS_XON_XON
  modDom d n (fun x => { x with xOcc := hyst x.xOcc x.occ xoff xon, xOut := hyst x.xOut x.out 24576 20480 })

/-- Judge the store cause of pipeline `k` again. -/
def watchStore (d : Dev) (z k : Nat) : Dev :=
  let on := rf d (Rg.ADM_STORE_PFC z) Fl.ADM_STORE_PFC_XOFF
  let off := rf d (Rg.ADM_STORE_PFC z) Fl.ADM_STORE_PFC_XON
  modPipe d z k (fun x => { x with storeXoff := hyst x.storeXoff x.blocks on off })

def urnDflt : Nat → UrnZone := fun _ => {}
/-- Urn of zone `z`. -/
def urnz (d : Dev) (z : Nat) : UrnZone := tget urnDflt d.urn.zones z
def modUrnz (d : Dev) (z : Nat) (f : UrnZone → UrnZone) : Dev :=
  { d with urn := { d.urn with zones := tmod urnDflt d.urn.zones z f } }

/-- R108: a cause asks XOFF for domain `n`, which must be lossless. -/
def xoffCause (d : Dev) (n : Nat) : Bool :=
  let z := n / 512
  let p := n / 8
  let c := n % 8
  lossless d p c &&
    ((dom d n).xOcc || (urnz d z).pressure || (pipe d z (p / 16 % 4)).storeXoff ||
      (3 ≤ level d z && (rf d (Rg.ADM_SHED z) Fl.ADM_SHED_KETTLE_MASK).testBit c) || (dom d n).xOut)

/-- The classes of port `p` with a cause. -/
def xoffClasses (d : Dev) (p : Nat) : Nat := ofBits ((List.range 8).filter (fun c => xoffCause d (8 * p + c)))

end Sys2Proof.Machine
end

