-- ==== Sys2Proof/Machine/UrnOps.lean ====
section
/-!
DEFINITION. Buffers, handles, owners, references, pool occupancy and spill chains of Urn (R268 to R294), the VOQs and
their checks (R286, R291, R302), and what a port loses when it goes down (R304, R70).
-/

namespace Sys2Proof.Machine
open Sys2Proof

/-! ## Handles and records (R269, R270) -/

/-- The handle of the buffer that starts in cell `head` of zone `z`. -/
def mkHandle (z head : Nat) (incarn : BitVec 8) : W32 := BitVec.ofNat 32 (head + z * 2 ^ 17 + incarn.toNat * 2 ^ 19)
def hSpill (h : W32) : Bool := h.toNat.testBit 31
def hHead (h : W32) : Nat := h.toNat % 2 ^ 17
def hZone (h : W32) : Nat := h.toNat / 2 ^ 17 % 4
def hIncarn (h : W32) : Nat := h.toNat / 2 ^ 19 % 256
/-- Key of the record that a handle names. -/
def hKey (h : W32) : Nat := 131072 * hZone h + hHead h
/-- The SPILL = 1 form. -/
def spillHandle (z pageNum slot : Nat) : W32 := BitVec.ofNat 32 (pageNum % 2 ^ 21 + slot * 2 ^ 21 + z * 2 ^ 25 + 2 ^ 31)

def bufDflt : Nat → Buf := fun _ => {}
/-- Record `key` (131072 z + head cell). -/
def bufAt (d : Dev) (key : Nat) : Buf := tget bufDflt d.urn.bufs key
def modBuf (d : Dev) (key : Nat) (f : Buf → Buf) : Dev :=
  { d with urn := { d.urn with bufs := tmod bufDflt d.urn.bufs key f } }
/-- The buffer in use that a handle names: a cells handle whose incarnation matches (R270). -/
def bufOf (d : Dev) (h : W32) : Option Buf :=
  let b := bufAt d (hKey h)
  if !hSpill h && b.kind != 0 && b.incarn.toNat == hIncarn h then some b else none

/-- The frame of the buffer that a handle names; bytes that nothing has written are free. -/
def frameOf (d : Dev) (h : W32) : List Byte :=
  match bufOf d h with
  | some b => b.bytes ++ (List.range (b.len - b.bytes.length)).map (Config.freeByte d.free)
  | none => []
/-- Its LENGTH. -/
def frameLen (d : Dev) (h : W32) : Nat := match bufOf d h with | some b => b.len | none => 0

/-- Cells of a frame of `len` bytes. -/
def cellsOf (len : Nat) : Nat := cdiv len 256

/-- Page numbers of Urn. -/
def urnPage (z : Nat) : Nat := Rg.pageOf (Rg.baseURN z)
def urnPage1 (z : Nat) : Nat := urnPage z + 1

/-! ## Pool occupancy (R274, R279) -/

/-- Judge the pool thresholds again. -/
def watchPool (d : Dev) (z : Nat) : Dev :=
  let u := urnz d z
  let warn := rf d (Rg.URN_POOL_WARN z) Fl.URN_POOL_WARN_CELLS
  let press := rf d (Rg.URN_POOL_PRESSURE z) Fl.URN_POOL_PRESSURE_CELLS
  let resv := rf d (Rg.URN_POOL_RESERVE z) Fl.URN_POOL_RESERVE_CELLS
  let h := rf d (Rg.URN_POOL_HYST z) Fl.URN_POOL_HYST_HYST
  let w := hyst u.warn u.occ warn (warn - h)
  let p := hyst u.pressure u.occ press (press - h)
  let r := decide (resv ≤ u.occ)
  let d := modUrnz d z (fun x => { x with warn := w, pressure := p, reserve := r })
  let d := if w && !u.warn then raise d (urnPage z) 0 else d
  let d := if p && !u.pressure then raise d (urnPage z) 1 else d
  if r && !u.reserve then raise d (urnPage z) 2 else d

/-- Charge `n` cells to the pool. -/
def chargePool (d : Dev) (z n : Nat) : Dev :=
  let d := modUrnz d z (fun u => { u with occ := u.occ + n })
  watchPool (probeMax d 1 z (urnz d z).occ) z
/-- Credit `n` cells back. -/
def creditPool (d : Dev) (z n : Nat) : Dev := watchPool (modUrnz d z (fun u => { u with occ := u.occ - n })) z

/-- Cells of zone `z` that are withdrawn and in no chain. -/
def badFree (d : Dev) (z : Nat) : Nat :=
  (d.urn.bad.filter (fun k => k / 131072 == z && !(d.urn.bufs.any (fun e => e.1 / 131072 == z && e.2.kind != 0 &&
    e.2.cells.contains (k % 131072))))).length
/-- Cells neither allocated, charged nor withdrawn. -/
def freeCells (d : Dev) (z : Nat) : Nat := 131072 - (urnz d z).occ - badFree d z

/-- The named cells exist, differ, and are free. -/
def cellsAvail (d : Dev) (z : Nat) (cells : List Nat) : Bool :=
  decide cells.Nodup && cells.all (fun c => c < 131072 && !d.urn.bad.contains (131072 * z + c) &&
    !(d.urn.bufs.any (fun e => e.1 / 131072 == z && e.2.kind != 0 && e.2.cells.contains c)))

/-- Control cells of a zone (R110, check 3). -/
def ctrlCells (d : Dev) (z : Nat) : Nat := tget zeroN d.adm.ctrlCells z
def setCtrlCells (d : Dev) (z n : Nat) : Dev := { d with adm := { d.adm with ctrlCells := tset zeroN d.adm.ctrlCells z n } }

/-! ## Allocation, transfer, free (R270 to R278) -/

/-- A chain of cells becomes a buffer in use. Its cells are counted in CELLS_ALLOC; the pool is charged by the caller. -/
def newBuf (d : Dev) (z : Nat) (cells : List Nat) (b : Buf) : Dev :=
  match cells with
  | [] => d
  | head :: _ =>
    let key := 131072 * z + head
    let inc := (bufAt d key).incarn + 1
    let d := modBuf d key (fun _ => { b with
      cells := cells, incarn := inc, count := 0, stale := false, stamp := nsIn d z / 1000 % 2 ^ 32 })
    bump d (Rg.CELLS_ALLOC z) cells.length

/-- The handle of the buffer that starts in the first of `cells`. -/
def headHandle (d : Dev) (z : Nat) (cells : List Nat) : W32 :=
  let head := cells.headD 0
  mkHandle z head (bufAt d (131072 * z + head)).incarn

/-- The record becomes free: its cells go back to the pool, and the occupancy of its domain and of the control cells is
credited (R106). -/
def freeRec (d : Dev) (key : Nat) : Dev :=
  let z := key / 131072
  let b := bufAt d key
  let n := b.cells.length
  let d := modBuf d key (fun _ => { incarn := b.incarn })
  let d := match b.charged with
    | some m => watchDom (modDom d m (fun x => { x with occ := x.occ - n })) m
    | none => d
  let d := if b.marked then setCtrlCells d z (ctrlCells d z - n) else d
  creditPool d z n

/-- A refused transfer or free (R272). -/
def freeRefused (d : Dev) (z kind : Nat) : Dev :=
  raise (bump d (Rg.FREE_REFUSED z (kind - 1)) 1) (urnPage z) 6

/-- One decrement of a shared buffer (R276), by the hub's atomic unit or by the Urn of a zone that is cut off (R278); a buffer that is not shared or a stale handle counts in REFCNT_ERR. -/
def decRef (d : Dev) (h : W32) : Dev :=
  match bufOf d h with
  | some b =>
    if b.kind == 5 then
      let d := if isolated d (hZone h) then d else bump d (Rg.ATOM_OPS 0) 1
      if b.count ≤ 1 then freeRec d (hKey h) else modBuf d (hKey h) (fun x => { x with count := x.count - 1 })
    else raise (bump d (Rg.REFCNT_ERR (hZone h)) 1) (urnPage (hZone h)) 7
  | none => if hSpill h then d else raise (bump d (Rg.REFCNT_ERR (hZone h)) 1) (urnPage (hZone h)) 7

/-- The holder (kind, index) gives the buffer up: freed when it is the owner, its reference released when the buffer is
shared, refused otherwise. -/
def freeBy (d : Dev) (h : W32) (kind idx : Nat) : Dev :=
  match bufOf d h with
  | some b =>
    if b.kind == 5 then decRef d h
    else if b.kind == kind && b.index == idx then freeRec d (hKey h)
    else freeRefused d (hZone h) kind
  | none => if hSpill h then d else freeRefused d (hZone h) kind

/-- The holder hands the buffer on: the new owner is written when the holder is the owner; a shared buffer only changes
its holder; refused otherwise. -/
def handOver (d : Dev) (h : W32) (kind idx kind' idx' : Nat) : Dev :=
  match bufOf d h with
  | some b =>
    if b.kind == 5 then d
    else if b.kind == kind && b.index == idx then modBuf d (hKey h) (fun x => { x with kind := kind', index := idx', moved := d.mc + 1 })
    else freeRefused d (hZone h) kind
  | none => freeRefused d (hZone h) kind

/-- Add `m` references for the holder (R276); none: refused. -/
def addRefs (d : Dev) (h : W32) (m kind idx : Nat) : Option Dev :=
  match bufOf d h with
  | some b =>
    if b.kind == 5 then
      if 65535 < b.count + m then none
      else some (bump (modBuf d (hKey h) (fun x => { x with count := x.count + m })) (Rg.ATOM_OPS 0) 1)
    else if b.kind == kind && b.index == idx && 1 + m ≤ 65535 then
      some (bump (modBuf d (hKey h) (fun x => { x with kind := 5, index := 0, count := 1 + m, moved := d.mc + 1 })) (Rg.ATOM_OPS 0) 1)
    else none
  | none => none

/-! ## VOQs and spill chains -/

def voqDflt : Nat → Voq := fun _ => {}
/-- VOQ `v` (8 × port + class) of zone `z`. -/
def voq (d : Dev) (z v : Nat) : Voq := tget voqDflt d.urn.voqs (2048 * z + v)
def modVoq (d : Dev) (z v : Nat) (f : Voq → Voq) : Dev :=
  { d with urn := { d.urn with voqs := tmod voqDflt d.urn.voqs (2048 * z + v) f } }

/-- Cells that a descriptor's frame still holds. -/
def descCells (d : Dev) (x : Desc) : Nat := match bufOf d x.handle with | some b => b.cells.length | none => 0
/-- Frames of a chain, in order. -/
def chainDescs (l : List Page) : List Desc := l.flatMap (fun p => p.descs.map (·.1))
/-- Cells of the VOQ still held in cells: d of R302. -/
def voqDepth (d : Dev) (z v : Nat) : Nat :=
  let q := voq d z v
  ((q.q ++ chainDescs q.chain).map (descCells d)).foldl (· + ·) 0

/-- Pages of the spill region (R285); none without HBM (R339). -/
def regionPages (d : Dev) (z : Nat) : Nat :=
  if d.hbm.absent then 0 else rf d (Rg.URN_SPILL_REGION z) Fl.URN_SPILL_REGION_SIZE_GIB * 2 ^ 18
/-- First global byte of the spill region. -/
def regionBase (d : Dev) (z : Nat) : Nat := rf d (Rg.URN_SPILL_REGION z) Fl.URN_SPILL_REGION_BASE_GIB * 2 ^ 30
/-- The VOQs of zone `z` that differ from an empty one. -/
def zoneVoqs (d : Dev) (z : Nat) : List (Nat × Voq) := d.urn.voqs.filter (fun e => e.1 / 2048 == z)
/-- Page numbers in use, lost pages among them. -/
def usedPages (d : Dev) (z : Nat) : List Nat :=
  (zoneVoqs d z).flatMap (fun e => e.2.chain.map (·.num)) ++ (urnz d z).lostPages
/-- The page pool is at or above `t` / 256 of the region. -/
def pgAt (d : Dev) (z t : Nat) : Bool := t * regionPages d z ≤ (usedPages d z).length * 256
def pgThresh (d : Dev) (z : Nat) (f : Fld) : Nat := rf d (Rg.URN_PG_THRESH z) f

/-- Whether VOQ `v` enters spill mode now (R286). -/
def entersSpill (d : Dev) (z v : Nat) : Bool :=
  let c := v % 8
  rf d (Rg.URN_SPILL_LEVELS z) Fl.URN_SPILL_LEVELS_ON ≤ voqDepth d z v &&
  (rf d (Rg.URN_SPILL_CTRL z) Fl.URN_SPILL_CTRL_CLASS_EN).testBit c &&
  (List.range 64).all (fun i => !lossless d (64 * z + i) c) &&
  !pgAt d z (pgThresh d z Fl.URN_PG_THRESH_PG_PRESSURE) &&
  !(page d (urnPage z)).held && !isolated d z
/-- Every VOQ of the zone that meets the conditions of spill mode enters it: asked again whenever one of them may have come true. -/
def watchSpill (d : Dev) (z : Nat) : Dev :=
  (zoneVoqs d z).foldl (fun d e =>
    let v := e.1 % 2048
    if !(voq d z v).spill && entersSpill d z v then modVoq d z v (fun q => { q with spill := true, chain := [], pages := 0 }) else d) d

/-- Judge PG_WARN and spill mode again, and return lost pages once no VOQ of the zone spills (R291, R292). -/
def watchPages (d : Dev) (z : Nat) : Dev :=
  let d := if (zoneVoqs d z).all (fun e => !e.2.spill) then modUrnz d z (fun u => { u with lost := 0, lostPages := [] }) else d
  let w := pgAt d z (pgThresh d z Fl.URN_PG_THRESH_PG_WARN)
  let was := (urnz d z).pgWarn
  let d := modUrnz d z (fun u => { u with pgWarn := w })
  watchSpill (if w && !was then raise d (urnPage z) 3 else d) z

/-- `n` free pages, taken from a place that the spec does not fix. -/
def pickPages (d : Dev) (z n : Nat) : List Nat :=
  let used := usedPages d z
  let total := regionPages d z
  let start := (freeVal d).toNat % total
  (((List.range (used.length + n)).map (fun i => (start + i) % total)).filter (fun k => !used.contains k)).take n

/-- Put one filled slot behind a chain (held last page first), opening a new page where the last is full or written. -/
def placeSlot (st : List Page × List Nat × Nat) (sl : W32 × Nat) : List Page × List Nat × Nat :=
  match st with
  | (p :: r, nums, pos) =>
    if !p.written && p.slots.length < 15 then ({ p with slots := p.slots ++ [sl] } :: r, nums, pos)
    else ({ num := nums.headD 0, descs := [], slots := [sl], pos := pos, written := false } :: p :: r, nums.tail, pos + 1)
  | ([], nums, pos) => ([{ num := nums.headD 0, descs := [], slots := [sl], pos := pos, written := false }], nums.tail, pos + 1)

/-- The last page still takes a frame start: unwritten, a free slot and a free descriptor. -/
def openPage (l : List Page) : Option Page :=
  match l.getLast? with
  | some p => if !p.written && p.slots.length < 15 && p.descs.length < 15 then some p else none
  | none => none

/-- The descriptor holds a reference of a SHARED buffer, whose frame stays in its cells (R287). -/
def byRef (d : Dev) (x : Desc) : Bool := x.copy || (match bufOf d x.handle with | some b => b.kind == 5 | none => false)

/-- A descriptor joins the chain of a VOQ in spill mode, or is dropped (R286, R287, R291). -/
def joinChain (d : Dev) (z v : Nat) (x : Desc) : Dev :=
  let keep := (rf d (Rg.URN_SPILL_CTRL z) Fl.URN_SPILL_CTRL_KEEP_MASK).testBit x.cls
  let drop (d : Dev) := if x.copy then decRef d x.handle else freeBy d x.handle 4 v
  if !keep && pgAt d z (pgThresh d z Fl.URN_PG_THRESH_PG_SHED) then drop (bump d (Rg.SPILL_DROP z) 1)
  else if !x.ctrl && pgAt d z (pgThresh d z Fl.URN_PG_THRESH_PG_RESERVE) then drop (bump d (Rg.PG_FULL_DROP z) 1)
  else
    let q := voq d z v
    let n := if byRef d x then 0 else cellsOf x.len
    let room := match openPage q.chain with | some p => 15 - p.slots.length | none => 0
    let need := if room == 0 then cdiv (max n 1) 15 else cdiv (n - room) 15
    if regionPages d z < (usedPages d z).length + need then
      drop (raise (bump d (Rg.PG_FULL_DROP z) 1) (urnPage z) 4)
    else
      let nums := pickPages d z need
      let d := if need == 0 then d else useFree d
      let rc := q.chain.reverse
      let (rc, nums, pos) :=
        if room == 0 then
          ({ num := nums.headD 0, descs := [], slots := [], pos := q.pages, written := false } :: rc, nums.tail, q.pages + 1)
        else (rc, nums, q.pages)
      let rc := match rc with
        | p :: r => { p with descs := p.descs ++ [(x, p.slots.length + 1)] } :: r
        | [] => []
      let (rc, _, pos) := ((List.range n).map (fun i => (x.handle, i))).foldl placeSlot (rc, nums, pos)
      let d := modVoq d z v (fun q => { q with chain := rc.reverse, pages := pos })
      let d := modVoq d z v (fun q => { q with most := max q.most (voqDepth d z v) })
      watchPages (probeMax (probeMax d 2 z (usedPages d z).length) 3 (2048 * z + v) (voqDepth d z v)) z

/-- A descriptor enters a VOQ: the checks of R302 in their order, then the queue or the chain. -/
def enqueue (d : Dev) (z v : Nat) (x : Desc) : Dev :=
  let q := voq d z v
  let c := v % 8
  let drop (d : Dev) := if x.copy then decRef d x.handle else freeBy d x.handle 4 v
  let depth := voqDepth d z v
  let put (d : Dev) :=
    let d := modVoq d z v (fun q => { q with q := q.q ++ [x], most := max q.most (depth + descCells d x) })
    let d := probeMax d 3 (2048 * z + v) (voqDepth d z v)
    if entersSpill d z v then modVoq d z v (fun q => { q with spill := true, chain := [], pages := 0 }) else d
  if q.spill then joinChain d z v x
  else if x.lossless then put d
  else if rf d (Rg.TM_VOQ_LIMIT z c) Fl.TM_VOQ_LIMIT_LIMIT < depth + descCells d x then
    drop (raise (bump d (Rg.LIMIT_DROP z c) 1) (Rg.pageOf (Rg.baseTM z)) 0)
  else if x.ctrl then put d
  else if (rf d (Rg.TM_CTRL z) Fl.TM_CTRL_WRED_EN).testBit c &&
      !((rf d (Rg.TM_CTRL z) Fl.TM_CTRL_ECN_EN).testBit c && x.ecn) then
    let mx := rf d (Rg.TM_WRED_MAX z c) Fl.TM_WRED_MAX_MAX
    let mn := rf d (Rg.TM_WRED_MIN z c) Fl.TM_WRED_MIN_MIN
    let pm := rf d (Rg.TM_WRED_P z c) Fl.TM_WRED_P_PMAX
    if mx ≤ depth then drop (bump d (Rg.WRED_DROP z c) 1)
    else if mn ≤ depth then
      let r := (freeVal d).toNat % 256
      let d := useFree d
      if r < pm * (depth - mn) / (mx - mn) then drop (bump d (Rg.WRED_DROP z c) 1) else put d
    else put d
  else put d

/-- A descriptor that leaves a VOQ without being sent gives its buffer or reference up. -/
def dropDesc (d : Dev) (v : Nat) (x : Desc) : Dev := if x.copy then decRef d x.handle else freeBy d x.handle 4 v

/-- VOQ `v` of zone `z` loses every frame, spilled frames included; answers how many. -/
def emptyVoq (d : Dev) (z v : Nat) : Dev × Nat :=
  let q := voq d z v
  let l := q.q ++ chainDescs q.chain
  let d := modVoq d z v (fun q => { most := q.most })
  (watchPages (l.foldl (fun d x => dropDesc d v x) d) z, l.length)

/-- The chain of VOQ `v` is discarded; answers its frames. -/
def emptyChain (d : Dev) (z v : Nat) : Dev × Nat :=
  let q := voq d z v
  let l := chainDescs q.chain
  let d := modVoq d z v (fun q => { q with chain := [], spill := false, pages := 0 })
  (watchPages (l.foldl (fun d x => dropDesc d v x) d) z, l.length)

/-! ## What crosses the die links (R17, R18, R21) -/

/-- A frame of zone `z` for port `p` crosses the die links: a copy always, a unicast frame between zones (R21). -/
def crosses (z p : Nat) (x : Desc) : Bool := x.copy || z != portZone p
/-- A frame crosses: a descriptor granule and its data granules, up from its zone and down to that of its port (R17). -/
def sendAcross (d : Dev) (z p : Nat) (x : Desc) : Dev :=
  crossLink (crossLink d z true (1 + granules x.len)) (portZone p) false (1 + granules x.len)
/-- A frame with credit waits to cross the link of zone `z` in this direction (R18). -/
def packetWaits (d : Dev) (z : Nat) (toHub : Bool) : Bool :=
  d.urn.voqs.any (fun e =>
    let p := e.1 % 2048 / 8
    (if toHub then e.1 / 2048 == z else portZone p == z) && decide (0 < e.2.balance) &&
      (match e.2.q with | x :: _ => crosses (e.1 / 2048) p x | [] => false))
/-- Packets leave the link room for `n` granules of other traffic: else it waits (R18). -/
def linkFree (d : Dev) (z : Nat) (toHub : Bool) (n : Nat) : Bool := linkLeaves d z toHub n && !packetWaits d z toHub

/-! ## Ports going down -/

def stagingDflt : Nat → Staging := fun _ => {}
/-- Staging of port `p`, class `c`. -/
def staging (d : Dev) (p c : Nat) : Staging := tget stagingDflt d.egr.staging (8 * p + c)
def modStaging (d : Dev) (p c : Nat) (f : Staging → Staging) : Dev :=
  { d with egr := { d.egr with staging := tmod stagingDflt d.egr.staging (8 * p + c) f } }
def tmDflt : Nat → TmPort := fun _ => {}
/-- Scheduler of port `p`. -/
def tmPort (d : Dev) (p : Nat) : TmPort := tget tmDflt d.egr.ports p
def modTm (d : Dev) (p : Nat) (f : TmPort → TmPort) : Dev :=
  { d with egr := { d.egr with ports := tmod tmDflt d.egr.ports p f } }

/-- R304: every VOQ of the port in every zone and its staging lose their frames, counted in FLUSHED. -/
def flushPort (d : Dev) (p : Nat) : Dev :=
  let (d, n) := (List.range 32).foldl (fun (d, n) k =>
    let (d, m) := emptyVoq d (k / 8) (8 * p + k % 8)
    (d, n + m)) (d, 0)
  let n := (List.range 8).foldl (fun n c => n + (staging d p c).frames.length) n
  let d := (List.range 8).foldl (fun d c => modStaging d p c (fun s => { s with frames := [] })) d
  let d := modTm d p (fun t => { t with deficit := [0, 0, 0, 0, 0, 0, 0, 0] })
  let d := bump d (Rg.TM_FLUSHED (portZone p) (p % 64)) n
  raise d (Rg.pageOf (Rg.baseTM (portZone p)) + 5) 0

/-- Judge UP of port `p` again from its locks and faults (R70): a change raises LINK; going down counts and flushes. -/
def judgePort (d : Dev) (p : Nat) : Dev :=
  let s := port d p
  let all := 2 ^ (portLanes d p).length - 1
  let up := portBegins d p && portEnabled d p && s.locks &&& all == all && !s.lfault && !s.rfault && !coasting d
  if up == s.up then d
  else
    let d := modPort d p (fun s => { s with up := up, opened := s.opened && up })
    let d := raise d (quadPage (p / 4)) 0
    if up then d else flushPort (bump d (Rg.LINK_DOWN (p / 4) (p % 4)) 1) p

/-- The lanes in `ls` lose lock: their ports go down (R64, R66, R441), and a port that had lock and still emits light signals remote fault
(R70). A lane that goes dark on transmit loses its own lock too, and counts it (DESIGN CHOICE, log 230). -/
def loseLock (d : Dev) (ls : List Nat) : Dev :=
  ls.foldl (fun d l =>
    let p := lanePort d l
    let was := (port d p).locks
    let all := 2 ^ (portLanes d p).length - 1
    let d := if was &&& all == all && portLit d p then signalFault d p true else d
    let d := modPort d p (fun s => { s with locks := clrBit s.locks (l - p), opened := false })
    let d := if was.testBit (l - p) then
        bump (bump d (Rg.LANE_LOCK_LOSS (l / 4) (l % 4)) 1) (Rg.PCS_LOCK_LOSS (p / 4) (p % 4)) 1
      else d
    judgePort d p) d

/-- The lanes of engine `e`. -/
def engineLanes (e : Nat) : List Nat := (List.range 16).map (fun l => 16 * e + l)

end Sys2Proof.Machine
end

