-- ==== Sys2Proof/Machine/Sram.lean ====
section
/-!
DEFINITION. On-die SRAM words: valid bits, SECDED, logs and merge buffers (R373, R376 to R379, R398, R539), and the faults
that a read finds, noted on their channels (R382). The arrays are named by place (0 hub, 1 + z zone z) and number (R398).
-/

namespace Sys2Proof.Machine
open Sys2Proof

/-! ## Channels (R382) -/

/-- Channel key: word 0 × 2^32 + word 1 of its identifier. -/
def chanKey (ty pl unit elem : Nat) : Nat := ty * 2 ^ 60 + pl * 2 ^ 56 + unit * 2 ^ 32 + elem
def chTy (k : Nat) : Nat := k / 2 ^ 60 % 16
def chPlace (k : Nat) : Nat := k / 2 ^ 56 % 16
def chUnit (k : Nat) : Nat := k / 2 ^ 32 % 2 ^ 24
def chElem (k : Nat) : Nat := k % 2 ^ 32

/-- Channels that begin as spares: die-link lanes 512 to 543 and the two spare cores of a zone (R382, R390). -/
def chanDflt (k : Nat) : Chan :=
  if chTy k == 1 && 512 ≤ chUnit k % 1024 then { state := 4 }
  else if chTy k == 4 && 1 ≤ chPlace k && 24 ≤ chUnit k then { state := 4 }
  else {}

def chan (d : Dev) (k : Nat) : Chan := tget chanDflt d.ras.chans k
def modRas (d : Dev) (f : Ras → Ras) : Dev := { d with ras := f d.ras }
def modChan (d : Dev) (k : Nat) (f : Chan → Chan) : Dev := modRas d (fun r => { r with chans := tmod chanDflt r.chans k f })
/-- The channel's unit serves: GOOD or SUSPECT. -/
def inService (d : Dev) (k : Nat) : Bool := (chan d k).state ≤ 1

/-- A fault to be judged at the end of the step (R383). -/
def noteFault (d : Dev) (k : Nat) (hard : Bool) : Dev := modRas d (fun r => { r with todo := r.todo ++ [(k, hard)] })

/-- Channel of the core with device-wide number `cid`, of laser input `i` of engine `e`, of line lane `l`, of
pseudo-channel `pc`, of requester `r`. -/
def coreChan (cid : Nat) : Nat := if cid < 128 then chanKey 4 (1 + cid / 32) (cid % 32) 0 else chanKey 4 0 (cid - 128) 0
def laserChan (e i : Nat) : Nat := chanKey 5 (1 + e / 4) e i
def laneChan (l : Nat) : Nat := chanKey 0 (1 + l / 64) l 0
def pcChan (pc : Nat) : Nat := chanKey 3 0 pc 0xFFFFFFFF
/-- Place of a requester: its zone, or the hub. -/
def reqPlace (r : Nat) : Nat := if r < 832 then 1 + r / 208 else if 864 ≤ r && r < 896 then 1 + (r - 864) / 8 else 0
def reqChan (r : Nat) : Nat := chanKey 8 (reqPlace r) r 0
def linkChan (z : Nat) (toHub : Bool) (l : Nat) : Nat := chanKey 1 (1 + z) ((if toHub then 0 else 1024) + l) 0

/-! ## Arrays (R398, R539) -/

/-- Rows of array `n` of a place, spare rows excluded; 0 where the place has no such array. -/
def sramRows (pl n : Nat) : Nat :=
  let i := n % 2048
  let size (lim rows : Nat) : Nat := if i < lim then rows else 0
  if pl == 0 then
    match n / 2048 with
    | 0 => size 16 (if i % 4 == 1 then 32 else 64)
    | 1 => size 16 1024
    | 2 => size 32 1024
    | 3 => size 2 (Config.openRows 0 n).toNat
    | 4 | 5 | 6 | 7 => size 1 (Config.openRows 0 n).toNat
    | 8 => size 8 (Config.openRows 0 n).toNat
    | _ => 0
  else
    match n / 2048 with
    | 0 | 2 | 3 => size 26 64
    | 1 => size 26 32
    | 4 => size 52 32
    | 5 => size 32 1024
    | 6 => size 1 (Config.openRows 1 n).toNat
    | 7 => size 24 1024
    | 8 => size 32 88
    | 9 => size 16 1024
    | 10 => size 1 2048
    | 11 => size 4 2048
    | 12 => size 4 (Config.openRows 1 n).toNat
    | 13 => size 2 1152
    | 14 => size 1 (Config.openRows 1 n).toNat
    | 15 => size 64 20
    | _ => 0

/-- Spare rows an array was built with. -/
def sramSpares (pl n : Nat) : Nat := if sramRows pl n == 0 then 0 else max 2 (cdiv (2 * sramRows pl n) 100)
/-- Spare rows in use: retired rows of the array that a spare serves for. -/
def sparesUsed (d : Dev) (pl n : Nat) : Nat :=
  (d.ras.chans.filter (fun e => chTy e.1 == 2 && chPlace e.1 == pl && chUnit e.1 == n && e.2.spareIn)).length

def rowChan (pl n word : Nat) : Nat := chanKey 2 pl n (word / 128)

/-- A row retired without a spare is withdrawn, until it has passed its test: its words read poisoned (R387). -/
def rowOut (c : Chan) : Bool := (c.state == 2 || c.state == 3) && !c.spareIn
def rowWithdrawn (d : Dev) (pl n row : Nat) : Bool :=
  match d.ras.chans.lookup (chanKey 2 pl n row) with
  | some c => rowOut c
  | none => false
/-- The withdrawn rows of a place: array and row. -/
def rowsGone (d : Dev) (pl : Nat) : List (Nat × Nat) :=
  (d.ras.chans.filter (fun e => chTy e.1 == 2 && chPlace e.1 == pl && rowOut e.2)).map (fun e => (chUnit e.1, chElem e.1))
/-- Withdrawn rows of one array. -/
def goneOf (d : Dev) (pl n : Nat) : Nat := ((rowsGone d pl).filter (fun e => e.1 == n)).length
/-- What the queue memories of a zone have lost with their rows: descriptors of the reorder stage (block 0), entries of the flight queue (1). -/
def entriesGone (d : Dev) (z block : Nat) : Nat :=
  ((rowsGone d (1 + z)).map (fun e => if e.1 / 2048 == 12 then Config.rowEntries block (e.1 % 2048) e.2 else 0)).foldl (· + ·) 0

/-! ## Words (R373, R377) -/

def swordDflt : Nat → SWord := fun _ => {}
def swordKey (pl n w : Nat) : Nat := (pl * 65536 + n) * 2 ^ 20 + w
def sword (d : Dev) (pl n w : Nat) : SWord := tget swordDflt d.core.sram (swordKey pl n w)
def setSword (d : Dev) (pl n w : Nat) (x : SWord) : Dev :=
  { d with core := { d.core with sram := tset swordDflt d.core.sram (swordKey pl n w) x } }
/-- Every valid bit of an array clears (R377). -/
def clearSram (d : Dev) (pl n : Nat) : Dev :=
  { d with core := { d.core with sram := d.core.sram.filter (fun e => e.1 / 2 ^ 20 != pl * 65536 + n),
                                 merge := tset (fun _ => []) d.core.merge (pl * 65536 + n) [] } }

/-- Registers and counters of the protection window of a place (R400). -/
def pwAt (pl : Nat) (hub : Nat) (zone : Nat → Nat) : Nat := if pl == 0 then hub else zone (pl - 1)
/-- NOFAULT of a place's window. -/
def noFault (d : Dev) (pl : Nat) : Bool :=
  if pl == 0 then rb d Rg.PW_TEST_CTRL Fl.PW_TEST_CTRL_NOFAULT else rb d (Rg.ZPW_TEST_CTRL (pl - 1)) Fl.ZPW_TEST_CTRL_NOFAULT

def logDflt : Nat → List LogE := fun _ => []
def sramLog (d : Dev) (pl n : Nat) : List LogE := tget logDflt d.ras.logs (pl * 65536 + n)

/-- Of two log entries the one to overwrite: smallest count, then earliest last time (R379). -/
def weaker (x y : LogE) : Bool := if x.count == y.count then x.time < y.time else x.count < y.count

/-- R379: a correctable error at address `w` enters log `key`; `ovf` counts an entry overwritten. -/
def logInto (d : Dev) (key w : Nat) (synd : BitVec 8) (inj : Bool) (ovf : Nat) : Dev :=
  let l := tget logDflt d.ras.logs key
  let put (d : Dev) (l : List LogE) := modRas d (fun r => { r with logs := tset logDflt r.logs key l })
  let x : LogE := { word := w, synd := synd, count := 1, inj := inj, time := nowNs d }
  if l.any (fun e => e.word == w) then
    put d (l.map (fun e => if e.word == w then { x with count := min 255 (e.count + 1) } else e))
  else match l with
    | [] => put d [x]
    | y :: r =>
      if l.length < 16 then put d (l ++ [x])
      else
        let v := r.foldl (fun a b => if weaker b a then b else a) y
        put (bump d ovf 1) (l.map (fun e => if e.word == v.word then x else e))
/-- A correctable error of an array: one at a new address is reported in a zone. -/
def logError (d : Dev) (pl n w : Nat) (synd : BitVec 8) (inj : Bool) : Dev :=
  let new := !(sramLog d pl n).any (fun e => e.word == w)
  let d := if new && pl != 0 then raise d (Rg.pageOf (Rg.baseZRAS (pl - 1))) 1 else d
  logInto d (pl * 65536 + n) w synd inj (pwAt pl Rg.PW_LOG_OVERFLOW Rg.ZPW_LOG_OVERFLOW)
/-- Key of the log of a pseudo-channel. -/
def pcLog (pc : Nat) : Nat := 2 ^ 24 + pc

/-- An uncorrectable read of a word: counted, reported, one fault on the row unless it was injected under NOFAULT. -/
def uncorrWord (d : Dev) (pl n w : Nat) (inj : Bool) : Dev :=
  let d := bump d (pwAt pl Rg.PW_UNCORR Rg.ZPW_UNCORR) 1
  let d := if pl == 0 then d else raise d (Rg.pageOf (Rg.baseZRAS (pl - 1))) 0
  if inj && noFault d pl then d else noteFault d (rowChan pl n w) false

/-- A checked read of the stored word: its data, whether it is uncorrectable, and what the read does (R373, R387). -/
def checkWord (d : Dev) (pl n w : Nat) : W64 × Bool × Dev :=
  let x := sword d pl n w
  if rowWithdrawn d pl n (w / 128) then (x.data, true, uncorrWord d pl n w false)
  else if !x.valid then (0, false, d)
  else if x.poison then (x.data, true, uncorrWord d pl n w x.inj)
  else if x.chk == 0 then (x.data, false, d)
  else match Config.eccFix x.chk with
    | some m =>
      let v := x.data ^^^ m.setWidth 64
      let d := setSword d pl n w { valid := true, data := v }
      let d := bump (logError d pl n w x.chk x.inj) (pwAt pl Rg.PW_CORRECTED Rg.ZPW_CORRECTED) 1
      (v, false, if x.inj && noFault d pl then d else noteFault d (rowChan pl n w) false)
    | none => (x.data, true, uncorrWord d pl n w x.inj)

def mergeDflt : Nat → List MergeE := fun _ => []
/-- Open merge entries of an array, oldest first. -/
def merges (d : Dev) (pl n : Nat) : List MergeE := tget mergeDflt d.core.merge (pl * 65536 + n)
def setMerges (d : Dev) (pl n : Nat) (l : List MergeE) : Dev :=
  { d with core := { d.core with merge := tset mergeDflt d.core.merge (pl * 65536 + n) l } }

/-- `v` with the bytes of an entry over it: bit 7 - i of the mask is byte i, big-endian. -/
def overlay (v : Nat) (mask val : Nat) : Nat :=
  (List.range 8).foldl (fun a i =>
    let k := 7 - i
    a * 256 + (if mask.testBit k then val / 256 ^ k % 256 else v / 256 ^ k % 256)) 0

/-- A whole-word write: valid, good check bits, no poison; an open entry of the word closes. -/
def writeWord (d : Dev) (pl n w : Nat) (v : W64) : Dev :=
  let d := setSword d pl n w { valid := true, data := v }
  setMerges d pl n ((merges d pl n).filter (fun e => e.word != w))

/-- A merge entry completes (R378): whole when it holds all bytes, else by read, merge and write; poison is kept then. -/
def completeMerge (d : Dev) (pl n : Nat) (e : MergeE) : Dev :=
  if e.mask == 255 then writeWord d pl n e.word (BitVec.ofNat 64 e.val)
  else
    let (v, bad, d) := checkWord d pl n e.word
    let x := sword d pl n e.word
    let d := setSword d pl n e.word { x with valid := true, data := BitVec.ofNat 64 (overlay v.toNat e.mask e.val), poison := bad,
                                             chk := 0, inj := bad && x.inj }
    setMerges d pl n ((merges d pl n).filter (fun y => y.word != e.word))

/-- A checked read: merged bytes over the stored word (R378). -/
def readWord (d : Dev) (pl n w : Nat) : W64 × Bool × Dev :=
  match (merges d pl n).find? (fun e => e.word == w) with
  | some e =>
    let (v, bad, d) := checkWord d pl n w
    (BitVec.ofNat 64 (overlay v.toNat e.mask e.val), bad, d)
  | none => checkWord d pl n w

/-- A write of some bytes of a word: whole, or through the merge buffer, where a ninth word forces the oldest out. -/
def writePart (d : Dev) (pl n w mask val : Nat) : Dev :=
  if mask == 255 then writeWord d pl n w (BitVec.ofNat 64 val)
  else
    match (merges d pl n).find? (fun e => e.word == w) with
    | some e =>
      let e' := { e with mask := e.mask ||| mask, val := overlay e.val mask val }
      let d := setMerges d pl n ((merges d pl n).map (fun y => if y.word == w then e' else y))
      if e'.mask == 255 then completeMerge d pl n e' else d
    | none =>
      let d := match merges d pl n with
        | o :: r => if r.length == 7 then completeMerge d pl n o else d
        | [] => d
      setMerges d pl n (merges d pl n ++ [{ word := w, mask := mask, val := overlay 0 mask val, at_ := d.mc }])

/-- A checked read of `n` bytes from byte `a` of an array, big-endian. -/
def sramRead (d : Dev) (pl arr : Nat) : Nat → Nat → Nat × Bool × Dev
  | _, 0 => (0, false, d)
  | a, n =>
    (List.range ((a + n - 1) / 8 + 1 - a / 8)).foldl (fun (acc : Nat × Bool × Dev) i =>
      let w := a / 8 + i
      let (v, bad, d) := readWord acc.2.2 pl arr w
      let lo := max a (8 * w)
      let hi := min (a + n) (8 * w + 8)
      (acc.1 * 256 ^ (hi - lo) + v.toNat / 256 ^ (8 * w + 8 - hi) % 256 ^ (hi - lo), acc.2.1 || bad, d)) (0, false, d)

/-- A write of the `n` big-endian bytes of `x` from byte `a` of an array. -/
def sramWrite (d : Dev) (pl arr : Nat) : Nat → Nat → Nat → Dev
  | _, 0, _ => d
  | a, n, x =>
    (List.range ((a + n - 1) / 8 + 1 - a / 8)).foldl (fun d i =>
      let w := a / 8 + i
      let lo := max a (8 * w)
      let hi := min (a + n) (8 * w + 8)
      let part := x / 256 ^ (a + n - hi) % 256 ^ (hi - lo)
      let sh := 8 * w + 8 - hi
      writePart d pl arr w ((2 ^ (hi - lo) - 1) * 2 ^ sh) (part * 256 ^ sh)) d

/-! ## Arrays whose contents other state holds

Hub shared SRAM lies in the machine's memory, frames in the cell buffer, edit programs in the edit memory: their data is there as it should
be, and a stored word here holds its valid bit, its check state and the bits that are flipped in it. -/

/-- An SRAM word that holds a part of what is written: array, word, and whether the write covers all of it. -/
structure PartWord where
  arr : Nat
  word : Nat
  whole : Bool

/-- A write reaches word `w` of an array: it covers all of it, or is merged with what is read there, which keeps poison (R376, R378). -/
def coverWord (d : Dev) (pl : Nat) (w : PartWord) (v : W64) : Dev :=
  if w.whole then setSword d pl w.arr w.word { valid := true, data := v }
  else
    let (_, bad, d) := checkWord d pl w.arr w.word
    setSword d pl w.arr w.word { valid := true, data := v, poison := bad, inj := bad && (sword d pl w.arr w.word).inj }

/-- Array and byte within it of byte `a` of hub shared SRAM (R539). -/
def hubBank (a : Nat) : Nat := 2048 + (a - 0x2000000000) / 2 ^ 20
def hubByte (a : Nat) : Nat := (a - 0x2000000000) % 2 ^ 20
/-- A checked read of `n` bytes of hub shared SRAM: whether a word is uncorrectable, and what the read does (R373). -/
def hubSramRead (d : Dev) (a n : Nat) : Bool × Dev := (sramRead d 0 (hubBank a) (hubByte a) n).2
/-- A write of `n` bytes of hub shared SRAM reaches its words, whole or through the merge buffer (R378). -/
def hubSramWrite (d : Dev) (a n : Nat) : Dev := sramWrite d 0 (hubBank a) (hubByte a) n 0

/-- Array and word that hold word `i` of a cell (R539). -/
def cellWord (c i : Nat) : Nat × Nat := (5 * 2048 + c % 32, 32 * (c / 32) + i)
/-- Words of cell `k` of a chain that hold bytes of its frame of `len` bytes. -/
def cellFill (len k : Nat) : Nat := min 32 (cdiv (len - 256 * k) 8)
/-- A frame is written into its cells: whole words, valid and with good check bits. -/
def fillCells (d : Dev) (z : Nat) (cells : List Nat) (len : Nat) : Dev :=
  cells.zipIdx.foldl (fun d e =>
    let n := cellFill len e.2
    let d := { d with urn := { d.urn with high := tmod zeroN d.urn.high (131072 * z + e.1) (max n) } }
    (List.range n).foldl (fun d i => setSword d (1 + z) (cellWord e.1 i).1 (cellWord e.1 i).2 {}) d) d
/-- The word that holds a cell's link or its buffer record: the order of these words is open (R539). -/
def linkWord (d : Dev) (z c : Nat) (record : Bool) : Dev :=
  (checkWord d (1 + z) (6 * 2048) ((Config.linkWord (131072 * z + c) record).toNat % (128 * sramRows (1 + z) (6 * 2048)))).2.2
/-- Checked reads of the first `n` words of a cell, and of its link (R268, R373). -/
def checkCell (d : Dev) (z c n : Nat) : Dev :=
  (List.range n).foldl (fun d i => (checkWord d (1 + z) (cellWord c i).1 (cellWord c i).2).2.2) (linkWord d z c false)
/-- Traffic reads the first `n` bytes of the frame that a handle names from its cells: what the code corrects is corrected, logged and
counted; a word beyond it counts, and its bytes go on as they are stored (R268, R373; DESIGN CHOICE, log 253). -/
def readFrame (d : Dev) (h : W32) (n : Nat) : Dev :=
  match bufOf d h with
  | none => d
  | some b =>
    b.cells.zipIdx.foldl (fun d e => checkCell d (hZone h) e.1 (cellFill (min n b.len) e.2)) (linkWord d (hZone h) (hHead h) true)

end Sys2Proof.Machine
end

