-- ==== Sys2Proof/Machine/Release.lean ====
section
/-!
DEFINITION. The reorder stage: its entries, gaps and arrivals (R296 to R300), verdicts and punts at release (R102, R155, R299, R408), and
what isolation drops there (R22).
-/

namespace Sys2Proof.Machine
open Sys2Proof

/-! ## The verdict word (R155) -/

def vReason (v : W64) : Nat := v.toNat % 64
def vEcn (v : W64) : Bool := v.toNat.testBit 10
def vClass (v : W64) : Nat := v.toNat / 2 ^ 11 % 8
def vAction (v : W64) : Nat := v.toNat / 2 ^ 14 % 4
def vDest (v : W64) : Nat := v.toNat / 2 ^ 16 % 65536
def vEdit (v : W64) : Nat := v.toNat / 2 ^ 32 % 65536
def vMc (v : W64) : Bool := v.toNat.testBit 48
def vTs2 (v : W64) : Bool := v.toNat.testBit 49
def vUser (v : W64) : Nat := v.toNat / 2 ^ 56

/-! ## Isolation (R22) -/

/-- The isolated zone that cuts traffic between zones `z` and `p` off: the ingress zone where both are isolated (DESIGN CHOICE,
log 222). -/
def isoBetween (d : Dev) (z p : Nat) : Option Nat :=
  if z == p then none else if isolated d z then some z else if isolated d p then some p else none
/-- The same for what crosses the hub even within a zone: copies. -/
def isoCopy (d : Dev) (z p : Nat) : Option Nat :=
  if isolated d z then some z else if isolated d p then some p else none
/-- A packet or copy dropped for the isolation of zone `z`. -/
def isoDrop (d : Dev) (z : Nat) : Dev := bump d (Rg.XB_ISO_DROP z) 1

/-! ## Punts (R102, R299, R408) -/

/-- The policer of the punt's reason: a whole token lets it pass; RATE 0 drops every punt (R102, R120). -/
def policePunt (d : Dev) (z reason : Nat) : Dev × Bool :=
  let p := rf d (Rg.PUNT_MAP z (reason / 4)) (Fl.PUNT_MAP_POLICER (reason % 4))
  let t := tget zeroN d.adm.tokens (32 * z + p)
  if 1000 ≤ t && rf d (Rg.PUNT_POL z p) Fl.PUNT_POL_RATE != 0 then
    (bump { d with adm := { d.adm with tokens := tset zeroN d.adm.tokens (32 * z + p) (t - 1000) } } (Rg.PUNT_POL_PASS z p) 1, true)
  else (raise (bump d (Rg.PUNT_POL_DROP z p) 1) (Rg.pageOf (Rg.baseADM z) + 1) 0, false)

def jobsDflt : Nat → List PuntJob := fun _ => []
/-- Punts that ring `r` of host `h` is copying. -/
def puntJobs (d : Dev) (h r : Nat) : List PuntJob := tget jobsDflt d.hif.punts (64 * h + r)
def setPuntJobs (d : Dev) (h r : Nat) (l : List PuntJob) : Dev :=
  modHif d (fun x => { x with punts := tset jobsDflt x.punts (64 * h + r) l })

/-- A punt that passed goes to its ring, or is freed and counted (R408). -/
def puntTo (d : Dev) (h r : Nat) (buf : W32) (e : REntry) : Dev :=
  if inD3 d h then freeBy (bump d (Rg.PUNT_D3_DROP h) 1) buf 3 0
  else if ringTakes d h 0 r then
    let (i, d) := takeDesc d h 0 r
    let d := handOver d buf 3 0 6 (128 * h + r)
    let stamp := match bufOf d buf with | some b => b.tstamp | none => 0
    let j : PuntJob := { handle := buf, idx := i, reason := vReason e.verdict, port := e.dom / 8, cls := e.dom % 8,
                         ctrl := e.marked, stamp := stamp, user := vUser e.verdict }
    setPuntJobs d h r (puntJobs d h r ++ [j])
  else freeBy (bump d (Rg.PUNT_NOBUF h) 1) buf 3 0

/-! ## Entries of the reorder stage (R296 to R298) -/

def entriesDflt : Nat → List REntry := fun _ => []
def rentries (d : Dev) (z : Nat) : List REntry := tget entriesDflt d.egr.entries z
def setRentries (d : Dev) (z : Nat) (l : List REntry) : Dev :=
  { d with egr := { d.egr with entries := tset entriesDflt d.egr.entries z l } }

/-- The gap step of R298 in the domain of entry `o`: its NEXT becomes the entry's number. -/
def gapStep (d : Dev) (z : Nat) (o : REntry) : Dev :=
  let n := (o.seq + 65536 - (dom d o.dom).rel) % 65536
  let d := bump d (Rg.ROB_GAP z) n
  modDom d o.dom (fun x => { x with rel := o.seq })

/-- An entry of the domain whose number is NEXT waits. -/
def nextWaits (d : Dev) (z n : Nat) : Bool := (rentries d z).any (fun e => e.dom == n && e.seq == (dom d n).rel)

/-! ## Release (R299) -/

/-- The descriptor of a released unicast packet (R273). -/
def unicastDesc (e : REntry) (h : W32) (len : Nat) : Desc :=
  let v := e.verdict
  { handle := h, len := len, edit := vEdit v, dom := e.dom, seq := e.seq, port := vDest v % 256, cls := vClass v, ecn := vEcn v,
    ts2 := vTs2 v, ctrl := e.marked, lossless := e.lossless, copy := false, inj := none }

/-- A request to Carafe for a released verdict; it holds the one reference of the buffer, now SHARED. -/
def carafeReq (e : REntry) (h : W32) (waits : Bool) : CarReq :=
  let v := e.verdict
  { handle := h, group := vDest v, cls := vClass v, dom := e.dom, seq := e.seq, ecn := vEcn v, ts2 := vTs2 v, ctrl := e.marked,
    lossless := e.lossless, trunc := 0, waits := waits, refs := 1, mirror := !waits, inj := none }

def carDflt : Nat → List CarReq := fun _ => []
def carQ (d : Dev) (z : Nat) : List CarReq := tget carDflt d.egr.car z
def setCarQ (d : Dev) (z : Nat) (l : List CarReq) : Dev := { d with egr := { d.egr with car := tset carDflt d.egr.car z l } }
def mirrQ (d : Dev) (z : Nat) : List CarReq := tget carDflt d.egr.mirr z
def setMirrQ (d : Dev) (z : Nat) (l : List CarReq) : Dev := { d with egr := { d.egr with mirr := tset carDflt d.egr.mirr z l } }

/-- The buffer becomes SHARED and Carafe is asked; the domain of an MC verdict waits (R305). -/
def toCarafe (d : Dev) (z : Nat) (e : REntry) (h : W32) (waits : Bool) : Dev :=
  match addRefs d h 0 3 0 with
  | none => freeRefused d (hZone h) 3
  | some d =>
    let d := setCarQ d z (carQ d z ++ [carafeReq e h waits])
    if waits then modDom d e.dom (fun x => { x with mcWait := true }) else d

/-- The verdict of a released lane acts. -/
def actOn (d : Dev) (z : Nat) (e : REntry) (h : W32) : Dev :=
  let v := e.verdict
  let r := vReason v
  match vAction v with
  | 0 => freeBy (bump (bump d (Rg.ROB_DROP z) 1) (Rg.DROP_REASON z r) 1) h 3 0
  | 2 =>
    let (d, pass) := policePunt (bump d (Rg.ROB_PUNT z) 1) z r
    if !pass then freeBy d h 3 0
    else if isolated d z then freeBy (isoDrop d z) h 3 0
    else puntTo d (rf d (Rg.ROB_PUNT_MAP z (r / 4)) (Fl.ROB_PUNT_MAP_HOST (r % 4)))
      (rf d (Rg.ROB_PUNT_MAP z (r / 4)) (Fl.ROB_PUNT_MAP_RING (r % 4))) h e
  | 3 =>
    let d := bump d (Rg.ROB_MIRROR z) 1
    if isolated d z then freeBy (isoDrop d z) h 3 0 else toCarafe d z e h false
  | _ =>
    if vMc v then
      let d := bump d (Rg.FWD_MC z) 1
      if isolated d z then freeBy (isoDrop d z) h 3 0 else toCarafe d z e h true
    else
      let p := vDest v
      if 256 ≤ p || !portBegins d p then freeBy (raise (bump d (Rg.BAD_DEST z) 1) (Rg.pageOf (Rg.baseROB z)) 2) h 3 0
      else match isoBetween d z (portZone p) with
        | some i => freeBy (isoDrop d i) h 3 0
        | none =>
          if !portUsable d p then freeBy (bump d (Rg.DOWN_DROP z) 1) h 3 0
          else
            let q := 8 * p + vClass v
            let x := unicastDesc e h (frameLen d h)
            enqueue (handOver (bump d (Rg.FWD_UC z) 1) h 3 0 4 q) z q x

/-- An entry whose number is next leaves: the number is no longer outstanding and its verdict acts. -/
def releaseEntry (d : Dev) (z : Nat) (e : REntry) : Dev :=
  let d := setRentries d z ((rentries d z).filter (fun x => !(x.dom == e.dom && x.seq == e.seq)))
  let d := watchDom (modDom d e.dom (fun x => { x with rel := (e.seq + 1) % 65536, out := x.out - 1 })) e.dom
  let d := bump d (Rg.ROB_RELEASED z) 1
  match e.handle with
  | some h => actOn d z e h
  | none => d

/-- The entries of domain `n` that wait, in order of arrival. -/
def domEntries (d : Dev) (z n : Nat) : List REntry := (rentries d z).filter (fun e => e.dom == n)
/-- The waiting entry of the domain with the earliest arrival, when it has waited for the hold limit. -/
def overdue (d : Dev) (z n : Nat) : Option REntry :=
  match domEntries d z n with
  | [] => none
  | o :: _ =>
    if rf d (Rg.ROB_CTRL z) Fl.ROB_CTRL_HOLD_US * 1000 * 2 ^ 32 ≤ elapsed (tbIn d z) o.arrival then some o else none
/-- The gap of R298: event GAP. -/
def takeGap (d : Dev) (z : Nat) (o : REntry) : Dev := raise (gapStep d z o) (Rg.pageOf (Rg.baseROB z)) 0

/-- The loop of R298 in domain `n`, with `b` releases left; answers those left over. -/
def drainDom (z n : Nat) : Nat → Dev → Nat → Dev × Nat
  | 0, d, b => (d, b)
  | f + 1, d, b =>
    if b == 0 || (dom d n).mcWait then (d, b)
    else match (domEntries d z n).find? (fun e => e.seq == (dom d n).rel) with
      | some e => drainDom z n f (releaseEntry d z e) (b - 1)
      | none =>
        match overdue d z n with
        | some o => drainDom z n f (takeGap d z o) b
        | none => (d, b)

/-- Domains of the zone with waiting entries, in rotation from the one after `last`. -/
def waitingDoms (d : Dev) (z last : Nat) : List Nat :=
  let ds := ((rentries d z).map (·.dom)).dedup
  (List.range 512).filterMap (fun i =>
    let n := 512 * z + (last + 1 + i) % 512
    if ds.contains n then some n else none)

/-! ## Arrival (R296, R297, R300) -/

/-- A full stage makes room: in the domain of the waiting entry with the earliest arrival a gap is forced, unless its next number waits, and
that domain releases. Domains that wait for Carafe release nothing; were there no others, the entry would still be taken (log 259). -/
def forceRoom (z : Nat) : Nat → Dev → Dev
  | 0, d => d
  | n + 1, d =>
    if (rentries d z).length < 8192 - entriesGone d z 0 then d
    else match (rentries d z).find? (fun e => !(dom d e.dom).mcWait) with
      | none => d
      | some o =>
        let d := if nextWaits d z o.dom then d else raise (bump (gapStep d z o) (Rg.FORCED_GAP z) 1) (Rg.pageOf (Rg.baseROB z)) 1
        match (domEntries d z o.dom).find? (fun e => e.seq == (dom d o.dom).rel) with
        | some e => forceRoom z n (releaseEntry d z e)
        | none => d

/-- The entry's number lies behind its domain's NEXT (R297). -/
def isLate (d : Dev) (e : REntry) : Bool := 32768 ≤ (e.seq + 65536 - (dom d e.dom).rel) % 65536

/-- A lane or slot arrives: it waits, or is late and dropped. One that needs a descriptor makes room first. -/
def robArrive (d : Dev) (z : Nat) (e : REntry) : Dev :=
  let d := if isLate d e then d else forceRoom z 8192 d
  if !isLate d e then setRentries d z (rentries d z ++ [e])
  else
    let d := watchDom (modDom (bump d (Rg.ROB_LATE z) 1) e.dom (fun x => { x with out := x.out - 1 })) e.dom
    match e.handle with
    | some h => freeBy d h 3 0
    | none => d

end Sys2Proof.Machine
end

