-- ==== Sys2Proof/Machine/CoreOps.lean ====
section
/-!
DEFINITION. Threads, flights, kernel work, ranks and traps: the operations that the cores, the Barista, the lock unit and
the fault rules share (R124 to R145, R149 to R176, R386).
-/

namespace Sys2Proof.Machine
open Sys2Proof

/-! ## Threads and core memories -/

def thrDflt : Nat → Thread := fun _ => {}
/-- Thread `t` of core `cid`. -/
def thr (d : Dev) (cid t : Nat) : Thread := tget thrDflt d.core.threads (8 * cid + t)
def modThr (d : Dev) (cid t : Nat) (f : Thread → Thread) : Dev :=
  { d with core := { d.core with threads := tmod thrDflt d.core.threads (8 * cid + t) f } }
def isHub (cid : Nat) : Bool := 128 ≤ cid
/-- Zone of a zone core. -/
def cidZone (cid : Nat) : Nat := cid / 32
/-- Core number within its zone. -/
def cidCore (cid : Nat) : Nat := cid % 32
/-- The identifier names a core. -/
def isCore (cid : Nat) : Bool := isHub cid || cid % 32 < 26
/-- Place of a core. -/
def cidPlace (cid : Nat) : Nat := if isHub cid then 0 else 1 + cidZone cid
/-- Register page of a core. -/
def corePage (cid : Nat) : Nat := if isHub cid then Rg.pageOf (Rg.baseHCC (cid - 128)) else Rg.pageOf (Rg.baseCORE cid)

/-- The array that holds space `sp` (0 H, 1 M, 2 S, 3 T) of a core (R398). -/
def coreArr (cid sp : Nat) : Nat := if isHub cid then 4 * (cid - 128) + sp else sp * 2048 + cidCore cid
/-- The array of an image bank of a zone core. -/
def imageArr (cid bank : Nat) : Nat := 4 * 2048 + 2 * cidCore cid + bank

/-- Checked read of `n` bytes from byte `a` of a space. -/
def coreRead (d : Dev) (cid sp a n : Nat) : Nat × Bool × Dev := sramRead d (cidPlace cid) (coreArr cid sp) a n
/-- Write of `n` bytes. -/
def coreWrite (d : Dev) (cid sp a n x : Nat) : Dev := sramWrite d (cidPlace cid) (coreArr cid sp) a n x
/-- Byte address of H, M of lane `n` of thread slot `t`, and of its stack entry `e` (R539). -/
def hAddr (t n i : Nat) : Nat := 256 * (32 * t + n) + i
def mAddr (t n i : Nat) : Nat := 128 * (32 * t + n) + i
def tAddr (t n e : Nat) : Nat := 8 * (32 * (32 * t + n) + e)

/-- Add to a counter of the core's page: the zone page's, or the hub page's where it has one. -/
def coreCtr (d : Dev) (cid : Nat) (zone : Nat → Nat) (hub : Option (Nat → Nat)) : Dev :=
  if isHub cid then (match hub with | some h => bump d (h (cid - 128)) 1 | none => d) else bump d (zone cid) 1

/-- Raise event `n` of a zone core's page; hub pages have no events (R183). -/
def coreEvent (d : Dev) (cid n : Nat) : Dev := if isHub cid then d else raise d (corePage cid) n

/-- A thread that holds kernel work or waits for it: KWAIT, KRUN, HALTED. -/
def kernelThread (x : Thread) : Bool := x.state == 3 || x.state == 4 || x.state == 5
/-- Thread number `t` of the core is a kernel thread by BAR_KERNEL.KTHREADS (R137); every thread of a hub core is. -/
def kernelRole (d : Dev) (cid t : Nat) : Bool :=
  isHub cid || 8 ≤ t + rf d (Rg.BAR_KERNEL (cidZone cid)) Fl.BAR_KERNEL_KTHREADS

/-- The bank in effect in a zone (R179). -/
def activeBank (d : Dev) (z : Nat) : Nat := rf d (Rg.ZCTL_IMG z) Fl.ZCTL_IMG_BANK

/-- A new tag for a flight or item. -/
def newTag (d : Dev) : Dev := { d with core := { d.core with tags := d.core.tags + 1 } }

/-- A kernel thread starts at the kernel entry, index 48 (R177). -/
def startKernel (d : Dev) (cid t : Nat) : Dev :=
  let d := newTag d
  modThr d cid t (fun x => { state := 4, pc := 48, bank := if isHub cid then 0 else activeBank d (cidZone cid), act := 1,
                             home := t, tag := d.core.tags, issued := x.issued })

/-- The thread starts if it is a kernel thread of a place whose threads run: the hub, or a zone that has opened (log 48). -/
def startRole (d : Dev) (cid t : Nat) : Dev :=
  if kernelRole d cid t && (isHub cid || d.life.zopen.testBit (cidZone cid)) then startKernel d cid t else d

/-- The pending bits of a root thread's lanes clear. -/
def clearPend (d : Dev) (cid t : Nat) : Dev :=
  { d with core := { d.core with pend := d.core.pend.filter (fun e => e.1 / 32 != 8 * cid + t) } }

def stallDflt : Nat → Stall := fun _ => .none
/-- What the thread's next instruction met when it was last offered. -/
def setStall (d : Dev) (cid t : Nat) (x : Stall) : Dev :=
  { d with core := { d.core with stalls := tset stallDflt d.core.stalls (8 * cid + t) x } }
/-- The thread becomes free: idle, or at the kernel entry when its role has changed to kernel (R147). Its place in the round-robin
stays. -/
def freeThread (d : Dev) (cid t : Nat) : Dev :=
  startRole (setStall (modThr d cid t (fun x => { issued := x.issued })) cid t .none) cid t

/-! ## Flights and ranks -/

def modBar (d : Dev) (f : Bar → Bar) : Dev := { d with bar := f d.bar }
def barzDflt : Nat → BarZone := fun _ => {}
def barz (d : Dev) (z : Nat) : BarZone := tget barzDflt d.bar.zones z
def modBarz (d : Dev) (z : Nat) (f : BarZone → BarZone) : Dev := modBar d (fun b => { b with zones := tmod barzDflt b.zones z f })

def flightById (d : Dev) (id : Nat) : Option Flight := d.bar.flights.find? (fun f => f.id == id)
def modFlight (d : Dev) (id : Nat) (f : Flight → Flight) : Dev :=
  modBar d (fun b => { b with flights := b.flights.map (fun x => if x.id == id then f x else x) })
def dropFlight (d : Dev) (id : Nat) : Dev := modBar d (fun b => { b with flights := b.flights.filter (fun x => x.id != id) })
def zoneFlights (d : Dev) (z : Nat) : List Flight := d.bar.flights.filter (fun f => f.zone == z)
/-- The queue entries in use in a zone. -/
def entriesUsed (d : Dev) (z : Nat) : List Nat := ((zoneFlights d z).map (·.entry)).dedup
/-- A number for a flight, an order or a place. -/
def nextSeq (d : Dev) : Dev := modBar d (fun b => { b with seq := b.seq + 1 })

/-- The cores of the zone in service (R129). -/
def serviceCores (d : Dev) (z : Nat) : List Nat := (List.range 26).filter (fun k => inService d (coreChan (32 * z + k)))
/-- The core of the zone in SHADOW. -/
def shadowOf (d : Dev) (z : Nat) : Option Nat := (List.range 26).find? (fun k => (chan d (coreChan (32 * z + k))).state == 2)

/-- R133: the weighted discipline is in force. -/
def weightedNow (d : Dev) (z : Nat) : Bool :=
  !d.life.zopen.testBit z || (shadowOf d z).isSome || (zoneFlights d z).any (fun f => f.group == 2) ||
    rb d (Rg.BAR_CTRL z) Fl.BAR_CTRL_FORCE_WEIGHTED

/-- A thread's own rank: 16 × band + level, the flight band being 1 (R127, R134). -/
def ownRank (d : Dev) (cid t : Nat) : Nat :=
  let x := thr d cid t
  if kernelThread x then (if !isHub cid && weightedNow d (cidZone cid) then 16 + x.level else x.level) else 16 + x.level

/-- The issue rank: the own rank or the highest raise (R145). -/
def issueRank (d : Dev) (cid t : Nat) : Nat :=
  (d.bar.raises.filter (fun r => r.cid == cid && r.t == t)).foldl (fun m r => max m (16 * r.band + r.level)) (ownRank d cid t)

/-! ## Locks and their reports (R354 to R360) -/

def modLku (d : Dev) (f : LockUnit → LockUnit) : Dev := { d with lku := f d.lku }
/-- The lock of an address: its aligned 8 bytes. -/
def lockOf (a : Nat) : Nat := a / 8 * 8
def lockEnt (d : Dev) (a : Nat) : Option LockEnt := d.lku.table.find? (fun e => e.addr == a)
def modLockEnt (d : Dev) (a : Nat) (f : LockEnt → LockEnt) : Dev :=
  modLku d (fun u => { u with table := u.table.map (fun e => if e.addr == a then f e else e) })

/-- Waiting rank (R357). -/
def waitRank (d : Dev) (w : LockWait) : Nat :=
  match w.host with
  | some _ => 16 + rf d Rg.LKU_CTRL Fl.LKU_CTRL_HOST_LEVEL
  | none => issueRank d w.cid w.t

/-- The first of the listed waiters by rank, then by arrival. -/
def topWaiter (d : Dev) (l : List LockWait) : Option LockWait :=
  match l with
  | [] => none
  | x :: r => some (r.foldl (fun a b =>
      if waitRank d a < waitRank d b || (waitRank d a == waitRank d b && b.order < a.order) then b else a) x)

/-- Waiters on a lock. -/
def waitersOf (d : Dev) (a : Nat) : List LockWait := d.lku.waiters.filter (fun w => w.stage == 0 && w.addr == a)

/-- Rank of a holder. -/
def holderRank (d : Dev) (h : Nat) : Nat :=
  if h / 2 ^ 29 == 0 then issueRank d (h % 256) (h / 2 ^ 8 % 8) else 16 + rf d Rg.LKU_CTRL Fl.LKU_CTRL_HOST_LEVEL

/-- R360: each lock whose highest waiter outranks its holder is reported when that rank rises. -/
def watchLocks (d : Dev) : Dev :=
  d.lku.table.foldl (fun d e =>
    match topWaiter d (waitersOf d e.addr) with
    | none => d
    | some w =>
      let r := waitRank d w
      if holderRank d e.holder < r && e.top < r + 1 then
        let d := modLockEnt d e.addr (fun x => { x with top := r + 1 })
        if e.holder / 2 ^ 29 == 0 then bump d Rg.LKU_PI_REPORTS 1
        else raise (bump d Rg.LKU_PI_HOST 1) (Rg.pageOf Rg.baseLKU) 1
      else d) d

/-- A change of discipline raises DISC (R133); ranks of kernel threads change with it. -/
def watchDisc (d : Dev) (z : Nat) : Dev :=
  let w := weightedNow d z
  if w == (barz d z).weighted then d
  else watchLocks (raise (modBarz d z (fun b => { b with weighted := w })) (Rg.pageOf (Rg.baseBAR z)) 2)

/-- Every raise of the thread is discarded (R145). -/
def dropRaises (d : Dev) (cid t : Nat) : Dev :=
  watchLocks (modBar d (fun b => { b with raises := b.raises.filter (fun r => !(r.cid == cid && r.t == t)) }))
/-- The thread reaches DONE or WAIT: every raise of its flight or item is discarded, and reports of locks that it took are ignored,
since those name its old tag (R144, R145). -/
def endWork (d : Dev) (cid t : Nat) : Dev :=
  let old := (thr d cid t).tag
  let d := newTag (modBar d (fun b => { b with raises := b.raises.filter (fun r => !(r.tag == old || (r.cid == cid && r.t == t))) }))
  let new := d.core.tags
  watchLocks { d with core := { d.core with threads := d.core.threads.map (fun e => if e.2.tag == old then (e.1, { e.2 with tag := new }) else e) } }

/-! ## Kernel queues (R138 to R140) -/

def itemsDflt : Nat → List W64 := fun _ => []
/-- Items queued at a place, in the order posted. -/
def items (d : Dev) (pl : Nat) : List W64 := tget itemsDflt d.bar.items pl
def setItems (d : Dev) (pl : Nat) (l : List W64) : Dev := modBar d (fun b => { b with items := tset itemsDflt b.items pl l })
def itemCore (v : W64) : Nat := v.toNat / 2 ^ 48 % 32
def itemLevel (v : W64) : Nat := v.toNat / 2 ^ 56 % 16
/-- The item with another core number. -/
def itemTo (v : W64) (k : Nat) : W64 :=
  BitVec.ofNat 64 (v.toNat - itemCore v * 2 ^ 48 + k * 2 ^ 48)
/-- Items kept for the event controller: BAR_KERNEL.EVENT_RESV in a zone; the hub queue keeps the factory number. -/
def eventResv (d : Dev) (pl : Nat) : Nat :=
  if pl == 0 then 64 else rf d (Rg.BAR_KERNEL (pl - 1)) Fl.BAR_KERNEL_EVENT_RESV

/-! ## The end of a flight (R124, R136, R161) -/

/-- A lane's verdict word with ACTION DROP and a reason (R161, R173). -/
def dropWith (v reason : Nat) : Nat := v / 2 ^ 16 * 2 ^ 16 + v % 2 ^ 14 / 2 ^ 6 * 2 ^ 6 + reason % 64

/-- The lanes of a started flight, with sequence word, timestamp and verdict word as its M holds them; whether one of
those reads is uncorrectable. -/
def laneWords (d : Dev) (cid home : Nat) (f : Flight) : List (Nat × Nat × Nat) × Bool × Dev :=
  (List.range f.lanes.length).foldl (fun (acc : List (Nat × Nat × Nat) × Bool × Dev) n =>
    let (sq, b1, d) := coreRead acc.2.2 cid 1 (mAddr home n 4) 4
    let (ts, b2, d) := coreRead d cid 1 (mAddr home n 8) 8
    let (vd, b3, d) := coreRead d cid 1 (mAddr home n 0x18) 8
    (acc.1 ++ [(sq, ts, vd)], acc.2.1 || b1 || b2 || b3, d)) ([], false, d)

/-- One lane goes to the reorder stage; its buffer passes from the thread when `owner` names it. -/
def laneOut (d : Dev) (z : Nat) (owner : Option Nat) (l : LaneInit) (sq ts vd : Nat) : Dev :=
  let d := match owner with
    | some o => handOver d l.handle 2 o 3 0
    | none => d
  let d := modBuf d (hKey l.handle) (fun b => if b.kind == 0 then b else { b with tstamp := BitVec.ofNat 64 ts })
  robArrive d z { dom := sq / 65536 % 2048, seq := sq % 65536, verdict := BitVec.ofNat 64 vd, handle := some l.handle,
                  arrival := tbIn d z, marked := l.marked, lossless := l.lossless }

/-- The threads of a flight. -/
def flightThreads (d : Dev) (id : Nat) : List Nat := (d.core.threads.filter (fun e => e.2.flight == some id)).map (·.1)

/-- Every thread of the flight becomes free. -/
def freeFlightThreads (d : Dev) (id : Nat) : Dev :=
  (flightThreads d id).foldl (fun d k => freeThread (dropRaises (clearPend d (k / 8) (k % 8)) (k / 8) (k % 8)) (k / 8) (k % 8)) d

/-- ZCTL: OTHER_BUSY of a zone: a flight or a kernel item uses the other bank (R182). -/
def otherBusy (d : Dev) (z : Nat) : Bool :=
  let o := 1 - activeBank d z
  (zoneFlights d z).any (fun f => f.bank == o) ||
    d.core.threads.any (fun e => e.1 / 8 / 32 == z && e.1 / 8 < 128 && e.2.state == 4 && e.2.bank == o)

/-- OTHER_FREE rises when OTHER_BUSY falls to 0 (R182). -/
def watchBank (d : Dev) (z : Nat) : Dev :=
  let b := otherBusy d z
  let was := tget (fun _ => false) d.egr.oldBusy z
  let d := { d with egr := { d.egr with oldBusy := tset (fun _ => false) d.egr.oldBusy z b } }
  if was && !b then raise d (Rg.pageOf (Rg.baseZCTL z)) 0 else d

/-! ### Former descriptor values of tables (R257) -/

def modTbl (d : Dev) (f : Tables → Tables) : Dev := { d with tbl := f d.tbl }
def tblEvent (d : Dev) (z n : Nat) : Dev := raise d (Rg.pageOf (Rg.baseTBL z)) n

/-- Flights of the zone (of any zone for an extension table) that use the former values `o`. -/
def oldInUse (d : Dev) (o : TblOld) : Bool :=
  d.bar.flights.any (fun f => (o.zone == 4 || f.zone == o.zone) && f.order < o.flights)
/-- TBL_CAPACITY.OLD_BUSY. -/
def oldBusy (d : Dev) (z t : Nat) : Bool := d.tbl.old.any (fun o => o.zone == z && o.tbl == t && o.busy && oldInUse d o)
/-- Kernel items that use the former values `o`. -/
def oldItems (d : Dev) (o : TblOld) : Bool :=
  d.core.threads.any (fun e => kernelThread e.2 && e.2.tag ≤ o.items && (o.zone == 4 || e.1 / 8 / 32 == o.zone))

/-- When the last flight that uses former values has finished, OLD_FREE rises; values in no use are dropped. -/
def watchOld (d : Dev) : Dev :=
  d.tbl.old.foldl (fun d o =>
    if o.busy && !oldInUse d o then
      let d := modTbl d (fun b => { b with old := b.old.map (fun y => if y = o then { y with busy := false } else y) })
      let more := oldBusy d o.zone o.tbl
      let d := if o.zone == 4 || more then d else tblEvent d o.zone 4
      modTbl d (fun b => { b with old := b.old.filter (fun y => y.busy || oldItems d y) })
    else d) d

/-! ### Flight formers (R121 to R125) -/

def formerDflt : Nat → Former := fun _ => {}
def former (d : Dev) (z pl : Nat) (x : Bool) : Former := tget formerDflt d.bar.formers (8 * z + 2 * pl + b2n x)
def modFormer (d : Dev) (z pl : Nat) (x : Bool) (f : Former → Former) : Dev :=
  modBar d (fun b => { b with formers := tmod formerDflt b.formers (8 * z + 2 * pl + b2n x) f })
def barPage (z : Nat) : Nat := Rg.pageOf (Rg.baseBAR z)
def barHeld (d : Dev) (z : Nat) : Bool := (page d (barPage z)).hold || (page d (barPage z)).group

/-- Free entries available to a former. -/
def availEntries (d : Dev) (z : Nat) (x : Bool) : Nat :=
  let free := 1024 - entriesGone d z 1 - (entriesUsed d z).length
  if x then free else free - rf d (Rg.BAR_EXPRESS z) Fl.BAR_EXPRESS_RESV

/-- R125: formers stop at 40 or fewer available entries and resume at 72 or more. -/
def watchFormers (d : Dev) (z : Nat) : Dev :=
  (List.range 8).foldl (fun d i =>
    let x := i % 2 == 1
    let a := availEntries d z x
    let f := former d z (i / 2) x
    if !f.stopped && a ≤ 40 then raise (modFormer d z (i / 2) x (fun f => { f with stopped := true })) (barPage z) 0
    else if f.stopped && 72 ≤ a then modFormer d z (i / 2) x (fun f => { f with stopped := false, backlog := true })
    else d) d

/-- The flight leaves: its entry is freed when no copy of it is left to run. -/
def endFlight (d : Dev) (f : Flight) : Dev :=
  let waits := f.copyOf.isNone && d.bar.flights.any (fun x => x.copyOf == some f.id)
  let d := if waits then modFlight d f.id (fun x => { x with finished := true }) else dropFlight d f.id
  watchFormers (watchOld (watchBank (watchDisc d f.zone) f.zone)) f.zone

/-! ## Re-execution (R135, R361) -/

/-- FLIGHT field of a holder identifier (R355). -/
def holdFlight (h : Nat) : Nat := h / 2 ^ 19 % 1024
/-- Holds of the flight's threads become orphaned, for the rebuilt flight `heir`. -/
def orphanHolds (d : Dev) (z entry heir : Nat) : Dev :=
  { d with lku := { d.lku with
      table := d.lku.table.map (fun e =>
        if e.holder / 2 ^ 29 == 0 && e.holder / 2 ^ 11 % 2 == 0 && holdFlight e.holder == entry && e.holder / 2 ^ 17 % 4 == z &&
            e.holder % 256 < 128
        then { e with orphan := true, heir := some heir } else e) } }

/-- Every lane of the flight leaves with verdict DROP and a reason, on the values it entered with. -/
def dropLanes (d : Dev) (f : Flight) (reason : Nat) : Dev :=
  f.lanes.foldl (fun d l =>
    let d := match f.owner with
      | some o => handOver d l.handle 2 o 3 0
      | none => d
    robArrive d f.zone { dom := l.dom, seq := l.seq, verdict := BitVec.ofNat 64 reason, handle := some l.handle,
                         arrival := tbIn d f.zone, marked := l.marked, lossless := l.lossless }) d

/-- A transient fault of a flight that runs on core `cid`: it waits to be rebuilt into group 2, or its lanes dropped with RETRY_FAILED when
it has been rebuilt before; a shadow copy is given up. -/
def rebuildFlight (d : Dev) (id cid : Nat) : Dev :=
  match flightById d id with
  | none => d
  | some f =>
    let d := freeFlightThreads d id
    match f.copyOf with
    | some o =>
      let d := dropFlight d id
      let d := match flightById d o with
        | some x => if x.finished then dropFlight d o else modFlight d o (fun x => { x with copied := true })
        | none => d
      watchFormers (watchOld (watchBank (watchDisc d f.zone) f.zone)) f.zone
    | none =>
      let d := (d.bar.flights.filter (fun x => x.copyOf == some id)).foldl (fun d c => freeFlightThreads d c.id) d
      let d := modBar d (fun b => { b with flights := b.flights.filter (fun x => x.copyOf != some id) })
      if f.group == 2 then endFlight (dropLanes d f 63) f
      else
        let d := nextSeq d
        let n := d.bar.seq
        let d := orphanHolds d f.zone f.entry n
        watchDisc (modFlight d id (fun x =>
          { x with id := n, group := 2, loc := .lost, faultCore := some cid, issues := 0, copied := true,
                   trace := [], results := [], verdicts := [] })) f.zone

/-! ## Traps (R170 to R173) -/

/-- The active lanes' verdict words become DROP with a reason. -/
def killVerdicts (d : Dev) (cid t : Nat) (lanes : List Nat) (reason : Nat) : Dev :=
  lanes.foldl (fun d n =>
    let a := mAddr (thr d cid t).home n 0x18
    let (v, _, d) := coreRead d cid 1 a 8
    coreWrite d cid 1 a 8 (dropWith v reason)) d

/-- The thread ends as by DONE (root) or by JOIN (child): it waits for its completion. -/
def endAsDone (d : Dev) (cid t : Nat) : Dev := modThr d cid t (fun x => { x with wait := .done })

/-- A kernel thread becomes HALTED: its item no longer runs (R181, R182). -/
def haltThread (d : Dev) (cid t : Nat) (dbl : Bool) : Dev :=
  let d := modThr d cid t (fun x => { x with state := 5, dbl := dbl })
  if isHub cid then d else watchBank d (cidZone cid)

/-- A trap: vector `cause`, instruction word `info`, lanes of the cause; a trap within a trap is a double trap. -/
def trap (d : Dev) (cid t cause : Nat) (info : W32) (lanes : Nat) : Dev :=
  let x := thr d cid t
  let d := pmc (coreCtr d cid Rg.CORE_TRAPS (some Rg.HCC_TRAPS)) cid 12 1 (kernelThread x) 0
  let last := BitVec.ofNat 32 (cause + t * 2 ^ 8 + x.pc * 2 ^ 16)
  let d := if isHub cid then wr d (Rg.HCC_TRAP_LAST (cid - 128)) last
    else wr d (Rg.CORE_TRAP_LAST cid) (last ||| BitVec.ofNat 32 (x.bank * 2 ^ 12))
  if x.inTrap then
    let d := coreCtr d cid Rg.CORE_DOUBLE_TRAPS (some Rg.HCC_DOUBLE_TRAPS)
    if kernelThread x then coreEvent (coreEvent (haltThread d cid t true) cid 0) cid 2
    else endAsDone (killVerdicts d cid t (bitsOf x.act 32) 62) cid t
  else
    modThr d cid t (fun x => { x with tpc := x.pc, tcause := cause, tinfo := info, tlanes := lanes, inTrap := true, pc := cause })

/-- An uncorrectable error in core memory met by a thread (R174): one fault on the core, the flight rebuilt, or a trap of
the kernel thread. `slot`: the read of a poisoned result slot, which counts no fault. -/
def coreUncorr (d : Dev) (cid t : Nat) (info : W32) (slot : Bool) : Dev :=
  let x := thr d cid t
  let d := if isHub cid || !kernelThread x then coreCtr d cid Rg.CORE_UNCORR (some Rg.HCC_UNCORR) else d
  let d := coreEvent d cid 3
  let d := if slot then d else noteFault d (coreChan cid) false
  if kernelThread x then trap d cid t 9 info x.act
  else match x.flight with
    | some id => rebuildFlight d id cid
    | none => d

/-! ## Retirement of a core (R386) -/

/-- Flights waiting in the queue. -/
def waiting (d : Dev) (z : Nat) : List Flight := (zoneFlights d z).filter (fun f => f.loc == .queued && f.copyOf.isNone)
/-- R141: the time since which GROW or more flights have waited. -/
def watchGrow (d : Dev) (z : Nat) : Dev :=
  let n := (waiting d z).length
  modBarz d z (fun b => { b with growSince := if rf d (Rg.BAR_PACK z) Fl.BAR_PACK_GROW ≤ n then b.growSince.or (some d.mc) else none })

/-- Cores of the set in a zone's packing. -/
def packed (d : Dev) (z : Nat) : List Nat := (serviceCores d z).filter (fun k => (barz d z).active.testBit k)
/-- The set of an opened zone holds the lowest-numbered cores in service, MIN_ACTIVE at least: a commit raised it, or a core left or
entered service, which leaves the size of the set (R141; the size DEDUCED, log 236). -/
def fillActive (d : Dev) (z : Nat) : Dev :=
  let n := max (bitsOf (barz d z).active 26).length (rf d (Rg.BAR_PACK z) Fl.BAR_PACK_MIN_ACTIVE)
  if d.life.zopen.testBit z then modBarz d z (fun b => { b with active := ofBits ((serviceCores d z).take n) }) else d

/-- A shadow copy leaves a slot before it has run: its original may be copied again, or ends when it has finished. -/
def dropCopy (d : Dev) (c : Flight) : Dev :=
  let d := modBarz (dropFlight d c.id) c.zone (fun b => { b with remain := b.remain + 1 })
  let d := match c.copyOf.bind (flightById d) with
    | some x => if x.finished then dropFlight d x.id else modFlight d x.id (fun x => { x with copied := false })
    | none => d
  watchBank d c.zone

/-- Flights in the core's slots return to the heads of their levels. -/
def unslot (d : Dev) (cid : Nat) : Dev :=
  let here := d.bar.flights.filter (fun f => f.loc == .slot cid)
  if here.isEmpty then d
  else
    let d := nextSeq d
    let n := d.bar.seq
    let d := here.foldl (fun d f => if f.copyOf.isSome then dropCopy d f else modFlight d f.id (fun x => { x with loc := .queued, back := n })) d
    watchGrow (watchFormers d (cidZone cid)) (cidZone cid)

/-- The core leaves service; `spare` is the core that takes its place. -/
def retireCore (d : Dev) (cid : Nat) (spare : Option Nat) : Dev :=
  let run := d.core.threads.filter (fun e => e.1 / 8 == cid)
  let ids := (run.filterMap (fun e => e.2.flight)).dedup
  let d := ids.foldl (fun d id => rebuildFlight d id cid) d
  let d := unslot d cid
  let dst := match spare with | some s => (if isHub s then s - 128 else cidCore s) | none => 31
  let own := run.filterMap (fun e => if e.2.state == 4 then e.2.item else none)
  let pl := cidPlace cid
  let me := if isHub cid then cid - 128 else cidCore cid
  let d := setItems d pl ((own.map (fun v => itemTo v dst)) ++ (items d pl).map (fun v => if itemCore v == me then itemTo v dst else v))
  let d := { d with core := { d.core with
    threads := d.core.threads.filter (fun e => e.1 / 8 != cid)
    stalls := d.core.stalls.filter (fun e => e.1 / 8 != cid) } }
  let d := modBar d (fun b => { b with raises := b.raises.filter (fun r => r.cid != cid) })
  let d := match spare with
    | some s => (List.range 8).foldl (fun d t => startRole d s t) d
    | none => d
  if isHub cid then d else watchBank (fillActive d (cidZone cid)) (cidZone cid)

end Sys2Proof.Machine
end

