-- ==== Sys2Proof/Machine/HbmOps.lean ====
section
/-!
DEFINITION. Global memory and the queues of the HBM controllers: the global address map (R229, R327, R342),
acceptance of a request by its bank (R330 to R333), the state of pseudo-channels that are served elsewhere or lost (R342), and reads
that meet an uncorrectable burst (R329).
-/

namespace Sys2Proof.Machine
open Sys2Proof

/-- FC cycles elapsed: four to an MC cycle (R6). -/
def fcNow (d : Dev) : Nat := 4 * d.mc

def modHbm (d : Dev) (f : Hbm → Hbm) : Dev := { d with hbm := f d.hbm }
def bankDflt : Nat → HBank := fun _ => {}
/-- Bank `b` of pseudo-channel `pc`. -/
def hbank (d : Dev) (pc b : Nat) : HBank := tget bankDflt d.hbm.banks (48 * pc + b)
def modBank (d : Dev) (pc b : Nat) (f : HBank → HBank) : Dev :=
  modHbm d (fun h => { h with banks := tmod bankDflt h.banks (48 * pc + b) f })

/-- HBM_STATUS.STATE of stack `s`. -/
def stackState (d : Dev) (s : Nat) : Nat := rf d (Rg.HBM_STATUS s) Fl.HBM_STATUS_STATE
/-- HBM page 0 of stack `s`. -/
def hbmPage (s : Nat) : Nat := Rg.pageOf (Rg.baseHBM s)

/-! ## Address map (R229, R327) -/

def hbmEnd : Nat := 0x1800000000
def spareBase : Nat := 0x17D0000000
def sramBase : Nat := 0x2000000000
def sramEnd : Nat := 0x2001000000

/-- The address lies in HBM and in no hole of it (R229, R339, R342). -/
def isHbm (d : Dev) (a : Nat) : Bool := !d.hbm.absent && (if d.hbm.pcSpare then a < spareBase else a < hbmEnd)
/-- The address lies in hub shared SRAM. -/
def isSram (a : Nat) : Bool := sramBase ≤ a && a < sramEnd
/-- `n` bytes at `a` are memory, aligned to their size. -/
def mapped (d : Dev) (a n : Nat) : Bool := n != 0 && a % n == 0 && (isHbm d a || isSram a)

/-- Pseudo-channel of an address. -/
def hbmPc (a : Nat) : Nat := (a / 2 ^ 8 % 128) ^^^ (a / 2 ^ 15 % 128) ^^^ (a / 2 ^ 22 % 128)
/-- Local block of an address. -/
def hbmBlock (a : Nat) : Nat := a / 2 ^ 15
/-- Bank and row of a local block. -/
def blockBank (b : Nat) : Nat := b / 4 % 48
def blockRow (b : Nat) : Nat := b / 4 / 48

/-- Blocks of a pseudo-channel that have a slot in the spare area, and slots of each other pseudo-channel (R342). -/
def spareBlocks : Nat := 3121152
def slotsEach : Nat := 24576
/-- The spare slot of block `b` of pseudo-channel `q`: another pseudo-channel and its local block. -/
def slotOf (q b : Nat) : Nat × Nat :=
  let t := b % 127
  (if t < q then t else t + 1, spareBlocks + b / 127)
/-- Where local block `b` of `pc` is served: its slot of the spare area once it has been copied (R342). -/
def servedAt (d : Dev) (pc b : Nat) : Nat × Nat :=
  if d.hbm.spareOf = some pc && b < spareBlocks && (2 ≤ d.hbm.copy || (d.hbm.copy == 1 && b < d.hbm.copied)) then slotOf pc b else (pc, b)
/-- A request to block `b` while its pseudo-channel is copied, block after block: whether the copy has passed it is a free value, and a
block that has been copied stays so. A request to the block being copied waits and goes to its slot (R342; DESIGN CHOICE, log 243). -/
def meetCopy (d : Dev) (pc b : Nat) : Dev :=
  if d.hbm.spareOf = some pc && d.hbm.copy == 1 && d.hbm.copied ≤ b && b < spareBlocks then
    if (freeVal d).getLsbD 0 then useFree (modHbm d (fun h => { h with copied := b + 1 })) else useFree d
  else d
/-- Address of local block `b` of pseudo-channel `pc`. -/
def blockAddr (pc b : Nat) : Nat := b * 2 ^ 15 + (pc ^^^ (b % 128) ^^^ (b / 128 % 128)) * 2 ^ 8
/-- Address whose data the local block `b` of `pc` holds: that of another pseudo-channel where the block is a slot in use. -/
def heldAddr (d : Dev) (pc b : Nat) : Nat :=
  match d.hbm.spareOf with
  | some q =>
    let n := 127 * (b - spareBlocks) + (if pc < q then pc else pc - 1)
    if spareBlocks ≤ b && pc != q && servedAt d q n == (pc, b) then blockAddr q n else blockAddr pc b
  | none => blockAddr pc b

/-- The address is served by a pseudo-channel that is RETIRED without the spare area: reads are poisoned, writes discarded. -/
def hbmLost (d : Dev) (a : Nat) : Bool := a < hbmEnd && d.hbm.lost.contains (servedAt d (hbmPc a) (hbmBlock a)).1

/-- The bursts of `n` bytes from `a`. -/
def bursts (a n : Nat) : List Nat := (List.range ((a + n - 1) / 32 + 1 - a / 32)).map (fun i => a / 32 + i)

/-- A read of `n` bytes at `a` returns a poisoned word. -/
def hbmPoisoned (d : Dev) (a n : Nat) : Bool := hbmLost d a || (bursts a n).any (fun b => d.hbm.poison.contains b)

/-- A write of `n` bytes at `a` clears the poison of the bursts it covers whole. -/
def clearPoison (d : Dev) (a n : Nat) : Dev :=
  modHbm d (fun h => { h with poison := h.poison.filter (fun b => !(a ≤ 32 * b && 32 * b + 32 ≤ a + n)) })

/-! ## Acceptance (R330 to R333) -/

/-- Two queued requests form a hazard pair: same row, one a read and one a write (R332). -/
def hazard (x y : HReq) : Bool := x.row == y.row && x.write != y.write

/-- One block's request enters its bank's queue. -/
def acceptBlock (d : Dev) (cls requester : Nat) (write : Bool) (a : Nat) : Dev :=
  let d := meetCopy d (hbmPc a) (hbmBlock a)
  let (pc, b) := servedAt d (hbmPc a) (hbmBlock a)
  let k := blockBank b
  let x : HReq := { cls := cls, row := blockRow b, write := write, requester := requester, at_ := fcNow d,
                    order := d.hbm.seq, promoted := false }
  let q := hbank d pc k
  let hz := q.q.any (fun y => hazard y x)
  let d := modHbm d (fun h => { h with seq := h.seq + 1 })
  let d := if hz && !q.inOrder then bump d (Rg.HBM_HAZARD (pc / 32)) 1 else d
  modBank d pc k (fun q => { q with q := q.q ++ [x], inOrder := q.inOrder || hz })

/-- A request for `n` bytes at HBM address `a`: one entry for every block it touches. Hub shared SRAM has no queue. -/
def hbmAccept (d : Dev) (cls requester : Nat) (write : Bool) (a n : Nat) : Dev :=
  if isHbm d a && !hbmLost d a && n != 0 then
    (List.range ((a + n - 1) / 256 + 1 - a / 256)).foldl (fun d i => acceptBlock d cls requester write (256 * (a / 256 + i))) d
  else d

/-- Bytes are written to global memory: discarded by a lost pseudo-channel. -/
def memPut (m : Memory) (d : Dev) (a : Nat) (l : List Byte) : Memory × Dev :=
  if hbmLost d a then (m, d)
  else (m.writeN a l, if isSram a then hubSramWrite d a l.length else clearPoison d a l.length)
/-- Write bytes to global memory, as a request of the class. -/
def memStore (m : Memory) (d : Dev) (cls requester a : Nat) (l : List Byte) : Memory × Dev :=
  memPut m (hbmAccept d cls requester true a l.length) a l

/-! ## Refresh (R336) -/

/-- The stack refreshes: it serves or naps, out of self-refresh. -/
def refreshes (d : Dev) (s : Nat) : Bool := stackState d s == 2 || stackState d s == 3
/-- The refresh interval of a stack in ns: 3.9 µs, half of it while HOT. -/
def refreshNs (d : Dev) (s : Nat) : Nat := if rb d (Rg.HBM_STATUS s) Fl.HBM_STATUS_HOT then 1950 else 3900
/-- When the next refresh of a pseudo-channel is due. -/
def refreshDue (d : Dev) (pc : Nat) : Nat := tget zeroN d.hbm.refAt pc + refreshNs d (pc / 32)

/-! ## Uncorrectable bursts (R329) -/

/-- The uncorrectable bursts of a read of `n` bytes at `a`: each is counted and reported by its stack, and counts one fault on the
pseudo-channel that serves it. A lost pseudo-channel has no faults left to count. -/
def noteUncorr (d : Dev) (a n : Nat) : Dev :=
  if hbmLost d a then d
  else ((bursts a n).filter (d.hbm.poison.contains ·)).foldl (fun d b =>
    let pc := (servedAt d (hbmPc (32 * b)) (hbmBlock (32 * b))).1
    noteFault (raise (bump d (Rg.HBM_UNCORR (pc / 32)) 1) (hbmPage (pc / 32)) 0) (pcChan pc) false) d
/-- A read of `n` bytes of one block as a request of the class: whether it is poisoned, and what the read does. -/
def hbmRead (d : Dev) (cls requester a n : Nat) : Bool × Dev :=
  let d := hbmAccept d cls requester false a n
  (hbmPoisoned d a n, noteUncorr d a n)

/-- A read of `n` bytes of global memory: in hub shared SRAM, or in HBM as a request of the class. -/
def memRead (d : Dev) (cls requester a n : Nat) : Bool × Dev :=
  if isSram a then hubSramRead d a n else hbmRead d cls requester a n

/-! ## Requests of class 5 (R342, R343, R540) -/

/-- `r` reads and `w` writes of class 5 that pseudo-channel `pc` has served while a copy, a pattern test or a clearing ran. How many rows
they opened depends on what was served between them, which is free (DESIGN CHOICE, log 244). -/
def serveOwn (d : Dev) (pc r w : Nat) : Dev :=
  let s := pc / 32
  let d := bump (bump (bump d (Rg.HBM_SERVED s 5) (r + w)) (Rg.HBM_READS s) r) (Rg.HBM_WRITES s) w
  useFree (bump d (Rg.HBM_ACTIVATES s) ((freeVal d).toNat % (r + w + 1)))
/-- The spare slots of the pseudo-channels other than `q` are read and written. -/
def serveSlots (d : Dev) (q r w : Nat) : Dev :=
  ((List.range 128).filter (· != q)).foldl (fun d pc => serveOwn d pc r w) d
/-- R540: every block of a stack is cleared. -/
def clearStack (d : Dev) (s : Nat) : Dev :=
  ((List.range 32).map (32 * s + ·)).foldl (fun d pc => if d.hbm.lost.contains pc then d else serveOwn d pc 0 3145728) d
/-- R540: HBM holds nothing: no burst is poisoned and no extension table has an entry. -/
def emptyHbm (d : Dev) : Dev :=
  let d := modHbm d (fun h => { h with poison := [] })
  { d with tbl := { d.tbl with ents := d.tbl.ents.filter (fun e => e.1 / 2 ^ 33 < 32 || 64 ≤ e.1 / 2 ^ 33) } }

/-! ## Accesses of more than one block -/

/-- The parts of `n` bytes from `a` that lie in one block each: address and bytes. -/
def blockParts (a n : Nat) : List (Nat × Nat) :=
  if n == 0 then []
  else (List.range ((a + n - 1) / 256 + 1 - a / 256)).map (fun i =>
    let k := 256 * (a / 256 + i)
    (max a k, min (a + n) (k + 256) - max a k))
def hbmAcceptAll (d : Dev) (cls requester : Nat) (write : Bool) (a n : Nat) : Dev :=
  (blockParts a n).foldl (fun d p => hbmAccept d cls requester write p.1 p.2) d
/-- A read of any number of bytes, as requests of the class: what it meets. -/
def hbmReadAll (d : Dev) (cls requester a n : Nat) : Bool × Dev :=
  (blockParts a n).foldl (fun acc p =>
    let (b, d) := hbmRead acc.2 cls requester p.1 p.2
    (acc.1 || b, d)) (false, d)
/-- A read of some part returns a poisoned word. -/
def hbmPoisonedAny (d : Dev) (a n : Nat) : Bool := (blockParts a n).any (fun p => hbmPoisoned d p.1 p.2)
/-- The parts of `n` bytes at `a` that lost pseudo-channels discard. -/
def lostParts (d : Dev) (a n : Nat) : List (Nat × Nat) := (blockParts a n).filter (fun p => hbmLost d p.1)
/-- A write of `n` bytes at `a` that made `m'` of memory `m`: the lost parts stay as they were. -/
def keepLost (m m' : Memory) (d : Dev) (a n : Nat) : Memory :=
  (lostParts d a n).foldl (fun x p => x.writeN p.1 (m.readN p.1 p.2)) m'
/-- Write any number of bytes, as requests of the class. -/
def memStoreAll (m : Memory) (d : Dev) (cls requester a : Nat) (l : List Byte) : Memory × Dev :=
  (keepLost m (m.writeN a l) d a l.length,
   if isSram a then hubSramWrite d a l.length else clearPoison (hbmAcceptAll d cls requester true a l.length) a l.length)

end Sys2Proof.Machine
end

