-- ==== Sys2Proof/Machine/LockOps.lean ====
section
/-!
DEFINITION. The lock unit's operations: holders, waiting ranks, requests, grants, releases and reports (R354 to R364).
-/

namespace Sys2Proof.Machine
open Sys2Proof

/-- Number of thread `t` of a core among the requesters (R348). -/
def reqOf (cid t : Nat) : Nat :=
  if isHub cid then 832 + 8 * (cid - 128) + t else 208 * cidZone cid + 8 * cidCore cid + t

/-- Holder identifier of a core thread (R355). -/
def threadHolder (d : Dev) (cid t : Nat) : Nat :=
  let x := thr d cid t
  let k := kernelThread x
  let entry := if k then 0 else match x.flight with
    | some id => (match flightById d id with | some f => f.entry | none => 0)
    | none => 0
  entry * 2 ^ 19 + (if isHub cid then 0 else cidZone cid * 2 ^ 17) + b2n k * 2 ^ 11 + t * 2 ^ 8 + cid
/-- Holder identifier of slot `i` of host `h`. -/
def hostHolder (h i : Nat) : Nat := (1 + h) * 2 ^ 29 + i * 2 ^ 11

def lkSlotDflt : Nat → LockSlot := fun _ => {}
def lkSlot (d : Dev) (h i : Nat) : LockSlot := tget lkSlotDflt d.lku.slots (64 * h + i)
def modLkSlot (d : Dev) (h i : Nat) (f : LockSlot → LockSlot) : Dev :=
  modLku d (fun u => { u with slots := tmod lkSlotDflt u.slots (64 * h + i) f })

/-- Give a result to a lane's slot. -/
def pushResult (d : Dev) (helper : Nat) (timed : Bool) (cid t home slot lane : Nat) (v : W64) (poison : Bool) (flight : Option Nat) : Dev :=
  if 4 ≤ slot then d
  else
    let r : HRes := ⟨helper, timed, cid, t, home, slot, lane, v, poison, flight⟩
    { d with inf := { d.inf with results := d.inf.results ++ [r] } }

/-- The thread that issued a LOCK, if it still runs that flight or item, is ready again. -/
def wakeLocked (d : Dev) (w : LockWait) : Dev :=
  modThr d w.cid w.t (fun x => if x.wait = .lock && x.flight == w.flight then { x with wait := .none } else x)

/-- The waiter's value, or its status word, leaves (R356, R364): the word as memory holds it now. -/
def grantTo (m : Memory) (d : Dev) (w : LockWait) : Dev :=
  let d := modLku d (fun u => { u with waiters := u.waiters.filter (fun x => !(x.order == w.order && x.lane == w.lane && x.host == w.host)) })
  match w.host with
  | some k =>
    let word := BitVec.ofNat 32 (2 ^ 31 + hostHolder (k / 64) (k % 64))
    if (lkSlot d (k / 64) (k % 64)).stall.isSome then
      emit (modLkSlot d (k / 64) (k % 64) (fun s => { s with stall := none })) (.lockReply (k / 64) (k % 64) word)
    else modLkSlot d (k / 64) (k % 64) (fun s => { s with kept := some word })
  | none =>
    let (bad, d) := memRead d 4 (reqOf w.cid w.t) w.word w.size
    let d := pushResult d 7 false w.cid w.t w.home w.slot w.lane (BitVec.ofNat 64 (m.be w.word w.size)) bad w.flight
    if d.lku.waiters.any (fun x => x.host.isNone && x.cid == w.cid && x.t == w.t && x.flight == w.flight) then d
    else wakeLocked d w

/-- Holder identifier of a waiter. -/
def waiterHolder (w : LockWait) : Nat :=
  match w.host with
  | some k => hostHolder (k / 64) (k % 64)
  | none => w.holder

/-- The flight rebuilt from the one that issued a waiting LOCK: that one has failed, its LOCK completes all the same (R135, R221), and
its hold is orphaned from the start (DESIGN CHOICE, log 237). -/
def heirOf (d : Dev) (w : LockWait) : Option Nat :=
  match w.flight with
  | none => none
  | some id =>
    if w.host.isSome || (flightById d id).isSome then none
    else ((zoneFlights d (w.holder / 2 ^ 17 % 4)).find? (fun f => f.entry == holdFlight w.holder && f.group == 2)).map (·.id)

/-- The hold passes to waiter `w` and to the lanes of the same LOCK on the same lock, each of which is to be granted. -/
def passTo (d : Dev) (w : LockWait) : Dev :=
  let heir := heirOf d w
  let e : LockEnt := { addr := w.addr, holder := waiterHolder w, orphan := heir.isSome, start := nowNs d, aged := false,
                       tag := if w.host.isSome then 0 else w.tag, top := 0, order := w.order, heir := heir }
  let d := modLku d (fun u => { u with
    table := u.table.filter (fun x => x.addr != w.addr) ++ [e]
    waiters := u.waiters.map (fun x => if x.addr == w.addr && x.order == w.order && x.host == w.host then { x with stage := 2 } else x) })
  bump d Rg.LKU_GRANTS 1

/-- A free entry of the table goes to the highest waiter of the full list; one whose lock is held waits on the lock. -/
def fillTable (d : Dev) : Nat → Dev
  | 0 => d
  | n + 1 =>
    if 4096 ≤ d.lku.table.length then d
    else match topWaiter d (d.lku.waiters.filter (fun w => w.stage == 1)) with
      | none => d
      | some w =>
        match lockEnt d w.addr with
        | some _ =>
          fillTable (modLku d (fun u => { u with waiters := u.waiters.map (fun x =>
            if x.stage == 1 && x.addr == w.addr then { x with stage := 0 } else x) })) n
        | none => fillTable (passTo d w) n

/-- A release reaches the lock unit (R358): the lock passes to its highest waiter or its entry is freed; answers whether a
lock was held. -/
def releaseLock (d : Dev) (a : Nat) : Dev × Bool :=
  match lockEnt d a with
  | none => (bump d Rg.LKU_UNLK_NONE 1, false)
  | some _ =>
    let d := modBar d (fun b => { b with raises := b.raises.filter (fun r => r.addr != a) })
    let d := match topWaiter d (waitersOf d a) with
      | some w => passTo d w
      | none => fillTable (modLku d (fun u => { u with table := u.table.filter (fun x => x.addr != a) })) 4096
    (watchLocks d, true)

/-- A request reaches the lock unit: granted at once, passed on from an orphaned hold to its rebuilt flight (R361), or it
waits. -/
def requestLock (m : Memory) (d : Dev) (w : LockWait) : Dev :=
  let d0 := modLku d (fun u => { u with waiters := u.waiters ++ [w] })
  match lockEnt d w.addr with
  | none =>
    if d.lku.table.length < 4096 then grantTo m (passTo d0 w) w
    else
      let d := bump (bump (modLku d (fun u => { u with waiters := u.waiters ++ [{ w with stage := 1 }] })) Rg.LKU_FULL_WAIT 1)
        Rg.LKU_CONTENDED (if w.host.isNone then 1 else 0)
      raise d (Rg.pageOf Rg.baseLKU) 0
  | some e =>
    if e.orphan && e.heir.isSome && w.host.isNone && e.heir == w.flight then grantTo m (bump (passTo d0 w) Rg.LKU_TAKEOVER 1) w
    else if e.order == w.order && e.holder == w.holder && w.host.isNone then
      -- a further lane of the LOCK that has just taken this lock (R233; one that names the other word of its 8 bytes too, log 235)
      grantTo m d0 w
    else watchLocks (bump d0 Rg.LKU_CONTENDED (if w.host.isNone then 1 else 0))

/-- The waiting lanes of a zone are withdrawn and receive poisoned results (R362). -/
def withdrawZone (d : Dev) (z : Nat) : Dev :=
  let mine (w : LockWait) : Bool := w.host.isNone && w.cid < 128 && cidZone w.cid == z
  let l := d.lku.waiters.filter mine
  let d := modLku d (fun u => { u with waiters := u.waiters.filter (fun w => !mine w) })
  l.foldl (fun d w => wakeLocked (pushResult d 7 false w.cid w.t w.home w.slot w.lane 0 true w.flight) w) d

end Sys2Proof.Machine
end

