-- ==== Sys2Proof/Machine/HostReset.lean ====
section
/-!
DEFINITION. The link of a host port as the retirement of its lanes and its host change it, and the reset of its function (R386,
R387, R404, R419).
-/

namespace Sys2Proof.Machine
open Sys2Proof

/-- Rings of a kind. -/
def ringCount (kind : Nat) : Nat := match kind with | 0 | 1 => 64 | 2 => 8 | _ => 4

/-- Every ring of a host as (kind, number). -/
def hostRings : List (Nat × Nat) := (List.range 4).flatMap (fun k => (List.range (ringCount k)).map (fun r => (k, r)))

/-- The slot's queued request. -/
def slotWaiter (d : Dev) (h i : Nat) : Option LockWait := d.lku.waiters.find? (fun w => w.host == some (64 * h + i))
/-- A queued request is withdrawn; a lock that had passed to it is released again. -/
def slotCancel (d : Dev) (h i : Nat) : Dev :=
  match slotWaiter d h i with
  | none => d
  | some w =>
    let d := modLku d (fun u => { u with waiters := u.waiters.filter (fun x => x.host != some (64 * h + i)) })
    if w.stage == 2 then (releaseLock d w.addr).1 else d

/-- A function reset: configuration space at its reset values, every ring out of service, work in progress abandoned, queued
lock requests withdrawn. -/
def resetFunction (d : Dev) (h : Nat) : Dev :=
  let was := inD3 d h
  let d := wf (wf (wf d (Rg.HIF_STATUS h) Fl.HIF_STATUS_D3HOT 0) (Rg.HIF_STATUS h) Fl.HIF_STATUS_BME 0) (Rg.HIF_STATUS h) Fl.HIF_STATUS_HELD_IRQ 0
  let d := modHif d (fun x => { x with
    open_ := tset zeroN x.open_ h 0, pend := tset zeroN x.pend h 0, held := tset zeroN x.held h 0
    pmeEn := tset (fun _ => false) x.pmeEn h false, pmeStatus := tset (fun _ => false) x.pmeStatus h false })
  let d := if was then raise d (hifPage h) 1 else d
  let d := hostRings.foldl (fun d e =>
    let d := modRing (wf d (ringCtl h e.1 e.2) Fl.PRING_CTL_ENABLE 0) h e.1 e.2 (fun x => { x with timer := none, held := [], wait := none })
    if e.1 == 0 then
      (puntJobs d h e.2).foldl (fun d j => freeBy d j.handle 6 (128 * h + e.2)) (setPuntJobs d h e.2 [])
    else d) d
  (List.range 64).foldl (fun d i => modLkSlot (slotCancel d h i) h i (fun x => { x with stall := none })) d

/-- Width code of host `h`: the widest of x8, x4, x2, x1 whose lanes are in use, from lane 0 or from lane 7; a lane under test is (R386,
R389). -/
def hostWidth (d : Dev) (h : Nat) : Nat :=
  let ok (l : Nat) : Bool := (chan d (chanKey 7 0 h l)).state ≤ 2
  let run (n : Nat) : Bool := (List.range n).all ok || (List.range n).all (fun i => ok (7 - i))
  if run 8 then 4 else if run 4 then 3 else if run 2 then 2 else if run 1 then 1 else 0

/-- The link of host `h` retrains to a width, speed and PM state: a change rises as LINK, and a link that goes down resets the function
(R404, R419). -/
def linkTo (d : Dev) (h width speed pm : Nat) : Dev :=
  let r := Rg.HIF_STATUS h
  let old := rd d r
  let up := b2n (width != 0)
  let d := wf (wf (wf d r Fl.HIF_STATUS_WIDTH width) r Fl.HIF_STATUS_SPEED (up * speed)) r Fl.HIF_STATUS_LINK_PM (up * pm)
  if rd d r == old then d
  else
    let d := raise d (hifPage h) 0
    if width == 0 then resetFunction d h else d

/-- A lane of a host has been retired: the link retrains without it, to no more than its width; without a lane the function is down (R387). -/
def hostLanes (d : Dev) (h : Nat) : Dev :=
  let r := Rg.HIF_STATUS h
  linkTo d h (min (hostWidth d h) (rf d r Fl.HIF_STATUS_WIDTH)) (rf d r Fl.HIF_STATUS_SPEED) (rf d r Fl.HIF_STATUS_LINK_PM)

end Sys2Proof.Machine
end

