-- ==== Sys2Proof/Machine/Crc.lean ====
section
/-!
DEFINITION. The cyclic redundancy codes of frames and hashes: CRC-32 of IEEE 802.3 for the FCS, CRC-32C for key and hash
functions (R71, R98, R224, R226), the ones-complement sum of R226 and the Toeplitz hash.
-/

namespace Sys2Proof.Machine
open Sys2Proof

/-- One bit of a reflected CRC with polynomial `p`. -/
def crcBit (p c : W32) : W32 := if c.getLsbD 0 then (c >>> 1) ^^^ p else c >>> 1
/-- One byte. -/
def crcByte (p c : W32) (b : Byte) : W32 :=
  let c := c ^^^ b.setWidth 32
  crcBit p (crcBit p (crcBit p (crcBit p (crcBit p (crcBit p (crcBit p (crcBit p c)))))))
/-- Reflected CRC over bytes from an initial register, not complemented at the end. -/
def crcOver (p c : W32) (l : List Byte) : W32 := l.foldl (crcByte p) c

/-- The polynomial of IEEE 802.3, reflected. -/
def polyIeee : W32 := 0xEDB88320
/-- The Castagnoli polynomial, reflected. -/
def polyC : W32 := 0x82F63B78
/-- CRC-32 of a frame. -/
def crc32 (l : List Byte) : W32 := ~~~(crcOver polyIeee 0xFFFFFFFF l)
/-- The register after CRC-32C over bytes from a stated initial value, without final inversion (R98). -/
def crc32cRaw (init : W32) (l : List Byte) : W32 := crcOver polyC init l
/-- The standard CRC-32C. -/
def crc32c (l : List Byte) : W32 := ~~~(crc32cRaw 0xFFFFFFFF l)

/-- The FCS of a frame, as sent: least significant byte first. -/
def fcs (l : List Byte) : List Byte := leBytes 4 (crc32 l).toNat
/-- The last four bytes are the FCS of the others. -/
def fcsGood (l : List Byte) : Bool := 4 ≤ l.length && l.drop (l.length - 4) == fcs (l.take (l.length - 4))

/-- Sum of big-endian 16-bit words, an odd span padded with a zero byte. -/
def sum16 : List Byte → Nat
  | [] => 0
  | [a] => a.toNat * 256
  | a :: b :: r => a.toNat * 256 + b.toNat + sum16 r
/-- Fold carries into 16 bits. -/
def fold16 : Nat → Nat → Nat
  | 0, x => x
  | n + 1, x => if x < 65536 then x else fold16 n (x / 65536 + x % 65536)
/-- Ones-complement sum with an initial value. -/
def ones16 (init : Nat) (l : List Byte) : Nat := fold16 6 (init + sum16 l)

/-- Bits of a byte list, most significant first. -/
def bitsBE (l : List Byte) : List Bool := l.flatMap (fun b => (List.range 8).map (fun i => b.toNat.testBit (7 - i)))

end Sys2Proof.Machine
end

