-- ==== Sys2Proof/Machine/LinkOps.lean ====
section
/-!
DEFINITION. Die links as other blocks change them: narrowing (R20) and a zone that cuts itself off (R22, R278, R293, R362,
R392, R393).
-/

namespace Sys2Proof.Machine
open Sys2Proof

/-- Rate of the timebase, in 2^-32 ns per MC cycle (R444). -/
def tbRate (d : Dev) : Nat := rd64 d Rg.TB_RATE_LO Rg.TB_RATE_HI % 2 ^ 40

/-- A frame of the VOQ that isolation of zone `z` cuts off: a copy of one of its buffers, a copy that crosses its link,
or a frame between it and another zone. -/
def cutOff (z vz v : Nat) (x : Desc) : Bool :=
  let pz := portZone (v / 8)
  let bz := hZone x.handle
  (x.copy && (bz == z || pz == z)) || (vz != pz && (vz == z || pz == z))

/-- The frames of one VOQ that are cut off are dropped and counted: those in cells, and the chain of a VOQ of another zone that
leads to a port of this one. -/
def cutVoq (d : Dev) (z vz v : Nat) : Dev :=
  let (d, n) := if vz != z && portZone (v / 8) == z && (voq d vz v).spill then emptyChain d vz v else (d, 0)
  let d := bump d (Rg.XB_ISO_DROP z) n
  let q := voq d vz v
  let l := q.q.filter (cutOff z vz v)
  let d := modVoq d vz v (fun q => { q with q := q.q.filter (fun x => !cutOff z vz v x) })
  bump (l.foldl (fun d x => dropDesc d v x) d) (Rg.XB_ISO_DROP z) l.length

/-- Staged copies that cross the zone's link are dropped. -/
def cutStaging (d : Dev) (z key : Nat) : Dev :=
  let cut (f : Desc × Nat × List Byte × W64) : Bool := f.1.copy && (f.2.1 == z || portZone (key / 8) == z)
  let n := ((staging d (key / 8) (key % 8)).frames.filter cut).length
  if n == 0 then d
  else bump (modStaging d (key / 8) (key % 8) (fun s => { s with frames := s.frames.filter (fun f => !cut f) })) (Rg.XB_ISO_DROP z) n

/-- The spill chains of a zone are discarded (R293). -/
def cutChains (d : Dev) (z : Nat) : Dev :=
  (zoneVoqs d z).foldl (fun d e =>
    let (d, n) := emptyChain d z (e.1 % 2048)
    bump d (Rg.SPILL_DROP z) n) d

/-- Zone `z` isolates itself. -/
def isolateZone (d : Dev) (z : Nat) : Dev :=
  if isolated d z then d
  else
    let keep : ZoneTb := { tb := d.tb, rate := d.ket.rate }
    let lvl := level d z
    let d := { d with ket := { d.ket with ztb := tset (fun _ => none) d.ket.ztb z (some keep),
                                          kept := tset (fun _ => none) d.ket.kept z (some lvl) } }
    let d := modLink d z (fun l => { l with state := 4, isolated := true, rebuilding := false, tried := nowNs d })
    let d := withdrawZone d z
    let d := cutChains d z
    let d := d.urn.voqs.foldl (fun d e => cutVoq d z (e.1 / 2048) (e.1 % 2048)) d
    d.egr.staging.foldl (fun d e => cutStaging d z e.1) d

/-- R20: a permanent lane without a spare narrows the link by 32 lanes; below 256 lanes the zone isolates itself. -/
def narrowLink (d : Dev) (z : Nat) (toHub : Bool) : Dev :=
  let d := modDir d z toHub (fun x => { x with lost := min 16 (x.lost + 1) })
  if dirLanes (dirOf (lnk d z) toHub) < 256 then isolateZone d z else d

end Sys2Proof.Machine
end

