-- ==== Sys2Proof/Machine/TableOps.lean ====
section
/-!
DEFINITION. On-die and extension tables: descriptor values in force (R236, R257, R266), keys and matching (R238, R239),
placement and insertion (R240, R241), removal, aging times (R253), learn events (R252), frozen and held tables (R249, R259),
and the distribution of master writes (R247).
-/

namespace Sys2Proof.Machine
open Sys2Proof

def entDflt : Nat → TEnt := fun _ => {}
/-- Key of an entry: place 0 the hub (tables 32 + x are the extension tables), 1 + z zone z; region 0 A, 1 B. -/
def entKey (pl t r pos : Nat) : Nat := ((64 * pl + t) * 2 + r) * 2 ^ 32 + pos
def ent (d : Dev) (pl t r pos : Nat) : TEnt := tget entDflt d.tbl.ents (entKey pl t r pos)
/-- The listed entries of a region, by position. -/
def regionEnts (d : Dev) (pl t r : Nat) : List (Nat × TEnt) :=
  (d.tbl.ents.filter (fun e => e.1 / 2 ^ 32 == (64 * pl + t) * 2 + r)).map (fun e => (e.1 % 2 ^ 32, e.2))
/-- Position of stash slot `s` (R240). -/
def stashPos (s : Nat) : Nat := 0x80000000 + s
def isStash (pos : Nat) : Bool := 0x80000000 ≤ pos

/-! ## Descriptors -/

/-- Descriptor values. `ty` as TBL_DESC.TYPE; `ext`: an extension table. -/
structure TDesc where
  ty : Nat
  ext : Bool
  repl : Bool
  keyBytes : Nat
  evict : Nat
  evEn : Bool
  evHost : Nat
  bank : Nat
  base : Nat → Nat
  size : Nat → Nat
  tick : Nat
  limit : Nat
  miss : Nat

/-- The values of a descriptor's six registers. -/
def tdescOf (l : List W32) : TDesc :=
  let w (i : Nat) : W32 := l.getD i 0
  let g (i : Nat) (f : Fld) : Nat := getF (w i) f
  { ty := g 0 Fl.TBL_DESC_TYPE, ext := false, repl := g 0 Fl.TBL_DESC_SCOPE == 1, keyBytes := g 0 Fl.TBL_DESC_KEY_BYTES
    evict := g 0 Fl.TBL_DESC_EVICT, evEn := g 0 Fl.TBL_DESC_EVENT_EN == 1, evHost := g 0 Fl.TBL_DESC_EVENT_HOST
    bank := g 0 Fl.TBL_DESC_BANK
    base := fun r => g (1 + r) Fl.TBL_REGION_A_BASE, size := fun r => g (1 + r) Fl.TBL_REGION_A_SIZE
    tick := g 3 Fl.TBL_AGE_TICK_MS, limit := g 3 Fl.TBL_AGE_LIMIT
    miss := (w 4).toNat + g 5 Fl.TBL_MISS_HI_MISS * 2 ^ 32 }

/-- The values of an extension descriptor's five registers. -/
def xdescOf (l : List W32) : TDesc :=
  let w (i : Nat) : W32 := l.getD i 0
  let g (i : Nat) (f : Fld) : Nat := getF (w i) f
  { ty := g 0 Fl.HTB_XDESC_TYPE, ext := true, repl := false, keyBytes := g 0 Fl.HTB_XDESC_KEY_BYTES, evict := 0
    evEn := g 0 Fl.HTB_XDESC_EVENT_EN == 1, evHost := g 0 Fl.HTB_XDESC_EVENT_HOST, bank := 0
    base := fun _ => g 1 Fl.HTB_XREGION_BASE, size := fun _ => g 1 Fl.HTB_XREGION_SIZE
    tick := g 2 Fl.HTB_XAGE_TICK_MS, limit := g 2 Fl.HTB_XAGE_LIMIT
    miss := (w 3).toNat + g 4 Fl.HTB_XMISS_HI_MISS * 2 ^ 32 }

/-- The registers of table `t` of zone `z`; of extension table `t` where `z` is 4. -/
def descRegs (d : Dev) (z t : Nat) : List W32 :=
  if z == 4 then (List.range 5).map (fun i => rd d (Rg.HTB_XDESC t + 4 * i))
  else (List.range 6).map (fun i => rd d (Rg.TBL_DESC z t + 4 * i))
def toDesc (z : Nat) (l : List W32) : TDesc := if z == 4 then xdescOf l else tdescOf l
/-- The values in effect at a place: of the zone, of the extension table, or of the master, which follows its descriptor
(zone 0 stands for the four equal ones). Without HBM the extension tables are disabled (R339). -/
def descAt (d : Dev) (pl t : Nat) : TDesc :=
  if 32 ≤ t then (let x := toDesc 4 (descRegs d 4 (t - 32)); if d.hbm.absent then { x with ty := 0 } else x)
  else toDesc 0 (descRegs d (pl - 1) t)

/-- R257: the registers that a flight or kernel item uses: those in effect when it closed or began. -/
def regsFor (d : Dev) (z t : Nat) (order : Option Nat) (tag : Nat) : List W32 :=
  let mine (o : TblOld) : Bool := o.zone == z && o.tbl == t && (match order with | some n => n < o.flights | none => tag ≤ o.items)
  match d.tbl.old.find? mine with
  | some o => o.regs
  | none => descRegs d z t

/-! ## Sizes (R236, R260) -/

/-- Bytes of an entry in table SRAM, or of an extension entry. -/
def entBytes (x : TDesc) : Nat :=
  if x.ext then (if x.ty == 1 && 16 < x.keyBytes then 64 else 32)
  else match x.ty with
    | 1 => 12 + 16 * cdiv x.keyBytes 16
    | 2 => 4
    | 3 => 12
    | _ => 8
/-- Address of an entry of an extension table. -/
def extAddr (x : TDesc) (pos : Nat) : Nat := x.base 0 * 2 ^ 26 + pos * entBytes x
/-- Bytes of region `r`. -/
def regionBytes (x : TDesc) (r : Nat) : Nat := x.size r * (if x.ext then 2 ^ 26 else 65536)
/-- Positions of region `r`, stash excluded. -/
def capacity (x : TDesc) (r : Nat) : Nat :=
  if x.ext then regionBytes x r / entBytes x
  else match x.ty with
    | 0 => 0
    | 1 => regionBytes x r / entBytes x / 4 * 4
    | 4 => x.size r * 1024
    | _ => regionBytes x r / entBytes x
/-- Capacity of a whole region: guaranteed for an extension table. -/
def shownCapacity (x : TDesc) (r : Nat) : Nat :=
  if x.ty == 0 then 0 else if x.ext && x.ty == 1 then 85 * capacity x r / 100 else capacity x r
/-- Bytes of a key, without the length byte of LPM. -/
def keyLen (x : TDesc) : Nat := match x.ty with | 2 => 6 | 3 => 18 | _ => x.keyBytes
/-- A position exists. -/
def posOk (x : TDesc) (r pos : Nat) : Bool := pos < capacity x r || (x.ty == 1 && !x.ext && isStash pos && pos < stashPos 256 && x.size r != 0)

/-! ## Stored words (R373, R376, R539) -/

/-- The SRAM words that hold an entry. -/
def entWords (pl t r : Nat) (x : TDesc) (pos : Nat) : List PartWord :=
  if x.ext then []
  else if x.ty == 1 && isStash pos then
    if pl == 0 then [] else (List.range 10).map (fun i => ⟨15 * 2048 + 2 * t + r, 10 * (pos - 0x80000000) + i, true⟩)
  else if x.ty == 4 then
    if pl == 0 then []
    else (List.range 11).map (fun i => ⟨8 * 2048 + x.base r + pos / 1024, 11 * (pos % 1024) + i, true⟩)
  else
    let b := x.base r * 65536 + pos * entBytes x
    let l := b + entBytes x
    ((List.range ((l - 1) / 8 + 1 - b / 8)).map (fun i =>
      let w := b / 8 + i
      let u := w / 8192
      ⟨(if pl == 0 then 2 * 2048 else 7 * 2048) + u / 16, 8192 * (u % 16) + w % 8192, b ≤ 8 * w && 8 * w + 8 ≤ l⟩))

/-- The entries that word `w` of an array holds bytes of: table, region, position. -/
def entsAt (d : Dev) (pl n w : Nat) : List (Nat × Nat × Nat) :=
  let kind := n / 2048
  if (if pl == 0 then kind != 2 else kind != 7 && kind != 8 && kind != 15) then []
  else if pl != 0 && kind == 15 then
    let t := n % 2048 / 2
    if (descAt d pl t).ty == 1 && w < 2560 then [(t, n % 2, stashPos (w / 10))] else []
  else
    (List.range 32).flatMap (fun t =>
      let x := descAt d pl t
      if (x.ty == 4) != (pl != 0 && kind == 8) then []
      else [0, 1].flatMap (fun r =>
        let u := if x.ty == 4 then n % 2048 else 16 * (n % 2048) + w / 8192
        if u < x.base r || x.base r + x.size r ≤ u then []
        else if x.ty == 4 then (if w / 11 < 1024 then [(t, r, (u - x.base r) * 1024 + w / 11)] else [])
        else
          let b := (u - x.base r) * 65536 + w % 8192 * 8
          let e := entBytes x
          ((List.range ((b + 7) / e + 1 - b / e)).map (fun i => (t, r, b / e + i))).filter (fun q => q.2.2 < capacity x r)))

/-- A stored word reads uncorrectable. -/
def wordBad (x : SWord) : Bool := x.valid && (x.poison || (x.chk != 0 && (Config.eccFix x.chk).isNone))
/-- Places whose withdrawn rows take positions of a table: its own; of a replicated table, whose entries stand at the same positions
everywhere, the master's and every zone's (R387; DEDUCED, log 263). -/
def goneIn (x : TDesc) (pl : Nat) : List Nat := if x.repl then [0, 1, 2, 3, 4] else [pl]
/-- A position is unusable: a row of its words is withdrawn. -/
def posGone (d : Dev) (pl t r : Nat) (x : TDesc) (pos : Nat) : Bool :=
  (goneIn x pl).any (fun q => !(rowsGone d q).isEmpty && (entWords q t r x pos).any (fun e => rowWithdrawn d q e.arr (e.word / 128)))
/-- The positions that a withdrawn row holds words of. -/
def rowEnts (d : Dev) (pl n row : Nat) : List (Nat × Nat × Nat) :=
  ((List.range 128).flatMap (fun i => entsAt d pl n (128 * row + i))).dedup
/-- Unusable positions of a region, stash excluded. -/
def gonePos (d : Dev) (pl t r : Nat) (x : TDesc) : List Nat :=
  ((goneIn x pl).flatMap (fun q => (rowsGone d q).flatMap (fun e =>
    ((rowEnts d q e.1 e.2).filter (fun y => y.1 == t && y.2.1 == r && !isStash y.2.2)).map (·.2.2)))).dedup
/-- An entry's word, or its HBM burst, is poisoned: its contents are unreadable (R241, R329). -/
def entBad (d : Dev) (pl t r : Nat) (x : TDesc) (pos : Nat) : Bool :=
  if x.ext then hbmPoisoned d (extAddr x pos) (entBytes x)
  else posGone d pl t r x pos || (entWords pl t r x pos).any (fun e => wordBad (sword d pl e.arr e.word))

/-- Word `i` of a stored ternary entry: value, mask, data (R539). -/
def ternWord (e : TEnt) (i : Nat) : W64 :=
  if i < 5 then BitVec.ofNat 64 (beAt e.key (8 * i) 8) else if i < 10 then BitVec.ofNat 64 (beAt e.mask (8 * (i - 5)) 8) else e.data
/-- A ternary entry with word `i` stored as `v`; a search compares and returns these bits as they stand (R373). -/
def putTernWord (e : TEnt) (i : Nat) (v : W64) : TEnt :=
  let pad (l : List Byte) : List Byte := l ++ List.replicate (40 - l.length) 0
  if i < 5 then { e with key := patch (pad e.key) (8 * i) (beBytes 8 v.toNat) }
  else if i < 10 then { e with mask := patch (pad e.mask) (8 * (i - 5)) (beBytes 8 v.toNat) }
  else { e with data := v }
def modEnt (d : Dev) (pl t r pos : Nat) (f : TEnt → TEnt) : Dev :=
  modTbl d (fun b => { b with ents := tmod entDflt b.ents (entKey pl t r pos) f })
/-- A checked read of word `i` of a ternary entry, whose bits its entry holds: what the code corrects is corrected there. -/
def checkTern (d : Dev) (pl t r pos i : Nat) (w : PartWord) : Bool × Dev :=
  let s := sword d pl w.arr w.word
  let (_, bad, d) := checkWord d pl w.arr w.word
  match (if s.valid && !s.poison && s.chk != 0 then Config.eccFix s.chk else none) with
  | some m => (bad, modEnt d pl t r pos (fun e => putTernWord e i (ternWord e i ^^^ m.setWidth 64)))
  | none => (bad, d)

/-- A checked read of the entry's words: whether it is uncorrectable, and what the read does. -/
def readEnt (d : Dev) (pl t r : Nat) (x : TDesc) (pos : Nat) : Bool × Dev :=
  (entWords pl t r x pos).zipIdx.foldl (fun (acc : Bool × Dev) e =>
    let (bad, d) := if x.ty == 4 then checkTern acc.2 pl t r pos e.2 e.1
      else let (_, bad, d) := checkWord acc.2 pl e.1.arr e.1.word; (bad, d)
    (acc.1 || bad, d)) (false, d)
/-- Write an entry whole: one atomic write that covers its words (R242), which a lost pseudo-channel discards (R342). Bit 63 of its data is
not kept (R239). A word that the entry covers only in part keeps its poison (R376). -/
def writeEnt (d : Dev) (pl t r : Nat) (x : TDesc) (pos : Nat) (e : TEnt) : Dev :=
  if x.ext && hbmLost d (extAddr x pos) then d
  else
    let e := { e with data := BitVec.ofNat 64 (e.data.toNat % 2 ^ 63) }
    let d := modTbl d (fun b => { b with ents := tset entDflt b.ents (entKey pl t r pos) e })
    if x.ext then clearPoison d (extAddr x pos) (entBytes x)
    else (entWords pl t r x pos).zipIdx.foldl (fun d w =>
      coverWord d pl w.1 (if x.ty == 4 then 0 else Config.entBits (sword d pl w.1.arr w.1.word).data e.key e.data e.stamp w.2)) d
def clearEnt (d : Dev) (pl t r : Nat) (x : TDesc) (pos : Nat) : Dev := writeEnt d pl t r x pos {}
/-- The stored word of array `n` belongs to region `r` of table `t`, its stash included. -/
def inRegion (pl t r : Nat) (x : TDesc) (n w : Nat) : Bool :=
  let u := if x.ty == 4 then n % 2048 else 16 * (n % 2048) + w / 8192
  n == 15 * 2048 + 2 * t + r || (n / 2048 == (if x.ty == 4 then 8 else if pl == 0 then 2 else 7) && x.base r ≤ u && u < x.base r + x.size r)
/-- Every entry of a region becomes invalid and unlocked, and its words are as if never written (R258). -/
def clearRegion (d : Dev) (pl t r : Nat) : Dev :=
  let x := descAt d pl t
  let d := modTbl d (fun b => { b with ents := b.ents.filter (fun e => e.1 / 2 ^ 32 != (64 * pl + t) * 2 + r) })
  if x.ext then d
  else { d with core := { d.core with sram := d.core.sram.filter (fun e =>
    !(e.1 / 2 ^ 20 / 65536 == pl && inRegion pl t r x (e.1 / 2 ^ 20 % 65536) (e.1 % 2 ^ 20))) } }

/-! ## Keys (R238) -/

/-- An LPM key whose length is out of range or whose instance has a bit [15:12]. -/
def badLpm (x : TDesc) (key : List Byte) : Bool :=
  (x.ty == 2 || x.ty == 3) && (15 < byteAt key 0 || (if x.ty == 2 then 32 else 128) < byteAt key (keyLen x))
/-- Address bits beyond the length are cleared as a prefix is stored. -/
def lpmCanon (x : TDesc) (key : List Byte) : List Byte :=
  let n := keyLen x
  let w := 8 * (n - 2)
  let len := byteAt key n
  let a := beAt key 2 (n - 2)
  key.take 2 ++ beBytes (n - 2) (a / 2 ^ (w - len) * 2 ^ (w - len)) ++ [BitVec.ofNat 8 len]
/-- The key as an entry stores it. -/
def storedKey (x : TDesc) (key : List Byte) : List Byte :=
  if x.ty == 2 || x.ty == 3 then lpmCanon x key else key.take x.keyBytes
/-- A stored prefix covers a search key. -/
def lpmCovers (x : TDesc) (p key : List Byte) : Bool :=
  let n := keyLen x
  let w := 8 * (n - 2)
  let len := byteAt p n
  p.take 2 == key.take 2 && beAt p 2 (n - 2) / 2 ^ (w - len) == beAt key 2 (n - 2) / 2 ^ (w - len)
/-- A ternary entry matches the key in its first bits. -/
def ternMatches (x : TDesc) (e : TEnt) (key : List Byte) : Bool :=
  (List.range x.keyBytes).all (fun i => (byteAt key i ^^^ byteAt e.key i) &&& byteAt e.mask i == 0)

/-- Candidate position of a key in way `i` (R240). -/
def wayInit (i : Nat) : W32 := match i with | 0 => 0xFFFFFFFF | 1 => 0x5A5A5A5A | 2 => 0xA5A5A5A5 | _ => 0x0F0F0F0F
def cand (x : TDesc) (r : Nat) (key : List Byte) (i : Nat) : Nat :=
  let w := capacity x r / 4
  i * w + (crc32cRaw (wayInit i) key).toNat * w / 2 ^ 32

/-- The two buckets of a key in an extension EXACT table, in different pseudo-channels: blocks of the region (R260). Which block each hash
chooses is open; of those that follow the second choice the first in another pseudo-channel is taken (DESIGN CHOICE, log 246). -/
def bucketsOf (x : TDesc) (k : List Byte) : List Nat :=
  let n := regionBytes x 0 / 256
  let at_ (i : Nat) : Nat := Config.extBucket i (crc32cRaw (wayInit i) k) n
  let pcOf (b : Nat) : Nat := hbmPc (x.base 0 * 2 ^ 26 + 256 * b)
  if n == 0 then []
  else
    let b := at_ 0 % n
    [b, (((List.range 8).map (fun i => (at_ 1 + i) % n)).find? (fun c => pcOf c != pcOf b)).getD (at_ 1 % n)]
/-- Entries of a bucket, and the positions of bucket `b`. -/
def bucketSize (x : TDesc) : Nat := 256 / entBytes x
def bucketPos (x : TDesc) (b : Nat) : List Nat := (List.range (bucketSize x)).map (b * bucketSize x + ·)
def extCands (x : TDesc) (k : List Byte) : List Nat := (bucketsOf x k).flatMap (bucketPos x)

/-- Where key `k` is stored in an EXACT region: way 0 first, then the stash in slot order; in its two buckets; by key elsewhere. An unreadable
entry matches nothing. -/
def findKey (d : Dev) (pl t r : Nat) (x : TDesc) (k : List Byte) : Option Nat :=
  let good (pos : Nat) : Bool := (ent d pl t r pos).valid && (ent d pl t r pos).key == k && !entBad d pl t r x pos
  if x.ty == 1 && !x.ext then
    (((List.range 4).map (cand x r k)) ++ ((regionEnts d pl t r).map (·.1)).filter isStash).find? good
  else if x.ty == 1 then (extCands x k).find? good
  else ((regionEnts d pl t r).map (·.1)).find? good

/-! ## Search (R239, R240, R261) -/

/-- Table time in place `pl` (R253). -/
def tableTime (d : Dev) (pl : Nat) (x : TDesc) : Nat :=
  (if pl == 0 then nowNs d else nsIn d (pl - 1)) / (x.tick * 1000000) % 65536
def entAge (d : Dev) (pl : Nat) (x : TDesc) (stamp : Nat) : Nat := (tableTime d pl x + 65536 - stamp) % 65536
/-- R253: the entry is aged. -/
def agedEnt (d : Dev) (pl : Nat) (x : TDesc) (stamp : Nat) : Bool := x.limit != 0 && x.limit ≤ entAge d pl x stamp

/-- The position that a search hits. -/
def matchPos (d : Dev) (pl t r : Nat) (x : TDesc) (key : List Byte) : Option Nat :=
  match x.ty with
  | 1 => findKey d pl t r x (key.take x.keyBytes)
  | 2 | 3 =>
    if 15 < byteAt key 0 then none
    else (((regionEnts d pl t r).filter (fun e => e.2.valid && lpmCovers x e.2.key key)).foldl (fun (m : Option (Nat × TEnt)) e =>
        match m with
        | none => some e
        | some y => if byteAt y.2.key (keyLen x) < byteAt e.2.key (keyLen x) then some e else some y) none).map (·.1)
  | 4 => ((regionEnts d pl t r).find? (fun e => e.2.valid && ternMatches x e.2 key)).map (·.1)
  | 5 => if beAt key 0 x.keyBytes < capacity x r then some (beAt key 0 x.keyBytes) else none
  | _ => none

/-- The positions whose SRAM words a search reads. -/
def readSet (d : Dev) (pl t r : Nat) (x : TDesc) (key : List Byte) : List Nat :=
  if x.ty == 1 && !x.ext then
    ((List.range 4).map (cand x r (key.take x.keyBytes))) ++ ((regionEnts d pl t r).map (·.1)).filter isStash
  else if x.ty == 4 || x.ext then []
  else match matchPos d pl t r x key with | some p => [p] | none => []

/-- R261: an entry that a search found uncorrectable: fetched from the master, or invalid in a local table. -/
def lostEnt (d : Dev) (pl t r : Nat) (x : TDesc) (pos : Nat) : Dev :=
  if x.repl then modTbl d (fun b => { b with fetch := if b.fetch.contains (pl - 1, t, r, pos) then b.fetch else b.fetch ++ [(pl - 1, t, r, pos)] })
  else clearEnt d pl t r x pos

/-- A search: the position hit, whether its result is poisoned, and what it does to the stored words. -/
def searchTbl (d : Dev) (pl t r : Nat) (x : TDesc) (key : List Byte) : Option Nat × Bool × Dev :=
  let (bad, d) := (readSet d pl t r x key).foldl (fun (acc : List Nat × Dev) p =>
    let (b, d) := readEnt acc.2 pl t r x p
    (if b then acc.1 ++ [p] else acc.1, d)) ([], d)
  let hit := matchPos d pl t r x key
  (hit, !bad.isEmpty, bad.foldl (fun d p => lostEnt d pl t r x p) d)

/-- The blocks that a search of an extension table reads: both buckets of an EXACT key; one block of an LPM trie, that of the prefix hit,
a free one on a miss (R260, R335; DESIGN CHOICE, log 246). -/
def extBlocks (d : Dev) (x : TDesc) (key : List Byte) (hit : Option Nat) : List Nat :=
  let n := regionBytes x 0 / 256
  if n == 0 then []
  else if x.ty == 1 then bucketsOf x (key.take x.keyBytes)
  else [match hit with | some p => p / bucketSize x | none => (freeVal d).toNat % n]
/-- A search reads its blocks as requests of the class: whether one is poisoned, and what the reads do (R261, R329). -/
def extRead (d : Dev) (cls requester : Nat) (x : TDesc) (key : List Byte) (hit : Option Nat) : Bool × Dev :=
  (extBlocks d x key hit).foldl (fun acc b =>
    let (bad, d) := hbmRead acc.2 cls requester (x.base 0 * 2 ^ 26 + 256 * b) 256
    (acc.1 || bad, d)) (false, if x.ty == 1 || hit.isSome then d else useFree d)
/-- Entries of an extension table are written: requests for their bytes. -/
def extStore (d : Dev) (cls requester : Nat) (x : TDesc) (poss : List Nat) : Dev :=
  poss.foldl (fun d p => hbmAccept d cls requester true (extAddr x p) (entBytes x)) d

/-- The result word of a search (R223): HIT and the entry's data, or the miss data. -/
def searchWord (d : Dev) (pl t r : Nat) (x : TDesc) (hit : Option Nat) : W64 :=
  match hit with
  | some p => BitVec.ofNat 64 ((ent d pl t r p).data.toNat % 2 ^ 63 + 2 ^ 63)
  | none => BitVec.ofNat 64 (x.miss % 2 ^ 63)

/-- A hit refreshes the entry's stamp. Only EXACT entries carry one. -/
def refresh (d : Dev) (pl t r : Nat) (x : TDesc) (pos : Nat) : Dev :=
  if x.ty == 1 then modTbl d (fun b => { b with ents := tmod entDflt b.ents (entKey pl t r pos) (fun e => { e with stamp := tableTime d pl x }) })
  else d

/-! ## Insertion and removal (R224, R241) -/

/-- What an insertion or removal did: status of R224, position, positions touched, and an entry evicted. -/
structure TblRes where
  status : Nat
  pos : Nat
  touched : List Nat
  evicted : Option (Nat × TEnt)

def noPos : Nat := 0xFFFFFFFF
def tblFail (st : Nat) : TblRes := { status := st, pos := noPos, touched := [], evicted := none }

/-- A valid entry that may move or be evicted. -/
def movable (d : Dev) (pl t r : Nat) (x : TDesc) (p : Nat) : Bool :=
  (ent d pl t r p).valid && (ent d pl t r p).lock.isNone && !entBad d pl t r x p
/-- A position that exists and holds nothing. -/
def emptyPos (d : Dev) (pl t r : Nat) (x : TDesc) (p : Nat) : Bool :=
  posOk x r p && !(ent d pl t r p).valid && (ent d pl t r p).lock.isNone && !entBad d pl t r x p
/-- The candidates of a key. -/
def cands (x : TDesc) (r : Nat) (k : List Byte) : List Nat := (List.range 4).map (cand x r k)

/-- The move path for key `k`: its positions, each but the last moving to the next, shortest first, then lowest ways. -/
def movePath (d : Dev) (pl t r : Nat) (x : TDesc) (k : List Byte) : Option (List Nat) :=
  let from1 (a : Nat) : List Nat := if movable d pl t r x a then cands x r (ent d pl t r a).key else []
  let one := (cands x r k).flatMap (fun a => ((from1 a).filter (fun b => b != a && emptyPos d pl t r x b)).map (fun b => [a, b]))
  let two := (cands x r k).flatMap (fun a => ((from1 a).filter (fun b => b != a)).flatMap (fun b =>
    ((from1 b).filter (fun c => c != a && c != b && emptyPos d pl t r x c)).map (fun c => [a, b, c])))
  (one ++ two).head?

/-- The moves of a path, the last first: each entry is written at its new place before its old place is cleared. -/
def doMoves (d : Dev) (pl t r : Nat) (x : TDesc) : List Nat → Dev
  | a :: b :: l =>
    let d := doMoves d pl t r x (b :: l)
    let e := ent d pl t r a
    clearEnt (writeEnt d pl t r x b e) pl t r x a
  | _ => d

/-- A stash slot that is free. -/
def freeStash (d : Dev) (pl t r : Nat) (x : TDesc) : Option Nat :=
  ((List.range 256).map stashPos).find? (emptyPos d pl t r x)

/-- The victim of an eviction: uniform among the candidates that may go (a free value chooses), or the oldest. -/
def victim (d : Dev) (pl t r : Nat) (x : TDesc) (k : List Byte) : Option Nat :=
  let l := (cands x r k).dedup.filter (movable d pl t r x)
  match x.evict with
  | 1 => l[(freeVal d).toNat % l.length]?
  | 2 => l.foldl (fun (m : Option Nat) p =>
      match m with
      | none => some p
      | some q => if entAge d pl x (ent d pl t r q).stamp < entAge d pl x (ent d pl t r p).stamp then some p else some q) none
  | _ => none

/-- Place a new key in an EXACT table. -/
def placeExact (d : Dev) (pl t r : Nat) (x : TDesc) (k : List Byte) (e : TEnt) : TblRes × Dev :=
  match (cands x r k).find? (emptyPos d pl t r x) with
  | some p => ({ status := 0, pos := p, touched := [p], evicted := none }, writeEnt d pl t r x p e)
  | none =>
    match movePath d pl t r x k with
    | some l =>
      let p := l.headD 0
      ({ status := 0, pos := p, touched := l, evicted := none }, writeEnt (doMoves d pl t r x l) pl t r x p e)
    | none =>
      match freeStash d pl t r x with
      | some p => ({ status := 0, pos := p, touched := [p], evicted := none }, writeEnt d pl t r x p e)
      | none =>
        match victim d pl t r x k with
        | some p =>
          let d' := if x.evict == 1 then useFree d else d
          ({ status := 2, pos := p, touched := [p], evicted := some (p, ent d pl t r p) }, writeEnt d' pl t r x p e)
        | none => (tblFail 5, d)

/-- Entries that prefixes take: one of more than 64 bits counts twice (R236). -/
def lpmWeight (x : TDesc) (key : List Byte) : Nat := if x.ty == 3 && !x.ext && 64 < byteAt key 18 then 2 else 1

/-- The moves that make room for a key in an extension EXACT table, breadth first: each entry but the last goes to its other bucket. The
paths are held last position first; a bucket is entered once. -/
def extMoves (d : Dev) (t : Nat) (x : TDesc) : Nat → List (List Nat) → List Nat → Option (List Nat)
  | 0, _, _ => none
  | n + 1, fr, seen =>
    let step (l : List Nat) : List (List Nat) :=
      let p := l.headD 0
      let bs := (bucketsOf x (ent d 0 t 0 p).key).filter (fun b => b != p / bucketSize x && !seen.contains b)
      (bs.flatMap (bucketPos x)).map (fun q => q :: l)
    let next := fr.flatMap step
    match next.find? (fun l => emptyPos d 0 t 0 x (l.headD 0)) with
    | some l => some l.reverse
    | none =>
      if next.isEmpty then none
      else extMoves d t x n (next.filter (fun l => movable d 0 t 0 x (l.headD 0))) (seen ++ (next.map (fun l => l.headD 0 / bucketSize x)).dedup)
/-- Place a new key in one of its two buckets of an extension EXACT table, at a free one of their empty positions; full buckets are made
room in by moves. Beyond its guaranteed capacity the table may refuse (R260; DESIGN CHOICE, log 119). -/
def placeExt (d : Dev) (t : Nat) (x : TDesc) (k : List Byte) (e : TEnt) : TblRes × Dev :=
  let l := (extCands x k).filter (emptyPos d 0 t 0 x)
  let used := ((regionEnts d 0 t 0).filter (fun y => y.2.valid)).length
  let f := (freeVal d).toNat
  let d := useFree d
  let put (d : Dev) (p : Nat) (path : List Nat) : TblRes × Dev :=
    ({ status := 0, pos := p, touched := path, evicted := none }, writeEnt d 0 t 0 x p e)
  if shownCapacity x 0 ≤ used && f.testBit 63 then (tblFail 5, d)
  else match l[f % l.length]? with
    | some p => put d p [p]
    | none =>
      match extMoves d t x (used + 1) (((extCands x k).filter (movable d 0 t 0 x)).map (fun p => [p])) (bucketsOf x k) with
      | some path => put (doMoves d 0 t 0 x path) (path.headD 0) path
      | none => (tblFail 5, d)

/-- Place a new prefix by a free position that the spec does not fix. -/
def placeFree (d : Dev) (pl t r : Nat) (x : TDesc) (k : List Byte) (e : TEnt) : TblRes × Dev :=
  let l := (regionEnts d pl t r).filter (fun y => y.2.valid)
  let used := l.foldl (fun n y => n + lpmWeight x y.2.key) 0
  let cap := capacity x r
  let full := cap < used + lpmWeight x k + (gonePos d pl t r x).length
  let start := (freeVal d).toNat % cap
  match ((List.range (l.length + (gonePos d pl t r x).length + 1)).map (fun i => (start + i) % cap)).find? (fun p => !(ent d pl t r p).valid && !posGone d pl t r x p) with
  | some p => if full then (tblFail 5, useFree d)
    else ({ status := 0, pos := p, touched := [p], evicted := none }, writeEnt (useFree d) pl t r x p e)
  | none => (tblFail 5, useFree d)

/-- INSRT of key bytes with data under rule `sub` (0 insert or update, 1 only insert, 2 only update). -/
def insertTbl (d : Dev) (pl t r : Nat) (x : TDesc) (sub : Nat) (key : List Byte) (data : W64) : TblRes × Dev :=
  if badLpm x key then (tblFail 7, d)
  else
    let k := storedKey x key
    match findKey d pl t r x k with
    | some p =>
      let e := ent d pl t r p
      if e.lock.isSome then (tblFail 6, d)
      else if sub == 1 then (tblFail 3, d)
      else ({ status := 1, pos := p, touched := [p], evicted := none },
            writeEnt d pl t r x p { e with data := data, stamp := if x.ty == 1 then tableTime d pl x else 0 })
    | none =>
      if sub == 2 then (tblFail 4, d)
      else
        let e : TEnt := { valid := true, key := k, data := data, stamp := if x.ty == 1 then tableTime d pl x else 0 }
        if x.ty == 1 then (if x.ext then placeExt d t x k e else placeExact d pl t r x k e) else placeFree d pl t r x k e

/-- DEL of key bytes. -/
def deleteTbl (d : Dev) (pl t r : Nat) (x : TDesc) (key : List Byte) : TblRes × Dev :=
  if badLpm x key then (tblFail 7, d)
  else match findKey d pl t r x (storedKey x key) with
    | some p =>
      if (ent d pl t r p).lock.isSome then (tblFail 6, d)
      else ({ status := 0, pos := p, touched := [p], evicted := none }, clearEnt d pl t r x p)
    | none => (tblFail 4, d)

/-! ## Events of the tables -/

def htbEvent (d : Dev) (n : Nat) : Dev := raise d (Rg.pageOf Rg.baseHTB) n
/-- A learn event (R252, R412): kinds 0 NEW, 1 MOVE, 2 AGED, 3 EVICTED. A ring without room counts it as dropped. -/
def postLearn (d : Dev) (x : TDesc) (kind : Nat) (loc : Bool) (t z pos : Nat) (key : List Byte) (data : W64) : Dev :=
  if !x.evEn then d
  else
    let kb := if key.length ≤ 12 then key else key.take 8 ++ leBytes 4 (crc32c key).toNat
    let w (i : Nat) : Nat := leNat ((kb.drop (4 * i)).take 4)
    let tn := if x.ext then t - 32 else t
    let (d, ok) := postEvent d x.evHost 0 1
      [kind + b2n x.ext * 4 + b2n loc * 8 + tn % 32 * 16 + z % 4 * 512, pos, data.toNat % 2 ^ 32, data.toNat / 2 ^ 32, w 0, w 1, w 2, key.length]
    if ok then d else if ringEnabled d x.evHost 3 0 then htbEvent (bump d Rg.HTB_LEARN_EVT_DROP 1) 1 else d

/-- An eviction of a zone is counted; in a local table it posts its event. -/
def noteEvicted (d : Dev) (z t : Nat) (x : TDesc) (res : TblRes) : Dev :=
  match res.evicted with
  | some (p, e) =>
    let d := bump d (Rg.TBL_EVICTED z) 1
    if x.repl then d else postLearn d x 3 true t z p e.key e.data
  | none => d

/-- An insertion of a zone that found no room is counted. -/
def noteNoRoom (d : Dev) (z : Nat) (res : TblRes) : Dev :=
  if res.status == 5 then tblEvent (bump d (Rg.TBL_NO_ROOM z) 1) z 2 else d

/-! ## Frozen and held (R249, R259) -/

/-- The zone's replicas are frozen: while it is isolated, and until their rebuild ends. -/
def frozen (d : Dev) (z : Nat) : Bool := isolated d z || (lnk d z).rebuilding
/-- Table `t` of zone `z` is held by TBL_HOLD or by a hold of TBL page 1. -/
def tblIsHeld (d : Dev) (z t : Nat) : Bool :=
  let pg := page d (Rg.pageOf (Rg.baseTBL z) + 1)
  (rd d (Rg.TBL_HOLD z)).toNat.testBit t || pg.hold || pg.group
/-- Extension table `t` is held by HTB_XHOLD or by a hold of HTB page 1. -/
def extIsHeld (d : Dev) (t : Nat) : Bool :=
  let pg := page d (Rg.pageOf Rg.baseHTB + 1)
  (rd d Rg.HTB_XHOLD).toNat.testBit t || pg.hold || pg.group

/-- Accepted lanes of SRCHX of extension table `t` have not been taken yet (R259). -/
def extWaiting (d : Dev) (t : Nat) : Bool :=
  d.inf.queues.any (fun e => e.1 / 16 < 128 && e.1 % 16 == 1 && e.2.any (fun x => x.word.toNat % 65536 == t))

/-! ## Descriptors that differ (R246) -/

/-- Replicated descriptors of table `t` differ among the zones, miss data apart. -/
def descDiffers (d : Dev) (t : Nat) : Bool :=
  let l (z : Nat) := (descRegs d z t).take 4
  (List.range 4).any (fun z => (tdescOf (l z)).repl) && (List.range 4).any (fun z => l z != l 0)
/-- HTB_DESC_ERR follows the descriptors; a table that begins to differ raises DESC_MISMATCH. -/
def watchDescs (d : Dev) : Dev :=
  let old := (rd d Rg.HTB_DESC_ERR).toNat
  let new := ofBits ((List.range 32).filter (descDiffers d))
  let d := wr d Rg.HTB_DESC_ERR (BitVec.ofNat 32 new)
  if (List.range 32).any (fun t => new.testBit t && !old.testBit t) then htbEvent d 0 else d

/-! ## Distribution (R247, R248) -/

def distDflt : Nat → List DistW := fun _ => []
def distQ (d : Dev) (z : Nat) : List DistW := tget distDflt d.tbl.dist z
def setDist (d : Dev) (z : Nat) (l : List DistW) : Dev := modTbl d (fun b => { b with dist := tset distDflt b.dist z l })

/-- The hub sends the writes of one master change in region `r` to every zone it reaches; `extra z`: positions of that zone's provisional
change in the region, which take what the master holds there. -/
def distribute (d : Dev) (t r : Nat) (poss : List Nat) (extra : Nat → List Nat) : Dev :=
  if descDiffers d t then d
  else
    let d := modTbl d (fun b => { b with seq := b.seq + 1 })
    let d := bump d Rg.HTB_DIST_UPDATES 1
    (List.range 4).foldl (fun d z =>
      if isolated d z then d
      else
        let ws := ((poss ++ extra z).dedup).map (fun p => (t, r, p, ent d 0 t r p))
        if ws.isEmpty then d
        else setDist d z (distQ d z ++ [{ id := d.tbl.seq, at_ := nowNs d, late := false, writes := ws }])) d

/-! ## Sync records of the twin (R493, R494) -/

def modTwin (d : Dev) (f : Twin → Twin) : Dev := { d with twin := f d.twin }
/-- TWN_STATUS.STATE. -/
def twinState (d : Dev) : Nat := rf d Rg.TWN_STATUS Fl.TWN_STATUS_STATE
/-- A master change of a synced table: sent while PAIRED and pending until acknowledged; journalled, the latest of each key,
after PAIRED has been left. Tables without keys of their own (TERNARY, DIRECT) make none (log 43). -/
def noteSync (d : Dev) (t : Nat) (x : TDesc) (key : List Byte) (data : W64) (del : Bool) : Dev :=
  if !x.repl || !(rd d Rg.TWN_SYNC).toNat.testBit t || !(1 ≤ x.ty && x.ty ≤ 3) then d
  else
    let r : SyncRec := { tbl := t, key := key, data := data, del := del, time := nowNs d }
    if twinState d == 2 then
      emit (bump (modTwin d (fun w => { w with own := w.own ++ [r] })) Rg.TWN_SYNC_TX 1) (.twinRecord r)
    else if d.twin.left then
      let rest := d.twin.own.filter (fun y => !(y.tbl == t && y.key == key))
      if rest.length < 65536 then modTwin d (fun w => { w with own := rest ++ [r] })
      else
        let d := if rb d Rg.TWN_STATUS Fl.TWN_STATUS_JOURNAL_OVF then d else bump d Rg.TWN_JOURNAL_OVF_CNT 1
        raise (wf d Rg.TWN_STATUS Fl.TWN_STATUS_JOURNAL_OVF 1) (Rg.pageOf Rg.baseTWN) 2
    else d
/-- The records of an insertion or removal by key: an evicted key is removed. -/
def syncRes (d : Dev) (t : Nat) (x : TDesc) (key : List Byte) (data : W64) (del : Bool) (res : TblRes) : Dev :=
  if 2 < res.status then d
  else
    let d := match res.evicted with
      | some (_, e) => noteSync d t x e.key e.data true
      | none => d
    noteSync d t x (storedKey x key) data del
/-- The records of a write by position. -/
def syncWrite (d : Dev) (t : Nat) (x : TDesc) (old new : TEnt) : Dev :=
  let d := if old.valid && (!new.valid || old.key != new.key) then noteSync d t x old.key old.data true else d
  if new.valid && (!old.valid || old.key != new.key || old.data != new.data) then noteSync d t x new.key new.data false else d

/-- A change made by table DMA or by the hub itself reaches the master: its positions go to all zones. -/
def masterWrote (d : Dev) (t r : Nat) (poss : List Nat) : Dev := if poss.isEmpty then d else distribute d t r poss (fun _ => [])

/-- Entry writes of the master not yet applied in every zone that the hub reaches (R265). -/
def distPending (d : Dev) : Nat :=
  (((List.range 4).flatMap (fun z => if isolated d z then [] else (distQ d z).flatMap (fun w => w.writes.map (fun e => (w.id, e.1, e.2.1, e.2.2.1))))).dedup).length

/-- An eviction of the master posts its event once. -/
def masterEvicted (d : Dev) (t z : Nat) (x : TDesc) (res : TblRes) : Dev :=
  match res.evicted with
  | some (p, e) => postLearn d x 3 false t z p e.key e.data
  | none => d

/-! ## Positions lost with a row (R387) -/

/-- A row of a position is withdrawn: a replicated entry is inserted again from the master, where it finds another place; what a local
table held there is lost. Ternary and direct entries have no other place (log 263). -/
def loseEnt (d : Dev) (pl t r pos : Nat) : Dev :=
  let x := descAt d pl t
  let drop (d : Dev) (q : Nat) : Dev := modEnt d q t r pos (fun _ => {})
  if !x.repl then
    let e := ent d pl t r pos
    if pl == 0 || !e.valid then d else postLearn (drop d pl) x 3 true t (pl - 1) pos e.key e.data
  else
    let e := ent d 0 t r pos
    if !e.valid then d
    else
      let d := drop d 0
      if x.ty == 4 || x.ty == 5 then masterWrote d t r [pos]
      else
        let (res, d) := insertTbl d 0 t r x 0 e.key e.data
        let d := masterEvicted d t (pl - 1) x res
        let gone := match res.evicted with | some (_, y) => some y | none => if 2 < res.status then some e else none
        let d := match gone with | some y => noteSync d t x y.key y.data true | none => d
        masterWrote d t r (pos :: res.touched)

/-! ## Former descriptor values (R257) -/

/-- A commit replaces the values of a table: flights closed before it, and items begun before it, keep `regs`. -/
def keepOld (d : Dev) (z t : Nat) (regs : List W32) : Dev :=
  let o : TblOld := { zone := z, tbl := t, flights := d.bar.seq + 1, items := d.core.tags, busy := true, regs := regs }
  let o := { o with busy := oldInUse d o }
  if o.busy || oldItems d o then modTbl d (fun b => { b with old := b.old ++ [o] }) else d

end Sys2Proof.Machine
end

