-- ==== Sys2Proof/Machine/Ras.lean ====
section
/-!
DEFINITION. The transient-or-permanent rule, the fault registry, retirements and spares, and bringing units back (R375, R382
to R391). Operations note faults in `ras.todo`; `settle` judges them at the end of a step (R384).
-/

namespace Sys2Proof.Machine
open Sys2Proof

/-- R375: a non-recoverable module stop: forwarding stops until PORST_N, a flush is due, TWIN_ALIVE_OUT stops (R476, R489). -/
def moduleStop (d : Dev) : Dev :=
  if d.life.stopped then d
  else
    let d := addLog d 4 0
    { d with
      life := { d.life with stopped := true }
      caddy := { d.caddy with flushWant := true }
      twin := { d.twin with toggling := false } }

/-- RAS page 0 events. -/
def rasEvent (d : Dev) (n : Nat) : Dev := raise d (Rg.pageOf Rg.baseRAS) n

/-! ## The registry (R385) -/

/-- The channel needs an entry: not GOOD, or with a count; a spare needs one only with a count. -/
def needsEntry (d : Dev) (k : Nat) : Bool :=
  let c := chan d k
  if c.state == 0 || c.state == 4 then c.count != 0 else true

/-- Entry number of a channel. -/
def entryOf (d : Dev) (k : Nat) : Option Nat := (d.ras.registry.find? (fun e => e.2 == k + 1)).map (·.1)
/-- The lowest free entry. -/
def freeEntry (d : Dev) : Option Nat := (List.range 1024).find? (fun i => tget zeroN d.ras.registry i == 0)

/-- Give the channel an entry, or free the one it has. -/
def syncEntry (d : Dev) (k : Nat) : Dev :=
  match entryOf d k, needsEntry d k with
  | some i, false => modRas d (fun r => { r with registry := tset zeroN r.registry i 0 })
  | none, true =>
    match freeEntry d with
    | some i => modRas d (fun r => { r with registry := tset zeroN r.registry i (k + 1) })
    | none => d
  | _, _ => d

/-- What a change of a channel's state shows elsewhere: laser inputs, pseudo-channels, requesters (R344, R367, R81). -/
def showState (d : Dev) (k : Nat) : Dev :=
  match chTy k with
  | 3 => if chElem k == 0xFFFFFFFF then raise d (hbmPage (chUnit k / 32)) 3 else d
  | 5 => raise d (Rg.pageOf (Rg.baseOE (chUnit k))) 0
  | 8 => raise d (Rg.pageOf Rg.baseARB) 1
  | _ => d

/-- R412: a FAULT entry of the channel on event ring 2 of each host that has it enabled. -/
def faultEntry (d : Dev) (k : Nat) : Dev :=
  let c := chan d k
  let words := [k / 2 ^ 32, k % 2 ^ 32, c.state + 8 * b2n c.hard + 16 * b2n c.spareIn, 0, nowNs d % 2 ^ 32, nowNs d / 2 ^ 32]
  (postEvent (postEvent d 0 2 3 words).1 1 2 3 words).1

/-- Set a channel's state: a change is shown and posted. -/
def setState (d : Dev) (k st : Nat) : Dev :=
  let was := (chan d k).state
  let d := showState (modChan d k (fun c => { c with state := st })) k
  if was == st then d else faultEntry d k
/-- A change to be recorded in the retirement map (R388). -/
def toMap (d : Dev) (k : Nat) : Dev := modRas d (fun r => { r with journal := if r.journal.contains k then r.journal else r.journal ++ [k] })

/-! ## Spares and withdrawals (R386, R387) -/

/-- A spare serves in the channel's place. -/
def spared (d : Dev) (k : Nat) : Dev := toMap (modChan d k (fun c => { c with spareIn := true })) k
/-- A spare begins to serve. -/
def enlist (d : Dev) (k : Nat) : Dev := toMap (syncEntry (setState d k 0) k) k
/-- Lowest spare among `l` that may be taken: SPARE with count 0 (R384). -/
def pickSpare (d : Dev) (l : List Nat) : Option Nat := l.find? (fun k => (chan d k).state == 4 && (chan d k).count == 0)

/-- Retirement of a die-link lane. -/
def retireLane (d : Dev) (k : Nat) : Dev :=
  let z := chPlace k - 1
  let toHub := chUnit k < 1024
  let phys := chUnit k % 1024
  let auto := rb d (Rg.XB_LINK_CTRL z) Fl.XB_LINK_CTRL_SPARE_AUTO
  match (if auto then pickSpare d ((List.range 544).map (fun i => linkChan z toHub i)) else none) with
  | some s =>
    let d := enlist (spared d k) s
    modDir d z toHub (fun x =>
      { x with spares := x.spares.filter (fun e => e.2 != phys) ++
          [((match x.spares.find? (fun e => e.2 == phys) with | some e => e.1 | none => phys), chUnit s % 1024)] })
  | none => narrowLink (if auto then rasEvent d 2 else d) z toHub

/-- Cells that row `r` of array `n` of zone `z` takes with it: those of a cell-buffer bank, or those whose link or record it holds (R539). -/
def rowCells (z n r : Nat) : List Nat :=
  if n / 2048 == 5 then (List.range 4).map (fun i => 131072 * z + n % 2048 + 32 * (4 * r + i))
  else if n / 2048 == 6 then
    ((List.range 131072).map (131072 * z + ·)).filter (fun c => [true, false].any (fun b =>
      (Config.linkWord c b).toNat % (128 * sramRows (1 + z) n) / 128 == r))
  else []

/-- Retirement of an SRAM row. -/
def retireRow (d : Dev) (k : Nat) : Dev :=
  let pl := chPlace k
  let n := chUnit k % 65536
  let kind := n / 2048
  if sparesUsed d pl n < sramSpares pl n then
    let d := modRas (spared d k) (fun r => { r with copies := r.copies ++ [k] })
    bump d (pwAt pl Rg.PW_ROWS_SPARED Rg.ZPW_ROWS_SPARED) 1
  else
    let d := rasEvent d 2
    if pl == 0 then
      match kind with
      | 0 => noteFault d (coreChan (128 + n % 2048 / 4)) true
      | 2 => (rowEnts d pl n (chElem k)).foldl (fun d e => loseEnt d pl e.1 e.2.1 e.2.2) d
      | 4 | 5 | 7 => moduleStop d
      | _ => d
    else if kind ≤ 3 then noteFault d (coreChan (32 * (pl - 1) + n % 2048)) true
    else if kind == 4 then noteFault d (coreChan (32 * (pl - 1) + n % 2048 / 2)) true
    else if kind == 5 || kind == 6 then { d with urn := { d.urn with bad := (d.urn.bad ++ rowCells (pl - 1) n (chElem k)).dedup } }
    else if kind == 12 then watchFormers d (pl - 1)
    else (rowEnts d pl n (chElem k)).foldl (fun d e => loseEnt d pl e.1 e.2.1 e.2.2) d

/-- Repairs used in a bank of a pseudo-channel (R341). -/
def bankRepairs (d : Dev) (pc b : Nat) : Nat :=
  (d.ras.chans.filter (fun e => chTy e.1 == 3 && chUnit e.1 == pc && chElem e.1 != 0xFFFFFFFF && chElem e.1 / 16384 == b && e.2.spareIn)).length

/-- Retirement of an HBM row or pseudo-channel (R341, R342). -/
def retireHbm (d : Dev) (k : Nat) : Dev :=
  let pc := chUnit k
  if chElem k != 0xFFFFFFFF then
    if bankRepairs d pc (chElem k / 16384) < 4 then spared d k else noteFault (rasEvent d 2) (pcChan pc) true
  else if d.hbm.spareOf.isNone && d.hbm.pcSpare then spared (modHbm d (fun h => { h with spareOf := some pc, copy := 0 })) k
  else rasEvent (modHbm d (fun h => { h with lost := h.lost ++ [pc] })) 2

/-- Retirement of a core. -/
def retireCoreChan (d : Dev) (k : Nat) : Dev :=
  if chPlace k == 0 then
    let d := retireCore d (128 + chUnit k) none
    let d := rasEvent d 2
    if (List.range 4).any (fun c => inService d (coreChan (128 + c))) then d else moduleStop d
  else
    let z := chPlace k - 1
    match pickSpare d ((List.range 26).map (fun i => coreChan (32 * z + i))) with
    | some s => retireCore (enlist (spared d k) s) (32 * z + chUnit k) (some (32 * z + chUnit s))
    | none => rasEvent (retireCore d (32 * z + chUnit k) none) 2

/-- Phases of a rail that spares serve for. -/
def phaseSpares (d : Dev) (rail : Nat) : Nat :=
  (d.ras.chans.filter (fun e => chTy e.1 == 6 && chUnit e.1 == rail && e.2.spareIn)).length

/-- What a retirement does, by type (R386). -/
def retireEffect (d : Dev) (k : Nat) : Dev :=
  match chTy k with
  | 0 => loseLock d [chUnit k]
  | 1 => retireLane d k
  | 2 => retireRow d k
  | 3 => retireHbm d k
  | 4 => retireCoreChan d k
  | 5 => moveDraw d (chUnit k) (chElem k)
  | 6 => if phaseSpares d (chUnit k) < 2 then spared d k else rasEvent d 2
  | 7 => hostLanes d (chUnit k)
  | 8 =>
    let r := chUnit k
    if r < 832 then noteFault d (coreChan (32 * (r / 208) + r % 208 / 8)) false
    else if r < 864 then noteFault d (coreChan (128 + (r - 832) / 8)) false
    else d
  | _ => d

/-- The channel is judged permanent. A spare out of service only becomes RETIRED. -/
def retire (d : Dev) (k : Nat) (hard : Bool) : Dev :=
  let was := (chan d k).state
  let d := modChan d k (fun c => { c with hard := hard })
  let d := addLog (rasEvent (bump (toMap (setState d k 3) k) (Rg.RAS_RETIRED (chTy k)) 1) 1) 5 (k / 2 ^ 32)
  if was == 4 then d else retireEffect d k

/-- The shadow run of a zone ends without a pass: its copies are given up. -/
def stopShadow (d : Dev) (z : Nat) : Dev :=
  let d := modBarz d z (fun b => { b with run := false })
  let ids := ((zoneFlights d z).filter (fun f => f.copyOf.isSome)).map (·.id)
  watchDisc (ids.foldl (fun d id => rebuildFlight d id (32 * z)) d) z

/-- The test of a pseudo-channel ends: no copy runs any more, and the spare area that serves it still does (R343). -/
def restoreEnds (d : Dev) (pc : Nat) : Dev :=
  let d := modHbm d (fun h => { h with waiting := h.waiting.filter (· != pc) })
  if d.hbm.spareOf == some pc && d.hbm.copy == 3 then modHbm d (fun h => { h with copy := 2, copyBack := 0 }) else d

/-- A channel leaves SHADOW for RETIRED (R383, R389). -/
def failShadow (d : Dev) (k : Nat) : Dev :=
  let d := rasEvent (setState d k 3) 4
  match chTy k with
  | 4 => if chPlace k == 0 then d else stopShadow d (chPlace k - 1)
  | 3 => if chElem k == 0xFFFFFFFF then restoreEnds d (chUnit k) else d
  | 0 => loseLock d [chUnit k]
  | 7 => hostLanes d (chUnit k)
  | _ => d

/-! ## Judging (R383, R384) -/

/-- One fault of a channel. -/
def judgeFault (d : Dev) (k : Nat) (hard : Bool) : Dev :=
  let ty := chTy k
  let n := rf d (Rg.RAS_RULE ty) Fl.RAS_RULE_N
  let win := rf d (Rg.RAS_RULE ty) Fl.RAS_RULE_WINDOW_MS * 1000000
  let d := bump d (Rg.RAS_FAULTS ty) 1
  let c := chan d k
  let lost := (entryOf d k).isNone && (freeEntry d).isNone
  let d := if lost then rasEvent (bump d Rg.RAS_REG_OVERFLOW 1) 3 else d
  if lost && !hard then d
  else
    let d := modChan d k (fun c => { c with total := c.total + 1 })
    if c.state == 3 then d
    else if c.state == 2 then failShadow d k
    else
      let now := nowNs d
      let fresh := c.count == 0 || c.start + win ≤ now
      let d := modChan d k (fun c => { c with start := if fresh then now else c.start, count := (if fresh then 0 else c.count) + 1 })
      let d := syncEntry d k
      if hard || n ≤ (chan d k).count then retire d k hard
      else if c.state == 0 then
        let d := rasEvent (setState d k 1) 0
        -- the engine draws nothing from a SUSPECT input (R383)
        if ty == 5 then moveDraw d (chUnit k) (chElem k) else d
      else d

/-- Put a fault into the order of channel identifiers (R384). -/
def faultIns (x : Nat × Bool) : List (Nat × Bool) → List (Nat × Bool)
  | [] => [x]
  | y :: l => if x.1 < y.1 then x :: y :: l else y :: faultIns x l

/-- Faults noted in the step are judged; what they lead to is judged after them, round by round. A round leads to another through a
retirement alone: of a core or pseudo-channel, or by the entries of a row that are inserted again. -/
def settleN : Nat → Dev → Dev
  | 0, d => modRas d (fun r => { r with todo := [] })
  | n + 1, d =>
    match d.ras.todo with
    | [] => d
    | l =>
      let d := modRas d (fun r => { r with todo := [] })
      settleN n ((l.foldl (fun a x => faultIns x a) []).foldl (fun d x => judgeFault d x.1 x.2) d)

/-- The end of a command: every fault noted is judged, and a freeze comes into force. -/
def settle (d : Dev) : Dev := settleFreeze (settleN 1024 d)

/-- Results of a step whose faults are judged at its end. -/
def State.onDevF (s : State) (f : Dev → Dev) : Host.Outcome State Fault Refusal := s.onDev (fun d => settle (f d))
def State.onDevMF (s : State) (f : Memory → Dev → Dev) : Host.Outcome State Fault Refusal := s.onDevM (fun m d => settle (f m d))
def State.onMemF (s : State) (f : Memory → Dev → Memory × Dev) : Host.Outcome State Fault Refusal :=
  s.onMem (fun m d => ((f m d).1, settle (f m d).2))

/-! ## Bringing units back (R389, R390) -/

/-- The test of a pseudo-channel in SHADOW starts, unless HBM page 0 of its stack is held (R343, R344). -/
def startRestore (d : Dev) (pc : Nat) : Dev :=
  if (page d (hbmPage (pc / 32))).held then modHbm d (fun h => { h with waiting := h.waiting ++ [pc] })
  else if d.hbm.spareOf == some pc && d.hbm.copy == 2 then modHbm d (fun h => { h with copy := 3, copyBack := 0 })
  else d
/-- The page has been released: the tests that waited for it start. -/
def resumeRestores (d : Dev) (s : Nat) : Dev :=
  let l := d.hbm.waiting.filter (fun pc => pc / 32 == s)
  l.foldl startRestore (modHbm d (fun h => { h with waiting := h.waiting.filter (fun pc => pc / 32 != s) }))

/-- A RETIRED channel enters SHADOW. -/
def restoreChan (d : Dev) (k : Nat) : Dev :=
  if (chan d k).state != 3 then d
  else if chTy k == 4 && chPlace k != 0 && (shadowOf d (chPlace k - 1)).isSome then d
  else
    let d := modChan (setState d k 2) k (fun c => { c with start := nowNs d })
    match chTy k with
    | 0 => modLane d (chUnit k) (fun l => { l with shadow := none, dark := false })
    | 3 => if chElem k == 0xFFFFFFFF then startRestore d (chUnit k) else d
    | 4 =>
      if chPlace k == 0 then d
      else
        let z := chPlace k - 1
        let c := 32 * z + chUnit k
        -- both banks are copied in from an in-service core (R180)
        let d := match serviceCores d z with
          | [] => d
          | s :: _ => (List.range 2).foldl (fun d b =>
              let src := (1 + z) * 65536 + imageArr (32 * z + s) b
              let d := clearSram d (1 + z) (imageArr c b)
              (d.core.sram.filter (fun e => e.1 / 2 ^ 20 == src)).foldl (fun d e => setSword d (1 + z) (imageArr c b) (e.1 % 2 ^ 20) e.2) d) d
        watchDisc (modBarz d z (fun b => { b with remain := 4096, shadowCore := chUnit k, run := true, judged := 0, unjudged := 0,
                                                  mismatch := false, passed := false })) z
    | 5 => modLaser d (chUnit k) (chElem k) (fun x => { x with shadow := some (nowNs d) })
    | _ => d

/-- A withdrawn row has passed its test: its cells return to the pool, and its words are as if never written (DESIGN CHOICE, log 264). -/
def returnRow (d : Dev) (k : Nat) : Dev :=
  let pl := chPlace k
  let n := chUnit k
  let r := chElem k
  let d := { d with core := { d.core with sram := d.core.sram.filter (fun e => e.1 / 128 != swordKey pl n (128 * r) / 128) } }
  if pl == 0 then d
  else
    let back := rowCells (pl - 1) n r
    watchFormers { d with urn := { d.urn with bad := d.urn.bad.filter (fun c => !back.contains c) } } (pl - 1)

/-- The rail has fewer phases than it needs: a phase that is retired, or runs at a reduced share in its test, and for which no spare
serves (R389, R459). -/
def railShort (d : Dev) (rail : Nat) : Bool :=
  d.ras.chans.any (fun e => chTy e.1 == 6 && chUnit e.1 == rail && (e.2.state == 2 || e.2.state == 3) && !e.2.spareIn)
/-- A rail that is restored holds its dies at no level (R453). -/
def railBack (d : Dev) (rail : Nat) : Dev :=
  if railShort d rail then d else { d with ket := { d.ket with rails := tset zeroN d.ket.rails rail 0 } }

/-- A channel has passed its test: GOOD when its block needs it, else SPARE (R390). -/
def passShadow (d : Dev) (k : Nat) : Dev :=
  let out := chTy k == 2 && rowOut (chan d k)
  let d := modChan d k (fun c => { c with count := 0, hard := false, spareIn := false })
  let d := addLog (rasEvent (bump (toMap d k) (Rg.RAS_RESTORED (chTy k)) 1) 4) 6 (k / 2 ^ 32)
  match chTy k with
  | 1 =>
    let z := chPlace k - 1
    let toHub := chUnit k < 1024
    if (dirOf (lnk d z) toHub).lost != 0 then
      syncEntry (modDir (setState d k 0) z toHub (fun x => { x with lost := x.lost - 1 })) k
    else syncEntry (setState d k 4) k
  | 4 =>
    if chPlace k == 0 then
      let c := 128 + chUnit k
      (List.range 8).foldl (fun d t => startKernel d c t) (syncEntry (setState d k 0) k)
    else
      let z := chPlace k - 1
      let c := 32 * z + chUnit k
      let d := modBarz d z (fun b => { b with run := false, passed := true })
      let d := if (serviceCores d z).length < 24 then
          let d := setState d k 0
          fillActive ((List.range 8).foldl (fun d t => startRole d c t) d) z
        else setState d k 4
      watchDisc (syncEntry d k) z
  | 2 => (fun d => if out then returnRow d k else d) (syncEntry (setState d k 0) k)
  | 6 => railBack (syncEntry (setState d k 0) k) (chUnit k)
  | _ => syncEntry (setState d k 0) k

end Sys2Proof.Machine
end

