-- ==== Sys2Proof/Machine/BarOps.lean ====
section
/-!
DEFINITION. Flight formers, the flight queue and placement: closing a flight (R121 to R126), eligibility and displacement (R129,
R130), the active set (R141, R142).
-/

namespace Sys2Proof.Machine
open Sys2Proof

/-! ## Formers and the queue (R121 to R126) -/

/-- The lowest free entry of the queue. -/
def freeEntryOf (d : Dev) (z : Nat) : Nat := ((List.range 1024).find? (fun i => !(entriesUsed d z).contains i)).getD 0

/-- A packet of the former's queue is in its pipeline's parse or cell write. -/
def comingTo (d : Dev) (z pl : Nat) (x : Bool) : Bool :=
  let p := pipe d z pl
  (p.parsing ++ p.parsed).any (fun q => q.express == x)
/-- A packet of the former's queue waits in the store or is in the pipeline. -/
def waitsFor (d : Dev) (z pl : Nat) (x : Bool) : Bool :=
  comingTo d z pl x || !(if x then (pipe d z pl).express else (pipe d z pl).normal).isEmpty
/-- The packets that waited while the former was stopped have all come. -/
def watchBacklog (d : Dev) (z pl : Nat) (x : Bool) : Dev :=
  if (former d z pl x).backlog && !waitsFor d z pl x then modFormer d z pl x (fun f => { f with backlog := false }) else d

/-- A former closes its open flight (R122, R123), if a free entry is available to it: a normal flight takes none of the RESV (R124). -/
def closeFlight (d : Dev) (z pl : Nat) (x : Bool) : Dev :=
  let f := former d z pl x
  if f.lanes.isEmpty || availEntries d z x == 0 then d
  else
    let r := Rg.BAR_FORMER z pl
    let d := nextSeq d
    let n := d.bar.seq
    let fl : Flight := {
      id := n, entry := freeEntryOf d z, zone := z
      cls := rf d r (if x then Fl.BAR_FORMER_XCLASS else Fl.BAR_FORMER_NCLASS)
      level := rf d r (if x then Fl.BAR_FORMER_XLEVEL else Fl.BAR_FORMER_NLEVEL)
      pipe := pl, express := x, bank := activeBank d z, lanes := f.lanes, loc := .queued, group := 0, displaced := false
      faultCore := none, demoted := false, issues := 0, copyOf := none, copied := false, finished := false, order := n
      owner := none, placed := 0, trace := [], results := [], verdicts := [] }
    let d := modFormer d z pl x (fun f => { f with lanes := [] })
    let d := modBar d (fun b => { b with flights := b.flights ++ [fl] })
    watchGrow (watchFormers d z) z

/-- The former can take a packet: its open flight has room, or can close. -/
def takesLane (d : Dev) (z pl : Nat) (x : Bool) : Bool := (former d z pl x).lanes.length < 32 || 0 < availEntries d z x
/-- A packet joins its former's open flight; the 33rd opens the next flight (R122). -/
def addLane (d : Dev) (z pl : Nat) (x : Bool) (l : LaneInit) : Dev :=
  let d := if 32 ≤ (former d z pl x).lanes.length then closeFlight d z pl x else d
  watchBacklog (modFormer d z pl x (fun f => { f with lanes := f.lanes ++ [l] })) z pl x

/-! ## Cores that take flights (R129, R141, R142) -/

/-- Cap of the active set by the Kettle (R454). -/
def activeCap (d : Dev) (z : Nat) : Nat :=
  if 3 ≤ level d z && rf d (Rg.PWR_MAX_ACTIVE z) Fl.PWR_MAX_ACTIVE_LEVEL ≤ level d z then rf d (Rg.PWR_MAX_ACTIVE z) Fl.PWR_MAX_ACTIVE_MAX_ACTIVE
  else 26
/-- The active set. -/
def activeSet (d : Dev) (z : Nat) : List Nat :=
  let l := serviceCores d z
  (if rb d (Rg.BAR_CTRL z) Fl.BAR_CTRL_PACK_EN then l.filter (fun k => (barz d z).active.testBit k) else l).take (activeCap d z)
/-- The core's page is held (R181). -/
def coreHeld (d : Dev) (cid : Nat) : Bool := (page d (corePage cid)).hold || (page d (corePage cid)).group
/-- Flights in the slots of a core. -/
def slotFlights (d : Dev) (cid : Nat) : List Flight := d.bar.flights.filter (fun f => f.loc == .slot cid)
/-- Threads of a core that run a flight or an item. -/
def busyThreads (d : Dev) (cid : Nat) : Nat :=
  (d.core.threads.filter (fun e => e.1 / 8 == cid && (e.2.state == 1 || e.2.state == 2 || e.2.state == 4))).length
/-- The core may take the flight but for its slots. -/
def mayTake (d : Dev) (f : Flight) (k : Nat) : Bool := !coreHeld d (32 * f.zone + k) && f.faultCore != some (32 * f.zone + k)
/-- The eligible cores for a flight. -/
def eligible (d : Dev) (f : Flight) : List Nat :=
  (activeSet d f.zone).filter (fun k => mayTake d f k && (slotFlights d (32 * f.zone + k)).length < 2)

/-- The element of a list with the least key, the first on ties. -/
def leastBy {α : Type} (key : α → Nat) : List α → Option α
  | [] => none
  | a :: l => match leastBy key l with | none => some a | some b => if key b < key a then some b else some a

/-- R129: the core that a flight is placed on. -/
def place (d : Dev) (f : Flight) : Option Nat :=
  if rb d (Rg.BAR_CTRL f.zone) Fl.BAR_CTRL_PACK_EN then (eligible d f).head?
  else leastBy (fun k => busyThreads d (32 * f.zone + k) + (slotFlights d (32 * f.zone + k)).length) (eligible d f)

/-- R130: the flight that `f` displaces: lowest level, then last into its slot; not one displaced before. -/
def displaceable (d : Dev) (f : Flight) : Option Flight :=
  leastBy (fun y => y.level * 2 ^ 64 + (2 ^ 64 - 1 - y.placed % 2 ^ 64))
    (((activeSet d f.zone).filter (mayTake d f)).flatMap (fun k =>
      (slotFlights d (32 * f.zone + k)).filter (fun y => y.level < f.level && !y.displaced && y.copyOf.isNone)))

end Sys2Proof.Machine
end

