-- ==== Sys2Proof/Machine/Parser.lean ====
section
/-!
DEFINITION. Entry classification (R89, R90) and the Strainer's parse of one frame: headers, limits, malformed reasons, layer
offsets, status and key hash (R92 to R99, R541).
-/

namespace Sys2Proof.Machine
open Sys2Proof

/-! ## Entry classification (R89, R90) -/

def isTag (t : Nat) : Bool := t == 0x8100 || t == 0x88A8

/-- After Ethernet and zero to two tags: the number of tags and the position of the type. A third tag shows as its type. -/
def tags2 (b : List Byte) : Nat :=
  if isTag (beAt b 12 2) then (if isTag (beAt b 16 2) then 2 else 1) else 0

/-- DSCP of an IPv4 or IPv6 header that follows. -/
def entryDscp (b : List Byte) : Option Nat :=
  let p := 14 + 4 * tags2 b
  match beAt b (p - 2) 2 with
  | 0x0800 => some (byteAt b (p + 1) / 4)
  | 0x86DD => some (beAt b p 2 / 16 % 256 / 4)
  | _ => none

/-- TC of the top label that follows. -/
def entryTc (b : List Byte) : Option Nat :=
  let p := 14 + 4 * tags2 b
  match beAt b (p - 2) 2 with
  | 0x8847 | 0x8848 => some (byteAt b (p + 2) / 2 % 8)
  | _ => none

/-- Class of a DSCP through the maps. -/
def dscpClass (d : Dev) (z v : Nat) : Nat :=
  if v < 60 then rf d (Rg.STR_DSCP_MAP z (v / 10)) (Fl.STR_DSCP_MAP_CLASS (v % 10)) else rf d (Rg.STR_DSCP_MAP6 z) (Fl.STR_DSCP_MAP6_CLASS (v - 60))

/-- Class by TRUST (R89). -/
def trustClass (d : Dev) (p : Nat) (b : List Byte) : Nat :=
  let z := p / 64
  let r := Rg.STR_PORT z (p % 64)
  let dflt := rf d r Fl.STR_PORT_DEFAULT_CLASS
  match rf d r Fl.STR_PORT_TRUST with
  | 1 => if isTag (beAt b 12 2) then rf d (Rg.STR_PCP_MAP z) (Fl.STR_PCP_MAP_CLASS (byteAt b 14 / 32)) else dflt
  | 2 => match entryDscp b with | some v => dscpClass d z v | none => dflt
  | 3 => match entryTc b with | some v => rf d (Rg.STR_TC_MAP z) (Fl.STR_TC_MAP_CLASS v) | none => dflt
  | _ => dflt

/-- Protocol (0 UDP, 1 TCP) and ports compared by the L4 entries. -/
def entryPorts (b : List Byte) (len : Nat) : Option (Nat × Nat × Nat) :=
  let p := 14 + 4 * tags2 b
  let at_ (proto q : Nat) : Option (Nat × Nat × Nat) :=
    if (proto == 17 || proto == 6) && q + 4 ≤ min 128 len then some (b2n (proto == 6), beAt b q 2, beAt b (q + 2) 2) else none
  match beAt b (p - 2) 2 with
  | 0x0800 => if 5 ≤ byteAt b p % 16 && beAt b (p + 6) 2 % 8192 == 0 then at_ (byteAt b (p + 9)) (p + 4 * (byteAt b p % 16)) else none
  | 0x86DD => at_ (byteAt b (p + 6)) (p + 40)
  | _ => none

/-- Class of the control-marking entry that matches, in the order EtherType, destination address, L4. -/
def controlMark (d : Dev) (z : Nat) (b : List Byte) (len : Nat) : Option Nat :=
  let ty := beAt b (12 + 4 * tags2 b) 2
  let da := beAt b 0 6
  let e := (List.range 16).find? (fun i =>
    rb d (Rg.ETYPE z i) Fl.ETYPE_VALID && rf d (Rg.ETYPE z i) Fl.ETYPE_ETYPE == ty && !(tags2 b == 2 && isTag ty))
  let a := (List.range 16).find? (fun i =>
    let v := rf d (Rg.DA_LO z i) Fl.DA_LO_ADDR + rf d (Rg.DA_HI z i) Fl.DA_HI_ADDR * 2 ^ 32
    let m := rf d (Rg.DA_MASK_LO z i) Fl.DA_MASK_LO_MASK + rf d (Rg.DA_MASK_HI z i) Fl.DA_MASK_HI_MASK * 2 ^ 32
    rb d (Rg.DA_HI z i) Fl.DA_HI_VALID && (da ^^^ v) &&& m == 0)
  let l := match entryPorts b len with
    | none => none
    | some (proto, sp, dp) => (List.range 32).find? (fun i =>
        let r := Rg.L4 z i
        let port := rf d r Fl.L4_PORT
        let dir := rf d r Fl.L4_DIR
        rb d r Fl.L4_VALID && rf d r Fl.L4_PROTO == proto && ((dir.testBit 0 && port == dp) || (dir.testBit 1 && port == sp)))
  match e, a, l with
  | some i, _, _ => some (rf d (Rg.ETYPE z i) Fl.ETYPE_CLASS)
  | none, some i, _ => some (rf d (Rg.DA_HI z i) Fl.DA_HI_CLASS)
  | none, none, some i => some (rf d (Rg.L4 z i) Fl.L4_CLASS)
  | none, none, none => none

/-- Class and control mark of a frame, from its first 128 bytes. -/
def classify (d : Dev) (p : Nat) (frame : List Byte) : Nat × Bool :=
  let b := frame.take 128
  let ctl := if rb d (Rg.STR_PORT (p / 64) (p % 64)) Fl.STR_PORT_CTRL_EN then controlMark d (p / 64) b frame.length else none
  match ctl with
  | some c => (c, true)
  | none => (trustClass d p b, false)

/-! ## The parse (R92 to R97, R541) -/

/-- What the parse meets next, and where. -/
inductive Nxt where
  | stop
  | ether (pos : Nat)
  | tag (pos : Nat) (n : Nat)
  | etype (pos : Nat) (ty : Nat)
  | label (pos : Nat) (n : Nat) (first : Nat)
  | ip4 (pos : Nat)
  | ip6 (pos : Nat)
  | ext (pos : Nat) (kind : Nat) (n : Nat)
  | proto (pos : Nat) (p : Nat)
  deriving DecidableEq, Repr

/-- Settings of a parse: enables, STRICT, limits, ports. -/
structure PCfg where
  en : Nat
  strict : Bool
  maxBytes : Nat
  maxHdrs : Nat
  maxEncap : Nat
  deep : Bool
  vxlan : Nat
  geneve : Nat
  len : Nat
  deriving DecidableEq, Repr

/-- A parse in progress. `ip`, `l4` with their inner counterparts are what the hash takes. -/
structure PSt where
  next : Nxt := .ether 0
  hdrs : Nat := 0
  encap : Nat := 0
  tags : Nat := 0
  eth : Nat := 0
  offs : List Nat := [255, 255, 255, 255, 255, 255]
  l3k : Nat := 0
  l4k : Nat := 0
  enc : Nat := 0
  part : Bool := false
  ptp : Bool := false
  frag : Bool := false
  mal : Option Nat := none
  ip : Option (Nat × Bool) := none
  last : Nat := 0
  l4 : Option Nat := none
  iEth : Option (Nat × Nat) := none
  iip : Option (Nat × Bool) := none
  iLast : Nat := 0
  il4 : Option Nat := none
  ifrag : Bool := false
  /-- the tunnel level whose headers the inner fields of the hash are -/
  iLvl : Nat := 0
  deriving DecidableEq, Repr

/-- End without error. -/
def pEnd (x : PSt) : PSt := { x with next := .stop }
/-- End as malformed. -/
def pBad (x : PSt) (r : Nat) : PSt := { x with next := .stop, mal := some r }
/-- A depth limit is reached (R94). -/
def pLimit (c : PCfg) (x : PSt) : PSt := if c.deep then pBad x 9 else { x with next := .stop, part := true }
/-- An unknown next header (R93). -/
def pUnknown (c : PCfg) (x : PSt) : PSt := if c.strict then pBad x 10 else pEnd x
/-- Set layer offset `i`. -/
def setOff (x : PSt) (i v : Nat) : PSt := { x with offs := lmod x.offs i (fun _ => v) }

/-- Steps 2 to 4 of R541 for a header at `pos`: its fixed part, its extent where announced, a tunnel or not; `k` goes on. -/
def pHead (c : PCfg) (x : PSt) (pos fixed ext : Nat) (tunnel : Bool) (k : PSt → PSt) : PSt :=
  if c.maxHdrs < x.hdrs + 1 || (tunnel && c.maxEncap < x.encap + 1) then pLimit c x
  else if c.maxBytes < pos + ext then pLimit c x
  else if c.len < pos + fixed then pBad x 0
  else k { x with hdrs := x.hdrs + 1, encap := if tunnel then x.encap + 1 else x.encap }

/-- The extent `e` when the field that announces it, ending at `until_`, lies within the data; else the fixed part. -/
def announced (c : PCfg) (until_ fixed e : Nat) : Nat := if until_ ≤ c.len then max fixed e else fixed

/-- The next header after a type value of Ethernet or of a tunnel. -/
def pType (c : PCfg) (x : PSt) (pos ty : Nat) (tunnel : Bool) : PSt :=
  let on (i : Nat) : Bool := c.en.testBit i
  match ty with
  | 0x0800 => if on 3 then { x with next := .ip4 pos } else pUnknown c x
  | 0x86DD => if on 4 then { x with next := .ip6 pos } else pUnknown c x
  | 0x8847 => if on 2 then { x with next := .label pos 0 pos } else pUnknown c x
  | 0x8848 => if on 2 && !tunnel then { x with next := .label pos 0 pos } else pUnknown c x
  | 0x6558 => if tunnel then { x with next := .ether pos } else pUnknown c x
  | _ => if tunnel then pUnknown c x else { x with next := .etype pos ty }

/-- The inner offsets are set afresh by each tunnel level (R96). -/
def pTunnel (x : PSt) (kind : Nat) : PSt :=
  { setOff (setOff (setOff x 3 255) 4 255) 5 255 with enc := if x.enc == 0 then kind else x.enc }
/-- The first inner header parsed at a tunnel level takes the place of those of the level before in the hash (R98). -/
def pInner (x : PSt) : PSt :=
  if x.iLvl == x.encap then x else { x with iLvl := x.encap, iEth := none, iip := none, iLast := 0, il4 := none, ifrag := false }

/-- The IPv4 options are well formed (R99, reason 15). -/
def optsOk (b : List Byte) : Nat → Nat → Nat → Bool
  | 0, _, _ => true
  | n + 1, pos, stop =>
    if stop ≤ pos then true
    else match byteAt b pos with
      | 0 => true
      | 1 => optsOk b n (pos + 1) stop
      | _ => if stop < pos + 2 then false
             else
               let l := byteAt b (pos + 1)
               if l < 2 || stop < pos + l then false else optsOk b n (pos + l) stop

/-- Note an IP header for offsets and hash. -/
def pIp (x : PSt) (pos : Nat) (six : Bool) (proto : Nat) : PSt :=
  if x.encap == 0 then { setOff x 1 pos with l3k := if six then 2 else 1, ip := some (pos, six), last := proto }
  else { setOff (pInner x) 4 pos with iip := some (pos, six), iLast := proto }
/-- Note a fragment. -/
def pFrag (x : PSt) : PSt := if x.encap == 0 then { x with frag := true } else { x with ifrag := true }
/-- Note an L4 header. -/
def pL4 (x : PSt) (pos kind : Nat) : PSt :=
  if x.encap == 0 then { setOff x 2 pos with l4k := kind, l4 := if kind == 3 then none else some pos }
  else if kind == 3 then x else { setOff x 5 pos with il4 := some pos }

/-- IPv4 header. -/
def pIp4 (c : PCfg) (b : List Byte) (x : PSt) (pos : Nat) : PSt :=
  let ihl := byteAt b pos % 16
  let hl := 4 * ihl
  pHead c x pos 20 (if 5 ≤ ihl then announced c (pos + 1) 20 hl else 20) false (fun x =>
    let total := beAt b (pos + 2) 2
    if ihl < 5 then pBad x 1
    else if c.len < pos + hl then pBad x 0
    else if ones16 0 ((b.drop pos).take hl) != 0xFFFF then pBad x 2
    else if total < hl || c.len < pos + total then pBad x 3
    else if byteAt b pos / 16 != 4 then pBad x 4
    else if !optsOk b 40 (pos + 20) (pos + hl) then pBad x 15
    else
      let fr := beAt b (pos + 6) 2
      let x := pIp x pos false (byteAt b (pos + 9))
      let x := if fr % 16384 != 0 then pFrag x else x
      if fr % 8192 != 0 then pEnd x else { x with next := .proto (pos + hl) (byteAt b (pos + 9)) })

/-- Whether an IPv6 next header is an extension that R92 lists, and one that R93 lists as unknown. -/
def isExt (k : Nat) : Bool := k == 0 || k == 43 || k == 44 || k == 60
def unknownExt (k : Nat) : Bool := [51, 135, 139, 140, 253, 254].contains k

/-- What follows an IPv6 header or extension. -/
def pAfter6 (c : PCfg) (x : PSt) (pos k n : Nat) : PSt :=
  let x := if x.encap == 0 then { x with last := k } else { x with iLast := k }
  if isExt k then (if c.en.testBit 5 then { x with next := .ext pos k n } else pUnknown c x)
  else if unknownExt k then pUnknown c x
  else { x with next := .proto pos k }

/-- IPv6 header. -/
def pIp6 (c : PCfg) (b : List Byte) (x : PSt) (pos : Nat) : PSt :=
  pHead c x pos 40 40 false (fun x =>
    if byteAt b pos / 16 != 6 then pBad x 4
    else if c.len < pos + 40 + beAt b (pos + 4) 2 then pBad x 5
    else pAfter6 c (pIp x pos true (byteAt b (pos + 6))) (pos + 40) (byteAt b (pos + 6)) 0)

/-- IPv6 extension header number `n`. -/
def pExt (c : PCfg) (b : List Byte) (x : PSt) (pos kind n : Nat) : PSt :=
  if 4 ≤ n then pBad x 6
  else
    let size := if kind == 44 then 8 else (byteAt b (pos + 1) + 1) * 8
    pHead c x pos 2 (if kind == 44 then 8 else announced c (pos + 2) 2 size) false (fun x =>
      if c.len < pos + size then pBad x 6
      else
        let x := if kind == 44 then pFrag x else x
        let nh := byteAt b pos
        if kind == 44 && beAt b (pos + 2) 2 / 8 != 0 then pEnd (if x.encap == 0 then { x with last := nh } else { x with iLast := nh })
        else pAfter6 c x (pos + size) nh (n + 1))

/-- UDP and what its destination port selects. In the outer headers ports 319 and 320 name PTP before a tunnel (DESIGN CHOICE, log 233). -/
def pUdp (c : PCfg) (b : List Byte) (x : PSt) (pos : Nat) : PSt :=
  pHead c x pos 8 8 false (fun x =>
    let l := beAt b (pos + 4) 2
    if l < 8 || c.len < pos + l then pBad x 12
    else
      let dp := beAt b (pos + 2) 2
      let outer := x.encap == 0
      let x := pL4 x pos 1
      let p := pos + 8
      if (dp == 319 || dp == 320) && outer && c.en.testBit 12 then
        pHead c x p 34 34 false (fun x => { x with ptp := true, next := .stop })
      else if dp == c.vxlan && c.en.testBit 9 then
        pHead c x p 8 8 true (fun x => { pTunnel x 1 with next := .ether (p + 8) })
      else if dp == c.geneve && c.en.testBit 10 && (c.len ≤ p || byteAt b p / 64 == 0) then
        let ol := 4 * (byteAt b p % 64)
        pHead c x p 8 (announced c (p + 1) 8 (8 + ol)) true (fun x =>
          if 64 < ol || c.len < p + 8 + ol then pBad x 13
          else if beAt b (p + 2) 2 == 0x8847 then pUnknown c (pTunnel x 2)
          else pType c (pTunnel x 2) (p + 8 + ol) (beAt b (p + 2) 2) true)
      else pEnd x)

/-- TCP. -/
def pTcp (c : PCfg) (b : List Byte) (x : PSt) (pos : Nat) : PSt :=
  let off := byteAt b (pos + 12) / 16
  pHead c x pos 20 (if 5 ≤ off then announced c (pos + 13) 20 (4 * off) else 20) false (fun x =>
    if off < 5 || c.len < pos + 4 * off then pBad x 12 else pEnd (pL4 x pos 2))

/-- GRE: version 0 and routing bit 0 only. -/
def pGre (c : PCfg) (b : List Byte) (x : PSt) (pos : Nat) : PSt :=
  let f := byteAt b pos
  if pos + 2 ≤ c.len && (byteAt b (pos + 1) % 8 != 0 || f.testBit 6) then pEnd x
  else
    let size := 4 + 4 * (b2n (f.testBit 7) + b2n (f.testBit 5) + b2n (f.testBit 4))
    pHead c x pos 4 (announced c (pos + 1) 4 size) true (fun x =>
      if c.len < pos + size then pBad x 0
      else
        let ty := beAt b (pos + 2) 2
        pType c (pTunnel x 3) (pos + size) ty true)

/-- Upper-layer protocol `p`. -/
def pProto (c : PCfg) (b : List Byte) (x : PSt) (pos p : Nat) : PSt :=
  let on (i : Nat) : Bool := c.en.testBit i
  match p with
  | 17 => if on 7 then pUdp c b x pos else pEnd x
  | 6 => if on 8 then pTcp c b x pos else pEnd x
  | 47 => if on 11 then pGre c b x pos else pEnd x
  | 50 => if on 13 then pHead c x pos 8 8 false (fun x => pEnd (pL4 x pos 3)) else pEnd x
  | _ => pEnd x

/-- The type after Ethernet and its tags, for types of no IP or MPLS. -/
def pOther (c : PCfg) (b : List Byte) (x : PSt) (pos ty : Nat) : PSt :=
  let on (i : Nat) : Bool := c.en.testBit i
  let outer := x.encap == 0
  if ty < 0x0600 then pEnd x
  else if ty == 0x0806 && on 6 then
    let size := 8 + 2 * (byteAt b (pos + 4) + byteAt b (pos + 5))
    pHead c x pos 8 (announced c (pos + 6) 8 size) false (fun x =>
      if c.len < pos + size then pBad x 0 else pEnd (if outer then { setOff x 1 pos with l3k := 3 } else x))
  else if ty == 0x88E5 && on 13 then
    let size := if (byteAt b pos).testBit 5 then 14 else 6
    pHead c x pos 6 (announced c (pos + 1) 6 size) false (fun x =>
      if c.len < pos + size then pBad x 0 else pEnd (if outer then { setOff x 1 pos with l3k := 5 } else x))
  else if ty == 0x88F7 && on 12 && outer then
    pHead c x pos 34 34 false (fun x => pEnd { setOff x 1 pos with l3k := 6, ptp := true })
  else pUnknown c x

/-- An Ethernet header and its tags have been parsed: the type at `pos` follows (R99 reasons 11 and 14 for the outer one). -/
def pAfterEth (c : PCfg) (b : List Byte) (x : PSt) (pos n : Nat) : PSt :=
  if c.maxBytes < pos + 2 then pLimit c x
  else if c.len < pos + 2 then pBad x 0
  else
    let outer := x.encap == 0
    let x := if outer then setOff x 0 pos else setOff x 3 pos
    if outer && c.len + 4 - 4 * n < 64 then pBad x 11
    else if outer && (byteAt b 6).testBit 0 then pBad x 14
    else pType c x (pos + 2) (beAt b pos 2) false

/-- A possible tag at `pos` after `n` tags; a tag that the parse meets enters the hash though a limit may end the parse there (R98). -/
def pTag (c : PCfg) (b : List Byte) (x : PSt) (pos n : Nat) : PSt :=
  let ty := beAt b pos 2
  if pos + 2 ≤ c.len && ((ty == 0x8100 && c.en.testBit 0) || (ty == 0x88A8 && c.en.testBit 1)) then
    let x := if x.encap == 0 then { x with tags := n + 1 } else { x with iEth := some (x.eth, n + 1) }
    if 4 ≤ n then pBad x 7 else pHead c x pos 4 4 false (fun x => { x with next := .tag (pos + 4) (n + 1) })
  else pAfterEth c b x pos n

/-- Label number `n` of a stack that began at `first`. A limit that ends the parse inside the stack leaves OFF_L3 at 0xFF and L3KIND at 0
(DESIGN CHOICE, log 232). -/
def pLabel (c : PCfg) (b : List Byte) (x : PSt) (pos n first : Nat) : PSt :=
  if 8 ≤ n then pBad x 8
  else pHead c x pos 4 4 false (fun x =>
    if !(byteAt b (pos + 2)).testBit 0 then { x with next := .label (pos + 4) (n + 1) first }
    else
      let q := pos + 4
      let nib := if q < c.len then byteAt b q / 16 else 0
      if nib == 4 && c.en.testBit 3 then { x with next := .ip4 q }
      else if nib == 6 && c.en.testBit 4 then { x with next := .ip6 q }
      else pEnd (if x.encap == 0 then { setOff x 1 first with l3k := 4 } else x))

/-- Headers one after another. -/
def pRun (c : PCfg) (b : List Byte) : Nat → PSt → PSt
  | 0, x => x
  | n + 1, x =>
    match x.next with
    | .stop => x
    | .ether p => pRun c b n (pHead c x p 14 14 false (fun x =>
        let x := { x with eth := p, next := .tag (p + 12) 0 }
        if x.encap == 0 then x else { pInner x with iEth := some (p, 0) }))
    | .tag p k => pRun c b n (pTag c b x p k)
    | .etype p ty => pRun c b n (pOther c b x p ty)
    | .label p k f => pRun c b n (pLabel c b x p k f)
    | .ip4 p => pRun c b n (pIp4 c b x p)
    | .ip6 p => pRun c b n (pIp6 c b x p)
    | .ext p k m => pRun c b n (pExt c b x p k m)
    | .proto p k => pRun c b n (pProto c b x p k)

/-! ## Key hash (R98) -/

/-- Fields of selection 0 for the Ethernet header at `eth` with `n` tags. -/
def hashEth (b : List Byte) (eth n : Nat) : List Byte :=
  (b.drop eth).take 12 ++ (if n == 0 then [] else beBytes 2 (beAt b (eth + 14) 2 % 4096))
/-- Fields of selection 1 for an IP header. -/
def hashIp (b : List Byte) (ip : Nat × Bool) (last : Nat) (l4 : Option Nat) (frag : Bool) : List Byte :=
  (if ip.2 then (b.drop (ip.1 + 8)).take 32 else (b.drop (ip.1 + 12)).take 8) ++ [BitVec.ofNat 8 last] ++
    (match l4 with | some p => if frag then [] else (b.drop p).take 4 | none => [])

/-- The fields that a selection takes. -/
def hashFields (b : List Byte) (x : PSt) (sel : Nat) : List Byte :=
  let outer0 := hashEth b 0 x.tags
  let outer1 := match x.ip with | some i => hashIp b i x.last (if x.l4k == 1 || x.l4k == 2 then x.l4 else none) x.frag | none => outer0
  match sel with
  | 0 => outer0
  | 2 => match x.iip, x.iEth with
    | some i, _ => hashIp b i x.iLast x.il4 x.ifrag
    | none, some (e, n) => hashEth b e n
    | none, none => outer1
  | _ => outer1

/-- Settings in force for a port. -/
def parseCfg (d : Dev) (p len : Nat) : PCfg :=
  let z := p / 64
  let r := Rg.STR_PORT z (p % 64)
  { en := rf d r Fl.STR_PORT_HDR_EN, strict := rb d r Fl.STR_PORT_STRICT
    maxBytes := rf d (Rg.STR_DEPTH z) Fl.STR_DEPTH_MAX_BYTES, maxHdrs := rf d (Rg.STR_DEPTH z) Fl.STR_DEPTH_MAX_HDRS
    maxEncap := rf d (Rg.STR_DEPTH z) Fl.STR_DEPTH_MAX_ENCAP, deep := rb d (Rg.STR_DEPTH z) Fl.STR_DEPTH_DEPTH_MODE
    vxlan := rf d (Rg.STR_UDP_PORTS z) Fl.STR_UDP_PORTS_VXLAN_PORT, geneve := rf d (Rg.STR_UDP_PORTS z) Fl.STR_UDP_PORTS_GENEVE_PORT
    len := len - 4 }

/-- Tags of the outer Ethernet header as its type values show them, for the hash of an UNPARSED packet. -/
def outerTagged (b : List Byte) : Nat := if isTag (beAt b 12 2) then 1 else 0

/-- The parse of a packet: status, offsets, hash, malformed reason and action (R95 to R100). -/
def parsePkt (d : Dev) (k : Pkt) : Parse :=
  let z := k.port / 64
  let c := parseCfg d k.port k.bytes.length
  let x := pRun c k.bytes 64 {}
  let sel := rf d (Rg.STR_PORT z (k.port % 64)) Fl.STR_PORT_HASH_SEL
  let seed := rd d (Rg.STR_HASH_SEED z)
  match x.mal with
  | none =>
    { status := x.l3k + x.l4k * 8 + x.enc * 32 + b2n x.part * 128 + b2n x.ptp * 256 + b2n k.marked * 512 + b2n x.frag * 1024
      offs := x.offs, hash := crc32cRaw seed (hashFields k.bytes x sel), mal := none, act := 2 }
  | some r =>
    { status := 2048 + r * 4096, offs := [255, 255, 255, 255, 255, 255]
      hash := crc32cRaw seed (hashEth k.bytes 0 (max x.tags (outerTagged k.bytes))), mal := some r
      act := rf d (Rg.STR_ACTION z) (Fl.STR_ACTION_ACT r) }

end Sys2Proof.Machine
end

