-- ==== Sys2Proof/Machine/Tables.lean ====
section
/-!
DEFINITION. The commands of the table complex and of the hub's masters: insertion, distribution, learning, aging, entry locks,
holds and rebuilds (R241, R247 to R261, R394).
-/

namespace Sys2Proof.Machine
open Sys2Proof

def portDflt' : Nat → List PortOp := fun _ => []
def portQ (d : Dev) (z : Nat) : List PortOp := tget portDflt' d.tbl.port z
def setPortQ (d : Dev) (z : Nat) (l : List PortOp) : Dev := modTbl d (fun b => { b with port := tset portDflt' b.port z l })
def addChange (d : Dev) (c : Change) : Dev := modTbl d (fun b => { b with changes := b.changes ++ [c] })

/-- Slot word of INSRT and DEL (R224). -/
def updateWord (res : TblRes) : W64 := BitVec.ofNat 64 (res.status * 2 ^ 56 + res.pos % 2 ^ 32)

/-- What the zone has at the positions that its change touched. -/
def leftAt (d : Dev) (z t r : Nat) (poss : List Nat) : List (Nat × TEnt) := poss.map (fun p => (p, ent d (1 + z) t r p))

/-- One operation of INSRT or DEL on the zone's replica, provisionally when the table is replicated (R224, R247, R249). -/
def doPortOp (d : Dev) (z : Nat) (o : PortOp) : Dev :=
  let x := tdescOf o.regs
  let give (d : Dev) (res : TblRes) : Dev := pushResult d 2 true o.cid o.t o.home o.slot o.lane (updateWord res) false o.flight
  if x.repl && frozen d z then give d (tblFail 8)
  else
    let (res, d) := if o.del then deleteTbl d (1 + z) o.tbl x.bank x o.key else insertTbl d (1 + z) o.tbl x.bank x o.sub o.key o.data
    let d := if o.del then d else noteNoRoom (noteEvicted d z o.tbl x res) z res
    let d := if x.repl && res.status ≤ 2 then
        addChange d { zone := z, tbl := o.tbl, kind := if o.del then .del else .insert o.sub false, key := o.key, data := o.data
                      region := x.bank, touched := leftAt d z o.tbl x.bank res.touched }
      else d
    give d res

/-- An operation that waits for INSERTION: INSRT into an EXACT table. -/
def isInsertion (o : PortOp) : Bool := !o.del && (tdescOf o.regs).ty == 1

/-- Removals and prefix updates at the head of the port's queue take effect at once. -/
def followers (d : Dev) (z : Nat) : Nat → Dev
  | 0 => d
  | n + 1 =>
    match portQ d z with
    | o :: l => if isInsertion o then d else followers (doPortOp (setPortQ d z l) z o) z n
    | [] => d

/-- The update port takes a lane of INSRT or DEL: an insertion into an EXACT table waits for its 24 CC, and what the port takes after it
waits behind it (R220, R242). -/
def takePortOp (d : Dev) (z : Nat) (o : PortOp) : Dev :=
  if isInsertion o || !(portQ d z).isEmpty then setPortQ d z (portQ d z ++ [o]) else doPortOp d z o

/-- The port has taken operations that have not taken effect: what comes to it after them waits (R242). -/
def portBusy (d : Dev) (z : Nat) : Bool := !(portQ d z).isEmpty

/-- R241: the insertion that the port of a zone took first, into table `tbl`. The hub's own insertions happen with MASTER_APPLY and
table DMA. -/
def execInsertion (p : Place) (tbl : Fin 32) (s : State) : Host.Outcome State Fault Refusal :=
  s.onDevF (fun d =>
    if p.val == 0 then d
    else
      let z := p.val - 1
      match portQ d z with
      | o :: l => if o.tbl == tbl.val then followers (doPortOp (setPortQ d z l) z o) z l.length else d
      | [] => d)

/-- Two entries differ, stamps apart. -/
def entsDiffer (a b : TEnt) : Bool := a.valid != b.valid || (a.valid && (a.key != b.key || a.data != b.data))
/-- The master's result differs from a provisional change: at a position that the zone touched from what the change left there, at
another one that the hub wrote from what the zone has (R248). -/
def changeDiffers (d : Dev) (c : Change) (poss : List Nat) : Bool :=
  (poss ++ c.touched.map (·.1)).any (fun p =>
    entsDiffer ((c.touched.lookup p).getD (ent d (1 + c.zone) c.tbl c.region p)) (ent d 0 c.tbl c.region p))

/-- The hub applies a change to the master, in the region in which the zone made it, and distributes the result (R247, R248). -/
def applyChange (d : Dev) (c : Change) : Dev :=
  let x := descAt d 0 c.tbl
  let r := c.region
  let send (d : Dev) (poss : List Nat) : Dev :=
    distribute d c.tbl r poss (fun z => if z == c.zone then c.touched.map (·.1) else [])
  let judge (d : Dev) (poss : List Nat) : Dev :=
    if changeDiffers d c poss then bump (bump d (Rg.TBL_REJECTED c.zone) 1) Rg.HTB_DIST_REJECT 1 else d
  if !x.repl then d
  else match c.kind with
    | .insert sub learn =>
      let was := (findKey d 0 c.tbl r x (storedKey x c.key)).map (fun p => (ent d 0 c.tbl r p).data.toNat % 65536)
      let (res, d) := insertTbl d 0 c.tbl r x sub c.key c.data
      let d := syncRes (masterEvicted d c.tbl c.zone x res) c.tbl x c.key c.data false res
      let d := if learn && (res.status == 0 || res.status == 2) then postLearn d x 0 false c.tbl c.zone res.pos c.key (ent d 0 c.tbl r res.pos).data
        else if learn && res.status == 1 && was != some (c.data.toNat % 65536) then
          postLearn d x 1 false c.tbl c.zone res.pos c.key (ent d 0 c.tbl r res.pos).data
        else d
      send (judge d res.touched) res.touched
    | .del =>
      let (res, d) := deleteTbl d 0 c.tbl r x c.key
      let d := syncRes d c.tbl x c.key 0 true res
      send (judge d res.touched) res.touched
    | .unstash =>
      match findKey d 0 c.tbl r x c.key with
      | some p =>
        match (cands x r c.key).find? (emptyPos d 0 c.tbl r x) with
        | some q => if isStash p && movable d 0 c.tbl r x p then
            send (clearEnt (writeEnt d 0 c.tbl r x q (ent d 0 c.tbl r p)) 0 c.tbl r x p) [q, p] else d
        | none => d
      | none => d

/-- The first change that reached the hub. A change of a zone that has been isolated since never arrives. -/
def execMasterApply (s : State) : Host.Outcome State Fault Refusal :=
  s.onDevF (fun d =>
    match d.tbl.changes with
    | [] => d
    | c :: l =>
      let d := modTbl d (fun b => { b with changes := l })
      if isolated d c.zone then d else applyChange d c)

/-- Granules of a distribution: those of each entry that it writes. -/
def distGranules (d : Dev) (z : Nat) (w : DistW) : Nat :=
  (w.writes.map (fun e => granules (entBytes (descAt d (1 + z) e.1)))).foldl (· + ·) 0

/-- R247, R18: the first hub write that waits for the zone takes effect, after what the update port took before it (R242); the longest
distribution is kept. -/
def execDistributionWrite (z : Zone) (s : State) : Host.Outcome State Fault Refusal :=
  s.onDevF (fun d =>
    if isolated d z then d
    else match distQ d z with
      | [] => d
      | w :: l =>
        let n := distGranules d z w
        if !linkFree d z false n || portBusy d z then d else
        let d := crossLink (setDist d z l) z false n
        let d := w.writes.foldl (fun d e => writeEnt d (1 + z) e.1 e.2.1 (descAt d (1 + z) e.1) e.2.2.1 e.2.2.2) d
        if (List.range 4).any (fun y => !isolated d y && (distQ d y).any (fun v => v.id == w.id)) then d
        else
          let t := nowNs d - w.at_
          if (rd d Rg.HTB_DIST_MAX).toNat < t then wr d Rg.HTB_DIST_MAX (BitVec.ofNat 32 t) else d)

/-- R265: a distribution older than 2 µs whose zone's link is not UP. -/
def execDistLate (s : State) : Host.Outcome State Fault Refusal :=
  s.onDev (fun d =>
    let isLate (z : Nat) (w : DistW) : Bool := !w.late && (lnk d z).state != 3 && 2000 < nowNs d - w.at_
    let zs := (List.range 4).filter (fun z => (distQ d z).any (isLate z))
    if zs.isEmpty then d
    else htbEvent (zs.foldl (fun d z => setDist d z ((distQ d z).map (fun w => if isLate z w then { w with late := true } else w))) d) 3)

/-! ## Learning (R250, R251) -/

def learnDflt : Nat → List (List Byte × Nat) := fun _ => []
def learnQ (d : Dev) (z : Nat) : List (List Byte × Nat) := tget learnDflt d.tbl.learn z
def setLearnQ (d : Dev) (z : Nat) (l : List (List Byte × Nat)) : Dev := modTbl d (fun b => { b with learn := tset learnDflt b.learn z l })
/-- The table that receives hardware learning, if learning is on. -/
def learnTable (d : Dev) (z : Nat) : Option Nat :=
  if rb d (Rg.TBL_CTRL z) Fl.TBL_CTRL_LEARN_EN && rb d (Rg.TBL_LEARN_CFG z) Fl.TBL_LEARN_CFG_VALID then
    some (rf d (Rg.TBL_LEARN_CFG z) Fl.TBL_LEARN_CFG_TABLE)
  else none
def learnDrop (d : Dev) (z : Nat) : Dev := tblEvent (bump d (Rg.TBL_LEARN_DROP z) 1) z 0
/-- Hardware learning into the table is dropped now. -/
def learnShut (d : Dev) (z t : Nat) : Bool := tblIsHeld d z t || ((descAt d (1 + z) t).repl && frozen d z)

/-- A candidate of a parsed frame: dropped, merged with an equal key, or queued. Which of two ports a merged candidate keeps is
a free value. -/
def learnCandidate (d : Dev) (p : Nat) (key : List Byte) : Dev :=
  let z := p / 64
  match learnTable d z with
  | none => d
  | some t =>
    if !(rd d (Rg.TBL_LEARN_PORTS z (p % 64 / 32))).toNat.testBit (p % 32) then d
    else if learnShut d z t then learnDrop d z
    else match (learnQ d z).lookup key with
      | some q =>
        if q == p then d
        else if (freeVal d).getLsbD 0 then useFree d
        else useFree (setLearnQ d z ((learnQ d z).map (fun c => if c.1 == key then (key, p) else c)))
      | none => if 1024 ≤ (learnQ d z).length then learnDrop d z else setLearnQ d z (learnQ d z ++ [(key, p)])

/-- The update port handles one candidate: new, refresh or move. -/
def learnOne (d : Dev) (z t : Nat) (key : List Byte) (p : Nat) : Dev :=
  let x := descAt d (1 + z) t
  let r := x.bank
  let pl := 1 + z
  if x.ty != 1 || x.keyBytes != 8 then d
  else if learnShut d z t then learnDrop d z
  else
    let tell (d : Dev) (data : W64) (res : TblRes) (kind : Nat) : Dev :=
      if x.repl then addChange d { zone := z, tbl := t, kind := .insert 0 true, key := key, data := data, region := r
                                   touched := leftAt d z t r res.touched }
      else postLearn d x kind true t z res.pos key (ent d pl t r res.pos).data
    match findKey d pl t r x key with
    | none =>
      let base := (rd d (Rg.TBL_LEARN_DATA z 0)).toNat + (rd d (Rg.TBL_LEARN_DATA z 1)).toNat * 2 ^ 32
      let data := BitVec.ofNat 64 (base / 65536 * 65536 + p)
      let (res, d) := insertTbl d pl t r x 0 key data
      let d := noteNoRoom (noteEvicted d z t x res) z res
      if res.status == 0 || res.status == 2 then tell (bump d (Rg.TBL_LEARN_NEW z) 1) data res 0 else d
    | some pos =>
      let e := ent d pl t r pos
      if e.lock.isSome then d
      else if e.data.toNat % 65536 == p then refresh d pl t r x pos
      else
        let data := BitVec.ofNat 64 (e.data.toNat / 65536 * 65536 + p)
        let d := writeEnt d pl t r x pos { e with data := data, stamp := tableTime d pl x }
        let d := tblEvent (bump d (Rg.TBL_LEARN_MOVE z) 1) z 1
        tell d data { status := 1, pos := pos, touched := [pos], evicted := none } 1

/-- The oldest candidate, once what the update port took before it has taken effect (R242). -/
def execLearnUpdate (z : Zone) (s : State) : Host.Outcome State Fault Refusal :=
  s.onDevF (fun d =>
    match learnQ d z with
    | [] => d
    | (k, p) :: l =>
      if portBusy d z then d else
      let d := setLearnQ d z l
      match learnTable d z with
      | none => d
      | some t => learnOne d z t k p)

/-! ## Aging (R253, R254) -/

/-- The sweep of a zone visits one entry. -/
def sweepZone (d : Dev) (z t pos : Nat) : Dev :=
  let x := descAt d (1 + z) t
  let r := x.bank
  let pl := 1 + z
  let e := ent d pl t r pos
  if !rb d (Rg.TBL_CTRL z) Fl.TBL_CTRL_SWEEP_EN || x.ty != 1 || x.limit == 0 || tblIsHeld d z t || (x.repl && frozen d z) ||
      !movable d pl t r x pos then d
  else if agedEnt d pl x e.stamp then
    if x.repl then
      if d.tbl.aged.contains (z, t, r, pos) then d else modTbl d (fun b => { b with aged := b.aged ++ [(z, t, r, pos)] })
    else postLearn (bump (clearEnt d pl t r x pos) (Rg.TBL_AGED z) 1) x 2 true t z pos e.key e.data
  else if isStash pos then
    match (cands x r e.key).find? (emptyPos d pl t r x) with
    | some q =>
      if x.repl then addChange d { zone := z, tbl := t, kind := .unstash, key := e.key, data := 0, region := r, touched := [] }
      else clearEnt (writeEnt d pl t r x q e) pl t r x pos
    | none => d
  else d

/-- The hub's sweep of an extension table visits one entry. -/
def sweepExt (d : Dev) (t pos : Nat) : Dev :=
  let x := descAt d 0 t
  let e := ent d 0 t 0 pos
  let (bad, d) := if x.ty == 1 && e.valid then hbmRead d 2 897 (extAddr x pos) (entBytes x) else (false, d)
  if x.ty == 1 && x.limit != 0 && !extIsHeld d (t - 32) && e.valid && e.lock.isNone && !bad && agedEnt d 0 x e.stamp then
    postLearn (bump (clearEnt (extStore d 2 897 x [pos]) 0 t 0 x pos) Rg.HTB_AGED 1) x 2 false t 0 pos e.key e.data
  else d

def execAgingSweep (p : Place) (tbl : Fin 40) (pos : Nat) (s : State) : Host.Outcome State Fault Refusal :=
  s.onDevF (fun d =>
    if p.val == 0 then (if 32 ≤ tbl.val then sweepExt d tbl pos else d)
    else if tbl.val < 32 && !portBusy d (p.val - 1) then sweepZone d (p.val - 1) tbl pos else d)

/-- R254: the freshest stamp of the four replicas decides, as their update ports read them; a zone that is cut off is not read. -/
def execAgedReport (s : State) : Host.Outcome State Fault Refusal :=
  s.onDevF (fun d =>
    match d.tbl.aged with
    | [] => d
    | (z, t, r, pos) :: l =>
      if (List.range 4).any (fun y => !isolated d y && portBusy d y) then d else
      let d := modTbl d (fun b => { b with aged := l })
      let x := descAt d 0 t
      let e := ent d 0 t r pos
      if !x.repl || x.bank != r || !e.valid || e.lock.isSome || descDiffers d t then d
      else
        let ages := ((List.range 4).filter (fun y => !isolated d y && (ent d (1 + y) t r pos).valid && (ent d (1 + y) t r pos).key == e.key)).map
          (fun y => entAge d 0 x (ent d (1 + y) t r pos).stamp)
        let a := ages.foldl min 65535
        if ages.isEmpty then d
        else if x.limit != 0 && x.limit ≤ a then
          let d := bump (clearEnt d 0 t r x pos) Rg.HTB_AGED 1
          postLearn (masterWrote (noteSync d t x e.key e.data true) t r [pos]) x 2 false t z pos e.key e.data
        else masterWrote (writeEnt d 0 t r x pos { e with stamp := (tableTime d 0 x + 65536 - a) % 65536 }) t r [pos])

/-! ## Entry locks (R256) -/

/-- Clear the lock of an entry with its contents unchanged; the master's goes to the zones. -/
def unlockEnt (d : Dev) (pl t r pos : Nat) : Dev :=
  let d := modTbl d (fun b => { b with ents := tmod entDflt b.ents (entKey pl t r pos) (fun e => { e with lock := none }) })
  if pl == 0 && t < 32 then masterWrote d t r [pos] else d

/-- The entry's lock is that of its place: a replicated table's is held by the master. -/
def lockHome (d : Dev) (pl t : Nat) : Bool := if pl == 0 then 32 ≤ t || (descAt d 0 t).repl else t < 32 && !(descAt d pl t).repl

def execLockExpired (p : Place) (tbl : Fin 40) (r : Bool) (pos : Nat) (s : State) : Host.Outcome State Fault Refusal :=
  s.onDev (fun d =>
    let e := ent d p tbl (b2n r) pos
    let lim := if p.val == 0 then rf d Rg.HTB_LOCK_LIMIT Fl.HTB_LOCK_LIMIT_LIMIT else rf d (Rg.TBL_LOCK_LIMIT (p.val - 1)) Fl.TBL_LOCK_LIMIT_LIMIT
    match e.lock with
    | some (_, since) =>
      if lockHome d p tbl && since + lim * 1000 < nowNs d then
        let d := unlockEnt d p tbl (b2n r) pos
        if p.val == 0 then htbEvent (bump d Rg.HTB_LOCK_EXPIRED 1) 2
        else tblEvent (bump d (Rg.TBL_LOCK_EXPIRED (p.val - 1)) 1) (p.val - 1) 3
      else d
    | none => d)

/-- The position that an operation addresses: by key in LPM tables alone, where it may find none. -/
def entAt (d : Dev) (pl t r : Nat) (x : TDesc) (a : EntAt) : Option Nat :=
  match a with
  | .pos n => some n
  | .key k => if (x.ty == 2 || x.ty == 3) && !badLpm x k then findKey d pl t r x (storedKey x k) else none

/-- R255: FORCE_UNLOCK clears any lock, addressed as READ_LOCK is. -/
def execForceUnlock (p : Place) (tbl : Fin 40) (r : Bool) (at_ : EntAt) (s : State) : Host.Outcome State Fault Refusal :=
  s.onDev (fun d =>
    match entAt d p tbl (b2n r) (descAt d p tbl) at_ with
    | some pos => if lockHome d p tbl && (ent d p tbl (b2n r) pos).lock.isSome then unlockEnt d p tbl (b2n r) pos else d
    | none => d)

/-! ## Holds (R259) -/

/-- Write TBL_HOLD: HELD falls at once for the tables released. -/
def tblHoldWrite (d : Dev) (z : Nat) (v : W32) : Dev :=
  let d := wr d (Rg.TBL_HOLD z) v
  wr d (Rg.TBL_HELD z) (BitVec.ofNat 32 (ofBits ((bitsOf (rd d (Rg.TBL_HELD z)).toNat 32).filter (tblIsHeld d z))))

def execTblHold (z : Zone) (m : Master) (v : W32) (s : State) : Host.Outcome State Fault Refusal :=
  s.onDev (fun d => guardWrite d (Rg.TBL_HOLD z) m (fun d => tblHoldWrite d z v))

/-- An accepted search of table `t` of zone `z` has not been taken yet. -/
def tblWaiting (d : Dev) (z t : Nat) : Bool :=
  d.inf.queues.any (fun e => e.1 / 16 < 128 && e.1 / 16 / 32 == z && e.1 % 16 == 0 && e.2.any (fun x => x.word.toNat % 65536 == t))

def execTblHeld (z : Zone) (tbl : Fin 32) (s : State) : Host.Outcome State Fault Refusal :=
  s.onDev (fun d =>
    if tblIsHeld d z tbl && !tblWaiting d z tbl then
      wr d (Rg.TBL_HELD z) (BitVec.ofNat 32 (setBit (rd d (Rg.TBL_HELD z)).toNat tbl))
    else d)

/-! ## Fetches and rebuilds (R261, R394) -/

/-- The replica takes the master's entry. -/
def fetchEnt (d : Dev) (z t r pos : Nat) : Dev := writeEnt d (1 + z) t r (descAt d (1 + z) t) pos (ent d 0 t r pos)
/-- The replica takes the words of an entry from the master, whole, and with them the entries that share them (R376). -/
def fetchWords (d : Dev) (z t r pos : Nat) : Dev :=
  let ws := entWords (1 + z) t r (descAt d (1 + z) t) pos
  let shared := ((ws.flatMap (fun w => entsAt d (1 + z) w.arr w.word)).filter (fun e => e.1 == t && e.2.1 == r && e.2.2 != pos)).dedup
  let d := ws.foldl (fun d w => setSword d (1 + z) w.arr w.word { sword d (1 + z) w.arr w.word with valid := true, chk := 0, poison := false, inj := false }) d
  shared.foldl (fun d e => fetchEnt d z t r e.2.2) (fetchEnt d z t r pos)

def execRowFetch (z : Zone) (tbl : Fin 32) (poss : List Nat) (s : State) : Host.Outcome State Fault Refusal :=
  s.onDevF (fun d =>
    if isolated d z then d
    else
      let mine (f : Nat × Nat × Nat × Nat) : Bool := f.1 == z.val && f.2.1 == tbl.val && poss.contains f.2.2.2
      let l := d.tbl.fetch.filter mine
      l.foldl (fun d f => fetchWords d z tbl f.2.2.1 f.2.2.2) (modTbl d (fun b => { b with fetch := b.fetch.filter (fun f => !mine f) })))

/-- Both regions of a replica become those of the master. -/
def rebuildTable (d : Dev) (z t : Nat) : Dev :=
  [0, 1].foldl (fun d r =>
    (regionEnts d 0 t r).foldl (fun d e => fetchEnt d z t r e.1) (clearRegion d (1 + z) t r)) d

/-- R394: the rebuild ends: every replicated table holds the master's entries, and the freeze ends. -/
def execRebuilt (z : Zone) (s : State) : Host.Outcome State Fault Refusal :=
  s.onDevF (fun d =>
    if !(lnk d z).rebuilding || isolated d z || (lnk d z).state != 3 then d
    else
      let d := ((List.range 32).filter (fun t => (descAt d (1 + z) t).repl && !descDiffers d t)).foldl (fun d t => rebuildTable d z t) d
      let d := setDist d z []
      let d := modTbl d (fun b => { b with fetch := b.fetch.filter (fun f => f.1 != z.val) })
      raise (modLink d z (fun l => { l with rebuilding := false })) (Rg.pageOf (Rg.baseZRAS z)) 3)

end Sys2Proof.Machine
end

