-- ==== Sys2Proof/Machine/Adm.lean ====
section
/-!
DEFINITION. Receiving frames (R71, R74, R79), admission (R85 to R89, R103 to R110), parses and their malformed actions (R87,
R95, R99, R100), cell writes (R88) and punt policers (R102).
-/

namespace Sys2Proof.Machine
open Sys2Proof

/-! ## Shedding (R109) -/

/-- One evaluation of a shed count. -/
def shedStep (n p s step hyst : Nat) : Nat :=
  let up := if p < s then 0 else min 8 (1 + (p - s) / step)
  if n < up then up
  else if 0 < n && p + hyst < s + (n - 1) * step then n - 1 else n

def poolShed (d : Dev) (z : Nat) : Nat := tget zeroN d.adm.poolShed z
/-- The `n` lowest classes of SHED_MASK. -/
def shedSet (d : Dev) (z n : Nat) : List Nat := (bitsOf (rf d (Rg.ADM_SHED z) Fl.ADM_SHED_SHED_MASK) 8).take n
/-- Classes shed for pipeline `pl`. -/
def pipeShed (d : Dev) (z pl : Nat) : List Nat := shedSet d z (max (poolShed d z) (pipe d z pl).shed)

def execShedCount (z : Zone) (s : State) : Host.Outcome State Fault Refusal :=
  s.onDev (fun d =>
    let old := poolShed d z
    let new := shedStep old (urnz d z).occ (rf d (Rg.URN_POOL_SHED z) Fl.URN_POOL_SHED_CELLS)
      (rf d (Rg.ADM_SHED_STEP z) Fl.ADM_SHED_STEP_STEP) (rf d (Rg.ADM_SHED_HYST z) Fl.ADM_SHED_HYST_HYST)
    let st := Rg.ADM_STORE_SHED z
    let stores := (List.range 4).map (fun k => ((pipe d z k).shed,
      shedStep (pipe d z k).shed (pipe d z k).blocks (rf d st Fl.ADM_STORE_SHED_SHED) (rf d st Fl.ADM_STORE_SHED_STEP)
        (rf d (Rg.ADM_STORE_HYST z) Fl.ADM_STORE_HYST_HYST)))
    let d := { d with adm := { d.adm with poolShed := tset zeroN d.adm.poolShed z new } }
    let d := stores.zipIdx.foldl (fun d e => modPipe d z e.2 (fun x => { x with shed := e.1.2 })) d
    if (old == 0 && new != 0) || stores.any (fun e => e.1 == 0 && e.2 != 0) then raise d (Rg.pageOf (Rg.baseADM z)) 0 else d)

/-! ## The admission decision (R110) -/

def admPage (z : Nat) : Nat := Rg.pageOf (Rg.baseADM z)

/-- The check that refuses a frame: 0 LIMIT, 1 HEADROOM, 2 SHED, 3 KETTLE, 4 STORE_FULL, 5 RESERVE, 6 SEQ. -/
def refusedBy (d : Dev) (p cls : Nat) (marked : Bool) (len : Nat) : Option Nat :=
  let z := p / 64
  let pl := p / 16 % 4
  let n := 8 * p + cls
  let cells := cellsOf len
  let ll := lossless d p cls
  let lossy := !ll && !marked
  let occ := (dom d n).occ + cells
  if 30464 < (pipe d z pl).blocks + 16 * goneOf d (1 + z) (11 * 2048 + pl) + cdiv len 64 then some 4
  else if lossy && 3 ≤ level d z && (rf d (Rg.ADM_SHED z) Fl.ADM_SHED_KETTLE_MASK).testBit cls then some 3
  else if marked && rf d (Rg.ADM_CTRL_LIMIT z) Fl.ADM_CTRL_LIMIT_CELLS < ctrlCells d z + cells then some 0
  else if marked && freeCells d z < cells then some 5
  else if !marked && (rf d (Rg.URN_POOL_RESERVE z) Fl.URN_POOL_RESERVE_CELLS ≤ (urnz d z).occ || freeCells d z < cells) then some 5
  else if lossy && (pipeShed d z pl).contains cls then some 2
  else if lossy && rf d (Rg.ADM_CLS_LIMIT z cls) Fl.ADM_CLS_LIMIT_LIMIT < occ then some 0
  else if ll && !marked && rf d (Rg.ADM_CLS_XOFF z cls) Fl.ADM_CLS_XOFF_XOFF + rf d (Rg.ADM_CLS_HEADROOM z cls) Fl.ADM_CLS_HEADROOM_HEADROOM < occ then some 1
  else if 32768 ≤ (dom d n).out then some 6
  else none

/-- The frame (FCS included) is admitted with the next number of its domain, or refused and counted. -/
def admitFrame (d : Dev) (p : Nat) (bytes : List Byte) (stamp : W64) : Dev × Bool :=
  let z := p / 64
  let pl := p / 16 % 4
  let (cls, marked) := classify d p bytes
  let len := bytes.length
  let n := 8 * p + cls
  match refusedBy d p cls marked len with
  | some 6 => (bump d (Rg.ADM_DROP_SEQ z cls) 1, false)
  | some c =>
    let d := bump d (Rg.ADM_DROP z c cls) 1
    (if c == 1 then raise d (admPage z) 1 else if c == 4 then raise d (admPage z) 2 else d, false)
  | none =>
    let k : Pkt := { bytes := bytes, port := p, cls := cls, seq := (dom d n).next, marked := marked, lossless := lossless d p cls, stamp := stamp }
    let d := watchDom (modDom d n (fun x => { x with next := (x.next + 1) % 65536, occ := x.occ + cellsOf len, out := x.out + 1 })) n
    let d := probeMax d 4 n (dom d n).occ
    let d := if marked then setCtrlCells d z (ctrlCells d z + cellsOf len) else d
    let d := chargePool d z (cellsOf len)
    let d := watchStore (modPipe d z pl (fun x =>
      { x with blocks := x.blocks + cdiv len 64, normal := if marked then x.normal else x.normal ++ [k], express := if marked then x.express ++ [k] else x.express })) z pl
    (bump d (Rg.ADM_ADMIT z cls) 1, true)

/-! ## Receiving a frame (R71, R74, R79) -/

/-- The control frame's destination is the flow-control group address or the port's own. -/
def flowAddr (d : Dev) (p : Nat) (b : List Byte) : Bool := beAt b 0 6 == 0x0180C2000001 || beAt b 0 6 == ownMac d p

/-- Pause class `c` of port `p` for `q` quanta from `t`. -/
def pauseFor (d : Dev) (p c t q : Nat) : Dev := setPause d p c (if q == 0 then 0 else t + cdiv (quanta25 d p q) 25)

/-- The instant at the receive connector, in 2^-32 ns, of a point that the PCS sees at `t` (R74, R79). -/
def atConnector (d : Dev) (p t : Nat) : Nat := ((t : Int) + (rd d (Rg.QUAD_TS_RX (p / 4))).toInt * 2 ^ 16).toNat

/-- A MAC control frame, whose last bit the PCS sees at `lastBit`: PAUSE or PFC of the mode configured, or another, which only counts. -/
def controlFrameIn (d : Dev) (p : Nat) (b : List Byte) (lastBit : Nat) : Dev :=
  let q := p / 4
  let k := p % 4
  let op := beAt b 14 2
  let lastBit := atConnector d p lastBit
  if op == 0x0001 && fcMode d p == 1 && flowAddr d p b then
    let t := beAt b 16 2
    let d := bump d (Rg.RX_PAUSE q k) 1
    (List.range 8).foldl (fun d c => pauseFor (if t == 0 then d else bump d (Rg.RX_XOFF q k c) 1) p c lastBit t) d
  else if op == 0x0101 && fcMode d p == 2 && flowAddr d p b then
    let en := beAt b 16 2
    let d := bump d (Rg.RX_PFC q k) 1
    (bitsOf en 8).foldl (fun d c =>
      let t := beAt b (18 + 2 * c) 2
      let d := if t == 0 then d else bump d (Rg.RX_XOFF q k c) 1
      if (pfcClasses d p).testBit c then pauseFor d p c lastBit t else d) d
  else bump d (Rg.RX_CTRL_OTHER q k) 1

/-- Every lane of the port has lock. -/
def portLocked (d : Dev) (p : Nat) : Bool := (port d p).locks == 2 ^ (portLanes d p).length - 1

/-- Frames are discarded as START_DISCARD until the zone and the port are open. -/
def startShut (d : Dev) (p : Nat) : Bool := !d.life.zopen.testBit (p / 64) || !(port d p).opened || d.life.stopped

/-- The stamp of a received frame at the connector: 64 bits with 16 fractional bits. -/
def rxStamp (d : Dev) (p sfd : Nat) : W64 :=
  if rb d (Rg.QUAD_PTP (p / 4)) Fl.QUAD_PTP_TS_EN then
    BitVec.ofNat 64 sfd + (rd d (Rg.QUAD_TS_RX (p / 4))).signExtend 64
  else 0

def execFrameReceive (p : Port) (bytes : List Byte) (uncorr : Bool) (sfd lastBit : Nat) (s : State) :
    Host.Outcome State Fault Refusal :=
  s.onDev (fun d =>
    let q := p.val / 4
    let k := p.val % 4
    let len := bytes.length
    if !portBegins d p || !portEnabled d p || !portLocked d p then d
    else if uncorr || !fcsGood bytes then bump d (Rg.RX_FCS_ERR q k) 1
    else if (port d p).blocked then bump d Rg.TWN_BLOCK_DISCARD 1
    else if beAt bytes 12 2 == 0x8808 then
      if startShut d p then bump d (Rg.START_DISCARD q k) 1
      else if quadHeld d q then bump d (Rg.HELD_DISCARD q k) 1
      else controlFrameIn d p bytes lastBit
    else if len < 64 then bump d (Rg.RX_UNDERSIZE q k) 1
    else if rf d (Rg.QUAD_MAX_FRAME q) Fl.QUAD_MAX_FRAME_MAX_FRAME < len then bump d (Rg.RX_OVERSIZE q k) 1
    else if startShut d p then bump d (Rg.START_DISCARD q k) 1
    else if quadHeld d q then bump d (Rg.HELD_DISCARD q k) 1
    else
      let d := bump (bump d (Rg.RX_FRAMES_OK q k) 1) (Rg.RX_OCTETS_OK q k) len
      (admitFrame d p bytes (rxStamp d p sfd)).1)

/-! ## Parses (R87, R95, R99, R100) -/

/-- A hold of any STR page stops the zone's pipelines (R114). -/
def strHeld (d : Dev) (z : Nat) : Bool :=
  (List.range 4).any (fun i => let p := page d (Rg.pageOf (Rg.baseSTR z) + i); p.hold || p.group)

/-- PARSE: the pipeline takes its first express frame, else its first normal one; a hold, level 4 and a device that is not in RUN (R450)
keep frames in the store, and a stopped former keeps those of its kind (R31). -/
def execParse (z : Zone) (pl : Fin 4) (s : State) : Host.Outcome State Fault Refusal :=
  s.onDev (fun d =>
    let x := pipe d z pl
    let start (d : Dev) (k : Pkt) (ex : Bool) : Dev :=
      watchStore (modPipe d z pl (fun x => { x with
        express := if ex then x.express.drop 1 else x.express, normal := if ex then x.normal else x.normal.drop 1
        blocks := x.blocks - cdiv k.bytes.length 64
        parsing := x.parsing ++ [{ pkt := k, res := parsePkt d k, express := ex, start := d.mc }] })) z pl
    if strHeld d z || !devRuns d || 4 ≤ level d z || 240 ≤ x.parsing.length + x.parsed.length then d
    else match x.express, x.normal with
      | k :: _, _ =>
        if (former d z pl true).stopped then
          (match x.normal with
           | k :: _ => if (former d z pl false).stopped then d else start d k false
           | [] => d)
        else start d k true
      | [], k :: _ => if (former d z pl false).stopped then d else start d k false
      | [], [] => d)

/-- The frame's cells and charges are given back: it takes no cell. -/
def uncharge (d : Dev) (k : Pkt) : Dev :=
  let z := k.port / 64
  let n := 8 * k.port + k.cls
  let c := cellsOf k.bytes.length
  let d := watchDom (modDom d n (fun x => { x with occ := x.occ - c })) n
  let d := if k.marked then setCtrlCells d z (ctrlCells d z - c) else d
  creditPool d z c

/-- The entry by which a packet's number reaches the reorder stage. -/
def slotEntry (d : Dev) (k : Pkt) (verdict : W64) (h : Option W32) : REntry :=
  { dom := 8 * k.port + k.cls, seq := k.seq, verdict := verdict, handle := h, arrival := tbIn d (k.port / 64), marked := k.marked, lossless := k.lossless }

/-- The key of a learn candidate: VID of the outermost tag, then the source address (R250). -/
def learnKey (b : List Byte) : List Byte := beBytes 2 (if isTag (beAt b 12 2) then beAt b 14 2 % 4096 else 0) ++ (b.drop 6).take 6

def execParseDone (z : Zone) (pl : Fin 4) (s : State) : Host.Outcome State Fault Refusal :=
  s.onDev (fun d =>
    match (pipe d z pl).parsing with
    | [] => d
    | y :: r =>
      let k := y.pkt
      let str := Rg.pageOf (Rg.baseSTR z)
      let d := modPipe d z pl (fun x => { x with parsing := r })
      let d := bump d (Rg.STR_PARSED_CNT z pl) 1
      let d := if k.marked then bump (bump d (Rg.STR_CTRL_CNT z) 1) (Rg.PORT_CTRL z (k.port % 64)) 1 else d
      let d := if y.res.status.testBit 7 then raise (bump d (Rg.STR_PARTIAL_CNT z) 1) str 1 else d
      let d := match y.res.mal with
        | some m => raise (bump (bump d (Rg.MAL_CNT z m) 1) (Rg.PORT_MAL z (k.port % 64)) 1) str 0
        | none => d
      let d := if y.res.mal.isNone then learnCandidate d k.port (learnKey k.bytes) else d
      if y.res.mal.isSome && y.res.act == 0 then robArrive (uncharge d k) z (slotEntry d k 0 none)
      else modPipe d z pl (fun x => { x with parsed := x.parsed ++ [y] }))

/-! ## Cell writes (R88, R95, R100) -/

/-- Zero-padded to `n` bytes. -/
def padTo (n : Nat) (l : List Byte) : List Byte := l.take n ++ List.replicate (n - l.length) 0

/-- The header window: the frame's first 256 bytes, or the fallback window. -/
def headerWindow (y : Parsed) : List Byte := padTo 256 (if y.res.mal.isSome then y.pkt.bytes.take 64 else y.pkt.bytes.take 256)

/-- Lane metadata (R95). -/
def laneMeta (y : Parsed) : List Byte :=
  let k := y.pkt
  padTo 0x5C (beBytes 2 k.port ++ beBytes 2 k.bytes.length ++ beBytes 4 ((8 * k.port + k.cls) * 65536 + k.seq) ++ beBytes 8 k.stamp.toNat ++
    (y.res.offs.flatMap (fun o => beBytes 1 o)) ++ beBytes 2 y.res.status) ++ beBytes 4 y.res.hash.toNat ++ List.replicate 0x20 0

/-- The verdict word of a Strainer punt. -/
def puntVerdict (reason : Nat) : W64 := BitVec.ofNat 64 (2 * 2 ^ 14 + reason % 64)

def execCellWrite (z : Zone) (pl : Fin 4) (cells : List Nat) (s : State) : Host.Outcome State Fault Refusal :=
  s.onDev (fun d =>
    match (pipe d z pl).parsed with
    | [] => d
    | y :: r =>
      let k := y.pkt
      let punt := y.res.mal.isSome && y.res.act == 1
      if cells.length != cellsOf k.bytes.length || !cellsAvail d z cells || (!punt && !takesLane d z pl y.express) then d
      else
        let d := modPipe d z pl (fun x => { x with parsed := r })
        let d := newBuf d z cells { kind := if punt then 3 else 1, index := if punt then 0 else pl.val, len := k.bytes.length, bytes := k.bytes,
                                    tstamp := k.stamp,
                                    charged := some (8 * k.port + k.cls), marked := k.marked }
        let d := fillCells d z cells k.bytes.length
        let h := headHandle d z cells
        if punt then robArrive d z (slotEntry d k (puntVerdict (y.res.mal.getD 0)) (some h))
        else addLane d z pl y.express { handle := h, len := k.bytes.length, dom := 8 * k.port + k.cls, seq := k.seq, marked := k.marked,
                                        lossless := k.lossless, stamp := k.stamp, h := headerWindow y, m := laneMeta y })

/-! ## Punt policers (R102) -/

/-- Each whole microsecond of the zone's timebase since the last refill, every policer gains RATE thousandths of a token. -/
def execPuntPolicerRefill (z : Zone) (s : State) : Host.Outcome State Fault Refusal :=
  s.onDev (fun d =>
    let us := nsIn d z / 1000
    let last := tget zeroN d.adm.tokenUs z
    if us ≤ last then d
    else
      let d := { d with adm := { d.adm with tokenUs := tset zeroN d.adm.tokenUs z us } }
      (List.range 32).foldl (fun d p =>
        let r := Rg.PUNT_POL z p
        let cap := 1000 * rf d r Fl.PUNT_POL_BURST
        { d with adm := { d.adm with tokens := tmod zeroN d.adm.tokens (32 * z + p) (fun t => min cap (t + (us - last) * rf d r Fl.PUNT_POL_RATE)) } }) d)

end Sys2Proof.Machine
end

