-- ==== Sys2Proof/Machine/Flags.lean ====
section
/-!
DEFINITION. Arithmetic on one lane: results and flags (R167 to R169, R198 to R202). Values are numbers below 2^w.
-/

namespace Sys2Proof.Machine
open Sys2Proof

/-- The low `w` bits of A. -/
def lowA (w : Nat) (l : LaneCtx) : Nat := l.a.toNat % 2 ^ w
/-- A takes a result, zero-extended. -/
def putA (r : Nat) (l : LaneCtx) : LaneCtx := { l with a := BitVec.ofNat 64 r }
/-- Z and N from a `w`-bit result. -/
def setZN (w r : Nat) (l : LaneCtx) : LaneCtx := { l with z := r % 2 ^ w == 0, n := r.testBit (w - 1) }
/-- Flags of logic and loads: Z and N, V cleared, C kept. -/
def flagsZN (w r : Nat) (l : LaneCtx) : LaneCtx := { setZN w r l with v := false }
/-- All four flags. -/
def flagsAll (w r : Nat) (c v : Bool) (l : LaneCtx) : LaneCtx := { setZN w r l with c := c, v := v }

/-- Result, C and V of an addition with carry in (R199). -/
def addW (w a b x : Nat) : Nat × Bool × Bool :=
  let r := (a + b + x) % 2 ^ w
  (r, 2 ^ w ≤ a + b + x, (a.testBit (w - 1) == b.testBit (w - 1)) && r.testBit (w - 1) != a.testBit (w - 1))
/-- Result, borrow and V of a subtraction with borrow in (R199). -/
def subW (w a b x : Nat) : Nat × Bool × Bool :=
  let r := (a + 2 ^ (w + 1) - (b + x)) % 2 ^ w
  (r, a < b + x, a.testBit (w - 1) != b.testBit (w - 1) && r.testBit (w - 1) != a.testBit (w - 1))
/-- A result with C and V goes to A and the flags. -/
def resultAll (w : Nat) (r : Nat × Bool × Bool) (l : LaneCtx) : LaneCtx := putA r.1 (flagsAll w r.1 r.2.1 r.2.2 l)
/-- A result with ZN goes to A and the flags. -/
def resultZN (w r : Nat) (l : LaneCtx) : LaneCtx := putA r (flagsZN w r l)

/-- Product: low bits, C, V (R169). -/
def mulW (w a b : Nat) : Nat × Bool × Bool :=
  let p := a * b
  let s := sint w a * sint w b
  let lo := p % 2 ^ w
  (lo, 2 ^ w ≤ p, s != sint w lo)
/-- High bits of the signed product. -/
def mulhW (w a b : Nat) : Nat := ((sint w a * sint w b) / (2 ^ w : Int) % (2 ^ w : Int)).toNat
/-- High bits of the unsigned product. -/
def mulhuW (w a b : Nat) : Nat := a * b / 2 ^ w

/-- Bits of an integer at width `w`. -/
def ofInt (w : Nat) (x : Int) : Nat := (x % (2 ^ w : Int)).toNat
/-- Quotient, remainder, C and V (R200). -/
def divW (signed : Bool) (w a b : Nat) : Nat × Nat × Bool × Bool :=
  if b == 0 then (0, a, true, true)
  else if signed then
    if a == 2 ^ (w - 1) && b == 2 ^ w - 1 then (a, 0, false, true)
    else (ofInt w ((sint w a).tdiv (sint w b)), ofInt w ((sint w a).tmod (sint w b)), false, false)
  else (a / b, a % b, false, false)

/-- SHL: result and C (R202). -/
def shlW (w a s : Nat) : Nat × Bool :=
  if s == 0 then (a, false)
  else if s < w then (a * 2 ^ s % 2 ^ w, a.testBit (w - s))
  else if s == w then (0, a.testBit 0)
  else (0, false)
def shrW (w a s : Nat) : Nat × Bool :=
  if s == 0 then (a, false)
  else if s < w then (a / 2 ^ s, a.testBit (s - 1))
  else if s == w then (0, a.testBit (w - 1))
  else (0, false)
def sarW (w a s : Nat) : Nat × Bool :=
  let m := a.testBit (w - 1)
  let fill (k : Nat) := if m then 2 ^ w - 2 ^ (w - k) else 0
  if s == 0 then (a, false)
  else if s < w then (a / 2 ^ s + fill s, a.testBit (s - 1))
  else (fill w, s == w && m)
def rolW (w a s : Nat) : Nat × Bool :=
  let k := s % w
  let r := (a * 2 ^ k + a / 2 ^ (w - k)) % 2 ^ w
  if k == 0 then (a, false) else (r, r.testBit 0)
def rorW (w a s : Nat) : Nat × Bool :=
  let k := s % w
  let r := (a / 2 ^ k + a * 2 ^ (w - k)) % 2 ^ w
  if k == 0 then (a, false) else (r, r.testBit (w - 1))
/-- A shift's result goes to A, Z, N and C; V clears. -/
def resultShift (w : Nat) (r : Nat × Bool) (l : LaneCtx) : LaneCtx := putA r.1 (flagsAll w r.1 r.2 false l)

/-- Number of 1 bits, leading zeros, trailing zeros. -/
def popW (w a : Nat) : Nat := popBelow a w
def clzW (w a : Nat) : Nat := ((List.range w).find? (fun i => a.testBit (w - 1 - i))).getD w
def ctzW (w a : Nat) : Nat := ((List.range w).find? (fun i => a.testBit i)).getD w
/-- The bytes of `a` in reverse order. -/
def bswapW (w a : Nat) : Nat := (List.range (w / 8)).foldl (fun r i => r * 256 + a / 256 ^ i % 256) 0
/-- Sign extension to 64 bits. -/
def sext64 (w a : Nat) : Nat := ofInt 64 (sint w a)

/-- The conditions of R167. -/
def condHolds (cond : Nat) (l : LaneCtx) : Bool :=
  match cond with
  | 0 => l.z
  | 1 => !l.z
  | 2 => l.n != l.v
  | 3 => l.n == l.v
  | 4 => l.c
  | 5 => !l.c
  | 6 => !l.z && l.n == l.v
  | 7 => l.z || l.n != l.v
  | 8 => !l.c && !l.z
  | 9 => l.c || l.z
  | 10 => l.v
  | 11 => !l.v
  | 12 => l.p
  | 13 => !l.p
  | _ => true

end Sys2Proof.Machine
end

