-- ==== Sys2Proof/Machine/Operands.lean ====
section
/-!
DEFINITION. The fields of the instruction formats (R184 to R186), acting lanes (R159), operands of every base with their
bounds and stalls (R156, R158, R192 to R195).
-/

namespace Sys2Proof.Machine
open Sys2Proof

/-! ## Fields -/

/-- Fields of format A: W, B, S, D. -/
structure FA where
  w : Nat
  b : Nat
  s : Nat
  d : Nat
  deriving DecidableEq, Repr

def fa (f : BitVec 24) : FA :=
  let x := f.toNat
  { w := x / 2 ^ 22 % 4, b := x / 2 ^ 19 % 8, s := x / 2 ^ 16 % 8, d := x % 2 ^ 16 }
/-- Width in bits. -/
def FA.width (a : FA) : Nat := 8 * 2 ^ a.w
/-- Fields of format F: length in bits, M, OFF. -/
def ffLen (f : BitVec 24) : Nat := f.toNat / 2 ^ 18 % 64 + 1
def ffM (f : BitVec 24) : Nat := f.toNat / 2 ^ 16 % 4
def ffOff (f : BitVec 24) : Nat := f.toNat % 2 ^ 16
/-- Fields of format J: COND, Q, the zero field, T. -/
def fjCond (f : BitVec 24) : Nat := f.toNat / 2 ^ 20 % 16
def fjQ (f : BitVec 24) : Nat := f.toNat / 2 ^ 18 % 4
def fjZero (f : BitVec 24) : Nat := f.toNat / 2 ^ 14 % 16
def fjT (f : BitVec 24) : Nat := f.toNat % 2 ^ 14
/-- The instruction word of an opcode and its other 24 bits. -/
def opWord (op : Nat) (f : BitVec 24) : W32 := BitVec.ofNat 32 (op * 2 ^ 24 + f.toNat)

/-- What a format A instruction admits: widths, bases, a guard, values of D; whether it takes an operand. -/
structure FormA where
  ws : List Nat
  b0 : Nat
  b1 : Nat
  g : Bool
  d0 : Nat
  d1 : Nat
  deriving DecidableEq, Repr

/-- Forms of R196 to R210: an operand at widths 0 to 3; a destination; A alone; no field but D. -/
def formOp : FormA := ⟨[0, 1, 2, 3], 0, 6, true, 0, 65535⟩
def formDst : FormA := ⟨[0, 1, 2, 3], 1, 6, true, 0, 65535⟩
def formA : FormA := ⟨[0, 1, 2, 3], 0, 0, true, 0, 0⟩
def formPlain (g : Bool) (d0 d1 : Nat) : FormA := ⟨[0], 0, 0, g, d0, d1⟩

/-- R186: a field outside what the form admits, or an 8-bit immediate with a non-zero D[15:8]. -/
def badA (m : FormA) (a : FA) : Bool :=
  !m.ws.contains a.w || a.b < m.b0 || m.b1 < a.b || a.s % 4 != 0 || (!m.g && a.s != 0) || a.d < m.d0 || m.d1 < a.d ||
    (m.b0 != m.b1 && a.b == 0 && a.w == 0 && 256 ≤ a.d)

/-! ## Lanes -/

def laneCtx0 : Nat → LaneCtx := fun _ => {}
/-- Registers of lane `n` of a thread. -/
def lctx (x : Thread) (n : Nat) : LaneCtx := tget laneCtx0 x.lanes n
/-- Change the registers of lane `n`. -/
def modCtx (d : Dev) (cid t n : Nat) (f : LaneCtx → LaneCtx) : Dev :=
  modThr d cid t (fun x => { x with lanes := tmod laneCtx0 x.lanes n f })
/-- Active lanes. -/
def activeLanes (x : Thread) : List Nat := bitsOf x.act 32
/-- Acting lanes: active, and with P where the instruction is guarded. -/
def actingLanes (x : Thread) (guarded : Bool) : List Nat :=
  (activeLanes x).filter (fun n => !guarded || (lctx x n).p)
/-- Pending slots of lane `n` of the root thread `home`. -/
def pendOf (d : Dev) (cid home n : Nat) : Nat := tget zeroN d.core.pend ((8 * cid + home) * 32 + n)
def setPend (d : Dev) (cid home n v : Nat) : Dev :=
  { d with core := { d.core with pend := tset zeroN d.core.pend ((8 * cid + home) * 32 + n) v } }
/-- The result slots that bytes `lo` to `lo + k - 1` of M overlap. -/
def slotsIn (lo k : Nat) : List Nat := (List.range 4).filter (fun s => lo ≤ 0x27 + 8 * s && 0x20 + 8 * s < lo + k)
/-- Some of the lanes has one of the slots pending. -/
def slotPending (d : Dev) (cid home : Nat) (lanes : List Nat) (slots : List Nat) : Bool :=
  lanes.any (fun n => slots.any (fun s => (pendOf d cid home n).testBit s))

/-! ## Queues of helpers (R217) -/

/-- Depth of a helper's input queue; 0 where the helper is not on the core (R217). -/
def queueDepth (cid h : Nat) : Nat :=
  let hub := isHub cid
  match h with
  | 0 => if hub then 0 else 8
  | 1 => if hub then 0 else 16
  | 2 => if hub then 0 else 4
  | 3 => 4
  | 4 => if hub then 0 else 4
  | 5 => if hub then 0 else 8
  | 6 => 8
  | 7 => 8
  | 8 => 2
  | 9 => if hub then 0 else 2
  | _ => 0
def queueDflt : Nat → List HEntry := fun _ => []
/-- The input queue of helper `h` of a core. -/
def queue (d : Dev) (cid h : Nat) : List HEntry := tget queueDflt d.inf.queues (16 * cid + h)
def setQueue (d : Dev) (cid h : Nat) (l : List HEntry) : Dev :=
  { d with inf := { d.inf with queues := tset queueDflt d.inf.queues (16 * cid + h) l } }
/-- The queue of a helper that is present is full. -/
def queueFull (d : Dev) (cid h : Nat) : Bool := 0 < queueDepth cid h && queueDepth cid h ≤ (queue d cid h).length
/-! ## Bounds and stalls -/

/-- R193: the access of `k` bytes passes the end of H or M in lane `n`. -/
def outside (x : Thread) (a : FA) (n : Nat) : Bool :=
  let k := 2 ^ a.w
  match a.b with
  | 1 => 255 < (lctx x n).cur.toNat + a.d + k - 1
  | 2 => 255 < a.d + k - 1
  | 3 => 127 < a.d + k - 1
  | _ => false
/-- R156: a stack entry that does not exist. -/
def stackUnder (x : Thread) (a : FA) : Option Nat := if a.b == 6 && x.sp ≤ a.d then some 7 else none
/-- R195: the operand lies over a slot that is pending in one of the lanes. -/
def operandStall (d : Dev) (cid : Nat) (x : Thread) (a : FA) (lanes : List Nat) : Bool :=
  a.b == 3 && slotPending d cid x.home lanes (slotsIn a.d (2 ^ a.w))
/-- A stall on slots of lanes, where there is one. -/
def stallIf (b : Bool) (lanes slots : List Nat) : Stall := if b then .slots lanes slots else .none
/-- The stall of an operand. -/
def stallOn (d : Dev) (cid : Nat) (x : Thread) (a : FA) (lanes : List Nat) : Stall :=
  stallIf (operandStall d cid x a lanes) lanes (slotsIn a.d (2 ^ a.w))

/-! ## Reading and writing -/

/-- What a read met: nothing, an uncorrectable error, or a slot that a helper poisoned (R174). -/
inductive Met where
  | ok | uncorr | slot
  deriving DecidableEq, Repr

/-- The worse of two. -/
def Met.and : Met → Met → Met
  | .ok, y => y
  | x, .ok => x
  | .slot, .slot => .slot
  | _, _ => .uncorr

/-- A slot of lane `n` in the bytes that is poisoned. -/
def poisonedSlot (d : Dev) (cid home n lo k : Nat) : Bool :=
  (slotsIn lo k).any (fun s =>
    let w := mAddr home n (0x20 + 8 * s) / 8
    let x := sword d (cidPlace cid) (coreArr cid 1) w
    x.valid && x.poison && !(merges d (cidPlace cid) (coreArr cid 1)).any (fun e => e.word == w && e.mask == 255))

/-- Checked read of a core space (R152). -/
def spaceRead (d : Dev) (cid sp a k : Nat) : Nat × Met × Dev :=
  let (v, bad, d) := coreRead d cid sp a k
  (v % 256 ^ k, if bad then .uncorr else .ok, d)
/-- Bytes of M of lane `n`. -/
def readM (d : Dev) (cid home n lo k : Nat) : Nat × Met × Dev :=
  if poisonedSlot d cid home n lo k then (0, .slot, d) else spaceRead d cid 1 (mAddr home n lo) k
/-- `k` bytes of S from `addr`, modulo 65,536. -/
def readS (d : Dev) (cid addr k : Nat) : Nat × Met × Dev :=
  let a := addr % 65536
  let k1 := min k (65536 - a)
  let (u, m1, d) := spaceRead d cid 2 a k1
  let (v, m2, d) := spaceRead d cid 2 0 (k - k1)
  (u * 256 ^ (k - k1) + v, m1.and m2, d)
def writeS (d : Dev) (cid addr k v : Nat) : Dev :=
  let a := addr % 65536
  let k1 := min k (65536 - a)
  coreWrite (coreWrite d cid 2 a k1 (v / 256 ^ (k - k1))) cid 2 0 (k - k1) (v % 256 ^ (k - k1))

/-- R193: the operand of lane `n`. -/
def readOperand (d : Dev) (cid t : Nat) (a : FA) (n : Nat) : Nat × Met × Dev :=
  let x := thr d cid t
  let k := 2 ^ a.w
  match a.b with
  | 0 => (a.d % 2 ^ a.width, .ok, d)
  | 1 => spaceRead d cid 0 (hAddr x.home n ((lctx x n).cur.toNat + a.d)) k
  | 2 => spaceRead d cid 0 (hAddr x.home n a.d) k
  | 3 => readM d cid x.home n a.d k
  | 4 => readS d cid (x.x.toNat + a.d) k
  | 5 => readS d cid (x.y.toNat + a.d) k
  | _ => spaceRead d cid 3 (tAddr t n (x.sp - 1 - a.d) + 8 - k) k
/-- A write of the operand of lane `n`. -/
def writeOperand (d : Dev) (cid t : Nat) (a : FA) (n v : Nat) : Dev :=
  let x := thr d cid t
  let k := 2 ^ a.w
  match a.b with
  | 1 => coreWrite d cid 0 (hAddr x.home n ((lctx x n).cur.toNat + a.d)) k v
  | 2 => coreWrite d cid 0 (hAddr x.home n a.d) k v
  | 3 => coreWrite d cid 1 (mAddr x.home n a.d) k v
  | 4 => writeS d cid (x.x.toNat + a.d) k v
  | 5 => writeS d cid (x.y.toNat + a.d) k v
  | 6 => coreWrite d cid 3 (tAddr t n (x.sp - 1 - a.d) + 8 - k) k v
  | _ => d

/-- Operands of the lanes in ascending order, and what the reads met. -/
def readLanes (d : Dev) (lanes : List Nat) (rdOne : Dev → Nat → Nat × Met × Dev) : List (Nat × Nat) × Met × Dev :=
  lanes.foldl (fun (acc : List (Nat × Nat) × Met × Dev) n =>
    let (v, m, d) := rdOne acc.2.2 n
    (acc.1 ++ [(n, v)], acc.2.1.and m, d)) ([], .ok, d)
/-- Writes of the lanes: in S the highest-numbered lane's value alone (R156). -/
def writeLanes (d : Dev) (cid t : Nat) (a : FA) (vs : List (Nat × Nat)) : Dev :=
  let vs := if a.b == 4 || a.b == 5 then (match vs.getLast? with | some v => [v] | none => []) else vs
  vs.foldl (fun d e => writeOperand d cid t a e.1 (e.2 % 2 ^ a.width)) d

/-! ## Issue (R157, R158, R170, R175, R190, R191, R503) -/

/-- The thread can issue but for a stall on a slot or a queue. -/
def canIssue (x : Thread) : Bool := (x.state == 1 || x.state == 2 || x.state == 4) && x.wait == .none

/-- What an instruction finds at its issue: traps in the order of R190, a stall, its acting lanes, and whether it is of the kind that
is WASTED without one. -/
structure Issue where
  word : W32
  illegal : Bool := false
  field : Bool := false
  priv : Bool := false
  stack : Option Nat := none
  window : List Nat := []
  refused : Bool := false
  stall : Stall := .none
  lanes : List Nat := []
  perLane : Bool := true
  deriving DecidableEq, Repr

/-- The first of the causes that R190 lists before an uncorrectable error. -/
def Issue.early (i : Issue) : Option Nat :=
  if i.illegal then some 1 else if i.field then some 3 else if i.priv then some 10
  else match i.stack with
    | some c => some c
    | none => if !i.window.isEmpty then some 8 else none
/-- The first cause of R190 that arises before any operand is read. -/
def Issue.cause (i : Issue) : Option Nat := i.early.or (if i.refused then some 2 else none)

/-- The PC moves; past index 8,191 the thread traps (R188). -/
def setPc (d : Dev) (cid t p : Nat) : Dev :=
  let d := modThr d cid t (fun x => { x with pc := p })
  if p < 8192 then d else trap d cid t 3 0 (thr d cid t).act
def advance (d : Dev) (cid t : Nat) : Dev := setPc d cid t ((thr d cid t).pc + 1)

/-! ### Which thread a core issues from (R127, R157) -/

/-- What the thread stalls on now: what its next instruction met when last offered, while it lasts. -/
def stallNow (d : Dev) (cid t : Nat) : Stall :=
  match tget stallDflt d.core.stalls (8 * cid + t) with
  | .queue h => if queueFull d cid h then .queue h else .none
  | .slots ls ss => if slotPending d cid (thr d cid t).home ls ss then .slots ls ss else .none
  | .none => .none
/-- The thread is ready (R157). -/
def threadReady (d : Dev) (cid t : Nat) : Bool :=
  canIssue (thr d cid t) && stallNow d cid t == .none && tget zeroN d.core.yields cid != t + 1
/-- Thread `b` goes before thread `a`: a higher issue rank, or a less recent issue at the same rank. -/
def issuesBefore (d : Dev) (cid b a : Nat) : Bool :=
  issueRank d cid a < issueRank d cid b || (issueRank d cid a == issueRank d cid b && (thr d cid b).issued < (thr d cid a).issued)
/-- The thread that would issue first; the lower number where neither has issued since it last started (log 238). -/
def firstThread (d : Dev) (cid : Nat) : List Nat → Option Nat
  | [] => none
  | a :: l => some (l.foldl (fun m b => if issuesBefore d cid b m then b else m) a)
def readyThreads (d : Dev) (cid : Nat) : List Nat := (List.range 8).filter (threadReady d cid)
/-- The thread from which the core issues next. -/
def nextThread (d : Dev) (cid : Nat) : Option Nat := firstThread d cid (readyThreads d cid)
/-- Threads that run a flight or a kernel item. -/
def workThreads (d : Dev) (cid : Nat) : List Nat :=
  (List.range 8).filter (fun t => (thr d cid t).state == 1 || (thr d cid t).state == 2 || (thr d cid t).state == 4)
/-- The CC after that of a YIELD has passed. -/
def endYield (d : Dev) (cid : Nat) : Dev := { d with core := { d.core with yields := tset zeroN d.core.yields cid 0 } }
/-- `n` cycles of a counter of the core's block. -/
def perfN (d : Dev) (cid off n : Nat) : Dev := if cid < 128 then bump d (perfBase cid + off) n else d
/-- `n` CC in which the core has work and issues nothing, by the cause of the thread that would issue first (R503, R504). -/
def lostCycles (d : Dev) (cid n : Nat) : Dev :=
  let d := perfN (perfN d cid 0 n) cid 0x18 n
  match firstThread d cid (workThreads d cid) with
  | none => perfN d cid 0x48 n
  | some t =>
    let k := kernelThread (thr d cid t)
    match stallNow d cid t, (thr d cid t).wait with
    | _, .lock => pmc (perfN d cid 0x40 n) cid 8 n k 0
    | .slots _ _, .none => pmc (perfN d cid 0x30 n) cid 6 n k 0
    | .queue _, .none => pmc (perfN d cid 0x38 n) cid 7 n k 0
    | _, _ => perfN d cid 0x48 n
/-- A CC in which nothing is issued though an instruction was offered: lost when no thread is ready. -/
def offered (d : Dev) (cid : Nat) : Dev :=
  if (readyThreads d cid).isEmpty then endYield (lostCycles d cid 1) cid else d
/-- The CC of an issue, retired or wasted. -/
def issueCycle (d : Dev) (cid : Nat) (kernel : Bool) (retired : Bool) (lanes : Nat) : Dev :=
  let d := perf (perf d cid 0) cid (if retired then 0x8 else 0x10)
  let d := if retired && kernel then perf d cid 0x28 else d
  if retired then pmc d cid 5 lanes kernel 0 else pmc d cid 3 1 kernel 0

/-- LIMIT + GRACE issues (R175): every lane is dropped with reason 61, children end, the root ends as by DONE. -/
def budgetDrop (d : Dev) (cid id : Nat) : Dev :=
  let d := raise (bump d (Rg.CORE_BUDGET_DROPS cid) 1) (corePage cid) 1
  match flightById d id with
  | none => d
  | some f =>
    let root := match f.loc with | .run _ t => t | _ => 0
    let d := killVerdicts d cid root (List.range f.lanes.length) 61
    let d := ((flightThreads d id).filter (fun k => k != 8 * cid + root)).foldl (fun d k =>
      freeThread (dropRaises d (k / 8) (k % 8)) (k / 8) (k % 8)) d
    endAsDone (modThr d cid root (fun x => { x with rstack := [] })) cid root

/-- Counts of an issue: the core's, the flight's, the thread's order. -/
def countIssue (d : Dev) (cid t : Nat) : Dev :=
  let x := thr d cid t
  let d := coreCtr (endYield (setStall d cid t .none) cid) cid Rg.CORE_ISSUED (some Rg.HCC_ISSUED)
  let d := modThr d cid t (fun x => { x with issued := (ctr d (if isHub cid then Rg.HCC_ISSUED (cid - 128) else Rg.CORE_ISSUED cid)).toNat })
  let d := pmc d cid (if kernelThread x then 2 else 1) 1 (kernelThread x) 0
  match x.flight with
  | some id =>
    let d := modFlight d id (fun f => { f with issues := f.issues + 1 })
    modBar d (fun b => { b with issued := tset zeroN b.issued cid d.mc })
  | none => d

/-- The issue has been counted and the instruction's word read from the image: the word, whether the read is uncorrectable,
and the state that the instruction acts on. -/
def fetchAt (d : Dev) (cid t : Nat) : Nat × Bool × Dev :=
  if isHub cid then (0, false, countIssue d cid t)
  else sramRead (countIssue d cid t) (cidPlace cid) (imageArr cid (thr d cid t).bank) (4 * (thr d cid t).pc) 4
/-- Issues of a thread's flight so far. -/
def issuesOf (d : Dev) (flight : Option Nat) : Nat := ((flight.bind (flightById d)).map (·.issues)).getD 0

/-- LIMIT and GRACE of a flight: those in force at its start (R175, R538). -/
def budgetOf (d : Dev) (flight : Option Nat) : Nat × Nat :=
  match flight.bind (flightById d) with
  | some f => (f.limit, f.grace)
  | none => (0, 0)

/-- The issue of one instruction, offered by thread `t`: nothing comes of it unless the core issues from that thread (R127, R157), and
it may stall (R158). `eff` is what it does when no cause of `i` arises, and whether it then traps. -/
def issue (d : Dev) (cid t : Nat) (i : Issue) (eff : Dev → Dev × Bool) : Dev :=
  let x := thr d cid t
  let k := kernelThread x
  if !canIssue x || !unitRuns d cid then d
  else if nextThread d cid != some t then offered d cid
  else if i.cause.isNone && i.stall != .none then offered (setStall d cid t i.stall) cid
  else
    let r := fetchAt d cid t
    let d := r.2.2
    if r.2.1 && (!k || i.early.isNone) then issueCycle (coreUncorr d cid t i.word false) cid k (!k) i.lanes.length
    else
      let n := issuesOf d x.flight
      let (limit, grace) := budgetOf d x.flight
      if x.flight.isSome && n == limit then issueCycle (trap d cid t 11 i.word x.act) cid k false 0
      else if x.flight.isSome && n == limit + grace then
        issueCycle (match x.flight with | some id => budgetDrop d cid id | none => d) cid k false 0
      else match i.cause with
        | some c => issueCycle (trap d cid t c i.word (if c == 8 then ofBits i.window else x.act)) cid k false 0
        | none =>
          let (d, trapped) := eff d
          issueCycle d cid k (!trapped && (!i.perLane || !i.lanes.isEmpty)) i.lanes.length

/-- A read of the instruction's operands met an error (R174). -/
def metError (d : Dev) (cid t : Nat) (w : W32) (m : Met) : Dev × Bool :=
  let k := kernelThread (thr d cid t)
  (coreUncorr d cid t w (m == .slot), k)

/-- A format A instruction that reads an operand in each acting lane and changes that lane's registers. -/
def laneOp (op : Nat) (m : FormA) (d : Dev) (cid t : Nat) (f : BitVec 24) (fn : Nat → Nat → LaneCtx → LaneCtx) (after : Dev → Dev) : Dev :=
  let a := fa f
  let x := thr d cid t
  let ls := actingLanes x (a.s == 4)
  issue d cid t
    { word := opWord op f, field := badA m a, stack := stackUnder x a, window := ls.filter (outside x a)
      stall := stallOn d cid x a ls, lanes := ls }
    (fun d =>
      let (vs, e, d) := readLanes d ls (fun d n => readOperand d cid t a n)
      if e != .ok then metError d cid t (opWord op f) e
      else (advance (after (vs.foldl (fun d v => modCtx d cid t v.1 (fn a.width v.2)) d)) cid t, false))

/-- The same with flags and result of a two-operand operation at every width. -/
def aluOp (op : Nat) (d : Dev) (cid t : Nat) (f : BitVec 24) (fn : Nat → Nat → LaneCtx → LaneCtx) : Dev :=
  laneOp op formOp d cid t f fn id
/-- An operation on A alone. -/
def aOp (op : Nat) (ws : List Nat) (d : Dev) (cid t : Nat) (f : BitVec 24) (fn : Nat → LaneCtx → LaneCtx) : Dev :=
  laneOp op { formA with ws := ws } d cid t f (fun w _ => fn w) id

/-- A format A instruction whose effect is on the thread. -/
def threadOp (op : Nat) (m : FormA) (priv perLane : Bool) (stack : Thread → Option Nat) (d : Dev) (cid t : Nat) (f : BitVec 24)
    (eff : FA → List Nat → Dev → Dev) : Dev :=
  let a := fa f
  let x := thr d cid t
  let ls := actingLanes x (a.s == 4)
  issue d cid t { word := opWord op f, field := badA m a, priv := priv, stack := stack x, lanes := ls, perLane := perLane }
    (fun d => (eff a ls d, false))

/-- A format J instruction: fields that it does not admit, its kind of thread, a stack cause. -/
def jumpOp (op : Nat) (bad priv : Bool) (stack : Thread → Option Nat) (d : Dev) (cid t : Nat) (f : BitVec 24) (eff : Dev → Dev) : Dev :=
  let x := thr d cid t
  issue d cid t { word := opWord op f, field := bad || fjZero f != 0, priv := priv, stack := stack x, lanes := activeLanes x,
                  perLane := false } (fun d => (eff d, false))

end Sys2Proof.Machine
end

