-- ==== Sys2Proof/Machine/Barista.lean ====
section
/-!
DEFINITION. The Barista's commands: closing a flight, dispatch in the two disciplines, kernel items, the active set, the
start and the rebuild of a flight (R122 to R142, R150, R177, R183).
-/

namespace Sys2Proof.Machine
open Sys2Proof

/-- One of several things between which the spec does not choose: a free value decides. -/
def pickFree {α : Type} (d : Dev) (l : List α) : Option α × Dev :=
  match l with
  | [] => (none, d)
  | [a] => (some a, d)
  | _ => (l[(freeVal d).toNat % l.length]?, useFree d)

/-! ## Closing (R122, R126) -/

/-- An open flight that is not full stays open: of a stopped former, and at Kettle level 4, while packets of its queue are in parse or
cell write (R126, R143); of one that has resumed, while packets of its queue wait (R31; DEDUCED, log 240). -/
def staysOpen (d : Dev) (z pl : Nat) (x : Bool) : Bool :=
  let f := former d z pl x
  f.lanes.length < 32 && (((f.stopped || 4 ≤ level d z) && comingTo d z pl x) || (f.backlog && waitsFor d z pl x))

/-- FLIGHT_CLOSE: the open flight closes when it is full, or when no packet becomes ready next and it need not stay open (R122, R126). -/
def execFlightClose (z : Zone) (pl : Fin 4) (express : Bool) (s : State) : Host.Outcome State Fault Refusal :=
  s.onDevF (fun d =>
    let d := watchBacklog d z pl express
    if staysOpen d z pl express then d else closeFlight d z pl express)

/-! ## Dispatch (R128 to R136) -/

/-- The express window in which the MC count lies begins, if it has not (R128). -/
def enterWindow (d : Dev) (z : Nat) : Dev :=
  if (barz d z).window == d.mc / 64 then d else modBarz d z (fun b => { b with window := d.mc / 64, expressUsed := 0 })

/-- An express flight that meets the cap (R128). -/
def overCap (d : Dev) (f : Flight) : Bool :=
  f.express && f.group == 0 && !f.demoted && rf d (Rg.BAR_EXPRESS f.zone) Fl.BAR_EXPRESS_CAP ≤ (barz d f.zone).expressUsed
/-- The level at which a flight of the queue would be dispatched now. -/
def levelNow (d : Dev) (f : Flight) : Nat :=
  if overCap d f then rf d (Rg.BAR_FORMER f.zone f.pipe) Fl.BAR_FORMER_NLEVEL else f.level
/-- Place in a level of the queue: those returned to its head first, the last one ahead, then by the order of entry. -/
def headKey (f : Flight) : Nat := (if f.back == 0 then 2 ^ 129 else (2 ^ 64 - f.back % 2 ^ 64) * 2 ^ 64) + f.order % 2 ^ 64
/-- The first flight of the highest non-empty level of a group. For group 2 the spec states no order: the model takes the same one
(DESIGN CHOICE, log 239). -/
def firstFlight (d : Dev) (z g : Nat) : Option Flight :=
  leastBy (fun f => (15 - levelNow d f) * 2 ^ 130 + headKey f) ((waiting d z).filter (fun f => f.group == g))

/-- The flight moves into a slot of core `k` and its dispatch counts. -/
def dispatchTo (d : Dev) (f : Flight) (k : Nat) : Dev :=
  let z := f.zone
  let beyond := overCap d f
  let lv := levelNow d f
  let d := nextSeq d
  let n := d.bar.seq
  let d := modFlight d f.id (fun x => { x with loc := .slot (32 * z + k), level := lv, demoted := f.demoted || beyond, placed := n })
  let d := if beyond then bump d (Rg.BAR_EXPRESS_DEMOTED z) 1
    else if f.express && f.group == 0 && !f.demoted then
      let d := modBarz d z (fun b => { b with expressUsed := b.expressUsed + 1 })
      if (barz d z).expressUsed == rf d (Rg.BAR_EXPRESS z) Fl.BAR_EXPRESS_CAP then raise d (barPage z) 3 else d
    else d
  let d := bump d (Rg.BAR_DISPATCH z lv) 1
  let d := bump d (Rg.BAR_LANES z) f.lanes.length
  let d := if f.lanes.length == 32 then bump d (Rg.BAR_FULL z) 1 else d
  watchGrow d z

/-- The strict discipline: the first flight is placed, or displaces one (R130, R132). -/
def dispatchStrict (d : Dev) (z : Nat) : Dev :=
  match firstFlight d z 0 with
  | none => d
  | some f =>
    match place d f with
    | some k => dispatchTo d f k
    | none =>
      match displaceable d { f with level := levelNow d f } with
      | some y =>
        match y.loc with
        | .slot cid =>
          let d := nextSeq d
          let n := d.bar.seq
          let d := modFlight d y.id (fun x => { x with loc := .queued, displaced := true, back := n })
          dispatchTo (bump d (Rg.BAR_DISPLACED z) 1) f (cidCore cid)
        | _ => d
      | none => d

/-- The oldest dispatched flight of group 0 that has no copy (R136). -/
def copyable (d : Dev) (z : Nat) : Option Flight :=
  leastBy (·.placed) ((zoneFlights d z).filter (fun f => f.group == 0 && f.copyOf.isNone && !f.copied &&
    (match f.loc with | .slot _ => true | .run _ _ => true | _ => false)))

/-- The core in SHADOW can take a copy. -/
def shadowRoom (d : Dev) (z : Nat) : Bool :=
  let cid := 32 * z + (barz d z).shadowCore
  (barz d z).run && 0 < (barz d z).remain && shadowOf d z == some (barz d z).shadowCore && !coreHeld d cid &&
    (slotFlights d cid).length < 2

/-- The flight's copy goes to the core in SHADOW. -/
def shadowCopy (d : Dev) (f : Flight) : Dev :=
  let z := f.zone
  let d := nextSeq d
  let n := d.bar.seq
  let c : Flight := { f with id := n, loc := .slot (32 * z + (barz d z).shadowCore), group := 1, copyOf := some f.id, copied := true,
                             placed := n, issues := 0, owner := none, trace := [], results := [], verdicts := [], finished := false }
  let d := modFlight d f.id (fun x => { x with copied := true })
  let d := modBar d (fun b => { b with flights := b.flights ++ [c] })
  modBarz d z (fun b => { b with remain := b.remain - 1 })

/-! ## Kernel items (R138, R140, R143, R183) -/

/-- Waiting kernel threads of a core that may take an item; work addressed to a core that rests wakes it, and waits (R449). -/
def waitingThreads (d : Dev) (cid : Nat) : List Nat :=
  if coreHeld d cid || !devRuns d then [] else (List.range 8).filter (fun t => (thr d cid t).state == 3)
/-- The core to which an item goes now. -/
def itemCoreNow (d : Dev) (pl : Nat) (v : W64) : Option Nat :=
  let has (cid : Nat) := !(waitingThreads d cid).isEmpty
  if pl == 0 then
    if itemCore v == 31 then ((List.range 4).map (128 + ·)).find? (fun c => inService d (coreChan c) && has c)
    else if itemCore v < 4 && has (128 + itemCore v) then some (128 + itemCore v) else none
  else
    let z := pl - 1
    if itemCore v == 31 then
      (((activeSet d z) ++ (serviceCores d z)).map (fun k => 32 * z + k)).find? has
    else if has (32 * z + itemCore v) then some (32 * z + itemCore v) else none
/-- The item waits for a lower budget level (R143, R454; the hub has no DEFER_LEVEL, log 45). -/
def deferred (d : Dev) (pl : Nat) (v : W64) : Bool :=
  if pl == 0 then 2 ≤ level d 4 && itemLevel v < 8
  else 2 ≤ level d (pl - 1) && itemLevel v < rf d (Rg.BAR_KERNEL (pl - 1)) Fl.BAR_KERNEL_DEFER_LEVEL
/-- The item to give next, by its place in the queue: the highest level, then the earliest posted, among those that can go. -/
def nextItem (d : Dev) (pl : Nat) : Option (W64 × Nat) :=
  leastBy (fun e => 15 - itemLevel e.1) ((items d pl).zipIdx.filter (fun e => !deferred d pl e.1 && (itemCoreNow d pl e.1).isSome))

/-- The item goes to a waiting thread: A of lane 0, its level, and the next instruction, or index 48 of a new bank (R138, R179). -/
def giveItem (d : Dev) (pl : Nat) : Dev :=
  match nextItem d pl with
  | none => d
  | some (v, i) =>
    match itemCoreNow d pl v with
    | none => d
    | some cid =>
      let (t, d) := pickFree d (waitingThreads d cid)
      match t with
      | none => d
      | some t =>
        let d := setItems d pl ((items d pl).eraseIdx i)
        let d := newTag d
        let bank := if pl == 0 then 0 else activeBank d (pl - 1)
        let pc := if (thr d cid t).bank == bank then (thr d cid t).pc + 1 else 48
        let d := modThr d cid t (fun x =>
          { x with state := 4, item := some v, level := itemLevel v, tag := d.core.tags, wait := .none, bank := bank,
                   lanes := tmod (fun _ => {}) x.lanes 0 (fun l => { l with a := v }) })
        let d := watchLocks (setPc d cid t pc)
        if pl == 0 then d else bump d (Rg.BAR_KGIVEN (pl - 1)) 1

/-! ## The weighted discipline (R134) -/

/-- The group has work and, for groups 0 to 2, a core for it. -/
def canServe (d : Dev) (z g : Nat) : Bool :=
  match g with
  | 0 => (match firstFlight d z 0 with | some f => (place d f).isSome | none => false)
  | 1 => shadowRoom d z && (copyable d z).isSome
  | 2 => (match firstFlight d z 2 with | some f => (place d f).isSome | none => false)
  | _ => (nextItem d (1 + z)).isSome
/-- One service of the group. -/
def serve (d : Dev) (z g : Nat) : Dev :=
  match g with
  | 0 | 2 => (match firstFlight d z g with
      | some f => (match place d f with | some k => dispatchTo d f k | none => d)
      | none => d)
  | 1 => (match copyable d z with | some f => shadowCopy d f | none => d)
  | _ => giveItem d (1 + z)

def weights (d : Dev) (z : Nat) : List Nat :=
  let r := Rg.BAR_WEIGHT z
  [rf d r Fl.BAR_WEIGHT_W_NORMAL, rf d r Fl.BAR_WEIGHT_W_SHADOW, rf d r Fl.BAR_WEIGHT_W_REEXEC, rf d r Fl.BAR_WEIGHT_W_KERNEL]
/-- The groups in rotation after the one served last. -/
def rotation (last : Nat) : List Nat := (List.range 4).map (fun i => (last + 1 + i) % 4)
/-- The first group of the rotation that can be served and has credit. -/
def credited (d : Dev) (z last : Nat) (cr : List Nat) : Option Nat :=
  (rotation last).find? (fun g => canServe d z g && 0 < cr.getD g 0)
/-- A group is served on a credit. -/
def serveCredit (d : Dev) (z g : Nat) (cr : List Nat) : Dev :=
  serve (modBarz d z (fun b => { b with credits := cr.set g (cr.getD g 0 - 1), last := g })) z g

def dispatchWeighted (d : Dev) (z : Nat) : Dev :=
  let b := barz d z
  match credited d z b.last b.credits with
  | some g => serveCredit d z g b.credits
  | none =>
    let w := weights d z
    match credited d z b.last w with
    | some g => serveCredit d z g w
    | none =>
      let d := modBarz d z (fun b => { b with credits := w })
      match (rotation b.last).find? (canServe d z) with
      | some g => serve (modBarz d z (fun b => { b with last := g })) z g
      | none => d

/-- DISPATCH: one FC cycle of the Barista's flight dispatch (R132 to R134). -/
def execDispatch (z : Zone) (s : State) : Host.Outcome State Fault Refusal :=
  s.onDevF (fun d =>
    let d := watchDisc (enterWindow d z) z
    if barHeld d z then d else if weightedNow d z then dispatchWeighted d z else dispatchStrict d z)

/-- KERNEL_GIVE: an item goes to a waiting kernel thread; in a zone under the weighted discipline only DISPATCH gives items. -/
def execKernelGive (place : Place) (s : State) : Host.Outcome State Fault Refusal :=
  s.onDevF (fun d =>
    match place.val with
    | 0 => if rb d Rg.MGT_FW Fl.MGT_FW_READY then giveItem d 0 else d
    | p + 1 => if p < 4 && !barHeld d p && !weightedNow d p then giveItem d (p + 1) else d)

/-- EXPRESS_WINDOW: a new window of 64 MC cycles. -/
def execExpressWindow (z : Zone) (s : State) : Host.Outcome State Fault Refusal := s.onDev (fun d => enterWindow d z)

/-! ## The active set (R141) -/

/-- The MIN_ACTIVE lowest-numbered cores in service: the set when the zone opens or packing begins. -/
def firstActive (d : Dev) (z : Nat) : Dev :=
  modBarz d z (fun b => { b with active := ofBits ((serviceCores d z).take (rf d (Rg.BAR_PACK z) Fl.BAR_PACK_MIN_ACTIVE)) })
/-- ACTIVE_GROW: GROW or more flights have waited for 64 FC cycles, 16 MC cycles: the next core in service joins. -/
def execActiveGrow (z : Zone) (s : State) : Host.Outcome State Fault Refusal :=
  s.onDev (fun d =>
    match (barz d z).growSince with
    | some t =>
      if rb d (Rg.BAR_CTRL z) Fl.BAR_CTRL_PACK_EN && t + 16 ≤ d.mc then
        match (serviceCores d z).find? (fun k => !(barz d z).active.testBit k) with
        | some k => modBarz d z (fun b => { b with active := setBit b.active k, growSince := some d.mc })
        | none => d
      else d
    | none => d)

/-- ACTIVE_SHRINK: the highest core of the set leaves when it has issued no flight instruction for SHRINK × 256 CC, 32 MC
cycles each. -/
def execActiveShrink (z : Zone) (s : State) : Host.Outcome State Fault Refusal :=
  s.onDev (fun d =>
    match (packed d z).getLast? with
    | some k =>
      let r := Rg.BAR_PACK z
      if rb d (Rg.BAR_CTRL z) Fl.BAR_CTRL_PACK_EN && rf d r Fl.BAR_PACK_MIN_ACTIVE < (packed d z).length &&
          tget zeroN d.bar.issued (32 * z + k) + 32 * rf d r Fl.BAR_PACK_SHRINK ≤ d.mc then
        modBarz d z (fun b => { b with active := clrBit b.active k })
      else d
    | none => d)

/-! ## Start and rebuild (R131, R135, R150, R177) -/

/-- The slot flight that a free thread takes: the higher level, then the earlier dispatch. -/
def slotFirst (d : Dev) (cid : Nat) : Option Flight :=
  leastBy (fun f => (15 - f.level) * 2 ^ 64 + f.placed % 2 ^ 64) (slotFlights d cid)

/-- The flight is loaded on thread `t` of core `cid`: buffers, H, M and registers. -/
def loadFlight (d : Dev) (f : Flight) (cid t : Nat) : Dev :=
  let n := f.lanes.length
  let own := 8 * cidCore cid + t
  let d := if f.copyOf.isSome then d
    else f.lanes.foldl (fun d l =>
      match f.owner with
      | some o => handOver d l.handle 2 o 2 own
      | none => handOver d l.handle 1 f.pipe 2 own) d
  let d := modFlight d f.id (fun x => { x with
    loc := .run cid t, owner := if f.copyOf.isSome then none else some own
    limit := rf d (Rg.CORE_BUDGET cid) Fl.CORE_BUDGET_LIMIT, grace := rf d (Rg.CORE_BUDGET cid) Fl.CORE_BUDGET_GRACE
    forkEn := rb d (Rg.CORE_CTRL cid) Fl.CORE_CTRL_FORK_EN })
  let d := f.lanes.zipIdx.foldl (fun d e =>
    coreWrite (coreWrite d cid 0 (hAddr t e.2 0) 256 (beNat e.1.h)) cid 1 (mAddr t e.2 0) 128 (beNat e.1.m)) d
  let d := pmc (pmc (newTag (clearPend d cid t)) cid 9 1 false 0) cid 10 n false 0
  modThr d cid t (fun x =>
    { state := 1, bank := f.bank, act := 2 ^ n - 1, level := f.level, home := t, flight := some f.id, tag := d.core.tags,
      issued := x.issued })

/-- The flight starts at the entry point of its class, read from the core's image. -/
def startFlight (d : Dev) (f : Flight) (cid t : Nat) : Dev :=
  let (w, bad, d) := sramRead (loadFlight d f cid t) (cidPlace cid) (imageArr cid f.bank) (4 * (32 + f.cls)) 4
  if bad then coreUncorr d cid t (BitVec.ofNat 32 w) false
  else if 8192 ≤ w then
    trap (modThr d cid t (fun x => { x with pc := 32 + f.cls })) cid t 3 (BitVec.ofNat 32 w) (2 ^ f.lanes.length - 1)
  else modThr d cid t (fun x => { x with pc := w })

/-- FLIGHT_START: an idle flight thread takes its next flight. -/
def execFlightStart (z : Zone) (core : Fin 26) (t : Tid) (s : State) : Host.Outcome State Fault Refusal :=
  s.onDevF (fun d =>
    let cid := 32 * z.val + core.val
    if (thr d cid t).state == 0 && !kernelRole d cid t && unitRuns d cid then
      match slotFirst d cid with
      | some f => startFlight d f cid t
      | none => d
    else d)

/-- FLIGHT_REBUILD: a flight that met a transient fault enters group 2 of the queue, rebuilt from the cell buffer. -/
def execFlightRebuild (z : Zone) (entry : Nat) (s : State) : Host.Outcome State Fault Refusal :=
  s.onDevF (fun d =>
    match (zoneFlights d z).find? (fun f => f.entry == entry && f.loc == .lost) with
    | some f =>
      let d := modFlight d f.id (fun x => { x with loc := .queued })
      watchGrow (bump d (Rg.BAR_REEXEC z) 1) z
    | none => d)

end Sys2Proof.Machine
end

