-- ==== Sys2Proof/Machine/Dma.lean ====
section
/-!
DEFINITION. Table DMA: descriptors, records and the operations of R255 on tables, counter pairs, meters, image banks and
global memory (R178, R244, R245, R255, R256, R261, R407, R411).
-/

namespace Sys2Proof.Machine
open Sys2Proof

/-! ## Counters and meters (R244, R245, R539) -/

def pairArr (p : Nat) : Nat := 9 * 2048 + p % 16
/-- Counter pair `p` of zone `z`: packets, bytes, whether it is uncorrectable. -/
def readPair (d : Dev) (z p : Nat) : Nat × Nat × Bool × Dev :=
  let (a, b1, d) := readWord d (1 + z) (pairArr p) (2 * (p / 16))
  let (b, b2, d) := readWord d (1 + z) (pairArr p) (2 * (p / 16) + 1)
  (a.toNat, b.toNat, b1 || b2, d)
def writePair (d : Dev) (z p a b : Nat) : Dev :=
  writeWord (writeWord d (1 + z) (pairArr p) (2 * (p / 16)) (BitVec.ofNat 64 a)) (1 + z) (pairArr p) (2 * (p / 16) + 1) (BitVec.ofNat 64 b)

/-- Meter record `m` of zone `z` as one 256-bit number: its first word holds [255:192]. -/
def readMeter (d : Dev) (z m : Nat) : Nat × Bool × Dev := sramRead d (1 + z) (10 * 2048) (32 * m) 32
def writeMeter (d : Dev) (z m v : Nat) : Dev := sramWrite d (1 + z) (10 * 2048) (32 * m) 32 v
def mField (v hi lo : Nat) : Nat := v / 2 ^ lo % 2 ^ (hi + 1 - lo)

/-- A DMA write of a meter: its buckets become the new bursts and its last credit now; reserved bits read 0. -/
def meterSet (v now : Nat) : Nat :=
  mField v 255 254 * 2 ^ 254 + mField v 231 208 * 2 ^ 208 + mField v 207 184 * 2 ^ 184 + mField v 183 160 * 2 ^ 160 +
    mField v 159 136 * 2 ^ 136 + mField v 183 160 * 2 ^ 96 + mField v 159 136 * 2 ^ 64 + now % 2 ^ 64

/-! ## Image banks (R178) -/

/-- The bank may not be written: it is active or in use. -/
def imageBusy (d : Dev) (z bank : Nat) : Bool := activeBank d z == bank || otherBusy d z
/-- Write instructions from index `i`: into all 26 cores; the bank's VALID bit clears. -/
def imageWrite (d : Dev) (z bank i : Nat) (ws : List Nat) : Dev :=
  let d := wr d (Rg.ZCTL_IMG_VALID z) (BitVec.ofNat 32 (clrBit (rd d (Rg.ZCTL_IMG_VALID z)).toNat bank))
  let d := { d with caddy := { d.caddy with imgValid := clrBit d.caddy.imgValid (2 * z + bank) } }
  (List.range 26).foldl (fun d k =>
    (ws.zipIdx).foldl (fun d e => sramWrite d (1 + z) (imageArr (32 * z + k) bank) (4 * (i + e.2)) 4 e.1) d) d

/-! ## Descriptors (R411) -/

structure DmaDesc where
  op : Nat
  target : Nat
  zone : Nat
  table : Nat
  region : Bool
  count : Nat
  pos : Nat
  host : Nat
  gaddr : Nat

def dmaDesc (l : List W32) : DmaDesc :=
  let w (i : Nat) : Nat := (l.getD i 0).toNat
  { op := w 0 % 16, target := w 0 / 16 % 8, zone := w 0 / 128 % 4, table := w 0 / 512 % 32, region := (w 0).testBit 14
    count := w 0 / 65536, pos := w 1, host := w 2 + w 3 * 2 ^ 32, gaddr := w 4 + w 5 % 256 * 2 ^ 32 }

/-- The operation addresses by key. -/
def byKey (op : Nat) : Bool := 5 ≤ op && op ≤ 7

/-- Bad descriptor: a reserved field non-zero, or a field out of range. -/
def badDesc (d : Dev) (l : List W32) : Bool :=
  let w (i : Nat) : Nat := (l.getD i 0).toNat
  let x := dmaDesc l
  9 ≤ x.op || 6 ≤ x.target || (w 0).testBit 15 || x.count == 0 || w 6 != 0 || w 7 != 0 || w 5 / 256 != 0 ||
    (x.target != 5 && (w 4 != 0 || w 5 != 0)) || (x.region && (x.target != 0 || byKey x.op)) ||
    (x.target == 1 && 8 ≤ x.table) ||
    (x.target == 4 && (2 ≤ x.table || 8192 < x.pos + x.count || (x.op != 0 && x.op != 2))) ||
    (x.target == 5 && ((x.op != 0 && x.op != 2) || x.gaddr % 64 != 0 ||
      !(mapped d x.gaddr 64 && mapped d (x.gaddr + 64 * (x.count - 1)) 64 && (isHbm d x.gaddr == isHbm d (x.gaddr + 64 * (x.count - 1))))))

/-! ## Records (R411) -/

/-- A record's bytes. -/
def recBytes (key mask : List Byte) (data : W64) (stamp flags status pos : Nat) : List Byte :=
  let pad (n : Nat) (l : List Byte) : List Byte := l.take n ++ List.replicate (n - l.length) 0
  pad 64 key ++ pad 40 mask ++ leBytes 8 data.toNat ++ leBytes 2 stamp ++ [BitVec.ofNat 8 flags, BitVec.ofNat 8 status] ++
    leBytes 4 pos ++ leBytes 8 0
/-- A record that could not be read: its contents are 0xFF. -/
def recPoisoned (flags status pos : Nat) : List Byte :=
  List.replicate 114 0xFF ++ [BitVec.ofNat 8 flags, BitVec.ofNat 8 status] ++ leBytes 4 pos ++ leBytes 8 0

/-- What one record's operation answers: the record written back, its status, whether it was uncorrectable. -/
structure RecRes where
  out : List Byte
  status : Nat
  poisoned : Bool

/-- A record that echoes its operands, with a status and position. -/
def echoRec (b : List Byte) (status pos : Nat) : RecRes :=
  { out := recBytes (b.take 64) ((b.drop 64).take 40) (BitVec.ofNat 64 (leNat ((b.drop 104).take 8))) (leNat ((b.drop 112).take 2))
      (byteAt b 114) status pos, status := status, poisoned := false }

/-- A record that holds an entry. -/
def entRec (e : TEnt) (bad : Bool) (status pos : Nat) : RecRes :=
  let flags := b2n e.valid + 2 * b2n e.lock.isSome + 4 * b2n bad
  { out := if bad then recPoisoned flags status pos else recBytes e.key e.mask e.data e.stamp flags status pos
    status := status, poisoned := bad }

/-- The entry that a written record gives. -/
def recEnt (x : TDesc) (b : List Byte) : TEnt :=
  if !(byteAt b 114).testBit 0 && x.ty != 5 then {}
  else
    let data := BitVec.ofNat 64 (leNat ((b.drop 104).take 8))
    match x.ty with
    | 4 => { valid := true, key := (b.take 40), mask := (b.drop 64).take 40, data := data }
    | 5 => { valid := (byteAt b 114).testBit 0, data := data }
    | _ => { valid := true, key := storedKey x b, data := data, stamp := if x.ty == 1 then leNat ((b.drop 112).take 2) else 0 }

/-- R257: the inactive region still serves flights closed before the last commit. -/
def inactiveBusy (d : Dev) (x : TDesc) (z t : Nat) : Bool :=
  if x.ext then false else if x.repl then (List.range 4).any (fun y => oldBusy d y t) else oldBusy d z t

/-- Requester number of a table DMA channel (R348). -/
def dmaReq (ch : Nat) : Nat := 912 + 48 * (ch / 8) + ch % 8
/-- A read of one entry: in its SRAM words, or in HBM as a request of class 4. -/
def dmaReadEnt (d : Dev) (pl t r : Nat) (x : TDesc) (ch p : Nat) : Bool × Dev :=
  if x.ext then hbmRead d 4 (dmaReq ch) (extAddr x p) (entBytes x) else readEnt d pl t r x p

/-- One record of target 0 or 1: place `pl`, table `t`, region `r`, descriptor `x`, channel `ch`, operation, record bytes,
position given. -/
def dmaEntry (d : Dev) (pl t r : Nat) (x : TDesc) (z ch op : Nat) (b : List Byte) (pos0 : Nat) : RecRes × Dev :=
  let lpm := x.ty == 2 || x.ty == 3
  let keyed := lpm && (op == 1 || op == 3 || op == 4)
  let hub := pl == 0 && t < 32
  -- an operation by key on an extension table reads the key's blocks
  let (xbad, d) := if x.ext && byKey op && x.ty != 0 then extRead d 4 (dmaReq ch) x b (matchPos d pl t r x b) else (false, d)
  let done (d : Dev) (poss : List Nat) : Dev :=
    if hub then masterWrote d t r poss else if x.ext then extStore d 4 (dmaReq ch) x poss else d
  let changes := op != 0 && op != 7
  if x.ty == 0 || op == 8 then (echoRec b 5 noPos, d)
  else if x.repl && frozen d z && changes then (echoRec b 7 noPos, d)
  else if (byKey op || keyed) && badLpm x b && op != 7 then (echoRec b 5 noPos, d)
  else if byKey op && op != 7 && (x.ty == 4 || x.ty == 5) then (echoRec b 5 noPos, d)
  else
    match op with
    | 5 =>
      let (res, d) := insertTbl d pl t r x 0 b (BitVec.ofNat 64 (leNat ((b.drop 104).take 8)))
      let d := if x.repl then masterEvicted d t z x res else if x.ext then d else noteNoRoom (noteEvicted d z t x res) z res
      let st := match res.status with | 0 | 1 | 2 => 0 | 6 => 1 | 7 => 5 | _ => 4
      (echoRec b st res.pos, done (if hub then syncRes d t x b (BitVec.ofNat 64 (leNat ((b.drop 104).take 8))) false res else d) res.touched)
    | 6 =>
      let (res, d) := deleteTbl d pl t r x b
      let st := match res.status with | 0 => 0 | 6 => 1 | 7 => 5 | _ => 3
      (echoRec b st res.pos, done (if hub then syncRes d t x b 0 true res else d) res.touched)
    | 7 =>
      let (hit, bad, d) := searchTbl d pl t r x b
      -- a read that was uncorrectable leaves a hit or a miss unread (R261)
      match hit with
      | some p => (entRec (ent d pl t r p) (bad || xbad) 0 p, d)
      | none => if bad || xbad then ({ out := recPoisoned 4 0 noPos, status := 0, poisoned := true }, d) else (echoRec b 3 noPos, d)
    | _ =>
      let pos := if keyed then (findKey d pl t r x (storedKey x b)) else some pos0
      match pos with
      | none => (echoRec b 3 noPos, d)
      | some p =>
        if !posOk x r p || posGone d pl t r x p then (echoRec b 6 p, d)
        else if (op == 2 || op == 3) && r != x.bank && inactiveBusy d x z t then (echoRec b 6 p, d)
        else
          let e := ent d pl t r p
          let mine := match e.lock with | some (o, _) => o == ch | none => false
          match op with
          | 0 =>
            let (bad, d) := dmaReadEnt d pl t r x ch p
            (entRec (ent d pl t r p) bad 0 p, d)
          | 1 =>
            if e.lock.isSome && !mine then (echoRec b 1 p, d)
            else
              let (bad, d) := dmaReadEnt d pl t r x ch p
              let d := if mine then d else modTbl d (fun q => { q with ents := tmod entDflt q.ents (entKey pl t r p) (fun e => { e with lock := some (ch, nowNs d) }) })
              (entRec (ent d pl t r p) bad 0 p, if mine then d else done d [p])
          | 2 =>
            if e.lock.isSome then (echoRec b 1 p, d)
            else if lpm && badLpm x b then (echoRec b 5 p, d)
            else (echoRec b 0 p, done (writeEnt (if hub then syncWrite d t x e (recEnt x b) else d) pl t r x p (recEnt x b)) [p])
          | 3 =>
            if !mine then (echoRec b 2 p, d)
            else (echoRec b 0 p, done (writeEnt (if hub then syncWrite d t x e (recEnt x b) else d) pl t r x p (recEnt x b)) [p])
          | _ =>
            if !mine then (echoRec b 2 p, d)
            else
              let d := modTbl d (fun q => { q with ents := tmod entDflt q.ents (entKey pl t r p) (fun e => { e with lock := none }) })
              (echoRec b 0 p, done d [p])

/-- One record of a counter pair. -/
def dmaPair (d : Dev) (z op : Nat) (b : List Byte) (p : Nat) : RecRes × Dev :=
  if op != 0 && op != 2 && op != 8 then (echoRec b 5 p, d)
  else if 1048576 ≤ p then (echoRec b 6 p, d)
  else if op == 2 then (echoRec b 0 p, writePair d z p (leNat (b.take 8)) (leNat ((b.drop 8).take 8)))
  else
    let (pk, by_, bad, d) := readPair d z p
    let d := if bad || op == 8 then writePair d z p 0 0 else d
    ({ out := if bad then recPoisoned 4 0 p else recBytes (leBytes 8 pk ++ leBytes 8 by_) [] 0 0 0 0 p, status := 0, poisoned := bad }, d)

/-- One record of a meter. -/
def dmaMeter (d : Dev) (z op : Nat) (b : List Byte) (p : Nat) : RecRes × Dev :=
  if op != 0 && op != 2 then (echoRec b 5 p, d)
  else if 65536 ≤ p then (echoRec b 6 p, d)
  else if op == 2 then
    let v := leNat (b.take 32)
    -- MODE 3 is written as 0, with status 5 (R245)
    if mField v 255 254 == 3 then (echoRec b 5 p, writeMeter d z p (meterSet (v % 2 ^ 254) (nsIn d z)))
    else (echoRec b 0 p, writeMeter d z p (meterSet v (nsIn d z)))
  else
    let (v, bad, d) := readMeter d z p
    ({ out := if bad then recPoisoned 4 0 p else recBytes (leBytes 32 v) [] 0 0 0 0 p, status := 0, poisoned := bad }, d)

/-! ## One descriptor -/

/-- The page of the block that a target lies in, and the zone it needs. -/
def dmaPage (d : Dev) (x : DmaDesc) : Option Nat × Option Nat :=
  let repl := (descAt d (1 + x.zone) x.table).repl
  match x.target with
  | 0 => if repl then (some (Rg.pageOf Rg.baseHTB), none) else (some (Rg.pageOf (Rg.baseTBL x.zone)), some x.zone)
  | 1 => (some (Rg.pageOf Rg.baseHTB), none)
  | 2 | 3 => (some (Rg.pageOf (Rg.baseTBL x.zone)), some x.zone)
  | 4 => (some (Rg.pageOf (Rg.baseZCTL x.zone)), some x.zone)
  | _ => (if isHbm d x.gaddr then some (hbmPage (hbmPc x.gaddr / 32)) else none, none)

/-- The records of a descriptor, in order. -/
def dmaRecords (d : Dev) (x : DmaDesc) (ch : Nat) (data : List W32) : List RecRes × Dev :=
  let z := x.zone
  (List.range x.count).foldl (fun (acc : List RecRes × Dev) i =>
    let b := wordsBytes ((data.drop (32 * i)).take 32)
    let d := acc.2
    let p := x.pos + i
    let (r, d) := match x.target with
      | 0 =>
        let t := descAt d (1 + z) x.table
        dmaEntry d (if t.repl then 0 else 1 + z) x.table (if x.region then 1 - t.bank else t.bank) t z ch x.op b p
      | 1 =>
        let t := descAt d 0 (32 + x.table)
        dmaEntry d 0 (32 + x.table) 0 t z ch x.op b p
      | 2 => dmaPair d z x.op b p
      | _ => dmaMeter d z x.op b p
    (acc.1 ++ [r], d)) ([], d)

/-- Instructions of an image bank, from the first core in service. -/
def imageRead (d : Dev) (z bank i n : Nat) : List W32 × Bool × Dev :=
  let k := (serviceCores d z).headD 0
  (List.range n).foldl (fun (acc : List W32 × Bool × Dev) j =>
    let (v, bad, d) := sramRead acc.2.2 (1 + z) (imageArr (32 * z + k) bank) (4 * (i + j)) 4
    (acc.1 ++ [if bad then 0xFFFFFFFF else BitVec.ofNat 32 v], acc.2.1 || bad, d)) ([], false, d)

/-- A read of global memory by a channel: its bytes, with those of uncorrectable bursts and words as 0xFF, and whether any was. -/
def memBytes (m : Memory) (d : Dev) (req a n : Nat) : List Byte × Bool × Dev :=
  if isHbm d a then
    let (bad, d) := hbmReadAll d 4 req a n
    ((List.range n).map (fun i => if hbmPoisoned d (a + i) 1 then 0xFF else m.read (a + i)), bad, d)
  else
    (List.range (n / 8)).foldl (fun (acc : List Byte × Bool × Dev) i =>
      let (bad, d) := hubSramRead acc.2.2 (a + 8 * i) 8
      (acc.1 ++ (if bad then List.replicate 8 0xFF else m.readN (a + 8 * i) 8), acc.2.1 || bad, d)) ([], false, d)

/-- The work of a good descriptor: memory, devices, completion status, failed records. -/
def dmaWork (m : Memory) (d : Dev) (h ch : Nat) (x : DmaDesc) (data : List W32) : Memory × Dev × Nat × Nat :=
  match x.target with
  | 4 =>
    if x.op == 2 then
      if imageBusy d x.zone x.table then (m, d, 11, 0)
      else (m, imageWrite d x.zone x.table x.pos (((data.take x.count)).map (·.toNat)), 0, 0)
    else
      let (l, bad, d) := imageRead d x.zone x.table x.pos x.count
      (m, emit d (.hostWrite h x.host l), if bad then 9 else 0, 0)
  | 5 =>
    let n := 64 * x.count
    let req := 912 + 48 * h + ch
    if x.op == 2 then
      let (m, d) := memStoreAll m d 4 req x.gaddr ((wordsBytes data).take n)
      (m, d, 0, 0)
    else
      let (l, bad, d) := memBytes m d req x.gaddr n
      (m, emit d (.hostBytes h x.host l), if bad then 9 else 0, 0)
  | _ =>
    let (l, d) := dmaRecords d x (8 * h + ch) data
    let d := emit d (.hostBytes h x.host (l.flatMap (·.out)))
    let bad := (l.filter (fun r => r.status != 0)).length
    (m, d, if bad != 0 then 8 else if l.any (·.poisoned) then 9 else 0, bad)

/-- Channel `ch` of host `h` performs its next descriptor, whose operation is `op`. -/
def dmaRun (m : Memory) (d : Dev) (h ch op : Nat) (q : DmaReq) : Memory × Dev :=
  let bad := badDesc d q.desc
  let x := dmaDesc q.desc
  if !ringTakes d h 2 ch || (!q.readErr && !(x.op == op || (bad && 9 ≤ x.op))) then (m, d)
  else
    let (idx, d) := takeDesc d h 2 ch
    let d := bump d (Rg.TDMA_DESC h) 1
    let (pg, z) := dmaPage d x
    if q.readErr then (m, complete4 d h 2 ch idx 5 0)
    else if bad then (m, complete4 d h 2 ch idx 1 0)
    else if (match z with | some z => isolated d z | none => false) then (m, complete4 d h 2 ch idx 6 0)
    else if (match pg with | some pg => !(page d pg).ready | none => false) then (m, complete4 d h 2 ch idx 10 0)
    else
      let (m, d, st, n) := dmaWork m d h ch x q.data
      (m, complete4 d h 2 ch idx st n)

def execDmaRead (h : Host2) (ch : Fin 8) (q : DmaReq) (s : State) : Host.Outcome State Fault Refusal :=
  s.onMemF (fun m d => dmaRun m d h ch 0 q)
def execDmaReadLock (h : Host2) (ch : Fin 8) (q : DmaReq) (s : State) : Host.Outcome State Fault Refusal :=
  s.onMemF (fun m d => dmaRun m d h ch 1 q)
def execDmaWrite (h : Host2) (ch : Fin 8) (q : DmaReq) (s : State) : Host.Outcome State Fault Refusal :=
  s.onMemF (fun m d => dmaRun m d h ch 2 q)
def execDmaWriteUnlock (h : Host2) (ch : Fin 8) (q : DmaReq) (s : State) : Host.Outcome State Fault Refusal :=
  s.onMemF (fun m d => dmaRun m d h ch 3 q)
def execDmaUnlock (h : Host2) (ch : Fin 8) (q : DmaReq) (s : State) : Host.Outcome State Fault Refusal :=
  s.onMemF (fun m d => dmaRun m d h ch 4 q)
def execDmaInsert (h : Host2) (ch : Fin 8) (q : DmaReq) (s : State) : Host.Outcome State Fault Refusal :=
  s.onMemF (fun m d => dmaRun m d h ch 5 q)
def execDmaDelete (h : Host2) (ch : Fin 8) (q : DmaReq) (s : State) : Host.Outcome State Fault Refusal :=
  s.onMemF (fun m d => dmaRun m d h ch 6 q)
def execDmaSearch (h : Host2) (ch : Fin 8) (q : DmaReq) (s : State) : Host.Outcome State Fault Refusal :=
  s.onMemF (fun m d => dmaRun m d h ch 7 q)
def execDmaReadClear (h : Host2) (ch : Fin 8) (q : DmaReq) (s : State) : Host.Outcome State Fault Refusal :=
  s.onMemF (fun m d => dmaRun m d h ch 8 q)

end Sys2Proof.Machine
end

