-- ==== Sys2Proof/Machine/EgrOps.lean ====
section
/-!
DEFINITION. Carafe's groups and copies (R305, R306), credits and staging (R303), the port's choice (R307), shapers (R308) and the ECN
judgement (R309).
-/

namespace Sys2Proof.Machine
open Sys2Proof

/-! ## Carafe (R305, R306, R323) -/

def carPage : Nat := Rg.pageOf (Rg.baseCAR)
/-- Entry of group `g`: BASE, COUNT, VALID, HOLD. -/
def groupOf (d : Dev) (g : Nat) : Nat × Nat × Bool × Nat :=
  let v := (tget zero64 d.egr.groups g).toNat
  (v % 2 ^ 20, v / 2 ^ 20 % 512, v.testBit 29, v / 2 ^ 32 % 256)
/-- The valid members of a group. -/
def membersOf (d : Dev) (base count : Nat) : List Nat :=
  ((List.range count).map (fun i => (tget zero32 d.egr.members (base + i)).toNat)).filter (fun w => w.testBit 31)

/-- A copy that is not made gives its reference up at once. -/
def partialDrop (d : Dev) (h : W32) (p : Nat) : Dev :=
  decRef (raise (bump (bump d (Rg.MC_PARTIAL p) 1) Rg.MC_PARTIAL_ALL 1) carPage 2) h

/-- One copy for member word `w`. -/
def makeCopy (d : Dev) (z hold len : Nat) (r : CarReq) (w : Nat) : Dev :=
  let p := w % 256
  let c := if w.testBit 11 then w / 2 ^ 8 % 8 else r.cls
  let d := bump d Rg.CAR_COPIES 1
  match isoCopy d z (portZone p) with
  | some i => decRef (isoDrop d i) r.handle
  | none =>
    if !portUsable d p || quadHeld d (p / 4) || (shedSet d z (poolShed d z)).contains c then partialDrop d r.handle p
    else if hold * 16000 * 2 ^ 32 < pauseEnd d p c - tbIn d (portZone p) then partialDrop d r.handle p
    else
      enqueue d z (8 * p + c)
        { handle := r.handle, len := if r.trunc == 0 then len else min r.trunc len, edit := w / 2 ^ 12 % 65536, dom := r.dom, seq := r.seq,
          port := p, cls := c, ecn := r.ecn, ts2 := r.ts2, ctrl := r.ctrl, lossless := r.lossless, copy := true, inj := r.inj }

/-- Give up `n` references. -/
def dropRefs (d : Dev) (h : W32) : Nat → Dev
  | 0 => d
  | n + 1 => dropRefs (decRef d h) h n

/-- The references of a request become those of `n` copies (R277); none: refused. -/
def adjustRefs (d : Dev) (r : CarReq) (n : Nat) : Option Dev :=
  if r.refs < n then addRefs d r.handle (n - r.refs) 5 0 else some (dropRefs d r.handle (r.refs - n))

/-- Carafe expands a request. -/
def expand (d : Dev) (z : Nat) (r : CarReq) : Dev :=
  let (base, count, valid, hold) := groupOf d r.group
  let ms := if valid then membersOf d base count else []
  let len := frameLen d r.handle
  let d :=
    if !valid then dropRefs (raise (bump d Rg.MC_BAD_GROUP 1) carPage 0) r.handle r.refs
    else match adjustRefs d r ms.length with
      | none => dropRefs (bump d Rg.REFCNT_REFUSED ms.length) r.handle r.refs
      | some d => ms.foldl (fun d w => makeCopy d z hold len r w) (bump d Rg.CAR_EXPANSIONS 1)
  if r.waits then modDom d r.dom (fun x => { x with mcWait := false }) else d

/-! ## Credits (R303) -/

/-- CREDITS of a port: automatic is 8 for each lane. -/
def creditLimit (d : Dev) (p : Nat) : Nat :=
  let c := rf d (Rg.TM_PORT_ETS (portZone p) (p % 64)) Fl.TM_PORT_ETS_CREDITS
  if c == 0 then 8 * (portLanes d p).length else c
/-- Credits that staged frames fill. -/
def stagedCredits (d : Dev) (p c : Nat) : Nat :=
  ((staging d p c).frames.map (fun f => cdiv f.1.len 1024)).foldl (· + ·) 0
/-- Bytes of staging that the credits granted to a VOQ stand for: its staged frames and its balance, which a frame longer than the balance has
made negative (DEDUCED, log 260). -/
def grantedBytes (d : Dev) (z p c : Nat) : Nat :=
  (((((staging d p c).frames.filter (fun f => f.2.1 == z)).map (fun f => f.1.len)).foldl (· + ·) 0 : Nat) + (voq d z (8 * p + c)).balance).toNat
/-- Staged and granted bytes of a port. -/
def portBytes (d : Dev) (p : Nat) : Nat :=
  (List.range 8).foldl (fun n c => (List.range 4).foldl (fun n z => n + grantedBytes d z p c) n) 0
/-- Staged and granted credits of a port. -/
def portCredits (d : Dev) (p : Nat) : Nat := cdiv (portBytes d p) 1024
/-- No credit is left in the zone's staging buffer: of its 1,024 each withdrawn row takes one, whose 1 KiB is a credit's (R303, R387). -/
def poolSpent (d : Dev) (z : Nat) : Bool :=
  let gone := goneOf d (1 + z) (14 * 2048)
  gone != 0 && 1024 - gone ≤ ((List.range 64).map (fun p => portCredits d (64 * z + p))).foldl (· + ·) 0
/-- Bytes of the frames of a VOQ, spilled ones included. -/
def voqBytes (q : Voq) : Nat := ((q.q ++ chainDescs q.chain).map (·.len)).foldl (· + ·) 0
/-- The VOQ asks for a credit: it has frames, and they exceed its balance and what it has asked for. -/
def wantsCredit (q : Voq) : Bool := decide (0 < voqBytes q) && decide (q.balance + 1024 * q.asked < voqBytes q)
/-- B of R309: credits asked for and not granted, and credits staged. -/
def backlog (d : Dev) (p c : Nat) : Nat :=
  (List.range 4).foldl (fun n z => n + (voq d z (8 * p + c)).asked) (stagedCredits d p c)

/-! ## The port's choice (R307) -/

/-- RATE and BURST registers of the shaper of class `c` of port `p`. -/
def cshRate (p c : Nat) : Nat :=
  let z := portZone p
  let i := 8 * (p % 32) + c
  if p % 64 < 32 then Rg.TM_CSH_RATE_A z i else Rg.TM_CSH_RATE_B z i
def cshBurst (p c : Nat) : Nat := cshRate p c + 4
/-- Bucket `i` of a port: its classes 0 to 7, and 8 the port's. -/
def bucket (d : Dev) (p i : Nat) : Int := (tmPort d p).buckets.getD i 0
def etsReg (p : Nat) : Nat := Rg.TM_PORT_ETS (portZone p) (p % 64)
/-- The shaper lets the class send. -/
def shaperOpen (d : Dev) (p c : Nat) : Bool :=
  !(rf d (etsReg p) Fl.TM_PORT_ETS_CLASS_SHAPE_EN).testBit c || (rf d (cshRate p c) Fl.TM_CSH_RATE_A_RATE != 0 && decide (0 < bucket d p c))
/-- The port's shaper lets it send. -/
def portShaperOpen (d : Dev) (p : Nat) : Bool :=
  !rb d (etsReg p) Fl.TM_PORT_ETS_PORT_SHAPE_EN ||
    (rf d (Rg.TM_PSH_RATE (portZone p) (p % 64)) Fl.TM_PSH_RATE_RATE != 0 && decide (0 < bucket d p 8))
def classReady (d : Dev) (p c : Nat) : Bool := !(staging d p c).frames.isEmpty && !paused d p c && shaperOpen d p c
/-- ETS weight of a class. -/
def etsWeight (d : Dev) (p c : Nat) : Nat :=
  let z := portZone p
  if c < 4 then rf d (Rg.TM_PORT_W0 z (p % 64)) (Fl.TM_PORT_W0_W c) else rf d (Rg.TM_PORT_W1 z (p % 64)) (Fl.TM_PORT_W1_W (c - 4))
/-- wire(f) of the head of a class. -/
def headWire (d : Dev) (p c : Nat) : Nat := match (staging d p c).frames with | f :: _ => f.1.len + 20 | [] => 0
/-- The first class of `e` from `c` on, cyclically. -/
def fromClass (e : List Nat) (c : Nat) : Option Nat := ((List.range 8).map (fun i => (c + i) % 8)).find? (fun k => e.contains k)

/-- Deficit round robin over `e`: the class served, with the deficits and the pointer left. Where every class of `e` has
weight 0 no deficit grows, and each counts as weight 1 (log 40). -/
def drr (d : Dev) (p : Nat) (e : List Nat) (flat : Bool) : Nat → List Nat → Nat → Option (Nat × List Nat × Nat)
  | 0, _, _ => none
  | f + 1, ds, ptr =>
    match fromClass e ptr with
    | none => none
    | some c =>
      let have_ := ds.getD c 0
      if headWire d p c ≤ have_ then some (c, ds.set c (have_ - headWire d p c), c)
      else drr d p e flat f (ds.set c (have_ + 128 * (if flat then 1 else etsWeight d p c))) (c + 1)

/-- The class whose head the port sends next. -/
def chooseClass (d : Dev) (p : Nat) : Option (Nat × List Nat × Nat) :=
  let t := tmPort d p
  if !portShaperOpen d p then none
  else
    let strict := rf d (etsReg p) Fl.TM_PORT_ETS_STRICT
    let el := (List.range 8).filter (classReady d p)
    match (el.filter (fun c => strict.testBit c)).getLast? with
    | some c => some (c, t.deficit, t.pointer)
    | none =>
      let e := el.filter (fun c => !strict.testBit c && 0 < etsWeight d p c)
      if e.isEmpty then drr d p (el.filter (fun c => !strict.testBit c)) true 1024 t.deficit t.pointer
      else drr d p e false 1024 t.deficit t.pointer

/-- R309: a selected ECN-capable frame of the class is judged by its backlog. -/
def judgeEcn (d : Dev) (p c : Nat) (ecn : Bool) : Bool × Dev :=
  let z := portZone p
  if !ecn || !(rf d (Rg.TM_CTRL z) Fl.TM_CTRL_ECN_EN).testBit c then (false, d)
  else
    let b := backlog d p c
    let mn := rf d (Rg.TM_ECN_TH z c) Fl.TM_ECN_TH_MIN
    let mx := rf d (Rg.TM_ECN_TH z c) Fl.TM_ECN_TH_MAX
    if mx ≤ b then (true, d)
    else if mn ≤ b then
      (decide ((freeVal d).toNat % (256 * (mx - mn)) < rf d (Rg.TM_ECN_P z c) Fl.TM_ECN_P_PMAX * (b - mn)), useFree d)
    else (false, d)

/-! ## Shapers (R308) -/

/-- A charge in bytes to the class and the port. -/
def chargeShapers (d : Dev) (p c n : Nat) : Dev :=
  modTm d p (fun t => { t with buckets := lmod (lmod t.buckets c (· - 1000 * (n : Int))) 8 (· - 1000 * (n : Int)) })
/-- `n` intervals of 256 ns fill the buckets of a port. -/
def fillShapers (d : Dev) (p n : Nat) : Dev :=
  let z := portZone p
  let up (x : Int) (rate burst : Nat) : Int := min (1000 * (burst : Int)) (x + 32 * rate * n)
  modTm d p (fun t => { t with buckets := t.buckets.zipIdx.map (fun e =>
    if e.2 == 8 then up e.1 (rf d (Rg.TM_PSH_RATE z (p % 64)) Fl.TM_PSH_RATE_RATE) (rf d (Rg.TM_PSH_BURST z (p % 64)) Fl.TM_PSH_BURST_BURST)
    else up e.1 (rf d (cshRate p e.2) Fl.TM_CSH_RATE_A_RATE) (rf d (cshBurst p e.2) Fl.TM_CSH_BURST_A_BURST)) })

/-! ## Edit sets (R317, R325) -/

/-- The set in effect. -/
def editSet (d : Dev) (z : Nat) : Nat := rf d (Rg.EDT_SET z) Fl.EDT_SET_SET
/-- OLD_BUSY: an edit begun on the other set has not left. -/
def editOldBusy (d : Dev) (z : Nat) : Bool :=
  d.egr.ports.any (fun e => portZone e.1 == z && (e.2.edits ++ e.2.mac).any (fun x => x.set != editSet d z))
/-- OLD_FREE rises when OLD_BUSY falls. -/
def watchEdit (d : Dev) (z : Nat) : Dev :=
  let b := editOldBusy d z
  let was := tget (fun _ => false) d.egr.oldBusy (4 + z)
  let d := { d with egr := { d.egr with oldBusy := tset (fun _ => false) d.egr.oldBusy (4 + z) b } }
  if was && !b then raise d (Rg.pageOf (Rg.baseEDT z)) 0 else d

/-- Word `w` of set `s` of a zone; a hole reads 0. -/
def editWord (d : Dev) (z s w : Nat) : W32 := if w < 294912 then tget zero32 d.egr.editMem ((2 * z + s) * 294912 + w) else 0
/-- A write of edit memory or of Carafe (R480). -/
def cfgTouched (d : Dev) : Dev := { d with caddy := { d.caddy with cfgDirty := true, cfgAt := nowNs d } }
def setEditWord (d : Dev) (z s w : Nat) (v : W32) : Dev :=
  if w < 294912 then { d with egr := { d.egr with editMem := tset zero32 d.egr.editMem ((2 * z + s) * 294912 + w) v } } else d

end Sys2Proof.Machine
end

