-- ==== Sys2Proof/Machine/EditOps.lean ====
section
/-!
DEFINITION. The edit engine on one frame: anchors (R311), the list and its operations (R312, R313), the ECN mark (R315), the
transparent clock (R316), padding and the FCS (R314).
-/

namespace Sys2Proof.Machine
open Sys2Proof

/-! ## Anchors (R311) -/

/-- Leading tags from byte `p`, at most `n`. -/
def tagsFrom (b : List Byte) (p : Nat) : Nat → Nat
  | 0 => 0
  | n + 1 => if p + 2 ≤ b.length && (beAt b p 2 == 0x8100 || beAt b p 2 == 0x88A8) then 1 + tagsFrom b (p + 4) n else 0
/-- Position after the bottom label from byte `p`, at most `n` labels. -/
def afterLabels (b : List Byte) (p : Nat) : Nat → Option Nat
  | 0 => none
  | n + 1 =>
    if b.length < p + 4 then none
    else if byteAt b (p + 2) % 2 == 1 then some (p + 4) else afterLabels b (p + 4) n
/-- L2 of a frame. -/
def anchorL2 (b : List Byte) : Nat := 12 + 4 * tagsFrom b 12 4
/-- L3 of a frame, when an IPv4 or IPv6 header begins within its first 256 bytes. -/
def anchorL3 (b : List Byte) : Option Nat :=
  let p := anchorL2 b
  let ty := if p + 2 ≤ b.length then beAt b p 2 else 0
  let l3 := if ty == 0x0800 || ty == 0x86DD then some (p + 2)
    else if ty == 0x8847 || ty == 0x8848 then
      (match afterLabels b (p + 2) 8 with
       | some q => if q < b.length && (byteAt b q / 16 == 4 || byteAt b q / 16 == 6) then some q else none
       | none => none)
    else none
  match l3 with
  | some q => if q < 256 then some q else none
  | none => none

/-! ## Operations (R312, R313) -/

/-- A frame under edit, without its FCS: its bytes, anchors, bytes inserted; corrections made and not made. -/
structure EdSt where
  b : List Byte
  l2 : Option Nat
  l3 : Option Nat
  ins : Nat := 0
  tc : Nat := 0
  noTs : Nat := 0
  deriving DecidableEq, Repr

/-- LEN and AUX ranges of an operation; none for another OPC. -/
def opRange (opc : Nat) : Option (Nat × Nat × Nat × Nat) :=
  match opc with
  | 0 => some (0, 0, 0, 0)
  | 1 | 2 => some (1, 4, 0, 0)
  | 3 | 4 => some (1, 128, 0, 0)
  | 5 => some (2, 2, 0, 255)
  | 6 | 7 => some (0, 0, 0, 0)
  | 8 => some (0, 0, 0, 1)
  | 9 => some (0, 0, 0, 0)
  | _ => none

/-- Anchor moved by an INSERT of `n` bytes at `pos`. -/
def afterInsert (pos n : Nat) (x : Option Nat) : Option Nat := x.map (fun a => if pos ≤ a then a + n else a)
/-- Anchor after a DELETE of `n` bytes at `pos`. -/
def afterDelete (pos n : Nat) (x : Option Nat) : Option Nat :=
  match x with
  | some a => if pos + n ≤ a then some (a - n) else if pos ≤ a then none else some a
  | none => none

/-- Incremental update of a ones-complement checksum for words changed from `old` to `new` (R315, R316). -/
def csumUpdate (c : Nat) (old new : List Byte) : Nat :=
  let inv := (bytes16 old).map (fun w => 65535 - w)
  65535 - fold16 8 ((65535 - c) + (inv ++ bytes16 new).foldl (· + ·) 0)
where
  /-- Big-endian 16-bit words of a list of bytes. -/
  bytes16 : List Byte → List Nat
  | a :: b :: r => (a.toNat * 256 + b.toNat) :: bytes16 r
  | [a] => [a.toNat * 256]
  | [] => []

/-- The transmit stamp of a frame that passes at time `t` (2^-32 ns), at the connector, with 16 fractional bits (R79). -/
def txStamp (d : Dev) (p t : Nat) : W64 := BitVec.ofNat 64 (t / 2 ^ 16) + (rd d (Rg.QUAD_TS_TX (p / 4))).signExtend 64

/-- PTP_TC at `pos`: the residence time is added to correctionField. -/
def ptpCorrect (x : EdSt) (pos aux : Nat) (tx rx : W64) : EdSt :=
  if rx == 0 then { x with noTs := x.noTs + 1 }
  else
    let old := (x.b.drop (pos + 8)).take 8
    let new := beBytes 8 (BitVec.ofNat 64 (beAt x.b (pos + 8) 8) + (tx - rx)).toNat
    let b := patch x.b (pos + 8) new
    let c := beAt x.b (pos - 2) 2
    let b := if aux == 1 && c != 0 then
        let n := csumUpdate c old new
        patch b (pos - 2) (beBytes 2 (if n == 0 then 65535 else n))
      else b
    { x with b := b, tc := x.tc + 1 }

/-- One operation other than END at its position; none: the frame is bad, since position + LEN goes beyond byte 255 or its end. Bytes beyond
its end, which an operation of LEN 0 can reach, read 0 and are not written (DESIGN CHOICE, log 261). -/
def editOp (x : EdSt) (opc pos len aux val : Nat) (template : List Byte) (tx rx : W64) : Option EdSt :=
  let n := x.b.length
  let e := pos + len
  if 256 < e || n < e || (opc == 8 && aux == 1 && pos < 2) then none
  else match opc with
    | 1 => some { x with b := patch x.b pos (beBytes len (val % 256 ^ len)) }
    | 2 => some { x with b := patch x.b pos (beBytes len ((beAt x.b pos len + val) % 256 ^ len)) }
    | 3 => if 256 < x.ins + len then none
      else some { x with b := x.b.take pos ++ template.take len ++ x.b.drop pos, ins := x.ins + len,
                         l2 := afterInsert pos len x.l2, l3 := afterInsert pos len x.l3 }
    | 4 => some { x with b := x.b.take pos ++ x.b.drop (pos + len), l2 := afterDelete pos len x.l2, l3 := afterDelete pos len x.l3 }
    | 5 => some { x with b := patch x.b pos (beBytes 2 (wrapInt 16 ((n : Int) - ((pos : Int) - sint 8 aux) + sint 16 val))) }
    | 6 =>
      let h := patch ((x.b.drop pos).take (4 * (byteAt x.b pos % 16))) 10 [0, 0]
      some { x with b := patch x.b (pos + 10) (beBytes 2 (65535 - ones16 0 h)) }
    | 7 => some { x with b := patch x.b pos [0, 0] }
    | 8 => some (ptpCorrect x pos aux tx rx)
    | _ => some { x with l3 := some pos }

/-- Template `t` of a set. -/
def templateOf (d : Dev) (z s t : Nat) : List Byte :=
  (List.range 32).flatMap (fun j => beBytes 4 (editWord d z s (262144 + 32 * t + j)).toNat)

/-- The list `e` of a set from operation `8 - f` on. -/
def runList (d : Dev) (z s e : Nat) (tx rx : W64) : Nat → EdSt → Option EdSt
  | 0, x => some x
  | f + 1, x =>
    let k := 7 - f
    let w := (editWord d z s (16 * e + 2 * k)).toNat
    let val := (editWord d z s (16 * e + 2 * k + 1)).toNat
    let opc := w / 2 ^ 26
    let len := w / 2 ^ 8 % 256
    let aux := w % 256
    match opRange opc with
    | none => none
    | some (l0, l1, a0, a1) =>
      if len < l0 || l1 < len || aux < a0 || a1 < aux then none
      else if opc == 0 then some x
      else
        let anchor := match w / 2 ^ 24 % 4 with
          | 0 => some 0
          | 1 => x.l2
          | 2 => x.l3
          | _ => none
        match anchor with
        | none => none
        | some a =>
          match editOp x opc (a + w / 2 ^ 16 % 256) len aux val (templateOf d z s val) tx rx with
          | some x => runList d z s e tx rx f x
          | none => none

/-- Words of the edit memory that list `e` of a set lies in, with those of the templates that it inserts (R325, R539). -/
def listWords (d : Dev) (z s e : Nat) : List Nat :=
  (List.range 8).flatMap (fun k =>
    let w := (editWord d z s (16 * e + 2 * k)).toNat
    let t := (editWord d z s (16 * e + 2 * k + 1)).toNat
    (8 * e + k) :: (if w / 2 ^ 26 == 3 && t < 1024 then (List.range (cdiv (w / 2 ^ 8 % 256) 8)).map (131072 + 16 * t + ·) else []))
/-- Checked reads of them; what a word beyond the code holds goes on as it is stored (R373; DESIGN CHOICE, log 253). -/
def readEdit (d : Dev) (z s e : Nat) : Dev :=
  if e < 16384 then (listWords d z s e).foldl (fun d w => (readWord d (1 + z) (13 * 2048 + s) w).2.2) d else d

/-! ## The ECN mark (R315) -/

/-- The frame with CE in the header at L3 where its ECN field holds ECT; none when it stays as it is. -/
def markCe (x : EdSt) : Option (List Byte) :=
  match x.l3 with
  | none => none
  | some p =>
    if byteAt x.b p / 16 == 4 && p + 12 ≤ x.b.length then
      let e := byteAt x.b (p + 1) % 4
      if e == 1 || e == 2 then
        let old := (x.b.drop p).take 2
        let new := beBytes 2 (beAt x.b p 2 + (3 - e))
        some (patch (patch x.b p new) (p + 10) (beBytes 2 (csumUpdate (beAt x.b (p + 10) 2) old new)))
      else none
    else if byteAt x.b p / 16 == 6 && p + 2 ≤ x.b.length then
      let e := byteAt x.b (p + 1) / 16 % 4
      if e == 1 || e == 2 then some (patch x.b p (beBytes 2 (beAt x.b p 2 + (3 - e) * 16))) else none
    else none

/-! ## The whole edit (R310, R314) -/

/-- The edit of a frame for port `p` ends: the frame as sent, or none when it is dropped. A one-step correction of a frame with a receive
stamp is made at a quad with TS_EN = 0 too, with the stamp that would be taken (DESIGN CHOICE, log 231). -/
def finishEdit (d : Dev) (p : Nat) (e : Edit) : Option (List Byte) × Dev :=
  let z := portZone p
  let b := e.bytes.take (e.bytes.length - 4)
  let x : EdSt := { b := b, l2 := some (anchorL2 b), l3 := anchorL3 b }
  let tx := txStamp d p e.start + (Config.txDelay p).setWidth 64
  match (if e.desc.edit < 16384 then runList d z e.set e.desc.edit tx e.tstamp 8 x else none) with
  | none => (none, raise (bump d (Rg.EDT_BAD_EDIT z) 1) (Rg.pageOf (Rg.baseEDT z)) 1)
  | some x =>
    let d := bump (bump d (Rg.EDT_PTP_TC z) x.tc) (Rg.EDT_PTP_NO_TS z) x.noTs
    let (b, d) := match (if e.mark then markCe x else none) with
      | some b => (b, bump (bump d (Rg.EDT_CE_MARKED z) 1) (Rg.ECN_MARK_PORT z (p % 64)) 1)
      | none => (x.b, d)
    let (b, d) := if b.length < 60 then (b ++ List.replicate (60 - b.length) 0, bump d (Rg.EDT_RUNT_PAD z) 1) else (b, d)
    if rf d (Rg.QUAD_MAX_FRAME (p / 4)) Fl.QUAD_MAX_FRAME_MAX_FRAME < b.length + 4 then
      (none, raise (bump d (Rg.EDT_OVERSIZE z) 1) (Rg.pageOf (Rg.baseEDT z)) 2)
    else (some (b ++ fcs b), d)

end Sys2Proof.Machine
end

