-- ==== Sys2Proof/Machine/Egress.lean ====
section
/-!
DEFINITION. The commands of the reorder stage, Carafe, the VOQs, the port schedulers, the edit engines and their windows
(R296 to R325).
-/

namespace Sys2Proof.Machine
open Sys2Proof

/-! ## Reorder stage (R298) -/

/-- REORDER_RELEASE: one FC cycle, at most 32 releases over the zone's domains in rotation. -/
def execReorderRelease (z : Zone) (s : State) : Host.Outcome State Fault Refusal :=
  s.onDevF (fun d =>
    let last := tget (fun _ => 511) d.egr.turn z
    let (d, _, last) := (waitingDoms d z last).foldl (fun (d, b, last) n =>
      if b == 0 then (d, b, last)
      else
        let (d, b') := drainDom z n 64 d b
        (d, b', if b' < b then n % 512 else last)) (d, 32, last)
    { d with egr := { d.egr with turn := tset (fun _ => 511) d.egr.turn z last } })

/-- GAP: the earliest entry of the domain has waited for the hold limit and the next number is not there. -/
def execGap (z : Zone) (n : Fin 512) (s : State) : Host.Outcome State Fault Refusal :=
  s.onDevF (fun d =>
    let k := 512 * z.val + n.val
    if (dom d k).mcWait || nextWaits d z k then d
    else match overdue d z k with
      | some o => takeGap d z o
      | none => d)

/-! ## Carafe (R305, R306) -/

/-- EXPANSION: the oldest MC verdict or inject of the zone. -/
def execExpansion (z : Zone) (s : State) : Host.Outcome State Fault Refusal :=
  s.onDevF (fun d =>
    match (carQ d z).findIdx? (fun r => !r.mirror) with
    | none => d
    | some i => match (carQ d z)[i]? with
      | some r => expand (setCarQ d z ((carQ d z).eraseIdx i)) z r
      | none => d)

/-- MIRROR_EXPANSION: the oldest MIRROR verdict of the zone, else its oldest MIRR request. -/
def execMirrorExpansion (z : Zone) (s : State) : Host.Outcome State Fault Refusal :=
  s.onDevF (fun d =>
    match (carQ d z).findIdx? (fun r => r.mirror) with
    | some i => (match (carQ d z)[i]? with
      | some r => expand (setCarQ d z ((carQ d z).eraseIdx i)) z r
      | none => d)
    | none => match mirrQ d z with
      | r :: l => expand (setMirrQ d z l) z r
      | [] => d)

/-- The group window as an entry. -/
def groupWindow (d : Dev) : Nat := (rd d Rg.CAR_GROUP_LO).toNat % 2 ^ 30 + rf d Rg.CAR_GROUP_HI Fl.CAR_GROUP_HI_HOLD * 2 ^ 32

/-- GWRITE: a group whose members reach beyond the last word is refused. -/
def gwrite (d : Dev) (m : Master) : Dev :=
  if 1048576 < rf d Rg.CAR_GROUP_LO Fl.CAR_GROUP_LO_BASE + rf d Rg.CAR_GROUP_LO Fl.CAR_GROUP_LO_COUNT then rsvd d Rg.CAR_CMD m
  else cfgTouched { d with egr := { d.egr with
    groups := tset zero64 d.egr.groups (rf d Rg.CAR_GROUP_SEL Fl.CAR_GROUP_SEL_GROUP) (BitVec.ofNat 64 (groupWindow d)) } }
def gread (d : Dev) : Dev :=
  let v := (tget zero64 d.egr.groups (rf d Rg.CAR_GROUP_SEL Fl.CAR_GROUP_SEL_GROUP)).toNat
  wr (wr d Rg.CAR_GROUP_LO (BitVec.ofNat 32 v)) Rg.CAR_GROUP_HI (BitVec.ofNat 32 (v / 2 ^ 32))
def mwrite (d : Dev) : Dev :=
  cfgTouched { d with egr := { d.egr with
    members := tset zero32 d.egr.members (rf d Rg.CAR_MEMBER_SEL Fl.CAR_MEMBER_SEL_INDEX) (rd d Rg.CAR_MEMBER) } }
def mread (d : Dev) : Dev := wr d Rg.CAR_MEMBER (tget zero32 d.egr.members (rf d Rg.CAR_MEMBER_SEL Fl.CAR_MEMBER_SEL_INDEX))

def execGwrite (m : Master) (s : State) : Host.Outcome State Fault Refusal :=
  s.onDev (fun d => guardWrite d Rg.CAR_CMD m (fun d => gwrite d m))
def execGread (m : Master) (s : State) : Host.Outcome State Fault Refusal :=
  s.onDev (fun d => guardWrite d Rg.CAR_CMD m gread)
def execMwrite (m : Master) (s : State) : Host.Outcome State Fault Refusal :=
  s.onDev (fun d => guardWrite d Rg.CAR_CMD m mwrite)
def execMread (m : Master) (s : State) : Host.Outcome State Fault Refusal :=
  s.onDev (fun d => guardWrite d Rg.CAR_CMD m mread)

/-! ## Credits and staging (R303, R304) -/

/-- CREDIT_REQUEST: one credit; a request that would cross an isolated link is not made. -/
def execCreditRequest (z : Zone) (v : Fin 2048) (s : State) : Host.Outcome State Fault Refusal :=
  s.onDev (fun d =>
    if wantsCredit (voq d z v) && (isoBetween d z (portZone (v.val / 8))).isNone then modVoq d z v (fun q => { q with asked := q.asked + 1 })
    else d)

/-- The zone whose request is granted next: in rotation after the one granted last. -/
def nextAsker (d : Dev) (p c : Nat) : Option Nat :=
  ((List.range 4).map (fun i => ((staging d p c).last + 1 + i) % 4)).find? (fun z =>
    0 < (voq d z (8 * p + c)).asked && (isoBetween d z (portZone p)).isNone)

/-- CREDIT_GRANT: not to a paused class or a held quad, nor beyond the port's limit. -/
def execCreditGrant (p : Port) (c : Class) (s : State) : Host.Outcome State Fault Refusal :=
  s.onDev (fun d =>
    if paused d p c || quadHeld d (p.val / 4) || creditLimit d p ≤ portCredits d p || poolSpent d (portZone p) then d
    else match nextAsker d p c with
      | some z =>
        let d := modVoq d z (8 * p.val + c.val) (fun q => { q with asked := q.asked - 1, balance := q.balance + 1024 })
        modStaging d p c (fun x => { x with last := z })
      | none => d)

/-- VOQ_SEND: the head frame leaves its cells for the staging of its port, over the die links where it crosses them (R17, R21);
nothing crosses the link of an isolated zone (R22). -/
def execVoqSend (z : Zone) (v : Fin 2048) (s : State) : Host.Outcome State Fault Refusal :=
  s.onDevF (fun d =>
    let q := voq d z v
    match q.q with
    | [] => d
    | x :: r =>
      let p := v.val / 8
      if q.balance ≤ 0 || (crosses z p x && (isolated d z || isolated d (portZone p))) then d
      else
        let d := if crosses z p x then sendAcross d z p x else d
        let bytes := (frameOf d x.handle).take x.len
        let stamp := match bufOf d x.handle with | some b => b.tstamp | none => 0
        let d := readFrame d x.handle x.len
        let d := modVoq d z v (fun q => { q with q := r, balance := q.balance - (x.len : Int) })
        let d := dropDesc d v x
        if portUp d p then modStaging d p (v.val % 8) (fun y => { y with frames := y.frames ++ [(x, z.val, bytes, stamp)] })
        else raise (bump d (Rg.TM_FLUSHED (portZone p) (p % 64)) 1) (Rg.pageOf (Rg.baseTM (portZone p)) + 5) 0)

/-! ## Ports and edits (R307 to R317) -/

/-- PORT_SELECT: the port takes its next frame and its edit begins; a held or blocked port takes none. -/
def execPortSelect (p : Port) (s : State) : Host.Outcome State Fault Refusal :=
  s.onDev (fun d =>
    if !portBegins d p || !portUp d p || quadHeld d (p.val / 4) || (port d p).blocked then d
    else match chooseClass d p with
      | none => d
      | some (c, ds, ptr) =>
        match (staging d p c).frames with
        | [] => d
        | (x, z, bytes, stamp) :: r =>
          let (mark, d) := judgeEcn d p c x.ecn
          let d := modStaging d p c (fun y => { y with frames := r })
          let e : Edit := { desc := x, zone := z, bytes := bytes, tstamp := stamp, set := editSet d (portZone p), mark := mark,
                            start := tbIn d (portZone p) }
          watchEdit (modTm d p (fun t =>
            { t with deficit := if r.isEmpty then ds.set c 0 else ds, pointer := ptr, edits := t.edits ++ [e] })) (portZone p))

/-- EDIT_DONE: the oldest edit of the port ends; a bad or oversize frame is dropped. -/
def execEditDone (p : Port) (s : State) : Host.Outcome State Fault Refusal :=
  s.onDevF (fun d =>
    match (tmPort d p).edits with
    | [] => d
    | e :: r =>
      let z := portZone p
      let d := modTm d p (fun t => { t with edits := r })
      let d := bump d (Rg.EDT_EDITED z) 1
      let (out, d) := finishEdit (readEdit d z e.set e.desc.edit) p e
      match out with
      | none => watchEdit d z
      | some bytes =>
        let d := chargeShapers d p e.desc.cls (bytes.length + 20)
        modTm d p (fun t => { t with mac := t.mac ++ [{ e with bytes := bytes }] }))

/-- The transmit stamp posted for a two-step request (R80, R412). -/
def postStamp (d : Dev) (p : Nat) (e : Edit) : Dev :=
  let q := p / 4
  if e.desc.ts2 && rb d (Rg.QUAD_PTP q) Fl.QUAD_PTP_TS_EN then
    let st := txStamp d p (tbIn d (portZone p))
    let src := match e.desc.inj with | some r => 256 + r % 64 * 512 | none => 0
    (postEvent d (rf d (Rg.QUAD_PTP q) Fl.QUAD_PTP_TS_HOST) 3 2
      [p + src, e.desc.dom % 65536 * 65536 + e.desc.seq % 65536, st.toNat % 2 ^ 32, st.toNat / 2 ^ 32]).1
  else d

/-- FRAME_TRANSMIT: the first edited frame whose class is not paused goes onto the line; none while the port receives remote fault (R70). -/
def execFrameTransmit (p : Port) (s : State) : Host.Outcome State Fault Refusal :=
  s.onDev (fun d =>
    match (if d.life.stopped || quadHeld d (p.val / 4) || (port d p).rfault then none else (tmPort d p).mac.findIdx? (fun e => !paused d p e.desc.cls)) with
    | none => d
    | some i =>
      match (tmPort d p).mac[i]? with
      | none => d
      | some e =>
        let q := p.val / 4
        let k := p.val % 4
        let d := modTm d p (fun t => { t with mac := t.mac.eraseIdx i })
        let d := emit d (.frame p e.bytes)
        let d := bump (bump d (Rg.TX_FRAMES q k) 1) (Rg.TX_OCTETS q k) e.bytes.length
        watchEdit (postStamp d p e) (portZone p))

/-- SHAPER_REFILL: the whole 256 ns intervals since the last. -/
def execShaperRefill (z : Zone) (s : State) : Host.Outcome State Fault Refusal :=
  s.onDev (fun d =>
    let k := nsIn d z / 256
    let last := tget zeroN d.egr.shaperAt z
    if k ≤ last then d
    else
      let d := { d with egr := { d.egr with shaperAt := tset zeroN d.egr.shaperAt z k } }
      (List.range 64).foldl (fun d i => fillShapers d (64 * z.val + i) (k - last)) d)

/-! ## The memory window (R325) -/

/-- EDT_WDATA: refused into the set in effect, or while OLD_BUSY is 1. -/
def edtWrite (d : Dev) (z : Nat) (v : W32) : Dev :=
  let r := Rg.EDT_WADDR z
  let w := rf d r Fl.EDT_WADDR_WORD
  let st := rf d r Fl.EDT_WADDR_WSET
  let d := if st == editSet d z || editOldBusy d z then bump d (Rg.EDT_WRITE_REFUSED z) 1
    else
      -- half of a stored word (R378, R539)
      let d := if w < 294912 then writePart d (1 + z) (13 * 2048 + st) (w / 2) (if w % 2 == 0 then 0xF0 else 0x0F) 0 else d
      cfgTouched (setEditWord d z st w v)
  if rb d r Fl.EDT_WADDR_AUTOINC then wf d r Fl.EDT_WADDR_WORD (w + 1) else d

def execEdtWdata (z : Zone) (m : Master) (v : W32) (s : State) : Host.Outcome State Fault Refusal :=
  s.onDevF (fun d => guardWrite d (Rg.EDT_WDATA z) m (fun d => edtWrite d z v))

end Sys2Proof.Machine
end

