-- ==== Sys2Proof/Machine/Locks.lean ====
section
/-!
DEFINITION. Steep's arbitration (R347 to R353, R370) and the commands of the lock unit and the host lock window (R356 to
R365, R371, R145).
-/

namespace Sys2Proof.Machine
open Sys2Proof

/-! ## Steep -/

def requesterDflt : Nat → Requester := fun _ => {}
def resourceDflt : Nat → Resource := fun _ => {}
def requester (d : Dev) (r : Nat) : Requester := tget requesterDflt d.steep.reqs r
def modRequester (d : Dev) (r : Nat) (f : Requester → Requester) : Dev :=
  { d with steep := { d.steep with reqs := tmod requesterDflt d.steep.reqs r f } }
def resource (d : Dev) (r : Nat) : Resource := tget resourceDflt d.steep.res r
def modResource (d : Dev) (r : Nat) (f : Resource → Resource) : Dev :=
  { d with steep := { d.steep with res := tmod resourceDflt d.steep.res r f } }

/-- Slots of a resource; 0 for a reserved number (R347). -/
def slotsOf (res : Nat) : Nat :=
  if res < 4 then 8 else if res == 4 then 16 else if res == 5 then 32 else if res < 11 then 16
  else if 16 ≤ res && res < 80 then 8 else if 80 ≤ res && res < 92 then 8 else if 96 ≤ res && res < 112 then 1 else 0

/-- The number names a requester (R348). -/
def isRequester (r : Nat) : Bool :=
  r < 864 || (864 ≤ r && r < 896 && (r - 864) % 8 < 7) || (896 ≤ r && r < 902) ||
    (912 ≤ r && r < 1008 && (r - 912) % 48 < 25)

/-- The FC cycle in which a resource judges its next requests: the first of this MC cycle, or the one after it judged last, which the clock
of 4 FC cycles a step reaches later (DESIGN CHOICE, log 254). -/
def cycleOf (d : Dev) (res : Nat) : Nat := max (fcNow d) (resource d res).cycle
/-- The resource has judged the requests of cycle `now`. -/
def endCycle (d : Dev) (res now : Nat) : Dev := modResource d res (fun x => { x with cycle := now + 1 })

/-- A loss (R351) in cycle `now`: count, back-off, first presentation. `full`: straight to the longest back-off (R353). -/
def lose (d : Dev) (now r : Nat) (full : Bool) : Dev :=
  modRequester d r (fun x =>
    let k := if full then 10 else min 10 (x.loss + 1)
    { x with loss := k, next := now + 2 ^ k, waits := x.waits + 1, first := x.first.or (some now) })
/-- A grant in cycle `now`: the pointer moves, the losses end. -/
def granted (d : Dev) (now res r : Nat) : Dev :=
  modRequester (modResource d res (fun x => { x with pointer := r })) r (fun x =>
    let w := min (2 ^ 32 - 1) (now - x.first.getD now)
    { x with loss := 0, next := 0, first := none, grants := x.grants + 1, maxWait := max x.maxWait w })
/-- The requester is RETIRED: every request of it is lost. -/
def barred (d : Dev) (r : Nat) : Bool := (chan d (reqChan r)).state == 3

/-- One request presented in cycle `now`, judged. -/
def judgeRequest (d : Dev) (now res r : Nat) : Dev :=
  let stack := (res - 80) / 3
  let th := tget zeroN d.hbm.throttle (1024 * stack + r)
  if barred d r then lose d now r true
  else if 80 ≤ res && res < 92 && th != 0 then
    lose (bump (modHbm d (fun h => { h with throttle := tset zeroN h.throttle (1024 * stack + r) (th - 1) }))
      (Rg.HBM_THROTTLED stack) 1) now r false
  else if (resource d res).tenants.length < slotsOf res then
    granted (modResource d res (fun x => { x with tenants := x.tenants ++ [⟨r, now + 1, rd d (Rg.ARB_RES res)⟩] })) now res r
  else lose d now r false

/-- Place of a requester's source at a table update port (R242): helper 2, master distribution, hardware learning, the aging sweep, others
(DESIGN CHOICE, log 255). -/
def sourceRank (res r : Nat) : Nat :=
  if res < 6 || 10 < res then 0
  else if r < 864 then 0 else if r == 897 then 1 else if r < 896 && r % 8 == 3 then 2 else if r < 896 && r % 8 == 4 then 3 else 4
/-- Insert a requester at its place: by source, and in the rotation from the pointer. -/
def rotIns (res p r : Nat) : List Nat → List Nat
  | [] => [r]
  | x :: l =>
    let at_ (r : Nat) : Nat := 1024 * sourceRank res r + (r + 2048 - p - 1) % 1024
    if at_ r < at_ x then r :: x :: l else x :: rotIns res p r l
/-- The requests of a cycle in the order in which they are judged; an aging sweep for which the others leave no slot goes first, since the
port reserves it one (R242). -/
def judgeOrder (d : Dev) (res : Nat) (l : List Nat) : List Nat :=
  let o := l.foldl (fun a r => rotIns res (resource d res).pointer r a) []
  let free := slotsOf res - (resource d res).tenants.length
  match o.find? (fun r => sourceRank res r == 3) with
  | some r => if free ≤ o.idxOf r then r :: o.erase r else o
  | none => o
/-- Requests that may be presented in cycle `now`: others are ignored (R351). -/
def mayPresent (d : Dev) (now r : Nat) : Bool := isRequester r && decide ((requester d r).next ≤ now)
/-- A tenant signals release: its tenancy ends, the oldest where it has several. -/
def releaseTenant (d : Dev) (res r : Nat) : Dev := modResource d res (fun x => { x with tenants := x.tenants.eraseP (fun t => t.req == r) })

/-- One FC cycle of a resource: releases, then the requests in rotating order (R349 to R351). -/
def execArbRequest (res : Nat) (reqs rels : List Nat) (s : State) : Host.Outcome State Fault Refusal :=
  s.onDev (fun d =>
    if slotsOf res == 0 then d
    else
      let now := cycleOf d res
      let d := rels.foldl (fun d r => releaseTenant d res r) d
      endCycle ((judgeOrder d res (reqs.dedup.filter (mayPresent d now))).foldl (fun d r => judgeRequest d now res r) d) res now)

/-- Helpers whose lanes the tenancies of a resource serve (R217, R347). -/
def helpersOf (res : Nat) : List Nat :=
  if res == 4 || res == 5 then [7] else if res == 10 || (6 ≤ res && res < 10) then [2] else if 80 ≤ res && res < 92 then [1, 6]
  else if 16 ≤ res && res < 80 then [5] else []
/-- R352: a thread's helper lane receives a poisoned result: the oldest result on its way to the thread, else its oldest update at the
port, else the oldest lane that waits in a queue of the resource's helpers, whose operation is then cancelled (DESIGN CHOICE, log 256). -/
def biteEffect (d : Dev) (res r : Nat) : Dev :=
  match d.inf.results.find? (fun x => reqOf x.cid x.t == r) with
  | some y => { d with inf := { d.inf with results := d.inf.results.map (fun x => if x = y then { y with poison := true } else x) } }
  | none =>
    let mine (o : PortOp) : Bool := reqOf o.cid o.t == r && o.slot != 4
    match d.tbl.port.find? (fun e => e.2.any mine) with
    | some e => match e.2.find? mine with
      | some o =>
        let d := { d with tbl := { d.tbl with port := tset (fun _ => []) d.tbl.port e.1 (e.2.map (fun y => if y = o then { y with slot := 4 } else y)) } }
        pushResult d 2 true o.cid o.t o.home o.slot o.lane 0 true o.flight
      | none => d
    | none =>
      let at_ (e : Nat × List HEntry) : Bool := (helpersOf res).contains (e.1 % 16) && e.2.any (fun x => reqOf (e.1 / 16) x.t == r)
      match d.inf.queues.find? at_ with
      | none => d
      | some e => match e.2.find? (fun x => reqOf (e.1 / 16) x.t == r) with
        | some x => match x.lanes with
          | l :: rest =>
            let q := e.2.flatMap (fun y => if y = x then (if rest.isEmpty then [] else [{ y with lanes := rest }]) else [y])
            let d := { d with inf := { d.inf with queues := tset (fun _ => []) d.inf.queues e.1 q } }
            if [0xC7, 0xC9, 0xCC].contains (x.word.toNat / 2 ^ 24) then d
            else pushResult d (e.1 % 16) (e.1 % 16 != 7) (e.1 / 16) x.t x.home (x.word.toNat / 2 ^ 16 % 4) l.lane 0 true x.flight
          | [] => d
        | none => d

/-- The bite itself: the oldest tenancy of the requester that has lasted its HOLD_LIMIT ends; answers whether it happened. -/
def wdBite (d : Dev) (res r : Nat) : Dev × Bool :=
  match (resource d res).tenants.find? (fun t => t.req == r) with
  | some t =>
    if rb d Rg.ARB_CTRL Fl.ARB_CTRL_WD_EN && t.cfg.toNat.testBit 16 && t.cfg.toNat % 65536 + t.start ≤ fcNow d then
      let d := releaseTenant d res r
      let d := wr d Rg.ARB_WD_LAST (BitVec.ofNat 32 (r + res * 2 ^ 16))
      let d := wr64 d Rg.ARB_WD_TIME_LO Rg.ARB_WD_TIME_HI (nowNs d)
      let d := raise (bump d (Rg.ARB_BITES res) 1) (Rg.pageOf Rg.baseARB) 0
      let d := if rb d Rg.ARB_CTRL Fl.ARB_CTRL_FAULT_EN then noteFault d (reqChan r) false else d
      (if r < 864 then biteEffect d res r
       else if r < 912 then modRequester d r (fun x => { x with failures := x.failures + 1 }) else d, true)
    else (d, false)
  | none => (d, false)

def execClearMax (m : Master) (s : State) : Host.Outcome State Fault Refusal :=
  s.onDev (fun d => guardWrite d Rg.ARB_REQ_STATE m (fun d =>
    modRequester d (rf d Rg.ARB_REQ_SEL Fl.ARB_REQ_SEL_REQUESTER) (fun x => { x with maxWait := 0 })))

/-- A write of ARB_REQ_SEL: the requester's counters are shown as they stand (R370). -/
def arbReqSel (d : Dev) (m : Master) (v : W32) : Dev :=
  let r := v.toNat % 1024
  if !isRequester r then rsvd d Rg.ARB_REQ_SEL m
  else
    let x := requester d r
    let d := wf d Rg.ARB_REQ_SEL Fl.ARB_REQ_SEL_REQUESTER r
    let d := setCtr d Rg.ARB_REQ_GRANTS (BitVec.ofNat 64 x.grants)
    let d := setCtr d Rg.ARB_REQ_WAITS (BitVec.ofNat 64 x.waits)
    wr d Rg.ARB_REQ_MAXWAIT (BitVec.ofNat 32 x.maxWait)

def execArbReqSel (m : Master) (v : W32) (s : State) : Host.Outcome State Fault Refusal :=
  s.onDev (fun d => guardWrite d Rg.ARB_REQ_SEL m (fun d => arbReqSel d m v))

/-! ## Lock unit -/

/-- The lock at the peek address is shown as it stands (R371). -/
def lkuSnap (d : Dev) : Dev :=
  let a := lockOf ((rd d Rg.LKU_PEEK_ADDR_LO).toNat + (rd d Rg.LKU_PEEK_ADDR_HI).toNat % 256 * 2 ^ 32)
  let ws := waitersOf d a
  let top := match topWaiter d ws with | some w => waitRank d w | none => 16
  let e := lockEnt d a
  let d := wr d Rg.LKU_PEEK_HOLDER (match e with | some x => BitVec.ofNat 32 (x.holder + 2 ^ 31) | none => 0)
  wr d Rg.LKU_PEEK_WAIT (BitVec.ofNat 32 (min 255 ws.length + top % 16 * 2 ^ 8 + b2n (top < 16) * 2 ^ 12 +
    b2n (match e with | some x => x.orphan | none => false) * 2 ^ 13))

/-- A write of either peek address register. -/
def lkuPeek (d : Dev) (hi : Bool) (v : W32) : Dev :=
  lkuSnap (if hi then wr d Rg.LKU_PEEK_ADDR_HI (v &&& 0xFF) else wr d Rg.LKU_PEEK_ADDR_LO v)

def execLkuPeek (m : Master) (hi : Bool) (v : W32) (s : State) : Host.Outcome State Fault Refusal :=
  s.onDev (fun d => guardWrite d (if hi then Rg.LKU_PEEK_ADDR_HI else Rg.LKU_PEEK_ADDR_LO) m (fun d => lkuPeek d hi v))

/-- The waiters to whom the lock has passed are granted (R356, R358). -/
def execLockGrant (addr : Nat) (s : State) : Host.Outcome State Fault Refusal :=
  s.onDevMF (fun m d => (d.lku.waiters.filter (fun w => w.stage == 2 && w.addr == lockOf addr)).foldl (grantTo m) d)

/-- The oldest posted release of the lock reaches the lock unit (R358). -/
def execLockRelease (addr : Nat) (s : State) : Host.Outcome State Fault Refusal :=
  s.onDev (fun d =>
    match d.inf.posts.find? (fun p => p.eff = .unlock (lockOf addr)) with
    | some p =>
      -- releases of one thread arrive in the order of their instructions and lanes (R220)
      if d.inf.posts.find? (fun q => q.cid == p.cid && q.t == p.t && q.helper == p.helper) != some p then d
      else
        let rest := d.inf.posts.erase p
        (releaseLock { d with inf := { d.inf with posts := rest } } (lockOf addr)).1
    | none => d)

/-- A hold reaches LKU_AGE_LIMIT (R358): counted and reported once, and kept. -/
def execLongHold (addr : Nat) (s : State) : Host.Outcome State Fault Refusal :=
  s.onDev (fun d =>
    let lim := rf d Rg.LKU_AGE_LIMIT Fl.LKU_AGE_LIMIT_AGE_US
    match lockEnt d (lockOf addr) with
    | some e =>
      if lim != 0 && !e.aged && lim * 1000 ≤ elapsed (nowNs d) e.start then
        raise (bump (modLockEnt d e.addr (fun x => { x with aged := true })) Rg.LKU_LONG_HOLD 1) (Rg.pageOf Rg.baseLKU) 2
      else d
    | none => d)

/-- R145: the Barista raises the reported holder `cid`, `t` to the highest rank reported for each lock it holds. Every report is kept,
so that a release lets the rank fall to the highest that remains; a report that lifts the rank counts. -/
def execPiRaise (c : Cid) (t : Tid) (s : State) : Host.Outcome State Fault Refusal :=
  s.onDev (fun d =>
    let l := d.lku.table.filter (fun e => e.holder / 2 ^ 29 == 0 && e.holder % 256 == c.val && e.holder / 2 ^ 8 % 8 == t.val &&
      e.top != 0 && e.tag == (thr d c t).tag && !e.orphan)
    watchLocks (l.foldl (fun d e =>
      let r := e.top - 1
      let has := d.bar.raises.any (fun x => x.cid == c.val && x.t == t.val && x.addr == e.addr && 16 * x.band + x.level == r)
      if has then d
      else
        let lifts := issueRank d c t < r
        let d := modBar d (fun b => { b with raises := b.raises.filter (fun x => !(x.cid == c.val && x.t == t.val && x.addr == e.addr)) ++
          [{ cid := c.val, t := t.val, addr := e.addr, band := r / 16, level := r % 16, tag := e.tag }] })
        if isHub c || !lifts then d else bump d (Rg.BAR_PI_RAISE (cidZone c)) 1) d))

/-! ## Host lock window (R363 to R365) -/

/-- Address and size of a slot's word. -/
def slotAddr (d : Dev) (h i : Nat) : Nat := (lkSlot d h i).lo.toNat + (lkSlot d h i).hi.toNat % 256 * 2 ^ 32
def slotSize (d : Dev) (h i : Nat) : Nat := if (lkSlot d h i).hi.toNat.testBit 8 then 8 else 4
def execLkAcquire (h : Host2) (i : Fin 64) (s : State) : Host.Outcome State Fault Refusal :=
  s.onDevMF (fun m d =>
    match (lkSlot d h i).kept with
    | some v => emit (modLkSlot d h i (fun x => { x with kept := none })) (.lockReply h i v)
    | none =>
      let a := slotAddr d h i
      let n := slotSize d h i
      if (slotWaiter d h i).isSome then modLkSlot d h i (fun x => { x with stall := x.stall.or (some (nowNs d)) })
      else if !mapped d a n then emit d (.lockReply h i 0xFFFFFFFF)
      else
        let d := modLkSlot d h i (fun x => { x with stall := some (nowNs d) })
        let d := modLku d (fun u => { u with seq := u.seq + 1 })
        requestLock m d { addr := lockOf a, word := a, size := n, stage := 0, order := d.lku.seq, host := some (64 * h.val + i.val),
                          cid := 0, t := 0, home := 0, slot := 0, lane := 0, flight := none })

/-- LK_HOST_LIMIT passes: the read answers with the current holder, and the request stays queued. -/
def execLkAcquireTimeout (h : Host2) (i : Fin 64) (s : State) : Host.Outcome State Fault Refusal :=
  s.onDev (fun d =>
    match (lkSlot d h i).stall with
    | none => d
    | some t0 =>
      if elapsed (nowNs d) t0 < rf d Rg.LK_HOST_LIMIT Fl.LK_HOST_LIMIT_LIMIT_US * 1000 then d
      else
        let full := match slotWaiter d h i with | some w => w.stage == 1 | none => false
        let id := if full then 0x7FFFFFFF
          else match lockEnt d (lockOf (slotAddr d h i)) with | some e => e.holder | none => 0x7FFFFFFF
        let d := emit (modLkSlot d h i (fun x => { x with stall := none })) (.lockReply h i (BitVec.ofNat 32 id))
        raise (bump d Rg.LKU_HOST_TIMEOUT 1) (Rg.pageOf Rg.baseLKU) 3)

def execLkRelease (h : Host2) (i : Fin 64) (s : State) : Host.Outcome State Fault Refusal :=
  s.onDev (fun d => if mapped d (slotAddr d h i) (slotSize d h i) then (releaseLock d (lockOf (slotAddr d h i))).1 else d)

def execLkCancel (h : Host2) (i : Fin 64) (s : State) : Host.Outcome State Fault Refusal :=
  s.onDev (fun d => slotCancel d h i)

def execLkAddrWrite (h : Host2) (i : Fin 64) (hi : Bool) (v : W32) (s : State) : Host.Outcome State Fault Refusal :=
  s.onDev (fun d =>
    modLkSlot (slotCancel d h i) h i (fun x => if hi then { x with hi := v &&& 0x1FF } else { x with lo := v }))

end Sys2Proof.Machine
end

