-- ==== Sys2Proof/Machine/Faults.lean ====
section
/-!
DEFINITION. The commands of the fault rules: faults and their expiry, parity errors, scrub, merges, row copies, the
retirement map, the protection window, restorations and shadow tests (R375 to R391, R400, R341, R343, R352, R353).
-/

namespace Sys2Proof.Machine
open Sys2Proof

/-- The identifier names a channel (R382). -/
def validChan (k : Nat) : Bool :=
  let pl := chPlace k
  let u := chUnit k
  let e := chElem k
  match chTy k with
  | 0 => u < 256 && pl == 1 + u / 64 && e == 0
  | 1 => 1 ≤ pl && pl ≤ 4 && u < 2048 && u % 1024 < 544 && e == 0
  | 2 => pl ≤ 4 && u < 65536 && e < sramRows pl u
  | 3 => pl == 0 && u < 128 && (e == 0xFFFFFFFF || e < 48 * 16384)
  | 4 => (pl == 0 && u < 4 && e == 0) || (1 ≤ pl && pl ≤ 4 && u < 26 && e == 0)
  | 5 => u < 16 && pl == 1 + u / 4 && e < 2
  | 6 => pl == 5
  | 7 => pl == 0 && u < 2 && e < 8
  | 8 => u < 1008 && pl == reqPlace u && e == 0
  | _ => false

/-- The channel of an HBM burst in error: its row when the error was corrected, else its pseudo-channel (R382). -/
def burstChan (d : Dev) (b : BurstErr) : Nat :=
  let (pc, k) := servedAt d (hbmPc (32 * b.burst)) (hbmBlock (32 * b.burst))
  if b.synd.isSome then chanKey 3 0 pc (blockBank k * 16384 + blockRow k) else pcChan pc
/-- R329: a read finds a burst in error. Corrected, it is counted, logged and one fault of its row; uncorrectable, it stays poisoned
until a write covers it. -/
def burstError (d : Dev) (b : BurstErr) : Dev :=
  let a := 32 * b.burst
  match b.synd with
  | some s =>
    let pc := (servedAt d (hbmPc a) (hbmBlock a)).1
    noteFault (logInto (bump d (Rg.HBM_CORRECTED (pc / 32)) 1) (pcLog pc) b.burst s false Rg.PW_LOG_OVERFLOW) (burstChan d b) false
  | none => noteUncorr (modHbm d (fun h => { h with poison := if h.poison.contains b.burst then h.poison else h.poison ++ [b.burst] })) a 32

/-- A fault met outside the commands that find one themselves; for HBM the burst in error, if it is a burst's. A command or data parity
error of a pseudo-channel has none. -/
def execFault (chan : W64) (f : FaultFound) (s : State) : Host.Outcome State Fault Refusal :=
  s.onDevF (fun d =>
    let k := chan.toNat
    if !validChan k then d
    else match f.burst with
      | none => noteFault d k f.hard
      | some b => if isHbm d (32 * b.burst) && !hbmLost d (32 * b.burst) && burstChan d b == k then burstError d b else d)

/-- R383: the window of a SUSPECT channel ends without its becoming permanent; the count of a laser input returns to 0 whether or not it is
GOOD again by then. -/
def execSuspectExpiry (chan : W64) (s : State) : Host.Outcome State Fault Refusal :=
  s.onDev (fun d =>
    let k := chan.toNat
    let c := Sys2Proof.Machine.chan d k
    let win := rf d (Rg.RAS_RULE (chTy k)) Fl.RAS_RULE_WINDOW_MS * 1000000
    let open_ := c.state == 1 || (chTy k == 5 && c.state == 0 && c.count != 0)
    if validChan k && open_ && c.start + win ≤ nowNs d then
      let d := modChan d k (fun c => { c with count := 0 })
      if chTy k == 5 then syncEntry d k else syncEntry (setState d k 0) k
    else d)

/-- R375: the operation is repeated once; the error counts on the unit's channel, and a failed repeat is a hard fault of it
or stops the module. -/
def execParityError (unit : W64) (repeatFails : Bool) (s : State) : Host.Outcome State Fault Refusal :=
  s.onDevF (fun d =>
    let d := bump d Rg.RAS_PARITY_RETRY 1
    if validChan unit.toNat then noteFault d unit.toNat repeatFails
    else if repeatFails then moduleStop d else d)

/-- R376: a poisoned image-bank word is copied from the same bank of another core of the zone. -/
def copyImageWord (d : Dev) (pl n w : Nat) : Dev :=
  let z := pl - 1
  let me := n % 2048 / 2
  match (serviceCores d z).find? (fun k => k != me) with
  | none => d
  | some k =>
    let o := 4 * 2048 + 2 * k + n % 2
    let (v, bad, d) := readWord d pl o w
    if bad || !(sword d pl o w).valid then d else writeWord d pl n w v

/-- A checked read of a stored word by scrub or by the window; a ternary word is corrected in its entry, whose bits searches compare. -/
def readStored (d : Dev) (pl n w : Nat) : W64 × Bool × Dev :=
  match (entsAt d pl n w).find? (fun e => (descAt d pl e.1).ty == 4) with
  | some (t, r, pos) =>
    let (bad, d) := checkTern d pl t r pos (w % 11) ⟨n, w, true⟩
    (ternWord (ent d pl t r pos) (w % 11), bad, d)
  | none => readWord d pl n w
/-- The entries of replicated tables that a word found uncorrectable holds are fetched from the master (R376). -/
def fetchStored (d : Dev) (pl n w : Nat) : Dev :=
  (entsAt d pl n w).foldl (fun d e => if (descAt d pl e.1).repl then lostEnt d pl e.1 e.2.1 (descAt d pl e.1) e.2.2 else d) d

/-- Patrol scrub reads one word: an invalid word is skipped, a poisoned one kept but for image banks, and for replicas, which the zone
fetches from the master (R376, R377, R380). -/
def execSramScrub (pl : Place) (inst : Nat) (word : Nat) (s : State) : Host.Outcome State Fault Refusal :=
  s.onDevF (fun d =>
    if sramRows pl inst * 128 ≤ word then d
    else
      let d := if (sword d pl inst word).valid && !rowWithdrawn d pl inst (word / 128) then
          let (_, bad, d) := readStored d pl inst word
          if !bad || pl.val == 0 then d
          else if inst / 2048 == 4 then copyImageWord d pl inst word else fetchStored d pl inst word
        else d
      let d := modRas d (fun r => { r with scrub := tset zeroN r.scrub (pl.val * 65536 + inst) (word + 1) })
      let last := if pl.val == 0 then 8 * 2048 + 7 else 15 * 2048 + 63
      if inst == last && word + 1 == sramRows pl inst * 128 then bump d (pwAt pl Rg.PW_SCRUB_PASSES Rg.ZPW_SCRUB_PASSES) 1 else d)

/-- R378: the oldest entry of a merge buffer completes after 16 cycles of the array's clock: CC for core memories (8 to an
MC cycle), FC for the others (4). -/
def execMergeTimeout (pl : Place) (inst : Nat) (s : State) : Host.Outcome State Fault Refusal :=
  s.onDevF (fun d =>
    let core := if pl.val == 0 then inst / 2048 == 0 else inst / 2048 ≤ 4
    match merges d pl inst with
    | e :: _ => if (if core then 2 else 4) ≤ d.mc - e.at_ then completeMerge d pl inst e else d
    | [] => d)

def execRowCopyDone (chan : W64) (s : State) : Host.Outcome State Fault Refusal :=
  s.onDev (fun d => modRas d (fun r => { r with copies := r.copies.filter (fun k => k != chan.toNat) }))

/-- R388: the changes that wait are written into the retirement map. -/
def journalMap (d : Dev) : Dev :=
  modRas d (fun r => { r with
    journal := []
    map := r.journal.foldl (fun m k =>
      let c := chan d k
      let v := if c.state == (chanDflt k).state && !c.spareIn then 0 else 1 + 2 * c.state + b2n c.spareIn
      tset zeroN m k v) r.map })

def execRetirementJournal (s : State) : Host.Outcome State Fault Refusal := s.onDev journalMap

/-! ## Protection window (R381, R400) -/

/-- The buffer in use that holds a cell, and the first byte of the frame in it. -/
def cellOwner (d : Dev) (pl cell : Nat) : Option (Nat × Nat) :=
  (d.urn.bufs.find? (fun e => e.1 / 131072 == pl - 1 && e.2.kind != 0 && e.2.cells.contains cell)).map (fun e => (e.1, 256 * e.2.cells.idxOf cell))

/-- The word of an array whose contents other state holds: hub shared SRAM, edit memory, the cells of a buffer, ternary entries (R539). -/
def heldWord (m : Memory) (d : Dev) (pl n w : Nat) : Option W64 :=
  if pl == 0 && n / 2048 == 1 then some (BitVec.ofNat 64 (m.be (sramBase + (n % 2048) * 2 ^ 20 + 8 * w) 8))
  else if pl != 0 && n / 2048 == 13 then
    let base := (2 * (pl - 1) + n % 2048) * 294912
    some (tget zero32 d.egr.editMem (base + 2 * w) ++ tget zero32 d.egr.editMem (base + 2 * w + 1))
  else if pl != 0 && n / 2048 == 5 then
    (cellOwner d pl (32 * (w / 32) + n % 2048)).map (fun e => BitVec.ofNat 64 (beAt (bufAt d e.1).bytes (e.2 + 8 * (w % 32)) 8))
  else
    ((entsAt d pl n w).find? (fun e => (descAt d pl e.1).ty == 4)).map (fun e => ternWord (ent d pl e.1 e.2.1 e.2.2) (w % 11))

/-- Write such a word. -/
def putHeld (m : Memory) (d : Dev) (pl n w : Nat) (v : W64) : Memory × Dev :=
  if pl == 0 && n / 2048 == 1 then (m.writeN (sramBase + (n % 2048) * 2 ^ 20 + 8 * w) (beBytes 8 v.toNat), d)
  else if pl != 0 && n / 2048 == 13 then
    let base := (2 * (pl - 1) + n % 2048) * 294912
    let t := tset zero32 d.egr.editMem (base + 2 * w) (v.extractLsb' 32 32)
    (m, { d with egr := { d.egr with editMem := tset zero32 t (base + 2 * w + 1) (v.setWidth 32) } })
  else if pl != 0 && n / 2048 == 5 then
    match cellOwner d pl (32 * (w / 32) + n % 2048) with
    | some e => (m, modBuf d e.1 (fun b => { b with bytes := (patch b.bytes (e.2 + 8 * (w % 32)) (beBytes 8 v.toNat)).take b.len }))
    | none => (m, d)
  else
    match (entsAt d pl n w).find? (fun e => (descAt d pl e.1).ty == 4) with
    | some e => (m, modEnt d pl e.1 e.2.1 e.2.2 (fun y => putTernWord y (w % 11) v))
    | none => (m, d)

/-- The entries of tables in SRAM that a word of other contents holds bytes of are what the new bits spell, which the spec gives no layout
of (R539; DESIGN CHOICE, log 258). -/
def respell (d : Dev) (pl n w : Nat) (new : W64) : Dev :=
  (entsAt d pl n w).foldl (fun d e =>
    modEnt d pl e.1 e.2.1 e.2.2 (fun x =>
      let y := Config.entOf new x.key x.data x.stamp w
      { x with valid := y.1, key := y.2.1, data := y.2.2.1, stamp := y.2.2.2 })) d

/-- Registers of a place's window. -/
def pwReg (pl : Nat) (hub : Nat) (zone : Nat → Nat) : Nat := if pl == 0 then hub else zone (pl - 1)
def pwInst (d : Dev) (pl : Nat) : Nat := (rd d (pwReg pl Rg.PW_SEL Rg.ZPW_SEL)).toNat % 65536
def pwWord (d : Dev) (pl : Nat) : Nat := (rd d (pwReg pl Rg.PW_TEST_ADDR Rg.ZPW_TEST_ADDR)).toNat % 2 ^ 20
def pwBypass (d : Dev) (pl : Nat) : Bool := (rd d (pwReg pl Rg.PW_TEST_CTRL Rg.ZPW_TEST_CTRL)).toNat.testBit 0

/-- PW_TEST_CTRL.WRITE: the test word, raw with its check bits, or checked. A raw word that the code corrects holds what it is corrected to,
with the bits to correct flipped in it; any other holds the test word. -/
def pwWrite (m : Memory) (d : Dev) (pl : Nat) : Memory × Dev :=
  let n := pwInst d pl
  let w := pwWord d pl
  let v := BitVec.ofNat 64 (rd64 d (pwReg pl Rg.PW_TEST_DATA_LO Rg.ZPW_TEST_DATA_LO) (pwReg pl Rg.PW_TEST_DATA_HI Rg.ZPW_TEST_DATA_HI))
  let c := BitVec.ofNat 8 (rd d (pwReg pl Rg.PW_TEST_CHECK Rg.ZPW_TEST_CHECK)).toNat
  if sramRows pl n * 128 ≤ w then (m, d)
  else
    let x := if pwBypass d pl then c ^^^ Config.eccGen v else 0
    let fixed := match Config.eccFix x with
      | some k => if x == 0 then v else v ^^^ k.setWidth 64
      | none => v
    let held := heldWord m d pl n w
    let old := (sword d pl n w).data
    let d := setMerges d pl n ((merges d pl n).filter (fun e => e.word != w))
    if held.isSome then
      -- searches compare the ternary bits as they stand (R373)
      let tern := pl != 0 && n / 2048 == 8
      let (m, d) := putHeld m d pl n w (if tern then v else fixed)
      (m, setSword d pl n w { valid := true, data := if tern then 0 else v ^^^ fixed, chk := x, inj := x != 0 })
    else
      let d := setSword d pl n w { valid := true, data := v, chk := x, inj := x != 0 }
      (m, if fixed == old then d else respell d pl n w fixed)

/-- The word's valid bit: cells are written without it, whole words from the first on. -/
def validWord (d : Dev) (pl n w : Nat) : Bool :=
  (sword d pl n w).valid ||
    (pl != 0 && n / 2048 == 5 && decide (w % 32 < tget zeroN d.urn.high (131072 * (pl - 1) + 32 * (w / 32) + n % 2048)))

/-- PW_TEST_CTRL.READ: data, check bits and valid bit, raw, or by a checked read. -/
def pwRead (m : Memory) (d : Dev) (pl : Nat) : Dev :=
  let n := pwInst d pl
  let w := pwWord d pl
  if sramRows pl n * 128 ≤ w then d
  else
    let (v, d) := if pwBypass d pl then ((sword d pl n w).data, d) else (let (v, _, d) := readStored d pl n w; (v, d))
    let x := sword d pl n w
    -- the bits as they are stored: those of other state, with the flipped ones
    let v := match heldWord m d pl n w with | some h => if pl != 0 && n / 2048 == 8 then h else h ^^^ x.data | none => v
    let c := if x.poison then Config.eccPoison v else x.chk ^^^ Config.eccGen v
    let ok := validWord d pl n w
    let d := wr64 d (pwReg pl Rg.PW_TEST_DATA_LO Rg.ZPW_TEST_DATA_LO) (pwReg pl Rg.PW_TEST_DATA_HI Rg.ZPW_TEST_DATA_HI) (if ok || !pwBypass d pl then v.toNat else 0)
    wr d (pwReg pl Rg.PW_TEST_CHECK Rg.ZPW_TEST_CHECK) (BitVec.ofNat 32 ((if ok || !pwBypass d pl then c.toNat else 0) + b2n ok * 256))

def execPwTestWrite (pl : Place) (m : Master) (s : State) : Host.Outcome State Fault Refusal :=
  s.onMem (fun mem d =>
    let d' := guardWrite d (pwReg pl Rg.PW_TEST_CTRL Rg.ZPW_TEST_CTRL) m (fun d => (pwWrite mem d pl).2)
    let a := pwReg pl Rg.PW_TEST_CTRL Rg.ZPW_TEST_CTRL
    let ok := (page d (Rg.pageOf a)).ready && reaches d (Rg.pageOf a) m && mayWrite (page d (Rg.pageOf a)).owner.toNat m
    (if ok then (pwWrite mem d pl).1 else mem, d'))

def execPwTestRead (pl : Place) (m : Master) (s : State) : Host.Outcome State Fault Refusal :=
  s.onDevMF (fun mem d => guardWrite d (pwReg pl Rg.PW_TEST_CTRL Rg.ZPW_TEST_CTRL) m (fun d => pwRead mem d pl))

/-! ## Restorations and tests (R343, R353, R389 to R391) -/

/-- RAS_REG_STATE.RESTORE: the channel of the entry shown. -/
def rasRestore (d : Dev) : Dev :=
  let e := tget zeroN d.ras.registry (rf d Rg.RAS_REG_SEL Fl.RAS_REG_SEL_INDEX)
  if e == 0 then d else restoreChan d (e - 1)

def execRestore (m : Master) (s : State) : Host.Outcome State Fault Refusal :=
  s.onDev (fun d => guardWrite d Rg.RAS_REG_STATE m rasRestore)

/-- Time a test lasts at least before it can pass, in ns. -/
def testNs (ty : Nat) : Nat := match ty with | 0 => 10000000000 | 1 => 1000000 | 6 | 7 | 8 => 1000000000 | _ => 0

/-- The test of a channel in SHADOW ends. Types 3, 4 and 5 have tests of their own. -/
def execShadowEnd (chan : W64) (pass : Bool) (s : State) : Host.Outcome State Fault Refusal :=
  s.onDevF (fun d =>
    let k := chan.toNat
    let c := Sys2Proof.Machine.chan d k
    if !validChan k || c.state != 2 || (3 ≤ chTy k && chTy k ≤ 5 && !(chTy k == 4 && chPlace k == 0)) then d
    else if !pass then toMap (failShadow d k) k
    else if c.start + testNs (chTy k) ≤ nowNs d then passShadow d k else d)

/-- R391: every copy of the run has been compared: the core passes, or a new run starts for want of judged copies. -/
def execShadowRunEnd (z : Zone) (s : State) : Host.Outcome State Fault Refusal :=
  s.onDev (fun d =>
    let b := barz d z
    let k := coreChan (32 * z.val + b.shadowCore)
    if b.run && b.remain == 0 && !(zoneFlights d z).any (fun f => f.copyOf.isSome) && (chan d k).state == 2 then
      if rf d (Rg.ZRAS_SHADOW_CFG z) Fl.ZRAS_SHADOW_CFG_MIN_JUDGED ≤ b.judged then passShadow d k
      else modBarz d z (fun b => { b with remain := 4096, judged := 0, unjudged := 0 })
    else d)

def execRequesterRestore (m : Master) (s : State) : Host.Outcome State Fault Refusal :=
  s.onDev (fun d => guardWrite d Rg.ARB_REQ_STATE m (fun d => restoreChan d (reqChan (rf d Rg.ARB_REQ_SEL Fl.ARB_REQ_SEL_REQUESTER))))

def execHbmRestore (pc : Fin 128) (m : Master) (s : State) : Host.Outcome State Fault Refusal :=
  s.onDev (fun d => guardWrite d (Rg.HBM_PC_STATE (pc.val / 32) (pc.val % 32)) m (fun d => restoreChan d (pcChan pc)))

/-- R343: the four patterns over all blocks, the copy back and the scrub are done: GOOD and the spare area free, or a pattern failed and
RETIRED again. -/
def execHbmRestoreDone (pc : Fin 128) (ok : Bool) (s : State) : Host.Outcome State Fault Refusal :=
  s.onDev (fun d =>
    let k := pcChan pc
    if (chan d k).state != 2 || d.hbm.waiting.contains pc.val then d
    else
      let mine := d.hbm.spareOf == some pc.val
      if ok then
        let d := serveOwn d pc (5 * 3145728) (4 * 3145728 + (if mine then spareBlocks else 0))
        let d := if mine then
            (List.range 4).foldl (fun d s => wf (wf d (Rg.HBM_STATUS s) Fl.HBM_STATUS_SPARE_USED 0) (Rg.HBM_STATUS s) Fl.HBM_STATUS_SPARE_PC 0)
              (modHbm (serveSlots d pc slotsEach 0) (fun h => { h with spareOf := none, copy := 0, copyBack := 0 }))
          else modHbm d (fun h => { h with lost := h.lost.filter (fun p => p != pc.val) })
        passShadow d k
      else
        -- how far the patterns had come is free
        toMap (failShadow (serveOwn (useFree d) pc ((freeVal d).toNat % (4 * 3145728 + 1)) ((freeVal d).toNat / 2 ^ 32 % (4 * 3145728 + 1))) k) k)

end Sys2Proof.Machine
end

