-- ==== Sys2Proof/Machine/Line.lean ====
section
/-!
DEFINITION. Optical engines, laser inputs, lanes, FEC, link state and flow control (R56 to R77).
-/

namespace Sys2Proof.Machine
open Sys2Proof

/-! ## Laser inputs (R60 to R64) -/

/-- Thresholds of engine `e` in 0.01 dBm. -/
def liWarn (d : Dev) (e : Nat) : Int := 10 * rf d (Rg.OE_LI_THRESH e) Fl.OE_LI_THRESH_WARN
def liRetire (d : Dev) (e : Nat) : Int := 10 * rf d (Rg.OE_LI_THRESH e) Fl.OE_LI_THRESH_RETIRE
def liHigh (d : Dev) (e : Nat) : Int := 10 * rf d (Rg.OE_LI_THRESH e) Fl.OE_LI_THRESH_HIGH
def oePage (e : Nat) : Nat := Rg.pageOf (Rg.baseOE e)

/-- R64: with both inputs below RETIRE the lanes stop transmitting and the engine's ports go down. -/
def engineDark (d : Dev) (e : Nat) : Dev :=
  if (laser d e 0).pw.toInt < liRetire d e && (laser d e 1).pw.toInt < liRetire d e && !(engine d e).noLight then
    loseLock (modEngine d e (fun x => { x with noLight := true })) (engineLanes e)
  else d

/-- R61 to R63: with both inputs GOOD the shares resume; with one GOOD all draw goes to it. -/
def settleDraw (d : Dev) (e : Nat) : Dev :=
  let good (i : Nat) : Bool := (chan d (laserChan e i)).state == 0
  if good 0 && good 1 then modEngine d e (fun x => { x with draw := 0 })
  else if good 0 && (engine d e).draw != 1 then moveDraw d e 1
  else if good 1 && (engine d e).draw != 2 then moveDraw d e 0
  else d

/-- An input's power is found: crossings of WARN and HIGH, and the range of a SHADOW input (R63). -/
def setPower (d : Dev) (e i : Nat) (pw : W16) : Dev :=
  let old := (laser d e i).pw.toInt
  let new := pw.toInt
  let warn := liWarn d e
  let high := liHigh d e
  let d := modLaser d e i (fun x => { x with pw := pw, run := if warn ≤ new then x.run.or (some (nowNs d)) else none })
  let d := if (warn ≤ old && new < warn) || (old ≤ high && high < new) then raise d (oePage e) 1 else d
  if (chan d (laserChan e i)).state == 2 && (new < warn || high ≤ new) then noteFault d (laserChan e i) false else d
/-- The engine compares an input with RETIRE (R62): falling below it moves all draw away and is one fault. An input in SHADOW is judged by
its range alone. -/
def watchRetire (d : Dev) (e i : Nat) : Dev :=
  let x := laser d e i
  let now := decide (x.pw.toInt < liRetire d e)
  let d := modLaser d e i (fun x => { x with below := now })
  if now && !x.below && (chan d (laserChan e i)).state != 2 then noteFault (moveDraw d e i) (laserChan e i) false else d
/-- Both inputs are compared with RETIRE, as the engine does continuously. -/
def watchInputs (d : Dev) (e : Nat) : Dev := engineDark (watchRetire (watchRetire d e 0) e 1) e

def execLiMeasure (e : Engine) (p0 p1 : W16) (s : State) : Host.Outcome State Fault Refusal :=
  s.onDevF (fun d =>
    wr (watchInputs (setPower (setPower d e 0 p0) e 1 p1) e) (Rg.OE_LI_PWR e) (BitVec.ofNat 32 (p0.toNat + p1.toNat * 65536)))

def execLiSwitchover (e : Engine) (i : Fin 2) (pw : W16) (s : State) : Host.Outcome State Fault Refusal :=
  s.onDevF (fun d => if pw.toInt < liRetire d e then watchInputs (setPower d e i pw) e else d)

/-- R63, R64: 10 s at or above WARN return a SUSPECT input, and light to a dark engine; 10 s within [WARN, HIGH) a SHADOW
input. The count of faults keeps to its window (R383). -/
def execLiRecover (e : Engine) (i : Fin 2) (s : State) : Host.Outcome State Fault Refusal :=
  s.onDev (fun d =>
    let k := laserChan e i
    let x := laser d e i
    let long := match x.run with | some t => 10000000000 ≤ elapsed (nowNs d) t | none => false
    let tested := match x.shadow with | some t => 10000000000 ≤ elapsed (nowNs d) t | none => false
    let d := if long && (engine d e).noLight then modEngine d e (fun y => { y with noLight := false }) else d
    match (chan d k).state with
    | 1 => if long then settleDraw (syncEntry (setState d k 0) k) e else d
    | 2 => if tested && liWarn d e ≤ x.pw.toInt && x.pw.toInt < liHigh d e then
        settleDraw (passShadow (modLaser d e i (fun y => { y with shadow := none })) k) e
      else d
    | _ => d)

/-- Powered hours since the last swap: hours of 703,125,000,000 periods of 5.12 ns, which no step of the timebase changes (R61). -/
def poweredHours (d : Dev) (e : Nat) : Nat := (engine d e).hours + elapsed d.life.powered (engine d e).since / 703125000000

def execLiRotate (e : Engine) (s : State) : Host.Outcome State Fault Refusal :=
  s.onDev (fun d =>
    if rb d (Rg.OE_CTRL e) Fl.OE_CTRL_ROTATE_EN && (chan d (laserChan e 0)).state == 0 && (chan d (laserChan e 1)).state == 0 &&
        !(page d (oePage e)).held && rf d (Rg.OE_LI_SHARE e) Fl.OE_LI_SHARE_ROTATE_HOURS ≤ poweredHours d e then
      modEngine d e (fun x => { x with major := !x.major, hours := 0, since := d.life.powered })
    else d)

def execLi0Restore (e : Engine) (m : Master) (s : State) : Host.Outcome State Fault Refusal :=
  s.onDev (fun d => guardWrite d (Rg.OE_CTRL e) m (fun d => restoreChan d (laserChan e 0)))
def execLi1Restore (e : Engine) (m : Master) (s : State) : Host.Outcome State Fault Refusal :=
  s.onDev (fun d => guardWrite d (Rg.OE_CTRL e) m (fun d => restoreChan d (laserChan e 1)))

/-! ## Lanes (R66 to R68) -/

/-- The lane may lock: lit, not RETIRED, and carrying no test pattern in force. -/
def laneMayLock (d : Dev) (l : Nat) : Bool :=
  laneLit d l && (chan d (laneChan l)).state != 3 &&
    !rb d (Rg.OE_LANE_CTRL (l / 16) (l % 16)) Fl.OE_LANE_CTRL_PRBS_GEN

/-- R66: the monitor sets the lane dark, until a RESTORE of the lane, a power-up or a warm reset (DESIGN CHOICE, log 228). -/
def execLaneOverpower (l : Lane) (s : State) : Host.Outcome State Fault Refusal :=
  s.onDevF (fun d => noteFault (loseLock (modLane d l (fun x => { x with dark := true })) [l.val]) (laneChan l) false)

/-- A heater retune: the heater's setting, a miss outside the window, and the loss of ring lock as one fault. -/
def execHeaterRetune (l : Lane) (heater : Nat) (inWindow locked : Bool) (s : State) : Host.Outcome State Fault Refusal :=
  s.onDevF (fun d =>
    let e := l.val / 16
    let d := wf d (Rg.OE_LANE_RING e (l.val % 16)) Fl.OE_LANE_RING_HEATER (min 4095 heater)
    let d := if inWindow then d else raise (bump d (Rg.OE_CAL_MISS_CNT e) 1) (oePage e) 3
    let d := if (lane d l).ring && !locked then noteFault d (laneChan l) false else d
    modLane d l (fun x => { x with ring := locked }))

/-! ## FEC and link state (R69 to R72) -/

/-- R69, R84: 1 to 15 symbol errors are corrected, more are uncorrectable; a codeword without an error counts in FEC_BIN[0] (DEDUCED, log 229). The
alignment markers that came in error with it count in PCS_AM_ERR. -/
def execFecCodeword (p : Port) (w : Codeword) (s : State) : Host.Outcome State Fault Refusal :=
  s.onDev (fun d =>
    let q := p.val / 4
    let k := p.val % 4
    if !portBegins d p then d
    else
      let n := (w.errs.take (portLanes d p).length).foldl (· + ·) 0
      let d := bump (bump d (Rg.FEC_CW q k) 1) (Rg.PCS_AM_ERR q k) w.amErr
      if n ≤ 15 then
        let d := bump d (Rg.FEC_BIN q k n) 1
        (List.range (portLanes d p).length).foldl (fun d i => bump d (Rg.FEC_SYM_CORR q ((k + i) % 4)) (w.errs.getD i 0)) d
      else raise (bump d (Rg.FEC_CW_UNCORR q k) 1) (quadPage q) 1)

/-- Lock and fault signalling of a port change: a lane that loses lock counts a fault (R382). -/
def execLinkChange (p : Port) (locks : BitVec 4) (localFault remoteFault : Bool) (s : State) : Host.Outcome State Fault Refusal :=
  s.onDevF (fun d =>
    if !portBegins d p then d
    else
      let ls := portLanes d p
      let new := ofBits ((List.range ls.length).filter (fun i => locks.toNat.testBit (p.val % 4 + i) && laneMayLock d (p.val + i)))
      let old := (port d p).locks
      let lost := (List.range ls.length).filter (fun i => old.testBit i && !new.testBit i)
      let d := lost.foldl (fun d i => noteFault d (laneChan (p.val + i)) false) d
      let d := loseLock d (lost.map (fun i => p.val + i))
      let d := if new == 2 ^ ls.length - 1 then signalFault d p false else d
      judgePort (modPort d p (fun x => { x with locks := new, lfault := localFault, rfault := remoteFault })) p)

/-! ## Flow control (R73 to R76) -/

def execPauseExpiry (p : Port) (c : Class) (s : State) : Host.Outcome State Fault Refusal :=
  s.onDev (fun d => if pauseEnd d p c != 0 && !paused d p c then setPause d p c 0 else d)

/-- A MAC control frame from the port: padded to 64 bytes with its FCS. -/
def controlFrame (d : Dev) (p : Nat) (body : List Byte) : List Byte :=
  let b := [0x01, 0x80, 0xC2, 0x00, 0x00, 0x01] ++ beBytes 6 (ownMac d p) ++ [0x88, 0x08] ++ body
  let b := b ++ List.replicate (60 - b.length) 0
  b ++ fcs b

/-- The flow-control frame for the classes in `on` (pause) and `off` (time zero). -/
def flowFrame (d : Dev) (p on off : Nat) : List Byte :=
  let q := rf d (Rg.QUAD_PAUSE_TIME (p / 4)) Fl.QUAD_PAUSE_TIME_QUANTA
  if fcMode d p == 1 then controlFrame d p ([0x00, 0x01] ++ beBytes 2 (if on == 0 then 0 else q))
  else controlFrame d p ([0x01, 0x01] ++ beBytes 2 ((on ||| off) % 256) ++
    (List.range 8).flatMap (fun c => beBytes 2 (if on.testBit c then q else 0)))

/-- Send it and count it: a frame of 64 bytes (R84). -/
def sendFlow (d : Dev) (p on off : Nat) : Dev :=
  let q := p / 4
  let k := p % 4
  let d := emit d (.flow p (flowFrame d p on off))
  let d := bump (bump d (Rg.TX_FRAMES q k) 1) (Rg.TX_OCTETS q k) 64
  let d := bump d (if fcMode d p == 1 then Rg.TX_PAUSE q k else Rg.TX_PFC q k) 1
  let cls := if fcMode d p == 1 then (if on == 0 then [] else List.range 8) else bitsOf on 8
  cls.foldl (fun d c => bump d (Rg.TX_XOFF q k c) 1) d

/-- The port sends for the classes whose cause has begun or ended since it last sent; a held quad sends idle (R72). -/
def execXoff (p : Port) (s : State) : Host.Outcome State Fault Refusal :=
  s.onDev (fun d =>
    let now := xoffClasses d p
    let was := (port d p).xoffSent
    if !portUp d p || quadHeld d (p.val / 4) || fcMode d p == 0 || now == was then d
    else
      let on := if fcMode d p == 1 then now else ofBits ((List.range 8).filter (fun c => now.testBit c && !was.testBit c))
      let off := ofBits ((List.range 8).filter (fun c => was.testBit c && !now.testBit c))
      let t := tbIn d (portZone p)
      let starts := if fcMode d p == 1 then (if was == 0 then [0] else []) else bitsOf on 8
      let d := modPort d p (fun x => { x with xoffSent := now, xoffAt := starts.foldl (fun l c => tset zeroN l c t) x.xoffAt })
      -- in PAUSE mode a frame goes out only when the first cause begins or the last one ends
      if fcMode d p == 1 && was != 0 && now != 0 then d else sendFlow d p on off)

/-- XOFF again for the classes whose cause persists and whose last XOFF half of QUANTA has elapsed; in PAUSE mode for the port. -/
def execXoffRepeat (p : Port) (s : State) : Host.Outcome State Fault Refusal :=
  s.onDev (fun d =>
    let x := port d p
    let t := tbIn d (portZone p)
    let q := rf d (Rg.QUAD_PAUSE_TIME (p.val / 4)) Fl.QUAD_PAUSE_TIME_QUANTA
    let due (c : Nat) : Bool := quanta25 d p q ≤ 50 * elapsed t (tget zeroN x.xoffAt (if fcMode d p == 1 then 0 else c))
    let l := (List.range 8).filter (fun c => x.xoffSent.testBit c && (xoffClasses d p).testBit c && due c)
    if portUp d p && !quadHeld d (p.val / 4) && !l.isEmpty then
      let at_ := if fcMode d p == 1 then [0] else l
      sendFlow (modPort d p (fun y => { y with xoffAt := at_.foldl (fun a c => tset zeroN a c t) y.xoffAt })) p (ofBits l) 0
    else d)

end Sys2Proof.Machine
end

