-- ==== Sys2Proof/Machine/CaddyOps.lean ====
section
/-!
DEFINITION. Caddy: Kept state and its dirty set, journal pages, snapshots, configuration saves, table checkpoints, images
(R474 to R485), what a retained-state shutdown writes, and the state of a module without supply (R455, R522).
-/

namespace Sys2Proof.Machine
open Sys2Proof

def modCaddy (d : Dev) (f : Caddy → Caddy) : Dev := { d with caddy := f d.caddy }
def modLife (d : Dev) (f : Life → Life) : Dev := { d with life := f d.life }
/-- CDY page 0 events. -/
def cdyEvent (d : Dev) (n : Nat) : Dev := raise d (Rg.pageOf Rg.baseCDY) n

/-! ## Kept state (R475) -/

/-- The Kept bits of the register at `a`: those of its block, PAGE_OWNER and INT_MASK of its page (R36). -/
def keptMask (a : Nat) : Nat :=
  match pageId (a / 0x1000) with
  | none => 0
  | some p =>
    if a % 0x1000 == 0x10 then 3
    else if a % 0x1000 == 0x24 then (match pageEvents p with | some (_, n) => 2 ^ n - 1 | none => 0)
    else match regAt p (a % 0x1000) with
      | none => 0
      | some (r, _) => r.fields.foldl (fun m f => if f.kept then m ||| maskF ⟨f.hi, f.lo⟩ else m) 0

/-- The Kept bits among `v`. -/
def keptPart (a : Nat) (v : W32) : W32 := v &&& BitVec.ofNat 32 (keptMask a)
/-- Factory values of the Kept bits. -/
def keptFactory (a : Nat) : W32 := keptPart a (factory a)
/-- The value in effect of the register at `a`, page header included. -/
def keptVal (d : Dev) (a : Nat) : W32 :=
  if a % 0x1000 == 0x10 then (page d (a / 0x1000)).owner.setWidth 32
  else if a % 0x1000 == 0x24 then (page d (a / 0x1000)).intMask else rd d a

/-- A change of the bits `m` of the register at `a` has taken effect: its Kept bits join the dirty set. -/
def markDirty (d : Dev) (a m : Nat) : Dev :=
  let k := BitVec.ofNat 32 (m &&& keptMask a)
  if k = 0 then d
  else modCaddy d (fun c => { c with dirty := tmod zero32 c.dirty a (fun x => x ||| k), dirtyAt := c.dirtyAt.or (some (nowNs d)) })

/-- Kept state as it stands: registers and page headers whose Kept bits differ from their factory values. -/
def keptNow (d : Dev) : Tab W32 :=
  let regs := d.regs.map (fun e => (e.1, keptPart e.1 e.2))
  let heads := d.pages.flatMap (fun e => [0x10, 0x24].map (fun o => (0x1000 * e.1 + o, keptPart (0x1000 * e.1 + o) (keptVal d (0x1000 * e.1 + o)))))
  (regs ++ heads).foldl (fun t e => tset keptFactory t e.1 e.2) []

/-! ## Snapshots (R477 to R479) -/

/-- The committed snapshot with the higher sequence number; whether it lies in area 1. -/
def lastSnap (c : Caddy) : Option (Bool × Snap) :=
  match c.snap0, c.snap1 with
  | some a, some b => some (if a.seq < b.seq then (true, b) else (false, a))
  | some a, none => some (false, a)
  | none, some b => some (true, b)
  | none, none => none

/-- A snapshot of Kept state, with the next sequence number. -/
def takeSnap (d : Dev) : Snap := { seq := d.caddy.sseq + 1, upTo := d.caddy.jseq, kept := keptNow d }

/-- The snapshot's trailer is committed: it takes the other area, and the journal pages it includes are freed. -/
def commitSnap (d : Dev) (x : Snap) : Dev :=
  let one := match lastSnap d.caddy with | some (b, _) => !b | none => false
  let d := modCaddy d (fun c => { c with
    snap0 := if one then c.snap0 else some x
    snap1 := if one then some x else c.snap1
    sseq := x.seq, snapping := none, torn := false, fresh := false
    journal := c.journal.filter (fun p => x.upTo < p.seq) })
  let d := wf (wr d Rg.CDY_SNAP_SEQ (BitVec.ofNat 32 x.seq)) Rg.CDY_STATUS Fl.CDY_STATUS_AREA (b2n one)
  cdyEvent (bump d Rg.CDY_SNAPSHOTS 1) 0

/-! ## The journal (R475 to R477) -/

/-- Records that a page of 4 KiB holds. -/
def recsPerPage : Nat := max 1 (4096 / max 1 Config.recordBytes)
/-- A journal page with `recs` is committed. -/
def commitPage (d : Dev) (recs : List (Nat × W32 × W32)) : Dev :=
  let n := d.caddy.jseq + 1
  let d := modCaddy d (fun c => { c with journal := c.journal ++ [{ seq := n, recs := recs }], jseq := n, progs := (nowNs d :: c.progs).take 36000 })
  bump (wr d Rg.CDY_JRNL_SEQ (BitVec.ofNat 32 n)) Rg.CDY_JOURNAL_PAGES 1
/-- The dirty set as records. -/
def dirtyRecs (d : Dev) : List (Nat × W32 × W32) := d.caddy.dirty.map (fun e => (e.1, e.2, keptVal d e.1 &&& e.2))
/-- Program the dirty set, a page of 4 KiB at a time. The first durable change after a FACTORY start writes a full snapshot (R484). -/
def programPage (d : Dev) : Dev :=
  if d.caddy.dirty.isEmpty then d
  else
    let clean (d : Dev) : Dev := modCaddy d (fun c => { c with dirty := [], dirtyAt := none, deferred := false })
    if d.caddy.fresh then
      clean (commitSnap (modCaddy d (fun c => { c with snapAt := some (nowNs d), jseq := c.jseq + 1 })) (takeSnap d))
    else clean ((runsOf recsPerPage d.caddy.dirty.length (dirtyRecs d)).foldl commitPage d)

/-- Programs within the last `ns`. -/
def progsIn (d : Dev) (ns : Nat) : Nat := (d.caddy.progs.filter (fun t => elapsed (nowNs d) t < ns)).length
/-- The budget of R475 defers a program: 36,000 in the last hour, or 100 in the last second. -/
def overBudget (d : Dev) : Bool := 36000 ≤ progsIn d 3600000000000 || 100 ≤ progsIn d 1000000000
/-- A page is due: 4 KiB of records, or 100 ms since its first. -/
def pageDue (d : Dev) : Bool :=
  match d.caddy.dirtyAt with
  | some t => 4096 ≤ d.caddy.dirty.length * max 1 Config.recordBytes || 100000000 ≤ elapsed (nowNs d) t
  | none => false

/-- Kept values at power-up: the latest snapshot and the pages that follow it in unbroken order; none without a snapshot. -/
def keptStored (c : Caddy) : Option (Tab W32) :=
  match lastSnap c with
  | none => none
  | some (_, s) =>
    some (c.journal.foldl (fun (acc : Nat × Tab W32) p =>
      if p.seq == acc.1 then
        (acc.1 + 1, p.recs.foldl (fun t r => tmod keptFactory t r.1 (fun x => (x &&& ~~~r.2.1) ||| (r.2.2 &&& r.2.1))) acc.2)
      else acc) (s.upTo + 1, s.kept)).2

/-! ## Configuration saves (R480) -/

/-- The committed save with the higher sequence number; whether it lies in area 1. -/
def lastSave (c : Caddy) : Option (Bool × CfgSave) :=
  match c.cfg0, c.cfg1 with
  | some a, some b => some (if a.seq < b.seq then (true, b) else (false, a))
  | some a, none => some (false, a)
  | none, some b => some (true, b)
  | none, none => none

/-- Save edit memory and Carafe in the other area. -/
def saveConfig (d : Dev) : Dev :=
  let last := lastSave d.caddy
  let one := match last with | some (b, _) => !b | none => false
  let x : CfgSave := { seq := (match last with | some (_, y) => y.seq + 1 | none => 1), edit := d.egr.editMem, groups := d.egr.groups, members := d.egr.members }
  bump (modCaddy d (fun c => { c with
    cfg0 := if one then c.cfg0 else some x
    cfg1 := if one then some x else c.cfg1
    cfgDirty := false, saves := nowNs d :: c.saves, saveWant := false })) Rg.CDY_CFG_SAVES 1 |> (modLife · (fun l => { l with cfgAvail := true }))

/-- Saves begun within the last `ns`. -/
def savesIn (d : Dev) (ns : Nat) : Nat := (d.caddy.saves.filter (fun t => elapsed (nowNs d) t < ns)).length

/-! ## Table checkpoints (R481) -/

/-- The entries of table `t` at a place, unlocked and without stamps, by region and position. -/
def ckptEnts (d : Dev) (pl t : Nat) : Tab TEnt :=
  (d.tbl.ents.filter (fun e => e.1 / 2 ^ 33 == 64 * pl + t && e.2.valid)).map (fun e => (e.1 % 2 ^ 33, { e.2 with stamp := 0, lock := none }))

/-- The contents of every enabled on-die table: replicated ones from their masters, local ones from their zones. -/
def takeCkpt (d : Dev) : List CkptTbl :=
  (List.range 32).flatMap (fun t =>
    let zs := (List.range 4).filter (fun z => (descAt d (1 + z) t).ty != 0)
    let loc := (zs.filter (fun z => !(descAt d (1 + z) t).repl)).map (fun z =>
      ({ zone := z, tbl := t, regs := descRegs d z t, ents := ckptEnts d (1 + z) t } : CkptTbl))
    if zs.any (fun z => (descAt d (1 + z) t).repl) then
      { zone := 4, tbl := t, regs := descRegs d 0 t, ents := ckptEnts d 0 t } :: loc
    else loc)

def saveCkpt (d : Dev) : Dev :=
  let x := takeCkpt d
  bump (modCaddy d (fun c => { c with
    ckpt0 := if c.ckptLast then some x else c.ckpt0
    ckpt1 := if c.ckptLast then c.ckpt1 else some x
    ckptLast := !c.ckptLast, ckptAt := some (nowNs d), ckptWant := false })) Rg.CDY_CHECKPOINTS 1 |> (modLife · (fun l => { l with ckptAvail := true }))
/-- The latest committed checkpoint. -/
def lastCkpt (c : Caddy) : Option (List CkptTbl) := if c.ckptLast then c.ckpt1 else c.ckpt0
/-- The period of checkpoints has passed since the last one. -/
def ckptDue (d : Dev) : Bool :=
  match d.caddy.ckptAt with
  | some t => rf d Rg.CDY_CTRL Fl.CDY_CTRL_CKPT_MIN * 60000000000 ≤ elapsed (nowNs d) t
  | none => true

/-! ## Images (R180) -/

/-- Setting a VALID bit writes the bank's image to Caddy: the words of the first core in service. -/
def saveImage (d : Dev) (z b : Nat) : Dev :=
  let k := (serviceCores d z).headD 0
  let n := (1 + z) * 65536 + imageArr (32 * z + k) b
  let ws : Tab W64 := (d.core.sram.filter (fun e => e.1 / 2 ^ 20 == n && e.2.valid && e.2.data != 0)).map (fun e => (e.1 % 2 ^ 20, e.2.data))
  let d := modLife d (fun l => { l with imgAvail := setBit l.imgAvail (2 * z + b) })
  modCaddy d (fun c => { c with images := tset (fun _ => []) c.images (2 * z + b) ws, imgValid := setBit c.imgValid (2 * z + b) })
/-- Load a bank of a zone from the images area into every core. -/
def loadImage (d : Dev) (z b : Nat) : Dev :=
  let ws := tget (fun _ => []) d.caddy.images (2 * z + b)
  (List.range 26).foldl (fun d k =>
    let n := imageArr (32 * z + k) b
    ws.foldl (fun d e => setSword d (1 + z) n e.1 { valid := true, data := e.2 }) (clearSram d (1 + z) n)) d

/-! ## Loss of supply (R455, R484, R522) -/

/-- What stays without supply: everything that Caddy has committed, the input lands, and the laser sources, which keep their last
state (R522). `wear`: the wear records take the engines' hours. -/
def offDev (d : Dev) (wear : Bool) : Dev :=
  let x : Dev := {
    mc := 0
    free := d.free
    out := d.out
    rdata := d.rdata
    ras := { map := d.ras.map }
    ket := { tripped := d.ket.tripped }
    line := { permit := d.line.permit }
    mgt := { sources := d.mgt.sources }
    caddy := { d.caddy with
      dirty := [], dirtyAt := none, progs := [], deferred := false, snapping := none, snapAt := none, snapWant := false
      torn := d.caddy.torn || d.caddy.snapping.isSome
      fresh := false, flushWant := false, cfgDirty := false, cfgAt := 0, saves := [], autoAt := none, saveWant := false
      ckptAt := none, ckptWant := false, switchAt := none, readyAt := none
      hours := if wear then (List.range 16).foldl (fun t e => tset zeroN t e (poweredHours d e)) d.caddy.hours else d.caddy.hours } }
  wf (wf x Rg.GPIO_IN Fl.GPIO_IN_IN (rf d Rg.GPIO_IN Fl.GPIO_IN_IN)) Rg.TWN_STATUS Fl.TWN_STATUS_ALIVE_IN (rf d Rg.TWN_STATUS Fl.TWN_STATUS_ALIVE_IN)

/-- The retained-state shutdown: PG_OUT low, every journal and retirement record written, the converters off. -/
def retainedShutdown (d : Dev) : Dev :=
  let d := raise (modTwin (modLife d (fun l => { l with pgOut := false })) (fun w => { w with toggling := false })) (Rg.pageOf Rg.basePWR) 3
  offDev (addLog (journalMap (programPage d)) 2 0) true

end Sys2Proof.Machine
end

