-- ==== Sys2Proof/Machine/Caddy.lean ====
section
/-!
DEFINITION. The commands of Caddy and of the firmware store (R474 to R487).
-/

namespace Sys2Proof.Machine
open Sys2Proof

/-- JOURNAL_PROGRAM: a page that is due is programmed; one that the budget defers waits and counts once. -/
def execJournalProgram (s : State) : Host.Outcome State Fault Refusal :=
  s.onDev (fun d =>
    if d.ket.off || !pageDue d then d
    else if overBudget d then
      if d.caddy.deferred then d else bump (modCaddy d (fun c => { c with deferred := true })) Rg.CDY_DEFERRED 1
    else programPage d)

/-- FLUSH: the flush that entering hub level 4 or a module stop has made due (R476). -/
def execFlush (s : State) : Host.Outcome State Fault Refusal :=
  s.onDev (fun d => if d.caddy.flushWant then programPage (modCaddy d (fun c => { c with flushWant := false })) else d)

/-- SYNC programs the dirty set now. -/
def cdySync (d : Dev) : Dev := programPage d
def execSync (m : Master) (s : State) : Host.Outcome State Fault Refusal := s.onDev (fun d => guardWrite d Rg.CDY_CMD m cdySync)

/-- 10 s have passed since the start of the last snapshot, and none is being written. -/
def snapReady (d : Dev) : Bool :=
  d.caddy.snapping.isNone && (match d.caddy.snapAt with | some t => 10000000000 ≤ elapsed (nowNs d) t | none => true)
/-- A snapshot starts: it holds Kept state as it stands. -/
def snapStart (d : Dev) : Dev :=
  let x := takeSnap d
  modCaddy d (fun c => { c with snapping := some x, snapAt := some (nowNs d), snapWant := false })

/-- SNAPSHOT asks for one: it starts now, or when 10 s have passed. -/
def cdySnapshot (d : Dev) : Dev := if snapReady d then snapStart d else modCaddy d (fun c => { c with snapWant := true })
def execSnapshot (m : Master) (s : State) : Host.Outcome State Fault Refusal := s.onDev (fun d => guardWrite d Rg.CDY_CMD m cdySnapshot)

/-- A journal page has been committed since the latest snapshot. -/
def pageSince (d : Dev) : Bool :=
  match lastSnap d.caddy with
  | some (_, x) => x.upTo < d.caddy.jseq
  | none => !d.caddy.journal.isEmpty

def execAutoSnapshot (s : State) : Host.Outcome State Fault Refusal :=
  s.onDev (fun d => if !d.ket.off && snapReady d && (pageSince d || d.caddy.snapWant) then snapStart d else d)

def execSnapshotCommitted (s : State) : Host.Outcome State Fault Refusal :=
  s.onDev (fun d => match d.caddy.snapping with | some x => commitSnap d x | none => d)

/-- SAVE_CFG: at once, or 60 s after the start of a save begun in the last 60 s. -/
def cdySave (d : Dev) : Dev := if savesIn d 60000000000 == 0 then saveConfig d else modCaddy d (fun c => { c with saveWant := true })
def execSaveCfg (m : Master) (s : State) : Host.Outcome State Fault Refusal := s.onDev (fun d => guardWrite d Rg.CDY_CMD m cdySave)

/-- An automatic save is due: 60 s after the last write, 10 minutes after the previous one, within 144 in 24 hours. -/
def autoSaveDue (d : Dev) : Bool :=
  rb d Rg.CDY_CTRL Fl.CDY_CTRL_AUTO_CFG && d.caddy.cfgDirty && 60000000000 ≤ elapsed (nowNs d) d.caddy.cfgAt &&
    (match d.caddy.autoAt with | some t => 600000000000 ≤ elapsed (nowNs d) t | none => true) && savesIn d 86400000000000 < 144

/-- AUTO_CFG_SAVE: the automatic save, or a commanded one that has waited its 60 s. -/
def execAutoCfgSave (s : State) : Host.Outcome State Fault Refusal :=
  s.onDev (fun d =>
    if d.caddy.saveWant && savesIn d 60000000000 == 0 then saveConfig d
    else if !d.ket.off && autoSaveDue d then saveConfig (modCaddy d (fun c => { c with autoAt := some (nowNs d) })) else d)

/-- CHECKPOINT asks for one within the limit of CKPT_MIN. -/
def cdyCheckpoint (d : Dev) : Dev :=
  if !rb d Rg.CDY_CTRL Fl.CDY_CTRL_CKPT_EN then d
  else if ckptDue d then saveCkpt d else modCaddy d (fun c => { c with ckptWant := true })
def execCheckpoint (m : Master) (s : State) : Host.Outcome State Fault Refusal := s.onDev (fun d => guardWrite d Rg.CDY_CMD m cdyCheckpoint)

def execAutoCheckpoint (s : State) : Host.Outcome State Fault Refusal :=
  s.onDev (fun d => if !d.ket.off && rb d Rg.CDY_CTRL Fl.CDY_CTRL_CKPT_EN && ckptDue d then saveCkpt d else d)

/-- ERASE with its key: snapshots, journal, saves, checkpoints and images are invalid; values in effect stay. -/
def cdyErase (d : Dev) : Dev :=
  modCaddy d (fun c => { c with
    snap0 := none, snap1 := none, snapping := none, torn := false, journal := [], cfg0 := none, cfg1 := none, ckpt0 := none, ckpt1 := none
    images := [], imgValid := 0 })
/-- ERASE without the key is a reserved value. -/
def execErase (m : Master) (key : W16) (s : State) : Host.Outcome State Fault Refusal :=
  s.onDev (fun d => guardWrite d Rg.CDY_CMD m (fun d => if key = 0xE5 then cdyErase d else rsvd d Rg.CDY_CMD m))

/-- BAD_BLOCK: a block that fails to program or erase is retired and its contents moved. -/
def execBadBlock (_b : Nat) (s : State) : Host.Outcome State Fault Refusal :=
  s.onDev (fun d => if d.ket.off then d else cdyEvent (bump (bump d Rg.CDY_PROG_FAIL 1) Rg.CDY_BAD_BLOCKS 1) 1)

/-! ## Firmware store and live handover (R487) -/

def fwState (d : Dev) : Nat := rf d Rg.CDY_FW_CTRL Fl.CDY_FW_CTRL_STATE
/-- STATE changes: event FW_STATE. -/
def setFw (d : Dev) (st : Nat) : Dev := if fwState d == st then d else cdyEvent (wf d Rg.CDY_FW_CTRL Fl.CDY_FW_CTRL_STATE st) 3
def runningCopy (d : Dev) : Bool := rb d Rg.CDY_FW_CTRL Fl.CDY_FW_CTRL_RUNNING
/-- Version of a copy. -/
def copyVersion (c : Caddy) (b : Bool) : W32 := if b then c.versions.2 else c.versions.1
def setVersion (c : Caddy) (b : Bool) (v : W32) : Caddy := { c with versions := if b then (c.versions.1, v) else (v, c.versions.2) }
/-- MGT page 0 shows the copy that runs, READY. -/
def showCopy (d : Dev) (b : Bool) : Dev :=
  wr (wr d Rg.MGT_FW (BitVec.ofNat 32 (b2n b + 2))) Rg.MGT_FW_VERSION (copyVersion d.caddy b)

/-- STORE while storing or in handover is a reserved value. -/
def fwStore (d : Dev) (m : Master) : Dev := if fwState d == 1 || fwState d == 4 then rsvd d Rg.CDY_FW_CTRL m else setFw d 1
def execStore (m : Master) (s : State) : Host.Outcome State Fault Refusal :=
  s.onDev (fun d => guardWrite d Rg.CDY_FW_CTRL m (fun d => fwStore d m))

/-- STORE_DONE: Hulvalos has checked the copy's header and CRC32C. -/
def execStoreDone (ok : Bool) (version : W32) (s : State) : Host.Outcome State Fault Refusal :=
  s.onDev (fun d =>
    if fwState d != 1 then d
    else if ok then setFw (modCaddy d (fun c => setVersion c (!runningCopy d) version)) 2 else setFw d 3)

/-- SWITCH with a STATE other than 2 is a reserved value. The hub's threads and READY stop while state is handed over. -/
def fwSwitch (d : Dev) (m : Master) : Dev :=
  if fwState d != 2 then rsvd d Rg.CDY_FW_CTRL m
  else
    let d := setFw (modCaddy d (fun c => { c with switchAt := some (nowNs d), readyAt := none })) 4
    wf d Rg.MGT_FW Fl.MGT_FW_READY 0
def execSwitch (m : Master) (s : State) : Host.Outcome State Fault Refusal :=
  s.onDev (fun d => guardWrite d Rg.CDY_FW_CTRL m (fun d => fwSwitch d m))

/-- HANDOVER_DONE: first the stored copy runs and is READY; once it has been so for 10 s it becomes the boot copy. -/
def execHandoverDone (s : State) : Host.Outcome State Fault Refusal :=
  s.onDev (fun d =>
    if fwState d != 4 then d
    else match d.caddy.readyAt with
      | none =>
        let b := !runningCopy d
        let d := showCopy (wf d Rg.CDY_FW_CTRL Fl.CDY_FW_CTRL_RUNNING (b2n b)) b
        modCaddy d (fun c => { c with readyAt := some (nowNs d) })
      | some t =>
        if elapsed (nowNs d) t < 10000000000 then d
        else
          let b := runningCopy d
          let d := modCaddy d (fun c => { c with bootCopy := b, switchAt := none, readyAt := none })
          addLog (setFw (wf d Rg.CDY_FW_CTRL Fl.CDY_FW_CTRL_BOOT_COPY (b2n b)) 0) 7 (copyVersion d.caddy b).toNat)

/-- HANDOVER_REVERT: not READY within 2 s of SWITCH: the old copy resumes. -/
def execHandoverRevert (s : State) : Host.Outcome State Fault Refusal :=
  s.onDev (fun d =>
    match fwState d == 4 && d.caddy.readyAt.isNone, d.caddy.switchAt with
    | true, some t =>
      if elapsed (nowNs d) t < 2000000000 then d
      else
        let d := wf (modCaddy d (fun c => { c with switchAt := none })) Rg.MGT_FW Fl.MGT_FW_READY 1
        addLog (setFw d 5) 8 (copyVersion d.caddy (runningCopy d)).toNat
    | _, _ => d)

end Sys2Proof.Machine
end

