-- ==== Sys2Proof/Machine/EventOps.lean ====
section
/-!
DEFINITION. Readiness, selection, claim words and completes of the event controller, and ALARM_N (R424 to R433).
-/

namespace Sys2Proof.Machine
open Sys2Proof

/-- Source `n` belongs to an event of some page (R422, R423). -/
def realSource (n : Nat) : Bool :=
  allPages.any (fun pg => match (pageId pg).bind pageEvents with | some (b, c) => b ≤ n && n < b + c | none => false)
/-- The event of the CORE pages that shares source `n`: its zone and event number (R424). -/
def coreSource (n : Nat) : Option (Nat × Nat) :=
  if 128 ≤ n && 59 ≤ (n - 128) % 96 && (n - 128) % 96 < 63 then some ((n - 128) / 96, (n - 128) % 96 - 59) else none

def srcCfg (d : Dev) (n : Nat) (f : Fld) : Nat := rf d (Rg.SRC_CFG n) f
/-- A source is ready for its target (R425, R433). -/
def srcReady (d : Dev) (n : Nat) : Bool :=
  let s := src d n
  s.pending && !s.active && !s.held && srcCfg d n Fl.SRC_CFG_LOW_MASK == 0 && (srcCfg d n Fl.SRC_CFG_LOW_CO_EN == 0 || s.released)
/-- Ready sources of target `t`, in order of number. -/
def readyFor (d : Dev) (t : Nat) : List Nat :=
  (d.ic.srcs.map (·.1)).filter (fun n => srcReady d n && srcCfg d n Fl.SRC_CFG_LOW_TARGET == t)
/-- The highest PRIO of a list, the lowest number breaking ties. -/
def topPrio (d : Dev) (l : List Nat) : Option Nat := leastBy (fun n => (15 - srcCfg d n Fl.SRC_CFG_LOW_PRIO) * 512 + n) l
/-- The source selected for target `t`; none while selections are stopped. -/
def selected (d : Dev) (t : Nat) : Option Nat := if rb d Rg.IC_CTRL Fl.IC_CTRL_EN then topPrio d (readyFor d t) else none

/-- CORE of a claim word or item. -/
def srcCore (d : Dev) (n : Nat) : Nat := match coreSource n with | some _ => (lowest (src d n).cores 26).getD 0 | none => 0
/-- The claim word of a source (R428). -/
def claimWord (d : Dev) (n : Nat) : W32 :=
  let s := src d n
  BitVec.ofNat 32 (n + 1 + s.count.toNat * 2 ^ 10 + b2n s.merged * 2 ^ 18 + srcCore d n * 2 ^ 24)
/-- A source is claimed by target `t`. -/
def claimSrc (d : Dev) (n t : Nat) : Dev :=
  modSrc d n (fun s => { s with active := true, pending := false, count := 0, merged := false, released := false, requested := false, target := t })
/-- ACTIVE ends; a source left PENDING becomes ready again, or is held. -/
def endActive (d : Dev) (n : Nat) : Dev := coalesce (modSrc d n (fun s => { s with active := false })) n false

/-- The ALARM_N target's claim word, as STATUS reports it (R426). -/
def alarmCause (d : Dev) : W32 := match selected d 6 with | some n => claimWord d n | none => 0

/-- The pin of target 4, 5 or 6 is low (R426, R430). -/
def pinLow (d : Dev) (t : Nat) : Bool :=
  (selected d t).isSome || d.mc < tget zeroN d.ic.pinUntil t || (t == 6 && (d.life.stopped || d.ket.tripped))

/-- ALARM_N falls: an in-band interrupt goes out when it is enabled (R415). -/
def watchAlarm (d : Dev) : Dev :=
  let now := pinLow d 6
  let was := d.life.alarm
  let d := { d with life := { d.life with alarm := now } }
  if now && !was && d.mgt.i3cEv.testBit 0 then emit d .i3cIbi else d

/-- SRC_CFG of a source has changed from `old`. Without CO_EN it is no longer held; masked, or routed to another target, it requests its vector
anew once it is ready (R426, R429, R433; DEDUCED, log 266). -/
def srcRouted (d : Dev) (n : Nat) (old : W32) : Dev :=
  let d := if srcCfg d n Fl.SRC_CFG_LOW_CO_EN == 0 && (src d n).held then modSrc d n (fun s => { s with held := false }) else d
  let anew := srcCfg d n Fl.SRC_CFG_LOW_MASK == 1 || getF old Fl.SRC_CFG_LOW_TARGET != srcCfg d n Fl.SRC_CFG_LOW_TARGET
  let d := if anew && (src d n).requested then modSrc d n (fun s => { s with requested := false }) else d
  watchAlarm (coalesce d n false)

/-- The work item of a kernel delivery (R427). -/
def eventItem (d : Dev) (n : Nat) : W64 :=
  let s := src d n
  BitVec.ofNat 64 (n + b2n s.merged * 2 ^ 9 + s.count.toNat * 2 ^ 10 + srcCore d n * 2 ^ 18 +
    srcCfg d n Fl.SRC_CFG_LOW_KCORE * 2 ^ 48 + srcCfg d n Fl.SRC_CFG_LOW_PRIO * 2 ^ 56 + 2 ^ 60)

/-- The post of the kernel target: a full queue refuses it, once per episode; an isolated zone's queue is out of reach. -/
def postKernel (d : Dev) (n : Nat) : Dev :=
  let pl := srcCfg d n Fl.SRC_CFG_LOW_KPLACE
  if pl != 0 && isolated d (pl - 1) then d
  else if 4096 ≤ (items d pl).length then
    if d.ic.stall then d
    else
      let d := { d with ic := { d.ic with stall := true } }
      raise (wr d Rg.IC_ERR (rd d Rg.IC_ERR ||| 2)) (Rg.pageOf Rg.baseIC) 1
  else
    let d := { d with ic := { d.ic with stall := false } }
    claimSrc (setItems d pl (items d pl ++ [eventItem d n])) n 3

/-- One selection of target `t` and its delivery (R426, R427, R430). -/
def selectFor (d : Dev) (t : Nat) : Dev :=
  if !rb d Rg.IC_CTRL Fl.IC_CTRL_EN then d
  else if t == 1 || t == 2 then
    match topPrio d ((readyFor d t).filter (fun n => !(src d n).requested)) with
    | some n => requestVector (modSrc d n (fun s => { s with requested := true })) (t - 1) (srcCfg d n Fl.SRC_CFG_LOW_VECTOR)
    | none => d
  else if t == 3 then (match selected d 3 with | some n => postKernel d n | none => d)
  else
    match selected d t with
    | some _ => { d with ic := { d.ic with pinUntil := tset zeroN d.ic.pinUntil t (d.mc + 4) } }
    | none => d

end Sys2Proof.Machine
end

