-- ==== Sys2Proof/Machine/KetOps.lean ====
section
/-!
DEFINITION. The Kettle: budget levels and their causes (R453 to R459), background shares (R458), units and their states (R448,
R449), known events (R451); the root loop's references (R438 to R441).
-/

namespace Sys2Proof.Machine
open Sys2Proof

def modKet (d : Dev) (f : Kettle → Kettle) : Dev := { d with ket := f d.ket }
/-- PWR page 0, CLK page 0 and TB page 0 events. -/
def pwrEvent (d : Dev) (n : Nat) : Dev := raise d (Rg.pageOf Rg.basePWR) n
def clkEvent (d : Dev) (n : Nat) : Dev := raise d (Rg.pageOf Rg.baseCLK) n
def tbEvent (d : Dev) (n : Nat) : Dev := raise d (Rg.pageOf Rg.baseTB) n

/-! ## Levels (R453) -/

/-- The sensors of a die: 0 to 15 the hub's, 16 + 12z to 27 + 12z those of zone z. -/
def dieSensors (die : Nat) : List Nat :=
  if die == 4 then List.range 16 else (List.range 12).map (fun i => 16 + 12 * die + i)
/-- The greatest of a list. -/
def maxOf (l : List Nat) : Nat := l.foldl max 0
/-- Level that the die's own sensors ask for. -/
def dieTherm (d : Dev) (die : Nat) : Nat := maxOf ((dieSensors die).map (tget zeroN d.ket.dieTherm))
def hbmTherm (d : Dev) : Nat := maxOf ((List.range 4).map (tget zeroN d.ket.hbmTherm))
/-- Level that the rails feeding a die ask for. -/
def railLevel (d : Dev) (die : Nat) : Nat := maxOf ((d.ket.rails.filter (fun e => Config.railFeeds e.1 die)).map (·.2))

/-- The highest level that any cause gives the die; an isolated zone keeps the one it had, its own sensors apart (R393). -/
def causedLevel (d : Dev) (die : Nat) : Nat :=
  match tget (fun _ => none) d.ket.kept die with
  | some l => max l (dieTherm d die)
  | none =>
    maxOf [rf d Rg.PWR_FORCE Fl.PWR_FORCE_FORCE, 2 * b2n d.ket.crank, 4 * b2n d.ket.vinLow, dieTherm d die, hbmTherm d, d.ket.capLevel, railLevel d die]

/-- PWR_CAUSE. -/
def causeBits (d : Dev) : Nat :=
  b2n d.ket.crank + 2 * b2n d.ket.vinLow + 4 * b2n ((List.range 5).any (fun x => dieTherm d x != 0)) + 8 * b2n (hbmTherm d != 0) +
    16 * b2n (d.ket.capLevel != 0) + 32 * b2n (rf d Rg.PWR_FORCE Fl.PWR_FORCE_FORCE != 0) + 64 * b2n (d.ket.rails.any (fun e => e.2 != 0))

/-- The die takes its level: event LEVEL on a change; the hub's entry into level 4 makes a flush due (R454, R476). -/
def setLevel (d : Dev) (die : Nat) : Dev :=
  let old := level d die
  let new := causedLevel d die
  if new == old then d
  else
    let d := wf d Rg.PWR_LEVELS (Fl.PWR_LEVELS_ZONE die) new
    let d := probeMax (pwrEvent d 0) 9 die new
    if die == 4 && new == 4 then modCaddy d (fun c => { c with flushWant := true }) else d

/-- The level a reading asks for, by its thresholds with hysteresis: level `i` is entered at or above its threshold and left below
the threshold minus HYST. -/
def thermLevel (r : W32) (hyst : Nat) (was : Nat) (t : Int) : Nat :=
  let th (i : Nat) : Int := (r.toNat / 2 ^ (8 * (i - 1)) % 256 : Nat)
  maxOf ((List.range 5).filter (fun i => i != 0 && (th i ≤ t || (i ≤ was && th i - (hyst : Int) ≤ t))))

/-- The start of a run at or above a trip temperature. -/
def markHot (d : Dev) (s : Nat) (hot : Bool) : Dev :=
  modKet d (fun k => { k with hot := tmod (fun _ => none) k.hot s (fun x => if hot then x.or (some (nowNs d)) else none) })

/-- An onset of a thermal cause counts and raises THERM. -/
def thermOnset (was : Nat) (d : Dev) : Dev :=
  let now := causeBits d
  let d := if !was.testBit 2 && now.testBit 2 then pwrEvent (bump d Rg.PWR_THERM_CNT 1) 4 else d
  if !was.testBit 3 && now.testBit 3 then pwrEvent (bump d Rg.PWR_THERM_CNT 1) 4 else d

/-- VIN as the Kettle reads it: PWR_VIN with the lowest value since the last read, and since when it has lain on its side of the
thresholds (R453). -/
def readVin (d : Dev) (mv : Nat) : Dev :=
  let v := min mv 65535
  let now := nowNs d
  let d := { d with ket := { d.ket with
    below6 := if mv < 6000 then d.ket.below6.or (some now) else none
    above6 := if mv < 6000 then none else d.ket.above6.or (some now)
    above45 := if mv < 4500 then none else d.ket.above45.or (some now) } }
  let d := wf d Rg.PWR_VIN Fl.PWR_VIN_VIN_MV v
  wf d Rg.PWR_VIN Fl.PWR_VIN_MIN_MV (min v (rf d Rg.PWR_VIN Fl.PWR_VIN_MIN_MV))

/-- R458: the share of activity `a` in force. -/
def shareNow (d : Dev) (a : Nat) : Nat :=
  if level d 4 == 0 then rf d (Rg.PWR_SHARE a) Fl.PWR_SHARE_CEIL else rf d (Rg.PWR_SHARE a) Fl.PWR_SHARE_FLOOR

/-! ## Units (R448, R449) -/

/-- The threads of a core that run a flight, a child or an item. -/
def coreBusy (d : Dev) (cid : Nat) : Bool :=
  d.core.threads.any (fun e => e.1 / 8 == cid && (e.2.state == 1 || e.2.state == 2 || e.2.state == 4 || e.2.state == 6)) ||
    d.bar.flights.any (fun f => f.loc = .slot cid)
/-- Every queue of a stack is empty. -/
def stackIdle (d : Dev) (s : Nat) : Bool := d.hbm.banks.all (fun e => e.1 / 48 / 32 != s || e.2.q.isEmpty)
/-- The unit has no work: cores 0 to 131, stacks 132 to 135, the lane group of quad q at 136 + q, the table bank b of place p at
200 + 32p + b. -/
def unitIdle (d : Dev) (u : Nat) : Bool :=
  if u < 132 then isCore u && !coreBusy d u
  else if u < 136 then stackIdle d (u - 132)
  else if u < 200 then (List.range 4).all (fun i => !portUp d (4 * (u - 136) + i))
  else if u < 360 then
    let pl := (u - 200) / 32
    if pl == 0 then d.tbl.changes.isEmpty
    else (portQ d (pl - 1)).isEmpty && d.inf.queues.all (fun e => e.1 / 16 / 32 != pl - 1 || 128 ≤ e.1 / 16 || !(e.1 % 16 == 0 || e.1 % 16 == 2))
  else false
/-- A lane group of an enabled port never goes below NAP. -/
def unitStays (d : Dev) (u : Nat) : Bool := 136 ≤ u && u < 200 && (List.range 4).any (fun i => portEnabled d (4 * (u - 136) + i))
/-- The unit is outside every active set and holds no live data. -/
def unitEmpty (d : Dev) (u : Nat) : Bool :=
  if u < 132 then
    (isHub u || !(activeSet d (u / 32)).contains (u % 32)) && d.core.threads.all (fun e => e.1 / 8 != u || e.2.state == 0)
  else if u < 136 then
    rb d (Rg.HBM_CTRL 0) Fl.HBM_CTRL_DORMANT_EN && (List.range 4).all (stackIdle d)
  else if u < 200 then true
  else d.tbl.ents.all (fun e => e.1 / 2 ^ 33 / 64 != (u - 200) / 32)

def modUnit (d : Dev) (u : Nat) (f : UnitPw → UnitPw) : Dev := modKet d (fun k => { k with units := tmod unitDflt k.units u f })
/-- A unit takes a power state; a stack shows it. -/
def setUnit (d : Dev) (u st : Nat) : Dev :=
  let d := modUnit d u (fun x => { x with state := st })
  if 132 ≤ u && u < 136 then
    wf d (Rg.HBM_STATUS (u - 132)) Fl.HBM_STATUS_STATE (match st with | 0 => 2 | 1 => 3 | 2 => 4 | _ => 6)
  else d
/-- A stack that is off or training takes no unit state. -/
def unitExists (d : Dev) (u : Nat) : Bool := if 132 ≤ u && u < 136 then 2 ≤ stackState d (u - 132) && stackState d (u - 132) != 5 else true

/-! ## Group hold and epoch (R43 to R45) -/

/-- A commit waits for the epoch. -/
def commitPending (d : Dev) : Bool := rb d Rg.DEV_GROUP_HOLD Fl.DEV_GROUP_HOLD_COMMIT
/-- A release or a commit waits for the epoch. -/
def groupPending (d : Dev) : Bool := d.relPend || commitPending d

/-! ## Known events (R451) -/

/-- R507: the effective period of telemetry, in ns. -/
def telPeriod (d : Dev) : Nat := rf d Rg.TEL_PERIOD Fl.TEL_PERIOD_PERIOD_US * (255 / max 1 (shareNow d 6)) * 1000

/-- The next refresh of each stack for which `out` holds, among those that are not in self-refresh (R336, R451). -/
def refreshEvents (d : Dev) (out : Nat → Bool) : List (Nat × Nat) :=
  ((List.range 4).filter (fun s => refreshes d s && out s)).flatMap (fun s =>
    ((leastBy id ((List.range 32).map (fun i => refreshDue d (32 * s + i)))).map (fun t => (t, 3))).toList)
/-- Every known event but refresh as (time in whole ns, source code of PWR_NEXT). -/
def steadyEvents (d : Dev) : List (Nat × Nat) :=
  let alarms := ((List.range 16).filter (fun a => rb d (Rg.ALARM_CTRL a) Fl.ALARM_CTRL_ARM)).map (fun a => (rd64 d (Rg.ALARM_TIME_LO a) (Rg.ALARM_TIME_HI a), 1))
  let epoch := if groupPending d then [(rd64 d Rg.DEV_GROUP_EPOCH_LO Rg.DEV_GROUP_EPOCH_HI, 2)] else []
  let p := telPeriod d
  let tel := if rb d Rg.TEL_CTRL Fl.TEL_CTRL_EN && p != 0 then [((nowNs d / p + 1) * p, 4)] else []
  let twin := if twinState d == 2 then [((match d.twin.sentAt with | some t => t + 10000 | none => nowNs d), 5)] else []
  let w := rd64 d Rg.PWR_HOST_WAKE_LO Rg.PWR_HOST_WAKE_HI
  alarms ++ epoch ++ tel ++ twin ++ (if w != 0 then [(w, 6)] else [])

/-- Every known event of the module as it stands. -/
def knownEvents (d : Dev) : List (Nat × Nat) := steadyEvents d ++ refreshEvents d (fun _ => true)
/-- The next known event: the earliest, the first listed of equal ones. -/
def nextEvent (d : Dev) : Option (Nat × Nat) := leastBy (·.1) (knownEvents d)
/-- The next known event for SLEEP and DEEP SLEEP: they leave a stack out of self-refresh while it has requests queued. -/
def eventAsleep (d : Dev) : Option (Nat × Nat) := leastBy (·.1) (steadyEvents d ++ refreshEvents d (fun s => !stackIdle d s))

/-- No frame is held anywhere in the module. -/
def noFrames (d : Dev) : Bool :=
  d.adm.pipes.all (fun e => e.2.normal.isEmpty && e.2.express.isEmpty && e.2.parsing.isEmpty && e.2.parsed.isEmpty) &&
    d.urn.bufs.all (fun e => e.2.kind == 0) && d.egr.staging.all (fun e => e.2.frames.isEmpty) &&
    d.egr.ports.all (fun e => e.2.edits.isEmpty && e.2.mac.isEmpty) && d.urn.voqs.all (fun e => e.2.chain.isEmpty)
/-- Entry and wake times and break-even of SLEEP (1) and DEEP SLEEP (2), in ns (R450). -/
def entryNs (s : Nat) : Nat := if s == 1 then 2000 else 20000
def wakeNs (s : Nat) : Nat := if s == 1 then 1500 else 80000
def breakEven (s : Nat) : Nat := if s == 1 then 10000 else 1000000
/-- The condition to enter a state. -/
def mayEnter (d : Dev) (s : Nat) : Bool :=
  if s == 1 then rb d Rg.PWR_STATE Fl.PWR_STATE_SLEEP_EN && noFrames d
  else rb d Rg.PWR_STATE Fl.PWR_STATE_DEEP_EN && (List.range 256).all (fun p => !portUp d p) && twinState d != 2
/-- The time to the next event allows the state. -/
def longEnough (t : Option Nat) (s : Nat) : Bool :=
  match t with
  | some t => 11 * (entryNs s + wakeNs s) ≤ 10 * t && breakEven s < t
  | none => true

/-! ## References (R439 to R441) -/

/-- Reference `r` (0 A, 1 B) is accepted. -/
def refOk (d : Dev) (r : Nat) : Bool := if r == 0 then rb d Rg.CLK_STATUS Fl.CLK_STATUS_A_OK else rb d Rg.CLK_STATUS Fl.CLK_STATUS_B_OK
def setOk (d : Dev) (r : Nat) (b : Bool) : Dev := wf d Rg.CLK_STATUS (if r == 0 then Fl.CLK_STATUS_A_OK else Fl.CLK_STATUS_B_OK) (b2n b)
def refPasses (d : Dev) (r : Nat) : Nat := rf d Rg.CLK_STATUS (if r == 0 then Fl.CLK_STATUS_A_PASSES else Fl.CLK_STATUS_B_PASSES)
def setPasses (d : Dev) (r n : Nat) : Dev := wf d Rg.CLK_STATUS (if r == 0 then Fl.CLK_STATUS_A_PASSES else Fl.CLK_STATUS_B_PASSES) n
def activeRef (d : Dev) : Nat := rf d Rg.CLK_STATUS Fl.CLK_STATUS_ACTIVE

/-- The root loop coasts: every lane goes dark and every port down. -/
def startCoast (d : Dev) : Dev :=
  if coasting d then d
  else
    let d := wf d Rg.CLK_STATUS Fl.CLK_STATUS_COAST 1
    let d := tbEvent (clkEvent (bump d Rg.CLK_COAST_CNT 1) 2) 2
    loseLock d (List.range 256)

/-- The loop locks to reference `r`. -/
def switchRef (d : Dev) (r : Nat) : Dev := clkEvent (bump (wf d Rg.CLK_STATUS Fl.CLK_STATUS_ACTIVE r) Rg.CLK_SWITCH_CNT 1) 1

/-- The choice of the root loop once references have been judged. -/
def chooseRef (d : Dev) : Dev :=
  let a := activeRef d
  let p := rf d Rg.CLK_CTRL Fl.CLK_CTRL_PREFER
  if coasting d then d
  else if !refOk d a then (if refOk d (1 - a) then switchRef d (1 - a) else startCoast d)
  else if rb d Rg.CLK_CTRL Fl.CLK_CTRL_REVERT && a != p && refOk d p then switchRef d p
  else d

/-- A reference fails. -/
def failRef (d : Dev) (r : Nat) : Dev :=
  let was := refOk d r
  let d := setPasses (setOk d r false) r 0
  let d := modKet d (fun k => { k with lastPass := clrBit k.lastPass r })
  if was then clkEvent d 0 else d
/-- A reference passes its window; the third consecutive pass makes it accepted. -/
def passRef (d : Dev) (r : Nat) : Dev :=
  let n := min 3 (refPasses d r + 1)
  let d := modKet (setPasses d r n) (fun k => { k with lastPass := setBit k.lastPass r })
  if n == 3 && !refOk d r then clkEvent (setOk d r true) 3 else d

end Sys2Proof.Machine
end

