-- ==== Sys2Proof/Machine/Clocks.lean ====
section
/-!
DEFINITION. The commands of the references, the root loop and the timebase (R438 to R447).
-/

namespace Sys2Proof.Machine
open Sys2Proof

/-- The count passes a window against the other reference, or against the RC oscillator. -/
def passOther (n : Nat) : Bool := 15622 ≤ n && n ≤ 15628
def passRc (n : Nat) : Bool := 15157 ≤ n && n ≤ 16093

/-- REF_WINDOW: each reference is judged against the other when that one is present and has passed its own last window. Two that
fail against each other and pass against the RC oscillator disagree, and neither is failed. -/
def refWindow (d : Dev) (a b : RefCount) : Dev :=
  let b := if rb d Rg.CLK_CTRL Fl.CLK_CTRL_B_EN then b else { b with present := false }
  let byOther (x : RefCount) (other : Nat) : Bool := x.present && d.ket.lastPass.testBit other
  let ao := byOther b 1
  let bo := byOther a 0
  let pa := a.present && (if ao then passOther a.other else passRc a.rc)
  let pb := b.present && (if bo then passOther b.other else passRc b.rc)
  let dis := a.present && b.present && ao && bo && !pa && !pb && passRc a.rc && passRc b.rc
  let show1 (d : Dev) (r : Nat) (x : RefCount) (o : Bool) : Dev :=
    wr d (Rg.CLK_COUNT r) (BitVec.ofNat 32 ((if o then x.other else x.rc) % 65536 + b2n (!o) * 65536))
  let d := show1 (show1 d 0 a ao) 1 b bo
  let was := rb d Rg.CLK_STATUS Fl.CLK_STATUS_DISAGREE
  let d := wf d Rg.CLK_STATUS Fl.CLK_STATUS_DISAGREE (b2n dis)
  if dis then (if was then d else clkEvent d 0)
  else
    let d := if pa then passRef d 0 else failRef d 0
    chooseRef (if pb then passRef d 1 else failRef d 1)

def execRefWindow (a b : RefCount) (s : State) : Host.Outcome State Fault Refusal :=
  s.onDev (fun d => if d.ket.off then d else refWindow d a b)

/-- REF_LOSS: no edge of the reference for 60 ns. -/
def execRefLoss (r : Fin 2) (s : State) : Host.Outcome State Fault Refusal :=
  s.onDev (fun d => if d.ket.off then d else chooseRef (failRef d r))

/-- COAST_END: the loop has ramped to 6.25 GHz on an accepted reference, the preferred one first. -/
def execCoastEnd (s : State) : Host.Outcome State Fault Refusal :=
  s.onDev (fun d =>
    let p := rf d Rg.CLK_CTRL Fl.CLK_CTRL_PREFER
    let r := if refOk d p then p else 1 - p
    if coasting d && refOk d r then
      tbEvent (wf (wf (wf d Rg.CLK_STATUS Fl.CLK_STATUS_COAST 0) Rg.CLK_STATUS Fl.CLK_STATUS_ACTIVE r) Rg.CLK_STATUS Fl.CLK_STATUS_LOCK 1) 2
    else d)

/-! ## The timebase (R444 to R447) -/

/-- TB_SET in units of 2^-32 ns, and TB_ADJ in ns. -/
def tbSetVal (d : Dev) : Nat := rd64 d Rg.TB_SET_LO Rg.TB_SET_HI * 2 ^ 32 + rf d Rg.TB_SET_FRAC Fl.TB_SET_FRAC_FRAC * 2 ^ 16
def tbAdjVal (d : Dev) : Int := (rd d Rg.TB_ADJ).toInt

/-- Each step counts and raises STEP. -/
def countStep (d : Dev) : Dev := tbEvent (bump d Rg.TB_STEP_CNT 1) 1
/-- TB_CMD with SET, ADJUST or both: the next MC cycle loads the step. -/
def tbCmd (d : Dev) (set adj : Bool) : Dev :=
  if set then
    let v := if adj then wrapInt 96 ((tbSetVal d : Int) + tbAdjVal d * 2 ^ 32) else tbSetVal d
    countStep { d with tbStep := some (.set v) }
  else if adj then
    let s := match d.tbStep with
      | some (.set v) => TbStep.set (wrapInt 96 ((v : Int) + tbAdjVal d * 2 ^ 32))
      | some (.adjust n) => .adjust (n + tbAdjVal d)
      | none => .adjust (tbAdjVal d)
    countStep { d with tbStep := some s }
  else d

def execTbSet (m : Master) (s : State) : Host.Outcome State Fault Refusal :=
  s.onDev (fun d => guardWrite d Rg.TB_CMD m (fun d => tbCmd d true false))
def execTbAdjust (m : Master) (s : State) : Host.Outcome State Fault Refusal :=
  s.onDev (fun d => guardWrite d Rg.TB_CMD m (fun d => tbCmd d false true))

/-- Key of a latch kept for a master: one latch for each counter and master (R51), so that a read of another low half on the page leaves
it (DESIGN CHOICE, log 224). -/
def latchKey (a : Nat) (m : Master) : Nat := a * 256 + masterKey m
/-- Set, look up and drop the latch that a page keeps at address `a` for master `m`. -/
def setLatch (d : Dev) (a : Nat) (m : Master) (v : W32) : Dev := { d with latch := tput (latchKey a m) v d.latch }
def getLatch (d : Dev) (a : Nat) (m : Master) : Option W32 := d.latch.lookup (latchKey a m)
def dropLatch (d : Dev) (a : Nat) (m : Master) : Dev := { d with latch := tdrop (latchKey a m) d.latch }

/-- A read of TB_NOW_LO latches the high word and the fraction for its master. -/
def tbNow (d : Dev) (m : Master) : Dev :=
  let d := setLatch d Rg.TB_NOW_HI m (BitVec.ofNat 32 (nowNs d / 2 ^ 32))
  let d := setLatch d Rg.TB_NOW_FRAC m (BitVec.ofNat 32 (d.tb / 2 ^ 16 % 2 ^ 16))
  give d m (BitVec.ofNat 32 (nowNs d))
def execTbNowRead (m : Master) (s : State) : Host.Outcome State Fault Refusal :=
  s.onDev (fun d => guardRead d Rg.TB_NOW_LO m (fun d => tbNow d m))

def execPpsIn (s : State) : Host.Outcome State Fault Refusal :=
  s.onDev (fun d =>
    if d.ket.off then d
    else
      let d := wr64 d Rg.TB_PPS_IN_LO Rg.TB_PPS_IN_HI (nowNs d)
      let d := wr d Rg.TB_PPS_IN_FRAC (BitVec.ofNat 32 (d.tb / 2 ^ 16 % 2 ^ 16))
      tbEvent (bump d Rg.TB_PPS_IN_CNT 1) 0)

/-- The last whole second whose PPS_OUT instant has come. -/
def ppsSecond (d : Dev) : Int := ((nowNs d : Int) - (rd d Rg.TB_PPS_OFFSET).toInt) / 1000000000
/-- PPS_OUT rises for each second once. -/
def execPpsOut (s : State) : Host.Outcome State Fault Refusal :=
  s.onDev (fun d =>
    let k := ppsSecond d
    let due := match d.ket.ppsLast with | some l => decide (l < k) | none => true
    if !d.ket.off && rb d Rg.TB_PPS Fl.TB_PPS_PPS_EN && due then
      emit (modKet d (fun x => { x with pps := some (nowNs d + 1000 * rf d Rg.TB_PPS Fl.TB_PPS_WIDTH_US), ppsLast := some k })) (.pps true)
    else d)
def execPpsOutFall (s : State) : Host.Outcome State Fault Refusal :=
  s.onDev (fun d =>
    match d.ket.pps with
    | some t => if t ≤ nowNs d then emit (modKet d (fun x => { x with pps := none })) (.pps false) else d
    | none => d)

end Sys2Proof.Machine
end

