-- ==== Sys2Proof/Machine/CoreArith.lean ====
section
/-!
DEFINITION. Chrotale arithmetic, logic and bit instructions (R198 to R202).
-/

namespace Sys2Proof.Machine
open Sys2Proof

def execOpAdd (c : Cid) (t : Tid) (f : BitVec 24) (s : State) : Host.Outcome State Fault Refusal :=
  s.onDevF (fun d => aluOp 0x10 d c t f (fun w v l => resultAll w (addW w (lowA w l) v 0) l))
def execOpAdc (c : Cid) (t : Tid) (f : BitVec 24) (s : State) : Host.Outcome State Fault Refusal :=
  s.onDevF (fun d => aluOp 0x11 d c t f (fun w v l => resultAll w (addW w (lowA w l) v (b2n l.c)) l))
def execOpSub (c : Cid) (t : Tid) (f : BitVec 24) (s : State) : Host.Outcome State Fault Refusal :=
  s.onDevF (fun d => aluOp 0x12 d c t f (fun w v l => resultAll w (subW w (lowA w l) v 0) l))
def execOpSbc (c : Cid) (t : Tid) (f : BitVec 24) (s : State) : Host.Outcome State Fault Refusal :=
  s.onDevF (fun d => aluOp 0x13 d c t f (fun w v l => resultAll w (subW w (lowA w l) v (b2n l.c)) l))
/-- NEG: 0 - a. -/
def execOpNeg (c : Cid) (t : Tid) (f : BitVec 24) (s : State) : Host.Outcome State Fault Refusal :=
  s.onDevF (fun d => aOp 0x14 [0, 1, 2, 3] d c t f (fun w l => resultAll w (subW w 0 (lowA w l) 0) l))
/-- CMP: the flags of a - op; A unchanged. -/
def execOpCmp (c : Cid) (t : Tid) (f : BitVec 24) (s : State) : Host.Outcome State Fault Refusal :=
  s.onDevF (fun d => aluOp 0x15 d c t f (fun w v l =>
    let r := subW w (lowA w l) v 0
    flagsAll w r.1 r.2.1 r.2.2 l))
/-- TST: the flags of a AND op; A unchanged. -/
def execOpTst (c : Cid) (t : Tid) (f : BitVec 24) (s : State) : Host.Outcome State Fault Refusal :=
  s.onDevF (fun d => aluOp 0x16 d c t f (fun w v l => flagsZN w (lowA w l &&& v) l))
def execOpMin (c : Cid) (t : Tid) (f : BitVec 24) (s : State) : Host.Outcome State Fault Refusal :=
  s.onDevF (fun d => aluOp 0x17 d c t f (fun w v l => resultZN w (if sint w (lowA w l) ≤ sint w v then lowA w l else v) l))
def execOpMax (c : Cid) (t : Tid) (f : BitVec 24) (s : State) : Host.Outcome State Fault Refusal :=
  s.onDevF (fun d => aluOp 0x18 d c t f (fun w v l => resultZN w (if sint w (lowA w l) ≤ sint w v then v else lowA w l) l))
def execOpMinu (c : Cid) (t : Tid) (f : BitVec 24) (s : State) : Host.Outcome State Fault Refusal :=
  s.onDevF (fun d => aluOp 0x19 d c t f (fun w v l => resultZN w (min (lowA w l) v) l))
def execOpMaxu (c : Cid) (t : Tid) (f : BitVec 24) (s : State) : Host.Outcome State Fault Refusal :=
  s.onDevF (fun d => aluOp 0x1A d c t f (fun w v l => resultZN w (max (lowA w l) v) l))
def execOpMul (c : Cid) (t : Tid) (f : BitVec 24) (s : State) : Host.Outcome State Fault Refusal :=
  s.onDevF (fun d => aluOp 0x1B d c t f (fun w v l => resultAll w (mulW w (lowA w l) v) l))
def execOpMulh (c : Cid) (t : Tid) (f : BitVec 24) (s : State) : Host.Outcome State Fault Refusal :=
  s.onDevF (fun d => aluOp 0x1C d c t f (fun w v l => resultAll w (mulhW w (lowA w l) v, false, false) l))
def execOpMulhu (c : Cid) (t : Tid) (f : BitVec 24) (s : State) : Host.Outcome State Fault Refusal :=
  s.onDevF (fun d => aluOp 0x1D d c t f (fun w v l => resultAll w (mulhuW w (lowA w l) v, false, false) l))

/-- A division: its result, then the 7 CC in which the thread is not ready (R157, R200). -/
def divOp (op : Nat) (d : Dev) (cid t : Nat) (f : BitVec 24) (signed rem : Bool) : Dev :=
  laneOp op formOp d cid t f (fun w v l =>
    let r := divW signed w (lowA w l) v
    resultAll w (if rem then r.2.1 else r.1, r.2.2.1, r.2.2.2) l)
    (fun d => modThr d cid t (fun x => { x with wait := .div }))
def execOpDiv (c : Cid) (t : Tid) (f : BitVec 24) (s : State) : Host.Outcome State Fault Refusal :=
  s.onDevF (fun d => divOp 0x1E d c t f true false)
def execOpDivu (c : Cid) (t : Tid) (f : BitVec 24) (s : State) : Host.Outcome State Fault Refusal :=
  s.onDevF (fun d => divOp 0x1F d c t f false false)
def execOpRem (c : Cid) (t : Tid) (f : BitVec 24) (s : State) : Host.Outcome State Fault Refusal :=
  s.onDevF (fun d => divOp 0x20 d c t f true true)
def execOpRemu (c : Cid) (t : Tid) (f : BitVec 24) (s : State) : Host.Outcome State Fault Refusal :=
  s.onDevF (fun d => divOp 0x21 d c t f false true)
/-- DIVISION_READY: the 7 CC after a division end. -/
def execDivisionReady (c : Cid) (t : Tid) (s : State) : Host.Outcome State Fault Refusal :=
  s.onDev (fun d => if (thr d c t).wait == .div then modThr d c t (fun x => { x with wait := .none }) else d)

/-! ## Logic and bits (R201, R202) -/

def execOpAnd (c : Cid) (t : Tid) (f : BitVec 24) (s : State) : Host.Outcome State Fault Refusal :=
  s.onDevF (fun d => aluOp 0x28 d c t f (fun w v l => resultZN w (lowA w l &&& v) l))
def execOpOr (c : Cid) (t : Tid) (f : BitVec 24) (s : State) : Host.Outcome State Fault Refusal :=
  s.onDevF (fun d => aluOp 0x29 d c t f (fun w v l => resultZN w (lowA w l ||| v) l))
def execOpXor (c : Cid) (t : Tid) (f : BitVec 24) (s : State) : Host.Outcome State Fault Refusal :=
  s.onDevF (fun d => aluOp 0x2A d c t f (fun w v l => resultZN w (lowA w l ^^^ v) l))
def execOpNot (c : Cid) (t : Tid) (f : BitVec 24) (s : State) : Host.Outcome State Fault Refusal :=
  s.onDevF (fun d => aOp 0x2B [0, 1, 2, 3] d c t f (fun w l => resultZN w (2 ^ w - 1 - lowA w l) l))
/-- The amount is op[7:0] whatever w is. -/
def shiftOp (op : Nat) (d : Dev) (cid t : Nat) (f : BitVec 24) (sh : Nat → Nat → Nat → Nat × Bool) : Dev :=
  aluOp op d cid t f (fun w v l => resultShift w (sh w (lowA w l) (v % 256)) l)
def execOpShl (c : Cid) (t : Tid) (f : BitVec 24) (s : State) : Host.Outcome State Fault Refusal :=
  s.onDevF (fun d => shiftOp 0x2C d c t f shlW)
def execOpShr (c : Cid) (t : Tid) (f : BitVec 24) (s : State) : Host.Outcome State Fault Refusal :=
  s.onDevF (fun d => shiftOp 0x2D d c t f shrW)
def execOpSar (c : Cid) (t : Tid) (f : BitVec 24) (s : State) : Host.Outcome State Fault Refusal :=
  s.onDevF (fun d => shiftOp 0x2E d c t f sarW)
def execOpRol (c : Cid) (t : Tid) (f : BitVec 24) (s : State) : Host.Outcome State Fault Refusal :=
  s.onDevF (fun d => shiftOp 0x2F d c t f rolW)
def execOpRor (c : Cid) (t : Tid) (f : BitVec 24) (s : State) : Host.Outcome State Fault Refusal :=
  s.onDevF (fun d => shiftOp 0x30 d c t f rorW)
def execOpPopc (c : Cid) (t : Tid) (f : BitVec 24) (s : State) : Host.Outcome State Fault Refusal :=
  s.onDevF (fun d => aOp 0x31 [0, 1, 2, 3] d c t f (fun w l => resultZN w (popW w (lowA w l)) l))
def execOpClz (c : Cid) (t : Tid) (f : BitVec 24) (s : State) : Host.Outcome State Fault Refusal :=
  s.onDevF (fun d => aOp 0x32 [0, 1, 2, 3] d c t f (fun w l => resultZN w (clzW w (lowA w l)) l))
def execOpCtz (c : Cid) (t : Tid) (f : BitVec 24) (s : State) : Host.Outcome State Fault Refusal :=
  s.onDevF (fun d => aOp 0x33 [0, 1, 2, 3] d c t f (fun w l => resultZN w (ctzW w (lowA w l)) l))
def execOpBswap (c : Cid) (t : Tid) (f : BitVec 24) (s : State) : Host.Outcome State Fault Refusal :=
  s.onDevF (fun d => aOp 0x34 [0, 1, 2, 3] d c t f (fun w l => resultZN w (bswapW w (lowA w l)) l))
def execOpSext (c : Cid) (t : Tid) (f : BitVec 24) (s : State) : Host.Outcome State Fault Refusal :=
  s.onDevF (fun d => aOp 0x35 [0, 1, 2] d c t f (fun w l => resultZN 64 (sext64 w (lowA w l)) l))
def execOpZext (c : Cid) (t : Tid) (f : BitVec 24) (s : State) : Host.Outcome State Fault Refusal :=
  s.onDevF (fun d => aOp 0x36 [0, 1, 2] d c t f (fun w l => resultZN 64 (lowA w l) l))

end Sys2Proof.Machine
end

