-- ==== Sys2Proof/Machine/CoreData.lean ====
section
/-!
DEFINITION. Chrotale data movement, cursor, predicates and the data stack (R196, R197, R203, R206).
-/

namespace Sys2Proof.Machine
open Sys2Proof

/-! ## Moves (R196) -/

def execOpNop (c : Cid) (t : Tid) (f : BitVec 24) (s : State) : Host.Outcome State Fault Refusal :=
  s.onDevF (fun d => threadOp 0x00 (formPlain false 0 0) false false (fun _ => none) d c t f (fun _ _ d => advance d c t))

/-- LD: A := zext64(src); Z and N at w. -/
def execOpLd (c : Cid) (t : Tid) (f : BitVec 24) (s : State) : Host.Outcome State Fault Refusal :=
  s.onDevF (fun d => aluOp 0x01 d c t f (fun w v => resultZN w v))
/-- LDS: A := sext64(src); Z and N at 64. -/
def execOpLds (c : Cid) (t : Tid) (f : BitVec 24) (s : State) : Host.Outcome State Fault Refusal :=
  s.onDevF (fun d => aluOp 0x02 d c t f (fun w v => resultZN 64 (sext64 w v)))

/-- A store of a value of each acting lane. -/
def storeOp (op : Nat) (d : Dev) (cid t : Nat) (f : BitVec 24) (val : Thread → Nat → Nat) : Dev :=
  let a := fa f
  let x := thr d cid t
  let ls := actingLanes x (a.s == 4)
  issue d cid t
    { word := opWord op f, field := badA formDst a, stack := stackUnder x a, window := ls.filter (outside x a)
      stall := stallOn d cid x a ls, lanes := ls }
    (fun d => (advance (writeLanes d cid t a (ls.map (fun n => (n, val x n)))) cid t, false))
/-- ST: dst := a. -/
def execOpSt (c : Cid) (t : Tid) (f : BitVec 24) (s : State) : Host.Outcome State Fault Refusal :=
  s.onDevF (fun d => storeOp 0x03 d c t f (fun x n => (lctx x n).a.toNat))
def execOpXst (c : Cid) (t : Tid) (f : BitVec 24) (s : State) : Host.Outcome State Fault Refusal :=
  s.onDevF (fun d => storeOp 0x06 d c t f (fun x _ => x.x.toNat))
def execOpYst (c : Cid) (t : Tid) (f : BitVec 24) (s : State) : Host.Outcome State Fault Refusal :=
  s.onDevF (fun d => storeOp 0x07 d c t f (fun x _ => x.y.toNat))

/-- XLD, YLD: the operand of the lowest-numbered acting lane (R192). -/
def indexLoad (op : Nat) (d : Dev) (cid t : Nat) (f : BitVec 24) (put : W16 → Thread → Thread) : Dev :=
  let a := fa f
  let x := thr d cid t
  let ls := actingLanes x (a.s == 4)
  issue d cid t
    { word := opWord op f, field := badA { formOp with ws := [0, 1] } a, stack := stackUnder x a, window := ls.filter (outside x a)
      stall := stallOn d cid x a ls, lanes := ls }
    (fun d =>
      let (vs, e, d) := readLanes d ls (fun d n => readOperand d cid t a n)
      if e != .ok then metError d cid t (opWord op f) e
      else
        let d := match vs with | v :: _ => modThr d cid t (put (BitVec.ofNat 16 v.2)) | [] => d
        (advance d cid t, false))
def execOpXld (c : Cid) (t : Tid) (f : BitVec 24) (s : State) : Host.Outcome State Fault Refusal :=
  s.onDevF (fun d => indexLoad 0x04 d c t f (fun v x => { x with x := v }))
def execOpYld (c : Cid) (t : Tid) (f : BitVec 24) (s : State) : Host.Outcome State Fault Refusal :=
  s.onDevF (fun d => indexLoad 0x05 d c t f (fun v x => { x with y := v }))

/-- XSET, YSET: A[15:0] of the lowest-numbered acting lane. -/
def indexSet (op : Nat) (d : Dev) (cid t : Nat) (f : BitVec 24) (put : W16 → Thread → Thread) : Dev :=
  threadOp op (formPlain true 0 0) false true (fun _ => none) d cid t f (fun _ ls d =>
    let d := match ls with
      | n :: _ => modThr d cid t (put ((lctx (thr d cid t) n).a.setWidth 16))
      | [] => d
    advance d cid t)
def execOpXset (c : Cid) (t : Tid) (f : BitVec 24) (s : State) : Host.Outcome State Fault Refusal :=
  s.onDevF (fun d => indexSet 0x08 d c t f (fun v x => { x with x := v }))
def execOpYset (c : Cid) (t : Tid) (f : BitVec 24) (s : State) : Host.Outcome State Fault Refusal :=
  s.onDevF (fun d => indexSet 0x09 d c t f (fun v x => { x with y := v }))

/-- XGET, YGET: A := zext64 of the index; Z from it, N and V clear. -/
def indexGet (op : Nat) (d : Dev) (cid t : Nat) (f : BitVec 24) (get : Thread → W16) : Dev :=
  let v := (get (thr d cid t)).toNat
  laneOp op (formPlain true 0 0) d cid t f (fun _ _ l => resultZN 64 v l) id
def execOpXget (c : Cid) (t : Tid) (f : BitVec 24) (s : State) : Host.Outcome State Fault Refusal :=
  s.onDevF (fun d => indexGet 0x0A d c t f (·.x))
def execOpYget (c : Cid) (t : Tid) (f : BitVec 24) (s : State) : Host.Outcome State Fault Refusal :=
  s.onDevF (fun d => indexGet 0x0B d c t f (·.y))

/-- XADD, YADD: whatever the lanes hold. -/
def execOpXadd (c : Cid) (t : Tid) (f : BitVec 24) (s : State) : Host.Outcome State Fault Refusal :=
  s.onDevF (fun d => threadOp 0x0C (formPlain false 0 65535) false false (fun _ => none) d c t f (fun a _ d =>
    advance (modThr d c t (fun x => { x with x := x.x + BitVec.ofNat 16 a.d })) c t))
def execOpYadd (c : Cid) (t : Tid) (f : BitVec 24) (s : State) : Host.Outcome State Fault Refusal :=
  s.onDevF (fun d => threadOp 0x0D (formPlain false 0 65535) false false (fun _ => none) d c t f (fun a _ d =>
    advance (modThr d c t (fun x => { x with y := x.y + BitVec.ofNat 16 a.d })) c t))

/-! ## Bit fields (R197) -/

/-- Bit position of the field in lane `n`, and the bits of its space. -/
def fieldPos (x : Thread) (f : BitVec 24) (n : Nat) : Nat :=
  if ffM f == 0 then 8 * (lctx x n).cur.toNat + ffOff f else ffOff f
def fieldEnd (f : BitVec 24) : Nat := if ffM f == 2 then 1024 else 2048
/-- The bytes that the field touches, read as one number, with the first byte and their count. -/
def fieldBytes (d : Dev) (cid t : Nat) (f : BitVec 24) (n : Nat) : Nat × Met × Dev :=
  let x := thr d cid t
  let p := fieldPos x f n
  let lo := p / 8
  let k := (p + ffLen f - 1) / 8 + 1 - lo
  if ffM f == 2 then readM d cid x.home n lo k else spaceRead d cid 0 (hAddr x.home n lo) k
/-- Bits after the field in its last byte. -/
def fieldAfter (p len : Nat) : Nat := 7 - (p + len - 1) % 8

/-- LDF and STF: `eff` takes the bytes of each lane. -/
def fieldOp (op : Nat) (d : Dev) (cid t : Nat) (f : BitVec 24) (eff : List (Nat × Nat) → Dev → Dev) : Dev :=
  let x := thr d cid t
  let ls := activeLanes x
  let slots := slotsIn (ffOff f / 8) ((ffOff f + ffLen f - 1) / 8 + 1 - ffOff f / 8)
  issue d cid t
    { word := opWord op f, field := ffM f == 3, window := ls.filter (fun n => fieldEnd f < fieldPos x f n + ffLen f)
      stall := stallIf (ffM f == 2 && slotPending d cid x.home ls slots) ls slots, lanes := ls, perLane := false }
    (fun d =>
      let (vs, e, d) := readLanes d ls (fun d n => fieldBytes d cid t f n)
      if e != .ok then metError d cid t (opWord op f) e else (advance (eff vs d) cid t, false))
/-- LDF: A := zext64(field). -/
def execOpLdf (c : Cid) (t : Tid) (f : BitVec 24) (s : State) : Host.Outcome State Fault Refusal :=
  s.onDevF (fun d => fieldOp 0x0E d c t f (fun vs d =>
    vs.foldl (fun d e =>
      let p := fieldPos (thr d c t) f e.1
      modCtx d c t e.1 (resultZN 64 (e.2 / 2 ^ fieldAfter p (ffLen f) % 2 ^ ffLen f))) d))
/-- STF: the field's bits := A[n-1:0], the others as they were. -/
def execOpStf (c : Cid) (t : Tid) (f : BitVec 24) (s : State) : Host.Outcome State Fault Refusal :=
  s.onDevF (fun d => fieldOp 0x0F d c t f (fun vs d =>
    vs.foldl (fun d e =>
      let x := thr d c t
      let p := fieldPos x f e.1
      let k := (p + ffLen f - 1) / 8 + 1 - p / 8
      let sh := fieldAfter p (ffLen f)
      let old := e.2 / 2 ^ sh % 2 ^ ffLen f
      let v := e.2 - old * 2 ^ sh + (lctx x e.1).a.toNat % 2 ^ ffLen f * 2 ^ sh
      if ffM f == 2 then coreWrite d c 1 (mAddr x.home e.1 (p / 8)) k v else coreWrite d c 0 (hAddr x.home e.1 (p / 8)) k v) d))

/-! ## Cursor and predicates (R203) -/

def execOpCadd (c : Cid) (t : Tid) (f : BitVec 24) (s : State) : Host.Outcome State Fault Refusal :=
  s.onDevF (fun d => aluOp 0x40 d c t f (fun _ v l => { l with cur := l.cur + BitVec.ofNat 16 v }))
def execOpCset (c : Cid) (t : Tid) (f : BitVec 24) (s : State) : Host.Outcome State Fault Refusal :=
  s.onDevF (fun d => aluOp 0x41 d c t f (fun _ v l => { l with cur := BitVec.ofNat 16 v }))
/-- CGET: A := zext64(cursor); no flag changes. -/
def execOpCget (c : Cid) (t : Tid) (f : BitVec 24) (s : State) : Host.Outcome State Fault Refusal :=
  s.onDevF (fun d => laneOp 0x42 (formPlain true 0 0) d c t f (fun _ _ l => { l with a := l.cur.setWidth 64 }) id)
/-- SETP: P := cond in every active lane. -/
def execOpSetp (c : Cid) (t : Tid) (f : BitVec 24) (s : State) : Host.Outcome State Fault Refusal :=
  s.onDevF (fun d => jumpOp 0x48 (fjCond f == 15 || fjQ f != 0 || fjT f != 0) false (fun _ => none) d c t f (fun d =>
    advance ((activeLanes (thr d c t)).foldl (fun d n => modCtx d c t n (fun l => { l with p := condHolds (fjCond f) l })) d) c t))
/-- KILL: lanes whose P is 1 leave ACT. -/
def execOpKill (c : Cid) (t : Tid) (f : BitVec 24) (s : State) : Host.Outcome State Fault Refusal :=
  s.onDevF (fun d => jumpOp 0x4A (fjCond f != 0 || fjQ f != 0 || fjT f != 0) (kernelThread (thr d c t)) (fun _ => none) d c t f (fun d =>
    let x := thr d c t
    advance (modThr d c t (fun y => { y with act := ofBits ((activeLanes x).filter (fun n => !(lctx x n).p)) })) c t))
/-- LDP: bit n of the 32-bit operand, read in lane 0, becomes P of active lane n. -/
def execOpLdp (c : Cid) (t : Tid) (f : BitVec 24) (s : State) : Host.Outcome State Fault Refusal :=
  s.onDevF (fun d =>
    let a := fa f
    let x := thr d c t
    let ls := activeLanes x
    let zero := if ls.isEmpty then [] else [0]
    issue d c t
      { word := opWord 0x4B f, field := badA { formOp with ws := [2], g := false } a, stack := stackUnder x a
        window := zero.filter (outside x a), stall := stallOn d c x a (zero ++ ls), lanes := ls }
      (fun d =>
        let (vs, e, d) := readLanes d zero (fun d n => readOperand d c t a n)
        if e != .ok then metError d c t (opWord 0x4B f) e
        else
          let v := match vs with | e :: _ => e.2 | [] => 0
          (advance (ls.foldl (fun d n => modCtx d c t n (fun l => { l with p := v.testBit n })) d) c t, false)))

/-! ## The data stack (R166, R206) -/

/-- PUSH: the entry takes A in acting lanes; its other lanes' parts are free. -/
def execOpPush (c : Cid) (t : Tid) (f : BitVec 24) (s : State) : Host.Outcome State Fault Refusal :=
  s.onDevF (fun d => threadOp 0x58 (formPlain true 0 0) false true (fun x => if x.sp == 32 then some 6 else none) d c t f (fun _ ls d =>
    let x := thr d c t
    let d := (List.range 32).foldl (fun d n =>
      if ls.contains n then coreWrite d c 3 (tAddr t n x.sp) 8 (lctx x n).a.toNat
      else useFree (coreWrite d c 3 (tAddr t n x.sp) 8 (freeVal d).toNat)) d
    advance (modThr d c t (fun x => { x with sp := x.sp + 1 })) c t))
/-- POP: A := the top entry in acting lanes. -/
def execOpPop (c : Cid) (t : Tid) (f : BitVec 24) (s : State) : Host.Outcome State Fault Refusal :=
  s.onDevF (fun d =>
    let a := fa f
    let x := thr d c t
    let ls := actingLanes x (a.s == 4)
    issue d c t { word := opWord 0x59 f, field := badA (formPlain true 0 0) a, stack := if x.sp == 0 then some 7 else none, lanes := ls }
      (fun d =>
        let (vs, e, d) := readLanes d ls (fun d n => spaceRead d c 3 (tAddr t n (x.sp - 1)) 8)
        if e != .ok then metError d c t (opWord 0x59 f) e
        else
          let d := vs.foldl (fun d e => modCtx d c t e.1 (putA e.2)) d
          (advance (modThr d c t (fun x => { x with sp := x.sp - 1 })) c t, false)))
def execOpDrops (c : Cid) (t : Tid) (f : BitVec 24) (s : State) : Host.Outcome State Fault Refusal :=
  s.onDevF (fun d => threadOp 0x5A (formPlain false 0 0) false false (fun x => if x.sp == 0 then some 7 else none) d c t f (fun _ _ d =>
    advance (modThr d c t (fun x => { x with sp := x.sp - 1 })) c t))

end Sys2Proof.Machine
end

