-- ==== Sys2Proof/Machine/CoreFlow.lean ====
section
/-!
DEFINITION. Chrotale control flow, threads, flights, verdicts and system instructions (R161 to R165, R170 to R176, R191, R204
to R210), the end of a flight (R208) and the comparator (R391).
-/

namespace Sys2Proof.Machine
open Sys2Proof

/-! ## Branches (R160, R204, R205) -/

def noStack : Thread → Option Nat := fun _ => none
/-- A target outside the image. -/
def badT (f : BitVec 24) : Bool := 8192 ≤ fjT f

def execOpBr (c : Cid) (t : Tid) (f : BitVec 24) (s : State) : Host.Outcome State Fault Refusal :=
  s.onDevF (fun d => jumpOp 0x50 (fjCond f != 0 || fjQ f != 0 || badT f) false noStack d c t f (fun d => setPc d c t (fjT f)))
/-- The test of R160 over the active lanes. -/
def branchTaken (x : Thread) (q cond : Nat) : Bool :=
  let hold (n : Nat) := condHolds cond (lctx x n)
  match q with
  | 0 => (activeLanes x).all hold
  | 1 => (activeLanes x).any hold
  | _ => !(activeLanes x).any hold
def execOpBc (c : Cid) (t : Tid) (f : BitVec 24) (s : State) : Host.Outcome State Fault Refusal :=
  s.onDevF (fun d => jumpOp 0x51 (fjCond f == 15 || fjQ f == 3 || badT f) false noStack d c t f (fun d =>
    if branchTaken (thr d c t) (fjQ f) (fjCond f) then setPc d c t (fjT f) else advance d c t))
/-- The return stack is full (R165). -/
def rstackOver (x : Thread) : Option Nat := if 16 ≤ x.rstack.length then some 4 else none
def pushFrame (d : Dev) (cid t : Nat) (r : RFrame) : Dev := modThr d cid t (fun x => { x with rstack := r :: x.rstack })
def popFrame (d : Dev) (cid t : Nat) : Dev := modThr d cid t (fun x => { x with rstack := x.rstack.tail })
def execOpCall (c : Cid) (t : Tid) (f : BitVec 24) (s : State) : Host.Outcome State Fault Refusal :=
  s.onDevF (fun d => jumpOp 0x52 (fjCond f != 0 || fjQ f != 0 || badT f) false rstackOver d c t f (fun d =>
    setPc (pushFrame d c t (.ret ((thr d c t).pc + 1))) c t (fjT f)))
/-- RET needs a return address on top (R165). -/
def rstackUnder (x : Thread) : Option Nat := match x.rstack with | .ret _ :: _ => none | _ => some 5
def execOpRet (c : Cid) (t : Tid) (f : BitVec 24) (s : State) : Host.Outcome State Fault Refusal :=
  s.onDevF (fun d => jumpOp 0x53 (f.toNat != 0) false rstackUnder d c t f (fun d =>
    match (thr d c t).rstack with
    | .ret p :: _ => setPc (popFrame d c t) c t p
    | _ => d))

/-- BHB: the helper's queue is full. -/
def execOpBhb (c : Cid) (t : Tid) (f : BitVec 24) (s : State) : Host.Outcome State Fault Refusal :=
  s.onDevF (fun d => jumpOp 0x54 (fjQ f != 0 || badT f) false noStack d c t f (fun d =>
    if queueFull d c (fjCond f) then setPc (pmc d c 13 1 (kernelThread (thr d c t)) 0) c t (fjT f) else advance d c t))

/-! ## FORK and JOIN (R162 to R164) -/

/-- Idle flight threads of a core. -/
def idleThreads (d : Dev) (cid : Nat) : List Nat :=
  (List.range 8).filter (fun t => (thr d cid t).state == 0 && !kernelRole d cid t)
/-- Those that a FORK may take: the flights in the core's slots take theirs first (R162). -/
def forkThreads (d : Dev) (cid : Nat) : List Nat :=
  if (idleThreads d cid).length ≤ (slotFlights d cid).length then [] else idleThreads d cid
/-- FORK_EN, as it stood when the thread's flight began (R538). -/
def forkEnabled (d : Dev) (flight : Option Nat) : Bool :=
  match flight.bind (flightById d) with
  | some f => f.forkEn
  | none => true
def execOpFork (c : Cid) (t : Tid) (f : BitVec 24) (s : State) : Host.Outcome State Fault Refusal :=
  s.onDevF (fun d => jumpOp 0x60 (fjCond f != 0 || fjQ f != 0 || badT f) (kernelThread (thr d c t)) rstackOver d c t f (fun d =>
    let x := thr d c t
    let mv := ofBits ((activeLanes x).filter (fun n => (lctx x n).p))
    let rest := ofBits ((activeLanes x).filter (fun n => !(lctx x n).p))
    if mv == 0 then advance (pushFrame d c t (.child 0 false 0 [])) c t
    else
      let (k, d) := if forkEnabled d x.flight then pickFree d (forkThreads d c) else (none, d)
      match k with
      | some k =>
        let d := bump d (Rg.CORE_FORK_THREAD c) 1
        let d := modThr d c k (fun y =>
          { state := 2, pc := fjT f, bank := x.bank, x := x.x, y := x.y, act := mv, lanes := x.lanes, inTrap := x.inTrap,
            level := x.level, home := x.home, parent := some t.val, flight := x.flight, tag := x.tag, issued := y.issued })
        -- its issue rank is the parent's, raises included
        let d := modBar d (fun b => { b with raises := b.raises ++ (b.raises.filter (fun r => r.cid == c.val && r.t == t.val)).map (fun r => { r with t := k }) })
        let d := modThr d c t (fun x => { x with act := rest })
        advance (pushFrame d c t (.child k true mv [])) c t
      | none =>
        let d := pmc (bump d (Rg.CORE_FORK_SERIAL c) 1) c 11 1 false 0
        let d := pushFrame d c t (.serial true (x.pc + 1) rest 0)
        setPc (modThr d c t (fun x => { x with act := mv })) c t (fjT f)))

/-- The surviving lanes of an ended child join ACT with their registers; the frame is popped. -/
def mergeChild (d : Dev) (cid t mask : Nat) (regs : List (Nat × LaneCtx)) : Dev :=
  let d := regs.foldl (fun d e => modCtx d cid t e.1 (fun _ => e.2)) d
  advance (popFrame (modThr d cid t (fun x => { x with act := x.act ||| mask })) cid t) cid t
def execOpJoin (c : Cid) (t : Tid) (f : BitVec 24) (s : State) : Host.Outcome State Fault Refusal :=
  s.onDevF (fun d => jumpOp 0x61 (f.toNat != 0) (kernelThread (thr d c t)) noStack d c t f (fun d =>
    let x := thr d c t
    match x.rstack with
    | .child _ true _ _ :: _ => modThr d c t (fun x => { x with wait := .join })
    | .child _ false m regs :: _ => mergeChild d c t m regs
    | .serial true p rest _ :: r =>
      setPc (modThr d c t (fun x => { x with rstack := .serial false p rest x.act :: r, act := rest })) c t p
    | .serial false _ _ sv :: _ => advance (popFrame (modThr d c t (fun x => { x with act := x.act ||| sv })) c t) c t
    | _ => if x.parent.isSome then endAsDone d c t else advance d c t))
/-- JOIN_COMPLETE: the child of a waiting JOIN has ended. -/
def execJoinComplete (c : Cid) (t : Tid) (s : State) : Host.Outcome State Fault Refusal :=
  s.onDevF (fun d =>
    let x := thr d c t
    match x.wait, x.rstack with
    | .join, .child _ false m regs :: _ => mergeChild (modThr d c t (fun x => { x with wait := .none })) c t m regs
    | _, _ => d)

/-! ## The end of a flight (R161, R208) and the comparator (R391) -/

/-- What one lane met in the original and in its copy: judged when its results agree; then whether it differs. -/
def judgeLane (o c : Flight) (n : Nat) : Bool × Bool :=
  let res (f : Flight) := (f.results.filter (fun e => e.1 == n)).map (·.2)
  let tr (f : Flight) := (f.trace.filter (fun e => e.1 == n)).map (·.2)
  let judged := (res c).isPrefixOf (res o)
  (judged, tr o != tr c || o.verdicts.lookup n != c.verdicts.lookup n)
/-- Original and copy have both executed DONE: the lanes are compared and both leave. -/
def compareCopy (d : Dev) (o c : Flight) : Dev :=
  if !(o.finished && c.finished) then d
  else
    let z := c.zone
    let js := (List.range c.lanes.length).map (judgeLane o c)
    let judged := js.any (·.1)
    let bad := js.any (fun j => j.1 && j.2)
    let d := modBarz d z (fun b => { b with judged := b.judged + b2n judged, unjudged := b.unjudged + b2n !judged,
                                            mismatch := b.mismatch || bad })
    let d := if bad then noteFault (raise d (Rg.pageOf (Rg.baseZRAS z)) 2) (coreChan (32 * z + (barz d z).shadowCore)) false else d
    let d := dropFlight (dropFlight d o.id) c.id
    watchFormers (watchOld (watchBank (watchDisc d z) z)) z

/-- A root thread has executed DONE, its children have ended and its slots are clear. -/
def finishFlight (d : Dev) (cid t : Nat) (f : Flight) : Dev :=
  let z := f.zone
  let (ws, bad, d) := laneWords d cid t f
  if bad then coreUncorr d cid t 0 false
  else
    let d := bump d (Rg.CORE_FLIGHTS_DONE cid) 1
    let d := freeFlightThreads d f.id
    let d := modFlight d f.id (fun x => { x with verdicts := ws.zipIdx.map (fun e => (e.2, e.1.2.2 % 2 ^ 50)), finished := true })
    match f.copyOf with
    | none =>
      let d := (f.lanes.zip ws).foldl (fun d e => laneOut d z f.owner e.1 e.2.1 e.2.2.1 e.2.2.2) d
      let d := endFlight d f
      match flightById d f.id with
      | some o => (match d.bar.flights.find? (fun x => x.copyOf == some f.id) with | some c => compareCopy d o c | none => d)
      | none => d
    | some o =>
      let d := bump d (Rg.BAR_SHADOW_DONE z) 1
      match flightById d o, flightById d f.id with
      | some o, some c => compareCopy d o c
      | _, _ => d

/-- A child ends: its active lanes go to its parent's frame (R163). -/
def endChild (d : Dev) (cid t p : Nat) : Dev :=
  let x := thr d cid t
  let d := modThr d cid p (fun y => { y with rstack := y.rstack.map (fun r =>
    match r with
    | .child k true m _ => if k == t then .child k false x.act ((activeLanes x).map (fun n => (n, lctx x n))) else .child k true m []
    | r => r) })
  freeThread (dropRaises d cid t) cid t
/-- The lanes that a thread took when it started. -/
def threadLanes (d : Dev) (cid t : Nat) : List Nat :=
  match (thr d cid t).parent with
  | some p =>
    (thr d cid p).rstack.flatMap (fun r => match r with | .child k true m _ => if k == t then bitsOf m 32 else [] | _ => [])
  | none => List.range 32
/-- The thread's children have ended and none of its lanes has a pending slot. -/
def mayEnd (d : Dev) (cid t : Nat) : Bool :=
  let x := thr d cid t
  x.wait == .done && !(List.range 8).any (fun k => (thr d cid k).state == 2 && (thr d cid k).parent == some t) &&
    !slotPending d cid x.home (threadLanes d cid t) [0, 1, 2, 3]

/-- DONE: the thread waits for its end. -/
def execOpDone (c : Cid) (t : Tid) (f : BitVec 24) (s : State) : Host.Outcome State Fault Refusal :=
  s.onDevF (fun d => jumpOp 0x64 (f.toNat != 0) (kernelThread (thr d c t)) noStack d c t f (fun d =>
    endAsDone (dropRaises d c t) c t))
/-- DONE_COMPLETE: the end that a thread waits for comes about. -/
def execDoneComplete (c : Cid) (t : Tid) (s : State) : Host.Outcome State Fault Refusal :=
  s.onDevF (fun d =>
    let x := thr d c t
    if !mayEnd d c t then d
    else match x.parent with
      | some p => endChild d c t p
      | none =>
        match x.flight.bind (flightById d) with
        | some f => finishFlight d c t f
        | none => d)

/-! ## Kernel threads (R138, R139, R207) -/

/-- YIELD: the thread is not ready in the next CC (R157). -/
def execOpYield (c : Cid) (t : Tid) (f : BitVec 24) (s : State) : Host.Outcome State Fault Refusal :=
  s.onDevF (fun d => jumpOp 0x62 (f.toNat != 0) false noStack d c t f (fun d =>
    let d := advance d c t
    { d with core := { d.core with yields := tset zeroN d.core.yields c (t + 1) } }))
/-- WAIT: the thread's item has ended; a thread whose role has changed becomes a flight thread (R147). -/
def execOpWait (c : Cid) (t : Tid) (f : BitVec 24) (s : State) : Host.Outcome State Fault Refusal :=
  s.onDevF (fun d => jumpOp 0x63 (f.toNat != 0) (!kernelThread (thr d c t)) noStack d c t f (fun d =>
    let d := endWork d c t
    let d := if kernelRole d c t then modThr d c t (fun x => { x with state := 3, item := none }) else modThr d c t (fun x => { issued := x.issued })
    if isHub c then watchOld d else watchOld (watchBank d (cidZone c))))
/-- The offered item has a non-zero reserved field or a reserved core number (R138). -/
def badItem (pl : Nat) (v : W64) : Bool :=
  v.toNat / 2 ^ 53 % 8 != 0 || v.toNat / 2 ^ 61 != 0 ||
    (if pl == 0 then 4 ≤ itemCore v && itemCore v != 31 else 26 ≤ itemCore v && itemCore v != 31)
/-- POST: the item in A of lane 0 is queued, or the queue is busy. -/
def execOpPost (c : Cid) (t : Tid) (f : BitVec 24) (s : State) : Host.Outcome State Fault Refusal :=
  s.onDevF (fun d => jumpOp 0x65 (f.toNat != 0) (!kernelThread (thr d c t)) noStack d c t f (fun d =>
    let pl := cidPlace c
    let v := (lctx (thr d c t) 0).a
    let setZ (d : Dev) (z : Bool) := modCtx d c t 0 (fun l => { l with z := z })
    let bad := badItem pl v
    let d := if bad && pl != 0 then modPage d (barPage (pl - 1)) (fun s => { s with err := s.err ||| 8 }) else d
    if bad || 4096 - (items d pl).length ≤ eventResv d pl then
      let d := if pl == 0 then d else raise (bump d (Rg.BAR_POST_BUSY_CNT (pl - 1)) 1) (barPage (pl - 1)) 1
      advance (setZ d false) c t
    else advance (setZ (setItems d pl (items d pl ++ [v])) true) c t))
/-- PRIO: the thread's issue level. -/
def execOpPrio (c : Cid) (t : Tid) (f : BitVec 24) (s : State) : Host.Outcome State Fault Refusal :=
  s.onDevF (fun d => threadOp 0x66 (formPlain false 0 15) (!kernelThread (thr d c t)) false noStack d c t f (fun a _ d =>
    advance (watchLocks (modThr d c t (fun x => { x with level := a.d }))) c t))

/-! ## Verdicts (R161, R209) -/

/-- ACTION and REASON of the acting lanes' verdict words. -/
def verdictOp (op last act : Nat) (d : Dev) (cid t : Nat) (f : BitVec 24) : Dev :=
  let a := fa f
  let x := thr d cid t
  let ls := actingLanes x (a.s == 4)
  issue d cid t { word := opWord op f, field := badA (formPlain true 0 last) a, priv := kernelThread x, lanes := ls }
    (fun d =>
      let (vs, e, d) := readLanes d ls (fun d n => spaceRead d cid 1 (mAddr x.home n 0x1E) 2)
      if e != .ok then metError d cid t (opWord op f) e
      else
        let d := vs.foldl (fun d v =>
          coreWrite d cid 1 (mAddr x.home v.1 0x1E) 2 (act * 2 ^ 14 + v.2 % 2 ^ 14 / 64 * 64 + a.d)) d
        (advance d cid t, false))
def execOpDrop (c : Cid) (t : Tid) (f : BitVec 24) (s : State) : Host.Outcome State Fault Refusal :=
  s.onDevF (fun d => verdictOp 0x68 60 0 d c t f)
def execOpPunt (c : Cid) (t : Tid) (f : BitVec 24) (s : State) : Host.Outcome State Fault Refusal :=
  s.onDevF (fun d => verdictOp 0x69 63 2 d c t f)

/-! ## System (R170 to R176, R191, R210) -/

/-- TRAP: vector 16 + D. -/
def execOpTrap (c : Cid) (t : Tid) (f : BitVec 24) (s : State) : Host.Outcome State Fault Refusal :=
  s.onDevF (fun d =>
    let a := fa f
    let x := thr d c t
    issue d c t { word := opWord 0x70 f, field := badA (formPlain false 0 15) a, perLane := false }
      (fun d => (trap d c t (16 + a.d) (opWord 0x70 f) x.act, true)))
/-- RETT: return to CSR_TPC + D. -/
def execOpRett (c : Cid) (t : Tid) (f : BitVec 24) (s : State) : Host.Outcome State Fault Refusal :=
  s.onDevF (fun d =>
    let a := fa f
    let x := thr d c t
    issue d c t { word := opWord 0x71 f, illegal := !x.inTrap, field := badA (formPlain false 0 1) a, perLane := false }
      (fun d => (setPc (modThr d c t (fun x => { x with inTrap := false })) c t ((x.tpc + a.d) % 2 ^ 14), false)))

/-- Fork frames on a return stack. -/
def forkFrames (x : Thread) : Nat := (x.rstack.filter (fun r => match r with | .ret _ => false | _ => true)).length
/-- The value of a control register (R176); of those of a flight, a kernel thread reads a free value. -/
def csrRead (d : Dev) (cid t n : Nat) : Nat :=
  let x := thr d cid t
  let f := x.flight.bind (flightById d)
  match n with
  | 0 => b2n x.inTrap + b2n (kernelThread x) * 2 + b2n x.parent.isSome * 4 + x.bank * 8 + x.level * 16 + forkFrames x * 256
  | 1 => x.tpc
  | 2 => x.tcause
  | 3 => x.tinfo.toNat
  | 4 => x.tlanes
  | 5 => x.act
  | 6 => cid + t * 256
  | 7 => (match f with | some f => f.cls + f.level * 16 + f.lanes.length * 256 | none => (freeVal d).toNat)
  | _ => (match f with | some f => f.issues | none => (freeVal d).toNat)
/-- CSRR: A := the register in every active lane; Z and N at 64. -/
def execOpCsrr (c : Cid) (t : Tid) (f : BitVec 24) (s : State) : Host.Outcome State Fault Refusal :=
  s.onDevF (fun d => threadOp 0x72 (formPlain false 0 8) false true noStack d c t f (fun a ls d =>
    let v := csrRead d c t a.d
    let d := if 7 ≤ a.d && (thr d c t).flight.isNone then useFree d else d
    advance (ls.foldl (fun d n => modCtx d c t n (resultZN 64 v)) d) c t))
/-- CSRW: IN_TRAP and CSR_TPC alone take a value. -/
def execOpCsrw (c : Cid) (t : Tid) (f : BitVec 24) (s : State) : Host.Outcome State Fault Refusal :=
  s.onDevF (fun d => threadOp 0x73 (formPlain false 0 8) (!kernelThread (thr d c t)) false noStack d c t f (fun a _ d =>
    let v := (lctx (thr d c t) 0).a
    let d := match a.d with
      | 0 => modThr d c t (fun x => { x with inTrap := v.toNat.testBit 0 })
      | 1 => modThr d c t (fun x => { x with tpc := v.toNat % 2 ^ 14 })
      | _ => d
    advance d c t))

/-- A helper instruction of the thread is not complete at its target (R191). -/
def outstanding (d : Dev) (cid t : Nat) : Bool :=
  (List.range 10).any (fun h => (queue d cid h).any (fun e => e.t == t)) ||
    d.inf.results.any (fun r => r.cid == cid && r.t == t) || d.inf.posts.any (fun p => p.cid == cid && p.t == t) ||
    d.tbl.port.any (fun e => e.2.any (fun o => o.cid == cid && o.t == t)) ||
    d.lku.waiters.any (fun w => w.host.isNone && w.cid == cid && w.t == t)
/-- FENCE: the thread waits until nothing of it is outstanding. -/
def execOpFence (c : Cid) (t : Tid) (f : BitVec 24) (s : State) : Host.Outcome State Fault Refusal :=
  s.onDevF (fun d => threadOp 0x74 (formPlain false 0 0) false false noStack d c t f (fun _ _ d =>
    let d := advance d c t
    if outstanding d c t then modThr d c t (fun x => { x with wait := .fence }) else d))
def execFenceDone (c : Cid) (t : Tid) (s : State) : Host.Outcome State Fault Refusal :=
  s.onDev (fun d => if (thr d c t).wait == .fence && !outstanding d c t then modThr d c t (fun x => { x with wait := .none }) else d)
/-- HALT: the thread becomes HALTED before its next instruction and event HALT rises (R181). -/
def execOpHalt (c : Cid) (t : Tid) (f : BitVec 24) (s : State) : Host.Outcome State Fault Refusal :=
  s.onDevF (fun d => threadOp 0x75 (formPlain false 0 0) (!kernelThread (thr d c t)) false noStack d c t f (fun _ _ d =>
    coreEvent (haltThread (advance d c t) c t false) c 2))

/-- Opcodes of the map (R189) that are assigned or on the helper bus. -/
def assigned (op : Nat) : Bool :=
  op ≤ 0x21 || (0x28 ≤ op && op ≤ 0x36) || (0x40 ≤ op && op ≤ 0x42) || op == 0x48 || op == 0x4A || op == 0x4B ||
    (0x50 ≤ op && op ≤ 0x54) || (0x58 ≤ op && op ≤ 0x5A) || (0x60 ≤ op && op ≤ 0x66) || op == 0x68 || op == 0x69 ||
    (0x70 ≤ op && op ≤ 0x75) || (0xC0 ≤ op && op ≤ 0xEF)
/-- ILLEGAL_OP: an opcode that no instruction has. -/
def execIllegalOp (c : Cid) (t : Tid) (w : W32) (s : State) : Host.Outcome State Fault Refusal :=
  s.onDevF (fun d =>
    if assigned (w.toNat / 2 ^ 24) then d
    else issue d c t { word := w, illegal := true, perLane := false } (fun d => (d, true)))

end Sys2Proof.Machine
end

