-- ==== Sys2Proof/Machine/Events.lean ====
section
/-!
DEFINITION. The commands of the event and interrupt controller (R422 to R437).
-/

namespace Sys2Proof.Machine
open Sys2Proof

/-- EDGE: an edge on a source; a shared CORE source names the core whose INT_STATUS bit rose. -/
def execEdge (n : Fin 512) (core : Fin 26) (s : State) : Host.Outcome State Fault Refusal :=
  s.onDev (fun d =>
    if !realSource n then d
    else match coreSource n with
      | some (z, ev) =>
        let pg := Rg.pageOf (Rg.baseCORE (32 * z + core.val))
        edgeOn (noteCore (modPage d pg (fun p => { p with intStatus := p.intStatus ||| BitVec.ofNat 32 (2 ^ ev) })) n core true) n
      | none => edgeOn d n)

/-- SELECT: one MC cycle of the controller. -/
def execSelect (s : State) : Host.Outcome State Fault Refusal :=
  s.onDev (fun d => watchAlarm ([1, 2, 3, 4, 5, 6].foldl selectFor d))

/-- Address of CLAIM_t. -/
def claimAddr (t : Nat) : Nat := Rg.CLAIM_1 + 8 * (t - 1)
/-- Address of COMPLETE_t. -/
def completeAddr (t : Nat) : Nat := Rg.COMPLETE_1 + 8 * (t - 1)
/-- A target with a CLAIM register. -/
def claimTarget (t : Nat) : Bool := t == 1 || t == 2 || t == 4 || t == 5 || t == 6

/-- A read that the page answers: it exists, is reached and is READY. -/
def answers (d : Dev) (a : Nat) (m : Master) : Bool :=
  (pageId (Rg.pageOf a)).isSome && reaches d (Rg.pageOf a) m && (page d (Rg.pageOf a)).ready

/-- CLAIM: every master that reads in the cycle receives the same word; the source is claimed once. -/
def claimBy (d : Dev) (t : Nat) (ms : List Master) : Dev :=
  let a := claimAddr t
  let d := wakePage d
  let w := match selected d t with | some n => claimWord d n | none => 0
  let sel := selected d t
  let d := ms.foldl (fun d m => guardRead d a m (fun d => give d m w)) d
  if ms.any (answers d a) then (match sel with | some n => watchAlarm (claimSrc d n t) | none => d) else d

def execClaim (t : Fin 8) (ms : List Master) (s : State) : Host.Outcome State Fault Refusal :=
  s.onDev (fun d => if claimTarget t then claimBy d t ms else d)

/-- COMPLETE of target `t`. -/
def completeSrc (d : Dev) (t : Nat) (v : W32) : Dev :=
  let id := v.toNat % 1024
  let s := src d (id - 1)
  if id != 0 && id ≤ 512 && s.active && s.target == t then endActive d (id - 1)
  else raise (wr d Rg.IC_ERR (rd d Rg.IC_ERR ||| 1)) (Rg.pageOf Rg.baseIC) 0

def execComplete (t : Fin 8) (m : Master) (v : W32) (s : State) : Host.Outcome State Fault Refusal :=
  s.onDev (fun d => if t.val == 0 || t.val == 7 then d else guardWrite d (completeAddr t) m (fun d => completeSrc d t v))

/-- LATCHED_EDGE: the first MC cycle after the clock restarts. -/
def execLatchedEdge (n : Fin 512) (s : State) : Host.Outcome State Fault Refusal :=
  s.onDev (fun d =>
    if (src d n).latch && treeRuns d 2 then
      coalesce (modSrc d n (fun s => { s with latch := false, pending := true, merged := true, count := satInc8 s.count })) n true
    else d)

/-- COALESCE_RELEASE: the group's count or time threshold is reached. -/
def execCoalesceRelease (g : Fin 64) (s : State) : Host.Outcome State Fault Refusal :=
  s.onDev (fun d =>
    let c := rf d (Rg.IC_GROUP g) Fl.IC_GROUP_COUNT
    if (c != 0 && c ≤ (coGroup d g).edges) || groupTimedOut d g then releaseGroup d g else d)

/-- GROUP_RELEASE: bit i releases group i, or 32 + i. -/
def groupRelease (d : Dev) (hi : Bool) (v : W32) : Dev :=
  (bitsOf v.toNat 32).foldl (fun d i => releaseGroup d (i + 32 * b2n hi)) d
def execGroupRelease (m : Master) (hi : Bool) (v : W32) (s : State) : Host.Outcome State Fault Refusal :=
  s.onDev (fun d => guardWrite d (if hi then Rg.GROUP_RELEASE_HI else Rg.GROUP_RELEASE_LO) m (fun d => groupRelease d hi v))

/-! ## Timebase alarms (R435) -/

def alarmTime (d : Dev) (a : Nat) : Nat := rd64 d (Rg.ALARM_TIME_LO a) (Rg.ALARM_TIME_HI a)
def alarmDue (d : Dev) (a : Nat) : Bool := alarmTime d a ≤ nowNs d
/-- The alarm fires: it re-arms by its period, or disarms. -/
def alarmFires (d : Dev) (a : Nat) : Dev :=
  let p := (rd d (Rg.ALARM_PERIOD_NS a)).toNat
  let d := raise d (Rg.pageOf Rg.baseIC + 1) a
  if p != 0 then wf (wr64 d (Rg.ALARM_TIME_LO a) (Rg.ALARM_TIME_HI a) (alarmTime d a + p)) (Rg.ALARM_CTRL a) Fl.ALARM_CTRL_ARM 1
  else wf d (Rg.ALARM_CTRL a) Fl.ALARM_CTRL_ARM 0

def execAlarmFire (a : Fin 16) (s : State) : Host.Outcome State Fault Refusal :=
  s.onDev (fun d => if rb d (Rg.ALARM_CTRL a) Fl.ALARM_CTRL_ARM && alarmDue d a then alarmFires d a else d)

/-- ARM: already due, it fires at once and sets LATE. -/
def alarmArm (d : Dev) (a : Nat) : Dev :=
  if alarmDue d a then alarmFires (wf d (Rg.ALARM_CTRL a) Fl.ALARM_CTRL_LATE 1) a else wf d (Rg.ALARM_CTRL a) Fl.ALARM_CTRL_ARM 1
def execAlarmArm (a : Fin 16) (m : Master) (s : State) : Host.Outcome State Fault Refusal :=
  s.onDev (fun d => guardWrite d (Rg.ALARM_CTRL a) m (fun d => alarmArm d a))

/-- A write of a time clears ARM. -/
def alarmTimeWrite (d : Dev) (a : Nat) (hi : Bool) (v : W32) : Dev :=
  wf (wr d (if hi then Rg.ALARM_TIME_HI a else Rg.ALARM_TIME_LO a) v) (Rg.ALARM_CTRL a) Fl.ALARM_CTRL_ARM 0
def execAlarmTimeWrite (a : Fin 16) (m : Master) (hi : Bool) (v : W32) (s : State) : Host.Outcome State Fault Refusal :=
  s.onDev (fun d => guardWrite d (if hi then Rg.ALARM_TIME_HI a else Rg.ALARM_TIME_LO a) m (fun d => alarmTimeWrite d a hi v))

/-! ## SRC_STATE (R437) -/

def srcClear (d : Dev) (n : Nat) : Dev :=
  watchAlarm (modSrc d n (fun s => { s with pending := false, count := 0, merged := false, held := false, released := false, requested := false }))
def execSrcClear (n : Fin 512) (m : Master) (s : State) : Host.Outcome State Fault Refusal :=
  s.onDev (fun d => guardWrite d (Rg.SRC_STATE n) m (fun d => srcClear d n))

def forceComplete (d : Dev) (n : Nat) : Dev := if (src d n).active then endActive d n else d
def execForceComplete (n : Fin 512) (m : Master) (s : State) : Host.Outcome State Fault Refusal :=
  s.onDev (fun d => guardWrite d (Rg.SRC_STATE n) m (fun d => forceComplete d n))

end Sys2Proof.Machine
end

