-- ==== Sys2Proof/Machine/Hbm.lean ====
section
/-!
DEFINITION. The HBM controllers: choice and service of requests (R331, R332), refresh and activation defence (R336 to R338),
training, read-eye tracking and patrol scrub (R339, R343).
-/

namespace Sys2Proof.Machine
open Sys2Proof

/-- Rank of a service class (R331, rules 2 and 3). -/
def classRank (c : Nat) : Nat := match c with | 2 => 0 | 3 => 1 | 4 => 2 | 5 => 3 | 0 => 4 | _ => 5

/-- `x` goes before `y` at a bank whose open row is `r` (R331). -/
def goesBefore (r : Option Nat) (x y : HReq) : Bool :=
  if x.promoted != y.promoted then x.promoted
  else if x.promoted then x.order < y.order
  else if x.cls != y.cls then classRank x.cls < classRank y.cls
  else if (r == some x.row) != (r == some y.row) then r == some x.row
  else x.order < y.order

/-- The request a bank serves next: strictly the oldest in in-order mode. -/
def chooseReq (b : HBank) : Option HReq :=
  match b.q with
  | [] => none
  | x :: l => some (if b.inOrder then x else l.foldl (fun c y => if goesBefore b.openRow y c then y else c) x)

/-- Whether a hazard pair is queued. -/
def hazardLeft : List HReq → Bool
  | [] => false
  | x :: l => l.any (fun y => hazard x y) || hazardLeft l

/-- Activations of row `r` in the window. -/
def actCount (b : HBank) (r : Nat) : Nat := (b.acts.lookup r).getD 0
/-- Set the activations of row `r`. -/
def setAct (b : HBank) (r n : Nat) : HBank :=
  let rest := b.acts.filter (fun e => e.1 != r)
  { b with acts := if n == 0 then rest else (r, n) :: rest }

/-- R337, R338: an activation of row `x.row` for request `x` (scrub, migration and pattern tests do not count). -/
def activate (d : Dev) (pc k : Nat) (x : HReq) : Dev :=
  let s := pc / 32
  let d := bump d (Rg.HBM_ACTIVATES s) 1
  let d := modBank d pc k (fun b => { b with openRow := some x.row })
  if x.cls == 5 then d
  else
    let n := actCount (hbank d pc k) x.row + 1
    if n ≤ rf d (Rg.HBM_HAMMER s) Fl.HBM_HAMMER_THRESHOLD then modBank d pc k (fun b => setAct b x.row n)
    else
      let d := modBank d pc k (fun b => setAct b x.row 0)
      let d := raise (bump d (Rg.HBM_RFM s) 1) (hbmPage s) 1
      if rb d (Rg.HBM_THROTTLE s) Fl.HBM_THROTTLE_EN && 2 ≤ x.cls && x.cls ≤ 4 then
        let c := rf d (Rg.HBM_THROTTLE s) Fl.HBM_THROTTLE_COUNT
        let d := modHbm d (fun h => { h with throttle := tset zeroN h.throttle (1024 * s + x.requester) c })
        let d := wr d (Rg.HBM_THR_LAST s) (BitVec.ofNat 32 (x.requester + pc * 2 ^ 10))
        raise d (hbmPage s) 2
      else d

/-- A bank of an ACTIVE stack serves its next request. -/
def execHbmRequest (pc : Fin 128) (bank : Fin 48) (s : State) : Host.Outcome State Fault Refusal :=
  s.onDev (fun d =>
    let st := pc.val / 32
    if stackState d st != 2 then d
    else
      let b := hbank d pc bank
      match chooseReq b with
      | none => d
      | some x =>
        let d := if b.openRow == some x.row then d else activate d pc bank x
        let d := bump d (Rg.HBM_SERVED st x.cls) 1
        let d := bump d (if x.write then Rg.HBM_WRITES st else Rg.HBM_READS st) 1
        modBank d pc bank (fun b =>
          let q := b.q.filter (fun y => y.order != x.order)
          { b with q := q, inOrder := b.inOrder && hazardLeft q }))

/-- HBM_AGE.LIMIT of class `c`. -/
def ageLimit (d : Dev) (s c : Nat) : Nat :=
  rf d (Rg.HBM_AGE s (c / 2)) (if c % 2 == 0 then Fl.HBM_AGE_EVEN else Fl.HBM_AGE_ODD)

def execHbmPromote (pc : Fin 128) (bank : Fin 48) (idx : Nat) (s : State) : Host.Outcome State Fault Refusal :=
  s.onDev (fun d =>
    let st := pc.val / 32
    match (hbank d pc bank).q[idx]? with
    | some x =>
      if !x.promoted && ageLimit d st x.cls ≤ fcNow d - x.at_ then
        bump (modBank d pc bank (fun b => { b with q := lmod b.q idx (fun y => { y with promoted := true }) }))
          (Rg.HBM_PROMOTED st x.cls) 1
      else d
    | none => d)

/-- Number of the activation window that the timebase is in. -/
def hammerNow (d : Dev) (s : Nat) : Nat := nowNs d / (1000000 * max 1 (rf d (Rg.HBM_HAMMER s) Fl.HBM_HAMMER_WINDOW_MS))

/-- R337: the counts of every row restart at 0 at the start of a window. -/
def execHammerWindow (stack : Stack) (s : State) : Host.Outcome State Fault Refusal :=
  s.onDev (fun d =>
    let w := hammerNow d stack
    if w == tget zeroN d.hbm.window stack then d
    else modHbm d (fun h => { h with
      window := tset zeroN h.window stack w
      banks := h.banks.filterMap (fun e =>
        if e.1 / 48 / 32 == stack.val then
          (if { e.2 with acts := [] } = bankDflt e.1 then none else some (e.1, { e.2 with acts := [] }))
        else some e) }))

/-- R336: a bank of a pseudo-channel whose refresh is due refreshes while its stack is not in self-refresh. -/
def execRefresh (pc : Fin 128) (_bank : Fin 48) (s : State) : Host.Outcome State Fault Refusal :=
  s.onDev (fun d =>
    if refreshes d (pc.val / 32) && refreshDue d pc ≤ nowNs d then
      bump (modHbm d (fun h => { h with refAt := tset zeroN h.refAt pc (nowNs d) })) (Rg.HBM_REFRESHES (pc.val / 32)) 1
    else d)

/-- R339: the four stacks train in parallel: a trained stack serves and its pages answer, a pseudo-channel of it that failed is judged
permanent at once, and its blocks are cleared (R540); a stack that failed raises TRAIN_FAIL and the module runs without HBM. -/
def execHbmTraining (x : Training) (s : State) : Host.Outcome State Fault Refusal :=
  s.onDevF (fun d => (List.range 4).foldl (fun d k =>
    if stackState d k != 1 then d
    else if x.ok.getD k false then
      let d := wf d (Rg.HBM_STATUS k) Fl.HBM_STATUS_STATE 2
      let d := (List.range 8).foldl (fun d p => modPage d (hbmPage k + p) (fun x => { x with ready := true })) d
      clearStack ((x.failed.filter (fun pc => pc.val / 32 == k)).foldl (fun d pc => noteFault d (pcChan pc) true) d) k
    else
      let d := wf d (Rg.HBM_STATUS k) Fl.HBM_STATUS_STATE 0
      raise (modHbm d (fun h => { h with absent := true })) (hbmPage k) 5) d)

/-- R339: read-eye tracking of an ACTIVE stack, paused while its page 0 is held (R344). It changes no other state. -/
def execReadEyeTrack (stack : Stack) (s : State) : Host.Outcome State Fault Refusal :=
  s.onDev (fun d =>
    if stackState d stack == 2 && rb d (Rg.HBM_CTRL stack) Fl.HBM_CTRL_TRACK_EN && !(page d (hbmPage stack)).held then
      modHbm d (fun h => { h with tracked := tset zeroN h.tracked stack (nowNs d) })
    else d)

/-- R343: patrol scrub reads a block of a pseudo-channel in service in class 5, as a reader does (R329), and goes on to the next one. -/
def execPatrolScrub (pc : Fin 128) (block : Nat) (s : State) : Host.Outcome State Fault Refusal :=
  s.onDevF (fun d =>
    let st := pc.val / 32
    if stackState d st == 2 && rb d (Rg.HBM_CTRL st) Fl.HBM_CTRL_SCRUB_EN && !(page d (hbmPage st)).held && block < 3145728 &&
        inService d (pcChan pc) then
      let x : HReq := { cls := 5, row := blockRow block, write := false, requester := 1023, at_ := fcNow d,
                        order := d.hbm.seq, promoted := false }
      let q := hbank d pc (blockBank block)
      let hz := q.q.any (fun y => hazard y x)
      let d := if hz && !q.inOrder then bump d (Rg.HBM_HAZARD st) 1 else d
      let d := modHbm d (fun h => { h with seq := h.seq + 1, scrub := tset zeroN h.scrub pc ((block + 1) % 3145728) })
      noteUncorr (modBank d pc (blockBank block) (fun q => { q with q := q.q ++ [x], inOrder := q.inOrder || hz })) (heldAddr d pc block) 256
    else d)

/-- R342: the copy of a retired pseudo-channel's blocks into the spare area begins; a held HBM page 0 delays it. -/
def execMigration (pc : Fin 128) (s : State) : Host.Outcome State Fault Refusal :=
  s.onDev (fun d =>
    if d.hbm.spareOf == some pc.val && d.hbm.copy == 0 && !(page d (hbmPage (pc.val / 32))).held then
      (List.range 4).foldl (fun d k => wf d (Rg.HBM_STATUS k) Fl.HBM_STATUS_MIGRATING 1)
        (modHbm d (fun h => { h with copy := 1, copied := 0 }))
    else d)

/-- R342: every block has been copied, poisoned where it read uncorrectable: the spare area serves the pseudo-channel. -/
def execMigrationDone (pc : Fin 128) (s : State) : Host.Outcome State Fault Refusal :=
  s.onDev (fun d =>
    if d.hbm.spareOf == some pc.val && d.hbm.copy == 1 then
      let d := serveSlots (serveOwn d pc spareBlocks 0) pc 0 slotsEach
      (List.range 4).foldl (fun d k =>
        wf (wf (wf d (Rg.HBM_STATUS k) Fl.HBM_STATUS_MIGRATING 0) (Rg.HBM_STATUS k) Fl.HBM_STATUS_SPARE_USED 1)
          (Rg.HBM_STATUS k) Fl.HBM_STATUS_SPARE_PC pc.val)
        (modHbm d (fun h => { h with copy := 2, copied := 0 }))
    else d)

end Sys2Proof.Machine
end

