-- ==== Sys2Proof/Machine/Urn.lean ====
section
/-!
DEFINITION. Urn, the buffer pool manager (R268 to R295): allocation, transfers, references, leak passes, spill pages.
-/

namespace Sys2Proof.Machine
open Sys2Proof

/-! ## Allocation (R274) -/

/-- The requester is an inject DMA engine of a host (R348). -/
def injectEngine (r : Nat) : Bool := 912 ≤ r && decide ((r - 912) / 48 < 2) && decide (16 ≤ (r - 912) % 48) && decide ((r - 912) % 48 < 24)
/-- The pool lets a request of `n` cells have them: within URN_POOL_RESERVE, or into the RESERVE band for a marked inject. -/
def poolRoom (d : Dev) (z n : Nat) (marked : Bool) : Bool :=
  ((urnz d z).occ + n ≤ rf d (Rg.URN_POOL_RESERVE z) Fl.URN_POOL_RESERVE_CELLS || marked) && n ≤ freeCells d z
/-- A request of cycle `now` is not granted: the empty answer, and the back-off of Steep. -/
def allocEmpty (d : Dev) (now z r : Nat) : Dev := lose (bump d (Rg.ALLOC_EMPTY z) 1) now r (barred d r)

/-- A request that names an owner, and the cells of its frame. -/
def allocFits (r : AllocReq) : Bool :=
  r.cells.length == cellsOf r.len && decide (1 ≤ r.cells.length) && decide (r.cells.length ≤ 36) && decide (1 ≤ r.owner / 8192) && decide (r.owner / 8192 ≤ 6)
/-- The requests of cycle `now` in Steep's order, `reqs` and `cells` being left: each is granted whole, or receives the empty answer and uses
nothing up. A request of more than 32 cells is granted alone in its cycle (DESIGN CHOICE, log 257). -/
def allocAll (now z : Nat) : Dev → Nat → Nat → List AllocReq → Dev
  | d, _, _, [] => d
  | d, reqs, cells, r :: l =>
    let n := r.cells.length
    if reqs != 0 && (n ≤ cells || cells == 32) && !barred d r.requester && poolRoom d z n (r.marked && injectEngine r.requester) &&
        cellsAvail d z r.cells then
      let d := newBuf d z r.cells { kind := r.owner / 8192, index := r.owner % 8192, len := r.len, bytes := [], marked := false }
      allocAll now z (granted (chargePool d z n) now z r.requester) (reqs - 1) (cells - n) l
    else allocAll now z (allocEmpty d now z r.requester) reqs cells l

/-- ALLOC: the requests of one FC cycle at the zone's allocation port, resource `z` of Steep, one of each requester. -/
def execAlloc (z : Zone) (reqs : List AllocReq) (s : State) : Host.Outcome State Fault Refusal :=
  s.onDev (fun d =>
    let now := cycleOf d z
    let ok (r : AllocReq) : Bool := allocFits r && mayPresent d now r.requester
    let order := judgeOrder d z ((reqs.filter ok).map (·.requester)).dedup
    let l := order.filterMap (fun k => reqs.find? (fun r => ok r && r.requester == k))
    endCycle (allocAll now z d (slotsOf z - (resource d z).tenants.length) 32 l) z now)

/-- One request of `n` cells by a requester that has its cycle of the port to itself; none: it receives the empty answer, or is too early. -/
def allocAlone (d : Dev) (z r n : Nat) (marked : Bool) (cells : List Nat) : Option Dev × Dev :=
  let now := cycleOf d z
  if !mayPresent d now r then (none, d)
  else if barred d r || !poolRoom d z n marked then (none, endCycle (allocEmpty d now z r) z now)
  else if cells.length != n || !cellsAvail d z cells then (none, d)
  else (some (endCycle (granted d now z r) z now), d)

/-- Transfers and frees of R272 and of the inject path (R410), by owner kind; 0 is free. -/
def transferAllowed (a b : Nat) : Bool :=
  [(1, 2), (2, 2), (2, 3), (3, 4), (3, 6), (3, 0), (4, 0), (6, 0), (6, 4), (1, 3)].contains (a, b)

def execOwnerTransfer (z : Zone) (handle : BitVec 32) (by_ : Nat) (dst : Option Nat) (s : State) :
    Host.Outcome State Fault Refusal :=
  s.onDev (fun d =>
    if hZone handle != z.val || by_ / 8192 == 0 || 6 < by_ / 8192 then d
    else match bufOf d handle with
      | none => if hSpill handle then d else freeRefused d z (by_ / 8192)
      | some b =>
        -- not the record's owner, which nobody is of a SHARED buffer (R275)
        if b.kind != by_ / 8192 || b.index != by_ % 8192 then freeRefused d z (by_ / 8192)
        else if !transferAllowed (by_ / 8192) ((dst.getD 0) / 8192) then d
        else match dst with
          | some o =>
            if o / 8192 == 0 then freeBy d handle (by_ / 8192) (by_ % 8192)
            else handOver d handle (by_ / 8192) (by_ % 8192) (o / 8192) (o % 8192)
          | none => freeBy d handle (by_ / 8192) (by_ % 8192))

def execRefAdd (z : Zone) (handle : BitVec 32) (m by_ : Nat) (s : State) : Host.Outcome State Fault Refusal :=
  s.onDev (fun d => if hZone handle != z.val then d else (addRefs d handle m (by_ / 8192) (by_ % 8192)).getD d)

def execRefDecrement (z : Zone) (handle : BitVec 32) (s : State) : Host.Outcome State Fault Refusal :=
  s.onDev (fun d => if hZone handle != z.val then d else decRef d handle)

/-! ## Leak audit (R281 to R284) -/

/-- Age bucket of an age in µs. -/
def ageBucket (us : Nat) (stale : Bool) : Nat :=
  if stale || 10000000 ≤ us then 7 else if us < 10 then 0 else if us < 100 then 1 else if us < 1000 then 2
  else if us < 10000 then 3 else if us < 100000 then 4 else if us < 1000000 then 5 else 6

/-- The pass visits one record. -/
def leakVisit (d : Dev) (z : Nat) (key : Nat) : Dev :=
  let b := bufAt d key
  let age := (nsIn d z / 1000 + 2 ^ 32 - b.stamp) % 2 ^ 32
  let stale := b.stale || 2 ^ 31 ≤ age
  let d := modBuf d key (fun x => { x with stale := stale })
  let d := modUrnz d z (fun u => { u with hist := lmod u.hist (8 * (b.kind - 1) + ageBucket age stale) (· + 1) })
  let lim := Rg.URN_AUDIT_LIMIT z (b.kind - 1)
  -- a record that a transfer has changed in this cycle is neither logged nor reclaimed (R283)
  if b.moved != d.mc + 1 && (stale || rf d lim Fl.URN_AUDIT_LIMIT_LIMIT * 100 ≤ age) then
    let rec_ := rb d lim Fl.URN_AUDIT_LIMIT_RECLAIM
    let u := urnz d z
    let ms := if stale then 32767 else min 32767 (age / 1000)
    let d := wr d (Rg.LEAK_LOG_HANDLE z u.logNext) (mkHandle z (key % 131072) b.incarn)
    let d := wr d (Rg.LEAK_LOG_INFO z u.logNext) (BitVec.ofNat 32 (b.kind * 8192 + b.index + ms * 2 ^ 16 + b2n rec_ * 2 ^ 31))
    let d := modUrnz d z (fun u => { u with logNext := (u.logNext + 1) % 16, logValid := min 16 (u.logValid + 1) })
    let d := raise (bump d (Rg.LEAK_FOUND z) 1) (urnPage z) 5
    if rec_ then bump (freeRec d key) (Rg.LEAK_RECLAIMED z) 1 else d
  else d

/-- R281: at a multiple of 100 ms, with the audit enabled, a pass visits every record in use; a multiple that has started
a pass starts none again. -/
def execLeakPass (z : Zone) (s : State) : Host.Outcome State Fault Refusal :=
  s.onDev (fun d =>
    let u := urnz d z
    let k := nsIn d z / 100000000 + 1
    if !rb d (Rg.URN_AUDIT_CTRL z) Fl.URN_AUDIT_CTRL_EN || u.leakRun || k ≤ u.leakAt then d
    else
      let d := modUrnz d z (fun u => { u with leakRun := true, leakAt := k, hist := List.replicate 48 0 })
      let keys := (d.urn.bufs.filter (fun e => e.1 / 131072 == z.val && e.2.kind != 0)).map (·.1)
      keys.foldl (fun d k => leakVisit d z k) d)

/-- R281: the pass ends; HIST takes its buckets and PASSES counts it. -/
def execLeakPassEnd (z : Zone) (s : State) : Host.Outcome State Fault Refusal :=
  s.onDev (fun d =>
    let u := urnz d z
    if !u.leakRun then d
    else
      let d := u.hist.zipIdx.foldl (fun d e => wr d (Rg.URN_HIST z e.2) (BitVec.ofNat 32 e.1)) d
      modUrnz d z (fun u => { u with leakRun := false, hist := [], passes := (u.passes + 1) % 2 ^ 22 }))

/-! ## Spill pages (R285 to R292) -/

/-- The 16 bytes of a descriptor (R273). -/
def descBytes (x : Desc) (h : W32) : List Byte :=
  beBytes 4 h.toNat ++ beBytes 2 x.len ++ beBytes 2 x.edit ++ beBytes 4 (x.seq % 65536 + x.dom % 65536 * 65536) ++
  [BitVec.ofNat 8 x.port,
   BitVec.ofNat 8 (x.cls % 8 * 32 + b2n x.ecn * 16 + b2n x.ts2 * 8 + b2n x.ctrl * 4 + b2n x.lossless * 2), 0, 0]

/-- A descriptor read back from memory. -/
def descRead (m : Memory) (a : Nat) (x : Desc) : Desc :=
  let f := (m.read (a + 13)).toNat
  { handle := BitVec.ofNat 32 (m.be a 4), len := m.be (a + 4) 2, edit := m.be (a + 6) 2,
    seq := m.be (a + 8) 4 % 65536, dom := m.be (a + 8) 4 / 65536, port := (m.read (a + 12)).toNat, cls := f / 32,
    ecn := f.testBit 4, ts2 := f.testBit 3, ctrl := f.testBit 2, lossless := f.testBit 1, copy := x.copy, inj := x.inj }

/-- Global address of a page. -/
def pageAddr (d : Dev) (z num : Nat) : Nat := regionBase d z + num * 4096

/-- NEXT and its copy in descriptor slots 7 and 8 (R285). -/
def writeNext (m : Memory) (a next : Nat) : Memory :=
  ((m.writeN a (beBytes 4 next)).writeN (a + 0x8E) (beBytes 2 (next / 65536))).writeN (a + 0x9E) (beBytes 2 next)

/-- The bytes of one data slot: 256 bytes of the frame; bytes past its end are free. -/
def slotBytes (d : Dev) (sl : W32 × Nat) : List Byte :=
  let b := frameOf d sl.1
  (List.range 256).map (fun j => (b[256 * sl.2 + j]?).getD (Config.freeByte d.free j))
/-- The slot's cell is read (R373). -/
def readSlot (d : Dev) (z : Nat) (sl : W32 × Nat) : Dev :=
  let b := bufAt d (hKey sl.1)
  checkCell d z (b.cells.getD sl.2 0) (cellFill b.len sl.2)

/-- Slot of the first whole frame of a page; 0 when none starts there. -/
def firstSlot (p : Page) : Nat := match p.descs with | [] => 0 | (_, k) :: _ => k

/-- The image of page `p` of VOQ `v` in memory. -/
def pageImage (d : Dev) (z v : Nat) (m : Memory) (p : Page) (next : Nat) : Memory :=
  let a := pageAddr d z p.num
  let m := m.writeN a (List.replicate 256 0)
  let m := m.writeN (a + 4) ([BitVec.ofNat 8 p.descs.length, BitVec.ofNat 8 (firstSlot p)] ++ beBytes 2 v ++ beBytes 4 p.pos)
  let m := p.descs.zipIdx.foldl (fun m e =>
    m.writeN (a + 16 + 16 * e.2) (descBytes e.1.1 (spillHandle z p.num e.1.2))) m
  let m := writeNext m a next
  p.slots.zipIdx.foldl (fun m e => m.writeN (a + 256 * (e.2 + 1)) (slotBytes d e.1)) m

/-- Requester number of a zone's Urn (R348). -/
def urnReq (z : Nat) : Nat := 866 + 8 * z

/-- A page has no room for more: its slots or its descriptors are full. -/
def pageFull (p : Page) : Bool := p.slots.length == 15 || p.descs.length == 15

/-- Cells of the VOQ's frames ahead of its chain. -/
def headCells (d : Dev) (z v : Nat) : Nat := ((voq d z v).q.map (descCells d)).foldl (· + ·) 0
/-- The refill threshold of R288. -/
def refillLevel (d : Dev) (z : Nat) : Nat := rf d (Rg.URN_SPILL_LEVELS z) Fl.URN_SPILL_LEVELS_REFILL

/-- The refill has reached page `i` of the chain: it is the head page, or the head page's frames left to refill all run into it (R287,
R288). -/
def refillAt (d : Dev) (chain : List Page) (i : Nat) : Bool :=
  i == 0 || (i == 1 && match chain with
    | p :: _ => !p.descs.isEmpty && p.descs.all (fun e => !byRef d e.1 && 15 < e.2 - 1 + cellsOf e.1.len)
    | [] => false)

/-- R287: the chain's first unwritten page goes to HBM when it is full, or when it is the only unwritten page and the
refill has reached it; frames then wholly in written pages give up their cells. -/
def pageWrite (z v : Nat) (m : Memory) (d : Dev) : Memory × Dev :=
  let q := voq d z v
  match q.chain.findIdx? (fun p => !p.written) with
  | none => (m, d)
  | some i =>
    let p := q.chain.getD i { num := 0, descs := [], slots := [], pos := 0, written := false }
    let only := (q.chain.filter (fun p => !p.written)).length == 1
    -- its 256 granules wait for the capacity that packets leave (R18)
    if !linkFree d z true 256 then (m, d)
    else if !(pageFull p || (only && refillAt d q.chain i && headCells d z v < refillLevel d z)) then (m, d)
    else
      let next := match q.chain[i + 1]? with | some n => n.num | none => 0xFFFFFFFF
      let a := pageAddr d z p.num
      let m := keepLost m (pageImage d z v m p next) d a 4096
      let d := p.slots.foldl (fun d sl => readSlot d z sl) d
      let d := crossLink (clearPoison (hbmAcceptAll d 0 (urnReq z) true a 4096) a 4096) z true 256
      let (m, d) := match i with
        | 0 => (m, d)
        | j + 1 => match q.chain[j]? with
          | some b =>
            let a := pageAddr d z b.num
            (keepLost m (writeNext m a p.num) d a 256, hbmAccept d 0 (urnReq z) true a 256)
          | none => (m, d)
      let chain := lmod q.chain i (fun p => { p with written := true })
      let open_ := (chain.filter (fun p => !p.written)).flatMap (fun p => p.slots.map (·.1))
      let done := ((p.slots.map (·.1)).eraseDups).filter (fun h => !open_.contains h)
      let d := useFree d
      let chain := chain.map (fun p => { p with descs := p.descs.map (fun e =>
        if done.contains e.1.handle then ({ e.1 with handle := spillHandle z p.num e.2 }, e.2) else e) })
      let d := modVoq d z v (fun q => { q with chain := chain })
      let d := done.foldl (fun d h => freeBy d h 4 v) d
      (m, bump d (Rg.SPILL_OUT z) done.length)

def execPageWrite (z : Zone) (voq : Fin 2048) (s : State) : Host.Outcome State Fault Refusal :=
  s.onMemF (pageWrite z voq)

/-- Data slots of a frame of `n` slots whose first is slot `k` of page `i` of the chain, as (page, slot). -/
def frameSlots (i k n : Nat) : List (Nat × Nat) := (List.range n).map (fun j => (i + (k - 1 + j) / 15, (k - 1 + j) % 15 + 1))

/-- A data slot of the chain that reads uncorrectable. -/
def slotPoisoned (d : Dev) (z : Nat) (chain : List Page) (e : Nat × Nat) : Bool :=
  match chain[e.1]? with | some p => hbmPoisonedAny d (pageAddr d z p.num + 256 * e.2) 256 | none => false

/-- Refill the frames of the head page in order while the level and the cells offered allow it. -/
def refillFrames (z v : Nat) (m : Memory) (bad : List (Nat × Nat)) (nextBad : Bool) :
    List (Desc × Nat) → List Nat → Nat → Dev → Dev × List (Desc × Nat)
  | [], _, _, d => (d, [])
  | (x, k) :: l, cells, i, d =>
    let q := voq d z v
    let hp := q.chain.headD { num := 0, descs := [], slots := [], pos := 0, written := false }
    let y := descRead m (pageAddr d z hp.num + 16 + 16 * i) x
    if refillLevel d z ≤ headCells d z v then (d, (x, k) :: l)
    else if byRef d x then
      let y := { y with handle := x.handle }
      refillFrames z v m bad nextBad l cells (i + 1) (bump (modVoq d z v (fun q => { q with q := q.q ++ [y] })) (Rg.SPILL_IN z) 1)
    else
      let n := cellsOf x.len
      let sl := frameSlots 0 k n
      if sl.any (fun e => match q.chain[e.1]? with | some p => !p.written | none => true) || (nextBad && sl.any (fun e => e.1 != 0)) then
        (d, (x, k) :: l)
      else if sl.any (fun e => bad.contains e || slotPoisoned d z q.chain e) || hbmPoisoned d (pageAddr d z hp.num + 16 + 16 * i) 16 then refillFrames z v m bad nextBad l cells (i + 1) (bump d (Rg.SPILL_DROP z) 1)
      else match allocAlone d z (urnReq z) n false (cells.take n) with
      | (none, d) => (d, (x, k) :: l)
      | (some d, _) =>
        let bytes := sl.flatMap (fun e => match q.chain[e.1]? with
          | some p => m.readN (pageAddr d z p.num + 256 * e.2) 256
          | none => [])
        let d := chargePool (newBuf d z (cells.take n) { kind := 4, index := v, len := x.len, bytes := bytes.take x.len, tstamp := freeVal d }) z n
        let d := fillCells d z (cells.take n) x.len
        let h := headHandle d z (cells.take n)
        let d := useFree d
        refillFrames z v m bad nextBad l (cells.drop n) (i + 1)
          (bump (modVoq d z v (fun q => { q with q := q.q ++ [{ y with handle := h }] })) (Rg.SPILL_IN z) 1)

/-- Drop the leading pages whose last frame has been refilled. -/
def dropEmpty : List Page → List Page
  | [] => []
  | p :: l => if p.written && p.descs.isEmpty then dropEmpty l else p :: l

/-- R288, R292: the head page is read back; its last frame gone, the page is freed; a page whose NEXT is lost ends the
chain. -/
def refill (z v : Nat) (cells : List Nat) (bad : List (Nat × Nat)) (nextBad : Bool) (m : Memory) (d : Dev) : Dev :=
  match (voq d z v).chain with
  | [] =>
    -- spill mode ends with the chain empty: none has been begun
    if (voq d z v).spill && headCells d z v < refillLevel d z then watchPages (modVoq d z v (fun q => { q with spill := false })) z else d
  | p :: _ =>
    if !p.written || refillLevel d z ≤ headCells d z v || !linkFree d z false 256 then d
    else
      let d := crossLink d z false 256
      let a := pageAddr d z p.num
      let nextBad := nextBad || (hbmPoisoned d a 4 && (hbmPoisoned d (a + 0x8E) 2 || hbmPoisoned d (a + 0x9E) 2))
      let d := hbmAcceptAll d 1 (urnReq z) false a 4096
      let i := (m.read (pageAddr d z p.num + 4)).toNat - p.descs.length
      let (d, rest) := refillFrames z v m bad nextBad p.descs cells i d
      let m' := fun (q : Voq) => match q.chain with
        | p :: r => { q with chain := { p with descs := rest } :: r }
        | [] => q
      let d := modVoq d z v m'
      if nextBad && (rest.all (fun e => !byRef d e.1 && (frameSlots 0 e.2 (cellsOf e.1.len)).any (fun x => x.1 != 0))) then
        let lost := (voq d z v).chain.drop (b2n rest.isEmpty)
        let d := (chainDescs lost).foldl (fun d x => dropDesc d v x) d
        let d := modVoq d z v (fun q => { q with chain := [], spill := false, pages := 0 })
        let d := modUrnz d z (fun u => { u with lost := min 31 (u.lost + lost.length), lostPages := u.lostPages ++ lost.map (·.num) })
        watchPages (bump d (Rg.SPILL_DROP z) lost.length) z
      else
        let d := modVoq d z v (fun q =>
          let c := dropEmpty q.chain
          { q with chain := c, spill := !c.isEmpty, pages := if c.isEmpty then 0 else q.pages })
        watchPages d z

def execRefill (z : Zone) (voq : Fin 2048) (cells : List Nat) (bad : List (Nat × Nat)) (nextBad : Bool) (s : State) :
    Host.Outcome State Fault Refusal := s.onDevM (refill z voq cells bad nextBad)

/-! ## Windows (R294, R295) -/

/-- R294: the record of a handle is shown; another zone's handle, or a spilled one, is a reserved value. -/
def urnPeek (d : Dev) (z : Nat) (h : W32) : Dev :=
  let b := bufAt d (hKey h)
  let match_ := (bufOf d h).isSome
  let d := wr d (Rg.URN_PEEK z) h
  let d := wr d (Rg.URN_PEEK_OWNER z)
    (BitVec.ofNat 32 (b.kind * 8192 + b.index + b.incarn.toNat * 2 ^ 16 + b2n match_ * 2 ^ 24 + b2n b.stale * 2 ^ 25))
  let d := wr d (Rg.URN_PEEK_INFO z) (BitVec.ofNat 32 (b.count + b.cells.length * 2 ^ 16))
  wr d (Rg.URN_PEEK_STAMP z) (BitVec.ofNat 32 b.stamp)

def execUrnPeek (z : Zone) (m : Master) (handle : BitVec 32) (s : State) : Host.Outcome State Fault Refusal :=
  s.onDev (fun d => guardWrite d (Rg.URN_PEEK z) m (fun d =>
    if hSpill handle || hZone handle != z.val then rsvd d (Rg.URN_PEEK z) m else urnPeek d z handle))

/-- R295: the leak log is emptied. -/
def logClear (d : Dev) (z : Nat) : Dev :=
  let d := (List.range 16).foldl (fun d i => wr (wr d (Rg.LEAK_LOG_HANDLE z i) 0) (Rg.LEAK_LOG_INFO z i) 0) d
  modUrnz d z (fun u => { u with logValid := 0, logNext := 0 })

def execLogClear (z : Zone) (m : Master) (s : State) : Host.Outcome State Fault Refusal :=
  s.onDev (fun d => guardWrite d (Rg.URN_AUDIT_CTRL z) m (fun d => logClear d z))

end Sys2Proof.Machine
end

