-- ==== Sys2Proof/Machine/HostPort.lean ====
section
/-!
DEFINITION. The host ports: doorbells and BAR2 (R402, R403), punt and inject rings (R408 to R410), moderation, vectors and power
states (R413, R414), function resets (R404) and links (R419), and the bite of a host engine (R352).
-/

namespace Sys2Proof.Machine
open Sys2Proof

/-! ## Doorbells and BAR2 (R402, R403) -/

/-- A write of a doorbell. Bits [31:16] that are not 0 discard it (log 41); so does an index that makes the ring more than full. -/
def doorbell (d : Dev) (h kind r nbytes : Nat) (v : W32) : Dev :=
  if nbytes != 4 then hifErr d h 1
  else if 65536 ≤ v.toNat then d
  else
    let c := ringConsumed d h kind r
    let n := if kind == 3 then (c + 65536 - v.toNat) % 65536 else (v.toNat + 65536 - c) % 65536
    if ringSize d h kind r < n then hifErr d h 2
    else
      let d := wf d (ringIdx h kind r) Fl.PRING_IDX_DOORBELL v.toNat
      if kind == 1 then modRing d h 1 r (fun x => { x with wait := none }) else d

def execPuntDoorbell (h : Host2) (r : Fin 64) (nbytes : Nat) (v : W32) (s : State) : Host.Outcome State Fault Refusal :=
  s.onDev (fun d => doorbell d h 0 r nbytes v)
def execInjectDoorbell (h : Host2) (r : Fin 64) (nbytes : Nat) (v : W32) (s : State) : Host.Outcome State Fault Refusal :=
  s.onDev (fun d => doorbell d h 1 r nbytes v)
def execTdmaDoorbell (h : Host2) (r : Fin 8) (nbytes : Nat) (v : W32) (s : State) : Host.Outcome State Fault Refusal :=
  s.onDev (fun d => doorbell d h 2 r nbytes v)
def execEventDoorbell (h : Host2) (r : Fin 4) (nbytes : Nat) (v : W32) (s : State) : Host.Outcome State Fault Refusal :=
  s.onDev (fun d => doorbell d h 3 r nbytes v)

/-- The BAR2 offset lies in a word that R402 lists. -/
def bar2Listed (off : Nat) : Bool :=
  let bell (base n : Nat) : Bool := base ≤ off && off < base + 8 * n && off % 8 < 4
  bell 0 64 || bell 0x1000 64 || bell 0x2000 8 || bell 0x3000 4 || (0x10000 ≤ off && off < 0x10400) ||
    (0x20000 ≤ off && off < 0x20800) || (0x21000 ≤ off && off < 0x21010)

def execBar2HoleAccess (h : Host2) (off : Nat) (write : Bool) (s : State) : Host.Outcome State Fault Refusal :=
  s.onDev (fun d =>
    if bar2Listed off then d
    else
      let d := hifErr d h 0
      if write then d else emit d (.barReply h 0))

/-! ## Punts (R408) -/

/-- Words of a descriptor. -/
def dword (l : List W32) (i : Nat) : Nat := (l.getD i 0).toNat

/-- STATUS of a punt descriptor before the copy. -/
def puntStatus (d : Dev) (j : PuntJob) (w : List W32) (readErr : Bool) : Nat :=
  let n := dword w 2
  if readErr then 5
  else if n < 64 || 16384 ≤ n || (List.range 5).any (fun i => dword w (3 + i) != 0) then 1
  else if isolated d (hZone j.handle) then 6 else 0

/-- The copy of the oldest punt of a ring ends with a status: its bytes, its completion, its buffer freed. -/
def puntFinish (d : Dev) (h r : Nat) (j : PuntJob) (w : List W32) (status : Nat) : Dev :=
  let f := frameOf d j.handle
  let data := f.take (f.length - 4)
  let n := if status == 0 then min data.length (dword w 2) else 0
  let d := readFrame d j.handle n
  let d := setPuntJobs d h r ((puntJobs d h r).drop 1)
  let d := if status == 0 then
      bump (bump (emit (toL0 d h) (.hostBytes h (dword w 0 + dword w 1 * 2 ^ 32) (data.take n))) (Rg.PUNT_FRAMES h) 1) (Rg.PUNT_BYTES h) n
    else if status == 6 then isoDrop d (hZone j.handle) else d
  let d := if status == 5 then hifErr d h 3 else d
  let d := makeEntry d h 0 r
    [BitVec.ofNat 32 (j.idx % 65536 + n * 2 ^ 16 + b2n (status == 0 && n < data.length) * 2 ^ 30),
     BitVec.ofNat 32 (j.reason % 64 + j.port % 256 * 2 ^ 8 + j.cls % 8 * 2 ^ 16 + b2n j.ctrl * 2 ^ 19 + status * 2 ^ 20),
     BitVec.ofNat 32 (j.stamp.toNat / 2 ^ 16), BitVec.ofNat 32 (j.user % 256)]
  freeBy d j.handle 6 (128 * h + r)

/-- PUNT_DONE: the ring's oldest punt, with its descriptor as host memory holds it. In D3hot the function writes nothing. -/
def execPuntDone (h : Host2) (r : Fin 64) (desc : List W32) (readErr : Bool) (s : State) : Host.Outcome State Fault Refusal :=
  s.onDevF (fun d =>
    if inD3 d h then d
    else match puntJobs d h r with
      | [] => d
      | j :: _ => puntFinish d h r j desc (puntStatus d j desc readErr))

/-! ## Injects (R409, R410) -/

/-- Fields of an inject descriptor. -/
structure Inject where
  len : Nat
  cls : Nat
  mc : Bool
  ctrl : Bool
  ts2 : Bool
  mode : Nat
  dest : Nat
  edit : Nat
  tag : Nat
  deriving DecidableEq, Repr

def injectOf (w : List W32) : Inject :=
  let a := dword w 2
  { len := a % 2 ^ 14, cls := a / 2 ^ 14 % 8, mc := a.testBit 17, ctrl := a.testBit 18, ts2 := a.testBit 19, mode := a / 2 ^ 20 % 4,
    dest := dword w 3 % 65536, edit := dword w 3 / 65536, tag := dword w 4 }

/-- Longest frame, FCS included, that the inject's destination takes. -/
def injectMax (d : Dev) (x : Inject) : Nat :=
  if x.mc then 2 ^ 14 - 1 else rf d (Rg.QUAD_MAX_FRAME (x.dest / 4)) Fl.QUAD_MAX_FRAME_MAX_FRAME

/-- A reserved field is not 0 or a field is out of range (R407, R409, R410). -/
def injectBad (d : Dev) (x : Inject) (w : List W32) (bytes : List Byte) : Bool :=
  2 ≤ x.mode || 2 ^ 22 ≤ dword w 2 || (List.range 3).any (fun i => dword w (5 + i) != 0) || (x.mode == 1 && x.mc) ||
    (!x.mc && 256 ≤ x.dest) || x.len < 60 || injectMax d x < x.len + 4 || bytes.length != x.len

/-- Zone of an inject's cells: that of DEST, or the ring's ZONE with MC. -/
def injectZone (d : Dev) (h r : Nat) (x : Inject) : Nat :=
  if x.mc then rf d (ringCtl h 1 r) Fl.IRING_CTL_ZONE else portZone (x.dest % 256)

/-- STATUS that refuses an inject whatever its cells. -/
def injectStatus (d : Dev) (h r : Nat) (x : Inject) (w : List W32) (bytes : List Byte) (readErr : Bool) : Nat :=
  let z := injectZone d h r x
  if readErr then 5
  else if injectBad d x w bytes then 1
  else if !(page d (urnPage z)).ready || (x.mc && !(page d carPage).ready) then 10
  else if isolated d z then 6
  else if !x.mc && !portUsable d x.dest then 2 else 0

/-- The inject completes. -/
def injectEnd (d : Dev) (h r status bytes : Nat) : Dev :=
  let (i, d) := takeDesc d h 1 r
  let d := modRing d h 1 r (fun x => { x with wait := none })
  let d := if status == 0 then bump (bump d (Rg.INJ_FRAMES h) 1) (Rg.INJ_BYTES h) bytes else bump d (Rg.INJ_FAIL h) 1
  complete4 d h 1 r i status 0

/-- The inject is refused; one for an isolated zone counts in that zone's XB_ISO_DROP (R22). -/
def injectRefuse (d : Dev) (h r : Nat) (x : Inject) (status : Nat) : Dev :=
  injectEnd (if status == 6 then isoDrop d (injectZone d h r x) else d) h r status 0

/-- Requester number of the inject engine of ring `r`: engine `r` modulo 8 is taken to serve it (log 42). -/
def injectReq (h r : Nat) : Nat := 912 + 48 * h + 16 + r % 8

/-- The frame of a DIRECT inject lies in its cells: it goes to its VOQ, or to Carafe as a SHARED buffer. -/
def injectSend (d : Dev) (h r z : Nat) (x : Inject) (bytes : List Byte) (cells : List Nat) : Dev :=
  let own := 128 * h + 64 + r
  let f := bytes ++ fcs bytes
  let d := chargePool (newBuf d z cells { kind := 6, index := own, len := f.length, bytes := f, marked := false }) z cells.length
  let d := fillCells d z cells f.length
  let buf := headHandle d z cells
  let ring := some (64 * h + r)
  if x.mc then
    match addRefs d buf 0 6 own with
    | some d =>
      let q : CarReq := {
        handle := buf, group := x.dest, cls := x.cls, dom := x.tag / 65536, seq := x.tag % 65536, ecn := false
        ts2 := x.ts2, ctrl := x.ctrl, lossless := false, trunc := 0, waits := false, refs := 1, mirror := false, inj := ring }
      setCarQ d z (carQ d z ++ [q])
    | none => d
  else
    let v := 8 * x.dest + x.cls
    enqueue (handOver d buf 6 own 4 v) z v {
      handle := buf, len := f.length, edit := x.edit, dom := x.tag / 65536, seq := x.tag % 65536, port := x.dest, cls := x.cls, ecn := false
      ts2 := x.ts2, ctrl := x.ctrl, lossless := false, copy := false, inj := ring }

/-- INJECT_DIRECT: the ring's next descriptor. One that finds no cells waits and is tried again. -/
def execInjectDirect (h : Host2) (r : Fin 64) (desc : List W32) (bytes : List Byte) (cells : List Nat) (readErr : Bool) (s : State) :
    Host.Outcome State Fault Refusal :=
  s.onDevF (fun d =>
    let x := injectOf desc
    if !ringTakes d h 1 r || (x.mode == 1 && !readErr) then d
    else
      let st := injectStatus d h r x desc bytes readErr
      if st != 0 then injectRefuse d h r x st
      else
        let z := injectZone d h r x
        let n := cellsOf (x.len + 4)
        match allocAlone d z (injectReq h r) n x.ctrl cells with
        | (none, e) => if poolRoom d z n x.ctrl && !barred d (injectReq h r) then e else modRing e h 1 r (fun y => { y with wait := y.wait.or (some (nowNs d)) })
        | (some d, _) => injectEnd (injectSend d h r z x bytes cells) h r 0 x.len)

/-- INJECT_PIPELINE: the frame is admitted as one received on port DEST, or refused. -/
def execInjectPipeline (h : Host2) (r : Fin 64) (desc : List W32) (bytes : List Byte) (readErr : Bool) (s : State) :
    Host.Outcome State Fault Refusal :=
  s.onDevF (fun d =>
    let x := injectOf desc
    if !ringTakes d h 1 r || (x.mode != 1 && !readErr) then d
    else
      let st := injectStatus d h r x desc bytes readErr
      if st != 0 then injectRefuse d h r x st
      else
        let (d, ok) := admitFrame d x.dest (bytes ++ fcs bytes) 0
        injectEnd d h r (if ok then 0 else 4) x.len)

/-- NO_CELLS: the next DIRECT inject of the ring has found no cells for 100 µs. -/
def execNoCells (h : Host2) (r : Fin 64) (desc : List W32) (s : State) : Host.Outcome State Fault Refusal :=
  s.onDev (fun d =>
    let x := injectOf desc
    match (ring d h 1 r).wait with
    | none => d
    | some t =>
      if ringTakes d h 1 r && x.mode == 0 && 100000 ≤ elapsed (nowNs d) t &&
          (!poolRoom d (injectZone d h r x) (cellsOf (x.len + 4)) x.ctrl || barred d (injectReq h r)) then injectEnd d h r 3 0
      else d)

/-! ## Moderation, vectors, power states (R413, R414) -/

def execModerationTimer (h : Host2) (kind : RingKind) (r : Nat) (s : State) : Host.Outcome State Fault Refusal :=
  s.onDev (fun d =>
    let k := kindNo kind
    let t := rf d (ringThr h k r) Fl.PRING_THR_TIME_US
    match (if r < ringCount k then (ring d h k r).timer else none) with
    | some t0 => if t != 0 && t0 + t * 1000 * 2 ^ 32 ≤ d.tb then trigger d h k r else d
    | none => d)

def execVectorUnmask (h : Host2) (v : Fin 128) (s : State) : Host.Outcome State Fault Refusal :=
  s.onDev (fun d =>
    let d := modHif d (fun x => { x with open_ := tmod zeroN x.open_ h (fun b => setBit b v) })
    if (tget zeroN d.hif.pend h).testBit v then
      requestVector (modHif d (fun x => { x with pend := tmod zeroN x.pend h (fun b => clrBit b v) })) h v
    else d)

def execD3hot (h : Host2) (pmeEn : Bool) (s : State) : Host.Outcome State Fault Refusal :=
  s.onDev (fun d =>
    let d := modHif d (fun x => { x with pmeEn := tset (fun _ => false) x.pmeEn h pmeEn })
    if inD3 d h then d else raise (wf d (Rg.HIF_STATUS h) Fl.HIF_STATUS_D3HOT 1) (hifPage h) 1)

/-- Return to D0: held entries in ring order, then each held vector once. -/
def toD0 (d : Dev) (h : Nat) : Dev :=
  let d := raise (wf d (Rg.HIF_STATUS h) Fl.HIF_STATUS_D3HOT 0) (hifPage h) 1
  let d := hostRings.foldl (fun d e =>
    let l := (ring d h e.1 e.2).held
    if l.isEmpty then d
    else l.foldl (fun d w => emit (toL0 d h) (.hostWrite h w.1 w.2)) (modRing d h e.1 e.2 (fun x => { x with held := [] }))) d
  let vs := bitsOf (tget zeroN d.hif.held h) 128
  let d := modHif d (fun x => { x with held := tset zeroN x.held h 0 })
  vs.foldl (fun d v => sendVector d h v) (wf d (Rg.HIF_STATUS h) Fl.HIF_STATUS_HELD_IRQ 0)

def execD0Return (h : Host2) (s : State) : Host.Outcome State Fault Refusal :=
  s.onDev (fun d => if inD3 d h then toD0 d h else d)

/-! ## Resets, rings and links (R404, R419, R420) -/

def execFunctionReset (h : Host2) (s : State) : Host.Outcome State Fault Refusal := s.onDevF (fun d => resetFunction d h)

/-- ENABLE rises: indices 0, PHASE 1. -/
def ringUp (d : Dev) (h kind r : Nat) : Dev :=
  modRing (wr (wf d (ringCtl h kind r) Fl.PRING_CTL_ENABLE 1) (ringIdx h kind r) 0) h kind r (fun x => { x with done := 0, wait := none })

def execRingEnable (h : Host2) (kind : RingKind) (r : Nat) (m : Master) (s : State) : Host.Outcome State Fault Refusal :=
  s.onDev (fun d =>
    let k := kindNo kind
    if ringCount k ≤ r then d
    else guardWrite d (ringCtl h k r) m (fun d => if ringEnabled d h k r then d else ringUp d h k r))

/-- HOST_LINK_CHANGE: width, speed and PM state of the link; down, the function is reset (R404). -/
def execHostLinkChange (h : Host2) (width speed pm : Nat) (s : State) : Host.Outcome State Fault Refusal :=
  s.onDevF (fun d =>
    let w := min width (hostWidth d h)
    if 5 ≤ width || 6 ≤ speed || 3 ≤ pm || ((width == 0) != (speed == 0)) then d else linkTo d h w speed pm)

/-! ## Bites (R352) -/

/-- A bite of a host DMA engine: the descriptor it works on completes with STATUS 7. Engine `e` of punts or injects is taken
to serve the rings of a number congruent to it modulo 8 (log 42). -/
def hostBite (d : Dev) (h e : Nat) : Dev :=
  let rings := (List.range 8).map (fun i => e % 8 + 8 * i)
  if e < 8 then
    if ringTakes d h 2 e then
      let (i, d) := takeDesc d h 2 e
      complete4 d h 2 e i 7 0
    else d
  else if e < 16 then
    match rings.find? (fun r => !(puntJobs d h r).isEmpty) with
    | some r => (match puntJobs d h r with | j :: _ => puntFinish d h r j [] 7 | [] => d)
    | none => d
  else if e < 24 then
    match rings.find? (fun r => ringTakes d h 1 r) with
    | some r => injectEnd d h r 7 0
    | none => d
  else d

/-- WD_BITE: a tenancy has lasted HOLD_LIMIT. -/
def execWdBite (res : Nat) (requester : Nat) (s : State) : Host.Outcome State Fault Refusal :=
  s.onDevF (fun d =>
    if !isRequester requester then d
    else
      let (d, bit) := wdBite d res requester
      if bit && 912 ≤ requester then hostBite d ((requester - 912) / 48) ((requester - 912) % 48) else d)

end Sys2Proof.Machine
end

