-- ==== Sys2Proof/Machine/Links.lean ====
section
/-!
DEFINITION. The die links: flits, replays and their attribution, retraining, isolation and return (R16 to R23, R374, R392 to
R394).
-/

namespace Sys2Proof.Machine
open Sys2Proof

/-- XB_LINK_CTRL.RETRAIN: the zone is isolated while its link trains. -/
def linkRetrain (d : Dev) (z : Nat) : Dev := modLink (isolateZone d z) z (fun l => { l with state := 1, tried := nowNs d })

def execRetrain (z : Zone) (m : Master) (s : State) : Host.Outcome State Fault Refusal :=
  s.onDev (fun d => guardWrite d (Rg.XB_LINK_CTRL z) m (fun d => linkRetrain d z))

/-- XB_LINK_CTRL.ISOLATE: 1 isolates the zone; a change to 0 returns the link through retraining. -/
def linkIsolate (d : Dev) (z : Nat) (on : Bool) : Dev :=
  let was := rb d (Rg.XB_LINK_CTRL z) Fl.XB_LINK_CTRL_ISOLATE
  let d := wf d (Rg.XB_LINK_CTRL z) Fl.XB_LINK_CTRL_ISOLATE (b2n on)
  if on then modLink (isolateZone d z) z (fun l => { l with state := 4 })
  else if was then linkRetrain d z else d

def execIsolate (z : Zone) (m : Master) (on : Bool) (s : State) : Host.Outcome State Fault Refusal :=
  s.onDev (fun d => guardWrite d (Rg.XB_LINK_CTRL z) m (fun d => linkIsolate d z on))

/-- The last 128 flits. -/
def keep128 {α : Type} (l : List α) : List α := l.drop (l.length - 128)

/-- A direction of a link that has met flit `seq`: the sender holds it for a replay (R19). -/
def sentFlit (x : LinkDir) (seq : Nat) (sent : List (BitVec 40)) : LinkDir :=
  if x.buf.any (fun e => e.1 == seq) then x else { x with buf := keep128 (x.buf ++ [(seq, sent)]) }
/-- The flit in turn is delivered; the failed copies of it wait for their comparison with it (R374). -/
def deliverFlit (x : LinkDir) (seq : Nat) (sent : List (BitVec 40)) : LinkDir :=
  { x with
    next := x.next + 1, delivered := x.delivered + 1, replay := false, fails := 0
    pairs := x.pairs ++ (x.failed.filter (fun e => e.1 == seq)).map (fun e => (e.2, sent))
    failed := x.failed.filter (fun e => e.1 != seq) }
/-- Flits below `ack` have arrived at the other end: the sender no longer holds them. -/
def ackFlits (x : LinkDir) (ack : Nat) : LinkDir := { x with buf := x.buf.filter (fun e => min ack x.next ≤ e.1) }
/-- A flit as the wires carry it: 40 bits of each of 512 data lanes, and the sender's replay buffer agrees with it. A flit whose
CRC matches is the one sent (the polynomial is not in the spec, and an error that it misses is left out: log 221). -/
def flitOk (x : LinkDir) (seq : Nat) (sent bits : List (BitVec 40)) (crcOk : Bool) : Bool :=
  sent.length == 512 && bits.length == 512 && x.buf.all (fun e => e.1 != seq || e.2 == sent) && (!crcOk || bits == sent)

/-- R19, R374, R392: the CRC of every flit is checked. One that fails is kept, counted and discarded with every later flit; the
flit in turn that fails is replayed out of the sender's buffer, and the zone isolates itself when it fails on 8 successive
replays. -/
def execFlitReceive (z : Zone) (toHub : Bool) (head : FlitHead) (bits : FlitBits) (crcOk : Bool) (s : State) :
    Host.Outcome State Fault Refusal :=
  s.onDev (fun d =>
    let seq := head.seq
    let x := dirOf (lnk d z) toHub
    if (lnk d z).state != 3 || !flitOk x seq bits.sent bits.got crcOk then d
    else
      let d := modDir d z toHub (fun x => sentFlit x seq bits.sent)
      if crcOk then
        let d := modDir d z (!toHub) (fun x => ackFlits x head.ack)
        if seq == x.next then modDir d z toHub (fun x => deliverFlit x seq bits.sent) else d
      else
        let d := bump d (Rg.XB_CRC_ERR z) 1
        let d := if x.next ≤ seq then modDir d z toHub (fun x => { x with failed := x.failed ++ [(seq, bits.got)] }) else d
        if seq != x.next then d
        else
          let d := modDir d z toHub (fun x => { x with fails := x.fails + 1, replay := true })
          let d := emit (bump d (Rg.XB_REPLAY_CNT z) 1)
            (.replay z.val toHub seq (((dirOf (lnk d z) toHub).buf.filter (fun e => seq ≤ e.1)).map (·.2)))
          if 9 ≤ (dirOf (lnk d z) toHub).fails then isolateZone d z else d)

/-- The physical lane that carries data lane `i`. -/
def physLane (x : LinkDir) (i : Nat) : Nat := match x.spares.find? (fun e => e.1 == i) with | some e => e.2 | none => i

/-- R374: one fault on each lane whose 40 bits differ between a failed flit and its replay. -/
def execReplayAttribution (z : Zone) (toHub : Bool) (s : State) : Host.Outcome State Fault Refusal :=
  s.onDevF (fun d =>
    let x := dirOf (lnk d z) toHub
    match x.pairs with
    | (a, b) :: rest =>
      let bad := (List.range 512).filter (fun i => a.getD i 0 != b.getD i 0)
      let d := bad.foldl (fun d i => noteFault d (linkChan z toHub (physLane x i)) false) d
      modDir d z toHub (fun x => { x with pairs := rest })
    | [] => d)

/-- R392: the causes of isolation: 0 failed training, 1 a flit failing on 8 replays, 2 fewer than 256 lanes, 3 by command. -/
def isoCause (d : Dev) (z cause : Nat) : Bool :=
  let l := lnk d z
  match cause with
  | 0 => l.state == 1 || l.state == 2 || l.state == 0
  | 1 => 9 ≤ l.up.fails || 9 ≤ l.down.fails
  | 2 => dirLanes l.up < 256 || dirLanes l.down < 256
  | 3 => rb d (Rg.XB_LINK_CTRL z) Fl.XB_LINK_CTRL_ISOLATE
  | _ => false

def execZoneIsolate (z : Zone) (cause : Nat) (s : State) : Host.Outcome State Fault Refusal :=
  s.onDev (fun d => if isoCause d z cause then modLink (isolateZone d z) z (fun l => { l with state := 4 }) else d)

/-- Edges latched in the zone are delivered as pending edges (R393, R432). -/
def deliverLatched (d : Dev) (z : Nat) : Dev :=
  (List.range 96).foldl (fun d i =>
    let n := 128 + 96 * z + i
    let x := src d n
    if !x.isoPending then d
    else
      let d := modSrc d n (fun x => { x with
        isoPending := false, isoCount := 0, pending := true
        count := if 255 < x.count.toNat + x.isoCount.toNat then 255 else x.count + x.isoCount })
      coalesce d n true) d

/-- R394: the retrained link has passed its 1 ms PRBS test: it is UP, and the rebuild of the zone's replicas begins; the zone's
copy of the timebase takes the hub's value (R446). A zone that ISOLATE still isolates, or whose link has fewer than 256 data lanes
in a direction, stays isolated (R20, R392). -/
def linkReturn (d : Dev) (z : Nat) : Dev :=
  let iso := isolated d z
  let d := modLink d z (fun l => { l with state := 3, isolated := false, rebuilding := iso
                                          up := { l.up with fails := 0, replay := false, failed := [] }
                                          down := { l.down with fails := 0, replay := false, failed := [] } })
  let d := { d with ket := { d.ket with ztb := tset (fun _ => none) d.ket.ztb z none, kept := tset (fun _ => none) d.ket.kept z none } }
  if iso then watchSpill (raise (deliverLatched d z) (Rg.pageOf Rg.baseTB) 3) z else d

def execLinkPrbsPass (z : Zone) (s : State) : Host.Outcome State Fault Refusal :=
  s.onDev (fun d =>
    if (lnk d z).state == 2 && 1000000 ≤ elapsed (nowNs d) (lnk d z).prbs then
      (if isoCause d z 3 || isoCause d z 2 then modLink (isolateZone d z) z (fun l => { l with state := 4 }) else linkReturn d z)
    else d)

/-- R394: the hub retrains an isolated zone's link every PERIOD_MS while ISOLATE is 0. -/
def execLinkRetry (z : Zone) (s : State) : Host.Outcome State Fault Refusal :=
  s.onDev (fun d =>
    let p := rf d Rg.RAS_LINK_RETRY Fl.RAS_LINK_RETRY_PERIOD_MS * 1000000
    if isolated d z && (lnk d z).state != 1 && (lnk d z).state != 2 && !rb d (Rg.XB_LINK_CTRL z) Fl.XB_LINK_CTRL_ISOLATE && p != 0 &&
        p ≤ elapsed (nowNs d) (lnk d z).tried then
      modLink d z (fun l => { l with state := 1, tried := nowNs d })
    else d)

end Sys2Proof.Machine
end

