-- ==== Sys2Proof/Machine/Mgt.lean ====
section
/-!
DEFINITION. Laser sources and the interlock (R65, R416), the I3C target (R415), the UART (R417), JTAG (R418) and GPIO (R421), page
accesses of management apart.
-/

namespace Sys2Proof.Machine
open Sys2Proof

def modMgt (d : Dev) (f : Mgt → Mgt) : Dev := { d with mgt := f d.mgt }
/-- MGT page `i`. -/
def mgtPage (i : Nat) : Nat := Rg.pageOf Rg.baseMGT + i

/-! ## Laser sources (R416) -/

/-- One write to a source: EN_REG, then ON_VAL or OFF_VAL; unacknowledged, it is repeated three times and counted. -/
def sourceWrite (d : Dev) (i : Nat) (on ack : Bool) : Dev :=
  let r := Rg.LSR_SLOT i
  if !rb d r Fl.LSR_SLOT_VALID || !rb d Rg.LSR_CTRL Fl.LSR_CTRL_CTL_EN then d
  else
    let o := Out.source (rf d r Fl.LSR_SLOT_ADDR) (rf d r Fl.LSR_SLOT_EN_REG) (rf d r (if on then Fl.LSR_SLOT_ON_VAL else Fl.LSR_SLOT_OFF_VAL))
    if ack then
      let d := if on && d.mgt.sources.testBit i then d
        else modLife d (fun l => { l with lit := tset zeroN l.lit i (if on then nowNs d else 0) })
      modMgt (emit d o) (fun x => { x with sources := if on then setBit x.sources i else clrBit x.sources i })
    else raise (bump ((List.range 4).foldl (fun d _ => emit d o) d) Rg.LSR_NACK 1) (mgtPage 2) 0

/-- Sources of slots `l`, in slot order; `nack`: the slots that do not acknowledge. -/
def sourcesSet (d : Dev) (l : List Nat) (on : Bool) (nack : W32) : Dev :=
  l.foldl (fun d i => sourceWrite d i on (!nack.toNat.testBit i)) d

/-- A source is turned on only while the interlock permits. -/
def execSourceOn (i : Fin 32) (ack : Bool) (s : State) : Host.Outcome State Fault Refusal :=
  s.onDev (fun d => if d.line.permit then sourceWrite d i true ack else d)
def execSourceOff (i : Fin 32) (ack : Bool) (s : State) : Host.Outcome State Fault Refusal :=
  s.onDev (fun d => sourceWrite d i false ack)

/-- Every OE page 0 sees the interlock change. -/
def interlockEvents (d : Dev) : Dev := (List.range 16).foldl (fun d e => raise d (oePage e) 2) d

/-- INTERLOCK_HIGH: every lane dark, every valid source off. The ring-lock bits stay until a retune finds the ring unlocked (DESIGN CHOICE,
log 227). -/
def execInterlockHigh (nack : W32) (s : State) : Host.Outcome State Fault Refusal :=
  s.onDev (fun d =>
    if !d.line.permit then d
    else
      let d := { d with line := { d.line with permit := false } }
      sourcesSet (interlockEvents (loseLock d (List.range 256))) (List.range 32) false nack)

/-- The engine of source slot `i` has been calibrated. -/
def slotReady (d : Dev) (i : Nat) : Bool := (engine d (i / 2)).calibrated

/-- INTERLOCK_LOW: the sources of calibrated engines are on again; the engines may reacquire lock. -/
def execInterlockLow (nack : W32) (s : State) : Host.Outcome State Fault Refusal :=
  s.onDev (fun d =>
    if d.line.permit then d
    else
      let d := { d with line := { d.line with permit := true } }
      sourcesSet (interlockEvents d) ((List.range 32).filter (slotReady d)) true nack)

/-! ## I3C target (R415) -/

/-- The dynamic address of the target. -/
def setDa (d : Dev) (a : BitVec 7) : Dev := wf (wf d Rg.I3C_ADDR Fl.I3C_ADDR_DYN_ADDR a.toNat) Rg.I3C_ADDR Fl.I3C_ADDR_DA_VALID 1
def daValid (d : Dev) : Bool := rb d Rg.I3C_ADDR Fl.I3C_ADDR_DA_VALID

/-- ENTDAA assigns an address to a target that has none. -/
def execEntdaa (a : BitVec 7) (s : State) : Host.Outcome State Fault Refusal := s.onDev (fun d => if daValid d then d else setDa d a)
def execSetdasa (a : BitVec 7) (s : State) : Host.Outcome State Fault Refusal := s.onDev (fun d => if daValid d then d else setDa d a)
def execSetnewda (a : BitVec 7) (s : State) : Host.Outcome State Fault Refusal := s.onDev (fun d => if daValid d then setDa d a else d)
def execRstdaa (s : State) : Host.Outcome State Fault Refusal :=
  s.onDev (fun d => wf (wf d Rg.I3C_ADDR Fl.I3C_ADDR_DYN_ADDR 0) Rg.I3C_ADDR Fl.I3C_ADDR_DA_VALID 0)
def execEnec (ev : Byte) (s : State) : Host.Outcome State Fault Refusal :=
  s.onDev (fun d =>
    let was := d.mgt.i3cEv.testBit 0
    let d := modMgt d (fun x => { x with i3cEv := x.i3cEv ||| ev.toNat })
    -- ALARM_N is low as IBIs become enabled
    if d.mgt.i3cEv.testBit 0 && !was && pinLow d 6 then emit d .i3cIbi else d)
def execDisec (ev : Byte) (s : State) : Host.Outcome State Fault Refusal :=
  s.onDev (fun d => modMgt d (fun x => { x with i3cEv := x.i3cEv - (x.i3cEv &&& ev.toNat) }))
def execGetpid (s : State) : Host.Outcome State Fault Refusal := s.onDev (fun d => emit d (.i3cBytes (beBytes 6 Config.i3cPid.toNat)))
def execGetbcr (s : State) : Host.Outcome State Fault Refusal := s.onDev (fun d => emit d (.i3cBytes [Config.i3cBcr]))
def execGetdcr (s : State) : Host.Outcome State Fault Refusal := s.onDev (fun d => emit d (.i3cBytes [Config.i3cDcr]))
/-- GETSTATUS: two bytes, whose content the spec does not give. -/
def execGetstatus (s : State) : Host.Outcome State Fault Refusal :=
  s.onDev (fun d => emit (useFree d) (.i3cBytes [Config.freeByte d.free 0, Config.freeByte d.free 1]))
def execGetmwl (s : State) : Host.Outcome State Fault Refusal := s.onDev (fun d => emit d (.i3cBytes (beBytes 2 d.mgt.mwl)))
def execSetmwl (v : W16) (s : State) : Host.Outcome State Fault Refusal := s.onDev (fun d => modMgt d (fun x => { x with mwl := v.toNat }))
def execGetmrl (s : State) : Host.Outcome State Fault Refusal := s.onDev (fun d => emit d (.i3cBytes (beBytes 2 d.mgt.mrl)))
def execSetmrl (v : W16) (s : State) : Host.Outcome State Fault Refusal := s.onDev (fun d => modMgt d (fun x => { x with mrl := v.toNat }))
def execRstact (act : Byte) (s : State) : Host.Outcome State Fault Refusal := s.onDev (fun d => modMgt d (fun x => { x with rstact := act.toNat }))
/-- The private STATUS command: STATUS 0 and the ALARM cause. -/
def execI3cStatus (s : State) : Host.Outcome State Fault Refusal :=
  s.onDev (fun d =>
    let d := modMgt d (fun x => { x with alarm := alarmCause d })
    emit d (.i3cBytes ([0] ++ leBytes 4 d.mgt.alarm.toNat)))

/-! ## UART (R417) -/

def uartErr (d : Dev) : Dev := raise d (mgtPage 1) 0

/-- UART_RX_CHAR: a stop-bit sample of 0 marks a framing error; a full FIFO loses the character. -/
def execUartRxChar (b : Byte) (stopBit : Bool) (s : State) : Host.Outcome State Fault Refusal :=
  s.onDev (fun d =>
    let d := if stopBit then d else uartErr (bump d Rg.UART_FRAMING 1)
    let d := modMgt d (fun x => { x with rxHunt := !stopBit })
    if 64 ≤ d.mgt.rx.length then uartErr (bump d Rg.UART_OVERRUN 1)
    else modMgt d (fun x => { x with rx := x.rx ++ [b], rxErr := x.rxErr ++ [!stopBit] }))

def execUartTxChar (s : State) : Host.Outcome State Fault Refusal :=
  s.onDev (fun d =>
    match d.mgt.tx with
    | [] => d
    | b :: l => emit (modMgt d (fun x => { x with tx := l })) (.uart b))

def execUartBreak (s : State) : Host.Outcome State Fault Refusal :=
  s.onDev (fun d => uartErr (bump (modMgt d (fun x => { x with rxHunt := true })) Rg.UART_BREAK 1))

/-! ## JTAG (R418); bits in the order they are shifted -/

/-- Bits of a word, least significant first. -/
def wordBits (n x : Nat) : List Bool := (List.range n).map (fun i => x.testBit i)
/-- What a register of `r` shifts out while `l` is shifted in. -/
def shiftOut (r l : List Bool) : List Bool := (r ++ l).take l.length

def execBypass (bits : List Bool) (s : State) : Host.Outcome State Fault Refusal :=
  s.onDev (fun d => emit (modMgt d (fun x => { x with extest := false })) (.jtag (shiftOut [false] bits)))
def idcodeWord : Nat := 0x1E96095D
def execIdcode (bits : List Bool) (s : State) : Host.Outcome State Fault Refusal :=
  s.onDev (fun d => emit (modMgt d (fun x => { x with extest := false })) (.jtag (shiftOut (wordBits 32 idcodeWord) bits)))
/-- The levels of the lands: what stands on the board's side is not in the model. -/
def landBits (d : Dev) (n : Nat) : List Bool := (List.range n).map (fun i => (Config.freeByte d.free i).toNat.testBit 0)
/-- SAMPLE/PRELOAD: the lands are sampled and shifted out, and the boundary register takes what is shifted in. -/
def execSamplePreload (bits : List Bool) (s : State) : Host.Outcome State Fault Refusal :=
  s.onDev (fun d => emit (useFree (modMgt d (fun x => { x with extest := false, boundary := bits }))) (.jtag (landBits d bits.length)))
/-- EXTEST: the same, and the boundary register drives the lands. -/
def execExtest (bits : List Bool) (s : State) : Host.Outcome State Fault Refusal :=
  s.onDev (fun d => emit (useFree (modMgt d (fun x => { x with extest := true, boundary := bits }))) (.jtag (landBits d bits.length)))

/-! ## GPIO (R421) -/

def execGpioEdge (n : Fin 16) (rise : Bool) (s : State) : Host.Outcome State Fault Refusal :=
  s.onDev (fun d =>
    let v := rf d Rg.GPIO_IN Fl.GPIO_IN_IN
    if v.testBit n == rise then d
    else
      let d := wf d Rg.GPIO_IN Fl.GPIO_IN_IN (if rise then setBit v n else clrBit v n)
      let en := if rise then rf d Rg.GPIO_EDGE_RISE Fl.GPIO_EDGE_RISE_EN else rf d Rg.GPIO_EDGE_FALL Fl.GPIO_EDGE_FALL_EN
      if en.testBit n then raise d (mgtPage 3) n else d)

end Sys2Proof.Machine
end

