-- ==== Sys2Proof/Machine/TwinOps.lean ====
section
/-!
DEFINITION. The twin pair: its states and what each blocks (R490 to R492), sync records and the journal (R493, R494).
-/

namespace Sys2Proof.Machine
open Sys2Proof

def twnEvent (d : Dev) (n : Nat) : Dev := raise d (Rg.pageOf Rg.baseTWN) n
def twinEn (d : Dev) : Bool := rb d Rg.TWN_CTRL Fl.TWN_CTRL_EN
def twinLinkUp (d : Dev) : Bool := rb d Rg.TWN_STATUS Fl.TWN_STATUS_LINK_UP
def twinAlive (d : Dev) : Bool := rb d Rg.TWN_STATUS Fl.TWN_STATUS_ALIVE_IN
/-- The role in which the module acts: true primary. -/
def actsPrimary (d : Dev) : Bool := rb d Rg.TWN_STATUS Fl.TWN_STATUS_ROLE
/-- The role of the strap. -/
def strapPrimary (d : Dev) : Bool := rb d Rg.DEV_STRAPS Fl.DEV_STRAPS_TWIN_ROLE

/-- Port `p` is dual-homed. -/
def dualPort (d : Dev) (p : Nat) : Bool := (rd d (Rg.TWN_DUAL (p / 32))).toNat.testBit (p % 32)
/-- The secondary blocks its dual-homed ports in JOINING and SPLIT (R491). -/
def twinBlocks (d : Dev) : Bool := !actsPrimary d && (twinState d == 1 || twinState d == 3)
/-- Dual-homed ports enter standby-blocking where the state requires it (R492); they leave it at a commit boundary. -/
def blockDual (d : Dev) : Dev :=
  if !twinBlocks d then d
  else ((List.range 256).filter (dualPort d)).foldl (fun d p => modPort d p (fun x => { x with blocked := true })) d

/-- The latest record of each key, in order. -/
def latestOf (l : List SyncRec) : List SyncRec :=
  l.foldl (fun acc r => acc.filter (fun y => !(y.tbl == r.tbl && y.key == r.key)) ++ [r]) []
/-- The module leaves PAIRED: its records without acknowledgement begin the journal (R494). -/
def leavePaired (d : Dev) : Dev :=
  let l := latestOf d.twin.own
  let d := modTwin d (fun w => { w with left := true, own := l.take 65536 })
  if l.length ≤ 65536 then d
  else twnEvent (bump (wf d Rg.TWN_STATUS Fl.TWN_STATUS_JOURNAL_OVF 1) Rg.TWN_JOURNAL_OVF_CNT 1) 2

/-- A change of state: event STATE; SPLIT and PARTNER_LOST are counted and logged. -/
def twinEnter (d : Dev) (st : Nat) : Dev :=
  let was := twinState d
  if was == st then d
  else
    let d := wf (if was == 2 then leavePaired d else d) Rg.TWN_STATUS Fl.TWN_STATUS_STATE st
    let d := if st == 1 then modTwin d (fun w => { w with joinAt := nowNs d }) else d
    let d := if st == 3 then addLog (bump d Rg.TWN_SPLITS 1) 10 0 else d
    let d := if st == 4 then addLog (bump d Rg.TWN_PARTNER_LOSTS 1) 11 0 else d
    twnEvent (blockDual d) 0

/-- TWN_CTRL.EN as it takes effect: 1 joins once forwarding is open and starts TWIN_ALIVE_OUT; 0 is ALONE (R489, R491). -/
def twinJoin (d : Dev) : Dev :=
  if twinEn d && rb d Rg.DEV_PHASE Fl.DEV_PHASE_FWD_OPEN && !d.life.stopped then
    let d := modTwin d (fun w => { w with toggling := true })
    if twinState d == 0 then twinEnter d 1 else d
  else if twinEn d then d
  else modTwin (twinEnter d 0) (fun w => { w with toggling := false })

/-- SPLIT when TWIN_ALIVE_IN is alive, PARTNER_LOST when it is silent. -/
def twinApart (d : Dev) : Dev := twinEnter d (if twinAlive d then 3 else 4)

/-! ## Records (R493, R494) -/

/-- The record `a` prevails over `b`: later, or at equal times made by the primary. -/
def prevails (a b : SyncRec) (aPrimary : Bool) : Bool := b.time < a.time || (a.time == b.time && aPrimary)
def sameKey (a b : SyncRec) : Bool := a.tbl == b.tbl && a.key == b.key

/-- A partner's record is applied to the master, distributed, and posts the learn events of the change (R247, R252). -/
def applyRec (d : Dev) (r : SyncRec) : Dev :=
  let x := descAt d 0 r.tbl
  let b := x.bank
  if 32 ≤ r.tbl || !x.repl || !(rd d Rg.TWN_SYNC).toNat.testBit r.tbl then d
  else if r.del then
    let (res, d) := deleteTbl d 0 r.tbl b x r.key
    distribute d r.tbl b res.touched (fun _ => [])
  else
    let was := (findKey d 0 r.tbl b x (storedKey x r.key)).map (fun p => (ent d 0 r.tbl b p).data.toNat % 65536)
    let (res, d) := insertTbl d 0 r.tbl b x 0 r.key r.data
    let d := masterEvicted d r.tbl 0 x res
    let d := if res.status == 0 || res.status == 2 then postLearn d x 0 false r.tbl 0 res.pos r.key r.data
      else if res.status == 1 && was != some (r.data.toNat % 65536) then postLearn d x 1 false r.tbl 0 res.pos r.key r.data
      else d
    distribute d r.tbl b res.touched (fun _ => [])

/-- A received record meets the module's own unacknowledged one of its key: one of the two is superseded. -/
def takeRec (d : Dev) (r : SyncRec) : Dev :=
  match (d.twin.own.filter (sameKey r)).getLast? with
  | none => applyRec d r
  | some o =>
    let d := bump d Rg.TWN_SYNC_SUPERSEDED 1
    if prevails r o (!actsPrimary d) then applyRec d r else d

/-- The master entries of a synced table that the partner's list does not name are removed. -/
def dropUnlisted (d : Dev) (l : List SyncRec) (t : Nat) : Dev :=
  let x := descAt d 0 t
  if !x.repl || !(rd d Rg.TWN_SYNC).toNat.testBit t then d
  else
    (regionEnts d 0 t x.bank).foldl (fun d e =>
      if !e.2.valid || l.any (fun r => r.tbl == t && r.key == e.2.key) then d
      else distribute (clearEnt d 0 t x.bank x e.1) t x.bank [e.1] (fun _ => [])) d

end Sys2Proof.Machine
end

