-- ==== Sys2Proof/Machine/Life.lean ====
section
/-!
DEFINITION. Start-up and its milestones (R469 to R472), the warm reset (R473), restoration (R478, R484), and the loss of supply and
the reset lands (R455, R519, R522, R524).
-/

namespace Sys2Proof.Machine
open Sys2Proof

def phase (d : Dev) : Nat := rf d Rg.DEV_PHASE Fl.DEV_PHASE_PHASE
/-- PHASE shows the last milestone reached. -/
def reachPhase (d : Dev) (n : Nat) : Dev := wf d Rg.DEV_PHASE Fl.DEV_PHASE_PHASE (max n (phase d))
def zoneUp (d : Dev) (z : Nat) : Bool := (rf d Rg.DEV_PHASE Fl.DEV_PHASE_ZONE_UP).testBit z
def zoneIsOpen (d : Dev) (z : Nat) : Bool := d.life.zopen.testBit z
def bootSel (d : Dev) : Nat := rf d Rg.DEV_STRAPS Fl.DEV_STRAPS_BOOT_SEL
def factoryStrap (d : Dev) : Bool := rb d Rg.DEV_STRAPS Fl.DEV_STRAPS_FACTORY

/-! ## Restoration (R484) -/

/-- Kept state that a restoration reads: none without a snapshot, and none of before a start with FACTORY set. -/
def keptSource (d : Dev) : Option (Tab W32) := if factoryStrap d && d.caddy.fresh then none else keptStored d.caddy

/-- One stored value is put into effect. -/
def putKept (d : Dev) (a : Nat) (v : W32) : Dev :=
  if a % 0x1000 == 0x10 then modPage d (a / 0x1000) (fun p => { p with owner := v.setWidth 2 })
  else if a % 0x1000 == 0x24 then modPage d (a / 0x1000) (fun p => { p with intMask := v })
  else wr d a ((rd d a &&& ~~~BitVec.ofNat 32 (keptMask a)) ||| (v &&& BitVec.ofNat 32 (keptMask a)))

/-- Every stored value of the pages from `lo` to below `hi`. -/
def restorePages (d : Dev) (lo hi : Nat) : Dev :=
  match keptSource d with
  | none => d
  | some t => (t.filter (fun e => lo ≤ e.1 / 0x1000 && e.1 / 0x1000 < hi)).foldl (fun d e => putKept d e.1 e.2) d

/-- Pages become READY. -/
def readyPages (d : Dev) (l : List Nat) : Dev := l.foldl (fun d p => modPage d p (fun x => { x with ready := true })) d

/-- Rows of cell-buffer arrays that the map has withdrawn take their cells out of the pool. -/
def withdrawnCells (e : Nat × Chan) : List Nat :=
  if chTy e.1 == 2 && 1 ≤ chPlace e.1 && rowOut e.2 then rowCells (chPlace e.1 - 1) (chUnit e.1) (chElem e.1) else []

/-- The lanes of one direction of a link that the map records: spares serve in the order of their numbers. -/
def mapDir (d : Dev) (z : Nat) (toHub : Bool) : LinkDir :=
  let retired (s : Bool) : List Nat :=
    (List.range 512).filter (fun l => (chan d (linkChan z toHub l)).state == 3 && (chan d (linkChan z toHub l)).spareIn == s)
  let serving := (List.range 32).filter (fun i => (chan d (linkChan z toHub (512 + i))).state == 0)
  { lost := min 16 (retired false).length, spares := (retired true).zip (serving.map (512 + ·)) }

/-- The retirement map is applied: states and spares of its channels (R388, R484). -/
def applyMap (d : Dev) : Dev :=
  let d := d.ras.map.foldl (fun d e =>
    syncEntry (modChan d e.1 (fun c => { c with state := (e.2 - 1) / 2, spareIn := (e.2 - 1) % 2 == 1 })) e.1) d
  let pcs (s : Bool) : List Nat :=
    (d.ras.chans.filter (fun e => chTy e.1 == 3 && chElem e.1 == 0xFFFFFFFF && e.2.state == 3 && e.2.spareIn == s)).map (fun e => chUnit e.1)
  let d := modHbm d (fun h => { h with spareOf := (pcs true).head?, copy := if (pcs true).isEmpty then 0 else 2, lost := pcs false })
  let d := match (pcs true).head? with
    | some q => (List.range 4).foldl (fun d s => wf (wf d (Rg.HBM_STATUS s) Fl.HBM_STATUS_SPARE_USED 1) (Rg.HBM_STATUS s) Fl.HBM_STATUS_SPARE_PC q) d
    | none => d
  let d := { d with urn := { d.urn with bad := (d.ras.chans.flatMap withdrawnCells).dedup } }
  (List.range 4).foldl (fun d z => modLink d z (fun l => { l with up := mapDir d z true, down := mapDir d z false })) d

/-- Hub pages that answer once Caddy has been read: all but those of HBM stacks in training. -/
def hubReady : List Nat := hubPages.filter (fun p => !(0x100 ≤ p && p < 0x138))

/-- The firmware starts: the copy of the boot record, A, B, or the recovery loader, which runs none. -/
def bootFirmware (d : Dev) : Dev :=
  let recovery := bootSel d == 3
  let copy := if bootSel d == 0 then d.caddy.bootCopy else bootSel d == 2
  let d := wf d Rg.CDY_FW_CTRL Fl.CDY_FW_CTRL_BOOT_COPY (b2n d.caddy.bootCopy)
  if recovery then d
  else
    let d := showCopy (wf d Rg.CDY_FW_CTRL Fl.CDY_FW_CTRL_RUNNING (b2n copy)) copy
    (List.range 4).foldl (fun d c =>
      if inService d (coreChan (128 + c)) then (List.range 8).foldl (fun d t => startKernel d (128 + c) t) d else d) d

/-- The state right after VIN good with straps `st`, before anything is restored. -/
def freshDev (d : Dev) (st : W32) : Dev :=
  let d := offDev d false
  let fac := st.toNat.testBit 3
  let d := { d with
    ket := { d.ket with off := false }
    caddy := { d.caddy with powerups := d.caddy.powerups + 1, fresh := fac }
    life := {
      pgOut := true, imgAvail := if fac then 0 else d.caddy.imgValid, cfgAvail := !fac, ckptAvail := !fac } }
  let d := wr (wr d Rg.DEV_STRAPS (st &&& 0x3F)) Rg.DEV_POWERUPS (BitVec.ofNat 32 d.caddy.powerups)
  let d := wf d Rg.TWN_STATUS Fl.TWN_STATUS_ROLE (b2n (strapPrimary d))
  wf d Rg.I3C_ADDR Fl.I3C_ADDR_STATIC_ADDR (0x34 + st.toNat / 16 % 4)

/-- VIN_GOOD up to milestone 3: Caddy read, the map applied, hub pages restored and READY, firmware running; the stacks train and the
root loop coasts until a reference is accepted. -/
def vinGood (d : Dev) (st : W32) : Dev :=
  let d := freshDev d st
  let d := addLog d 1 0
  let d := if factoryStrap d then addLog d 9 0 else d
  let d := applyMap (restorePages d 0 0x1000)
  let d := modHbm d (fun h => { h with pcSpare := rb d (Rg.HBM_CTRL 0) Fl.HBM_CTRL_PC_SPARE })
  let d := { d with ket := { d.ket with rate := tbRate d } }
  let d := modTbl d (fun b => { b with extGib := rf d Rg.HTB_EXT_CTRL Fl.HTB_EXT_CTRL_LIMIT_GIB })
  let d := { d with line := { d.line with engines := d.caddy.hours.map (fun (e : Nat × Nat) => (e.1, ({ hours := e.2 } : EngineSt))) } }
  let d := match (if d.life.cfgAvail then lastSave d.caddy else none) with
    | some (_, x) => { d with egr := { d.egr with groups := x.groups, members := x.members } }
    | none => d
  let d := wf d Rg.CDY_STATUS Fl.CDY_STATUS_SOURCE (if factoryStrap d then 2 else if (keptSource d).isSome then 1 else 0)
  let d := wf d Rg.CDY_STATUS Fl.CDY_STATUS_AREA (match lastSnap d.caddy with | some (b, _) => b2n b | none => 0)
  let d := wr (wr d Rg.CDY_SNAP_SEQ (BitVec.ofNat 32 d.caddy.sseq)) Rg.CDY_JRNL_SEQ (BitVec.ofNat 32 d.caddy.jseq)
  -- an area that fails its CRC is ignored (R478)
  let d := if d.caddy.torn && !factoryStrap d then cdyEvent d 1 else d
  let d := bootFirmware (readyPages d hubReady)
  let d := (List.range 4).foldl (fun d k => wf d (Rg.HBM_STATUS k) Fl.HBM_STATUS_STATE 1) d
  reachPhase (startCoast d) 3

/-- VIN_GOOD starts a module that is off, unless a thermal trip keeps it off (R456). -/
def execVinGood (straps : W32) (s : State) : Host.Outcome State Fault Refusal :=
  s.onDev (fun d => if !d.ket.off || d.ket.tripped then d else vinGood d straps)

/-! ## Zones (R470, R471) -/

/-- Pages of zone `z` as a range of page numbers. -/
def zoneLo (z : Nat) : Nat := 0x1000 + 0x400 * z
def inZone (z pg : Nat) : Bool := zoneLo z ≤ pg && pg < zoneLo z + 0x400

/-- Entries restored from a checkpoint: unlocked, with the table time as their stamp. -/
def fillTable' (d : Dev) (pl t : Nat) (ents : Tab TEnt) : Dev :=
  let now := tableTime d pl (descAt d pl t)
  ents.foldl (fun d e => writeEnt d pl t (e.1 / 2 ^ 32) (descAt d pl t) (e.1 % 2 ^ 32) { e.2 with stamp := now, lock := none }) d

/-- The tables of a zone: local ones from the checkpoint, replicas from their masters, which the first zone of a power-up fills from
the checkpoint; only where the descriptor is the one recorded (R481). -/
def restoreTables (d : Dev) (z : Nat) : Dev :=
  let l := if d.life.ckptAvail then (lastCkpt d.caddy).getD [] else []
  let warm := rb d Rg.DEV_PHASE Fl.DEV_PHASE_WARM
  let same (d : Dev) (x : CkptTbl) : Bool := x.regs == descRegs d z x.tbl && (descAt d (1 + z) x.tbl).ty != 0
  let d := l.foldl (fun d x =>
    if !same d x then d
    else if x.zone == z && !(descAt d (1 + z) x.tbl).repl then fillTable' d (1 + z) x.tbl x.ents
    else if x.zone == 4 && z == 0 && !warm && (descAt d 1 x.tbl).repl then fillTable' d 0 x.tbl x.ents
    else d) d
  (List.range 32).foldl (fun d t =>
    if (descAt d (1 + z) t).ty != 0 && (descAt d (1 + z) t).repl then fillTable' d (1 + z) t (ckptEnts d 0 t) else d) d

/-- The edit memory of a zone from the latest configuration save. -/
def restoreEdit (d : Dev) (z : Nat) : Dev :=
  match (if d.life.cfgAvail then lastSave d.caddy else none) with
  | none => d
  | some (_, x) =>
    (x.edit.filter (fun e => e.1 / 294912 / 2 == z)).foldl (fun d e =>
      { d with egr := { d.egr with editMem := tset zero32 d.egr.editMem e.1 e.2 } }) d

/-- Bank `b` of zone `z` is loaded from Caddy where its image is valid. -/
def restoreImage (d : Dev) (z b : Nat) : Dev :=
  if d.life.imgAvail.testBit (2 * z + b) && d.caddy.imgValid.testBit (2 * z + b) then
    wf (loadImage d z b) (Rg.ZCTL_IMG_VALID z) (if b == 0 then Fl.ZCTL_IMG_VALID_VALID_A else Fl.ZCTL_IMG_VALID_VALID_B) 1
  else d

/-- Kernel threads of the zone's cores in service begin at index 48, when the zone opens (log 48). -/
def startKernels (d : Dev) (z : Nat) : Dev :=
  (serviceCores d z).foldl (fun d k => (List.range 8).foldl (fun d t => startRole d (32 * z + k) t) d) d

/-- ZONE_POWER_UP: powered, its cores self-tested (`failed`: hard faults), its banks loaded, its pages restored. -/
def zonePowerUp (d : Dev) (z : Nat) (failed : List Nat) : Dev :=
  let d := restorePages d (zoneLo z) (zoneLo z + 0x400)
  let d := modLink d z (fun l => { l with state := 3 })
  let d := if rb d (Rg.XB_LINK_CTRL z) Fl.XB_LINK_CTRL_ISOLATE then isolateZone d z else d
  let d := settle ((failed.filter (· < 26)).foldl (fun d k => noteFault d (coreChan (32 * z + k)) true) d)
  let d := restoreImage (restoreImage d z 0) z 1
  let d := restoreTables (restoreEdit d z) z
  let d := watchDescs (readyPages d (zonePages z))
  reachPhase (wf d Rg.DEV_PHASE Fl.DEV_PHASE_ZONE_UP (setBit (rf d Rg.DEV_PHASE Fl.DEV_PHASE_ZONE_UP) z)) 4

/-- Zones power up in the order 0, 1, 2, 3; the recovery loader powers none. -/
def execZonePowerUp (z : Zone) (failedCores : List Nat) (s : State) : Host.Outcome State Fault Refusal :=
  s.onDev (fun d =>
    if d.ket.off || bootSel d == 3 || zoneUp d z || (List.range z).any (fun k => !zoneUp d k) then d
    else zonePowerUp d z failedCores)

/-- ENGINE_CALIBRATED: the zone's engines are calibrated and its sources are turned on while the interlock permits. -/
def execEngineCalibrated (z : Zone) (nack : W32) (s : State) : Host.Outcome State Fault Refusal :=
  s.onDev (fun d =>
    if d.ket.off || !zoneUp d z || (engine d (4 * z)).calibrated then d
    else
      let d := (List.range 4).foldl (fun d i => modEngine d (4 * z + i) (fun e => { e with calibrated := true })) d
      let d := if d.line.permit then sourcesSet d ((List.range 8).map (8 * z + ·)) true nack else d
      reachPhase d 5)

/-- Every page of the zone is READY and the committed bank is valid. -/
def zoneWhole (d : Dev) (z : Nat) : Bool :=
  (zonePages z).all (fun p => (page d p).ready) &&
    rb d (Rg.ZCTL_IMG_VALID z) (if activeBank d z == 0 then Fl.ZCTL_IMG_VALID_VALID_A else Fl.ZCTL_IMG_VALID_VALID_B)

/-- The zone opens: its order domains restart at 0 (R105), its active set is formed. -/
def zoneOpens (d : Dev) (z : Nat) : Dev :=
  let d := { d with adm := { d.adm with doms := d.adm.doms.filter (fun e => e.1 / 512 != z) } }
  let d := (List.range 32).foldl (fun d p =>
    { d with adm := { d.adm with tokens := tset zeroN d.adm.tokens (32 * z + p) (1000 * rf d (Rg.PUNT_POL z p) Fl.PUNT_POL_BURST) } })
    { d with adm := { d.adm with tokenUs := tset zeroN d.adm.tokenUs z (nsIn d z / 1000) } }
  let d := modLife d (fun l => { l with zopen := setBit l.zopen z, openAt := nowNs d })
  let d := wf d Rg.DEV_PHASE Fl.DEV_PHASE_ZONE_OPEN (setBit (rf d Rg.DEV_PHASE Fl.DEV_PHASE_ZONE_OPEN) z)
  watchDisc (startKernels (firstActive d z) z) z

def execZoneOpen (z : Zone) (s : State) : Host.Outcome State Fault Refusal :=
  s.onDev (fun d => if d.ket.off || !zoneUp d z || zoneIsOpen d z || !zoneWhole d z || coasting d then d else zoneOpens d z)

/-! ## Forwarding open (R471, R472) -/

/-- Source slot `i` is not in use, or has been on for 300 ms. -/
def slotWaited (d : Dev) (i : Nat) : Bool :=
  !rb d (Rg.LSR_SLOT i) Fl.LSR_SLOT_VALID || (d.mgt.sources.testBit i && 300000000 ≤ elapsed (nowNs d) (tget zeroN d.life.lit i))
/-- An enabled port is open, or its engine's sources have been lit for 300 ms. -/
def portWaited (d : Dev) (p : Nat) : Bool :=
  !portBegins d p || !portEnabled d p || ((port d p).opened && portUp d p) ||
    (portLanes d p).all (fun l => slotWaited d (2 * (l / 16)) && slotWaited d (2 * (l / 16) + 1))
/-- The ports no longer delay FWD_OPEN; with emission forbidden, 300 ms after every zone has opened. -/
def portsWaited (d : Dev) : Bool :=
  if d.line.permit then (List.range 256).all (portWaited d) else 300000000 ≤ elapsed (nowNs d) d.life.openAt

def fwdOpens (d : Dev) : Dev :=
  let d := wf (reachPhase d 6) Rg.DEV_PHASE Fl.DEV_PHASE_FWD_OPEN 1
  let d := wr d Rg.DEV_OPEN_MS (BitVec.ofNat 32 (min 65535 (d.life.age * 512 / 100000000)))
  twinJoin (modLife d (fun l => { l with opened := true }))

def execFwdOpen (s : State) : Host.Outcome State Fault Refusal :=
  s.onDev (fun d =>
    if !d.ket.off && !rb d Rg.DEV_PHASE Fl.DEV_PHASE_FWD_OPEN && (List.range 4).all (zoneIsOpen d) && portsWaited d then fwdOpens d else d)

/-! ## Warm reset (R473) -/

/-- Everything the four zones hold goes back to its reset value. Event sources, channels, masters and Caddy lie in the hub. -/
def resetZones (d : Dev) : Dev :=
  let pgOf (a : Nat) : Bool := a / 0x1000 < 0x1000
  { d with
    regs := d.regs.filter (fun e => pgOf e.1)
    staged := d.staged.filter (fun e => pgOf e.1)
    heldW := d.heldW.filter (fun e => pgOf e.1)
    pages := d.pages.filter (fun e => e.1 < 0x1000)
    ctrs := d.ctrs.filter (fun e => pgOf e.1)
    latch := d.latch.filter (fun e => pgOf (e.1 / 256))
    ic := { d.ic with srcs := (d.ic.srcs.map (fun e =>
      (e.1, if e.1 < 128 then e.2 else { e.2 with cores := 0, isoPending := false, isoCount := 0 }))).filter (fun e => e.2 != {}) }
    link := d.link.map (fun e => (e.1, ({
      up := { lost := e.2.up.lost, spares := e.2.up.spares }
      down := { lost := e.2.down.lost, spares := e.2.down.spares } } : Link)))
    line := {
      permit := d.line.permit
      lasers := d.line.lasers
      engines := d.line.engines.map (fun e => (e.1, { hours := e.2.hours, since := e.2.since })) }
    adm := {}
    bar := { items := d.bar.items.filter (fun e => e.1 == 0), seq := d.bar.seq, raises := d.bar.raises.filter (fun r => 128 ≤ r.cid) }
    core := {
      threads := d.core.threads.filter (fun e => 1024 ≤ e.1)
      stalls := d.core.stalls.filter (fun e => 1024 ≤ e.1)
      sram := d.core.sram.filter (fun e => e.1 / 2 ^ 20 / 65536 == 0)
      merge := d.core.merge.filter (fun e => e.1 / 65536 == 0)
      pend := d.core.pend.filter (fun e => 1024 ≤ e.1 / 32)
      tags := d.core.tags }
    inf := {
      queues := d.inf.queues.filter (fun e => 128 ≤ e.1 / 16), turns := []
      results := d.inf.results.filter (fun r => 128 ≤ r.cid)
      posts := d.inf.posts.filter (fun r => 128 ≤ r.cid) }
    tbl := { d.tbl with
      ents := d.tbl.ents.filter (fun e => e.1 / 2 ^ 33 / 64 == 0)
      port := [], learn := [], changes := [], dist := []
      aged := d.tbl.aged.filter (fun a => 4 ≤ a.1)
      fetch := [], old := d.tbl.old.filter (fun o => o.zone == 4) }
    urn := { bad := d.urn.bad }
    egr := { groups := d.egr.groups, members := d.egr.members }
    ras := { d.ras with logs := d.ras.logs.filter (fun e => e.1 / 65536 == 0), scrub := d.ras.scrub.filter (fun e => e.1 / 65536 == 0), todo := [] }
    hif := { d.hif with punts := [] }
    ket := { d.ket with
      units := d.ket.units.filter (fun e => (128 ≤ e.1 && e.1 < 136) || (200 ≤ e.1 && e.1 < 232)), ztb := [], kept := [] }
    steep := {
      reqs := d.steep.reqs.filter (fun e => reqPlace e.1 == 0)
      res := (d.steep.res.map (fun e => (e.1, { e.2 with tenants := e.2.tenants.filter (fun t => reqPlace t.1 == 0) }))).filter (fun e => e.2 != {}) }
    tel := { d.tel with frozen := 0, freezing := 0 } }

/-- Locks held by threads of zone cores are released, and their waiting lanes withdrawn. -/
def releaseZoneLocks (d : Dev) : Dev :=
  let d := (List.range 4).foldl withdrawZone d
  let zoneHeld (e : LockEnt) : Bool := e.holder / 2 ^ 29 == 0 && e.holder % 256 < 128
  (d.lku.table.filter zoneHeld).foldl (fun d e => (releaseLock d e.addr).1) d

def warmReset (d : Dev) : Dev :=
  let d := releaseZoneLocks (addLog (programPage d) 12 0)
  let d := watchDescs (resetZones d)
  let d := modLife d (fun l => { l with zopen := 0, age := 0 })
  let d := modTwin d (fun w => { w with toggling := false })
  let p := Rg.DEV_PHASE
  wf (wf (wf (wf (wf d p Fl.DEV_PHASE_ZONE_UP 0) p Fl.DEV_PHASE_ZONE_OPEN 0) p Fl.DEV_PHASE_FWD_OPEN 0) p Fl.DEV_PHASE_WARM 1) p Fl.DEV_PHASE_PHASE 3

/-- DEV_RESET: WARM with its key; without it, a reserved value. -/
def devReset (d : Dev) (m : Master) (v : W32) : Dev :=
  if !v.toNat.testBit 0 then d else if v.toNat / 2 ^ 24 == 0x96 then warmReset d else rsvd d Rg.DEV_RESET m

/-- WARM: WARM_RST_N rising (ignored before FWD_OPEN has first read 1), or a write of DEV_RESET. -/
def execWarm (by_ : Option (Master × W32)) (s : State) : Host.Outcome State Fault Refusal :=
  s.onDev (fun d => match by_ with
    | some (m, v) => guardWrite d Rg.DEV_RESET m (fun d => devReset d m v)
    | none => if d.ket.off || !d.life.opened then d else warmReset d)

/-! ## Lands and supplies (R519, R522, R524) -/

/-- PORST_N low: no Caddy write is started; outputs as R522. -/
def execPorst (s : State) : Host.Outcome State Fault Refusal :=
  s.onMem (fun _ d => ([], let d := offDev d false; { d with ket := { d.ket with tripped := false } }))

/-- EN falling: the retained-state shutdown; a cycle of EN ends a thermal trip. -/
def execEnLow (s : State) : Host.Outcome State Fault Refusal :=
  s.onMem (fun _ d => ([], let d := if d.ket.off then d else retainedShutdown d; { d with ket := { d.ket with tripped := false } }))

/-- VSTBY_LOSS while the module runs: the shutdown, then OFF. -/
def execVstbyLoss (s : State) : Host.Outcome State Fault Refusal :=
  if s.dev.ket.off then s.onDev (fun d => d) else s.onMem (fun _ d => ([], retainedShutdown d))

end Sys2Proof.Machine
end

