-- ==== Sys2Proof/Machine/Telemetry.lean ====
section
/-!
DEFINITION. Telemetry: probes, samples and their export (R507 to R511), and the commands of the programmable counters (R505, R506).
-/

namespace Sys2Proof.Machine
open Sys2Proof

def telEvent (d : Dev) (n : Nat) : Dev := raise d (Rg.pageOf Rg.baseTEL) n

/-! ## Probes (R508, R509) -/

def probeKind (d : Dev) (j : Nat) : Nat := rf d (Rg.TEL_PROBE j) Fl.TEL_PROBE_KIND
def probeMode (d : Dev) (j : Nat) : Nat := rf d (Rg.TEL_PROBE j) Fl.TEL_PROBE_MODE
def probeIndex (d : Dev) (j : Nat) : Nat := (rd d (Rg.TEL_PROBE_INDEX j)).toNat

/-- The modes that a kind allows. -/
def probeModes (kind : Nat) : List Nat :=
  if kind == 0 then [0, 1, 2]
  else if (1 ≤ kind && kind ≤ 4) || (9 ≤ kind && kind ≤ 11) then [0, 1]
  else if 5 ≤ kind && kind ≤ 8 then [0, 2]
  else []

/-- The page a source lies on; none: outside any zone and page. -/
def probePage (kind i : Nat) : Option Nat :=
  match kind with
  | 1 | 2 => some (urnPage (i % 4))
  | 3 => some (Rg.pageOf (Rg.baseTM (i / 2048 % 4)))
  | 4 => some (admPage (i / 512 % 4))
  | 5 => some (quadPage (i / 256 % 256 / 4))
  | 6 | 7 => some (urnPage (i / 2 ^ 20 % 4))
  | 8 => some (corePage (32 * (i / 2 ^ 26 % 4) + i / 2 ^ 21 % 32))
  | 11 => if 64 ≤ i && i < 68 then some (hbmPage (i - 64)) else some (Rg.pageOf Rg.basePWR)
  | _ => some (Rg.pageOf Rg.basePWR)

/-- The source lies in an isolated zone or on a page that reads READY = 0. -/
def probeStale (d : Dev) (j : Nat) : Bool :=
  match probePage (probeKind d j) (probeIndex d j) with
  | some pg => (0x1000 ≤ pg && isolated d ((pg - 0x1000) / 0x400)) || !(page d pg).ready
  | none => false

/-- The value of a source; a temperature is signed. Reading a counter pair checks its words. -/
def probeValue (d : Dev) (kind i : Nat) : Int × Dev :=
  match kind with
  | 1 => ((urnz d (i % 4)).occ, d)
  | 2 => ((usedPages d (i % 4)).length, d)
  | 3 => (voqDepth d (i / 2048 % 4) (i % 2048), d)
  | 4 => ((dom d (512 * (i / 512 % 4) + i % 512)).occ, d)
  | 5 => if i % 64 ≤ 50 then ((ctr d (Rg.RX_FRAMES_OK (i / 256 % 256 / 4) (i / 256 % 4) + 8 * (i % 64))).toNat, d) else (0, d)
  | 6 => let (a, _, _, d) := readPair d (i / 2 ^ 20 % 4) (i % 2 ^ 20); (a, d)
  | 7 => let (_, b, _, d) := readPair d (i / 2 ^ 20 % 4) (i % 2 ^ 20); (b, d)
  | 8 => if i % 16 ≤ 9 && i / 2 ^ 21 % 32 < 26 then ((ctr d (perfBase (32 * (i / 2 ^ 26 % 4) + i / 2 ^ 21 % 32) + 8 * (i % 16))).toNat, d) else (0, d)
  | 9 => (if i < 5 then level d i else 0, d)
  | 10 => (rf d Rg.PWR_INPUT Fl.PWR_INPUT_INPUT_DW, d)
  | 11 =>
    if i < 64 then (sint 8 (rf d (Rg.PWR_TEMP i) Fl.PWR_TEMP_TEMP), d)
    else if i < 68 then (sint 8 (rf d (Rg.HBM_STATUS (i - 64)) Fl.HBM_STATUS_TEMP), d)
    else (0, d)
  | _ => (0, d)

/-- Probe `j` latches: the value it reports, as a 64-bit word, and its source's value as a number. -/
def latchProbe (d : Dev) (j : Nat) : Int × Dev :=
  let (v, d) := probeValue d (probeKind d j) (probeIndex d j)
  let w := wrapInt 64 v
  let r : Int := match probeMode d j with
    | 1 => max v (tget (fun _ => 0) d.tel.top j)
    | 2 => ((w + 2 ^ 64 - (tget zero64 d.tel.last j).toNat) % 2 ^ 64 : Nat)
    | _ => v
  (r, modTel d (fun t => { t with last := tset zero64 t.last j (BitVec.ofNat 64 w), top := tset (fun _ => 0) t.top j v }))

/-- The record of probe `j` (R510). -/
def probeRecord (d : Dev) (j seq : Nat) (stale alert : Bool) (v : Int) : List W32 :=
  let x := wrapInt 64 v
  [probeKind d j * 64 + j + probeMode d j * 2 ^ 11 + b2n alert * 2 ^ 13 + b2n stale * 2 ^ 14, probeIndex d j, x % 2 ^ 32, x / 2 ^ 32,
    nowNs d % 2 ^ 32, nowNs d / 2 ^ 32 % 2 ^ 32, seq, 4 * 2 ^ 24].map (BitVec.ofNat 32)

/-- Probe `j` in a sample: a record, unless it only takes its baseline. -/
def sampleProbe (seq : Nat) (st : List (List W32) × Dev) (j : Nat) : List (List W32) × Dev :=
  let (l, d) := st
  if probeKind d j == 0 then (l, d)
  else if probeStale d j then (l ++ [probeRecord d j seq true false 0], d)
  else
    let (v, d) := latchProbe d j
    if d.tel.fresh.testBit j then (l, modTel d (fun t => { t with fresh := clrBit t.fresh j }))
    else
      let th := rd64 d (Rg.TEL_ALERT_LO j) (Rg.TEL_ALERT_HI j)
      let alert := th != 0 && decide ((th : Int) ≤ v)
      let d := if alert then telEvent (bump d Rg.TEL_ALERTS 1) 1 else d
      (l ++ [probeRecord d j seq false alert v], d)

/-! ## Samples (R507, R511) -/

/-- One sample, or, while an export runs, a skipped one. -/
def takeSample (d : Dev) : Dev :=
  let seq := (d.tel.seq + 1) % 2 ^ 24
  let d := modTel d (fun t => { t with seq := seq })
  if d.tel.job.isSome then telEvent (bump d Rg.TEL_SKIPPED 1) 2
  else
    let d := wf (bump d Rg.TEL_SAMPLES 1) Rg.TEL_STATUS Fl.TEL_STATUS_SEQ seq
    let (l, d) := (List.range 64).foldl (sampleProbe seq) ([], d)
    if l.isEmpty then d else modTel d (fun t => { t with job := some l })

/-- SAMPLE: a multiple of the effective period has come. -/
def execSample (s : State) : Host.Outcome State Fault Refusal :=
  s.onDevF (fun d =>
    let p := telPeriod d
    let last := min d.tel.boundary (nowNs d)
    if d.ket.off || !rb d Rg.TEL_CTRL Fl.TEL_CTRL_EN || p == 0 || nowNs d / p * p ≤ last then modTel d (fun t => { t with boundary := last })
    else takeSample (modTel d (fun t => { t with boundary := nowNs d })))

def execSampleNow (m : Master) (s : State) : Host.Outcome State Fault Refusal :=
  s.onDevF (fun d => guardWrite d Rg.TEL_CMD m takeSample)

/-! ## Export (R510) -/

/-- One record to event ring 1 of the host, then to the history buffer. -/
def exportRecord (st : Memory × Dev) (w : List W32) : Memory × Dev :=
  let (m, d) := st
  let d := (postEvent d (rf d Rg.TEL_CTRL Fl.TEL_CTRL_HOST) 1 4 ((w.take 7).map (·.toNat))).1
  let d := bump d Rg.TEL_EXPORTED 1
  let size := rf d Rg.TEL_HBM_SIZE Fl.TEL_HBM_SIZE_HBM_SIZE
  if !rb d Rg.TEL_CTRL Fl.TEL_CTRL_HBM_EN || size == 0 then (m, d)
  else
    let n := (rd d Rg.TEL_HBM_WPTR).toNat
    let cap := size * 2 ^ 20 / 32
    let d := if n == cap then telEvent d 3 else d
    memStore m (wr d Rg.TEL_HBM_WPTR (BitVec.ofNat 32 (n + 1))) 3 899 (rf d Rg.TEL_HBM_BASE Fl.TEL_HBM_BASE_HBM_BASE * 2 ^ 20 + 32 * (n % cap)) (wordsBytes w)

/-- EXPORT_DONE; a function in D3hot holds the export back (R511). -/
def execExportDone (s : State) : Host.Outcome State Fault Refusal :=
  s.onMemF (fun m d => match d.tel.job with
    | none => (m, d)
    | some l => let h := rf d Rg.TEL_CTRL Fl.TEL_CTRL_HOST; if inD3 d h && ringEnabled d h 3 1 then (m, d) else l.foldl exportRecord (m, modTel d (fun t => { t with job := none })))

/-! ## Commands of the pages (R505, R506, R512) -/

/-- CLEAR_WM zeroes every VOQ maximum. -/
def clearWm (d : Dev) : Dev := { d with urn := { d.urn with voqs := d.urn.voqs.map (fun e => (e.1, { e.2 with most := 0 })) } }
def execClearWm (m : Master) (s : State) : Host.Outcome State Fault Refusal := s.onDev (fun d => guardWrite d Rg.TEL_CMD m clearWm)

/-- CLEAR zeroes the four PMCs of a core. -/
def pmcClear (d : Dev) (cid : Nat) : Dev := (List.range 4).foldl (fun d i => wr d (pmcAddr cid i) 0) d
def execPmcClear (z : Zone) (k : Fin 26) (m : Master) (s : State) : Host.Outcome State Fault Refusal :=
  s.onDev (fun d => guardWrite d (Rg.TEL_PMC_CTRL z k) m (fun d => pmcClear d (32 * z.val + k.val)))

/-- UNFREEZE resumes the PMCs of a core. -/
def pmcUnfreeze (d : Dev) (cid : Nat) : Dev := modTel d (fun t => { t with frozen := clrBit t.frozen (pmcBit cid) })
def execUnfreeze (z : Zone) (k : Fin 26) (m : Master) (s : State) : Host.Outcome State Fault Refusal :=
  s.onDev (fun d => guardWrite d (Rg.TEL_PMC_CTRL z k) m (fun d => pmcUnfreeze d (32 * z.val + k.val)))

end Sys2Proof.Machine
end

