-- ==== Sys2Proof/Machine/RegRead.lean ====
section
/-!
DEFINITION. Reading the register pages: the page header (R36, R37), block registers with the status that the hardware derives, counters
and their high-half latches (R50, R51), the counter windows (R502), holes and narrow or unaligned accesses (R46 to R49, R52).
-/

namespace Sys2Proof.Machine
open Sys2Proof

/-! ## The page header -/

/-- A channel belongs to the unit of a page (R37, R385): line lanes and laser inputs to the OE pages of their engine, die-link lanes to the
XB page, SRAM rows to the RAS and ZRAS pages of their place, pseudo-channels and their rows to the HBM pages of the stack, cores to their
CORE or HCC page, phases to the PWR pages, host lanes to the HIF pages, requesters to the ARB pages (which page, DESIGN CHOICE, log 38). -/
def chanOn (p : PageId) (k : Nat) : Bool :=
  let e := 4 * p.zone + p.inst % 64
  match p.ty with
  | 0x21 => (chTy k == 0 && chUnit k / 16 == e) || (chTy k == 5 && chUnit k == e)
  | 0x0A => chTy k == 1 && chPlace k == 1 + p.inst
  | 0x0F => chTy k == 2 && chPlace k == 0
  | 0x2C => chTy k == 2 && chPlace k == 1 + p.zone
  | 0x10 => chTy k == 3 && chUnit k / 32 == p.inst
  | 0x26 => k == coreChan (32 * p.zone + p.inst % 64)
  | 0x11 => k == coreChan (128 + p.inst)
  | 0x03 => chTy k == 6
  | 0x08 => chTy k == 7 && chUnit k == p.inst
  | 0x0E => chTy k == 8
  | _ => false
/-- A channel of the page's unit is in state `st`. -/
def unitIn (d : Dev) (p : PageId) (st : Nat) : Bool := d.ras.chans.any (fun e => chanOn p e.1 && e.2.state == st)

/-- At least one staged value has not yet taken effect. -/
def pageStaged (d : Dev) (pg : Nat) : Bool := d.staged.any (fun e => e.1 / 0x1000 == pg && e.2.mask != 0)

/-- PAGE_STATUS. -/
def pageStatus (d : Dev) (pg : Nat) (p : PageId) : Nat :=
  let s := page d pg
  b2n s.ready + b2n s.held * 2 + b2n (pageStaged d pg) * 4 + b2n (unitIn d p 1) * 8 + b2n (unitIn d p 3) * 16 + b2n (unitIn d p 2) * 32 +
    s.gen.toNat * 256

/-- INT_BASE. -/
def intBase (p : PageId) : Nat := match pageEvents p with | some (b, n) => b + n * 2 ^ 16 | none => 2 ^ 31

/-- A header register; none for a hole. -/
def headerVal (d : Dev) (pg : Nat) (p : PageId) (off : Nat) : Option Nat :=
  let s := page d pg
  match off with
  | 0x00 => some (p.idx + 3 * 2 ^ 8 + p.inst * 2 ^ 16 + p.ty * 2 ^ 24)
  | 0x04 => some (b2n s.hold + b2n s.commit * 2)
  | 0x08 => some (pageStatus d pg p)
  | 0x0C => some s.err.toNat
  | 0x10 => some s.owner.toNat
  | 0x14 => some s.info.toNat
  | 0x20 => some s.intStatus.toNat
  | 0x24 => some s.intMask.toNat
  | 0x28 => some 0
  | 0x2C => some (intBase p)
  | _ => none

/-! ## Status that the hardware derives -/

/-- Sum of a list of field values at their places. -/
def flds (l : List (Nat × Nat)) : Nat := l.foldl (fun n e => n + e.1 * 2 ^ e.2) 0
/-- Bits of a predicate over the first `n` numbers. -/
def bitsWhere (n : Nat) (f : Nat → Bool) : Nat := ofBits ((List.range n).filter f)

/-- Threads of a core: READY, STALLED and IN_TRAP. -/
def threadBits (d : Dev) (cid : Nat) : Nat :=
  flds [(bitsWhere 8 (threadReady d cid), 0), (bitsWhere 8 (fun t => (thr d cid t).wait == .lock || stallNow d cid t != .none), 8), (bitsWhere 8 (fun t => (thr d cid t).inTrap), 16)]
/-- CORE_THREAD; a running thread whose role is to change reads DRAIN. -/
def threadWord (d : Dev) (cid t : Nat) : Nat :=
  let x := thr d cid t
  let drains := !isHub cid && (((x.state == 1 || x.state == 2) && kernelRole d cid t) || (x.state == 4 && !kernelRole d cid t))
  flds [(x.pc % 2 ^ 14, 0), (if isHub cid then 0 else x.bank, 14), (if drains then 6 else x.state, 16), (issueRank d cid t % 16, 20),
    (if isHub cid then 0 else (activeLanes x).length, 24)]

/-- Derived status of a zone's blocks: type, page, register offset, element `i`; the bits are added to the stored ones. -/
def zoneStatus (d : Dev) (z l ty idx off i : Nat) : Nat :=
  match ty, idx, off with
  | 0x21, 0, 0x44 =>
    let e := 4 * z + l
    flds [((chan d (laserChan e 0)).state, 0), ((chan d (laserChan e 1)).state, 4), (b2n (engine d e).major, 8), (b2n d.line.permit, 9),
      (b2n ((engineLanes e).any (laneLit d)), 10), (bitsWhere 16 (fun k => (lane d (16 * e + k)).ring), 16)]
  | 0x21, 0, 0x4C => poweredHours d (4 * z + l) % 65536
  | 0x21, 1, 0x44 => (freeVal d).toNat % 2 ^ 32
  | 0x22, 0, 0x68 =>
    let q := 16 * z + l
    flds ((List.range 4).flatMap (fun s =>
      let p := 4 * q + s
      [(b2n (portUp d p), 4 * s), (b2n (port d p).lfault, 4 * s + 1), (b2n (port d p).rfault, 4 * s + 2), (b2n ((List.range 8).any (paused d p)), 4 * s + 3)]) ++
      [(bitsWhere 4 (fun j => (port d (lanePort d (4 * q + j))).locks.testBit (4 * q + j - lanePort d (4 * q + j))), 16)])
  | 0x23, 0, 0x100 =>
    let shut := strHeld d z || 4 ≤ level d z
    flds [(bitsWhere 4 (fun p => shut || (former d z p false).stopped), 0), (bitsWhere 4 (fun p => shut || (former d z p true).stopped), 4)]
  | 0x24, 0, 0xDC =>
    flds [(bitsWhere 8 (fun c => (List.range 4).any (fun p => (pipeShed d z p).contains c)), 0), (level d z, 8),
      (bitsWhere 4 (fun p => (pipe d z p).storeXoff), 12), (b2n (urnz d z).pressure, 16), (b2n (urnz d z).reserve, 17), (ofBits (shedSet d z (poolShed d z)), 18)]
  | 0x24, 0, 0xE0 => (pipe d z i).blocks
  | 0x24, 1, 0x800 =>
    let n := 512 * z + i
    flds [((dom d n).occ, 0), (b2n (xoffCause d n), 18), (b2n (lossless d (n / 8) (n % 8)), 19)]
  | 0x25, 0, 0x64 =>
    flds [((entriesUsed d z).length, 0), (b2n (weightedNow d z), 11), (level d z, 12), ((activeSet d z).length, 16),
      (bitsWhere 4 (fun p => (former d z p false).stopped), 24), (bitsWhere 4 (fun p => (former d z p true).stopped), 28)]
  | 0x25, 0, 0x68 =>
    flds [((items d (1 + z)).length, 0), (b2n (4096 - (items d (1 + z)).length ≤ eventResv d (1 + z)), 13),
      ((d.core.threads.filter (fun e => e.1 / 256 == z && e.1 < 1024 && e.2.state == 3)).length, 16)]
  | 0x25, 0, 0x6C => ofBits (activeSet d z)
  | 0x25, 0, 0x70 => flds [((barz d z).remain, 0), ((barz d z).shadowCore, 16), (b2n (barz d z).run, 21)]
  | 0x25, 1, 0x200 =>
    let c := 32 * z + i
    flds [(busyThreads d c, 0), ((slotFlights d c).length, 4), (b2n ((activeSet d z).contains i), 6), (b2n ((List.range 8).any (fun t => ownRank d c t < issueRank d c t)), 7)]
  | 0x26, 0, 0x48 => threadBits d (32 * z + l)
  | 0x26, 0, 0x60 => threadWord d (32 * z + l) i
  | 0x20, 0, 0x44 =>
    flds [(activeBank d z, 0), (b2n (otherBusy d z), 1), ((((zoneFlights d z).filter (fun f => f.bank != activeBank d z)).map (·.entry)).dedup.length, 16)]
  | 0x27, 0, 0x64 => flds [((learnQ d z).length, 0), (b2n (frozen d z), 11)]
  | 0x27, 1, 0x58 =>
    let x := descAt d (1 + z) i
    let es := (regionEnts d (1 + z) i x.bank).filter (fun e => e.2.valid)
    flds [(es.length, 0), ((es.filter (fun e => isStash e.1)).length, 23)]
  | 0x27, 1, 0x5C =>
    let x := descAt d (1 + z) i
    flds [(shownCapacity x x.bank - (gonePos d (1 + z) i x.bank x).length, 0), (b2n (oldBusy d z i), 23), (x.bank, 24)]
  | 0x28, 0, 0x54 =>
    let u := urnz d z
    flds [(u.occ, 0), (b2n u.warn, 18), (b2n u.pressure, 19), (b2n (rf d (Rg.URN_POOL_SHED z) Fl.URN_POOL_SHED_CELLS ≤ u.occ), 20),
      (b2n (rf d (Rg.URN_POOL_RESERVE z) Fl.URN_POOL_RESERVE_CELLS ≤ u.occ), 21)]
  | 0x28, 0, 0x68 =>
    let at_ (f : Fld) : Nat := b2n (pgAt d z (pgThresh d z f))
    flds [((usedPages d z).length, 0), (at_ Fl.URN_PG_THRESH_PG_WARN, 22), (at_ Fl.URN_PG_THRESH_PG_PRESSURE, 23), (at_ Fl.URN_PG_THRESH_PG_SHED, 24),
      (at_ Fl.URN_PG_THRESH_PG_RESERVE, 25), (b2n ((zoneVoqs d z).any (fun e => e.2.spill || e.2.chain.any (fun p => !p.written))), 26), (min 31 (urnz d z).lost, 27)]
  | 0x28, 0, 0x6C => ((zoneVoqs d z).filter (fun e => e.2.spill)).length
  | 0x28, 1, 0x5C =>
    let u := urnz d z
    flds [(b2n u.leakRun, 0), (u.logValid, 1), (u.logNext, 6), (u.passes % 2 ^ 22, 10)]
  | 0x28, 1, 0x60 => (d.urn.bufs.filter (fun e => e.1 / 131072 == z && e.2.kind == i + 1)).length
  | 0x29, 0, 0x44 => (rentries d z).length
  | 0x2A, 0, 0x44 => (List.range 64).foldl (fun n p => n + portCredits d (64 * z + p)) 0
  | 0x2A, 0, 0x4C =>
    let v := rf d (Rg.TM_VOQ_PEEK z) Fl.TM_VOQ_PEEK_VOQ
    flds [(voqDepth d z v, 0), (b2n (voq d z v).spill, 18)]
  | 0x2B, 0, 0x44 => flds [(editSet d z, 0), (b2n (editOldBusy d z), 1)]
  | 0x2B, 1, 0x48 =>
    let r := Rg.EDT_WADDR z
    if rf d r Fl.EDT_WADDR_WORD < 294912 then (editWord d z (rf d r Fl.EDT_WADDR_WSET) (rf d r Fl.EDT_WADDR_WORD)).toNat else 0
  | 0x2C, 0, 0xC4 =>
    let b := barz d z
    flds [(b.judged, 0), (b.unjudged, 16), (b2n b.mismatch, 29), (b2n b.passed, 30)]
  | 0x2C, 0, 0xC8 => b2n (lnk d z).rebuilding
  | _, _, _ => 0

/-- The array and log registers of RAS page 1 and ZRAS (R400). -/
def pwStatus (d : Dev) (pl off : Nat) : Nat :=
  let n := pwInst d pl
  let e := (sramLog d pl n)[(rd d (pwReg pl Rg.PW_SEL Rg.ZPW_SEL)).toNat / 65536 % 16]?
  match off, e with
  | 0x44, _ => flds [(sramSpares pl n - sparesUsed d pl n, 0), (sramSpares pl n, 12)]
  | 0x48, some e => flds [(e.word, 0), (1, 31)]
  | 0x4C, some e => flds [(e.synd.toNat, 0), (e.count, 8), (b2n e.inj, 16)]
  | 0x50, some e => e.time % 2 ^ 32
  | 0x54, some e => e.time / 2 ^ 32 % 2 ^ 32
  | 0x6C, _ => sramRows pl n
  | _, _ => 0

/-- The registry entry selected by RAS_REG_SEL (R395). -/
def regStatus (d : Dev) (off : Nat) : Nat :=
  match off, tget zeroN d.ras.registry (rf d Rg.RAS_REG_SEL Fl.RAS_REG_SEL_INDEX) with
  | 0x80, _ => (d.ras.registry.filter (fun e => e.2 != 0)).length
  | _, 0 => 0
  | 0x6C, k + 1 => k / 2 ^ 32
  | 0x70, k + 1 => k % 2 ^ 32
  | 0x74, k + 1 =>
    let c := chan d k
    flds [(c.state, 0), (min 255 c.count, 3), (1, 11), (b2n c.hard, 12), (b2n c.spareIn, 13), (min 65535 c.total, 16)]
  | 0x78, k + 1 => (chan d k).start % 2 ^ 32
  | 0x7C, k + 1 => (chan d k).start / 2 ^ 32 % 2 ^ 32
  | _, _ => 0

/-- Rings of HIF page `idx`, element `i` at offset `off`: kind and ring. -/
def ringAt (idx off i : Nat) : Nat × Nat := (if idx == 1 then 0 else if idx == 2 then 1 else if off < 0x140 then 2 else 3, i)

/-- Channels of requesters in a state of the list. -/
def reqsIn (d : Dev) (l : List Nat) : Nat := (d.ras.chans.filter (fun e => chTy e.1 == 8 && l.contains e.2.state)).length

/-- Derived status of the hub's blocks. -/
def hubStatus (d : Dev) (n ty idx off i : Nat) : Nat :=
  match ty, idx, off with
  | 0x01, 0, 0x54 =>
    let pgs := (List.range 16).filter (fun j => rb d (Rg.DEV_GROUP_PAGE j) Fl.DEV_GROUP_PAGE_VALID)
    let named (j : Nat) : PageSt := page d (rf d (Rg.DEV_GROUP_PAGE j) Fl.DEV_GROUP_PAGE_PAGE)
    let real := pgs.filter (fun j => (pageId (rf d (Rg.DEV_GROUP_PAGE j) Fl.DEV_GROUP_PAGE_PAGE)).isSome)
    flds [(b2n (!real.isEmpty && real.all (fun j => (named j).held)), 0), (b2n (groupPending d), 1), (ofBits (real.filter (fun j => (named j).group && (named j).held)), 16)]
  | 0x0A, 0, 0x44 =>
    let x := lnk d n
    flds [(x.state, 0), (x.up.spares.length, 8), (x.down.spares.length, 16), (b2n (x.up.replay || x.down.replay), 24), (b2n (x.up.lost != 0 || x.down.lost != 0), 25)]
  | 0x11, 0, 0x40 => threadBits d (128 + n)
  | 0x11, 0, 0x60 => threadWord d (128 + n) i
  | 0x0D, 0, 0x48 => flds [(distPending d, 0), (bitsWhere 4 (fun z => !isolated d z), 12)]
  | 0x0D, 0, 0x50 => bitsWhere 8 (fun t => extIsHeld d t && !extWaiting d t) * 256
  | 0x0D, 1, 0x54 =>
    let x := descAt d 0 (32 + i)
    ((regionEnts d 0 (32 + i) x.bank).filter (fun e => e.2.valid)).length
  | 0x0D, 1, 0x58 => let x := descAt d 0 (32 + i); shownCapacity x x.bank
  | 0x0B, 0, 0x58 => (tget (fun _ => []) d.egr.mirr i).length
  | 0x10, 0, 0x44 => b2n (d.hbm.copy == 3 && d.hbm.copyBack == 1) * 2 ^ 20
  | 0x10, 1, 0x40 =>
    let pc := 32 * n + i
    let per := (List.range 48).map (bankRepairs d pc)
    flds [((chan d (pcChan pc)).state, 0), (b2n (per.any (fun x => 4 ≤ x)), 3), (per.foldl (· + ·) 0, 4)]
  | 0x0E, 0, 0x50 => flds [(reqsIn d [3], 0), (reqsIn d [1, 2], 16)]
  | 0x0E, 3, 0x44 =>
    let r := rf d Rg.ARB_REQ_SEL Fl.ARB_REQ_SEL_REQUESTER
    flds [((chan d (reqChan r)).state, 0), ((requester d r).loss, 4)]
  | 0x0C, 0, 0x4C => flds [(d.lku.table.length, 0), (b2n (4096 ≤ d.lku.table.length), 13)]
  | 0x0C, 0, 0x50 =>
    let w := d.lku.waiters.filter (fun w => w.stage < 2)
    ((w.map (fun w => match w.host with | some k => (1, k, 0) | none => (0, w.cid, w.t))).dedup).length
  | 0x0F, 0, _ => if 0x6C ≤ off && off ≤ 0x80 then regStatus d off else 0
  | 0x0F, 1, _ => pwStatus d 0 off
  | 0x08, 0, 0x40 => bitsWhere 8 (fun l => (chan d (chanKey 7 0 n l)).state == 0) * 2 ^ 11
  | 0x08, _, _ =>
    if off % 0x20 != 0x1C || idx == 0 then 0
    else
      let (k, r) := ringAt idx off i
      flds [(b2n (ring d n k r).timer.isSome, 16), (b2n (!(ring d n k r).held.isEmpty), 17)]
  | 0x07, 1, 0x44 => flds [(d.mgt.rx.length, 0), (d.mgt.tx.length, 8)]
  | 0x05, 0, 0x78 => bitsWhere 3 (fun k => pinLow d (4 + k))
  | 0x05, 0, 0x7C => (readyFor d 3).length
  | 0x05, 2, 0x44 => flds [(min 65535 (coGroup d i).edges, 0), (b2n (coGroup d i).start.isSome, 16)]
  | 0x05, _, 0x40 =>
    if idx == 5 || idx == 6 then
      let x := src d (i + 256 * (idx - 5))
      flds [(b2n x.pending, 0), (b2n x.active, 1), (b2n x.merged, 2), (b2n x.held, 3), (x.count.toNat, 4)]
    else 0
  | 0x04, 0, 0x7C => flds [(b2n (coasting d), 0), (bitsWhere 4 (fun z => !isolated d z), 1)]
  | 0x03, 0, 0x44 => causeBits d
  | 0x03, 2, 0x40 => shareNow d i * 2 ^ 16
  | 0x06, 0, 0x44 =>
    flds [(b2n (!d.caddy.dirty.isEmpty), 3), (b2n d.caddy.cfgDirty, 4), (b2n (lastCkpt d.caddy).isSome, 5), (b2n d.caddy.snapping.isSome, 6),
      ((freeVal d).toNat % 256, 8)]
  | 0x06, 0, 0x64 =>
    match d.caddy.log[rf d Rg.CDY_LOG_IDX Fl.CDY_LOG_IDX_LOG_IDX]?, i with
    | some r, 0 => r.w0.toNat
    | some r, 1 => r.w1.toNat
    | some r, 2 => r.w2.toNat
    | some r, _ => r.w3.toNat
    | none, _ => 0
  | 0x09, 0, 0x44 => flds [(b2n (twinBlocks d), 7), (b2n (twinState d == 1 && twinLinkUp d), 9)]
  | 0x09, 0, 0x6C => if d.twin.left then d.twin.own.length else 0
  | 0x12, 0, 0x50 => b2n d.tel.job.isSome * 2 ^ 24
  | 0x12, _, 0x380 => if 2 ≤ idx then b2n (d.tel.frozen.testBit (26 * (idx - 2) + i)) * 4 else 0
  | _, _, _ => 0

/-- Registers whose value the spec leaves open: measured powers, wear, and error counts of a lane under test. -/
def openReg (d : Dev) (p : PageId) (off i : Nat) : Bool :=
  match p.ty, p.idx, off with
  | 0x21, 1, 0x44 => true
  | 0x06, 0, 0x44 => true
  | 0x21, 1, 0x4C => rb d (Rg.OE_LANE_CTRL (4 * p.zone + p.inst % 64) i) Fl.OE_LANE_CTRL_PRBS_CHK
  | _, _, _ => false

/-- A block register: its stored bits, the derived ones, and for a lane under test a free count. -/
def blockVal (d : Dev) (p : PageId) (a off i : Nat) : W32 :=
  if p.ty == 0x21 && p.idx == 1 && off == 0x4C && openReg d p off i then (freeVal d).setWidth 32
  else
    let derived := if 0x20 ≤ p.ty then zoneStatus d p.zone (p.inst % 64) p.ty p.idx off i ||| (if p.ty == 0x2C then pwStatus d (1 + p.zone) off else 0)
      else hubStatus d p.inst p.ty p.idx off i
    -- values written in a hold read back before their release (R41)
    let h := tget stagedDflt d.heldW a
    (rd d a &&& ~~~h.mask) ||| (h.val &&& h.mask) ||| BitVec.ofNat 32 derived

/-! ## Counters and windows (R50, R51, R502) -/

/-- A 32-bit half of a 64-bit value for master `m`: the low half latches the high one; the latched half is given once. -/
def readHalf (d : Dev) (lo : Nat) (high : Bool) (v : Nat) (m : Master) : W32 × Dev :=
  if high then
    match getLatch d lo m with
    | some x => (x, dropLatch d lo m)
    | none => (BitVec.ofNat 32 (v / 2 ^ 32), d)
  else (BitVec.ofNat 32 v, setLatch d lo m (BitVec.ofNat 32 (v / 2 ^ 32)))

/-- An aligned word of the counter window of zone `z`. -/
def windowRead (d : Dev) (z a : Nat) (m : Master) : W32 × Dev :=
  let w := a - (0x1000000 + 0x400000 * z + 0x200000)
  if w < 0x100000 then
    let pair := rf d Rg.TEL_CWIN (Fl.TEL_CWIN_BASE z) * 65536 + w / 16
    let (x, y, _, d) := readPair d z pair
    readHalf d (a / 8 * 8) (w / 4 % 2 == 1) (if w / 8 % 2 == 0 then x else y) m
  else if w < 0x11A000 then
    let cid := 32 * z + (w - 0x100000) / 0x1000
    let o := w % 0x1000
    if o < 0x50 then readHalf d (a / 8 * 8) (o / 4 % 2 == 1) (ctr d (a / 8 * 8)).toNat m
    else if 0x80 ≤ o && o < 0x90 then
      let i := (o - 0x80) / 4
      let chained (j : Nat) : Bool := rb d (Rg.TEL_PMC_SEL z (4 * (cid % 32) + j)) Fl.TEL_PMC_SEL_CHAIN
      -- a chained pair reads as one 64-bit counter
      if i % 2 == 1 && chained i then readHalf d (a - 4) true ((rd d a).toNat * 2 ^ 32) m
      else if i % 2 == 0 && chained (i + 1) then readHalf d a false ((rd d (a + 4)).toNat * 2 ^ 32 + (rd d a).toNat) m
      else (rd d a, d)
    else (0, d)
  else if 0x180000 ≤ w && w < 0x182000 then
    let v := (w - 0x180000) / 4
    (BitVec.ofNat 32 (voqDepth d z v + b2n (voq d z v).spill * 2 ^ 18), d)
  else if 0x182000 ≤ w && w < 0x184000 then (BitVec.ofNat 32 (max (voq d z ((w - 0x182000) / 4)).most (voqDepth d z ((w - 0x182000) / 4))), d)
  else (0, d)

/-- The zone whose counter window covers address `a`. -/
def windowZone (a : Nat) : Option Nat :=
  if 0x1000000 ≤ a && a < 0x2000000 && 0x200000 ≤ (a - 0x1000000) % 0x400000 then some ((a - 0x1000000) / 0x400000) else none

/-! ## One read (R48, R49, R52) -/

/-- A claim register: its target. -/
def claimAt (a : Nat) : Option Nat := [1, 2, 4, 5, 6].find? (fun t => claimAddr t == a)

/-- Fields that a read clears, with their values afterwards. -/
def rcFields (p : PageId) (off : Nat) : List FieldD :=
  match regAt p off with
  | some (r, _) => r.fields.filter (fun f => f.acc == .rc)
  | none => []
/-- R343: when the copy back of a restored pseudo-channel begins, after its patterns, and when it ends, before its scrub, no command says: a
read of HBM_STATUS.MIGRATING sees by free bits how far it has come (DESIGN CHOICE, log 245). -/
def seeCopy (d : Dev) (p : PageId) (off : Nat) : Dev :=
  if p.ty == 0x10 && p.idx == 0 && off == 0x44 && d.hbm.copy == 3 && d.hbm.copyBack < 2 then
    useFree (if (freeVal d).getLsbD 0 then modHbm d (fun h => { h with copyBack := h.copyBack + 1 }) else d)
  else d

/-- A read of an RC register clears it once. -/
def clearRc (d : Dev) (p : PageId) (a : Nat) : Dev :=
  (rcFields p (a % 0x1000)).foldl (fun d f => wf d a ⟨f.hi, f.lo⟩ f.fact) d

/-- A read of a page error: it answers `v`. -/
def readErr (d : Dev) (pg bitn off : Nat) (m : Master) (v : W32) : W32 × Dev := (v, pageErr d pg bitn off false m)

/-- A 32-bit read at BAR0 address `a` by master `m`: its data and its effect. -/
def regRead (d : Dev) (a : Nat) (m : Master) : W32 × Dev :=
  let pg := a / 0x1000
  let off := a % 0x1000
  let d := wakePage d
  match windowZone a with
  | some z =>
    if !reaches d pg m then (0xFFFFFFFF, unimpl d a false m)
    else if a % 4 != 0 then (0xFFFFFFFF, d) else windowRead d z a m
  | none =>
    match (if reaches d pg m then pageId pg else none) with
    | none => (0xFFFFFFFF, unimpl d a false m)
    | some p =>
      if a % 4 != 0 then readErr d pg 1 off m 0xFFFFFFFF
      else if off < 0x40 then
        match headerVal d pg p off with
        | some v => (BitVec.ofNat 32 v, d)
        | none => readErr d pg 2 off m 0
      else
        match ctrAt p off, regAt p off with
        | some lo, _ =>
          if !(page d pg).ready then (0, d) else readHalf d (pg * 0x1000 + lo) (off != lo) (ctrShown d (pg * 0x1000 + lo)).toNat m
        | none, none => readErr d pg 2 off m 0
        | none, some (r, i) =>
          if !(page d pg).ready then (0, d)
          else if (claimAt a).isSome then
            let t := (claimAt a).getD 0
            ((match selected d t with | some n => claimWord d n | none => 0), claimBy d t [m])
          else if a == Rg.TB_NOW_LO then (BitVec.ofNat 32 (nowNs d), tbNow d m)
          else if a == Rg.TB_NOW_HI || a == Rg.TB_NOW_FRAC then
            match getLatch d a m with
            | some x => (x, dropLatch d a m)
            | none => (BitVec.ofNat 32 (if a == Rg.TB_NOW_HI then nowNs d / 2 ^ 32 else d.tb / 2 ^ 16 % 2 ^ 16), d)
          else
            let d := seeCopy d p r.off
            let v := blockVal d p a r.off i
            (v, clearRc (if openReg d p r.off i then useFree d else d) p a)

end Sys2Proof.Machine
end

