-- ==== Sys2Proof/Machine/Pages.lean ====
section
/-!
DEFINITION. Staged commit and hold, change, release of the register pages (R36 to R42), the rules that relate several fields (R538 and the
rules of each block), and group hold with its epoch (R43 to R45).
-/

namespace Sys2Proof.Machine
open Sys2Proof

/-! ## Values that are to take effect, and the rules that judge them together (R538) -/

/-- New bits of a register. -/
structure Chg where
  addr : Nat
  mask : W32
  val : W32
  deriving DecidableEq, Repr

/-- A rule over several fields: the fields it names, as address and mask, and when it holds. -/
structure XRule where
  named : List (Nat × Nat)
  ok : (Nat → W32) → Bool

/-- The value that register `a` would hold. -/
def viewOf (d : Dev) (l : List Chg) (a : Nat) : W32 :=
  match l.find? (fun c => c.addr == a) with
  | some c => (rd d a &&& ~~~c.mask) ||| (c.val &&& c.mask)
  | none => rd d a
/-- Fields of a register, as one mask. -/
def fieldsOf (a : Nat) (l : List Fld) : Nat × Nat := (a, l.foldl (fun m f => m ||| maskF f) 0)
/-- A register whole. -/
def wholeReg (a : Nat) : Nat × Nat := (a, 2 ^ 32 - 1)
/-- The bits of a list of fields that a change would write. -/
def namedBits (named : List (Nat × Nat)) (c : Chg) : W32 :=
  named.foldl (fun m e => if e.1 == c.addr then m ||| (c.mask &&& BitVec.ofNat 32 e.2) else m) 0
/-- Judge the rules: every field that a failed rule names keeps its value. The changes that stand, and the addresses of those kept. A rule
that has failed names no change any more, so as many rounds as there are rules suffice. -/
def judgeRounds (d : Dev) (rules : List XRule) : Nat → List Chg → List Nat → List Chg × List Nat
  | 0, l, kept => (l, kept)
  | n + 1, l, kept =>
    match rules.find? (fun r => l.any (fun c => namedBits r.named c != 0) && !r.ok (viewOf d l)) with
    | none => (l, kept)
    | some r =>
      judgeRounds d rules n
        ((l.map (fun c => { c with mask := c.mask &&& ~~~namedBits r.named c })).filter (fun c => c.mask != 0))
        (kept ++ (l.filter (fun c => namedBits r.named c != 0)).map (·.addr))

def judgeRules (d : Dev) (rules : List XRule) (l : List Chg) : List Chg × List Nat := judgeRounds d rules rules.length l []

/-! ### The rules of the blocks for staged fields -/

/-- Descriptor values that the registers from `a` up would give (on-die table `false`, extension table `true`). -/
def descView (v : Nat → W32) (a : Nat) (ext : Bool) : TDesc :=
  toDesc (if ext then 4 else 0) ((List.range (if ext then 5 else 6)).map (fun i => v (a + 4 * i)))
/-- Two spans share a unit. -/
def spansMeet (b1 n1 b2 n2 : Nat) : Bool := n1 != 0 && n2 != 0 && b1 < b2 + n2 && b2 < b1 + n1
/-- Regions of two enabled tables overlap in the same storage (R258). -/
def tablesMeet (x y : TDesc) : Bool :=
  x.ty != 0 && y.ty != 0 && (x.ty == 4) == (y.ty == 4) &&
    [0, 1].any (fun r => [0, 1].any (fun q => spansMeet (x.base r) (x.size r) (y.base q) (y.size q)))
/-- Key lengths that a type takes (R236, R266). -/
def keyBytesOk (x : TDesc) : Bool :=
  match x.ty with
  | 1 => 1 ≤ x.keyBytes && x.keyBytes ≤ (if x.ext then 32 else 64)
  | 4 => 1 ≤ x.keyBytes && x.keyBytes ≤ 40
  | 5 => 1 ≤ x.keyBytes && x.keyBytes ≤ 4
  | _ => true
def regionReg (z t r : Nat) : Nat := if r == 0 then Rg.TBL_REGION_A z t else Rg.TBL_REGION_B z t
def regionNamed (z t r : Nat) : Nat × Nat := fieldsOf (regionReg z t r) [Fl.TBL_REGION_A_BASE, Fl.TBL_REGION_A_SIZE]
/-- The table is held for a commit (R258). -/
def tblTaken (d : Dev) (z t : Nat) : Bool :=
  (rd d (Rg.TBL_HELD z)).toNat.testBit t || (page d (Rg.pageOf (Rg.baseTBL z) + 1)).held

/-- Descriptor `t` of a zone (R250, R258, R263). -/
def tblRules (d : Dev) (z t : Nat) : List XRule :=
  let a := Rg.TBL_DESC z t
  let x := descView (rd d) a false
  let new (v : Nat → W32) : TDesc := descView v a false
  let ty := fieldsOf a [Fl.TBL_DESC_TYPE]
  let o := 1 - x.bank
  [⟨[fieldsOf a [Fl.TBL_DESC_TYPE, Fl.TBL_DESC_SCOPE, Fl.TBL_DESC_KEY_BYTES], regionNamed z t x.bank], fun v =>
      let y := new v
      tblTaken d z t || (y.ty == x.ty && y.repl == x.repl && y.keyBytes == x.keyBytes && y.base x.bank == x.base x.bank && y.size x.bank == x.size x.bank)⟩,
   ⟨[fieldsOf a [Fl.TBL_DESC_BANK], regionNamed z t o], fun v =>
      let y := new v
      !oldBusy d z t || (y.bank == x.bank && y.base o == x.base o && y.size o == x.size o)⟩,
   ⟨[fieldsOf a [Fl.TBL_DESC_TYPE, Fl.TBL_DESC_KEY_BYTES]], fun v => keyBytesOk (new v)⟩] ++
  ([0, 1].map (fun r => (⟨[ty, regionNamed z t r], fun v =>
    let y := new v
    y.size r == 0 || y.base r + y.size r ≤ (if y.ty == 4 then 32 else 384)⟩ : XRule))) ++
  (((List.range 32).filter (· != t)).map (fun u => (⟨[ty, regionNamed z t 0, regionNamed z t 1, fieldsOf (Rg.TBL_DESC z u) [Fl.TBL_DESC_TYPE],
      regionNamed z u 0, regionNamed z u 1], fun v => !tablesMeet (new v) (descView v (Rg.TBL_DESC z u) false)⟩ : XRule)))

/-- Descriptor `t` of an extension table (R266). -/
def extRules (d : Dev) (t : Nat) : List XRule :=
  let a := Rg.HTB_XDESC t
  let x := descView (rd d) a true
  let new (v : Nat → W32) : TDesc := descView v a true
  let tk := fieldsOf a [Fl.HTB_XDESC_TYPE, Fl.HTB_XDESC_KEY_BYTES]
  let reg (u : Nat) : Nat × Nat := fieldsOf (Rg.HTB_XREGION u) [Fl.HTB_XREGION_BASE, Fl.HTB_XREGION_SIZE]
  [⟨[tk, reg t], fun v =>
      let y := new v
      extIsHeld d t || (y.ty == x.ty && y.keyBytes == x.keyBytes && y.base 0 == x.base 0 && y.size 0 == x.size 0)⟩,
   ⟨[tk], fun v => keyBytesOk (new v)⟩,
   ⟨[reg t], fun v => let y := new v; y.size 0 == 0 || y.base 0 + y.size 0 ≤ 16 * d.tbl.extGib⟩] ++
  (((List.range 8).filter (· != t)).map (fun u => (⟨[reg t, reg u], fun v =>
      let y := new v
      let w := descView v (Rg.HTB_XDESC u) true
      !spansMeet (y.base 0) (y.size 0) (w.base 0) (w.size 0)⟩ : XRule)))

/-- Weights of port `i` of a zone that are not strict sum to 100 (R320). -/
def etsOk (v : Nat → W32) (z i : Nat) : Bool :=
  let s := getF (v (Rg.TM_PORT_ETS z i)) Fl.TM_PORT_ETS_STRICT
  let w (c : Nat) : Nat := if c < 4 then getF (v (Rg.TM_PORT_W0 z i)) (Fl.TM_PORT_W0_W c) else getF (v (Rg.TM_PORT_W1 z i)) (Fl.TM_PORT_W1_W (c - 4))
  (((List.range 8).filter (fun c => !s.testBit c)).map w).foldl (· + ·) 0 == 100
/-- Explicit and automatic CREDITS of a zone stay within 1,024 (R320). -/
def creditsOk (d : Dev) (v : Nat → W32) (z : Nat) : Bool :=
  ((List.range 64).filter (fun i => portBegins d (64 * z + i))).foldl (fun n i =>
    let c := getF (v (Rg.TM_PORT_ETS z i)) Fl.TM_PORT_ETS_CREDITS
    n + (if c == 0 then 8 * (portLanes d (64 * z + i)).length else c)) 0 ≤ 1024
def portRegs (z i : Nat) : List (Nat × Nat) := [Rg.TM_PORT_ETS z i, Rg.TM_PORT_W0 z i, Rg.TM_PORT_W1 z i].map wholeReg

/-- The spill region of zone `z` keeps clear of the extension range, the other zones' regions and the reserved spare area, and stays while
pages are in use (R285, R294). -/
def spillOk (d : Dev) (v : Nat → W32) (z : Nat) : Bool :=
  let base (k : Nat) : Nat := getF (v (Rg.URN_SPILL_REGION k)) Fl.URN_SPILL_REGION_BASE_GIB
  let size (k : Nat) : Nat := getF (v (Rg.URN_SPILL_REGION k)) Fl.URN_SPILL_REGION_SIZE_GIB
  let limit := max d.tbl.extGib (rf d Rg.HTB_EXT_CTRL Fl.HTB_EXT_CTRL_LIMIT_GIB)
  let spilling := (zoneVoqs d z).any (fun e => e.2.spill || e.2.chain.any (fun p => !p.written))
  let same := v (Rg.URN_SPILL_REGION z) == rd d (Rg.URN_SPILL_REGION z)
  same || (!spilling && (size z == 0 || (limit ≤ base z && (base z + size z) * 2 ^ 30 ≤ (if d.hbm.pcSpare then spareBase else hbmEnd) &&
    (List.range 4).all (fun k => k == z || !spansMeet (base z) (size z) (base k) (size k)))))

/-- The rules that concern a staged change at address `a` of page `p`; `l` is the whole set. -/
def commitRules (d : Dev) (p : PageId) (l : List Chg) (a : Nat) : List XRule :=
  let z := p.zone
  let off := a % 0x1000
  match p.ty, p.idx with
  | 0x23, 0 => if off == 0x44 then [⟨[wholeReg a], fun v => getF (v a) Fl.STR_UDP_PORTS_VXLAN_PORT != getF (v a) Fl.STR_UDP_PORTS_GENEVE_PORT⟩] else []
  | 0x24, 0 =>
    if off < 0xC0 && (off % 16 == 0 || off % 16 == 4) then
      let c := (off - 0x40) / 16
      [⟨[wholeReg (Rg.ADM_CLS_XOFF z c), wholeReg (Rg.ADM_CLS_XON z c)], fun v =>
        getF (v (Rg.ADM_CLS_XON z c)) Fl.ADM_CLS_XON_XON < getF (v (Rg.ADM_CLS_XOFF z c)) Fl.ADM_CLS_XOFF_XOFF⟩]
    else if off == 0xCC then [⟨[wholeReg a], fun v => getF (v a) Fl.ADM_STORE_PFC_XON < getF (v a) Fl.ADM_STORE_PFC_XOFF⟩]
    else []
  | 0x25, 0 =>
    if 0x44 ≤ off && off < 0x54 then
      [⟨[fieldsOf a [Fl.BAR_FORMER_NLEVEL, Fl.BAR_FORMER_XLEVEL]], fun v => getF (v a) Fl.BAR_FORMER_NLEVEL ≤ getF (v a) Fl.BAR_FORMER_XLEVEL⟩]
    else []
  | 0x20, 0 =>
    if off == 0x40 then [⟨[wholeReg a], fun v => (rd d (Rg.ZCTL_IMG_VALID z)).toNat.testBit (getF (v a) Fl.ZCTL_IMG_BANK)⟩] else []
  | 0x27, 0 =>
    if off == 0x4C then [⟨[wholeReg a], fun v =>
      let x := descAt d (1 + z) (getF (v a) Fl.TBL_LEARN_CFG_TABLE)
      getF (v a) Fl.TBL_LEARN_CFG_VALID == 0 || (x.ty == 1 && x.keyBytes == 8)⟩] else []
  | 0x27, 1 => tblRules d z ((off - 0x40) / 0x20)
  | 0x0D, 1 => extRules d ((off - 0x40) / 0x20)
  | 0x28, 0 =>
    if off < 0x50 then
      [⟨[Rg.URN_POOL_WARN z, Rg.URN_POOL_SHED z, Rg.URN_POOL_PRESSURE z, Rg.URN_POOL_RESERVE z].map wholeReg, fun v =>
        let g (r : Nat) : Nat := getF (v r) Fl.URN_POOL_WARN_CELLS
        g (Rg.URN_POOL_WARN z) ≤ g (Rg.URN_POOL_SHED z) && g (Rg.URN_POOL_SHED z) < g (Rg.URN_POOL_PRESSURE z) &&
          g (Rg.URN_POOL_PRESSURE z) < g (Rg.URN_POOL_RESERVE z) && g (Rg.URN_POOL_RESERVE z) ≤ 131072⟩]
    else if off == 0x5C then [⟨[wholeReg a], fun v => getF (v a) Fl.URN_SPILL_LEVELS_REFILL < getF (v a) Fl.URN_SPILL_LEVELS_ON⟩]
    else if off == 0x60 then
      [⟨[wholeReg a], fun v => getF (v a) Fl.URN_PG_THRESH_PG_WARN ≤ getF (v a) Fl.URN_PG_THRESH_PG_PRESSURE &&
        getF (v a) Fl.URN_PG_THRESH_PG_PRESSURE ≤ getF (v a) Fl.URN_PG_THRESH_PG_SHED &&
        getF (v a) Fl.URN_PG_THRESH_PG_SHED ≤ getF (v a) Fl.URN_PG_THRESH_PG_RESERVE⟩]
    else []
  | 0x2A, 0 =>
    if 0x50 ≤ off && off < 0xD0 && (off % 16 == 0 || off % 16 == 4) then
      let c := (off - 0x50) / 16
      [⟨[wholeReg (Rg.TM_WRED_MIN z c), wholeReg (Rg.TM_WRED_MAX z c)], fun v =>
        getF (v (Rg.TM_WRED_MIN z c)) Fl.TM_WRED_MIN_MIN < getF (v (Rg.TM_WRED_MAX z c)) Fl.TM_WRED_MAX_MAX⟩]
    else if 0xD0 ≤ off && off % 8 == 0 then [⟨[wholeReg a], fun v => getF (v a) Fl.TM_ECN_TH_MIN < getF (v a) Fl.TM_ECN_TH_MAX⟩]
    else []
  | 0x2A, 1 =>
    let i := (off - 0x40) / 16
    let moved := (List.range 64).filter (fun j => l.any (fun c => c.addr == Rg.TM_PORT_ETS z j && namedBits [fieldsOf c.addr [Fl.TM_PORT_ETS_CREDITS]] c != 0))
    [⟨portRegs z i, fun v => etsOk v z i⟩, ⟨moved.flatMap (portRegs z), fun v => creditsOk d v z⟩]
  | 0x04, 0 =>
    [⟨[wholeReg Rg.TB_RATE_LO, wholeReg Rg.TB_RATE_HI], fun v =>
      let r := (v Rg.TB_RATE_LO).toNat + getF (v Rg.TB_RATE_HI) Fl.TB_RATE_HI_RATE * 2 ^ 32
      0x51D68C693 ≤ r && r ≤ 0x52007DD44⟩]
  | 0x12, 1 =>
    if off % 16 == 0 then
      [⟨[fieldsOf a [Fl.TEL_PROBE_KIND, Fl.TEL_PROBE_MODE]], fun v => (probeModes (getF (v a) Fl.TEL_PROBE_KIND)).contains (getF (v a) Fl.TEL_PROBE_MODE)⟩]
    else []
  | _, _ => []

/-- The rules for a value written in a hold, judged at the release. -/
def releaseRules (d : Dev) (p : PageId) (a : Nat) : List XRule :=
  if p.ty == 0x28 && p.idx == 0 && a % 0x1000 == 0x64 then
    [⟨[fieldsOf a [Fl.URN_SPILL_REGION_BASE_GIB, Fl.URN_SPILL_REGION_SIZE_GIB]], fun v => spillOk d v p.zone⟩]
  else []

/-! ## Effects of a change (R73, R102, R147, R179, R257, R258, R308, R508) -/

/-- Table `t` of zone `z` (4: extension table) takes a commit; `old` are its former registers. -/
def tblCommitted (d : Dev) (z t : Nat) (old : List W32) : Dev :=
  let x := toDesc z old
  let y := toDesc z (descRegs d z t)
  if old == descRegs d z t then d
  else
    let d := keepOld d z t old
    let hard := x.ty != y.ty || x.repl != y.repl || x.keyBytes != y.keyBytes
    let moved (r : Nat) : Bool := hard || x.base r != y.base r || x.size r != y.size r
    let places := if z == 4 then [(0, 32 + t)] else [(1 + z, t)] ++ (if z == 0 && (x.repl || y.repl) then [(0, t)] else [])
    places.foldl (fun d e => [0, 1].foldl (fun d r => if moved r then clearRegion d e.1 e.2 r else d) d) d

/-- What a commit starts in its block; `d0` holds the values before it and `as` lists the registers it changed. -/
def commitEffect (d0 d : Dev) (p : PageId) (as : List Nat) : Dev :=
  let z := p.zone
  let q := 16 * z + p.inst % 64
  match p.ty, p.idx with
  | 0x22, 0 =>
    let d := watchSpill d z
    (List.range 4).foldl (fun d k =>
      if fcMode d0 (4 * q + k) != 0 && fcMode d (4 * q + k) != fcMode d0 (4 * q + k) then
        (List.range 8).foldl (fun d c => setPause d (4 * q + k) c 0) d
      else d) d
  | 0x24, 0 =>
    let d := (d.adm.doms.filter (fun e => e.1 / 512 == z)).foldl (fun d e => watchDom d e.1) d
    (List.range 4).foldl (fun d k => watchStore d z k) d
  | 0x24, 1 =>
    (List.range 32).foldl (fun d k =>
      if as.contains (Rg.PUNT_POL z k) then
        { d with adm := { d.adm with tokens := tmod zeroN d.adm.tokens (32 * z + k) (fun t => min t (1000 * rf d (Rg.PUNT_POL z k) Fl.PUNT_POL_BURST)) } }
      else d) d
  | 0x25, 0 =>
    let d := if rb d (Rg.BAR_CTRL z) Fl.BAR_CTRL_PACK_EN && !rb d0 (Rg.BAR_CTRL z) Fl.BAR_CTRL_PACK_EN then firstActive d z else fillActive d z
    watchGrow (watchFormers (watchDisc d z) z) z
  | 0x20, 0 => watchBank d z
  | 0x27, 1 => watchDescs ((List.range 32).foldl (fun d t => tblCommitted d z t (descRegs d0 z t)) d)
  | 0x0D, 1 => (List.range 8).foldl (fun d t => tblCommitted d 4 t (descRegs d0 4 t)) d
  | 0x28, 0 => watchPages (watchPool d z) z
  | 0x2A, 2 => as.foldl (fun d a =>
      let i := (a % 0x1000 - 0x40) / 8
      modTm d (64 * z + i) (fun t => { t with buckets := t.buckets.set 8 (1000 * (rf d (Rg.TM_PSH_BURST z i) Fl.TM_PSH_BURST_BURST : Nat)) })) d
  | 0x2A, n =>
    if n == 3 || n == 4 then
      as.foldl (fun d a =>
        let i := (a % 0x1000 - 0x40) / 8 + 256 * (n - 3)
        let p := 64 * z + i / 8
        modTm d p (fun t => { t with buckets := t.buckets.set (i % 8) (1000 * (rf d (cshBurst p (i % 8)) Fl.TM_CSH_BURST_A_BURST : Nat)) })) d
    else d
  | 0x2B, 0 => watchEdit d z
  | 0x09, 0 => blockDual d
  | 0x12, 1 =>
    as.foldl (fun d a => if rd d a == rd d0 a then d else modTel d (fun t => { t with fresh := setBit t.fresh ((a % 0x1000 - 0x40) / 16) })) d
  | _, _ => d

/-- KTHREADS takes a new value: threads that are to be kernel threads start when idle, those that are to be flight threads become idle
when they wait. -/
def rolesChanged (d : Dev) (z : Nat) : Dev :=
  (serviceCores d z).foldl (fun d k =>
    (List.range 8).foldl (fun d t =>
      let c := 32 * z + k
      let x := thr d c t
      if kernelRole d c t && x.state == 0 then startRole d c t
      else if !kernelRole d c t && x.state == 3 then freeThread d c t
      else d) d) d

/-- What a release starts in its block; `d0` is the block as it was held. -/
def releaseEffect (d0 d : Dev) (p : PageId) : Dev :=
  let z := p.zone
  let q := 16 * z + p.inst % 64
  match p.ty, p.idx with
  | 0x22, 0 =>
    if quadMode d q != quadMode d0 q then loseLock d ((List.range 4).map (fun i => 4 * q + i))
    else
      -- a port that is now disabled goes dark
      let off := (List.range 4).filter (fun i => !portEnabled d (lanePort d (4 * q + i)) && portEnabled d0 (lanePort d (4 * q + i)))
      (List.range 4).foldl (fun d i => judgePort d (4 * q + i)) (loseLock d (off.map (fun i => 4 * q + i)))
  | 0x21, 1 =>
    let e := 4 * z + p.inst % 64
    loseLock d (((List.range 16).filter (fun i => rb d (Rg.OE_LANE_CTRL e i) Fl.OE_LANE_CTRL_PRBS_GEN)).map (fun i => 16 * e + i))
  | 0x25, 0 =>
    if rf d (Rg.BAR_KERNEL z) Fl.BAR_KERNEL_KTHREADS != rf d0 (Rg.BAR_KERNEL z) Fl.BAR_KERNEL_KTHREADS then rolesChanged d z else d
  | 0x27, 1 => tblHoldWrite d z (rd d (Rg.TBL_HOLD z))
  | 0x28, 0 => watchPages d z
  | 0x10, 0 => resumeRestores d p.inst
  | _, _ => d
/-- Before a quad takes another mode its lanes lose lock under the old one. -/
def beforeRelease (d : Dev) (p : PageId) (l : List Chg) : Dev :=
  let q := 16 * p.zone + p.inst % 64
  if p.ty == 0x22 && getF (viewOf d l (Rg.QUAD_MODE q)) Fl.QUAD_MODE_MODE != quadMode d q then
    loseLock d ((List.range 4).map (fun i => 4 * q + i))
  else d

/-! ## Commit and release (R39 to R42, R538) -/

/-- The waiting values of a page. -/
def waitingOf (t : Tab Staged) (pg : Nat) : List Chg := (t.filter (fun e => e.1 / 0x1000 == pg && e.2.mask != 0)).map (fun e => ⟨e.1, e.2.mask, e.2.val⟩)
def dropWaiting (t : Tab Staged) (pg : Nat) : Tab Staged := t.filter (fun e => e.1 / 0x1000 != pg)
/-- Changed values take effect; their Kept bits join the dirty set (R475). -/
def applyChgs (d : Dev) (l : List Chg) : Dev :=
  l.foldl (fun d c =>
    let v := (rd d c.addr &&& ~~~c.mask) ||| (c.val &&& c.mask)
    markDirty (wr d c.addr v) c.addr ((rd d c.addr ^^^ v).toNat)) d
/-- The lowest of a list. -/
def lowestOf (l : List Nat) : Nat := l.foldl min (l.headD 0)
/-- A rule failed at a boundary or release (R538). -/
def keptErr (d : Dev) (pg : Nat) (kept : List Nat) (m : Master) : Dev :=
  if kept.isEmpty then d else pageErr d pg 3 (lowestOf kept % 0x1000) true m

/-- The staging set takes effect in one step. -/
def applyCommit (d : Dev) (pg : Nat) : Dev :=
  match pageId pg with
  | none => d
  | some p =>
    let l := waitingOf d.staged pg
    let (l', kept) := judgeRules d (l.flatMap (fun c => commitRules d p l c.addr)) l
    let d0 := d
    let d := applyChgs { d with staged := dropWaiting d.staged pg } l'
    let d := keptErr d pg kept (page d pg).commitBy
    let d := modPage d pg (fun s => { s with commit := false, gen := if l'.isEmpty then s.gen else s.gen + 1 })
    if l'.isEmpty then d else commitEffect d0 d p (l'.map (·.addr))

/-- A write of PAGE_CTRL.COMMIT: a held block takes it at once. -/
def requestCommit (d : Dev) (pg : Nat) (m : Master) : Dev :=
  let d := modPage d pg (fun s => { s with commitBy := m })
  if (page d pg).held then applyCommit d pg else modPage d pg (fun s => { s with commit := true })

/-- DISCARD: no effect while a commit is pending. -/
def discardStaged (d : Dev) (pg : Nat) : Dev := if (page d pg).commit then d else { d with staged := dropWaiting d.staged pg }

/-- The last hold of the page ends: the values written in it are judged and take effect. -/
def releasePage (d : Dev) (pg : Nat) (m : Master) : Dev :=
  match pageId pg with
  | none => d
  | some p =>
    if !(page d pg).held then
      -- tables whose HELD bit had risen are let go (R259)
      let d := { d with heldW := dropWaiting d.heldW pg }
      if p.ty == 0x27 && p.idx == 1 then tblHoldWrite d p.zone (rd d (Rg.TBL_HOLD p.zone)) else d
    else
      let l := waitingOf d.heldW pg
      let (l', kept) := judgeRules d (l.flatMap (fun c => releaseRules d p c.addr)) l
      let new := l'.any (fun c => viewOf d l' c.addr != rd d c.addr)
      let d0 := d
      let d := applyChgs (beforeRelease { d with heldW := dropWaiting d.heldW pg } p l') l'
      let d := keptErr d pg kept m
      let d := modPage d pg (fun s => { s with held := false, gen := if new then s.gen + 1 else s.gen })
      releaseEffect d0 d p

/-- A hold begins: flights in the slots of a held core go back (R181). -/
def beginHold (d : Dev) (pg : Nat) : Dev :=
  match pageId pg with
  | some p => if p.ty == 0x26 then unslot d (32 * p.zone + p.inst % 64) else d
  | none => d
/-- PAGE_CTRL.HOLD takes a value. -/
def setHold (d : Dev) (pg : Nat) (on : Bool) (m : Master) : Dev :=
  let s := page d pg
  let d := modPage d pg (fun s => { s with hold := on })
  if on then (if s.hold || s.group then d else beginHold d pg)
  else if s.group then d else releasePage d pg m
/-- Group hold holds the page, or lets it go. -/
def setGroup (d : Dev) (pg : Nat) (on : Bool) (m : Master) : Dev :=
  let s := page d pg
  let d := modPage d pg (fun s => { s with group := on })
  if on then (if s.hold || s.group then d else beginHold d pg)
  else if s.hold then d else releasePage d pg m

/-- A write of PAGE_CTRL (R37, R42): the commit first, then the hold. -/
def pageCtrl (d : Dev) (pg : Nat) (hold commit discard : Bool) (m : Master) : Dev :=
  if commit && discard then setHold (rsvd d (0x1000 * pg + 4) m) pg hold m
  else
    let d := if commit then requestCommit d pg m else d
    let d := if discard then discardStaged d pg else d
    setHold d pg hold m

/-- The block has finished what it had in progress (R72, R114, R181, R183); a quad has sent every frame whose edit has begun (R310). -/
def mayHold (d : Dev) (pg : Nat) (p : PageId) : Bool :=
  let quiet (cid : Nat) : Bool :=
    d.core.threads.all (fun e => e.1 / 8 != cid || !(e.2.state == 1 || e.2.state == 2 || e.2.state == 6 || (e.2.state == 4 && e.2.item.isSome))) &&
      (slotFlights d cid).isEmpty
  let q := 16 * p.zone + p.inst % 64
  ((page d pg).hold || (page d pg).group) &&
  match p.ty with
  | 0x26 => quiet (32 * p.zone + p.inst % 64)
  | 0x11 => quiet (128 + p.inst)
  | 0x23 => (List.range 4).all (fun k => (pipe d p.zone k).parsing.isEmpty)
  | 0x22 => (List.range 4).all (fun i => (tmPort d (4 * q + i)).edits.isEmpty && ((tmPort d (4 * q + i)).mac.isEmpty || (port d (4 * q + i)).rfault))
  | _ => true
/-- HELD rises; a pending commit has then met its boundary (R40). -/
def pageHeld (d : Dev) (pg : Nat) : Dev :=
  match pageId pg with
  | none => d
  | some p =>
    if (page d pg).held || !mayHold d pg p then d
    else
      let d := modPage d pg (fun s => { s with held := true })
      if (page d pg).commit then applyCommit d pg else d

/-- The block is at a boundary at which it takes a commit: for probes, a sample boundary that has come (R508); for the twin pair, a
heartbeat sent or received in this MC cycle, or any time while it is ALONE (R499). -/
def atBoundary (d : Dev) (pg : Nat) : Bool :=
  if pg == Rg.pageOf Rg.baseTWN then
    twinState d == 0 || d.twin.sentAt == some (nowNs d) || d.twin.hbAt == some (nowNs d)
  else if pg == Rg.pageOf Rg.baseTEL + 1 && rb d Rg.TEL_CTRL Fl.TEL_CTRL_EN && telPeriod d != 0 then
    min d.tel.boundary (nowNs d) < nowNs d / telPeriod d * telPeriod d
  else true

/-! ## Group hold (R43 to R45) -/

/-- Pages that valid entries name. -/
def groupNames (d : Dev) : List Nat :=
  ((List.range 16).filter (fun i => rb d (Rg.DEV_GROUP_PAGE i) Fl.DEV_GROUP_PAGE_VALID)).map (fun i => rf d (Rg.DEV_GROUP_PAGE i) Fl.DEV_GROUP_PAGE_PAGE)
/-- An entry names no page that the group master reaches. -/
def badName (d : Dev) (pg : Nat) : Bool := (pageId pg).isNone || !reaches d pg d.groupBy
def devErr (d : Dev) (bitn : Nat) : Dev := wr d Rg.DEV_ERR (rd d Rg.DEV_ERR ||| BitVec.ofNat 32 (1 <<< bitn))
/-- Group hold skips entries without a page: GRP_BADPAGE. -/
def noteBad (d : Dev) : Dev := if (groupNames d).any (badName d) then devErr d 2 else d
/-- Act on every group page whose owner admits the group master; the others set GRP_OWNER. -/
def onGroup (d : Dev) (f : Dev → Nat → Dev) : Dev :=
  let l := ((groupNames d).filter (fun pg => !badName d pg)).dedup
  l.foldl (fun d pg => if mayWrite (page d pg).owner.toNat d.groupBy then f d pg else devErr d 3) (noteBad d)

def groupHoldAll (d : Dev) : Dev := onGroup d (fun d pg => setGroup d pg true d.groupBy)
/-- COMMIT goes to every group page. -/
def groupCommitAll (d : Dev) : Dev :=
  onGroup (wf d Rg.DEV_GROUP_HOLD Fl.DEV_GROUP_HOLD_COMMIT 0) (fun d pg => requestCommit d pg d.groupBy)
/-- Every page that group hold holds is released, in order of page. A page whose owner excludes the group master is skipped, sets
GRP_OWNER and stays held until a later release (R44). -/
def groupReleaseAll (d : Dev) : Dev :=
  let d := noteBad { d with relPend := false }
  ((d.pages.filter (fun e => e.2.group)).map (·.1)).foldl (fun d pg =>
    if !reaches d pg d.groupBy then d
    else if mayWrite (page d pg).owner.toNat d.groupBy then setGroup d pg false d.groupBy
    else devErr d 3) d

/-- The commit, then the release, that wait for the epoch (R45). -/
def epochActs (d : Dev) : Dev :=
  let rel := d.relPend
  let d := if commitPending d then groupCommitAll d else d
  if rel then groupReleaseAll d else d
def epochCome (d : Dev) : Bool := groupPending d && rd64 d Rg.DEV_GROUP_EPOCH_LO Rg.DEV_GROUP_EPOCH_HI ≤ nowNs d

/-- A write of DEV_GROUP_HOLD. A cancelled release leaves the pages held and HOLD at 1, unless the same write arms a release with
EPOCH_EN = 1 (R43). HOLD = 1 without CANCEL while a release waits for the epoch withdraws it too (DESIGN CHOICE, log 226). -/
def groupWrite (d : Dev) (m : Master) (hold en commit cancel : Bool) : Dev :=
  let holding := rb d Rg.DEV_GROUP_HOLD Fl.DEV_GROUP_HOLD_HOLD || d.relPend
  let d := { d with groupBy := m }
  -- CANCEL acts on what was pending before this write
  let hold := hold || (cancel && d.relPend && !en)
  let d := if cancel then wf { d with relPend := false } Rg.DEV_GROUP_HOLD Fl.DEV_GROUP_HOLD_COMMIT 0 else d
  let d := wf (wf d Rg.DEV_GROUP_HOLD Fl.DEV_GROUP_HOLD_HOLD (b2n hold)) Rg.DEV_GROUP_HOLD Fl.DEV_GROUP_HOLD_EPOCH_EN (b2n en)
  let d := if hold then { d with relPend := false } else d
  let d := if hold && !holding then groupHoldAll d else d
  let rel := !hold && holding
  if en then
    let arms := commit || (rel && !d.relPend)
    let d := { d with relPend := d.relPend || rel }
    let d := if commit then wf d Rg.DEV_GROUP_HOLD Fl.DEV_GROUP_HOLD_COMMIT 1 else d
    if arms && epochCome d then epochActs (devErr d 4) else d
  else
    let d := if commit then groupCommitAll d else d
    if rel then groupReleaseAll d else d

/-- A write of a DEV_GROUP_PAGE entry (R43, R44). -/
def groupPageSet (d : Dev) (i : Nat) (v : W32) (m : Master) : Dev :=
  if rb d Rg.DEV_GROUP_HOLD Fl.DEV_GROUP_HOLD_HOLD || groupPending d then devErr d 1
  else
    let d := wr d (Rg.DEV_GROUP_PAGE i) (v &&& 0x80003FFF)
    let pg := rf d (Rg.DEV_GROUP_PAGE i) Fl.DEV_GROUP_PAGE_PAGE
    if rb d (Rg.DEV_GROUP_PAGE i) Fl.DEV_GROUP_PAGE_VALID && ((pageId pg).isNone || !reaches d pg m) then devErr d 2 else d

/-! ## Commands -/

def execHold (pg : BitVec 14) (m : Master) (s : State) : Host.Outcome State Fault Refusal :=
  s.onDevF (fun d => guardWrite d (0x1000 * pg.toNat + 4) m (fun d => setHold d pg.toNat true m))
def execHeld (pg : BitVec 14) (s : State) : Host.Outcome State Fault Refusal := s.onDevF (fun d => pageHeld d pg.toNat)
def execHoldRelease (pg : BitVec 14) (m : Master) (s : State) : Host.Outcome State Fault Refusal :=
  s.onDevF (fun d => guardWrite d (0x1000 * pg.toNat + 4) m (fun d => setHold d pg.toNat false m))
def execCommit (pg : BitVec 14) (m : Master) (s : State) : Host.Outcome State Fault Refusal :=
  s.onDevF (fun d => guardWrite d (0x1000 * pg.toNat + 4) m (fun d => requestCommit d pg.toNat m))
def execCommitBoundary (pg : BitVec 14) (s : State) : Host.Outcome State Fault Refusal :=
  s.onDevF (fun d => if (page d pg.toNat).commit && atBoundary d pg.toNat then applyCommit d pg.toNat else d)
def execDiscard (pg : BitVec 14) (m : Master) (s : State) : Host.Outcome State Fault Refusal :=
  s.onDev (fun d => guardWrite d (0x1000 * pg.toNat + 4) m (fun d => discardStaged d pg.toNat))

/-- INT_FORCE: the named events of the page occur. -/
def intForce (d : Dev) (pg : Nat) (v : W32) : Dev :=
  let n := match (pageId pg).bind pageEvents with | some (_, n) => n | none => 0
  (bitsOf v.toNat n).foldl (fun d i => raise d pg i) d
def execIntForce (pg : BitVec 14) (m : Master) (v : W32) (s : State) : Host.Outcome State Fault Refusal :=
  s.onDev (fun d => guardWrite d (0x1000 * pg.toNat + 0x28) m (fun d => intForce d pg.toNat v))

def execGroupHold (m : Master) (en : Bool) (s : State) : Host.Outcome State Fault Refusal :=
  s.onDevF (fun d => guardWrite d Rg.DEV_GROUP_HOLD m (fun d => groupWrite d m true en false false))
def execGroupHoldRelease (m : Master) (en : Bool) (s : State) : Host.Outcome State Fault Refusal :=
  s.onDevF (fun d => guardWrite d Rg.DEV_GROUP_HOLD m (fun d => groupWrite d m false en false false))
def execGroupCommit (m : Master) (hold en : Bool) (s : State) : Host.Outcome State Fault Refusal :=
  s.onDevF (fun d => guardWrite d Rg.DEV_GROUP_HOLD m (fun d => groupWrite d m hold en true false))
def execGroupCancel (m : Master) (hold en commit : Bool) (s : State) : Host.Outcome State Fault Refusal :=
  s.onDevF (fun d => guardWrite d Rg.DEV_GROUP_HOLD m (fun d => groupWrite d m hold en commit true))
def execEpochAction (s : State) : Host.Outcome State Fault Refusal := s.onDevF (fun d => if epochCome d then epochActs d else d)
def execGroupPageWrite (i : Fin 16) (m : Master) (v : W32) (s : State) : Host.Outcome State Fault Refusal :=
  s.onDev (fun d => guardWrite d (Rg.DEV_GROUP_PAGE i) m (fun d => groupPageSet d i v m))

/-- RESUME of HALTED kernel threads of a core: after the HALT, or at CSR_TPC after a double trap (R181, R183). -/
def resumeThreads (d : Dev) (cid : Nat) (v : W32) : Dev :=
  (bitsOf v.toNat 8).foldl (fun d t =>
    let x := thr d cid t
    if x.state != 5 then d
    else modThr d cid t (fun x => if x.dbl then { x with state := 4, pc := x.tpc, inTrap := false, dbl := false } else { x with state := 4 })) d
/-- The core of a CORE or HCC page and the offset of its KCTRL register. -/
def kctrlOf (p : PageId) : Option (Nat × Nat) :=
  match p.ty with
  | 0x26 => some (32 * p.zone + p.inst % 64, 0x50)
  | 0x11 => some (128 + p.inst, 0x48)
  | _ => none
def execResume (pg : BitVec 14) (m : Master) (v : W32) (s : State) : Host.Outcome State Fault Refusal :=
  s.onDev (fun d => match (pageId pg.toNat).bind kctrlOf with
    | some (c, o) => guardWrite d (0x1000 * pg.toNat + o) m (fun d => resumeThreads d c v)
    | none => d)

end Sys2Proof.Machine
end

