-- ==== Sys2Proof/Machine/RegWrite.lean ====
section
/-!
DEFINITION. Writing the register pages: the checks in their order (R52), narrow and wide accesses (R46 to R50), precedence of
masters (R53), ownership (R54), fields by their access code (R9), and what a write starts; register access through I3C (R415) and
JTAG (R418); the reads that have an effect (R51, R53).
-/

namespace Sys2Proof.Machine
open Sys2Proof

/-! ## Checks (R46 to R49, R52, R54) -/

/-- The register has side effects (R46). -/
def sideReg (p : PageId) (off : Nat) : Bool :=
  if off < 0x40 then [0x04, 0x0C, 0x20, 0x28].contains off
  else match regAt p off with
    | some (r, _) => r.claim || r.fields.any (fun f => f.acc == .w1c || f.acc == .w1s || f.acc == .rc || f.acc == .wo)
    | none => false
/-- No register and no counter lies at the offset. -/
def isHole (d : Dev) (pg : Nat) (p : PageId) (off : Nat) : Bool :=
  if off < 0x40 then (headerVal d pg p off).isNone else (regAt p off).isNone && (ctrAt p off).isNone
/-- The owner of the page lets `m` write at `off`; the firmware may always write PAGE_OWNER (R54). -/
def ownerOk (d : Dev) (pg off : Nat) (m : Master) : Bool :=
  mayWrite (page d pg).owner.toNat m || (off == 0x10 && masterCode m == 2)
/-- The PAGE_ERR bit of the first check that a write of `n` bytes at address `a` fails. -/
def writeFails (d : Dev) (p : PageId) (a n : Nat) (m : Master) : Option Nat :=
  let pg := a / 0x1000
  let off := a % 0x1000 / 4 * 4
  if !(page d pg).ready then some 7
  else if !ownerOk d pg off m then some 5
  else if 4 < a % 4 + n then some 1
  else if isHole d pg p off then some 2
  else if n < 4 && sideReg p off then some 0
  else none

/-! ## Values that are reserved at the write (R52, R538) -/

/-- The value lies in a range that the field's table allows. -/
def allowed (f : FieldD) (v : Nat) : Bool := f.allow.isEmpty || f.allow.any (fun r => r.1 ≤ v && v ≤ r.2)
/-- Values that the state makes reserved: a laser input that is RETIRED (R81), a word or instance that is absent (R400), a ring address
that is not aligned (R420). -/
def stateAllows (d : Dev) (p : PageId) (off : Nat) (f : FieldD) (v : Nat) : Bool :=
  let e := 4 * p.zone + p.inst % 64
  let pl := if p.ty == 0x2C then 1 + p.zone else 0
  match p.ty, p.idx, off with
  | 0x21, 0, 0x40 => f.lo != 4 || v == 0 || (chan d (laserChan e (v - 1))).state != 3
  | 0x0F, 1, 0x40 => f.lo != 0 || sramRows pl v != 0
  | 0x0F, 1, 0x5C => v < 128 * sramRows pl (pwInst d pl)
  | 0x2C, _, 0x40 => f.lo != 0 || sramRows pl v != 0
  | 0x2C, _, 0x5C => v < 128 * sramRows pl (pwInst d pl)
  | 0x08, i, o => i == 0 || !(o % 0x20 == 0 || o % 0x20 == 8) || v % 64 == 0
  | 0x12, i, o => i < 2 || !(o < 0x380 && o % 8 == 0 && f.lo == 10 && (o - 0x40) / 8 % 2 == 0) || v == 0
  | _, _, _ => true

/-- The rules over the fields of a register that a write puts into effect at once. -/
def writeRules (d : Dev) (p : PageId) (a : Nat) : List XRule :=
  let off := a % 0x1000
  let temps (top : Nat) : List XRule :=
    [⟨[wholeReg a], fun v =>
      let t (f : Fld) : Nat := getF (v a) f
      t Fl.PWR_DIE_T_T1 < t Fl.PWR_DIE_T_T2 && t Fl.PWR_DIE_T_T2 < t Fl.PWR_DIE_T_T3 && t Fl.PWR_DIE_T_T3 < t Fl.PWR_DIE_T_T4 && t Fl.PWR_DIE_T_T4 ≤ top⟩]
  match p.ty, p.idx with
  | 0x21, 0 =>
    if off == 0x54 then
      [⟨[fieldsOf a [Fl.OE_LI_THRESH_WARN, Fl.OE_LI_THRESH_RETIRE]], fun v => getF (v a) Fl.OE_LI_THRESH_RETIRE < getF (v a) Fl.OE_LI_THRESH_WARN⟩,
       ⟨[fieldsOf a [Fl.OE_LI_THRESH_WARN, Fl.OE_LI_THRESH_HIGH]], fun v => getF (v a) Fl.OE_LI_THRESH_WARN < getF (v a) Fl.OE_LI_THRESH_HIGH⟩]
    else []
  | 0x03, 1 => if off == 0x40 then temps 110 else if off == 0x44 then temps 105 else []
  | 0x03, 2 =>
    let n := (off - 0x40) / 4
    [⟨[fieldsOf a [Fl.PWR_SHARE_FLOOR]], fun v => shareMin n ≤ getF (v a) Fl.PWR_SHARE_FLOOR⟩,
     ⟨[fieldsOf a [Fl.PWR_SHARE_FLOOR, Fl.PWR_SHARE_CEIL]], fun v => getF (v a) Fl.PWR_SHARE_FLOOR ≤ getF (v a) Fl.PWR_SHARE_CEIL⟩]
  | 0x05, 2 => if off < 0x240 && off % 8 == 0 then [⟨[wholeReg a], fun v => v a != 0⟩] else []
  | 0x05, 3 | 0x05, 4 =>
    [⟨[fieldsOf a [Fl.SRC_CFG_LOW_KPLACE, Fl.SRC_CFG_LOW_KCORE]], fun v =>
      let k := getF (v a) Fl.SRC_CFG_LOW_KCORE
      getF (v a) Fl.SRC_CFG_LOW_KPLACE != 0 || k < 4 || k == 31⟩]
  | 0x08, 0 => []
  | 0x08, _ =>
    let ctl := (a - 0x40) / 0x20 * 0x20 + 0x50
    let same (v : Nat → W32) : Bool := v a == rd d a
    if !rb d ctl Fl.PRING_CTL_ENABLE then []
    else if off % 0x20 < 0x10 then [⟨[wholeReg a], same⟩]
    else if off % 0x20 == 0x10 then [⟨[fieldsOf a [Fl.PRING_CTL_LOG2_SIZE]], fun v => getF (v a) Fl.PRING_CTL_LOG2_SIZE == rf d a Fl.PRING_CTL_LOG2_SIZE⟩]
    else []
  | 0x0D, 0 =>
    if off == 0x40 then [⟨[wholeReg a], fun v => (List.range 4).all (fun z =>
      let r := Rg.URN_SPILL_REGION z
      !spansMeet 0 (getF (v a) Fl.HTB_EXT_CTRL_LIMIT_GIB) (rf d r Fl.URN_SPILL_REGION_BASE_GIB) (rf d r Fl.URN_SPILL_REGION_SIZE_GIB))⟩]
    else []
  | 0x12, 0 =>
    if off == 0x54 || off == 0x58 then
      [⟨[wholeReg a], fun v =>
        getF (v Rg.TEL_HBM_BASE) Fl.TEL_HBM_BASE_HBM_BASE + getF (v Rg.TEL_HBM_SIZE) Fl.TEL_HBM_SIZE_HBM_SIZE ≤ 98304⟩]
    else []
  | _, _ => []

/-! ## Registers whose write is a command as a whole -/

/-- CDY_CMD (R485): the commands of one write in order of bit. -/
def cdyCmd (d : Dev) (v : W32) (m : Master) : Dev :=
  let b (i : Nat) : Bool := v.toNat.testBit i
  let d := if b 0 then cdySync d else d
  let d := if b 1 then cdySnapshot d else d
  let d := if b 2 then cdySave d else d
  let d := if b 3 then cdyCheckpoint d else d
  if b 4 then (if v.toNat / 2 ^ 24 == 0xE5 then cdyErase d else rsvd d Rg.CDY_CMD m) else d
/-- CAR_CMD (R323). -/
def carCmd (d : Dev) (v : W32) (m : Master) : Dev :=
  let b (i : Nat) : Bool := v.toNat.testBit i
  let d := if b 0 then gwrite d m else d
  let d := if b 1 then gread d else d
  let d := if b 2 then mwrite d else d
  if b 3 then mread d else d
/-- ALARM_CTRL: LATE by 1, ARM as written. -/
def alarmCtrl (d : Dev) (n : Nat) (v : W32) : Dev :=
  let d := if v.toNat.testBit 1 then wf d (Rg.ALARM_CTRL n) Fl.ALARM_CTRL_LATE 0 else d
  if v.toNat.testBit 0 then alarmArm d n else wf d (Rg.ALARM_CTRL n) Fl.ALARM_CTRL_ARM 0
/-- XB_LINK_CTRL: ISOLATE as written, then RETRAIN. -/
def xbCtrl (d : Dev) (z : Nat) (v : W32) : Dev :=
  let a := Rg.XB_LINK_CTRL z
  let d := markDirty (wf d a Fl.XB_LINK_CTRL_SPARE_AUTO (b2n (v.toNat.testBit 2))) a ((rd d a ^^^ v).toNat)
  let on := v.toNat.testBit 1
  let d := if on != rb d a Fl.XB_LINK_CTRL_ISOLATE then linkIsolate d z on else d
  if v.toNat.testBit 0 then linkRetrain d z else d
/-- TEL_PMC_CTRL: CLEAR, UNFREEZE and HIT by 1; HITMAP follows (R506). -/
def pmcCtrl (d : Dev) (z k : Nat) (v : W32) : Dev :=
  let a := Rg.TEL_PMC_CTRL z k
  let d := if v.toNat.testBit 0 then pmcClear d (32 * z + k) else d
  let d := if v.toNat.testBit 1 then pmcUnfreeze d (32 * z + k) else d
  let h := ofBits ((bitsOf (rf d a Fl.TEL_PMC_CTRL_HIT) 4).filter (fun i => !v.toNat.testBit (4 + i)))
  let d := wf d a Fl.TEL_PMC_CTRL_HIT h
  if h == 0 then wf d (Rg.TEL_PMC_HITMAP z) Fl.TEL_PMC_HITMAP_CORES (clrBit (rf d (Rg.TEL_PMC_HITMAP z) Fl.TEL_PMC_HITMAP_CORES) k) else d

/-- The target of a COMPLETE register. -/
def completeAt (a : Nat) : Option Nat := [1, 2, 3, 4, 5, 6].find? (fun t => completeAddr t == a)

/-- A write of value `v` (enabled bytes merged) that is a command of its register; none: its fields are written one by one. -/
def commandWrite (d : Dev) (p : PageId) (a off i : Nat) (v : W32) (m : Master) : Option Dev :=
  let z := p.zone
  let b (n : Nat) : Bool := v.toNat.testBit n
  match p.ty, p.idx, off with
  | 0x01, 0, 0x50 => some (groupWrite d m (b 0) (b 1) (b 2) (b 3))
  | 0x01, 0, 0x80 => some (groupPageSet d i v m)
  | 0x01, 1, 0x64 => some (devReset d m v)
  | 0x04, 0, 0x60 => some (tbCmd d (b 0) (b 1))
  | 0x05, 1, 0x40 => some (alarmTimeWrite d i false v)
  | 0x05, 1, 0x44 => some (alarmTimeWrite d i true v)
  | 0x05, 1, 0x48 => some (alarmCtrl d i v)
  | 0x05, 2, 0x240 => some (groupRelease d false v)
  | 0x05, 2, 0x244 => some (groupRelease d true v)
  | 0x05, 5, 0x40 | 0x05, 6, 0x40 =>
    let n := i + 256 * (p.idx - 5)
    let d := if b 12 then srcClear d n else d
    some (if b 13 then forceComplete d n else d)
  | 0x05, 0, _ => (completeAt a).map (fun t => completeSrc d t v)
  | 0x06, 0, 0x50 => some (cdyCmd d v m)
  | 0x06, 0, 0x54 =>
    let d := if b 0 then fwStore d m else d
    some (if b 1 then fwSwitch d m else d)
  | 0x0A, 0, 0x40 => some (xbCtrl d p.inst v)
  | 0x0B, 0, 0x4C => some (carCmd d v m)
  | 0x0C, 0, 0x54 => some (lkuPeek d false v)
  | 0x0C, 0, 0x58 => some (lkuPeek d true v)
  | 0x0E, 3, 0x40 => some (arbReqSel d m v)
  | 0x0E, 3, 0x44 =>
    let r := rf d Rg.ARB_REQ_SEL Fl.ARB_REQ_SEL_REQUESTER
    let d := if b 8 then restoreChan d (reqChan r) else d
    some (if b 9 then modRequester d r (fun x => { x with maxWait := 0 }) else d)
  | 0x0F, 0, 0x74 => some (if b 14 then rasRestore d else d)
  | 0x10, 1, 0x40 => some (if b 12 then restoreChan d (pcChan (32 * p.inst + i)) else d)
  | 0x11, 0, 0x48 => some (resumeThreads d (128 + p.inst) v)
  | 0x12, 0, 0x4C =>
    let d := if b 0 then clearWm d else d
    some (if b 1 then takeSample d else d)
  | 0x12, n, 0x380 => if 2 ≤ n then some (pmcCtrl d (n - 2) i v) else none
  | 0x26, 0, 0x50 => some (resumeThreads d (32 * z + p.inst % 64) v)
  | 0x27, 0, 0x44 => some (tblHoldWrite d z v)
  | 0x28, 0, 0x70 => some (if hSpill v || hZone v != z then rsvd d (Rg.URN_PEEK z) m else urnPeek d z v)
  | 0x2B, 1, 0x44 => some (edtWrite d z v)
  | _, _, _ => none

/-! ## Fields one by one (R9, R39, R41, R52) -/

/-- Bits `mask` of the register at `a` wait with value `v`. -/
def stageBits (t : Tab Staged) (a : Nat) (mask v : W32) : Tab Staged :=
  tmod stagedDflt t a (fun s => { mask := s.mask ||| mask, val := (s.val &&& ~~~mask) ||| (v &&& mask) })
/-- A register with the values that wait for it. -/
def withWaiting (x : W32) (s : Staged) : W32 := (x &&& ~~~s.mask) ||| (s.val &&& s.mask)

/-- The outcome of the fields of a write: the state, and the bits that take effect at once with their values. -/
structure FieldAcc where
  d : Dev
  mask : W32
  val : W32

/-- One field of the register at `a`, in an access at address `acc`: `data` on the bytes `en`. -/
def writeField (p : PageId) (a acc : Nat) (data en : W32) (m : Master) (st : FieldAcc) (f : FieldD) : FieldAcc :=
  let d := st.d
  let fl : Fld := ⟨f.hi, f.lo⟩
  let fm := BitVec.ofNat 32 (maskF fl)
  if fm &&& en = 0 then st
  else
    -- the field as this write leaves it, its other bytes merged
    let merge (x : W32) : W32 := ((x &&& ~~~en) ||| (data &&& en)) &&& fm
    let good (x : W32) : Bool := allowed f (getF x fl) && stateAllows d p (a % 0x1000) f (getF x fl)
    let bad : FieldAcc := { st with d := rsvd d acc m }
    match f.acc with
    | .rw =>
      let x := merge (rd d a)
      if good x then { st with mask := st.mask ||| fm, val := st.val ||| x } else bad
    | .rwc =>
      let x := merge (withWaiting (rd d a) (tget stagedDflt d.staged a))
      if good x then { st with d := { d with staged := stageBits d.staged a fm x } } else bad
    | .rwh =>
      let x := merge (withWaiting (rd d a) (tget stagedDflt d.heldW a))
      if !(page d (a / 0x1000)).held then { st with d := pageErr d (a / 0x1000) 4 (acc % 0x1000) true m }
      else if good x then { st with d := { d with heldW := stageBits d.heldW a fm x } } else bad
    | .w1c => { st with d := wr d a (rd d a &&& ~~~(data &&& en &&& fm)) }
    | _ => st

/-- What the write of plain fields of a register starts; `old` is the register before it. -/
def writeEffect (d : Dev) (p : PageId) (a off i : Nat) (data old : W32) : Dev :=
  let z := p.zone
  let e := 4 * z + p.inst % 64
  let rises (f : Fld) : Bool := getF old f == 0 && rb d a f
  let falls (f : Fld) : Bool := getF old f != 0 && !rb d a f
  match p.ty, p.idx, off with
  | 0x21, 0, 0x40 =>
    let d := if falls Fl.OE_CTRL_ENABLE then loseLock d (engineLanes e) else d
    let d := if data.toNat.testBit 8 then restoreChan d (laserChan e 0) else d
    if data.toNat.testBit 9 then restoreChan d (laserChan e 1) else d
  | 0x21, 0, 0x54 => watchInputs d e
  | 0x21, 1, 0x40 => if rises Fl.OE_LANE_CTRL_TX_DISABLE then loseLock d [16 * e + i] else d
  | 0x28, 1, 0x58 => if data.toNat.testBit 1 then logClear d z else d
  | 0x20, 0, 0x48 =>
    (List.range 2).foldl (fun d k =>
      let f := if k == 0 then Fl.ZCTL_IMG_VALID_VALID_A else Fl.ZCTL_IMG_VALID_VALID_B
      if rises f then saveImage d z k
      else if falls f then modCaddy d (fun c => { c with imgValid := clrBit c.imgValid (2 * z + k) }) else d) d
  | 0x05, 3, 0x40 | 0x05, 4, 0x40 => srcRouted d (i + 256 * (p.idx - 3)) old
  | 0x05, 0, 0x70 => watchAlarm d
  | 0x04, 0, 0x68 => if rises Fl.TB_PPS_PPS_EN then modKet d (fun k => { k with ppsLast := some (ppsSecond d) }) else d
  | 0x03, 0, 0x48 => (List.range 5).foldl setLevel d
  | 0x0B, 0, 0x40 => watchLocks d
  | 0x09, 0, 0x40 => if rises Fl.TWN_CTRL_EN || falls Fl.TWN_CTRL_EN then twinJoin d else d
  | 0x12, 0, 0x40 => if rises Fl.TEL_CTRL_EN then modTel d (fun t => { t with boundary := nowNs d }) else d
  | 0x08, 0, _ => d
  | 0x08, idx, _ =>
    if off % 0x20 == 0x10 && rises Fl.PRING_CTL_ENABLE then
      let (k, r) := ringAt idx off i
      ringUp d p.inst k r
    else d
  | _, _, _ => d

/-- A checked write to a block register, in an access at address `acc`. -/
def writeBlock (d : Dev) (p : PageId) (a acc : Nat) (r : RegD) (i : Nat) (data en : W32) (m : Master) : Dev :=
  match commandWrite d p a r.off i ((rd d a &&& ~~~en) ||| (data &&& en)) m with
  | some d => d
  | none =>
    let old := rd d a
    let st := r.fields.foldl (writeField p a acc data en m) { d := d, mask := 0, val := 0 }
    let (l, kept) := judgeRules st.d (writeRules st.d p a) (if st.mask = 0 then [] else [⟨a, st.mask, st.val⟩])
    let d := if kept.isEmpty then st.d else rsvd st.d acc m
    writeEffect (applyChgs d l) p a r.off i (data &&& en) old

/-- A checked write to a header register (R36, R37, R54). -/
def writeHeader (d : Dev) (pg off : Nat) (p : PageId) (data en : W32) (m : Master) : Dev :=
  let v := data &&& en
  let n := match pageEvents p with | some (_, n) => n | none => 0
  let evs := BitVec.ofNat 32 (2 ^ n - 1)
  match off with
  | 0x04 => pageCtrl d pg (v.toNat.testBit 0) (v.toNat.testBit 1) (v.toNat.testBit 2) m
  | 0x0C => modPage d pg (fun s => { s with err := s.err &&& ~~~(v.setWidth 8) })
  | 0x10 =>
    let o := (page d pg).owner.setWidth 32
    let x := (o &&& ~~~en) ||| v
    markDirty (modPage d pg (fun s => { s with owner := x.setWidth 2 })) (0x1000 * pg + 0x10) ((o ^^^ x).toNat)
  | 0x20 =>
    let d := modPage d pg (fun s => { s with intStatus := s.intStatus &&& ~~~v })
    -- a CORE page leaves the sets of its shared sources (R424)
    if p.ty = 0x26 then (bitsOf (v &&& evs).toNat 4).foldl (fun d i => noteCore d (187 + 96 * p.zone + i) (p.inst % 64) false) d else d
  | 0x24 =>
    let o := (page d pg).intMask
    let x := ((o &&& ~~~en) ||| v) &&& evs
    markDirty (modPage d pg (fun s => { s with intMask := x })) (0x1000 * pg + 0x24) ((o ^^^ x).toNat)
  | 0x28 => intForce d pg v
  | _ => d

/-! ## One write -/

/-- A window of the counters takes no write, and no record is made of one (R35). -/
def inWindow (d : Dev) (a : Nat) (m : Master) : Bool := (windowZone a).isSome && reaches d (a / 0x1000) m
/-- The page that a write of `m` at `a` reaches. -/
def pageFor (d : Dev) (a : Nat) (m : Master) : Option PageId := if reaches d (a / 0x1000) m then pageId (a / 0x1000) else none

/-- A write of `n` bytes of `x` that has passed the checks. -/
def doWrite (mem : Memory) (d : Dev) (p : PageId) (a n x : Nat) (m : Master) : Memory × Dev :=
  let sh := 8 * (a % 4)
  let en := BitVec.ofNat 32 ((2 ^ (8 * n) - 1) * 2 ^ sh)
  let data := BitVec.ofNat 32 (x * 2 ^ sh)
  let r := a / 4 * 4
  let off := r % 0x1000
  if off < 0x40 then (mem, writeHeader d (a / 0x1000) off p data en m)
  else match regAt p off with
    | none => (mem, d)
    | some (rg, i) =>
      let d := writeBlock d p r a rg i data en m
      -- the test command of the protection window reads and writes memory
      let pl := if p.ty == 0x2C then some (1 + p.zone) else if p.ty == 0x0F && p.idx == 1 then some 0 else none
      match pl with
      | some pl =>
        if off != 0x58 then (mem, d)
        else
          let (mem, d) := if data.toNat.testBit 2 then pwWrite mem d pl else (mem, d)
          (mem, if data.toNat.testBit 3 then pwRead mem d pl else d)
      | none => (mem, d)

/-- A write of at most 4 bytes by one master, with its checks. -/
def regWrite (mem : Memory) (d : Dev) (a n x : Nat) (m : Master) : Memory × Dev :=
  let d := wakePage d
  if inWindow d a m then (mem, d)
  else match pageFor d a m with
    | none => (mem, unimpl d a true m)
    | some p => match writeFails d p a n m with
      | some e => (mem, pageErr d (a / 0x1000) e (a % 0x1000) true m)
      | none => doWrite mem d p a n x m

/-! ## Writes of one cycle (R53) -/

/-- A write of a cycle: its master, the address of its first byte, its bytes and their value. -/
structure CycW where
  m : Master
  addr : Nat
  n : Nat
  x : Nat
  deriving DecidableEq, Repr

/-- A write that is refused, or that no page takes. -/
def refusedWrite (d : Dev) (w : CycW) : Bool :=
  match pageFor d w.addr w.m with
  | none => true
  | some p => inWindow d w.addr w.m || (writeFails d p w.addr w.n w.m).isSome
/-- The write of the master that comes first in the order of R53. Among the firmware's cores, of which the rule says nothing, the lower one
precedes (DESIGN CHOICE, log 225). -/
def firstMaster (l : List CycW) : Option CycW := leastBy (fun w => masterKey w.m) l
/-- CONFLICT, by a discarded write at address `a`, with the winner and the discarded masters. -/
def conflict (d : Dev) (a : Nat) (m : Master) (losers : List Master) : Dev :=
  let d := pageErr d (a / 0x1000) 6 (a % 0x1000) true m
  modPage d (a / 0x1000) (fun s => { s with info := s.info ||| BitVec.ofNat 32 (ofBits (losers.map (fun l => 20 + masterCode l))) })

/-- Writes of several masters that reach one register in a cycle: those refused end there, one of the others takes effect, as a whole. The
offset recorded is that of the discarded write that comes first in the order of R53 (DESIGN CHOICE, log 225). -/
def cycleWrite (mem : Memory) (d : Dev) (ws : List CycW) : Memory × Dev :=
  let d := wakePage d
  let bad := ws.filter (refusedWrite d)
  let ok := ws.filter (fun w => !refusedWrite d w)
  let (mem, d) := bad.foldl (fun (s : Memory × Dev) w => regWrite s.1 s.2 w.addr w.n w.x w.m) (mem, d)
  match firstMaster ok with
  | none => (mem, d)
  | some w =>
    let (mem, d) := regWrite mem d w.addr w.n w.x w.m
    let losers := ok.filter (fun x => x.m != w.m)
    (mem, match firstMaster losers with
      | none => d
      | some l => conflict d l.addr w.m (losers.map (·.m)))

/-- REGISTER_WRITE: the writes of a cycle to one register, each from its own byte on; a 64-bit write is two 32-bit writes, the lower
address first (R50). -/
def execRegisterWrite (addr : BitVec 26) (ws : List Write) (s : State) : Host.Outcome State Fault Refusal :=
  s.onMemF (fun mem d =>
    let a := addr.toNat
    let (mem, d) := cycleWrite mem d (ws.map (fun w => ⟨w.m, a + w.off, min 4 w.nbytes, w.v.toNat % 2 ^ 32⟩))
    let high := ws.filter (fun w => 4 < w.nbytes)
    if high.isEmpty then (mem, d)
    else cycleWrite mem d (high.map (fun w => ⟨w.m, a + w.off + 4, min 4 (w.nbytes - 4), w.v.toNat / 2 ^ 32⟩)))

/-- UNIMPLEMENTED_PAGE_ACCESS. -/
def execUnimplementedPageAccess (addr : BitVec 26) (m : Master) (write : Bool) (s : State) : Host.Outcome State Fault Refusal :=
  s.onDev (fun d =>
    let a := addr.toNat
    if (pageFor d a m).isSome || inWindow d a m then d
    else if write then unimpl d a true m else give (unimpl d a false m) m 0xFFFFFFFF)

/-! ## Reads with an effect (R51, R53) -/

/-- The address is the low half of a 64-bit counter. -/
def counterLow (d : Dev) (a : Nat) : Bool :=
  match windowZone a with
  | some z =>
    let w := a - (0x1200000 + 0x400000 * z)
    let o := w % 0x1000
    a % 4 == 0 && ((w < 0x100000 && w % 8 == 0) ||
      (0x100000 ≤ w && w < 0x11A000 && ((o < 0x50 && o % 8 == 0) ||
        ((o == 0x80 || o == 0x88) && rb d (Rg.TEL_PMC_SEL z (4 * ((w - 0x100000) / 0x1000) + (o - 0x80) / 4 + 1)) Fl.TEL_PMC_SEL_CHAIN))))
  | none => match pageId (a / 0x1000) with
    | some p => 0x40 ≤ a % 0x1000 && ctrAt p (a % 0x1000) == some (a % 0x1000)
    | none => false
def execCounterLoRead (addr : BitVec 26) (m : Master) (s : State) : Host.Outcome State Fault Refusal :=
  s.onDevF (fun d =>
    if counterLow d addr.toNat then
      let (v, d) := regRead d addr.toNat m
      give d m v
    else d)

/-- A read of at most 4 bytes from address `a` (R46 to R48, R52): a narrow read of a register with side effects gives its data without the
effect and sets NARROW. -/
def readPart (d : Dev) (a n : Nat) (m : Master) : Nat × Dev :=
  let d := wakePage d
  let pg := a / 0x1000
  let off := a % 0x1000 / 4 * 4
  let bytes (v : W32) : Nat := v.toNat / 2 ^ (8 * (a % 4)) % 2 ^ (8 * n)
  let whole (b : Nat) : Nat × Dev := let (v, d) := regRead d b m; (v.toNat % 2 ^ (8 * n), d)
  if (n == 4 && a % 4 == 0) || 4 < a % 4 + n then whole a
  else match pageFor d a m with
    | none => if inWindow d a m then let (v, d) := regRead d (a / 4 * 4) m; (bytes v, d) else whole a
    | some p =>
      if isHole d pg p off then let (v, d) := readErr d pg 2 (a % 0x1000) m 0; (v.toNat, d)
      else if sideReg p off then (bytes (regRead d (a / 4 * 4) m).1, pageErr d pg 0 (a % 0x1000) false m)
      else let (v, d) := regRead d (a / 4 * 4) m; (bytes v, d)
/-- A read of up to 8 bytes: a 64-bit read is two reads, the lower address first (R50). -/
def readBytes (d : Dev) (a n : Nat) (m : Master) : W64 × Dev :=
  let (lo, d) := readPart d a (min 4 n) m
  if n ≤ 4 then (BitVec.ofNat 64 lo, d)
  else
    let (hi, d) := readPart d (a + 4) (min 4 (n - 4)) m
    (BitVec.ofNat 64 (lo + hi * 2 ^ 32), d)

/-- RC_READ. Of an RC register read whole every master that reads in the cycle receives the same value, and the register
clears once; other reads are made in the order of the masters given. -/
def execRcRead (addr : BitVec 26) (r : ReadAcc) (s : State) : Host.Outcome State Fault Refusal :=
  s.onDevF (fun d =>
    let a := addr.toNat
    let n := r.nbytes
    let each (d : Dev) (l : List Master) : Dev := l.foldl (fun d m => let (v, d) := readBytes d a n m; giveKey d (masterKey m) v) d
    let rc := match pageId (a / 0x1000) with | some p => !(rcFields p (a % 0x1000)).isEmpty | none => false
    if !rc || a % 4 != 0 || n != 4 then each d r.masters
    else
      let d := wakePage d
      let yes := r.masters.filter (answers d a)
      let d := each d (r.masters.filter (fun m => !answers d a m))
      match yes with
      | [] => d
      | m :: _ =>
        let (v, d) := regRead d a m
        yes.foldl (fun d m => give d m v) d)

/-! ## Access through the firmware (R415, R418) -/

/-- The firmware that answers for I3C and JTAG runs. -/
def fwReady (d : Dev) : Bool := rb d Rg.MGT_FW Fl.MGT_FW_READY
/-- The master of such accesses. -/
def fwMaster : Master := .firmware 0
/-- Word `k` of a private command that starts at `a`. -/
def i3cWord (st : List Byte × Dev) (a : Nat) : List Byte × Dev :=
  let (v, d) := regRead st.2 a fwMaster
  (st.1 ++ leBytes 4 v.toNat, d)
/-- I3C_READ: STATUS and `n` words; a count out of range or an offset beyond BAR0 is a bad command. -/
def execI3cRead (addr : W32) (n : Nat) (s : State) : Host.Outcome State Fault Refusal :=
  s.onDevF (fun d =>
    if n == 0 || 16 < n || 2 ^ 26 < addr.toNat + 4 * n then emit d (.i3cBytes [2])
    else if !fwReady d then emit d (.i3cBytes [1])
    else
      let (l, d) := (List.range n).foldl (fun st k => i3cWord st (addr.toNat + 4 * k)) ([], d)
      emit d (.i3cBytes ([0] ++ l)))
/-- I3C_WRITE: the words in order, then STATUS. -/
def execI3cWrite (addr : W32) (words : List W32) (s : State) : Host.Outcome State Fault Refusal :=
  s.onMemF (fun mem d =>
    let n := words.length
    if n == 0 || 16 < n || 2 ^ 26 < addr.toNat + 4 * n then (mem, emit d (.i3cBytes [2]))
    else if !fwReady d then (mem, emit d (.i3cBytes [1]))
    else
      let (mem, d) := words.zipIdx.foldl (fun (st : Memory × Dev) w => regWrite st.1 st.2 (addr.toNat + 4 * w.2) 4 w.1.toNat fwMaster) (mem, d)
      (mem, emit d (.i3cBytes [0])))
/-- MEMACC: while it is not enabled it reads 0 and discards writes. -/
def execMemacc (addr : BitVec 26) (write : Option W32) (s : State) : Host.Outcome State Fault Refusal :=
  s.onMemF (fun mem d =>
    let on := rb d Rg.MGT_DBG Fl.MGT_DBG_MEMACC_EN
    match write with
    | some v => if on && fwReady d then regWrite mem d addr.toNat 4 v.toNat fwMaster else (mem, d)
    | none =>
      if !on then (mem, emit d (.jtag (wordBits 32 0)))
      else if !fwReady d then (mem, emit (useFree d) (.jtag (wordBits 32 (freeVal d).toNat)))
      else
        let (v, d) := regRead d addr.toNat fwMaster
        (mem, emit d (.jtag (wordBits 32 v.toNat))))

end Sys2Proof.Machine
end

