-- ==== Sys2Proof/Machine/HelperOps.lean ====
section
/-!
DEFINITION. What the helpers do with the lanes they take (R218 to R235), with the meters of R245 and the global memory of R229.
-/

namespace Sys2Proof.Machine
open Sys2Proof

/-! ## The instruction word (R185, R211) -/

def hOp (w : W32) : Nat := w.toNat / 2 ^ 24
def hSub (w : W32) : Nat := w.toNat / 2 ^ 20 % 16
def hSel (w : W32) : Nat := w.toNat / 2 ^ 16 % 16
def hId (w : W32) : Nat := w.toNat % 2 ^ 16
/-- SEL[17:16]: the result slot. -/
def hSlot (w : W32) : Nat := hSel w % 4
/-- SEL[18]: guarded. -/
def hGuard (w : W32) : Bool := (hSel w).testBit 2
/-- SEL[19]: the key buffer, at 0x40 or 0x50 of M; the bytes from it to the end of M. -/
def hKeyAt (w : W32) : Nat := if (hSel w).testBit 3 then 0x50 else 0x40
def hKeyMax (w : W32) : Nat := if (hSel w).testBit 3 then 48 else 64
/-- A helper instruction's word. -/
def hWord (op sub : Nat) (sel : BitVec 4) (id : BitVec 16) : W32 :=
  BitVec.ofNat 32 (op * 2 ^ 24 + sub * 2 ^ 20 + sel.toNat * 2 ^ 16 + id.toNat)

/-- The helper of an opcode of 0xC0 to 0xEF; 10: none claims it (R217). -/
def helperOf (op : Nat) : Nat :=
  match op with
  | 0xC0 => 0 | 0xC1 => 1 | 0xC2 => 2 | 0xC3 => 2 | 0xC4 => 3 | 0xC5 => 3 | 0xC6 => 4 | 0xC7 => 5 | 0xC8 => 6 | 0xC9 => 6
  | 0xCA => 7 | 0xCB => 7 | 0xCC => 7 | 0xCD => 8 | 0xCE => 8 | 0xCF => 9
  | _ => 10

/-! ## Results -/

def allOnes : W64 := 0xFFFFFFFFFFFFFFFF
/-- All ones of `n` bytes, zero-extended. -/
def onesOf (n : Nat) : W64 := BitVec.ofNat 64 (256 ^ n - 1)
/-- A completion word (R218). -/
def completion (status : Nat) : W64 := BitVec.ofNat 64 (2 ^ 63 + status * 2 ^ 56)

/-- The result of a lane that has a timeout. -/
def answer (d : Dev) (cid : Nat) (e : HEntry) (l : HLane) (v : W64) (poison : Bool) : Dev :=
  pushResult d (helperOf (hOp e.word)) true cid e.t e.home (hSlot e.word) l.lane v poison e.flight
/-- The completion word of a posted instruction. -/
def complete (d : Dev) (cid : Nat) (e : HEntry) (l : HLane) (status : Nat) : Dev :=
  pushResult d (helperOf (hOp e.word)) false cid e.t e.home (hSlot e.word) l.lane (completion status) false e.flight
/-- A posted effect leaves for its target. -/
def postEff (d : Dev) (cid : Nat) (e : HEntry) (l : HLane) (x : PostEff) : Dev :=
  let p : HPost := ⟨cid, helperOf (hOp e.word), e.t, e.home, hSlot e.word, l.lane, x⟩
  { d with inf := { d.inf with posts := d.inf.posts ++ [p] } }

/-! ## Searches (R223) -/

/-- The lane counts at the table (R264, R267). -/
def countSearch (d : Dev) (z i : Nat) (hit : Bool) : Dev :=
  if z == 4 then
    let d := bump d (Rg.HTB_XSEARCH i) 1
    if hit then bump d (Rg.HTB_XHIT i) 1 else d
  else bump d (if hit then Rg.TBL_HIT z i else Rg.TBL_MISSES z i) 1

/-- One lane of SRCH (`z` its zone) or SRCHX (`z` 4). A zone that is cut off does not reach the extension tables. -/
def doSearch (d : Dev) (cid : Nat) (e : HEntry) (l : HLane) (z : Nat) : Dev :=
  let x := toDesc z e.regs
  let pl := if z == 4 then 0 else 1 + z
  let t := if z == 4 then 32 + hId e.word else hId e.word
  if z == 4 && cid < 128 && isolated d (cidZone cid) then answer d cid e l 0 true
  else
    let (hit, bad, d) := searchTbl d pl t x.bank x l.key
    let (xbad, d) := if z == 4 then extRead d 2 (reqOf cid e.t) x l.key hit else (false, d)
    let d := countSearch d z (hId e.word) hit.isSome
    let v := searchWord d pl t x.bank x hit
    let d := match hit with
      | some p => if hSub e.word == 0 then refresh d pl t x.bank x p else d
      | none => d
    answer d cid e l v (bad || xbad)

/-! ## Table update (R224) -/

/-- STATUS 4 and no position: what the copy of a flight receives (R391). -/
def notDone : W64 := BitVec.ofNat 64 (4 * 2 ^ 56 + noPos)
/-- One lane of INSRT or DEL goes to the update port. -/
def doUpdate (d : Dev) (cid : Nat) (e : HEntry) (l : HLane) : Dev :=
  if e.copy then answer d cid e l notDone false
  else takePortOp d (cidZone cid)
    { cid := cid, t := e.t, home := e.home, slot := hSlot e.word, lane := l.lane, flight := e.flight, tbl := hId e.word,
      del := hOp e.word == 0xC3, sub := hSub e.word, key := l.key, data := l.a, regs := e.regs }

/-! ## Hash and checksum (R225, R226) -/

/-- The Toeplitz hash: the XOR of the 32-bit windows of the secret that begin at each set bit of the input. -/
def toeplitz (secret key : List Byte) : W32 :=
  let s := beNat secret
  let n := 8 * secret.length
  ((bitsBE key).zipIdx).foldl (fun (h : W32) b => if b.1 then h ^^^ BitVec.ofNat 32 (s / 2 ^ (n - 32 - b.2)) else h) 0

/-- One lane of HASH. A hub core has no STR page, so its seed is a free value. -/
def doHash (d : Dev) (cid : Nat) (e : HEntry) (l : HLane) : Dev :=
  match hSub e.word with
  | 0 => answer d cid e l ((crc32c l.key).setWidth 64) false
  | 1 =>
    if isHub cid then answer (useFree d) cid e l ((crc32cRaw ((freeVal d).setWidth 32) l.key).setWidth 64) false
    else answer d cid e l ((crc32cRaw (rd d (Rg.STR_HASH_SEED (cidZone cid))) l.key).setWidth 64) false
  | _ =>
    let (s, m, d) := readS d cid (64 * (hId e.word / 128)) 64
    answer d cid e l ((toeplitz (beBytes 64 s) l.key).setWidth 64) (m != .ok)

/-- One lane of CSUM: `n` bytes of the header window from the cursor and ID. -/
def doCsum (d : Dev) (cid : Nat) (e : HEntry) (l : HLane) : Dev :=
  let n := l.a.toNat % 512
  let p := l.cur + hId e.word % 256
  if 256 < p + n || 256 < n then answer d cid e l (BitVec.ofNat 64 (2 ^ 63)) false
  else
    let (v, m, d) := spaceRead d cid 0 (hAddr e.home l.lane p) n
    let bytes := beBytes n v
    let init := l.a.toNat / 2 ^ 16 % 2 ^ 16
    let r := match hSub e.word with
      | 0 => BitVec.ofNat 64 (ones16 init bytes)
      | 1 => BitVec.ofNat 64 (65535 - ones16 init bytes)
      | _ => (crc32c bytes).setWidth 64
    answer d cid e l r (m != .ok)

/-! ## Meters (R227, R245) -/

/-- Credit of a bucket of `rate` units of 64 kbit/s over `n` intervals of 256 ns, in bytes: `up` chooses the rounding of a
credit that is no whole number of bytes, which the spec leaves open. -/
def meterCredit (rate n : Nat) (up : Bool) : Nat :=
  let x := rate * n * 2048
  x / 1000000 + b2n (up && x % 1000000 != 0)

/-- One charge: the record after it and the colour. `pre` is the colour before (0 green, 1 yellow, 2 red). -/
def meterCharge (v now len pre : Nat) (up1 up2 : Bool) : Nat × Nat :=
  let mode := mField v 255 254
  let cbs := mField v 183 160
  let pbs := mField v 159 136
  let last := mField v 63 0
  let n := now / 256 - last / 256
  let tc := min cbs (mField v 127 96 + meterCredit (mField v 231 208) n up1)
  let tp := min pbs (mField v 95 64 + meterCredit (mField v 207 184) n up2)
  let put (tc tp : Nat) : Nat := v / 2 ^ 128 * 2 ^ 128 + tc * 2 ^ 96 + tp * 2 ^ 64 + (if n == 0 then last else now) % 2 ^ 64
  match mode with
  | 1 =>
    if pre == 2 || tp < len then (put tc tp, 2)
    else if pre == 1 || tc < len then (put tc (tp - len), 1)
    else (put (tc - len) (tp - len), 0)
  | 2 =>
    if pre == 0 && len ≤ tc then (put (tc - len) tp, 0)
    else if pre != 2 && len ≤ tp then (put tc (tp - len), 1)
    else (put tc tp, 2)
  | _ => (v, 0)

/-- One lane of METER. -/
def doMeter (d : Dev) (cid : Nat) (e : HEntry) (l : HLane) : Dev :=
  let i := hId e.word + l.a.toNat % 2 ^ 16
  let z := cidZone cid
  let pre := if hSub e.word == 0 then 0 else min 2 (l.a.toNat / 2 ^ 16 % 4)
  -- a meter of a withdrawn row (R387)
  if 65535 < i || rowWithdrawn d (1 + z) (10 * 2048) (i / 32) then answer d cid e l (if e.copy && i ≤ 65535 then 0 else BitVec.ofNat 64 (2 ^ 63)) false
  else if e.copy then answer d cid e l 0 false
  else
    let (v, bad, d) := readMeter d z i
    if bad then answer d cid e l 0 true
    else
      let f := freeVal d
      let (v', c) := meterCharge v (nsIn d z) l.len pre (f.getLsbD 0) (f.getLsbD 1)
      answer (writeMeter (useFree d) z i v') cid e l (BitVec.ofNat 64 c) false

/-! ## Counters (R228) -/

/-- One lane of COUNT. -/
def doCount (d : Dev) (cid : Nat) (e : HEntry) (l : HLane) : Dev :=
  let i := hId e.word + l.a.toNat % 2 ^ 20
  -- a pair of a withdrawn row (R387)
  if 1048575 < i || rowWithdrawn d (1 + cidZone cid) (9 * 2048 + i % 16) (i / 1024) then complete d cid e l (b2n !e.copy)
  else if e.copy then complete d cid e l 0
  else
    let bytes := match hSub e.word with | 0 => l.len | 1 => 0 | _ => l.a.toNat / 2 ^ 32
    postEff (complete d cid e l 0) cid e l (.count (cidZone cid) i 1 bytes)
/-- The pair is counted; one that reads uncorrectable restarts from 0 (R261). -/
def countPair (d : Dev) (z p a b : Nat) : Dev :=
  let (x, y, bad, d) := readPair d z p
  if bad then writePair d z p a b else writePair d z p (x + a) (y + b)

/-! ## Global memory (R229 to R232) -/

/-- A global access of the core to memory is unmapped: of a zone that is cut off, or by its address. -/
def unmapped (d : Dev) (cid n : Nat) (a : W64) : Bool :=
  (cid < 128 && isolated d (cidZone cid)) || !mapped d a.toNat n
/-- Base and end of the register window. -/
def winBase : Nat := 0x3000000000
def winEnd : Nat := 0x3004000000
/-- A register access is unmapped: outside the window or misaligned; of a zone that is cut off, outside its own pages too. -/
def regUnmapped (d : Dev) (cid : Nat) (a : W64) : Bool :=
  a.toNat % 4 != 0 || a.toNat < winBase || winEnd ≤ a.toNat ||
    (cid < 128 && isolated d (cidZone cid) &&
      !((a.toNat - winBase) / 0x1000 / 0x400 == 4 + cidZone cid))
/-- The master of a kernel thread of the core (R230). -/
def coreMaster (cid : Nat) : Master :=
  if isHub cid then .firmware (Fin.ofNat 4 (cid - 128)) else .kernel (Fin.ofNat 132 cid)

/-- The memory's bytes as a request of class 4 reads them; whether the word is poisoned. -/
def globalRead (m : Memory) (d : Dev) (cid t a n : Nat) : Nat × Bool × Dev :=
  let (bad, d) := memRead d 4 (reqOf cid t) a n
  (m.be a n, bad, d)

/-- One lane of GLD. -/
def doGld (m : Memory) (d : Dev) (cid : Nat) (e : HEntry) (l : HLane) : Dev :=
  if hSub e.word == 8 then
    if regUnmapped d cid l.a then answer d cid e l allOnes false
    else
      let (v, d) := regRead d (l.a.toNat - winBase) (coreMaster cid)
      answer d cid e l (v.setWidth 64) false
  else
    let n := 2 ^ hSub e.word
    if unmapped d cid n l.a then answer d cid e l allOnes false
    else
      let (v, bad, d) := globalRead m d cid e.t l.a.toNat n
      answer d cid e l (BitVec.ofNat 64 v) bad

/-- Zone and bank of an image write, and whether the address lies in that bank's alias. -/
def imageAt (w : W32) (a : W64) : Option (Nat × Nat × Nat) :=
  let z := hId w / 2 % 4
  let b := hId w % 2
  let base := 0x4000000000 + z * 0x10000 + b * 0x8000
  if base ≤ a.toNat && a.toNat < base + 0x8000 && a.toNat % 16 == 0 then some (z, b, a.toNat - base) else none

/-- One lane of GST. -/
def doGst (d : Dev) (cid : Nat) (e : HEntry) (l : HLane) : Dev :=
  let post (x : PostEff) : Dev := postEff (complete d cid e l 0) cid e l x
  if e.copy then complete d cid e l 0
  else match hSub e.word with
    | 8 => if regUnmapped d cid l.a then complete d cid e l 1
      else post (.register (l.a.toNat - winBase) (BitVec.ofNat 32 (beNat l.key)))
    | 12 => match imageAt e.word l.a with
      | some (z, b, o) => post (.image z b o l.key)
      | none => complete d cid e l 1
    | _ => if unmapped d cid l.key.length l.a then complete d cid e l 1 else post (.store l.a.toNat l.key)

/-- The new value of an atomic operation on a word of `n` bytes; none: nothing is written. -/
def atomNew (sub n old : Nat) (key : List Byte) : Option Nat :=
  let x := beAt key 0 n
  match sub % 8 with
  | 0 => some ((old + x) % 256 ^ n)
  | 1 => some (old &&& x)
  | 2 => some (old ||| x)
  | 3 => some x
  | _ => if old == x then some (beAt key n n) else none
/-- Width in bytes of ATOM and LOCK: SUB[3]. -/
def atomBytes (w : W32) : Nat := if 8 ≤ hSub w then 8 else 4
/-- One lane of ATOM, performed at the memory and counted by the atomic unit (R366, R372). -/
def doAtom (m : Memory) (d : Dev) (cid : Nat) (e : HEntry) (l : HLane) : Memory × Dev :=
  let n := atomBytes e.word
  let a := l.a.toNat
  if unmapped d cid n l.a then (m, answer (if e.copy then d else bump d Rg.ATOM_UNMAPPED 1) cid e l (onesOf n) false)
  else
    let old := m.be a n
    let new := if e.copy then none else atomNew (hSub e.word) n old l.key
    -- its read and its write are one access (R328, R366)
    let (bad, d) := if isSram a then hubSramRead d a n
      else let d := hbmAccept d 4 (reqOf cid e.t) new.isSome a n; (hbmPoisoned d a n, noteUncorr d a n)
    let d := answer d cid e l (BitVec.ofNat 64 old) bad
    if e.copy then (m, d)
    else
      let d := bump d (Rg.ATOM_OPS (hSub e.word % 8)) 1
      match new with
      | some v => memPut m d a (beBytes n v)
      | none => (m, bump d Rg.ATOM_CAS_FAIL 1)

/-! ## Locks (R233, R354 to R361) -/

/-- A result of LOCK: it has no timeout. -/
def lockAnswer (d : Dev) (cid : Nat) (e : HEntry) (l : HLane) (v : W64) (poison : Bool) : Dev :=
  pushResult d 7 false cid e.t e.home (hSlot e.word) l.lane v poison e.flight

/-- One lane of LOCK reaches the lock unit. -/
def doLock (m : Memory) (d : Dev) (cid : Nat) (e : HEntry) (l : HLane) : Dev :=
  let n := atomBytes e.word
  let a := l.a.toNat
  if unmapped d cid n l.a then lockAnswer d cid e l (onesOf n) false
  else if e.copy then
    let (v, bad, d) := globalRead m d cid e.t a n
    lockAnswer d cid e l (BitVec.ofNat 64 v) bad
  else
    requestLock m d { addr := lockOf a, word := a, size := n, stage := 0, order := d.lku.seq, host := none, cid := cid, t := e.t,
                      home := e.home, slot := hSlot e.word, lane := l.lane, flight := e.flight, holder := e.holder, tag := e.tag }

/-- All lanes of a LOCK, presented at once in ascending order. The thread is ready again when none of them waits. A LOCK whose
flight has been rebuilt meanwhile completes at the lock unit all the same (R135, R221). -/
def doLocks (m : Memory) (d : Dev) (cid : Nat) (e : HEntry) : Dev :=
  let d := modLku d (fun u => { u with seq := u.seq + 1 })
  let d := e.lanes.foldl (fun d l => doLock m d cid e l) d
  let waits := d.lku.waiters.any (fun x => x.host.isNone && x.cid == cid && x.t == e.t && x.flight == e.flight)
  modThr d cid e.t (fun x =>
    if (x.wait = .lock || x.wait = .none) && x.flight == e.flight then { x with wait := if waits then .lock else .none } else x)

/-- Holds that a lock is to have after the present one: one for each LOCK and each host request that waits for it. -/
def holdsToCome (d : Dev) (a : Nat) : Nat :=
  ((d.lku.waiters.filter (fun w => w.addr == a && w.stage != 2)).map (fun w => (w.order, w.host))).dedup.length
/-- UNLK reports whether its release will find a lock held: each release on its way before it passes the lock to the next hold. -/
def unlkStatus (d : Dev) (a : Nat) : Nat :=
  let before := (d.inf.posts.filter (fun p => p.eff = .unlock a)).length
  if (lockEnt d a).isSome && before ≤ holdsToCome d a then 0 else 1
/-- One lane of UNLK: the word's width is not told, so that its address must be aligned to 4 bytes. -/
def doUnlk (d : Dev) (cid : Nat) (e : HEntry) (l : HLane) : Dev :=
  if e.copy then complete d cid e l 0
  else if unmapped d cid 4 l.a then complete d cid e l 1
  else
    let a := lockOf l.a.toNat
    postEff (complete d cid e l (unlkStatus d a)) cid e l (.unlock a)

/-! ## Random numbers, timebase (R234) -/

def doRand (d : Dev) (cid : Nat) (e : HEntry) (l : HLane) : Dev := answer (useFree d) cid e l (freeVal d) false
def doStamp (d : Dev) (cid : Nat) (e : HEntry) (l : HLane) : Dev :=
  answer d cid e l (BitVec.ofNat 64 (if hSub e.word == 0 then e.stamp / 2 ^ 32 else e.stamp / 2 ^ 16)) false

/-! ## Mirror requests (R235, R306) -/

/-- Requests of the zone that Carafe has accepted and not yet queued. -/
def mirrComing (d : Dev) (z : Nat) : Nat :=
  (d.inf.posts.filter (fun p => p.cid < 128 && cidZone p.cid == z && p.helper == 9)).length
/-- MIRR's truncation: at least 64 bytes, 0 the whole frame. -/
def mirrTrunc (a : W64) : Nat := if a.toNat % 2 ^ 14 == 0 then 0 else max 64 (a.toNat % 2 ^ 14)
/-- Carafe adds a reference for every copy of a flight's buffer. -/
def mirrRefs (d : Dev) (h : W32) (n : Nat) : Option Dev :=
  if n == 0 then some d
  else match bufOf d h with
    | some b => if b.kind == 2 || b.kind == 5 then addRefs d h n b.kind b.index else none
    | none => none
/-- One lane of MIRR: accepted by Carafe with its references, or refused. -/
def doMirr (d : Dev) (cid : Nat) (e : HEntry) (l : HLane) : Dev :=
  let z := cidZone cid
  if e.copy then complete d cid e l 0
  else if isolated d z then complete (isoDrop d z) cid e l 0
  else if 256 ≤ (mirrQ d z).length + mirrComing d z then
    complete (raise (bump d Rg.MIRROR_REFUSED 1) carPage 1) cid e l 1
  else
    let (base, count, valid, _) := groupOf d (hId e.word)
    let n := if valid then (membersOf d base count).length else 0
    match mirrRefs d l.handle n with
    | some d => postEff (complete d cid e l 0) cid e l (.mirror l.handle (hId e.word) (mirrTrunc l.a) l.dom l.seq n l.marked l.lossless)
    | none => complete (bump d Rg.REFCNT_REFUSED n) cid e l 1

/-! ## Posted effects (R218) -/

/-- A posted effect completes at its target. -/
def performPost (m : Memory) (d : Dev) (p : HPost) : Memory × Dev :=
  match p.eff with
  | .count z i a b => (m, countPair d z i a b)
  | .store a l => memStore m d 4 (reqOf p.cid p.t) a l
  | .register a v => regWrite m d a 4 v.toNat (coreMaster p.cid)
  | .image z b o l => (m, imageWrite d z b (o / 4) ((List.range 4).map (fun i => beAt l (4 * i) 4)))
  | .unlock a => (m, (releaseLock d a).1)
  | .mirror h g tr dm sq refs ctrl ll =>
    let z := cidZone p.cid
    let r : CarReq := { handle := h, group := g, cls := dm % 8, dom := dm, seq := sq, ecn := false, ts2 := false, ctrl := ctrl,
                        lossless := ll, trunc := tr, waits := false, refs := refs, mirror := true, inj := none }
    (m, setMirrQ d z (mirrQ d z ++ [r]))

/-- The completion word of a posted instruction has been written. -/
def postKnown (d : Dev) (p : HPost) : Bool :=
  !d.inf.results.any (fun r => r.cid == p.cid && r.home == p.home && r.slot == p.slot && r.lane == p.lane && r.helper == p.helper)
/-- Posted effects of the thread that an instruction of helper `h` follows (R220): those of the same helper, and those whose
completion words the thread can have read. -/
def flushPosts (m : Memory) (d : Dev) (cid t h : Nat) : Memory × Dev :=
  (d.inf.posts.filter (fun p => p.cid == cid && p.t == t && (p.helper == h || postKnown d p))).foldl (fun (st : Memory × Dev) p =>
    performPost st.1 { st.2 with inf := { st.2.inf with posts := st.2.inf.posts.erase p } } p) (m, d)

/-! ## Taking lanes (R216) -/

/-- The effect of one lane. -/
def doLane (m : Memory) (d : Dev) (cid : Nat) (e : HEntry) (l : HLane) : Memory × Dev :=
  match hOp e.word with
  | 0xC0 => (m, doSearch d cid e l (cidZone cid))
  | 0xC1 => (m, doSearch d cid e l 4)
  | 0xC2 => (m, doUpdate d cid e l)
  | 0xC3 => (m, doUpdate d cid e l)
  | 0xC4 => (m, doHash d cid e l)
  | 0xC5 => (m, doCsum d cid e l)
  | 0xC6 => (m, doMeter d cid e l)
  | 0xC7 => (m, doCount d cid e l)
  | 0xC8 => (m, doGld m d cid e l)
  | 0xC9 => (m, doGst d cid e l)
  | 0xCA => doAtom m d cid e l
  | 0xCC => (m, doUnlk d cid e l)
  | 0xCD => (m, doRand d cid e l)
  | 0xCE => (m, doStamp d cid e l)
  | 0xCF => (m, doMirr d cid e l)
  | _ => (m, d)

/-- The helper takes `n` lanes of the oldest entry of the core's queue in ascending order; LOCK presents all at once. -/
def takeLanes (m : Memory) (d : Dev) (cid h n : Nat) : Memory × Dev :=
  match queue d cid h with
  | [] => (m, d)
  | e :: rest =>
    if n == 0 then (m, d)
    else
      let (m, d) := flushPosts m d cid e.t h
      if hOp e.word == 0xCB then (m, doLocks m (setQueue d cid h rest) cid e)
      else
        let left := e.lanes.drop n
        let d := setQueue d cid h (if left.isEmpty then rest else { e with lanes := left } :: rest)
        (e.lanes.take n).foldl (fun (st : Memory × Dev) l => doLane st.1 st.2 cid e l) (m, d)

end Sys2Proof.Machine
end

