-- ==== Sys2Proof/Machine/Infusers.lean ====
section
/-!
DEFINITION. The Infusers: issue, claim and refusal of helper instructions (R211 to R215, R222), and the commands of their
queues, results, posted effects and timeouts (R216 to R221).
-/

namespace Sys2Proof.Machine
open Sys2Proof

/-! ## Refusal (R213, R222) -/

/-- The descriptor values of the table that a search or update of thread `t` names: an extension table for SRCHX. -/
def helperRegs (d : Dev) (cid t : Nat) (w : W32) : List W32 :=
  let x := thr d cid t
  let order := (x.flight.bind (flightById d)).map (·.order)
  if hOp w == 0xC1 then regsFor d 4 (hId w) order x.tag
  else if hOp w == 0xC0 || hOp w == 0xC2 || hOp w == 0xC3 then regsFor d (cidZone cid) (hId w) order x.tag
  else []

/-- Bytes of the named key buffer that the instruction captures (R213). -/
def keyBytes (w : W32) (regs : List W32) : Nat :=
  match hOp w with
  | 0xC0 => keyLen (tdescOf regs)
  | 0xC1 => keyLen (xdescOf regs)
  | 0xC2 => let x := tdescOf regs; keyLen x + b2n (x.ty == 2 || x.ty == 3)
  | 0xC3 => let x := tdescOf regs; keyLen x + b2n (x.ty == 2 || x.ty == 3)
  | 0xC4 => hId w % 128
  | 0xC9 => match hSub w with | 0 => 1 | 1 => 2 | 2 => 4 | 3 => 8 | 8 => 4 | _ => 16
  | 0xCA => atomBytes w * (if hSub w % 8 == 4 then 2 else 1)
  | _ => 0

/-- An on-die table that the instruction may name: `upd` for INSRT and DEL, which ternary and direct tables refuse (R243). -/
def tableRefused (d : Dev) (cid : Nat) (w : W32) (regs : List W32) (upd : Bool) : Bool :=
  let x := tdescOf regs
  32 ≤ hId w || x.ty == 0 || 5 < x.ty || (upd && 3 < x.ty) || tblIsHeld d (cidZone cid) (hId w) || hKeyMax w < keyLen x
def extRefused (d : Dev) (w : W32) (regs : List W32) : Bool :=
  let x := xdescOf regs
  8 ≤ hId w || d.hbm.absent || x.ty == 0 || 3 < x.ty || extIsHeld d (hId w) || hKeyMax w < keyLen x

/-- R222: the helper refuses the word, or none claims it. -/
def helperRefuses (d : Dev) (cid t : Nat) (w : W32) : Bool :=
  let sub := hSub w
  let id := hId w
  let kernel := kernelThread (thr d cid t)
  let regs := helperRegs d cid t w
  queueDepth cid (helperOf (hOp w)) == 0 ||
  match hOp w with
  | 0xC0 => 1 < sub || tableRefused d cid w regs false
  | 0xC1 => 1 < sub || extRefused d w regs
  | 0xC2 => 2 < sub || tableRefused d cid w regs true
  | 0xC3 => sub != 0 || tableRefused d cid w regs true
  | 0xC4 =>
    let n := id % 128
    2 < sub || n == 0 || hKeyMax w < n || 64 < n || (sub != 2 && id / 128 != 0) || (sub == 2 && 60 < n)
  | 0xC5 => 2 < sub || id / 256 != 0
  | 0xC6 => 1 < sub
  | 0xC7 => 2 < sub
  | 0xC8 => id != 0 || !(sub < 4 || (sub == 8 && kernel))
  | 0xC9 =>
    if sub == 12 then 8 ≤ id || !(kernel && isHub cid) || imageBusy d (id / 2) (id % 2)
    else id != 0 || !(sub < 5 || (sub == 8 && kernel))
  | 0xCA => id != 0 || 4 < sub % 8
  | 0xCB => id != 0 || (sub != 0 && sub != 8)
  | 0xCC => id != 0 || sub != 0
  | 0xCD => id != 0 || sub != 0
  | 0xCE => id != 0 || 1 < sub
  | 0xCF => sub != 0 || kernel
  | _ => true

/-! ## Issue (R211 to R215) -/

/-- The frame length at M 0x02, which METER and COUNT capture (R215). -/
def takesLength (w : W32) : Bool := hOp w == 0xC6 || hOp w == 0xC7
/-- What a lane's capture reads: the key bytes, whose uncorrectable error is one of R174, and the frame length, which is no such read (R213):
a length that cannot be read is a free value (DESIGN CHOICE, log 247). -/
def captureLane (d : Dev) (cid t : Nat) (w : W32) (k n : Nat) : (List Byte × Nat) × Met × Dev :=
  let home := (thr d cid t).home
  let (v, m1, d) := readM d cid home n (hKeyAt w) k
  let (len, m2, d) := if takesLength w then readM d cid home n 2 2 else (0, .ok, d)
  if m2 = .ok then ((beBytes k v, len), m1, d) else ((beBytes k v, (freeVal d).toNat % 2 ^ 16), m1, useFree d)
/-- A lane of the entry. -/
def hlane (d : Dev) (cid t n : Nat) (cap : List Byte × Nat) : HLane :=
  let x := thr d cid t
  let li := (x.flight.bind (flightById d)).bind (fun f => f.lanes[n]?)
  { lane := n, a := (lctx x n).a, key := cap.1, len := cap.2, cur := (lctx x n).cur.toNat
    handle := match li with | some l => l.handle | none => 0
    dom := match li with | some l => l.dom | none => 0
    seq := match li with | some l => l.seq | none => 0
    marked := match li with | some l => l.marked | none => false
    lossless := match li with | some l => l.lossless | none => false }
/-- Captures of the acting lanes in ascending order. -/
def captureAll (d : Dev) (cid t : Nat) (w : W32) (k : Nat) (ls : List Nat) : List HLane × Met × Dev :=
  ls.foldl (fun (acc : List HLane × Met × Dev) n =>
    let (cap, m, d) := captureLane acc.2.2 cid t w k n
    (acc.1 ++ [hlane d cid t n cap], acc.2.1.and m, d)) ([], .ok, d)

/-- The helper accepts the instruction: it enters the core's queue, the slots of its lanes become pending, and the comparator
records the requests (R211, R215, R391). -/
def accept (d : Dev) (cid t : Nat) (w : W32) (ls : List HLane) : Dev :=
  let x := thr d cid t
  let h := helperOf (hOp w)
  let e : HEntry := { word := w, t := t, home := x.home, lanes := ls, flight := x.flight
                      copy := match x.flight.bind (flightById d) with | some f => f.copyOf.isSome | none => false
                      stamp := if isHub cid then d.tb else tbIn d (cidZone cid)
                      holder := threadHolder d cid t, tag := x.tag
                      regs := helperRegs d cid t w }
  let d := setQueue d cid h (queue d cid h ++ [e])
  let d := ls.foldl (fun d l => setPend d cid x.home l.lane (setBit (pendOf d cid x.home l.lane) (hSlot w))) d
  let d := match x.flight with
    | some id => modFlight d id (fun f => { f with trace := f.trace ++ ls.map (fun l => (l.lane, w, l.a, l.key)) })
    | none => d
  if hOp w == 0xCB then modThr d cid t (fun y => { y with wait := .lock }) else d

/-- The issue of a helper instruction: refused, stalled on a slot or a full queue, or accepted. -/
def helperIssue (d : Dev) (cid t : Nat) (w : W32) : Dev :=
  let x := thr d cid t
  let ls := actingLanes x (hGuard w)
  let h := helperOf (hOp w)
  let stall : Stall := if ls.isEmpty then .none else if slotPending d cid x.home ls [hSlot w] then .slots ls [hSlot w]
    else if queueFull d cid h then .queue h else .none
  issue d cid t { word := w, refused := helperRefuses d cid t w, stall := stall, lanes := ls }
    (fun d =>
      let (caps, m, d) := captureAll d cid t w (keyBytes w (helperRegs d cid t w)) ls
      if m != .ok then metError d cid t w m
      else
        let d := pmc d cid 4 1 (kernelThread x) h
        let d := advance d cid t
        (if ls.isEmpty then d else accept d cid t w caps, false))

/-- HELPER_REFUSED: a word of opcodes 0xC0 to 0xEF that is refused, reserved forms and unclaimed opcodes among them. -/
def execHelperRefused (c : Cid) (t : Tid) (w : W32) (s : State) : Host.Outcome State Fault Refusal :=
  s.onDevF (fun d => if 0xC0 ≤ hOp w && hOp w ≤ 0xEF && helperRefuses d c t w then helperIssue d c t w else d)

/-! ## Searches (R223) -/

def execSrch (c : Cid) (t : Tid) (sel : BitVec 4) (id : BitVec 16) (s : State) : Host.Outcome State Fault Refusal :=
  s.onDevF (fun d => helperIssue d c t (hWord 0xC0 0 sel id))
def execSrchNoRefresh (c : Cid) (t : Tid) (sel : BitVec 4) (id : BitVec 16) (s : State) : Host.Outcome State Fault Refusal :=
  s.onDevF (fun d => helperIssue d c t (hWord 0xC0 1 sel id))
def execSrchx (c : Cid) (t : Tid) (noRefresh : Bool) (sel : BitVec 4) (id : BitVec 16) (s : State) : Host.Outcome State Fault Refusal :=
  s.onDevF (fun d => helperIssue d c t (hWord 0xC1 (b2n noRefresh) sel id))

/-! ## Table update (R224) -/

def execInsrt (c : Cid) (t : Tid) (sel : BitVec 4) (id : BitVec 16) (s : State) : Host.Outcome State Fault Refusal :=
  s.onDevF (fun d => helperIssue d c t (hWord 0xC2 0 sel id))
def execInsrtOnly (c : Cid) (t : Tid) (sel : BitVec 4) (id : BitVec 16) (s : State) : Host.Outcome State Fault Refusal :=
  s.onDevF (fun d => helperIssue d c t (hWord 0xC2 1 sel id))
def execInsrtUpdate (c : Cid) (t : Tid) (sel : BitVec 4) (id : BitVec 16) (s : State) : Host.Outcome State Fault Refusal :=
  s.onDevF (fun d => helperIssue d c t (hWord 0xC2 2 sel id))
def execDel (c : Cid) (t : Tid) (sel : BitVec 4) (id : BitVec 16) (s : State) : Host.Outcome State Fault Refusal :=
  s.onDevF (fun d => helperIssue d c t (hWord 0xC3 0 sel id))

/-! ## Hash and checksum (R225, R226) -/

def execHashCrc32c (c : Cid) (t : Tid) (sel : BitVec 4) (id : BitVec 16) (s : State) : Host.Outcome State Fault Refusal :=
  s.onDevF (fun d => helperIssue d c t (hWord 0xC4 0 sel id))
def execHashSeeded (c : Cid) (t : Tid) (sel : BitVec 4) (id : BitVec 16) (s : State) : Host.Outcome State Fault Refusal :=
  s.onDevF (fun d => helperIssue d c t (hWord 0xC4 1 sel id))
def execHashToeplitz (c : Cid) (t : Tid) (sel : BitVec 4) (id : BitVec 16) (s : State) : Host.Outcome State Fault Refusal :=
  s.onDevF (fun d => helperIssue d c t (hWord 0xC4 2 sel id))
def execCsumSum (c : Cid) (t : Tid) (sel : BitVec 4) (id : BitVec 16) (s : State) : Host.Outcome State Fault Refusal :=
  s.onDevF (fun d => helperIssue d c t (hWord 0xC5 0 sel id))
def execCsumComplement (c : Cid) (t : Tid) (sel : BitVec 4) (id : BitVec 16) (s : State) : Host.Outcome State Fault Refusal :=
  s.onDevF (fun d => helperIssue d c t (hWord 0xC5 1 sel id))
def execCsumCrc32c (c : Cid) (t : Tid) (sel : BitVec 4) (id : BitVec 16) (s : State) : Host.Outcome State Fault Refusal :=
  s.onDevF (fun d => helperIssue d c t (hWord 0xC5 2 sel id))

/-! ## Meters and counters (R227, R228) -/

def execMeterBlind (c : Cid) (t : Tid) (sel : BitVec 4) (id : BitVec 16) (s : State) : Host.Outcome State Fault Refusal :=
  s.onDevF (fun d => helperIssue d c t (hWord 0xC6 0 sel id))
def execMeterAware (c : Cid) (t : Tid) (sel : BitVec 4) (id : BitVec 16) (s : State) : Host.Outcome State Fault Refusal :=
  s.onDevF (fun d => helperIssue d c t (hWord 0xC6 1 sel id))
def execCount (c : Cid) (t : Tid) (sub : Fin 3) (sel : BitVec 4) (id : BitVec 16) (s : State) : Host.Outcome State Fault Refusal :=
  s.onDevF (fun d => helperIssue d c t (hWord 0xC7 sub sel id))

/-! ## Global memory (R230) -/

def execGld (c : Cid) (t : Tid) (size : Fin 4) (sel : BitVec 4) (id : BitVec 16) (s : State) : Host.Outcome State Fault Refusal :=
  s.onDevF (fun d => helperIssue d c t (hWord 0xC8 size sel id))
def execGldRegister (c : Cid) (t : Tid) (sel : BitVec 4) (id : BitVec 16) (s : State) : Host.Outcome State Fault Refusal :=
  s.onDevF (fun d => helperIssue d c t (hWord 0xC8 8 sel id))
def execGst (c : Cid) (t : Tid) (size : Fin 4) (sel : BitVec 4) (id : BitVec 16) (s : State) : Host.Outcome State Fault Refusal :=
  s.onDevF (fun d => helperIssue d c t (hWord 0xC9 size sel id))
def execGst16 (c : Cid) (t : Tid) (sel : BitVec 4) (id : BitVec 16) (s : State) : Host.Outcome State Fault Refusal :=
  s.onDevF (fun d => helperIssue d c t (hWord 0xC9 4 sel id))
def execGstRegister (c : Cid) (t : Tid) (sel : BitVec 4) (id : BitVec 16) (s : State) : Host.Outcome State Fault Refusal :=
  s.onDevF (fun d => helperIssue d c t (hWord 0xC9 8 sel id))
def execGstImage (c : Cid) (t : Tid) (sel : BitVec 4) (id : BitVec 16) (s : State) : Host.Outcome State Fault Refusal :=
  s.onDevF (fun d => helperIssue d c t (hWord 0xC9 12 sel id))

/-! ## Atomics and locks (R232, R233) -/

def execAtomFetchAdd (c : Cid) (t : Tid) (wide : Bool) (sel : BitVec 4) (id : BitVec 16) (s : State) : Host.Outcome State Fault Refusal :=
  s.onDevF (fun d => helperIssue d c t (hWord 0xCA (8 * b2n wide) sel id))
def execAtomFetchAnd (c : Cid) (t : Tid) (wide : Bool) (sel : BitVec 4) (id : BitVec 16) (s : State) : Host.Outcome State Fault Refusal :=
  s.onDevF (fun d => helperIssue d c t (hWord 0xCA (8 * b2n wide + 1) sel id))
def execAtomFetchOr (c : Cid) (t : Tid) (wide : Bool) (sel : BitVec 4) (id : BitVec 16) (s : State) : Host.Outcome State Fault Refusal :=
  s.onDevF (fun d => helperIssue d c t (hWord 0xCA (8 * b2n wide + 2) sel id))
def execAtomSwap (c : Cid) (t : Tid) (wide : Bool) (sel : BitVec 4) (id : BitVec 16) (s : State) : Host.Outcome State Fault Refusal :=
  s.onDevF (fun d => helperIssue d c t (hWord 0xCA (8 * b2n wide + 3) sel id))
def execAtomCompareSwap (c : Cid) (t : Tid) (wide : Bool) (sel : BitVec 4) (id : BitVec 16) (s : State) : Host.Outcome State Fault Refusal :=
  s.onDevF (fun d => helperIssue d c t (hWord 0xCA (8 * b2n wide + 4) sel id))
def execLock (c : Cid) (t : Tid) (wide : Bool) (sel : BitVec 4) (id : BitVec 16) (s : State) : Host.Outcome State Fault Refusal :=
  s.onDevF (fun d => helperIssue d c t (hWord 0xCB (8 * b2n wide) sel id))
def execUnlk (c : Cid) (t : Tid) (sel : BitVec 4) (id : BitVec 16) (s : State) : Host.Outcome State Fault Refusal :=
  s.onDevF (fun d => helperIssue d c t (hWord 0xCC 0 sel id))

/-! ## Random numbers, timebase, mirrors (R234, R235) -/

def execRand (c : Cid) (t : Tid) (sel : BitVec 4) (id : BitVec 16) (s : State) : Host.Outcome State Fault Refusal :=
  s.onDevF (fun d => helperIssue d c t (hWord 0xCD 0 sel id))
def execTstampNs (c : Cid) (t : Tid) (sel : BitVec 4) (id : BitVec 16) (s : State) : Host.Outcome State Fault Refusal :=
  s.onDevF (fun d => helperIssue d c t (hWord 0xCE 0 sel id))
def execTstampFrac (c : Cid) (t : Tid) (sel : BitVec 4) (id : BitVec 16) (s : State) : Host.Outcome State Fault Refusal :=
  s.onDevF (fun d => helperIssue d c t (hWord 0xCE 1 sel id))
def execMirr (c : Cid) (t : Tid) (sel : BitVec 4) (id : BitVec 16) (s : State) : Host.Outcome State Fault Refusal :=
  s.onDevF (fun d => helperIssue d c t (hWord 0xCF 0 sel id))

/-! ## Queues, results, posted effects, timeouts (R216 to R219) -/

/-- Lanes that helper `h` takes at most in one CC (R217): LOCK presents all its lanes at once; the rate of helper 1, 64 in 100 CC, and
those of at least 32 lanes bind no entry. -/
def takeRate (d : Dev) (cid h : Nat) : Nat :=
  match h with
  | 2 => 8
  | 6 => if isHub cid then 8 else 16
  | 7 => match queue d cid h with | e :: _ => if hOp e.word == 0xCB then 32 else 4 | [] => 4
  | 9 => 2
  | _ => 32
/-- The cores of the core's zone share the helper. -/
def sharedRate (cid h : Nat) : Bool := !isHub cid && h != 3 && h != 8
def turnDflt : Nat → Turn := fun _ => {}
def turn (d : Dev) (z h : Nat) : Turn := tget turnDflt d.inf.turns (16 * z + h)
/-- The core whose turn it is: the one served last while its entry was cut short, else the next one with a waiting entry (R216). -/
def nextCore (d : Dev) (z h : Nat) : Option Nat :=
  let x := turn d z h
  let waits (k : Nat) : Bool := !(queue d (32 * z + k) h).isEmpty
  if x.cut && waits x.last then some x.last
  else ((List.range 26).map (fun i => (x.last + 1 + i) % 26)).find? waits
/-- A turn has taken lanes of the core's entry `e`: cut short when lanes of it are left. -/
def endTurn (d : Dev) (cid h : Nat) (e : HEntry) (n : Nat) : Dev :=
  let x : Turn := { last := cidCore cid, cut := n < e.lanes.length }
  { d with inf := { d.inf with turns := tset turnDflt d.inf.turns (16 * cidZone cid + h) x } }
/-- One turn of the helper: lanes of the core's oldest entry. -/
def takeTurn (m : Memory) (d : Dev) (cid h n : Nat) : Memory × Dev :=
  let n := min n (takeRate d cid h)
  match queue d cid h with
  | [] => (m, d)
  | e :: _ =>
    if !sharedRate cid h || n == 0 then takeLanes m d cid h n
    else if nextCore d (cidZone cid) h != some (cidCore cid) then (m, d)
    else takeLanes m (endTurn d cid h e (if hOp e.word == 0xCB then e.lanes.length else n)) cid h n

/-- HELPER_TAKE: the helper takes `n` lanes of the core's oldest entry, when it is the core's turn. -/
def execHelperTake (c : Cid) (h : Fin 10) (n : Nat) (s : State) : Host.Outcome State Fault Refusal :=
  s.onMemF (fun m d => takeTurn m d c h n)

/-- A value or poisoned check bits are written into a slot; its pending bit clears (R216, R219). -/
def writeSlot (d : Dev) (cid home slot lane : Nat) (v : W64) (poison : Bool) : Dev :=
  let w := mAddr home lane (0x20 + 8 * slot) / 8
  let d := writeWord d (cidPlace cid) (coreArr cid 1) w v
  let d := if poison then setSword d (cidPlace cid) (coreArr cid 1) w { valid := true, data := v, poison := true } else d
  setPend d cid home lane (clrBit (pendOf d cid home lane) slot)

/-- The thread still runs the flight, or the kernel item, that the result is for (R221). -/
def resultLive (d : Dev) (cid home : Nat) (flight : Option Nat) : Bool := (thr d cid home).flight == flight

/-- HELPER_RESULT: the oldest result for the slot is written; one of a failed run is discarded. -/
def execHelperResult (c : Cid) (t : Tid) (slot : Fin 4) (lane : Fin 32) (s : State) : Host.Outcome State Fault Refusal :=
  s.onDevF (fun d =>
    match d.inf.results.find? (fun r => r.cid == c.val && r.home == t.val && r.slot == slot.val && r.lane == lane.val) with
    | none => d
    | some r =>
      let d := { d with inf := { d.inf with results := d.inf.results.erase r } }
      if !resultLive d c t r.flight then d
      else
        let d := writeSlot d c t slot lane r.value r.poison
        match r.flight with
        | some id => modFlight d id (fun f => { f with results := f.results ++ [(lane.val, r.value)] })
        | none => d)

/-- POSTED_EFFECT: the oldest effect of the helper on its way from the core. -/
def execPostedEffect (c : Cid) (h : Fin 10) (s : State) : Host.Outcome State Fault Refusal :=
  s.onMemF (fun m d =>
    match d.inf.posts.find? (fun p => p.cid == c.val && p.helper == h.val) with
    | some p => performPost m { d with inf := { d.inf with posts := d.inf.posts.erase p } } p
    | none => (m, d))

/-- R219: a lane whose result has not arrived: the result is lost, the slot is poisoned, and one fault counts on the core's
request channel. A lane at the update port is answered by its helper alone (slot 4: nobody). -/
def execHelperTimeout (c : Cid) (t : Tid) (slot : Fin 4) (lane : Fin 32) (s : State) : Host.Outcome State Fault Refusal :=
  s.onDevF (fun d =>
    let fail (d : Dev) (th : Nat) (flight : Option Nat) : Dev :=
      if resultLive d c t flight then noteFault (writeSlot d c t slot lane 0 true) (reqChan (reqOf c th)) false else d
    let mine (o : PortOp) : Bool := o.cid == c.val && o.home == t.val && o.slot == slot.val && o.lane == lane.val
    match d.inf.results.find? (fun r => r.timed && r.cid == c.val && r.home == t.val && r.slot == slot.val && r.lane == lane.val) with
    | some r => fail { d with inf := { d.inf with results := d.inf.results.erase r } } r.t r.flight
    | none =>
      let z := cidZone c
      match (portQ d z).find? mine with
      | some o => fail (setPortQ d z ((portQ d z).map (fun y => if y = o then { y with slot := 4 } else y))) o.t o.flight
      | none => d)

end Sys2Proof.Machine
end

