-- ==== Sys2Proof/Machine/Kettle.lean ====
section
/-!
DEFINITION. The commands of the Kettle: budget levels and their causes (R453 to R459), power states of units and of the device (R448
to R452).
-/

namespace Sys2Proof.Machine
open Sys2Proof

/-- LEVEL_CHANGE: a level takes effect in the FC cycle after its cause. -/
def execLevelChange (die : Fin 5) (s : State) : Host.Outcome State Fault Refusal :=
  s.onDev (fun d => if d.ket.off then d else setLevel d die)

/-- A die temperature held in 8 bits, in °C. -/
def temp8 (t : Int) : Nat := wrapInt 8 (max (-128) (min 127 t))

/-- One sensor is read. -/
def readSensor (d : Dev) (i : Nat) (t : Int) : Dev :=
  let d := wf d (Rg.PWR_TEMP i) Fl.PWR_TEMP_TEMP (temp8 t)
  let was := tget zeroN d.ket.dieTherm i
  let l := thermLevel (rd d Rg.PWR_DIE_T) (rf d Rg.PWR_THYST Fl.PWR_THYST_HYST) was t
  let d := modKet d (fun k => { k with dieTherm := tset zeroN k.dieTherm i l })
  probeMax (markHot d i (115 ≤ t)) 11 i t

/-- SENSOR_READ: the 64 die sensors. -/
def execSensorRead (temps : List (BitVec 16)) (s : State) : Host.Outcome State Fault Refusal :=
  s.onDev (fun d =>
    if d.ket.off || temps.length != 64 then d
    else
      let was := causeBits d
      thermOnset was (temps.zipIdx.foldl (fun d e => readSensor d e.2 e.1.toInt) d))

/-- HBM_TEMP_READ: at or above 85 °C refresh runs at half the interval, until below 80 °C; the Kettle takes the temperature. -/
def execHbmTempRead (stack : Stack) (temp : BitVec 8) (s : State) : Host.Outcome State Fault Refusal :=
  s.onDev (fun d =>
    if d.ket.off || stackState d stack == 0 then d
    else
      let t := temp.toInt
      let r := Rg.HBM_STATUS stack
      let was := causeBits d
      let d := wf d r Fl.HBM_STATUS_TEMP temp.toNat
      let hot := rb d r Fl.HBM_STATUS_HOT
      let now := if 85 ≤ t then true else if t < 80 then false else hot
      let d := wf d r Fl.HBM_STATUS_HOT (b2n now)
      let d := if now && !hot then raise d (hbmPage stack) 4 else d
      let l := thermLevel (rd d Rg.PWR_HBM_T) (rf d Rg.PWR_THYST Fl.PWR_THYST_HYST) (tget zeroN d.ket.hbmTherm stack) t
      let d := modKet d (fun k => { k with hbmTherm := tset zeroN k.hbmTherm stack l })
      thermOnset was (probeMax (markHot d (64 + stack.val) (110 ≤ t)) 11 (64 + stack.val) t))

/-- `t` µs have passed since `x`, in the half-open sense of R7. -/
def heldFor (d : Dev) (x : Option Nat) (t : Nat) : Bool := match x with | some a => a + 1000 * t ≤ nowNs d | none => false

/-- CRANK: VIN is read below 6.0 V; it has been so for CRANK_US: the crank cause begins. -/
def execCrank (mv : Nat) (s : State) : Host.Outcome State Fault Refusal :=
  s.onDev (fun d =>
    if d.ket.off || 6000 ≤ mv then d
    else
      let d := readVin d mv
      if d.ket.crank || !heldFor d d.ket.below6 (rf d Rg.PWR_CRANK Fl.PWR_CRANK_CRANK_US) then d
      else pwrEvent (bump (modKet d (fun k => { k with crank := true })) Rg.PWR_CRANK_CNT 1) 1)

/-- VIN_LOW: VIN is below 4.5 V. -/
def execVinLow (mv : Nat) (s : State) : Host.Outcome State Fault Refusal :=
  s.onDev (fun d =>
    if d.ket.off || 4500 ≤ mv then d
    else
      let d := readVin d mv
      if d.ket.vinLow then d else pwrEvent (bump (modKet d (fun k => { k with vinLow := true })) Rg.PWR_VIN_LOW_CNT 1) 2)

/-- VIN_CLEAR: VIN is read; a cause ends when it has been at or above its threshold for CLEAR_US. -/
def execVinClear (mv : Nat) (s : State) : Host.Outcome State Fault Refusal :=
  s.onDev (fun d =>
    if d.ket.off then d
    else
      let d := readVin d mv
      let us := rf d Rg.PWR_CRANK Fl.PWR_CRANK_CLEAR_US
      let d0 := d
      modKet d (fun k => { k with crank := k.crank && !heldFor d0 d0.ket.above6 us, vinLow := k.vinLow && !heldFor d0 d0.ket.above45 us }))

/-- CAP_WINDOW: the average input power, in mW, of the 1 ms window that has ended, which is judged once. -/
def execCapWindow (mw : Nat) (s : State) : Host.Outcome State Fault Refusal :=
  s.onDev (fun d =>
    if d.ket.off || nowNs d / 1000000 == d.ket.capAt then d
    else
      let d := modKet d (fun k => { k with capAt := nowNs d / 1000000 })
      let cap := rf d Rg.PWR_CAP Fl.PWR_CAP_CAP_W
      let d := probeMax (wf d Rg.PWR_INPUT Fl.PWR_INPUT_INPUT_DW (min 65535 (mw / 100))) 10 0 (mw / 100)
      if 1000 * cap < mw then
        if d.ket.capLevel < 3 then pwrEvent (bump (modKet d (fun k => { k with capLevel := k.capLevel + 1 })) Rg.PWR_CAP_CNT 1) 5 else d
      else if mw < 950 * cap then modKet d (fun k => { k with capLevel := k.capLevel - 1 })
      else d)

/-- PHASE_LIMIT: level 2, or 3 while its current exceeds the rating of its remaining phases; 0 once the rail is restored. -/
def execPhaseLimit (rail : Nat) (level : Nat) (s : State) : Host.Outcome State Fault Refusal :=
  s.onDev (fun d =>
    let was := tget zeroN d.ket.rails rail
    let put (l : Nat) : Dev := modKet d (fun k => { k with rails := tset zeroN k.rails rail l })
    if d.ket.off then d
    else if !railShort d rail then put 0
    else if level == 2 || level == 3 then (if was == 0 then pwrEvent (put level) 7 else put level)
    else d)

/-! ## Shutdowns (R455, R456) -/

/-- SHUTDOWN: VIN is below 4.2 V. -/
def execShutdown (mv : Nat) (s : State) : Host.Outcome State Fault Refusal :=
  if s.dev.ket.off || 4200 ≤ mv then s.onDev (fun d => d)
  else s.onMem (fun _ d => ([], retainedShutdown (readVin d mv)))

/-- THERMAL_TRIP: a sensor (0 to 63) or stack (64 to 67) has been at its trip temperature for 1 ms: ALARM_N low, the shutdown with
VIN present, and off until PORST_N or a cycle of EN. -/
def execThermalTrip (sensor : Fin 68) (s : State) : Host.Outcome State Fault Refusal :=
  match s.dev.ket.off, tget (fun _ => none) s.dev.ket.hot sensor with
  | false, some t =>
    if 1000000 ≤ elapsed (nowNs s.dev) t then
      s.onMem (fun _ d => ([], watchAlarm (retainedShutdown (addLog (modKet d (fun k => { k with tripped := true })) 3 0))))
    else s.onDev (fun d => d)
  | _, _ => s.onDev (fun d => d)

/-! ## Units (R448, R449) -/

def execUnitNap (u : Nat) (s : State) : Host.Outcome State Fault Refusal :=
  s.onDev (fun d =>
    if d.ket.off || !unitExists d u || !unitIdle d u || unitState d u != 0 then d
    else
      let d := modUnit d u (fun x => { x with idle := x.idle.or (some (nowNs d)) })
      if rb d Rg.PWR_UNIT_EN Fl.PWR_UNIT_EN_NAP_EN then setUnit d u 1 else d)

/-- The unit has been idle for `ns`. -/
def idleFor (d : Dev) (u ns : Nat) : Bool :=
  unitIdle d u && (match (tget unitDflt d.ket.units u).idle with | some t => ns ≤ elapsed (nowNs d) t | none => false)

def execUnitDoze (u : Nat) (s : State) : Host.Outcome State Fault Refusal :=
  s.onDev (fun d =>
    if !d.ket.off && unitExists d u && unitState d u < 2 && rb d Rg.PWR_UNIT_EN Fl.PWR_UNIT_EN_DOZE_EN && !unitStays d u && idleFor d u 10000 then
      setUnit d u 2
    else d)

/-- What a unit loses in DORMANT: a core its memories but not its instruction banks. -/
def loseUnit (d : Dev) (u : Nat) : Dev :=
  if u < 132 then (List.range 4).foldl (fun d sp => clearSram d (cidPlace u) (coreArr u sp)) d else d

/-- UNIT_DORMANT: a core, a lane group or a table bank; the four HBM stacks together, whose blocks then read 0 (R340, R540). -/
def execUnitDormant (u : Nat) (s : State) : Host.Outcome State Fault Refusal :=
  s.onMem (fun m d =>
    if !d.ket.off && unitExists d u && unitState d u < 3 && rb d Rg.PWR_UNIT_EN Fl.PWR_UNIT_EN_DORMANT_EN && !unitStays d u &&
        unitEmpty d u && idleFor d u 2000000 then
      if 132 ≤ u && u < 136 then
        (m.filter (fun e => hbmEnd ≤ e.1), (List.range 4).foldl (fun d k => if unitExists d (stackUnit k) then setUnit d (stackUnit k) 3 else d)
          (emptyHbm d))
      else (m, loseUnit (setUnit d u 3) u)
    else (m, d))

def execUnitWake (u : Nat) (s : State) : Host.Outcome State Fault Refusal :=
  s.onDev (fun d =>
    if d.ket.off || !unitExists d u then d
    else
      let woke := modUnit (if unitState d u == 0 then d else setUnit d u 0) u (fun _ => {})
      -- the blocks of a stack that was DORMANT are cleared (R540)
      if 132 ≤ u && u < 136 && unitState d u == 3 then clearStack woke (u - 132) else woke)

/-! ## Device states (R450 to R452) -/

/-- The device enters SLEEP or DEEP SLEEP: stacks with empty queues go into self-refresh. -/
def enterState (d : Dev) (st : Nat) : Dev :=
  if rf d Rg.PWR_STATE Fl.PWR_STATE_STATE == st then d
  else
    let d := (List.range 4).foldl (fun d k =>
      if 2 ≤ stackState d k && stackState d k ≤ 4 && stackIdle d k then wf d (Rg.HBM_STATUS k) Fl.HBM_STATUS_STATE (if st == 1 then 4 else 5) else d) d
    pwrEvent (bump (wf d Rg.PWR_STATE Fl.PWR_STATE_STATE st) (if st == 1 then Rg.PWR_SLEEP_ENTRIES else Rg.PWR_DEEP_ENTRIES) 1) 6

/-- STATE_SELECT: the deepest state whose condition holds and for which the time to the next known event suffices. -/
def stateSelect (d : Dev) : Dev :=
  let e := eventAsleep d
  let t := e.map (fun x => x.1 - nowNs d)
  let d := wr d Rg.PWR_NEXT (BitVec.ofNat 32 (match nextEvent d with
    | some (x, src) => min (2 ^ 28 - 1) ((x - nowNs d) / 1000) + src * 2 ^ 28
    | none => 2 ^ 28 - 1))
  let ok (s : Nat) : Bool := mayEnter d s && longEnough t s
  let best := if ok 2 then 2 else if ok 1 then 1 else 0
  if best == 0 then wakeDev d
  else modKet (enterState d best) (fun k => { k with wakeAt := e.map (fun x => x.1 - 11 * wakeNs best / 10) })
def execStateSelect (s : State) : Host.Outcome State Fault Refusal := s.onDev (fun d => if d.ket.off then d else stateSelect d)

/-- A wake: known events due before RUN is reached count as late. -/
def wakeNow (d : Dev) : Dev :=
  let st := rf d Rg.PWR_STATE Fl.PWR_STATE_STATE
  if st == 0 then d
  else
    let n := ((knownEvents d).filter (fun e => e.1 < nowNs d + wakeNs st)).length
    wakeDev (if n == 0 then d else bump d Rg.PWR_WAKE_LATE n)

/-- WAKE: a frame, WAKE_N, an event with WAKE_EN, an access to a stopped page, or a change of a condition of R450. -/
def execWake (_cause : Nat) (s : State) : Host.Outcome State Fault Refusal := s.onDev (fun d => if d.ket.off then d else wakeNow d)

def execWakeAt (s : State) : Host.Outcome State Fault Refusal :=
  s.onDev (fun d => match d.ket.wakeAt with | some t => if t ≤ nowNs d then wakeNow d else d | none => d)

end Sys2Proof.Machine
end

