-- ==== Sys2Proof/Machine/Twin.lean ====
section
/-!
DEFINITION. The commands of the twin pair (R488 to R494).
-/

namespace Sys2Proof.Machine
open Sys2Proof

/-- HEARTBEAT_SEND: every 10 µs while EN = 1 and the link is UP. -/
def execHeartbeatSend (s : State) : Host.Outcome State Fault Refusal :=
  s.onDev (fun d =>
    let due := match d.twin.sentAt with | some t => decide (10000 ≤ elapsed (nowNs d) t) | none => true
    if !d.ket.off && twinEn d && twinLinkUp d && due then
      emit (modTwin d (fun w => { w with sentAt := some (nowNs d) })) (.heartbeat (twinState d) (strapPrimary d) Config.serial d.twin.own.length)
    else d)

/-- Roles from a heartbeat: with the same role on both sides the lower serial number acts as primary (R490). -/
def heartbeatRole (d : Dev) (primary : Bool) (serial : W64) : Dev :=
  let conflict := primary == strapPrimary d
  let was := rb d Rg.TWN_STATUS Fl.TWN_STATUS_ROLE_CONFLICT
  let acts := if conflict then decide (Config.serial.toNat < serial.toNat) else strapPrimary d
  let d := wf (wf d Rg.TWN_STATUS Fl.TWN_STATUS_ROLE_CONFLICT (b2n conflict)) Rg.TWN_STATUS Fl.TWN_STATUS_ROLE (b2n acts)
  blockDual (if conflict && !was then twnEvent d 1 else d)

/-- HEARTBEAT: received over the link. From SPLIT or PARTNER_LOST the module joins again. -/
def execHeartbeat (_state : Nat) (primary : Bool) (serial : W64) (jsize : Nat) (s : State) : Host.Outcome State Fault Refusal :=
  s.onDev (fun d =>
    if d.ket.off || !twinEn d || !twinLinkUp d then d
    else
      let d := modTwin (bump d Rg.TWN_HB_RX 1) (fun w => { w with hbAt := some (nowNs d), partner := jsize })
      let d := heartbeatRole (wr64 d Rg.TWN_PARTNER_LO Rg.TWN_PARTNER_HI serial.toNat) primary serial
      if twinState d == 3 || twinState d == 4 then twinEnter d 1 else d)

/-- HEARTBEAT_LOSS: 30 µs after the last heartbeat received in PAIRED (the link then counts as lost, log 47). -/
def execHeartbeatLoss (s : State) : Host.Outcome State Fault Refusal :=
  s.onDev (fun d =>
    match d.twin.hbAt with
    | some t =>
      if !d.ket.off && twinState d == 2 && t + 30000 ≤ nowNs d then
        let d := wr (wf d Rg.TWN_STATUS Fl.TWN_STATUS_LINK_UP 0) Rg.TWN_LANES 0
        twinApart (modTwin d (fun w => { w with hbAt := none, retryAt := nowNs d }))
      else d
    | none => d)

/-- ALIVE_CHANGE: TWIN_ALIVE_IN becomes alive or silent. -/
def execAliveChange (alive : Bool) (s : State) : Host.Outcome State Fault Refusal :=
  s.onDev (fun d =>
    let d := wf d Rg.TWN_STATUS Fl.TWN_STATUS_ALIVE_IN (b2n alive)
    if d.ket.off || !twinEn d then d
    else if alive && twinState d == 4 then twinEnter d 1
    else if !alive && twinState d == 3 then twinEnter d 4
    else d)

def execJoinTimeout (s : State) : Host.Outcome State Fault Refusal :=
  s.onDev (fun d =>
    if !d.ket.off && twinState d == 1 && rf d Rg.TWN_CTRL Fl.TWN_CTRL_JOIN_MS * 1000000 ≤ elapsed (nowNs d) d.twin.joinAt then twinApart d else d)

/-- Lanes that hold lock: at least four in each direction. -/
def enoughLanes (lanes : BitVec 16) : Bool :=
  4 ≤ (bitsOf (lanes.toNat % 256) 8).length && 4 ≤ (bitsOf (lanes.toNat / 256) 8).length

/-- TWIN_RETRY: every RETRY_MS while the link is not UP in JOINING, SPLIT or PARTNER_LOST; `lanes` as TWN_LANES. -/
def execTwinRetry (lanes : BitVec 16) (s : State) : Host.Outcome State Fault Refusal :=
  s.onDev (fun d =>
    let st := twinState d
    if !d.ket.off && (st == 1 || st == 3 || st == 4) && !twinLinkUp d &&
        rf d Rg.TWN_CTRL Fl.TWN_CTRL_RETRY_MS * 1000000 ≤ elapsed (nowNs d) d.twin.retryAt then
      let d := wr (modTwin d (fun w => { w with retryAt := nowNs d })) Rg.TWN_LANES (lanes.setWidth 32)
      wf d Rg.TWN_STATUS Fl.TWN_STATUS_LINK_UP (b2n (enoughLanes lanes))
    else d)

/-- SYNC_RECORD: a record of the partner in PAIRED; it is not sent back. -/
def execSyncRecord (r : SyncRec) (s : State) : Host.Outcome State Fault Refusal :=
  s.onDevF (fun d => if d.ket.off || twinState d != 2 then d else takeRec (bump d Rg.TWN_SYNC_RX 1) r)

/-- The partner has acknowledged the oldest record sent. -/
def execSyncAcknowledgement (s : State) : Host.Outcome State Fault Refusal :=
  s.onDev (fun d => if twinState d == 2 then modTwin d (fun w => { w with own := w.own.drop 1 }) else d)

/-- RECONCILED: `partner` is the partner's journal, or, when either journal has overflowed (`whole`), the primary's synced tables,
which the secondary takes in place of its own. -/
def execReconciled (partner : List SyncRec) (whole : Bool) (s : State) : Host.Outcome State Fault Refusal :=
  s.onDevF (fun d =>
    if d.ket.off || twinState d != 1 || !twinLinkUp d then d
    else
      let all := whole || rb d Rg.TWN_STATUS Fl.TWN_STATUS_JOURNAL_OVF
      let d := if all then
          (if actsPrimary d then d else partner.foldl applyRec ((List.range 32).foldl (fun d t => dropUnlisted d partner t) d))
        else (latestOf partner).foldl takeRec d
      let d := modTwin (wf d Rg.TWN_STATUS Fl.TWN_STATUS_JOURNAL_OVF 0) (fun w => { w with own := [], left := false, hbAt := w.hbAt.or (some (nowNs d)) })
      twnEvent (twinEnter d 2) 3)

/-- PORT_OPEN: at a commit boundary a port of an open zone, all its lanes locked and its quad not held, opens (R70, R72, R471); a port
in standby-blocking resumes where its module forwards on it (R492). -/
def execPortOpen (p : Port) (s : State) : Host.Outcome State Fault Refusal :=
  s.onDev (fun d =>
    let all := 2 ^ (portLanes d p).length - 1
    if portBegins d p && (port d p).locks &&& all == all && !quadHeld d (p.val / 4) && d.life.zopen.testBit (portZone p) && !coasting d then
      modPort d p (fun x => { x with opened := true, blocked := twinBlocks d && dualPort d p })
    else d)

end Sys2Proof.Machine
end

