-- ==== Sys2Proof/Machine/Dispatch.lean ====
section
/-!
DEFINITION. The dispatch: one arm per command of the opcode table, each one call of its meaning.
-/

namespace Sys2Proof.Machine
open Sys2Proof

def exec (i : Instr) (s : State) : Host.Outcome State Fault Refusal :=
  match i with
  | .registerWrite addr ws => Sys2Proof.Machine.execRegisterWrite addr ws s
  | .unimplementedPageAccess addr m write => Sys2Proof.Machine.execUnimplementedPageAccess addr m write s
  | .counterLoRead addr m => Sys2Proof.Machine.execCounterLoRead addr m s
  | .rcRead addr r => Sys2Proof.Machine.execRcRead addr r s
  | .hold page m => Sys2Proof.Machine.execHold page m s
  | .held page => Sys2Proof.Machine.execHeld page s
  | .holdRelease page m => Sys2Proof.Machine.execHoldRelease page m s
  | .commit page m => Sys2Proof.Machine.execCommit page m s
  | .commitBoundary page => Sys2Proof.Machine.execCommitBoundary page s
  | .discard page m => Sys2Proof.Machine.execDiscard page m s
  | .intForce page m v => Sys2Proof.Machine.execIntForce page m v s
  | .groupHold m epochEn => Sys2Proof.Machine.execGroupHold m epochEn s
  | .groupHoldRelease m epochEn => Sys2Proof.Machine.execGroupHoldRelease m epochEn s
  | .groupCommit m hold epochEn => Sys2Proof.Machine.execGroupCommit m hold epochEn s
  | .groupCancel m hold epochEn commit => Sys2Proof.Machine.execGroupCancel m hold epochEn commit s
  | .epochAction => Sys2Proof.Machine.execEpochAction s
  | .groupPageWrite ix m v => Sys2Proof.Machine.execGroupPageWrite ix m v s
  | .retrain z m => Sys2Proof.Machine.execRetrain z m s
  | .isolate z m on => Sys2Proof.Machine.execIsolate z m on s
  | .flitReceive z toHub head bits crcOk => Sys2Proof.Machine.execFlitReceive z toHub head bits crcOk s
  | .replayAttribution z toHub => Sys2Proof.Machine.execReplayAttribution z toHub s
  | .zoneIsolate z cause => Sys2Proof.Machine.execZoneIsolate z cause s
  | .linkPrbsPass z => Sys2Proof.Machine.execLinkPrbsPass z s
  | .linkRetry z => Sys2Proof.Machine.execLinkRetry z s
  | .rebuilt z => Sys2Proof.Machine.execRebuilt z s
  | .liMeasure e p0 p1 => Sys2Proof.Machine.execLiMeasure e p0 p1 s
  | .liSwitchover e ix pw => Sys2Proof.Machine.execLiSwitchover e ix pw s
  | .liRecover e ix => Sys2Proof.Machine.execLiRecover e ix s
  | .liRotate e => Sys2Proof.Machine.execLiRotate e s
  | .li0Restore e m => Sys2Proof.Machine.execLi0Restore e m s
  | .li1Restore e m => Sys2Proof.Machine.execLi1Restore e m s
  | .interlockHigh nack => Sys2Proof.Machine.execInterlockHigh nack s
  | .interlockLow nack => Sys2Proof.Machine.execInterlockLow nack s
  | .laneOverpower l => Sys2Proof.Machine.execLaneOverpower l s
  | .heaterRetune l heater inWindow locked => Sys2Proof.Machine.execHeaterRetune l heater inWindow locked s
  | .fecCodeword p w => Sys2Proof.Machine.execFecCodeword p w s
  | .linkChange p locks localFault remoteFault => Sys2Proof.Machine.execLinkChange p locks localFault remoteFault s
  | .portOpen p => Sys2Proof.Machine.execPortOpen p s
  | .frameReceive p bytes uncorr sfd lastBit => Sys2Proof.Machine.execFrameReceive p bytes uncorr sfd lastBit s
  | .pauseExpiry p c => Sys2Proof.Machine.execPauseExpiry p c s
  | .xoff p => Sys2Proof.Machine.execXoff p s
  | .xoffRepeat p => Sys2Proof.Machine.execXoffRepeat p s
  | .shedCount z => Sys2Proof.Machine.execShedCount z s
  | .parse z pl => Sys2Proof.Machine.execParse z pl s
  | .parseDone z pl => Sys2Proof.Machine.execParseDone z pl s
  | .cellWrite z pl cells => Sys2Proof.Machine.execCellWrite z pl cells s
  | .puntPolicerRefill z => Sys2Proof.Machine.execPuntPolicerRefill z s
  | .flightClose z pl express => Sys2Proof.Machine.execFlightClose z pl express s
  | .dispatch z => Sys2Proof.Machine.execDispatch z s
  | .kernelGive place => Sys2Proof.Machine.execKernelGive place s
  | .expressWindow z => Sys2Proof.Machine.execExpressWindow z s
  | .activeGrow z => Sys2Proof.Machine.execActiveGrow z s
  | .activeShrink z => Sys2Proof.Machine.execActiveShrink z s
  | .flightStart z core t => Sys2Proof.Machine.execFlightStart z core t s
  | .flightRebuild z entry => Sys2Proof.Machine.execFlightRebuild z entry s
  | .piRaise c t => Sys2Proof.Machine.execPiRaise c t s
  | .levelChange die => Sys2Proof.Machine.execLevelChange die s
  | .opNop c t f => Sys2Proof.Machine.execOpNop c t f s
  | .opLd c t f => Sys2Proof.Machine.execOpLd c t f s
  | .opLds c t f => Sys2Proof.Machine.execOpLds c t f s
  | .opSt c t f => Sys2Proof.Machine.execOpSt c t f s
  | .opXld c t f => Sys2Proof.Machine.execOpXld c t f s
  | .opYld c t f => Sys2Proof.Machine.execOpYld c t f s
  | .opXst c t f => Sys2Proof.Machine.execOpXst c t f s
  | .opYst c t f => Sys2Proof.Machine.execOpYst c t f s
  | .opXset c t f => Sys2Proof.Machine.execOpXset c t f s
  | .opYset c t f => Sys2Proof.Machine.execOpYset c t f s
  | .opXget c t f => Sys2Proof.Machine.execOpXget c t f s
  | .opYget c t f => Sys2Proof.Machine.execOpYget c t f s
  | .opXadd c t f => Sys2Proof.Machine.execOpXadd c t f s
  | .opYadd c t f => Sys2Proof.Machine.execOpYadd c t f s
  | .opLdf c t f => Sys2Proof.Machine.execOpLdf c t f s
  | .opStf c t f => Sys2Proof.Machine.execOpStf c t f s
  | .opAdd c t f => Sys2Proof.Machine.execOpAdd c t f s
  | .opAdc c t f => Sys2Proof.Machine.execOpAdc c t f s
  | .opSub c t f => Sys2Proof.Machine.execOpSub c t f s
  | .opSbc c t f => Sys2Proof.Machine.execOpSbc c t f s
  | .opNeg c t f => Sys2Proof.Machine.execOpNeg c t f s
  | .opCmp c t f => Sys2Proof.Machine.execOpCmp c t f s
  | .opTst c t f => Sys2Proof.Machine.execOpTst c t f s
  | .opMin c t f => Sys2Proof.Machine.execOpMin c t f s
  | .opMax c t f => Sys2Proof.Machine.execOpMax c t f s
  | .opMinu c t f => Sys2Proof.Machine.execOpMinu c t f s
  | .opMaxu c t f => Sys2Proof.Machine.execOpMaxu c t f s
  | .opMul c t f => Sys2Proof.Machine.execOpMul c t f s
  | .opMulh c t f => Sys2Proof.Machine.execOpMulh c t f s
  | .opMulhu c t f => Sys2Proof.Machine.execOpMulhu c t f s
  | .opDiv c t f => Sys2Proof.Machine.execOpDiv c t f s
  | .opDivu c t f => Sys2Proof.Machine.execOpDivu c t f s
  | .opRem c t f => Sys2Proof.Machine.execOpRem c t f s
  | .opRemu c t f => Sys2Proof.Machine.execOpRemu c t f s
  | .divisionReady c t => Sys2Proof.Machine.execDivisionReady c t s
  | .opAnd c t f => Sys2Proof.Machine.execOpAnd c t f s
  | .opOr c t f => Sys2Proof.Machine.execOpOr c t f s
  | .opXor c t f => Sys2Proof.Machine.execOpXor c t f s
  | .opNot c t f => Sys2Proof.Machine.execOpNot c t f s
  | .opShl c t f => Sys2Proof.Machine.execOpShl c t f s
  | .opShr c t f => Sys2Proof.Machine.execOpShr c t f s
  | .opSar c t f => Sys2Proof.Machine.execOpSar c t f s
  | .opRol c t f => Sys2Proof.Machine.execOpRol c t f s
  | .opRor c t f => Sys2Proof.Machine.execOpRor c t f s
  | .opPopc c t f => Sys2Proof.Machine.execOpPopc c t f s
  | .opClz c t f => Sys2Proof.Machine.execOpClz c t f s
  | .opCtz c t f => Sys2Proof.Machine.execOpCtz c t f s
  | .opBswap c t f => Sys2Proof.Machine.execOpBswap c t f s
  | .opSext c t f => Sys2Proof.Machine.execOpSext c t f s
  | .opZext c t f => Sys2Proof.Machine.execOpZext c t f s
  | .opCadd c t f => Sys2Proof.Machine.execOpCadd c t f s
  | .opCset c t f => Sys2Proof.Machine.execOpCset c t f s
  | .opCget c t f => Sys2Proof.Machine.execOpCget c t f s
  | .opSetp c t f => Sys2Proof.Machine.execOpSetp c t f s
  | .opKill c t f => Sys2Proof.Machine.execOpKill c t f s
  | .opLdp c t f => Sys2Proof.Machine.execOpLdp c t f s
  | .opBr c t f => Sys2Proof.Machine.execOpBr c t f s
  | .opBc c t f => Sys2Proof.Machine.execOpBc c t f s
  | .opCall c t f => Sys2Proof.Machine.execOpCall c t f s
  | .opRet c t f => Sys2Proof.Machine.execOpRet c t f s
  | .opBhb c t f => Sys2Proof.Machine.execOpBhb c t f s
  | .opPush c t f => Sys2Proof.Machine.execOpPush c t f s
  | .opPop c t f => Sys2Proof.Machine.execOpPop c t f s
  | .opDrops c t f => Sys2Proof.Machine.execOpDrops c t f s
  | .opFork c t f => Sys2Proof.Machine.execOpFork c t f s
  | .opJoin c t f => Sys2Proof.Machine.execOpJoin c t f s
  | .joinComplete c t => Sys2Proof.Machine.execJoinComplete c t s
  | .opYield c t f => Sys2Proof.Machine.execOpYield c t f s
  | .opWait c t f => Sys2Proof.Machine.execOpWait c t f s
  | .opDone c t f => Sys2Proof.Machine.execOpDone c t f s
  | .doneComplete c t => Sys2Proof.Machine.execDoneComplete c t s
  | .opPost c t f => Sys2Proof.Machine.execOpPost c t f s
  | .opPrio c t f => Sys2Proof.Machine.execOpPrio c t f s
  | .opDrop c t f => Sys2Proof.Machine.execOpDrop c t f s
  | .opPunt c t f => Sys2Proof.Machine.execOpPunt c t f s
  | .opTrap c t f => Sys2Proof.Machine.execOpTrap c t f s
  | .opRett c t f => Sys2Proof.Machine.execOpRett c t f s
  | .opCsrr c t f => Sys2Proof.Machine.execOpCsrr c t f s
  | .opCsrw c t f => Sys2Proof.Machine.execOpCsrw c t f s
  | .opFence c t f => Sys2Proof.Machine.execOpFence c t f s
  | .fenceDone c t => Sys2Proof.Machine.execFenceDone c t s
  | .opHalt c t f => Sys2Proof.Machine.execOpHalt c t f s
  | .illegalOp c t w => Sys2Proof.Machine.execIllegalOp c t w s
  | .helperRefused c t w => Sys2Proof.Machine.execHelperRefused c t w s
  | .srch c t sel id => Sys2Proof.Machine.execSrch c t sel id s
  | .srchNoRefresh c t sel id => Sys2Proof.Machine.execSrchNoRefresh c t sel id s
  | .srchx c t noRefresh sel id => Sys2Proof.Machine.execSrchx c t noRefresh sel id s
  | .insrt c t sel id => Sys2Proof.Machine.execInsrt c t sel id s
  | .insrtOnly c t sel id => Sys2Proof.Machine.execInsrtOnly c t sel id s
  | .insrtUpdate c t sel id => Sys2Proof.Machine.execInsrtUpdate c t sel id s
  | .del c t sel id => Sys2Proof.Machine.execDel c t sel id s
  | .hashCrc32c c t sel id => Sys2Proof.Machine.execHashCrc32c c t sel id s
  | .hashSeeded c t sel id => Sys2Proof.Machine.execHashSeeded c t sel id s
  | .hashToeplitz c t sel id => Sys2Proof.Machine.execHashToeplitz c t sel id s
  | .csumSum c t sel id => Sys2Proof.Machine.execCsumSum c t sel id s
  | .csumComplement c t sel id => Sys2Proof.Machine.execCsumComplement c t sel id s
  | .csumCrc32c c t sel id => Sys2Proof.Machine.execCsumCrc32c c t sel id s
  | .meterBlind c t sel id => Sys2Proof.Machine.execMeterBlind c t sel id s
  | .meterAware c t sel id => Sys2Proof.Machine.execMeterAware c t sel id s
  | .count c t sub sel id => Sys2Proof.Machine.execCount c t sub sel id s
  | .gld c t size sel id => Sys2Proof.Machine.execGld c t size sel id s
  | .gldRegister c t sel id => Sys2Proof.Machine.execGldRegister c t sel id s
  | .gst c t size sel id => Sys2Proof.Machine.execGst c t size sel id s
  | .gst16 c t sel id => Sys2Proof.Machine.execGst16 c t sel id s
  | .gstRegister c t sel id => Sys2Proof.Machine.execGstRegister c t sel id s
  | .gstImage c t sel id => Sys2Proof.Machine.execGstImage c t sel id s
  | .atomFetchAdd c t wide sel id => Sys2Proof.Machine.execAtomFetchAdd c t wide sel id s
  | .atomFetchAnd c t wide sel id => Sys2Proof.Machine.execAtomFetchAnd c t wide sel id s
  | .atomFetchOr c t wide sel id => Sys2Proof.Machine.execAtomFetchOr c t wide sel id s
  | .atomSwap c t wide sel id => Sys2Proof.Machine.execAtomSwap c t wide sel id s
  | .atomCompareSwap c t wide sel id => Sys2Proof.Machine.execAtomCompareSwap c t wide sel id s
  | .lock c t wide sel id => Sys2Proof.Machine.execLock c t wide sel id s
  | .unlk c t sel id => Sys2Proof.Machine.execUnlk c t sel id s
  | .rand c t sel id => Sys2Proof.Machine.execRand c t sel id s
  | .tstampNs c t sel id => Sys2Proof.Machine.execTstampNs c t sel id s
  | .tstampFrac c t sel id => Sys2Proof.Machine.execTstampFrac c t sel id s
  | .mirr c t sel id => Sys2Proof.Machine.execMirr c t sel id s
  | .helperTake c h n => Sys2Proof.Machine.execHelperTake c h n s
  | .helperResult c t slot lane => Sys2Proof.Machine.execHelperResult c t slot lane s
  | .postedEffect c h => Sys2Proof.Machine.execPostedEffect c h s
  | .helperTimeout c t slot lane => Sys2Proof.Machine.execHelperTimeout c t slot lane s
  | .insertion p tbl => Sys2Proof.Machine.execInsertion p tbl s
  | .masterApply => Sys2Proof.Machine.execMasterApply s
  | .distributionWrite z => Sys2Proof.Machine.execDistributionWrite z s
  | .learnUpdate z => Sys2Proof.Machine.execLearnUpdate z s
  | .agingSweep p tbl pos => Sys2Proof.Machine.execAgingSweep p tbl pos s
  | .agedReport => Sys2Proof.Machine.execAgedReport s
  | .lockExpired p tbl r pos => Sys2Proof.Machine.execLockExpired p tbl r pos s
  | .dmaRead h ch q => Sys2Proof.Machine.execDmaRead h ch q s
  | .dmaReadLock h ch q => Sys2Proof.Machine.execDmaReadLock h ch q s
  | .dmaWrite h ch q => Sys2Proof.Machine.execDmaWrite h ch q s
  | .dmaWriteUnlock h ch q => Sys2Proof.Machine.execDmaWriteUnlock h ch q s
  | .dmaUnlock h ch q => Sys2Proof.Machine.execDmaUnlock h ch q s
  | .dmaInsert h ch q => Sys2Proof.Machine.execDmaInsert h ch q s
  | .dmaDelete h ch q => Sys2Proof.Machine.execDmaDelete h ch q s
  | .dmaSearch h ch q => Sys2Proof.Machine.execDmaSearch h ch q s
  | .dmaReadClear h ch q => Sys2Proof.Machine.execDmaReadClear h ch q s
  | .forceUnlock p tbl r at_ => Sys2Proof.Machine.execForceUnlock p tbl r at_ s
  | .tblHold z m v => Sys2Proof.Machine.execTblHold z m v s
  | .tblHeld z tbl => Sys2Proof.Machine.execTblHeld z tbl s
  | .rowFetch z tbl poss => Sys2Proof.Machine.execRowFetch z tbl poss s
  | .alloc z reqs => Sys2Proof.Machine.execAlloc z reqs s
  | .ownerTransfer z handle by_ dst => Sys2Proof.Machine.execOwnerTransfer z handle by_ dst s
  | .refAdd z handle m by_ => Sys2Proof.Machine.execRefAdd z handle m by_ s
  | .refDecrement z handle => Sys2Proof.Machine.execRefDecrement z handle s
  | .leakPass z => Sys2Proof.Machine.execLeakPass z s
  | .leakPassEnd z => Sys2Proof.Machine.execLeakPassEnd z s
  | .pageWrite z voq => Sys2Proof.Machine.execPageWrite z voq s
  | .refill z voq cells bad nextBad => Sys2Proof.Machine.execRefill z voq cells bad nextBad s
  | .urnPeek z m handle => Sys2Proof.Machine.execUrnPeek z m handle s
  | .logClear z m => Sys2Proof.Machine.execLogClear z m s
  | .reorderRelease z => Sys2Proof.Machine.execReorderRelease z s
  | .gap z d => Sys2Proof.Machine.execGap z d s
  | .expansion z => Sys2Proof.Machine.execExpansion z s
  | .mirrorExpansion z => Sys2Proof.Machine.execMirrorExpansion z s
  | .creditRequest z voq => Sys2Proof.Machine.execCreditRequest z voq s
  | .creditGrant p c => Sys2Proof.Machine.execCreditGrant p c s
  | .voqSend z voq => Sys2Proof.Machine.execVoqSend z voq s
  | .portSelect p => Sys2Proof.Machine.execPortSelect p s
  | .editDone p => Sys2Proof.Machine.execEditDone p s
  | .frameTransmit p => Sys2Proof.Machine.execFrameTransmit p s
  | .shaperRefill z => Sys2Proof.Machine.execShaperRefill z s
  | .gwrite m => Sys2Proof.Machine.execGwrite m s
  | .gread m => Sys2Proof.Machine.execGread m s
  | .mwrite m => Sys2Proof.Machine.execMwrite m s
  | .mread m => Sys2Proof.Machine.execMread m s
  | .edtWdata z m v => Sys2Proof.Machine.execEdtWdata z m v s
  | .hbmRequest pc bank => Sys2Proof.Machine.execHbmRequest pc bank s
  | .hbmPromote pc bank idx => Sys2Proof.Machine.execHbmPromote pc bank idx s
  | .hammerWindow stack => Sys2Proof.Machine.execHammerWindow stack s
  | .refresh pc bank => Sys2Proof.Machine.execRefresh pc bank s
  | .hbmTempRead stack temp => Sys2Proof.Machine.execHbmTempRead stack temp s
  | .hbmTraining x => Sys2Proof.Machine.execHbmTraining x s
  | .readEyeTrack stack => Sys2Proof.Machine.execReadEyeTrack stack s
  | .patrolScrub pc block => Sys2Proof.Machine.execPatrolScrub pc block s
  | .migration pc => Sys2Proof.Machine.execMigration pc s
  | .migrationDone pc => Sys2Proof.Machine.execMigrationDone pc s
  | .hbmRestore pc m => Sys2Proof.Machine.execHbmRestore pc m s
  | .hbmRestoreDone pc ok => Sys2Proof.Machine.execHbmRestoreDone pc ok s
  | .arbRequest res reqs rels => Sys2Proof.Machine.execArbRequest res reqs rels s
  | .wdBite res requester => Sys2Proof.Machine.execWdBite res requester s
  | .requesterRestore m => Sys2Proof.Machine.execRequesterRestore m s
  | .clearMax m => Sys2Proof.Machine.execClearMax m s
  | .arbReqSel m v => Sys2Proof.Machine.execArbReqSel m v s
  | .lkuPeek m hi v => Sys2Proof.Machine.execLkuPeek m hi v s
  | .lockGrant addr => Sys2Proof.Machine.execLockGrant addr s
  | .lockRelease addr => Sys2Proof.Machine.execLockRelease addr s
  | .longHold addr => Sys2Proof.Machine.execLongHold addr s
  | .lkAcquire h ix => Sys2Proof.Machine.execLkAcquire h ix s
  | .lkAcquireTimeout h ix => Sys2Proof.Machine.execLkAcquireTimeout h ix s
  | .lkRelease h ix => Sys2Proof.Machine.execLkRelease h ix s
  | .lkCancel h ix => Sys2Proof.Machine.execLkCancel h ix s
  | .lkAddrWrite h ix hi v => Sys2Proof.Machine.execLkAddrWrite h ix hi v s
  | .fault chan f => Sys2Proof.Machine.execFault chan f s
  | .suspectExpiry chan => Sys2Proof.Machine.execSuspectExpiry chan s
  | .parityError unit repeatFails => Sys2Proof.Machine.execParityError unit repeatFails s
  | .sramScrub pl inst word => Sys2Proof.Machine.execSramScrub pl inst word s
  | .mergeTimeout pl inst => Sys2Proof.Machine.execMergeTimeout pl inst s
  | .rowCopyDone chan => Sys2Proof.Machine.execRowCopyDone chan s
  | .retirementJournal => Sys2Proof.Machine.execRetirementJournal s
  | .pwTestWrite pl m => Sys2Proof.Machine.execPwTestWrite pl m s
  | .pwTestRead pl m => Sys2Proof.Machine.execPwTestRead pl m s
  | .restore m => Sys2Proof.Machine.execRestore m s
  | .shadowEnd chan pass => Sys2Proof.Machine.execShadowEnd chan pass s
  | .shadowRunEnd z => Sys2Proof.Machine.execShadowRunEnd z s
  | .puntDoorbell h r nbytes v => Sys2Proof.Machine.execPuntDoorbell h r nbytes v s
  | .injectDoorbell h r nbytes v => Sys2Proof.Machine.execInjectDoorbell h r nbytes v s
  | .tdmaDoorbell h r nbytes v => Sys2Proof.Machine.execTdmaDoorbell h r nbytes v s
  | .eventDoorbell h r nbytes v => Sys2Proof.Machine.execEventDoorbell h r nbytes v s
  | .bar2HoleAccess h off write => Sys2Proof.Machine.execBar2HoleAccess h off write s
  | .puntDone h r desc readErr => Sys2Proof.Machine.execPuntDone h r desc readErr s
  | .injectDirect h r desc bytes cells readErr => Sys2Proof.Machine.execInjectDirect h r desc bytes cells readErr s
  | .injectPipeline h r desc bytes readErr => Sys2Proof.Machine.execInjectPipeline h r desc bytes readErr s
  | .noCells h r desc => Sys2Proof.Machine.execNoCells h r desc s
  | .moderationTimer h kind ring => Sys2Proof.Machine.execModerationTimer h kind ring s
  | .vectorUnmask h v => Sys2Proof.Machine.execVectorUnmask h v s
  | .d3hot h pmeEn => Sys2Proof.Machine.execD3hot h pmeEn s
  | .d0Return h => Sys2Proof.Machine.execD0Return h s
  | .functionReset h => Sys2Proof.Machine.execFunctionReset h s
  | .ringEnable h kind ring m => Sys2Proof.Machine.execRingEnable h kind ring m s
  | .i3cRead addr n => Sys2Proof.Machine.execI3cRead addr n s
  | .i3cWrite addr words => Sys2Proof.Machine.execI3cWrite addr words s
  | .i3cStatus => Sys2Proof.Machine.execI3cStatus s
  | .entdaa da => Sys2Proof.Machine.execEntdaa da s
  | .setdasa da => Sys2Proof.Machine.execSetdasa da s
  | .setnewda da => Sys2Proof.Machine.execSetnewda da s
  | .rstdaa => Sys2Proof.Machine.execRstdaa s
  | .enec ev => Sys2Proof.Machine.execEnec ev s
  | .disec ev => Sys2Proof.Machine.execDisec ev s
  | .getpid => Sys2Proof.Machine.execGetpid s
  | .getbcr => Sys2Proof.Machine.execGetbcr s
  | .getdcr => Sys2Proof.Machine.execGetdcr s
  | .getstatus => Sys2Proof.Machine.execGetstatus s
  | .getmwl => Sys2Proof.Machine.execGetmwl s
  | .setmwl v => Sys2Proof.Machine.execSetmwl v s
  | .getmrl => Sys2Proof.Machine.execGetmrl s
  | .setmrl v => Sys2Proof.Machine.execSetmrl v s
  | .rstact act => Sys2Proof.Machine.execRstact act s
  | .sourceOn ix ack => Sys2Proof.Machine.execSourceOn ix ack s
  | .sourceOff ix ack => Sys2Proof.Machine.execSourceOff ix ack s
  | .uartRxChar b stopBit => Sys2Proof.Machine.execUartRxChar b stopBit s
  | .uartTxChar => Sys2Proof.Machine.execUartTxChar s
  | .uartBreak => Sys2Proof.Machine.execUartBreak s
  | .bypass bits => Sys2Proof.Machine.execBypass bits s
  | .idcode bits => Sys2Proof.Machine.execIdcode bits s
  | .samplePreload bits => Sys2Proof.Machine.execSamplePreload bits s
  | .extest bits => Sys2Proof.Machine.execExtest bits s
  | .memacc addr write => Sys2Proof.Machine.execMemacc addr write s
  | .gpioEdge n rise => Sys2Proof.Machine.execGpioEdge n rise s
  | .edge src core => Sys2Proof.Machine.execEdge src core s
  | .select => Sys2Proof.Machine.execSelect s
  | .claim t ms => Sys2Proof.Machine.execClaim t ms s
  | .complete t m v => Sys2Proof.Machine.execComplete t m v s
  | .latchedEdge src => Sys2Proof.Machine.execLatchedEdge src s
  | .coalesceRelease g => Sys2Proof.Machine.execCoalesceRelease g s
  | .groupRelease m hi v => Sys2Proof.Machine.execGroupRelease m hi v s
  | .alarmFire a => Sys2Proof.Machine.execAlarmFire a s
  | .alarmArm a m => Sys2Proof.Machine.execAlarmArm a m s
  | .alarmTimeWrite a m hi v => Sys2Proof.Machine.execAlarmTimeWrite a m hi v s
  | .srcClear src m => Sys2Proof.Machine.execSrcClear src m s
  | .forceComplete src m => Sys2Proof.Machine.execForceComplete src m s
  | .refWindow a b => Sys2Proof.Machine.execRefWindow a b s
  | .refLoss r => Sys2Proof.Machine.execRefLoss r s
  | .coastEnd => Sys2Proof.Machine.execCoastEnd s
  | .tbSet m => Sys2Proof.Machine.execTbSet m s
  | .tbAdjust m => Sys2Proof.Machine.execTbAdjust m s
  | .tbNowRead m => Sys2Proof.Machine.execTbNowRead m s
  | .ppsIn => Sys2Proof.Machine.execPpsIn s
  | .ppsOut => Sys2Proof.Machine.execPpsOut s
  | .ppsOutFall => Sys2Proof.Machine.execPpsOutFall s
  | .sensorRead temps => Sys2Proof.Machine.execSensorRead temps s
  | .crank mv => Sys2Proof.Machine.execCrank mv s
  | .vinLow mv => Sys2Proof.Machine.execVinLow mv s
  | .vinClear mv => Sys2Proof.Machine.execVinClear mv s
  | .shutdown mv => Sys2Proof.Machine.execShutdown mv s
  | .thermalTrip sensor => Sys2Proof.Machine.execThermalTrip sensor s
  | .capWindow mw => Sys2Proof.Machine.execCapWindow mw s
  | .phaseLimit rail level => Sys2Proof.Machine.execPhaseLimit rail level s
  | .unitNap u => Sys2Proof.Machine.execUnitNap u s
  | .unitDoze u => Sys2Proof.Machine.execUnitDoze u s
  | .unitDormant u => Sys2Proof.Machine.execUnitDormant u s
  | .unitWake u => Sys2Proof.Machine.execUnitWake u s
  | .stateSelect => Sys2Proof.Machine.execStateSelect s
  | .wake cause => Sys2Proof.Machine.execWake cause s
  | .wakeAt => Sys2Proof.Machine.execWakeAt s
  | .vstbyLoss => Sys2Proof.Machine.execVstbyLoss s
  | .vinGood straps => Sys2Proof.Machine.execVinGood straps s
  | .zonePowerUp z failedCores => Sys2Proof.Machine.execZonePowerUp z failedCores s
  | .engineCalibrated z nack => Sys2Proof.Machine.execEngineCalibrated z nack s
  | .zoneOpen z => Sys2Proof.Machine.execZoneOpen z s
  | .fwdOpen => Sys2Proof.Machine.execFwdOpen s
  | .warm by_ => Sys2Proof.Machine.execWarm by_ s
  | .porst => Sys2Proof.Machine.execPorst s
  | .enLow => Sys2Proof.Machine.execEnLow s
  | .journalProgram => Sys2Proof.Machine.execJournalProgram s
  | .flush => Sys2Proof.Machine.execFlush s
  | .sync m => Sys2Proof.Machine.execSync m s
  | .snapshot m => Sys2Proof.Machine.execSnapshot m s
  | .autoSnapshot => Sys2Proof.Machine.execAutoSnapshot s
  | .snapshotCommitted => Sys2Proof.Machine.execSnapshotCommitted s
  | .saveCfg m => Sys2Proof.Machine.execSaveCfg m s
  | .autoCfgSave => Sys2Proof.Machine.execAutoCfgSave s
  | .checkpoint m => Sys2Proof.Machine.execCheckpoint m s
  | .autoCheckpoint => Sys2Proof.Machine.execAutoCheckpoint s
  | .erase m key => Sys2Proof.Machine.execErase m key s
  | .badBlock b => Sys2Proof.Machine.execBadBlock b s
  | .store m => Sys2Proof.Machine.execStore m s
  | .storeDone ok version => Sys2Proof.Machine.execStoreDone ok version s
  | .switch m => Sys2Proof.Machine.execSwitch m s
  | .handoverDone => Sys2Proof.Machine.execHandoverDone s
  | .handoverRevert => Sys2Proof.Machine.execHandoverRevert s
  | .heartbeatSend => Sys2Proof.Machine.execHeartbeatSend s
  | .heartbeat state primary serial jsize => Sys2Proof.Machine.execHeartbeat state primary serial jsize s
  | .heartbeatLoss => Sys2Proof.Machine.execHeartbeatLoss s
  | .aliveChange alive => Sys2Proof.Machine.execAliveChange alive s
  | .joinTimeout => Sys2Proof.Machine.execJoinTimeout s
  | .twinRetry lanes => Sys2Proof.Machine.execTwinRetry lanes s
  | .syncRecord r => Sys2Proof.Machine.execSyncRecord r s
  | .reconciled partner whole => Sys2Proof.Machine.execReconciled partner whole s
  | .sample => Sys2Proof.Machine.execSample s
  | .sampleNow m => Sys2Proof.Machine.execSampleNow m s
  | .exportDone => Sys2Proof.Machine.execExportDone s
  | .clearWm m => Sys2Proof.Machine.execClearWm m s
  | .pmcClear z k m => Sys2Proof.Machine.execPmcClear z k m s
  | .unfreeze z k m => Sys2Proof.Machine.execUnfreeze z k m s
  | .resume page m v => Sys2Proof.Machine.execResume page m v s
  | .hostLinkChange h width speed pm => Sys2Proof.Machine.execHostLinkChange h width speed pm s
  | .distLate => Sys2Proof.Machine.execDistLate s
  | .syncAcknowledgement => Sys2Proof.Machine.execSyncAcknowledgement s

end Sys2Proof.Machine
end

