-- ==== Sys2Proof/Machine/Tick.lean ====
section
/-!
DEFINITION. The passing of one MC cycle, which a step on an empty queue makes (DESIGN CHOICE, log 2): the timebase and the copies
of isolated zones (R444, R446, R393), the training of die links, and the cycles in which a core issues nothing (R503, R504).
-/

namespace Sys2Proof.Machine
open Sys2Proof

/-- Advances of the timebase in one MC cycle: two while the root loop coasts (R444). -/
def coastFactor (d : Dev) : Nat := if coasting d then 2 else 1
/-- The timebase of the next cycle: a step that waits fixes it (R446). -/
def nextTb (d : Dev) : Nat :=
  let adv := coastFactor d * d.ket.rate
  match d.tbStep with
  | some (.set v) => v % 2 ^ 96
  | some (.adjust n) => wrapInt 96 ((d.tb : Int) + adv + n * 2 ^ 32)
  | none => (d.tb + adv) % 2 ^ 96
/-- The timebase advances, the copies of isolated zones at the rate they keep; a commit of TB_RATE acts on later advances. -/
def tickTb (d : Dev) : Dev :=
  let k := coastFactor d
  let z := (List.range 4).foldl (fun t z => match tget ztbDflt t z with
    | some c => tset ztbDflt t z (some { c with tb := (c.tb + k * c.rate) % 2 ^ 96 })
    | none => t) d.ket.ztb
  { d with
    core := { d.core with yields := [] }
    mc := d.mc + 1
    tb := nextTb d
    tbStep := none
    life := { d.life with age := d.life.age + k, powered := d.life.powered + k }
    ket := { d.ket with rate := tbRate d, ztb := z } }
/-- A new MC cycle gives the link its capacity anew (R16); a link in training begins its PRBS test. -/
def tickLink (d : Dev) (z : Nat) : Dev :=
  let d := modLink d z (fun l => { l with up := { l.up with used := 0 }, down := { l.down with used := 0 } })
  if (lnk d z).state == 1 then modLink d z (fun l => { l with state := 2, prbs := nowNs d }) else d

/-- Eight CC of a zone core in which nothing issues. A core with a thread that may issue is counted by its issues. -/
def tickCore (d : Dev) (cid : Nat) : Dev :=
  let starved (d : Dev) : Dev := perfN (perfN d cid 0 8) cid 0x20 8
  if !(page d (corePage cid)).ready || (chan d (coreChan cid)).state == 3 || rf d Rg.PWR_STATE Fl.PWR_STATE_STATE != 0 then d
  else if unitState d cid == 1 then pmc (starved d) cid 14 8 false 0
  else if unitState d cid != 0 then d
  else if (workThreads d cid).isEmpty && (slotFlights d cid).isEmpty then starved d
  else if !(readyThreads d cid).isEmpty then d
  else lostCycles d cid 8

/-- Events whose cause is a state that lasts, by page and number (R38): pages of a spill region at or above PG_WARN (R291), a stack that
refreshes at the halved interval (R336), the root loop coasting (R441). Which events these are, DEDUCED (log 25). -/
def lastingCauses (d : Dev) : List (Nat × Nat) :=
  ((List.range 4).filter (fun z => (urnz d z).pgWarn)).map (fun z => (urnPage z, 3)) ++
  ((List.range 4).filter (fun k => rb d (Rg.HBM_STATUS k) Fl.HBM_STATUS_HOT)).map (fun k => (hbmPage k, 4)) ++
  (if coasting d then [(Rg.pageOf Rg.baseCLK, 2)] else [])
/-- A cause that is still present after its bit was cleared sets the bit again, with a new edge (R38). -/
def tickCauses (d : Dev) : Dev := (lastingCauses d).foldl (fun d e => raise d e.1 e.2) d

/-- One MC cycle. A module that is off has no clock. -/
def tick (s : State) : Host.Outcome State Fault Refusal :=
  s.onDev (fun d =>
    if d.ket.off then d
    else
      let d := tickCauses ((List.range 4).foldl tickLink (tickTb d))
      settleFreeze ((List.range 4).foldl (fun d z => (List.range 26).foldl (fun d k => tickCore d (32 * z + k)) d) d))

end Sys2Proof.Machine
end

