-- ==== Sys2Proof/Safety.lean ====
section
/-!
DEFINITION. What a safe run is (no step stops, memory keeps its canonical form), and the conditions on a state that the
statements name: a register page that answers a master, a thread that issues an instruction of its own.
-/

namespace Sys2Proof.Machine
open Sys2Proof

/-- A state whose next step is a next state. -/
def State.safe (s : State) : Prop := ∃ t, step s = .next t

/-- The invariant of every step: memory is in canonical form. -/
def State.Inv (s : State) : Prop := Memory.wf s.mem = true

/-! ## Register pages -/

/-- Page `pg` answers a write of `m`: its clock runs, it is implemented and reached, READY, and its owner field admits `m`
(R36, R49, R52, R54, R393). -/
structure Admits (d : Dev) (pg : Nat) (m : Master) : Prop where
  clock : treeRuns d 2 = true
  exists_ : (pageId pg).isSome = true
  reach : reaches d pg m = true
  ready : (page d pg).ready = true
  owner : mayWrite (page d pg).owner.toNat m = true

/-- Page `pg` answers a read of `m`. -/
structure Answers (d : Dev) (pg : Nat) (m : Master) : Prop where
  clock : treeRuns d 2 = true
  exists_ : (pageId pg).isSome = true
  reach : reaches d pg m = true
  ready : (page d pg).ready = true

/-! ## The issue of an instruction (R157, R158, R170, R175) -/

/-- The state that the instruction acts on. -/
def atIssue (d : Dev) (cid t : Nat) : Dev := (fetchAt d cid t).2.2

/-- The number of this issue in its flight (R175). -/
def issueNumber (d : Dev) (cid t : Nat) : Nat := issuesOf (atIssue d cid t) (thr d cid t).flight

/-- Thread `t` of core `cid` issues an instruction of its own: it is the thread from which its core issues next, its core runs, its word
is read without error, and its flight's budget is not met at this issue. -/
structure Issues (d : Dev) (cid t : Nat) : Prop where
  ready : canIssue (thr d cid t) = true
  runs : unitRuns d cid = true
  first : nextThread d cid = some t
  fetch : (fetchAt d cid t).2.1 = false
  budget : (thr d cid t).flight = none ∨
    (issueNumber d cid t ≠ (budgetOf (atIssue d cid t) (thr d cid t).flight).1 ∧
     issueNumber d cid t ≠ (budgetOf (atIssue d cid t) (thr d cid t).flight).1 + (budgetOf (atIssue d cid t) (thr d cid t).flight).2)

/-- No fault waits to be judged (R384), and no freeze to come into force: so every command leaves the state. -/
abbrev Calm (d : Dev) : Prop := d.ras.todo = [] ∧ d.tel.freezing = 0

/-- Operands of the acting lanes as the instruction reads them at its issue: lane and value in ascending order of lane, what the
reads met, and the state after them. -/
def operandsAt (d : Dev) (cid t : Nat) (f : BitVec 24) : List (Nat × Nat) × Met × Dev :=
  readLanes (atIssue d cid t) (actingLanes (thr d cid t) ((fa f).s == 4)) (fun e n => readOperand e cid t (fa f) n)

/-- A format A instruction with the fields `f` executes normally: no cause of R190, no stall of R195, operands read without
error (R174), no fault left to judge, and its successor lies in the image (R188). -/
structure Executes (d : Dev) (cid t : Nat) (f : BitVec 24) (m : FormA) : Prop where
  issues : Issues d cid t
  form : badA m (fa f) = false
  stack : stackUnder (thr d cid t) (fa f) = none
  window : ∀ n ∈ actingLanes (thr d cid t) ((fa f).s == 4), outside (thr d cid t) (fa f) n = false
  free : operandStall d cid (thr d cid t) (fa f) (actingLanes (thr d cid t) ((fa f).s == 4)) = false
  sound : (operandsAt d cid t f).2.1 = .ok
  calm : (operandsAt d cid t f).2.2.ras.todo = []
  next : (thr d cid t).pc + 1 < 8192

/-- The instruction changed only what instructions of a core change: its core, its flight's counts, SRAM words and their
fault records, performance counts, telemetry, page headers and event sources. -/
def CoreOnly (s t : State) : Prop :=
  t.mem = s.mem ∧ t.pending = s.pending ∧
  ∃ r c p i k e a b o, t.dev = { s.dev with regs := r, ctrs := c, pages := p, ic := i, ket := k, tel := e, ras := a,
                                            bar := b, core := o }

/-- Thread `t` of core `cid` of `a` is, in `b`, as `g` makes it but for its place in the round-robin; every other thread is as
it was. -/
def ThreadTo (a b : State) (cid t : Nat) (g : Thread → Thread) : Prop :=
  (∃ n, thr b.dev cid t = { g (thr a.dev cid t) with issued := n }) ∧
  ∀ c' t', 8 * c' + t' ≠ 8 * cid + t → thr b.dev c' t' = thr a.dev c' t'

/-- The next instruction index lies in the image (R188). -/
def NextInImage (d : Dev) (cid t : Nat) : Prop := (thr d cid t).pc + 1 < 8192

end Sys2Proof.Machine
end

