-- ==== Sys2Proof/Certificates/Slice0/Obligations.lean ====
section
/-!
DEFINITION. The statements about the model, from the numbered rules of the spec.
-/

open Sys2Proof Sys2Proof.Machine

namespace Sys2Proof.Terms

/-! ## Words of the Chrotale statements -/

/-- The most significant of the low `w` bits. -/
def top (w x : Nat) : Bool := decide (2 ^ (w - 1) ≤ x % 2 ^ w)
/-- The low `w` bits taken signed. -/
def signed (w x : Nat) : Int := if top w x then ((x % 2 ^ w : Nat) : Int) - (2 ^ w : Nat) else ((x % 2 ^ w : Nat) : Int)
/-- An integer as a `w`-bit value. -/
def wrap (w : Nat) (x : Int) : Nat := (x % ((2 ^ w : Nat) : Int)).toNat
/-- The lane's A takes `r`, its flags Z and N those of `r` at width `w`, its C and V the given ones; cursor and P stay. -/
def Took (w r : Nat) (c v : Bool) (old new : LaneCtx) : Prop :=
  new = { old with a := BitVec.ofNat 64 r, z := decide (r % 2 ^ w = 0), n := top w r, c := c, v := v }
/-- Only the flags change, to those of `r`. -/
def Flagged (w r : Nat) (c v : Bool) (old new : LaneCtx) : Prop :=
  new = { old with z := decide (r % 2 ^ w = 0), n := top w r, c := c, v := v }
/-- A of the lane at width `w`. -/
def acc (w : Nat) (l : LaneCtx) : Nat := l.a.toNat % 2 ^ w
/-- 1 for a set bit. -/
def one (b : Bool) : Nat := if b then 1 else 0
/-- A sum with its carry and overflow (R199). -/
def SumTo (w a b x : Nat) (old new : LaneCtx) : Prop :=
  let r := (a + b + x) % 2 ^ w
  Took w r (decide (2 ^ w ≤ a + b + x)) (top w a == top w b && top w r != top w a) old new
/-- A difference with its borrow and overflow (R199): `r` is the `w`-bit value congruent to a - b - x. -/
def diff (w a b x : Nat) : Nat := wrap w ((a : Int) - b - x)
def DiffTo (w a b x : Nat) (old new : LaneCtx) : Prop :=
  Took w (diff w a b x) (decide (a < b + x)) (top w a != top w b && top w (diff w a b x) != top w a) old new

/-- What a format A instruction of form `m` does when it executes: it completes, each acting lane goes from its old registers
to new ones as `rule` says of the thread, the instruction's width and the lane's operand, every other lane keeps its registers, the PC advances,
the rest of the thread changes as `g` says, and nothing else changes but what an issue counts. -/
def LaneRule (mk : Cid → Tid → BitVec 24 → Instr) (m : FormA) (rule : Thread → Nat → Nat → LaneCtx → LaneCtx → Prop)
    (g : Thread → Thread) : Prop :=
  ∀ (s : State) (c : Cid) (t : Tid) (f : BitVec 24), Executes s.dev c t f m →
    ∃ u, Machine.exec (mk c t f) s = .next u ∧
      (∀ n v, (n, v) ∈ (operandsAt s.dev c t f).1 →
        rule (thr s.dev c t) (fa f).width v (lctx (thr s.dev c t) n) (lctx (thr u.dev c t) n)) ∧
      (∀ n, n ∉ actingLanes (thr s.dev c t) ((fa f).s == 4) → lctx (thr u.dev c t) n = lctx (thr s.dev c t) n) ∧
      ThreadTo s u c t (fun x => g { x with pc := x.pc + 1, lanes := (thr u.dev c t).lanes }) ∧ CoreOnly s u

/-- An instruction that reads no operand executes normally: it issues, with no fault waiting, and its successor lies in the
image. -/
structure Free (d : Dev) (c t : Nat) : Prop where
  issues : Issues d c t
  calm : (atIssue d c t).ras.todo = []
  next : (thr d c t).pc + 1 < 8192

/-- An instruction without operand whose fields and thread meet `ok` completes: its thread changes by `g`, and nothing else but
what an issue counts. -/
def ThreadRule (mk : Cid → Tid → BitVec 24 → Instr) (ok : Thread → BitVec 24 → Prop) (g : BitVec 24 → Thread → Thread) : Prop :=
  ∀ (s : State) (c : Cid) (t : Tid) (f : BitVec 24), Free s.dev c t → ok (thr s.dev c t) f →
    ∃ u, Machine.exec (mk c t f) s = .next u ∧ ThreadTo s u c t (g f) ∧ CoreOnly s u

/-- As `CoreOnly`, but that locks whose holder is outranked may have been reported (R360). -/
def CoreAndReports (s u : State) : Prop :=
  ∃ l : LockUnit, CoreOnly { s with dev := { s.dev with lku := l } } u ∧ l.waiters = s.dev.lku.waiters ∧
    l.table.map (fun e => { e with top := 0 }) = s.dev.lku.table.map (fun e => { e with top := 0 })

/-- Fields of format J with COND and Q given, the zero field 0 and a target in the image. -/
def FieldsJ (cond q : Nat) (f : BitVec 24) : Prop := fjCond f = cond ∧ fjQ f = q ∧ fjZero f = 0 ∧ fjT f < 8192
/-- A flight thread: a root or a child. -/
def OfFlight (x : Thread) : Prop := x.state = 1 ∨ x.state = 2
/-- A kernel thread that runs. -/
def OfKernel (x : Thread) : Prop := x.state = 4
/-- SRAM words and merge buffers of `a` are those of `d`. -/
def SameSram (a d : Dev) : Prop := a.core.sram = d.core.sram ∧ a.core.merge = d.core.merge

/-- A store instruction completes: each acting lane's value goes to its operand's place, the PC advances, and nothing else
changes but what an issue counts. -/
def StoreRule (mk : Cid → Tid → BitVec 24 → Instr) (val : Thread → Nat → Nat) : Prop :=
  ∀ (s : State) (c : Cid) (t : Tid) (f : BitVec 24), Executes s.dev c t f formDst →
    let x := thr s.dev c t
    let dst := writeLanes (atIssue s.dev c t) c t (fa f) ((actingLanes x ((fa f).s == 4)).map (fun n => (n, val x n)))
    dst.ras.todo = [] →
    ∃ u, Machine.exec (mk c t f) s = .next u ∧ SameSram u.dev dst ∧
      ThreadTo s u c t (fun x => { x with pc := x.pc + 1 }) ∧ CoreOnly s u

end Sys2Proof.Terms

open Sys2Proof.Terms

/-! ## Chrotale arithmetic and logic -/

/-- R199. ADD, ADC, SUB, SBC, NEG and CMP: result, carry or borrow, overflow, Z and N in every acting lane. -/
def Obligations.SumsAndDifferencesSetResultAndFlags : Prop :=
  LaneRule .opAdd formOp (fun _ w v o n => SumTo w (acc w o) v 0 o n) id ∧
  LaneRule .opAdc formOp (fun _ w v o n => SumTo w (acc w o) v (one o.c) o n) id ∧
  LaneRule .opSub formOp (fun _ w v o n => DiffTo w (acc w o) v 0 o n) id ∧
  LaneRule .opSbc formOp (fun _ w v o n => DiffTo w (acc w o) v (one o.c) o n) id ∧
  LaneRule .opNeg formA (fun _ w _ o n => DiffTo w 0 (acc w o) 0 o n) id ∧
  LaneRule .opCmp formOp (fun _ w v o n => v < 2 ^ w →
    Flagged w (diff w (acc w o) v 0) (decide (acc w o < v))
      (top w (acc w o) != top w v && top w (diff w (acc w o) v 0) != top w (acc w o)) o n) id

/-- R200. MUL and the divisions: result, C and V, with the corners of division; a division leaves its thread unready. -/
def Obligations.ProductsAndDivisionsSetResultAndFlags : Prop :=
  LaneRule .opMul formOp (fun _ w v o n =>
    Took w (acc w o * v % 2 ^ w) (decide (2 ^ w ≤ acc w o * v))
      (decide (signed w (acc w o) * signed w v < -(2 ^ (w - 1) : Nat) ∨ ((2 ^ (w - 1) : Nat) : Int) ≤ signed w (acc w o) * signed w v)) o n) id ∧
  (∀ q : Bool, LaneRule (if q then .opDiv else .opRem) formOp (fun _ w v o n =>
    let a := acc w o
    let put (x y : Nat) (c v : Bool) : Prop := Took w (if q then x else y) c v o n
    if v = 0 then put 0 a true true
    else if a = 2 ^ (w - 1) ∧ v = 2 ^ w - 1 then put a 0 false true
    else put (wrap w (Int.tdiv (signed w a) (signed w v))) (wrap w (signed w a - signed w v * Int.tdiv (signed w a) (signed w v))) false false)
    (fun x => { x with wait := .div })) ∧
  (∀ q : Bool, LaneRule (if q then .opDivu else .opRemu) formOp (fun _ w v o n =>
    let a := acc w o
    let put (x y : Nat) (c v : Bool) : Prop := Took w (if q then x else y) c v o n
    if v = 0 then put 0 a true true else put (a / v) (a - v * (a / v)) false false)
    (fun x => { x with wait := .div }))

/-- R198. TST, the minima and maxima and the high products. -/
def Obligations.ExtremaAndHighProductsSetResultAndFlags : Prop :=
  LaneRule .opTst formOp (fun _ w v o n => Flagged w (acc w o &&& v) o.c false o n) id ∧
  LaneRule .opMin formOp (fun _ w v o n => Took w (if signed w (acc w o) ≤ signed w v then acc w o else v) o.c false o n) id ∧
  LaneRule .opMax formOp (fun _ w v o n => Took w (if signed w (acc w o) ≤ signed w v then v else acc w o) o.c false o n) id ∧
  LaneRule .opMinu formOp (fun _ w v o n => Took w (min (acc w o) v) o.c false o n) id ∧
  LaneRule .opMaxu formOp (fun _ w v o n => Took w (max (acc w o) v) o.c false o n) id ∧
  LaneRule .opMulh formOp (fun _ w v o n =>
    Took w (wrap w (signed w (acc w o) * signed w v / ((2 ^ w : Nat) : Int))) false false o n) id ∧
  LaneRule .opMulhu formOp (fun _ w v o n => Took w (acc w o * v / 2 ^ w) false false o n) id

/-- R202. The shifts and rotates: result and the last bit out. The amount is the operand's low 8 bits. -/
def Obligations.ShiftsAndRotatesSetResultAndCarry : Prop :=
  LaneRule .opShl formOp (fun _ w v o n =>
    let a := acc w o
    let s := v % 256
    if s = 0 then Took w a false false o n
    else if s < w then Took w (a * 2 ^ s % 2 ^ w) (a.testBit (w - s)) false o n
    else if s = w then Took w 0 (a.testBit 0) false o n
    else Took w 0 false false o n) id ∧
  LaneRule .opShr formOp (fun _ w v o n =>
    let a := acc w o
    let s := v % 256
    if s = 0 then Took w a false false o n
    else if s < w then Took w (a / 2 ^ s) (a.testBit (s - 1)) false o n
    else if s = w then Took w 0 (a.testBit (w - 1)) false o n
    else Took w 0 false false o n) id ∧
  LaneRule .opSar formOp (fun _ w v o n =>
    let a := acc w o
    let s := v % 256
    Took w (wrap w (signed w a / ((2 ^ s : Nat) : Int)))
      (if s = 0 then false else if s < w then a.testBit (s - 1) else decide (s = w) && top w a) false o n) id ∧
  LaneRule .opRol formOp (fun _ w v o n =>
    let a := acc w o
    let k := v % 256 % w
    let r := (a * 2 ^ k + a / 2 ^ (w - k)) % 2 ^ w
    Took w r (decide (k ≠ 0) && r.testBit 0) false o n) id ∧
  LaneRule .opRor formOp (fun _ w v o n =>
    let a := acc w o
    let k := v % 256 % w
    let r := (a / 2 ^ k + a * 2 ^ (w - k)) % 2 ^ w
    Took w r (decide (k ≠ 0) && top w r) false o n) id

/-- R201. Logic, bit counts, byte reversal and extensions. -/
def Obligations.LogicAndBitResults : Prop :=
  LaneRule .opAnd formOp (fun _ w v o n => Took w (acc w o &&& v) o.c false o n) id ∧
  LaneRule .opOr formOp (fun _ w v o n => Took w (acc w o ||| v) o.c false o n) id ∧
  LaneRule .opXor formOp (fun _ w v o n => Took w (acc w o ^^^ v) o.c false o n) id ∧
  LaneRule .opNot formA (fun _ w _ o n => ∃ r, r < 2 ^ w ∧ (∀ i < w, r.testBit i = !(acc w o).testBit i) ∧ Took w r o.c false o n) id ∧
  LaneRule .opPopc formA (fun _ w _ o n => Took w ((List.range w).filter (fun i => (acc w o).testBit i)).length o.c false o n) id ∧
  LaneRule .opClz formA (fun _ w _ o n => ∃ r, r ≤ w ∧ acc w o < 2 ^ (w - r) ∧ (r < w → 2 ^ (w - r - 1) ≤ acc w o) ∧
    Took w r o.c false o n) id ∧
  LaneRule .opCtz formA (fun _ w _ o n => ∃ r, r ≤ w ∧ 2 ^ r ∣ acc w o ∧ (r < w → (acc w o).testBit r = true) ∧
    Took w r o.c false o n) id ∧
  LaneRule .opBswap formA (fun _ w _ o n => ∃ r, r < 2 ^ w ∧
    (∀ i < w / 8, r / 256 ^ i % 256 = acc w o / 256 ^ (w / 8 - 1 - i) % 256) ∧ Took w r o.c false o n) id ∧
  LaneRule .opSext { formA with ws := [0, 1, 2] } (fun _ w _ o n => Took 64 (wrap 64 (signed w (acc w o))) o.c false o n) id ∧
  LaneRule .opZext { formA with ws := [0, 1, 2] } (fun _ w _ o n => Took 64 (acc w o) o.c false o n) id

/-! ## Chrotale moves, fields, stacks -/

/-- R196, R203. Loads, the lane forms of the index and cursor instructions: A, the cursor and the flags. -/
def Obligations.LoadsAndCursorResults : Prop :=
  LaneRule .opLd formOp (fun _ w v o n => Took w v o.c false o n) id ∧
  LaneRule .opLds formOp (fun _ w v o n => Took 64 (wrap 64 (signed w v)) o.c false o n) id ∧
  LaneRule .opXget (formPlain true 0 0) (fun x _ _ o n => Took 64 x.x.toNat o.c false o n) id ∧
  LaneRule .opYget (formPlain true 0 0) (fun x _ _ o n => Took 64 x.y.toNat o.c false o n) id ∧
  LaneRule .opCget (formPlain true 0 0) (fun _ _ _ o n => n = { o with a := o.cur.setWidth 64 }) id ∧
  LaneRule .opCadd formOp (fun _ _ v o n => n = { o with cur := o.cur + BitVec.ofNat 16 v }) id ∧
  LaneRule .opCset formOp (fun _ _ v o n => n = { o with cur := BitVec.ofNat 16 v }) id

/-- R192, R196, R206. NOP, XADD, YADD, XSET, YSET and DROPS: the thread's X, Y, SP and PC; XLD and YLD take the operand of the
lowest-numbered acting lane, without one they load nothing. -/
def Obligations.IndexAndStackPointerResults : Prop :=
  ThreadRule .opNop (fun _ f => f = 0) (fun _ x => { x with pc := x.pc + 1 }) ∧
  ThreadRule .opXadd (fun _ f => f.toNat < 65536) (fun f x => { x with x := x.x + BitVec.ofNat 16 f.toNat, pc := x.pc + 1 }) ∧
  ThreadRule .opYadd (fun _ f => f.toNat < 65536) (fun f x => { x with y := x.y + BitVec.ofNat 16 f.toNat, pc := x.pc + 1 }) ∧
  (∀ q : Bool, ThreadRule (if q then .opXset else .opYset) (fun _ f => f.toNat = 0 ∨ f.toNat = 4 * 2 ^ 16) (fun f x =>
    match actingLanes x (f.toNat != 0) with
    | n :: _ => let v := (lctx x n).a.setWidth 16
      if q then { x with x := v, pc := x.pc + 1 } else { x with y := v, pc := x.pc + 1 }
    | [] => { x with pc := x.pc + 1 })) ∧
  ThreadRule .opDrops (fun x f => f = 0 ∧ 0 < x.sp) (fun _ x => { x with sp := x.sp - 1, pc := x.pc + 1 }) ∧
  (∀ (q : Bool) (s : State) (c : Cid) (t : Tid) (f : BitVec 24), Executes s.dev c t f { formOp with ws := [0, 1] } →
    ∃ u, Machine.exec (if q then .opXld c t f else .opYld c t f) s = .next u ∧ CoreOnly s u ∧
      ThreadTo s u c t (fun x => match (operandsAt s.dev c t f).1 with
        | (_, v) :: _ => if q then { x with x := BitVec.ofNat 16 v, pc := x.pc + 1 } else { x with y := BitVec.ofNat 16 v, pc := x.pc + 1 }
        | [] => { x with pc := x.pc + 1 }))

/-- R156, R196. ST, XST and YST store A, X and Y of the acting lanes. -/
def Obligations.StoresWriteTheirPlaces : Prop :=
  StoreRule .opSt (fun x n => (lctx x n).a.toNat) ∧ StoreRule .opXst (fun x _ => x.x.toNat) ∧ StoreRule .opYst (fun x _ => x.y.toNat)

/-- R197. LDF gives each active lane the field, bit for bit from the most significant; STF writes the field's bits of A and keeps
the other bits of the bytes it touches. -/
def Obligations.BitFieldsLoadAndStore : Prop :=
  ∀ (s : State) (c : Cid) (t : Tid) (f : BitVec 24),
    let x := thr s.dev c t
    let ls := activeLanes x
    let r := readLanes (atIssue s.dev c t) ls (fun d n => fieldBytes d c t f n)
    let p (n : Nat) : Nat := if ffM f = 0 then 8 * (lctx x n).cur.toNat + ffOff f else ffOff f
    let len := ffLen f
    let bytes (n : Nat) : Nat := (p n + len - 1) / 8 + 1 - p n / 8
    let at_ (n i : Nat) : Nat := 8 * bytes n - 1 - (p n % 8 + i)
    Issues s.dev c t → ffM f < 3 → (∀ n ∈ ls, p n + len ≤ (if ffM f = 2 then 1024 else 2048)) →
    (ffM f = 2 → slotPending s.dev c x.home ls (slotsIn (ffOff f / 8) ((ffOff f + len - 1) / 8 + 1 - ffOff f / 8)) = false) →
    r.2.1 = .ok → r.2.2.ras.todo = [] → x.pc + 1 < 8192 →
    (∃ u, Machine.exec (.opLdf c t f) s = .next u ∧ CoreOnly s u ∧
      (∀ n v, (n, v) ∈ r.1 → ∃ a, a < 2 ^ len ∧ (∀ i < len, a.testBit (len - 1 - i) = v.testBit (at_ n i)) ∧
        Took 64 a (lctx x n).c false (lctx x n) (lctx (thr u.dev c t) n)) ∧
      ThreadTo s u c t (fun x => { x with pc := x.pc + 1, lanes := (thr u.dev c t).lanes })) ∧
    (∃ new : Nat → Nat → Nat,
      (∀ n v, (n, v) ∈ r.1 → (∀ i < len, (new n v).testBit (at_ n i) = (lctx x n).a.toNat.testBit (len - 1 - i)) ∧
        (∀ j, (∀ i < len, j ≠ at_ n i) → (new n v).testBit j = v.testBit j)) ∧
      let dst := r.1.foldl (fun d e => if ffM f = 2 then coreWrite d c 1 (mAddr x.home e.1 (p e.1 / 8)) (bytes e.1) (new e.1 e.2)
        else coreWrite d c 0 (hAddr x.home e.1 (p e.1 / 8)) (bytes e.1) (new e.1 e.2)) r.2.2
      (dst.ras.todo = [] → ∃ u, Machine.exec (.opStf c t f) s = .next u ∧ SameSram u.dev dst ∧
        ThreadTo s u c t (fun x => { x with pc := x.pc + 1 }) ∧ CoreOnly s u))

/-- R166, R206. PUSH writes A of the acting lanes into the new top entry, whatever the other lanes' parts take; POP loads the top
entry into the acting lanes. -/
def Obligations.PushAndPopMoveEntries : Prop :=
  ∀ (s : State) (c : Cid) (t : Tid) (f : BitVec 24), (f.toNat = 0 ∨ f.toNat = 4 * 2 ^ 16) →
    let x := thr s.dev c t
    let ls := actingLanes x (f.toNat != 0)
    (Free s.dev c t → x.sp < 32 → ∃ v : Nat → Nat, (∀ n ∈ ls, v n = (lctx x n).a.toNat) ∧
      let dst := (List.range 32).foldl (fun d n => coreWrite d c 3 (tAddr t n x.sp) 8 (v n)) (atIssue s.dev c t)
      (dst.ras.todo = [] → ∃ u, Machine.exec (.opPush c t f) s = .next u ∧ SameSram u.dev dst ∧ u.mem = s.mem ∧
        ThreadTo s u c t (fun x => { x with sp := x.sp + 1, pc := x.pc + 1 }))) ∧
    let r := readLanes (atIssue s.dev c t) ls (fun d n => spaceRead d c 3 (tAddr t n (x.sp - 1)) 8)
    (Issues s.dev c t → x.pc + 1 < 8192 → 0 < x.sp → r.2.1 = .ok → r.2.2.ras.todo = [] →
      ∃ u, Machine.exec (.opPop c t f) s = .next u ∧ CoreOnly s u ∧
        (∀ n v, (n, v) ∈ r.1 → lctx (thr u.dev c t) n = { lctx x n with a := BitVec.ofNat 64 v }) ∧
        (∀ n, n ∉ ls → lctx (thr u.dev c t) n = lctx x n) ∧
        ThreadTo s u c t (fun x => { x with sp := x.sp - 1, pc := x.pc + 1, lanes := (thr u.dev c t).lanes }))

/-! ## Chrotale predicates and control flow -/

/-- R160, R161, R167, R203. The fifteen conditions read the flags of a lane; SETP writes P in the active lanes, KILL takes the lanes with P out of ACT, LDP spreads the bits of a value
read in lane 0. -/
def Obligations.PredicateInstructionsChangePAndAct : Prop :=
  (∀ l : LaneCtx, (List.range 15).map (fun k => condHolds k l) =
    [l.z, !l.z, l.n != l.v, !(l.n != l.v), l.c, !l.c, !l.z && !(l.n != l.v), l.z || (l.n != l.v), !l.c && !l.z, l.c || l.z,
     l.v, !l.v, l.p, !l.p, true]) ∧
  (∀ (s : State) (c : Cid) (t : Tid) (f : BitVec 24), Free s.dev c t → fjCond f < 15 → FieldsJ (fjCond f) 0 f → fjT f = 0 →
    ∃ u, Machine.exec (.opSetp c t f) s = .next u ∧ CoreOnly s u ∧
      (∀ n, lctx (thr u.dev c t) n = if n < 32 ∧ (thr s.dev c t).act.testBit n
        then { lctx (thr s.dev c t) n with p := condHolds (fjCond f) (lctx (thr s.dev c t) n) } else lctx (thr s.dev c t) n) ∧
      ThreadTo s u c t (fun x => { x with pc := x.pc + 1, lanes := (thr u.dev c t).lanes })) ∧
  (∀ (s : State) (c : Cid) (t : Tid), Free s.dev c t → OfFlight (thr s.dev c t) →
    ∃ u, Machine.exec (.opKill c t 0) s = .next u ∧ CoreOnly s u ∧
      (∀ n < 32, (thr u.dev c t).act.testBit n = ((thr s.dev c t).act.testBit n && !(lctx (thr s.dev c t) n).p)) ∧
      ThreadTo s u c t (fun x => { x with pc := x.pc + 1, act := (thr u.dev c t).act })) ∧
  (∀ (s : State) (c : Cid) (t : Tid) (f : BitVec 24),
    let x := thr s.dev c t
    let r := readOperand (atIssue s.dev c t) c t (fa f) 0
    Issues s.dev c t → x.pc + 1 < 8192 → x.act % 2 ^ 32 ≠ 0 → badA { formOp with ws := [2], g := false } (fa f) = false →
    stackUnder x (fa f) = none → outside x (fa f) 0 = false → operandStall s.dev c x (fa f) (0 :: activeLanes x) = false →
    r.2.1 = .ok → r.2.2.ras.todo = [] →
    ∃ u, Machine.exec (.opLdp c t f) s = .next u ∧ CoreOnly s u ∧
      (∀ n, lctx (thr u.dev c t) n = if n < 32 ∧ x.act.testBit n then { lctx x n with p := r.1.testBit n } else lctx x n) ∧
      ThreadTo s u c t (fun x => { x with pc := x.pc + 1, lanes := (thr u.dev c t).lanes }))

/-- R160, R165, R204, R205. Branches, calls and returns: the PC and the return stack. -/
def Obligations.BranchesCallsAndReturnsSetThePc : Prop :=
  ThreadRule .opBr (fun _ f => FieldsJ 0 0 f) (fun f x => { x with pc := fjT f }) ∧
  ThreadRule .opBc (fun _ f => fjCond f < 15 ∧ fjQ f < 3 ∧ FieldsJ (fjCond f) (fjQ f) f) (fun f x =>
    let act := (List.range 32).filter (fun n => x.act.testBit n)
    let hold := act.filter (fun n => condHolds (fjCond f) (lctx x n))
    { x with pc := if (fjQ f = 0 ∧ hold.length = act.length) ∨ (fjQ f = 1 ∧ 0 < hold.length) ∨ (fjQ f = 2 ∧ hold.length = 0)
      then fjT f else x.pc + 1 }) ∧
  ThreadRule .opCall (fun x f => FieldsJ 0 0 f ∧ x.rstack.length < 16) (fun f x =>
    { x with rstack := .ret (x.pc + 1) :: x.rstack, pc := fjT f }) ∧
  (∀ (s : State) (c : Cid) (t : Tid) (p : Nat) (l : List RFrame), Free s.dev c t → p < 8192 →
    (thr s.dev c t).rstack = .ret p :: l →
    ∃ u, Machine.exec (.opRet c t 0) s = .next u ∧ ThreadTo s u c t (fun x => { x with rstack := l, pc := p }) ∧ CoreOnly s u) ∧
  (∀ (s : State) (c : Cid) (t : Tid) (f : BitVec 24), Free s.dev c t → FieldsJ (fjCond f) 0 f →
    ∃ u, Machine.exec (.opBhb c t f) s = .next u ∧ CoreOnly s u ∧
      let q := queueDepth c (fjCond f)
      ThreadTo s u c t (fun x =>
        { x with pc := if 0 < q ∧ q ≤ (queue s.dev c (fjCond f)).length then fjT f else x.pc + 1 })) ∧
  (∀ (s : State) (c : Cid) (t : Tid), Free s.dev c t →
    ∃ u, Machine.exec (.opYield c t 0) s = .next u ∧ CoreOnly s u ∧ ThreadTo s u c t (fun x => { x with pc := x.pc + 1 }) ∧
      threadReady u.dev c t = false)

/-- R162, R164. FORK: without a moved lane a frame alone; serialised when FORK_EN is 0 or the flights in the core's slots need every
idle flight thread; else a child at the target with the moved lanes. -/
def Obligations.ForkMovesLanesOrSerialises : Prop :=
  ∀ (s : State) (c : Cid) (t : Tid) (f : BitVec 24), Free s.dev c t → OfFlight (thr s.dev c t) → FieldsJ 0 0 f →
    (thr s.dev c t).rstack.length < 16 →
    let x := thr s.dev c t
    let moved := ofBits ((activeLanes x).filter (fun n => (lctx x n).p))
    let rest := ofBits ((activeLanes x).filter (fun n => !(lctx x n).p))
    let e := atIssue s.dev c t
    let en := forkEnabled e x.flight = true
    let room := (slotFlights e c).length < (idleThreads e c).length
    ∃ u, Machine.exec (.opFork c t f) s = .next u ∧ u.mem = s.mem ∧
      (moved = 0 → ThreadTo s u c t (fun x => { x with rstack := .child 0 false 0 [] :: x.rstack, pc := x.pc + 1 })) ∧
      (moved ≠ 0 → (¬en ∨ ¬room) →
        ThreadTo s u c t (fun x => { x with rstack := .serial true (x.pc + 1) rest 0 :: x.rstack, act := moved, pc := fjT f })) ∧
      (moved ≠ 0 → en → room → ∃ k ∈ idleThreads e c, k ≠ t.val →
        (thr u.dev c t).rstack = .child k true moved [] :: x.rstack ∧ (thr u.dev c t).act = rest ∧ (thr u.dev c t).pc = x.pc + 1 ∧
        (thr u.dev c k).state = 2 ∧ (thr u.dev c k).act = moved ∧ (thr u.dev c k).pc = fjT f ∧ (thr u.dev c k).lanes = x.lanes ∧
        (thr u.dev c k).x = x.x ∧ (thr u.dev c k).y = x.y ∧ (thr u.dev c k).sp = 0 ∧ (thr u.dev c k).rstack = [] ∧
        (thr u.dev c k).parent = some t.val ∧ (thr u.dev c k).flight = x.flight ∧ (thr u.dev c k).home = x.home)

/-- R163, R164. JOIN by the top of the return stack; a waiting JOIN completes when its child has ended. -/
def Obligations.JoinActsOnTheTopFrame : Prop :=
  (∀ (s : State) (c : Cid) (t : Tid), Free s.dev c t → OfFlight (thr s.dev c t) →
    let x := thr s.dev c t
    ∃ u, Machine.exec (.opJoin c t 0) s = .next u ∧ u.mem = s.mem ∧
      (∀ k m g l, x.rstack = .child k true m g :: l → ThreadTo s u c t (fun x => { x with wait := .join })) ∧
      (∀ k m g l, x.rstack = .child k false m g :: l →
        (thr u.dev c t).act = x.act ||| m ∧ (thr u.dev c t).rstack = l ∧ (thr u.dev c t).pc = x.pc + 1) ∧
      (∀ p rest v l, x.rstack = .serial true p rest v :: l → p < 8192 →
        ThreadTo s u c t (fun x => { x with rstack := .serial false p rest x.act :: l, act := rest, pc := p })) ∧
      (∀ p rest v l, x.rstack = .serial false p rest v :: l →
        ThreadTo s u c t (fun x => { x with rstack := l, act := x.act ||| v, pc := x.pc + 1 })) ∧
      ((x.rstack = [] ∨ ∃ p l, x.rstack = .ret p :: l) → x.parent.isSome → ThreadTo s u c t (fun x => { x with wait := .done })) ∧
      ((x.rstack = [] ∨ ∃ p l, x.rstack = .ret p :: l) → x.parent = none → ThreadTo s u c t (fun x => { x with pc := x.pc + 1 }))) ∧
  (∀ (s : State) (c : Cid) (t : Tid) (k m : Nat) (g : List (Nat × LaneCtx)) (l : List RFrame),
    Calm s.dev → (thr s.dev c t).wait = .join → (thr s.dev c t).rstack = .child k false m g :: l → (thr s.dev c t).pc + 1 < 8192 →
    (g.map (·.1)).Nodup →
    ∃ u, Machine.exec (.joinComplete c t) s = .next u ∧ u.mem = s.mem ∧
      (∀ n r, (n, r) ∈ g → lctx (thr u.dev c t) n = r) ∧
      (∀ n, n ∉ g.map (·.1) → lctx (thr u.dev c t) n = lctx (thr s.dev c t) n) ∧
      (thr u.dev c t).act = (thr s.dev c t).act ||| m ∧ (thr u.dev c t).rstack = l ∧ (thr u.dev c t).wait = .none ∧
      (thr u.dev c t).pc = (thr s.dev c t).pc + 1)

/-! ## Kernel threads, flights, traps -/

/-- R138, R139, R207, R181. WAIT, POST, PRIO, HALT and RESUME of kernel threads. -/
def Obligations.KernelThreadInstructions : Prop :=
  (∀ (s : State) (c : Cid) (t : Tid), Free s.dev c t → OfKernel (thr s.dev c t) → kernelRole (atIssue s.dev c t) c t = true →
    ∃ u, Machine.exec (.opWait c t 0) s = .next u ∧ u.mem = s.mem ∧
      (∃ n, thr u.dev c t = { thr s.dev c t with state := 3, item := none, tag := s.dev.core.tags + 1, issued := n }) ∧
      (∀ c' t', 8 * c' + t' ≠ 8 * c.val + t.val → ∃ g, thr u.dev c' t' = { thr s.dev c' t' with tag := g }) ∧
      (∀ r ∈ u.dev.bar.raises, ¬(r.cid = c.val ∧ r.t = t.val) ∧ r.tag ≠ (thr s.dev c t).tag)) ∧
  (∀ (s : State) (c : Cid) (t : Tid), Free s.dev c t → OfKernel (thr s.dev c t) →
    let v := (lctx (thr s.dev c t) 0).a
    let pl := cidPlace c
    ∃ u, Machine.exec (.opPost c t 0) s = .next u ∧ u.mem = s.mem ∧
      (badItem pl v = false → eventResv (atIssue s.dev c t) pl < 4096 - (items s.dev pl).length →
        items u.dev pl = items s.dev pl ++ [v] ∧ (lctx (thr u.dev c t) 0).z = true) ∧
      (badItem pl v = true ∨ 4096 - (items s.dev pl).length ≤ eventResv (atIssue s.dev c t) pl →
        items u.dev pl = items s.dev pl ∧ (lctx (thr u.dev c t) 0).z = false) ∧
      (thr u.dev c t).pc = (thr s.dev c t).pc + 1) ∧
  (∀ (s : State) (c : Cid) (t : Tid) (f : BitVec 24), Free s.dev c t → OfKernel (thr s.dev c t) → f.toNat < 16 →
    ∃ u, Machine.exec (.opPrio c t f) s = .next u ∧ CoreAndReports s u ∧
      ThreadTo s u c t (fun x => { x with level := f.toNat, pc := x.pc + 1 })) ∧
  (∀ (s : State) (c : Cid) (t : Tid), Free s.dev c t → OfKernel (thr s.dev c t) →
    ∃ u b, Machine.exec (.opHalt c t 0) s = .next u ∧
      CoreOnly { s with dev := { s.dev with egr := { s.dev.egr with oldBusy := b } } } u ∧
      ThreadTo s u c t (fun x => { x with state := 5, dbl := false, pc := x.pc + 1 })) ∧
  (∀ (s : State) (pg : BitVec 14) (m : Master) (v : W32) (c o : Nat) (t : Tid), (pageId pg.toNat).bind kctrlOf = some (c, o) →
    Admits s.dev (Rg.pageOf (0x1000 * pg.toNat + o)) m → v.toNat.testBit t.val = true → (thr s.dev c t).state = 5 →
    ∃ u, Machine.exec (.resume pg m v) s = .next u ∧ u.mem = s.mem ∧ (thr u.dev c t).state = 4 ∧
      (thr u.dev c t).pc = (if (thr s.dev c t).dbl then (thr s.dev c t).tpc else (thr s.dev c t).pc) ∧
      (thr u.dev c t).inTrap = (if (thr s.dev c t).dbl then false else (thr s.dev c t).inTrap))

/-- R161, R208, R209. DROP and PUNT write ACTION and REASON of the acting lanes' verdict words; DONE makes its thread wait for its
end; a child's end returns its lanes to its parent's frame and frees it; a root's end hands the flight over. -/
def Obligations.VerdictsAndTheEndOfAFlight : Prop :=
  (∀ (q : Bool) (s : State) (c : Cid) (t : Tid) (r : Nat) (g : Bool), r ≤ (if q then 63 else 60) → OfFlight (thr s.dev c t) →
    let f := BitVec.ofNat 24 (r + one g * 4 * 2 ^ 16)
    let x := thr s.dev c t
    let w := readLanes (atIssue s.dev c t) (actingLanes x g) (fun d n => spaceRead d c 1 (mAddr x.home n 0x1E) 2)
    Issues s.dev c t → x.pc + 1 < 8192 → w.2.1 = .ok →
    ∃ new : Nat → Nat, (∀ v, new v < 2 ^ 16 ∧ new v / 2 ^ 14 = (if q then 2 else 0) ∧ new v % 64 = r ∧ new v / 64 % 256 = v / 64 % 256) ∧
      let dst := w.1.foldl (fun d e => coreWrite d c 1 (mAddr x.home e.1 0x1E) 2 (new e.2)) w.2.2
      (dst.ras.todo = [] → ∃ u, Machine.exec (if q then .opPunt c t f else .opDrop c t f) s = .next u ∧ SameSram u.dev dst ∧
        ThreadTo s u c t (fun x => { x with pc := x.pc + 1 }) ∧ CoreOnly s u)) ∧
  (∀ (s : State) (c : Cid) (t : Tid), Free s.dev c t → OfFlight (thr s.dev c t) →
    ∃ u, Machine.exec (.opDone c t 0) s = .next u ∧ ThreadTo s u c t (fun x => { x with wait := .done }) ∧ CoreAndReports s u) ∧
  (∀ (s : State) (c : Cid) (t : Tid) (p : Nat), Calm s.dev → mayEnd s.dev c t = true → (thr s.dev c t).parent = some p → p ≠ t.val → p < 8 →
    kernelRole s.dev c t = false →
    let x := thr s.dev c t
    ∃ u, Machine.exec (.doneComplete c t) s = .next u ∧ u.mem = s.mem ∧ thr u.dev c t = { issued := x.issued } ∧
      (∀ m g l, (thr s.dev c p).rstack = .child t true m g :: l → ∃ l', (thr u.dev c p).rstack =
        .child t false x.act ((activeLanes x).map (fun n => (n, lctx x n))) :: l')) ∧
  (∀ (s : State) (c : Cid) (t : Tid) (fl : Flight), mayEnd s.dev c t = true → (thr s.dev c t).parent = none →
    (thr s.dev c t).flight.bind (flightById s.dev) = some fl →
    Machine.exec (.doneComplete c t) s = .next { s with dev := settle (finishFlight s.dev c t fl) })

/-- R170, R172, R176, R210. TRAP and an unassigned opcode enter their vectors with the saved registers; RETT returns to CSR_TPC + D
and clears IN_TRAP; CSRR and CSRW read and write the control registers. -/
def Obligations.SystemInstructions : Prop :=
  ThreadRule .opTrap (fun x f => f.toNat < 16 ∧ x.inTrap = false) (fun f x =>
    { x with tpc := x.pc, tcause := 16 + f.toNat, tinfo := BitVec.ofNat 32 (0x70 * 2 ^ 24 + f.toNat), tlanes := x.act, inTrap := true,
             pc := 16 + f.toNat }) ∧
  ThreadRule .opRett (fun x f => f.toNat < 2 ∧ x.inTrap = true ∧ x.tpc + f.toNat < 8192) (fun f x =>
    { x with inTrap := false, pc := x.tpc + f.toNat }) ∧
  (∀ (s : State) (c : Cid) (t : Tid) (w : W32), Free s.dev c t → (thr s.dev c t).inTrap = false →
    assigned (w.toNat / 2 ^ 24) = false →
    ∃ u, Machine.exec (.illegalOp c t w) s = .next u ∧ CoreOnly s u ∧ ThreadTo s u c t (fun x =>
      { x with tpc := x.pc, tcause := 1, tinfo := w, tlanes := x.act, inTrap := true, pc := 1 })) ∧
  (∀ (s : State) (c : Cid) (t : Tid) (f : BitVec 24), Free s.dev c t → f.toNat < 9 →
    ∃ u, Machine.exec (.opCsrr c t f) s = .next u ∧ u.mem = s.mem ∧
      (∀ n ∈ activeLanes (thr s.dev c t), Took 64 (csrRead (atIssue s.dev c t) c t f.toNat) (lctx (thr s.dev c t) n).c false
        (lctx (thr s.dev c t) n) (lctx (thr u.dev c t) n)) ∧
      (∀ n, n ∉ activeLanes (thr s.dev c t) → lctx (thr u.dev c t) n = lctx (thr s.dev c t) n) ∧
      ThreadTo s u c t (fun x => { x with pc := x.pc + 1, lanes := (thr u.dev c t).lanes })) ∧
  ThreadRule .opCsrw (fun x f => f.toNat < 9 ∧ OfKernel x) (fun f x =>
    let v := (lctx x 0).a.toNat
    if f.toNat = 0 then { x with inTrap := v.testBit 0, pc := x.pc + 1 }
    else if f.toNat = 1 then { x with tpc := v % 2 ^ 14, pc := x.pc + 1 }
    else { x with pc := x.pc + 1 })

/-- R127, R157, R191. A core issues from its ready thread of highest issue rank, among equals the one that issued least recently; an
instruction offered by another thread changes no thread. FENCE waits while a helper instruction of the thread is not complete; the waits of FENCE and of a division end. -/
def Obligations.FenceAndDivisionWaits : Prop :=
  (∀ (d : Dev) (c t : Nat), nextThread d c = some t → t < 8 ∧ threadReady d c t = true ∧ ∀ k < 8, threadReady d c k = true →
    issueRank d c k ≤ issueRank d c t ∧ (issueRank d c k = issueRank d c t → (thr d c t).issued ≤ (thr d c k).issued)) ∧
  (∀ (s : State) (c : Cid) (t : Tid) (f : BitVec 24), Calm s.dev → nextThread s.dev c ≠ some t.val →
    ∃ u, Machine.exec (.opNop c t f) s = .next u ∧ u.mem = s.mem ∧ u.dev.core.threads = s.dev.core.threads) ∧
  (∀ (s : State) (c : Cid) (t : Tid), Free s.dev c t →
    ∃ u, Machine.exec (.opFence c t 0) s = .next u ∧ CoreOnly s u ∧
      ThreadTo s u c t (fun x => { x with pc := x.pc + 1, wait := if outstanding s.dev c t then .fence else x.wait })) ∧
  (∀ (s : State) (c : Cid) (t : Tid), (thr s.dev c t).wait = .fence → outstanding s.dev c t = false →
    ∃ u, Machine.exec (.fenceDone c t) s = .next u ∧ thr u.dev c t = { thr s.dev c t with wait := .none } ∧ CoreOnly s u) ∧
  (∀ (s : State) (c : Cid) (t : Tid), (thr s.dev c t).wait = .div →
    ∃ u, Machine.exec (.divisionReady c t) s = .next u ∧ thr u.dev c t = { thr s.dev c t with wait := .none } ∧ CoreOnly s u)

/-- R170, R173, R190. A format A instruction with an operand that meets a cause in one active lane is performed in none: it traps to
the first cause's vector with CSR_TPC, CSR_TCAUSE, CSR_TINFO and CSR_TLANES set, and no lane's registers change. -/
def Obligations.CausesTrapBeforeAnyEffect : Prop :=
  ∀ (mk : Cid → Tid → BitVec 24 → Instr) (op : Nat),
    (mk, op) ∈ [(Instr.opLd, 0x01), (Instr.opAdd, 0x10), (Instr.opSub, 0x12), (Instr.opMul, 0x1B), (Instr.opDiv, 0x1E),
                (Instr.opAnd, 0x28), (Instr.opShl, 0x2C), (Instr.opCadd, 0x40)] →
    ∀ (s : State) (c : Cid) (t : Tid) (f : BitVec 24), Free s.dev c t → (thr s.dev c t).inTrap = false →
      let x := thr s.dev c t
      let out := (actingLanes x ((fa f).s == 4)).filter (outside x (fa f))
      let traps (v lanes : Nat) : Prop := ∃ u, Machine.exec (mk c t f) s = .next u ∧ CoreOnly s u ∧ ThreadTo s u c t (fun x =>
        { x with tpc := x.pc, tcause := v, tinfo := BitVec.ofNat 32 (op * 2 ^ 24 + f.toNat), tlanes := lanes, inTrap := true, pc := v })
      (badA formOp (fa f) = true → traps 3 x.act) ∧
      (badA formOp (fa f) = false → (fa f).b = 6 → x.sp ≤ (fa f).d → traps 7 x.act) ∧
      (badA formOp (fa f) = false → (fa f).b ≠ 6 → out ≠ [] → traps 8 (ofBits out))

/-! ## Infusers -/

/-- The helper instructions: command, opcode, SUB (R222). -/
def Sys2Proof.Terms.helperForms : List ((Cid → Tid → BitVec 4 → BitVec 16 → Instr) × Nat × Nat) :=
  [(.srch, 0xC0, 0), (.srchNoRefresh, 0xC0, 1), (fun c t => .srchx c t false, 0xC1, 0), (fun c t => .srchx c t true, 0xC1, 1),
   (.insrt, 0xC2, 0), (.insrtOnly, 0xC2, 1), (.insrtUpdate, 0xC2, 2), (.del, 0xC3, 0), (.hashCrc32c, 0xC4, 0),
   (.hashSeeded, 0xC4, 1), (.hashToeplitz, 0xC4, 2), (.csumSum, 0xC5, 0), (.csumComplement, 0xC5, 1), (.csumCrc32c, 0xC5, 2),
   (.meterBlind, 0xC6, 0), (.meterAware, 0xC6, 1)] ++
  [(fun c t => .count c t 0, 0xC7, 0), (fun c t => .count c t 1, 0xC7, 1), (fun c t => .count c t 2, 0xC7, 2),
   (fun c t => .gld c t 0, 0xC8, 0), (fun c t => .gld c t 1, 0xC8, 1), (fun c t => .gld c t 2, 0xC8, 2),
   (fun c t => .gld c t 3, 0xC8, 3), (.gldRegister, 0xC8, 8), (fun c t => .gst c t 0, 0xC9, 0), (fun c t => .gst c t 1, 0xC9, 1),
   (fun c t => .gst c t 2, 0xC9, 2), (fun c t => .gst c t 3, 0xC9, 3), (.gst16, 0xC9, 4), (.gstRegister, 0xC9, 8),
   (.gstImage, 0xC9, 12)] ++
  [(fun c t => .atomFetchAdd c t false, 0xCA, 0), (fun c t => .atomFetchAdd c t true, 0xCA, 8),
   (fun c t => .atomFetchAnd c t false, 0xCA, 1), (fun c t => .atomFetchAnd c t true, 0xCA, 9),
   (fun c t => .atomFetchOr c t false, 0xCA, 2), (fun c t => .atomFetchOr c t true, 0xCA, 10),
   (fun c t => .atomSwap c t false, 0xCA, 3), (fun c t => .atomSwap c t true, 0xCA, 11),
   (fun c t => .atomCompareSwap c t false, 0xCA, 4), (fun c t => .atomCompareSwap c t true, 0xCA, 12)] ++
  [(fun c t => .lock c t false, 0xCB, 0), (fun c t => .lock c t true, 0xCB, 8), (.unlk, 0xCC, 0), (.rand, 0xCD, 0),
   (.tstampNs, 0xCE, 0), (.tstampFrac, 0xCE, 1), (.mirr, 0xCF, 0)]

/-- R158, R211, R215. A helper instruction that its helper accepts enters the core's queue with A of each acting lane, makes its
slot pending in those lanes and in no other, and its thread goes on (a LOCK waits). -/
def Obligations.HelperInstructionsEnterTheirQueue : Prop :=
  ∀ p ∈ helperForms, ∀ (s : State) (c : Cid) (t : Tid) (sel : BitVec 4) (id : BitVec 16),
    let w := hWord p.2.1 p.2.2 sel id
    let x := thr s.dev c t
    let ls := actingLanes x (hGuard w)
    let h := helperOf p.2.1
    let e := atIssue s.dev c t
    let cap := captureAll e c t w (keyBytes w (helperRegs e c t w)) ls
    Issues s.dev c t → helperRefuses s.dev c t w = false → ls ≠ [] →
    slotPending s.dev c x.home ls [hSlot w] = false → queueFull s.dev c h = false →
    cap.2.1 = .ok → cap.2.2.ras.todo = [] → x.pc + 1 < 8192 →
    ∃ u a, Machine.exec (p.1 c t sel id) s = .next u ∧ u.mem = s.mem ∧
      queue u.dev c h = queue s.dev c h ++ [a] ∧ (∀ k ≠ h, k < 10 → queue u.dev c k = queue s.dev c k) ∧
      a.word = w ∧ a.t = t.val ∧ a.home = x.home ∧ a.flight = x.flight ∧
      a.lanes.map (fun l => (l.lane, l.a)) = ls.map (fun n => (n, (lctx x n).a)) ∧
      (∀ n k, n < 32 → k < 4 → ((pendOf u.dev c x.home n).testBit k =
        ((pendOf s.dev c x.home n).testBit k || decide (n ∈ ls ∧ k = hSlot w)))) ∧
      ThreadTo s u c t (fun x => { x with pc := x.pc + 1, wait := if p.2.1 = 0xCB then .lock else x.wait })

/-- R213, R171. A helper instruction that is refused, or that no helper claims, traps to vector 2 and enters no queue. -/
def Obligations.RefusedHelperInstructionsTrap : Prop :=
  ∀ (s : State) (c : Cid) (t : Tid) (w : W32), Free s.dev c t → (thr s.dev c t).inTrap = false →
    0xC0 ≤ w.toNat / 2 ^ 24 → w.toNat / 2 ^ 24 ≤ 0xEF → helperRefuses s.dev c t w = true →
    ∃ u, Machine.exec (.helperRefused c t w) s = .next u ∧ CoreOnly s u ∧ ThreadTo s u c t (fun x =>
      { x with tpc := x.pc, tcause := 2, tinfo := w, tlanes := x.act, inTrap := true, pc := 2 })

/-- R216, R217, R218, R225, R227, R228, R230, R232, R234, R387. A helper that a zone's cores share takes nothing of a core whose turn it is not. In its
turn it takes the first lane of the oldest entry of the core's queue: what remains of the entry stays in front and is continued first, and
the lane is answered: CRC32C of its key, ERR and STATUS 1 of a meter and a counter pair that are beyond the last or whose row is withdrawn, a global word big-endian, the old word of an atomic whose new
word memory then holds, the timebase sampled at issue; an accepted store leaves for its target with a completion word. -/
def Obligations.HelperTakesTheOldestLane : Prop :=
  (∀ (s : State) (c : Cid) (h : Fin 10) (n : Nat), queue s.dev c h ≠ [] → 0 < n → sharedRate c h = true →
    nextCore s.dev (cidZone c) h ≠ some (cidCore c) → Machine.exec (.helperTake c h n) s = .next { s with dev := settle s.dev }) ∧
  (∀ (s : State) (c : Cid) (h : Fin 10) (e : HEntry) (l : HLane) (ls : List HLane) (rest : List HEntry),
    queue s.dev c h = e :: rest → e.lanes = l :: ls → helperOf (hOp e.word) = h.val → hOp e.word ≠ 0xCB →
    (∀ p ∈ s.dev.inf.posts, ¬(p.cid = c.val ∧ p.t = e.t)) →
    (sharedRate c h = true → nextCore s.dev (cidZone c) h = some (cidCore c)) →
    let n := 2 ^ hSub e.word
    let a := l.a.toNat
    let res (v : W64) (bad : Bool) : HRes := ⟨h, true, c, e.t, e.home, hSlot e.word, l.lane, v, bad, e.flight⟩
    let bad (k : Nat) : Bool := if isSram a then (hubSramRead s.dev a k).1 else hbmPoisoned s.dev a k
    ∃ m d, Machine.exec (.helperTake c h 1) s = .next { s with mem := m, dev := settle d } ∧
      queue d c h = (if ls = [] then rest else { e with lanes := ls } :: rest) ∧
      (sharedRate c h = true → ls ≠ [] → nextCore d (cidZone c) h = some (cidCore c)) ∧
      (hOp e.word = 0xC4 → hSub e.word = 0 →
        m = s.mem ∧ d.inf.results = s.dev.inf.results ++ [res ((crc32c l.key).setWidth 64) false]) ∧
      (hOp e.word = 0xCE → hSub e.word = 0 →
        m = s.mem ∧ d.inf.results = s.dev.inf.results ++ [res (BitVec.ofNat 64 (e.stamp / 2 ^ 32)) false]) ∧
      (hOp e.word = 0xC6 → e.copy = false → let i := hId e.word + a % 2 ^ 16
        65535 < i ∨ rowWithdrawn s.dev (1 + cidZone c) (10 * 2048) (i / 32) = true →
        m = s.mem ∧ d.inf.results = s.dev.inf.results ++ [res (BitVec.ofNat 64 (2 ^ 63)) false]) ∧
      (hOp e.word = 0xC7 → e.copy = false → let i := hId e.word + a % 2 ^ 20
        1048575 < i ∨ rowWithdrawn s.dev (1 + cidZone c) (9 * 2048 + i % 16) (i / 1024) = true →
        m = s.mem ∧ d.inf.posts = s.dev.inf.posts ∧ d.inf.results = s.dev.inf.results ++ [{ res (completion 1) false with timed := false }]) ∧
      (hOp e.word = 0xC8 → hSub e.word < 4 → unmapped s.dev c n l.a = false →
        m = s.mem ∧ d.inf.results = s.dev.inf.results ++ [res (BitVec.ofNat 64 (beNat (s.mem.readN a n))) (bad n)]) ∧
      (hOp e.word = 0xC8 → hSub e.word < 4 → unmapped s.dev c n l.a = true →
        m = s.mem ∧ d.inf.results = s.dev.inf.results ++ [res (BitVec.allOnes 64) false]) ∧
      (hOp e.word = 0xC9 → hSub e.word < 5 → e.copy = false → unmapped s.dev c l.key.length l.a = false →
        m = s.mem ∧ d.inf.posts = s.dev.inf.posts ++ [⟨c, h, e.t, e.home, hSlot e.word, l.lane, .store a l.key⟩] ∧
        d.inf.results = s.dev.inf.results ++ [{ res (BitVec.ofNat 64 (2 ^ 63)) false with timed := false }]) ∧
      (hOp e.word = 0xCA → hSub e.word = 8 → e.copy = false → unmapped s.dev c 8 l.a = false → hbmLost s.dev a = false →
        d.inf.results = s.dev.inf.results ++ [res (BitVec.ofNat 64 (beNat (s.mem.readN a 8))) (bad 8)] ∧
        beNat (m.readN a 8) = (beNat (s.mem.readN a 8) + beAt l.key 0 8) % 2 ^ 64 ∧
        ∀ b, ¬(a ≤ b ∧ b < a + 8) → m.read b = s.mem.read b))

/-- R216, R218, R219. A result is written into its slot and the pending bit clears; the oldest posted store of a helper is performed
on global memory and leaves every other byte as it was; a lane that passes its timeout has its slot poisoned and one fault noted on
the core's request channel. -/
def Obligations.HelperResultsPostsAndTimeouts : Prop :=
  (∀ (s : State) (c : Cid) (t : Tid) (k : Fin 4) (n : Fin 32) (r : HRes), Calm s.dev →
    s.dev.inf.results.find? (fun r => r.cid == c.val && r.home == t.val && r.slot == k.val && r.lane == n.val) = some r →
    (thr s.dev c t).flight = r.flight →
    ∃ u, Machine.exec (.helperResult c t k n) s = .next u ∧ u.mem = s.mem ∧
      u.dev.inf.results = s.dev.inf.results.erase r ∧
      sword u.dev (cidPlace c) (coreArr c 1) (mAddr t n (0x20 + 8 * k.val) / 8) = { valid := true, data := r.value, poison := r.poison } ∧
      (∀ j, (pendOf u.dev c t n).testBit j = ((pendOf s.dev c t n).testBit j && decide (j ≠ k.val))) ∧
      ∀ c' t', thr u.dev c' t' = thr s.dev c' t') ∧
  (∀ (s : State) (c : Cid) (h : Fin 10) (p : HPost) (a : Nat) (l : List Byte),
    s.dev.inf.posts.find? (fun p => p.cid == c.val && p.helper == h.val) = some p → p.eff = .store a l → hbmLost s.dev a = false →
    ∃ m d, Machine.exec (.postedEffect c h) s = .next { s with mem := m, dev := settle d } ∧ d.inf.posts = s.dev.inf.posts.erase p ∧
      m.readN a l.length = l ∧ ∀ b, ¬(a ≤ b ∧ b < a + l.length) → m.read b = s.mem.read b) ∧
  (∀ (s : State) (c : Cid) (t : Tid) (k : Fin 4) (n : Fin 32) (r : HRes),
    s.dev.inf.results.find? (fun r => r.timed && r.cid == c.val && r.home == t.val && r.slot == k.val && r.lane == n.val) = some r →
    (thr s.dev c t).flight = r.flight →
    ∃ d, Machine.exec (.helperTimeout c t k n) s = .next { s with dev := settle d } ∧
      d.inf.results = s.dev.inf.results.erase r ∧
      sword d (cidPlace c) (coreArr c 1) (mAddr t n (0x20 + 8 * k.val) / 8) = { valid := true, poison := true } ∧
      (pendOf d c t n).testBit k = false ∧ d.ras.todo = s.dev.ras.todo ++ [(reqChan (reqOf c r.t), false)])

/-! ## Register pages -/

/-- Page `k` of `u` is, but for its header changed by `g`, what it was in `s`, and so is all else; telemetry and flights that
leave a held core's slots apart. -/
def Sys2Proof.Terms.PageTo (s u : State) (k : Nat) (g : PageSt → PageSt) : Prop :=
  page u.dev k = g (page s.dev k) ∧ (∀ q, q ≠ k → page u.dev q = page s.dev q) ∧
  ∃ p t b, u = { s with dev := { s.dev with pages := p, tel := t, bar := b } }
/-- Value `v` on the bits `w` of a register that holds `x`. -/
def Sys2Proof.Terms.merged (x w v : W32) : W32 := (x &&& ~~~w) ||| (v &&& w)
/-- PAGE_ERR_INFO of a write of `m` at offset `o` that set bit `b`. -/
def Sys2Proof.Terms.errInfo (o b : Nat) (write : Bool) (m : Master) : W32 :=
  BitVec.ofNat 32 (o + b * 2 ^ 12 + one write * 2 ^ 15 + masterCode m * 2 ^ 16 + masterCore m * 2 ^ 24)
/-- PAGE_ERR takes bit `b`, PAGE_ERR_INFO the access. -/
def Sys2Proof.Terms.withErr (o b : Nat) (write : Bool) (m : Master) (x : PageSt) : PageSt :=
  { x with err := x.err ||| BitVec.ofNat 8 (2 ^ b), info := errInfo o b write m }
/-- The states between which a block acts on values that have taken effect: register `a` of page `k` takes the value `v` on the bits `w`,
every other register keeps its value. -/
def Sys2Proof.Terms.RegTo (s : State) (d : Dev) (a : Nat) (w v : W32) : Prop :=
  rd d a = merged (rd s.dev a) w v ∧ ∀ b, b ≠ a → rd d b = rd s.dev b

/-- R36, R41, R44. HOLD sets the hold of its page and takes the flights from a held core's slots; HELD rises once the block has finished;
a page whose own hold is cleared stays held by its group, forgets values that it could not take, and when it was held takes the value
written in the hold, with GENERATION when that value is new. -/
def Obligations.PagesHoldAndRelease : Prop :=
  ∀ (s : State) (pg : BitVec 14) (m : Master) (p : PageId), pageId pg.toNat = some p → Calm s.dev →
    let k := pg.toNat
    let x := page s.dev k
    (Admits s.dev k m → ∃ u, Machine.exec (.hold pg m) s = .next u ∧ (p.ty ≠ 0x26 → PageTo s u k (fun x => { x with hold := true })) ∧
      (p.ty = 0x26 → u.mem = s.mem ∧ page u.dev k = { x with hold := true } ∧ (∀ a, rd u.dev a = rd s.dev a) ∧
        (x.hold = false → x.group = false → slotFlights u.dev (32 * p.zone + p.inst % 64) = []))) ∧
    (x.held = false → x.commit = false → mayHold s.dev k p = true →
      ∃ u, Machine.exec (.held pg) s = .next u ∧ PageTo s u k (fun x => { x with held := true })) ∧
    (Admits s.dev k m → x.group = true →
      ∃ u, Machine.exec (.holdRelease pg m) s = .next u ∧ PageTo s u k (fun x => { x with hold := false })) ∧
    (Admits s.dev k m → x.group = false → x.held = false →
      ∃ u, Machine.exec (.holdRelease pg m) s = .next u ∧ page u.dev k = { x with hold := false } ∧ waitingOf u.dev.heldW k = [] ∧
        ∀ a, (p.ty = 0x27 → p.idx = 1 → a ≠ Rg.TBL_HELD p.zone) → rd u.dev a = rd s.dev a) ∧
    (∀ a w v, Admits s.dev k m → x.group = false → x.held = true → p.ty ≠ 0x22 → p.ty ≠ 0x28 →
      waitingOf s.dev.heldW k = [⟨a, w, v⟩] →
      ∃ d0 d1, Machine.exec (.holdRelease pg m) s = .next { s with dev := settle (releaseEffect d0 d1 p) } ∧ RegTo s d1 a w v ∧
        waitingOf d1.heldW k = [] ∧
        page d1 k = { x with hold := false, held := false, gen := if rd d1 a = rd s.dev a then x.gen else x.gen + 1 })

/-- R37, R39, R40, R538. COMMIT is pending until the block's boundary; there the staged value takes effect and GENERATION grows, whether or
not the value is new; with nothing staged GENERATION stays; a store threshold whose XON is not below its XOFF keeps its value and sets
RSVD_VALUE with the master of the commit; DISCARD drops the staged values unless a commit is pending. -/
def Obligations.CommitsTakeStagedValues : Prop :=
  ∀ (s : State) (pg : BitVec 14) (m : Master) (p : PageId), pageId pg.toNat = some p → Calm s.dev →
    let k := pg.toNat
    let x := page s.dev k
    (Admits s.dev k m → x.held = false →
      ∃ u, Machine.exec (.commit pg m) s = .next u ∧ PageTo s u k (fun x => { x with commitBy := m, commit := true })) ∧
    (x.commit = true → atBoundary s.dev k = true → waitingOf s.dev.staged k = [] →
      ∃ u, Machine.exec (.commitBoundary pg) s = .next u ∧ page u.dev k = { x with commit := false } ∧ ∀ a, rd u.dev a = rd s.dev a) ∧
    (∀ a w v, x.commit = true → atBoundary s.dev k = true → waitingOf s.dev.staged k = [⟨a, w, v⟩] →
      (∀ r ∈ commitRules s.dev p [⟨a, w, v⟩] a, r.ok (viewOf s.dev [⟨a, w, v⟩]) = true) →
      ∃ d1, Machine.exec (.commitBoundary pg) s = .next { s with dev := settle (commitEffect s.dev d1 p [a]) } ∧ RegTo s d1 a w v ∧
        waitingOf d1.staged k = [] ∧ page d1 k = { x with commit := false, gen := x.gen + 1 }) ∧
    (∀ w v, x.commit = true → p.ty = 0x24 → p.idx = 0 → waitingOf s.dev.staged k = [⟨Rg.ADM_STORE_PFC p.zone, w, v⟩] →
      Rg.pageOf (Rg.ADM_STORE_PFC p.zone) = k → w ≠ 0 →
      let new := merged (rd s.dev (Rg.ADM_STORE_PFC p.zone)) w v
      getF new Fl.ADM_STORE_PFC_XOFF ≤ getF new Fl.ADM_STORE_PFC_XON →
      ∃ u, Machine.exec (.commitBoundary pg) s = .next u ∧ (∀ a, rd u.dev a = rd s.dev a) ∧
        page u.dev k = withErr (Rg.ADM_STORE_PFC p.zone % 0x1000) 3 true x.commitBy { x with commit := false }) ∧
    (Admits s.dev k m → x.commit = false →
      ∃ st, Machine.exec (.discard pg m) s = .next { s with dev := { s.dev with staged := st } } ∧ waitingOf st k = [] ∧
        ∀ q, q ≠ k → waitingOf st q = waitingOf s.dev.staged q) ∧
    (Admits s.dev k m → x.commit = true → Machine.exec (.discard pg m) s = .next s)

/-- R43, R44, R45. Group hold holds every group page that its master reaches and owns, and skips the others with GRP_OWNER; a release
without epoch goes to the held pages that its master owns; COMMIT goes to every group page at once, or waits for the epoch; a write that arms it at or after
the epoch sets EPOCH_LATE and acts; CANCEL takes back what waits, and after a release taken back HOLD reads 1 again; entries change only while no hold and no action is pending;
in the cycle in which the timebase has come to the epoch the commit goes to every group page, and before it nothing happens. -/
def Obligations.GroupHoldActsOnItsPages : Prop :=
  (∀ (s : State) (m : Master) (en : Bool), Admits s.dev (Rg.pageOf Rg.DEV_GROUP_HOLD) m → Calm s.dev →
      let held := rb s.dev Rg.DEV_GROUP_HOLD Fl.DEV_GROUP_HOLD_HOLD
      let epoch := rd64 s.dev Rg.DEV_GROUP_EPOCH_LO Rg.DEV_GROUP_EPOCH_HI
      let reached (pg : Nat) : Prop := pg ∈ groupNames s.dev ∧ (pageId pg).isSome = true ∧ reaches s.dev pg m = true
      let mine (pg : Nat) : Prop := mayWrite (page s.dev pg).owner.toNat m = true
      (held = false → s.dev.relPend = false →
        ∃ u, Machine.exec (.groupHold m en) s = .next u ∧ rb u.dev Rg.DEV_GROUP_HOLD Fl.DEV_GROUP_HOLD_HOLD = true ∧ u.dev.groupBy = m ∧
          ∀ pg, reached pg → (mine pg → (page u.dev pg).group = true) ∧
            (¬mine pg → (page u.dev pg).group = (page s.dev pg).group ∧ (page u.dev pg).hold = (page s.dev pg).hold ∧
              (rd u.dev Rg.DEV_ERR).getLsbD 3 = true)) ∧
      (∀ pg x, held = true → s.dev.relPend = false →
        s.dev.pages.filter (fun e => e.2.group) = [(pg, x)] → reaches s.dev pg m = true →
        (mayWrite x.owner.toNat m = true → x.hold = false →
          ∃ d1, Machine.exec (.groupHoldRelease m false) s = .next { s with dev := settle (releasePage d1 pg m) } ∧
            (page d1 pg).group = false ∧ rb d1 Rg.DEV_GROUP_HOLD Fl.DEV_GROUP_HOLD_HOLD = false) ∧
        (mayWrite x.owner.toNat m = false →
          ∃ u, Machine.exec (.groupHoldRelease m false) s = .next u ∧ u.dev.pages = s.dev.pages ∧
            (rd u.dev Rg.DEV_ERR).getLsbD 3 = true ∧ rb u.dev Rg.DEV_GROUP_HOLD Fl.DEV_GROUP_HOLD_HOLD = false)) ∧
      (s.dev.relPend = false → (∀ pg ∈ groupNames s.dev, (page s.dev pg).held = false) →
        ∃ u, Machine.exec (.groupCommit m held false) s = .next u ∧ rb u.dev Rg.DEV_GROUP_HOLD Fl.DEV_GROUP_HOLD_COMMIT = false ∧
          ∀ pg, reached pg → mine pg → (page u.dev pg).commit = true ∧ (page u.dev pg).commitBy = m) ∧
      (s.dev.relPend = false → nowNs s.dev < epoch →
        ∃ u, Machine.exec (.groupCommit m held true) s = .next u ∧ rb u.dev Rg.DEV_GROUP_HOLD Fl.DEV_GROUP_HOLD_COMMIT = true ∧
          u.dev.pages = s.dev.pages ∧ groupPending u.dev = true) ∧
      (s.dev.relPend = false → epoch ≤ nowNs s.dev → (∀ pg ∈ groupNames s.dev, (page s.dev pg).held = false) →
        ∃ u, Machine.exec (.groupCommit m held true) s = .next u ∧ (rd u.dev Rg.DEV_ERR).getLsbD 4 = true ∧
          ∀ pg, reached pg → mine pg → (page u.dev pg).commit = true ∧ (page u.dev pg).commitBy = m) ∧
      (held = true ∨ s.dev.relPend = true →
        ∃ u, Machine.exec (.groupCancel m true en false) s = .next u ∧ groupPending u.dev = false ∧ u.dev.pages = s.dev.pages ∧
          rb u.dev Rg.DEV_GROUP_HOLD Fl.DEV_GROUP_HOLD_HOLD = true) ∧
      (s.dev.relPend = true →
        ∃ u, Machine.exec (.groupCancel m false false false) s = .next u ∧ groupPending u.dev = false ∧ u.dev.pages = s.dev.pages ∧
          rb u.dev Rg.DEV_GROUP_HOLD Fl.DEV_GROUP_HOLD_HOLD = true) ∧
      (∀ (i : Fin 16) (v : W32), held = false → groupPending s.dev = false → (v.getLsbD 31 = true → (pageId (v.toNat % 2 ^ 14)).isSome = true ∧
          reaches s.dev (v.toNat % 2 ^ 14) m = true) →
        ∃ u, Machine.exec (.groupPageWrite i m v) s = .next u ∧ rd u.dev (Rg.DEV_GROUP_PAGE i) = v &&& 0x80003FFF ∧
          ∀ b, b ≠ Rg.DEV_GROUP_PAGE i → rd u.dev b = rd s.dev b) ∧
      (∀ (i : Fin 16) (v : W32), held = true ∨ groupPending s.dev = true →
        ∃ u, Machine.exec (.groupPageWrite i m v) s = .next u ∧ RegTo s u.dev Rg.DEV_ERR 2 2)) ∧
  (∀ s : State, Calm s.dev → epochCome s.dev = false → Machine.exec .epochAction s = .next s) ∧
  (∀ s : State, Calm s.dev → s.dev.relPend = false → commitPending s.dev = true →
    rd64 s.dev Rg.DEV_GROUP_EPOCH_LO Rg.DEV_GROUP_EPOCH_HI ≤ nowNs s.dev → (∀ pg ∈ groupNames s.dev, (page s.dev pg).held = false) →
    ∃ u, Machine.exec .epochAction s = .next u ∧ commitPending u.dev = false ∧
      ∀ pg ∈ groupNames s.dev, (pageId pg).isSome = true → reaches s.dev pg s.dev.groupBy = true →
        mayWrite (page s.dev pg).owner.toNat s.dev.groupBy = true →
        (page u.dev pg).commit = true ∧ (page u.dev pg).commitBy = s.dev.groupBy)

/-- R9, R36, R37, R39, R41, R49, R52, R53, R54. The first check that a write fails ends it, with its PAGE_ERR bit and the access in
PAGE_ERR_INFO; a write that passes takes effect by the access code of its register; of two masters in one cycle the first in order wins
and the other sets CONFLICT; an access to no page is recorded in DEV_ERR. -/
def Obligations.RegisterWritesFollowTheChecks : Prop :=
  ∀ (s : State) (addr : BitVec 26) (m : Master) (n : Nat) (v : W64), treeRuns s.dev 2 = true → Calm s.dev → n ≤ 4 →
    let a := addr.toNat
    let k := a / 0x1000
    let off := a % 0x1000
    let x := page s.dev k
    let write (u : State) : Prop := Machine.exec (.registerWrite addr [⟨m, n, v, 0⟩]) s = .next u
    (∀ p, pageId k = some p → reaches s.dev k m = true → inWindow s.dev a m = false →
      let refused (b : Nat) : Prop := ∃ u, write u ∧ PageTo s u k (withErr off b true m)
      let reg := off / 4 * 4
      (x.ready = false → refused 7) ∧
      (x.ready = true → ownerOk s.dev k reg m = false → refused 5) ∧
      (x.ready = true → ownerOk s.dev k reg m = true → 4 < a % 4 + n → refused 1) ∧
      (x.ready = true → ownerOk s.dev k reg m = true → a % 4 + n ≤ 4 → isHole s.dev k p reg = true → refused 2) ∧
      (x.ready = true → ownerOk s.dev k reg m = true → a % 4 + n ≤ 4 → isHole s.dev k p reg = false → n < 4 → sideReg p reg = true →
        refused 0)) ∧
    (n = 4 → Admits s.dev k m →
      (a = Rg.DEV_GROUP_EPOCH_LO → ∃ u, write u ∧ RegTo s u.dev a (BitVec.allOnes 32) (v.setWidth 32)) ∧
      (a = Rg.DEV_ERR → ∃ u, write u ∧ rd u.dev a = rd s.dev a &&& ~~~(v.setWidth 32 &&& 0x1F) ∧ ∀ b, b ≠ a → rd u.dev b = rd s.dev b) ∧
      (∀ z, z < 4 → a = Rg.URN_SPILL_REGION z → (v.toNat % 128) ≤ 95 → v.toNat / 256 % 16 ≤ 8 →
        (x.held = false → ∃ u, write u ∧ u.dev.heldW = s.dev.heldW ∧ rd u.dev a = rd s.dev a ∧ (page u.dev k).err = x.err ||| 16) ∧
        (x.held = true → ∃ u, write u ∧ rd u.dev a = rd s.dev a ∧
          (tget stagedDflt u.dev.heldW a).mask = (tget stagedDflt s.dev.heldW a).mask ||| 0xF7F ∧
          (tget stagedDflt u.dev.heldW a).val = merged (tget stagedDflt s.dev.heldW a).val 0xF7F (v.setWidth 32))) ∧
      (∀ z, z < 4 → a = Rg.ADM_STORE_PFC z → getF (v.setWidth 32) Fl.ADM_STORE_PFC_XOFF ≤ 30464 →
        ∃ u, write u ∧ (∀ b, rd u.dev b = rd s.dev b) ∧ (page u.dev k).err = x.err ∧
          getF (tget stagedDflt u.dev.staged a).val Fl.ADM_STORE_PFC_XOFF = getF (v.setWidth 32) Fl.ADM_STORE_PFC_XOFF ∧
          getF (tget stagedDflt u.dev.staged a).val Fl.ADM_STORE_PFC_XON = getF (v.setWidth 32) Fl.ADM_STORE_PFC_XON) ∧
      (off = 0x24 → ∀ p b c, pageId k = some p → pageEvents p = some (b, c) → ∃ u, write u ∧
        (page u.dev k).intMask = v.setWidth 32 &&& BitVec.ofNat 32 (2 ^ c - 1) ∧ ∀ b, rd u.dev b = rd s.dev b) ∧
      (off = 4 → x.group = true → v.toNat % 8 = 6 →
        ∃ u, write u ∧ PageTo s u k (fun x => withErr 4 3 true m { x with hold := false }))) ∧
    (∀ v' : W64, Admits s.dev (Rg.pageOf Rg.DEV_GROUP_EPOCH_LO) .hostA → Admits s.dev (Rg.pageOf Rg.DEV_GROUP_EPOCH_LO) .hostB →
      a = Rg.DEV_GROUP_EPOCH_LO →
      (∃ u, Machine.exec (.registerWrite addr [⟨.hostB, 4, v, 0⟩, ⟨.hostA, 4, v', 0⟩]) s = .next u ∧
        RegTo s u.dev a (BitVec.allOnes 32) (v'.setWidth 32) ∧ (page u.dev k).err = x.err ||| 64 ∧
        (page u.dev k).info = errInfo off 6 true .hostA ||| 0x200000) ∧
      (∀ i j, i < 4 → j < 4 → ∃ u, Machine.exec (.registerWrite addr [⟨.hostB, 1, v, i⟩, ⟨.hostA, 1, v', j⟩]) s = .next u ∧
        RegTo s u.dev a (BitVec.ofNat 32 (0xFF * 2 ^ (8 * j))) (BitVec.ofNat 32 (v'.toNat % 2 ^ 8 * 2 ^ (8 * j))) ∧
        (page u.dev k).err = x.err ||| 64 ∧ (page u.dev k).info = errInfo (off + i) 6 true .hostA ||| 0x200000)) ∧
    (pageFor s.dev a m = none → inWindow s.dev a m = false →
      (∃ u, Machine.exec (.unimplementedPageAccess addr m true) s = .next u ∧
        rd u.dev Rg.DEV_ERR = rd s.dev Rg.DEV_ERR ||| 1 ∧ rd u.dev Rg.DEV_ERR_ADDR = BitVec.ofNat 32 (a + masterCode m * 2 ^ 26 + 2 ^ 29) ∧
        ∀ b, b ≠ Rg.DEV_ERR → b ≠ Rg.DEV_ERR_ADDR → rd u.dev b = rd s.dev b) ∧
      (∃ u, Machine.exec (.unimplementedPageAccess addr m false) s = .next u ∧
        rd u.dev Rg.DEV_ERR = rd s.dev Rg.DEV_ERR ||| 1 ∧ rd u.dev Rg.DEV_ERR_ADDR = BitVec.ofNat 32 (a + masterCode m * 2 ^ 26) ∧
        tget zero64 u.dev.rdata (masterKey m) = 0xFFFFFFFF))

/-- R36. INT_FORCE makes the named events of the page occur: exactly those bits of INT_STATUS that the page has rise, and one that rises
unmasked outside an isolated zone is an edge on its source, which sets PENDING and counts. -/
def Obligations.ForcedEventsRaiseTheirBits : Prop :=
  ∀ (s : State) (pg : BitVec 14) (m : Master) (v : W32) (p : PageId) (base n : Nat), pageId pg.toNat = some p →
    pageEvents p = some (base, n) → Admits s.dev pg.toNat m →
    ∃ u, Machine.exec (.intForce pg m v) s = .next u ∧ u.mem = s.mem ∧ (∀ a, rd u.dev a = rd s.dev a) ∧
      (∀ i, i < 32 → (page u.dev pg.toNat).intStatus.getLsbD i = ((page s.dev pg.toNat).intStatus.getLsbD i || (v.getLsbD i && decide (i < n)))) ∧
      (∀ q, q ≠ pg.toNat → page u.dev q = page s.dev q) ∧
      (∀ i, i < n → v.getLsbD i = true → (page s.dev pg.toNat).intStatus.getLsbD i = false → (page s.dev pg.toNat).intMask.getLsbD i = false →
        (∀ z, z < 4 → isolated s.dev z = false) →
        (src u.dev (base + i)).pending = true ∧ (src u.dev (base + i)).count = satInc8 (src s.dev (base + i)).count)

/-- R47, R51, R53, R415, R418. A read of a counter's low half gives it and keeps the high half for its master; the masters that read an RC
register in a cycle all receive its value and it clears once; a narrow read of a register with side effects gives its bytes without the
effect and sets NARROW; I3C and MEMACC read and write registers as the firmware does, answer a bad
command or a firmware that is not READY, and MEMACC reads 0 while it is not enabled. -/
def Obligations.ReadsLatchClearAndGoThroughTheFirmware : Prop :=
  (∀ (s : State) (addr : BitVec 26) (m : Master) (p : PageId), let a := addr.toNat
    Answers s.dev (a / 0x1000) m → pageId (a / 0x1000) = some p → windowZone a = none → counterLow s.dev a = true → a % 4 = 0 → Calm s.dev →
    ∃ u, Machine.exec (.counterLoRead addr m) s = .next u ∧ tget zero64 u.dev.rdata (masterKey m) = ((ctrShown s.dev a).setWidth 32).setWidth 64 ∧
      getLatch u.dev a m = some (BitVec.ofNat 32 ((ctrShown s.dev a).toNat / 2 ^ 32)) ∧ u.dev.ctrs = s.dev.ctrs ∧ u.dev.regs = s.dev.regs) ∧
  (∀ (s : State) (addr : BitVec 26) (ms : List Master) (p : PageId) (r : RegD) (i : Nat), let a := addr.toNat
    (∀ m ∈ ms, Answers s.dev (a / 0x1000) m) → ms ≠ [] → pageId (a / 0x1000) = some p → windowZone a = none → a % 4 = 0 → 0x40 ≤ a % 0x1000 →
    ctrAt p (a % 0x1000) = none → regAt p (a % 0x1000) = some (r, i) → rcFields p (a % 0x1000) ≠ [] → openReg s.dev p r.off i = false → Calm s.dev →
    ∃ u, Machine.exec (.rcRead addr ⟨4, ms⟩) s = .next u ∧
      (∀ m ∈ ms, tget zero64 u.dev.rdata (masterKey m) = (blockVal s.dev p a r.off i).setWidth 64) ∧
      (∀ f ∈ rcFields p (a % 0x1000), getF (rd u.dev a) ⟨f.hi, f.lo⟩ = f.fact) ∧ ∀ b, b ≠ a → rd u.dev b = rd s.dev b) ∧
  (∀ (s : State) (addr : BitVec 26) (m : Master) (n : Nat) (p : PageId), let a := addr.toNat
    Answers s.dev (a / 0x1000) m → pageId (a / 0x1000) = some p → windowZone a = none → 0 < n → n < 4 → a % 4 + n ≤ 4 →
    isHole s.dev (a / 0x1000) p (a % 0x1000 / 4 * 4) = false → sideReg p (a % 0x1000 / 4 * 4) = true → Calm s.dev →
    ∃ u, Machine.exec (.rcRead addr ⟨n, [m]⟩) s = .next u ∧ (∀ b, rd u.dev b = rd s.dev b) ∧
      page u.dev (a / 0x1000) = withErr (a % 0x1000) 0 false m (page s.dev (a / 0x1000)) ∧
      tget zero64 u.dev.rdata (masterKey m) =
        BitVec.ofNat 64 ((regRead s.dev (a / 4 * 4) m).1.toNat / 2 ^ (8 * (a % 4)) % 2 ^ (8 * n))) ∧
  (∀ (s : State) (addr : W32) (words : List W32), words.length = 0 ∨ 16 < words.length → Calm s.dev →
    Machine.exec (.i3cRead addr words.length) s = .next { s with dev := emit s.dev (.i3cBytes [2]) } ∧
    Machine.exec (.i3cWrite addr words) s = .next { s with dev := emit s.dev (.i3cBytes [2]) }) ∧
  (∀ (s : State) (addr : W32), fwReady s.dev = true → addr.toNat + 4 ≤ 2 ^ 26 →
    let (v, d) := regRead s.dev addr.toNat fwMaster
    Machine.exec (.i3cRead addr 1) s = .next { s with dev := settle (emit d (.i3cBytes (0 :: leBytes 4 v.toNat))) }) ∧
  (∀ (s : State) (v : W32), fwReady s.dev = true → Calm s.dev → Admits s.dev (Rg.pageOf Rg.DEV_GROUP_EPOCH_LO) fwMaster →
    (∃ u, Machine.exec (.i3cWrite (BitVec.ofNat 32 Rg.DEV_GROUP_EPOCH_LO) [v]) s = .next u ∧ RegTo s u.dev Rg.DEV_GROUP_EPOCH_LO (BitVec.allOnes 32) v ∧
      u.dev.out = s.dev.out ++ [.i3cBytes [0]]) ∧
    (rb s.dev Rg.MGT_DBG Fl.MGT_DBG_MEMACC_EN = true →
      ∃ u, Machine.exec (.memacc (BitVec.ofNat 26 Rg.DEV_GROUP_EPOCH_LO) (some v)) s = .next u ∧
        RegTo s u.dev Rg.DEV_GROUP_EPOCH_LO (BitVec.allOnes 32) v)) ∧
  (∀ (s : State) (addr : BitVec 26) (v : W32), rb s.dev Rg.MGT_DBG Fl.MGT_DBG_MEMACC_EN = false → Calm s.dev →
    Machine.exec (.memacc addr none) s = .next { s with dev := emit s.dev (.jtag (wordBits 32 0)) } ∧
    Machine.exec (.memacc addr (some v)) s = .next s)

/-! ## Die links -/

/-- R16 to R23, R374, R392 to R394. A link delivers each flit once and in order; the CRC of every flit is checked, a failed one is
counted and kept, the flit in turn is replayed out of the sender's buffer, which holds what is not acknowledged, and the ninth failure
isolates the zone; lanes whose bits differ between a failed copy and its replay take one fault each; a link retrains by command
and after an isolation, isolates by command, and returns after 1 ms of its test with the edges latched in the zone. -/
def Obligations.LinksDeliverInOrderAndRetrain : Prop :=
  ∀ (s : State) (z : Zone),
    let l := lnk s.dev z
    let ctl := Rg.XB_LINK_CTRL z
    (∀ (up ok : Bool) (seq ack : Nat) (sent bits : List (BitVec 40)), l.state ≠ 3 ∨ flitOk (dirOf l up) seq sent bits ok = false →
      Machine.exec (.flitReceive z up ⟨seq, ack⟩ ⟨sent, bits⟩ ok) s = .next s) ∧
    (∀ (up : Bool) (seq ack : Nat) (sent bits : List (BitVec 40)), let x := dirOf l up
      l.state = 3 → sent.length = 512 → bits.length = 512 → (∀ e ∈ x.buf, e.1 = seq → e.2 = sent) →
      (bits = sent → seq = x.next →
        ∃ u k, Machine.exec (.flitReceive z up ⟨seq, ack⟩ ⟨sent, bits⟩ true) s = .next u ∧ u = { s with dev := { s.dev with link := k } } ∧
        (dirOf (lnk u.dev z) up).next = x.next + 1 ∧ (dirOf (lnk u.dev z) up).delivered = x.delivered + 1 ∧
        (dirOf (lnk u.dev z) up).replay = false ∧ (dirOf (lnk u.dev z) up).fails = 0 ∧
        (dirOf (lnk u.dev z) up).pairs = x.pairs ++ (x.failed.filter (fun e => decide (e.1 = seq))).map (fun e => (e.2, sent)) ∧
        (dirOf (lnk u.dev z) up).failed = x.failed.filter (fun e => decide (e.1 ≠ seq)) ∧
        (dirOf (lnk u.dev z) (!up)).buf = (dirOf l (!up)).buf.filter (fun e => decide (ack ≤ e.1 ∨ (dirOf l (!up)).next ≤ e.1)) ∧
        (dirOf (lnk u.dev z) (!up)).delivered = (dirOf l (!up)).delivered ∧ (lnk u.dev z).state = 3 ∧
        ∀ y, y ≠ z.val → lnk u.dev y = lnk s.dev y) ∧
      (bits = sent → seq ≠ x.next → ∃ u k, Machine.exec (.flitReceive z up ⟨seq, ack⟩ ⟨sent, bits⟩ true) s = .next u ∧
        u = { s with dev := { s.dev with link := k } } ∧ (dirOf (lnk u.dev z) up).next = x.next ∧
        (dirOf (lnk u.dev z) up).delivered = x.delivered ∧ (dirOf (lnk u.dev z) up).fails = x.fails) ∧
      (seq ≠ x.next → ∃ u, Machine.exec (.flitReceive z up ⟨seq, ack⟩ ⟨sent, bits⟩ false) s = .next u ∧
        ctr u.dev (Rg.XB_CRC_ERR z) = ctr s.dev (Rg.XB_CRC_ERR z) + 1 ∧ u.dev.out = s.dev.out ∧ (lnk u.dev z).state = 3 ∧
        (dirOf (lnk u.dev z) up).next = x.next ∧ (dirOf (lnk u.dev z) up).fails = x.fails ∧
        (dirOf (lnk u.dev z) up).failed = x.failed ++ (if x.next ≤ seq then [(seq, bits)] else [])) ∧
      (seq = x.next → x.fails < 8 → ∃ u, Machine.exec (.flitReceive z up ⟨seq, ack⟩ ⟨sent, bits⟩ false) s = .next u ∧ u.mem = s.mem ∧
        u.dev.out = s.dev.out ++ [.replay z up seq (((dirOf (lnk u.dev z) up).buf.filter (fun e => decide (seq ≤ e.1))).map (·.2))] ∧
        (seq, sent) ∈ (dirOf (lnk u.dev z) up).buf ∧
        ctr u.dev (Rg.XB_CRC_ERR z) = ctr s.dev (Rg.XB_CRC_ERR z) + 1 ∧ ctr u.dev (Rg.XB_REPLAY_CNT z) = ctr s.dev (Rg.XB_REPLAY_CNT z) + 1 ∧
        (dirOf (lnk u.dev z) up).next = x.next ∧ (dirOf (lnk u.dev z) up).delivered = x.delivered ∧
        (dirOf (lnk u.dev z) up).replay = true ∧ (dirOf (lnk u.dev z) up).fails = x.fails + 1 ∧
        (dirOf (lnk u.dev z) up).failed = x.failed ++ [(seq, bits)] ∧ (lnk u.dev z).state = 3) ∧
      (seq = x.next → 8 ≤ x.fails → ∃ d, Machine.exec (.flitReceive z up ⟨seq, ack⟩ ⟨sent, bits⟩ false) s = .next { s with dev := isolateZone d z } ∧
        (dirOf (lnk d z) up).fails = x.fails + 1 ∧ (lnk d z).isolated = l.isolated)) ∧
    (∀ (up : Bool) (a b : List (BitVec 40)) (rest : List (List (BitVec 40) × List (BitVec 40))), let x := dirOf l up
      x.pairs = (a, b) :: rest → Calm s.dev →
        ∃ d, Machine.exec (.replayAttribution z up) s = .next { s with dev := settle d } ∧
          d.ras.todo = ((List.range 512).filter (fun i => decide (a.getD i 0 ≠ b.getD i 0))).map (fun i => (linkChan z up (physLane x i), false)) ∧
          (dirOf (lnk d z) up).pairs = rest) ∧
    (∀ m : Master, Admits s.dev (Rg.pageOf ctl) m →
      (∃ u, Machine.exec (.retrain z m) s = .next u ∧ (lnk u.dev z).state = 1 ∧ (lnk u.dev z).tried = nowNs s.dev) ∧
      (∃ u, Machine.exec (.isolate z m true) s = .next u ∧ (lnk u.dev z).state = 4) ∧
      (isolated s.dev z = true → ∃ u, Machine.exec (.isolate z m true) s = .next u ∧ rb u.dev ctl Fl.XB_LINK_CTRL_ISOLATE = true ∧
        lnk u.dev z = { l with state := 4 } ∧ (∀ y, y ≠ z.val → lnk u.dev y = lnk s.dev y) ∧ ∀ a, a ≠ ctl → rd u.dev a = rd s.dev a) ∧
      (isolated s.dev z = true → rb s.dev ctl Fl.XB_LINK_CTRL_ISOLATE = true →
        ∃ u, Machine.exec (.isolate z m false) s = .next u ∧ rb u.dev ctl Fl.XB_LINK_CTRL_ISOLATE = false ∧
          lnk u.dev z = { l with state := 1, tried := nowNs s.dev } ∧ ∀ a, a ≠ ctl → rd u.dev a = rd s.dev a)) ∧
    (∀ cause, isoCause s.dev z cause = true → ∃ u, Machine.exec (.zoneIsolate z cause) s = .next u ∧ (lnk u.dev z).state = 4) ∧
    (∀ cause, isoCause s.dev z cause = false → Machine.exec (.zoneIsolate z cause) s = .next s) ∧
    (l.state = 2 → 1000000 ≤ elapsed (nowNs s.dev) l.prbs →
      rb s.dev ctl Fl.XB_LINK_CTRL_ISOLATE = true ∨ dirLanes l.up < 256 ∨ dirLanes l.down < 256 →
      ∃ u, Machine.exec (.linkPrbsPass z) s = .next u ∧ (lnk u.dev z).state = 4) ∧
    (l.state = 2 → l.isolated = true → 1000000 ≤ elapsed (nowNs s.dev) l.prbs →
      rb s.dev ctl Fl.XB_LINK_CTRL_ISOLATE = true ∨ dirLanes l.up < 256 ∨ dirLanes l.down < 256 →
      ∃ u k, Machine.exec (.linkPrbsPass z) s = .next u ∧ u = { s with dev := { s.dev with link := k } } ∧ lnk u.dev z = { l with state := 4 }) ∧
    (l.state = 2 → l.isolated = true → 1000000 ≤ elapsed (nowNs s.dev) l.prbs → rb s.dev ctl Fl.XB_LINK_CTRL_ISOLATE = false →
      256 ≤ dirLanes l.up → 256 ≤ dirLanes l.down →
      ∃ u, Machine.exec (.linkPrbsPass z) s = .next u ∧ (lnk u.dev z).state = 3 ∧ isolated u.dev z = false ∧ (lnk u.dev z).rebuilding = true ∧
        ∀ i, i < 96 → (src s.dev (128 + 96 * z.val + i)).isoPending = true →
          (src u.dev (128 + 96 * z.val + i)).pending = true ∧ (src u.dev (128 + 96 * z.val + i)).isoPending = false) ∧
    (l.state ≠ 2 ∨ elapsed (nowNs s.dev) l.prbs < 1000000 → Machine.exec (.linkPrbsPass z) s = .next s) ∧
    (let p := rf s.dev Rg.RAS_LINK_RETRY Fl.RAS_LINK_RETRY_PERIOD_MS * 1000000
     isolated s.dev z = true → l.state ≠ 1 → l.state ≠ 2 → rb s.dev ctl Fl.XB_LINK_CTRL_ISOLATE = false → p ≠ 0 → p ≤ elapsed (nowNs s.dev) l.tried →
      ∃ u k, Machine.exec (.linkRetry z) s = .next u ∧ u = { s with dev := { s.dev with link := k } } ∧
        lnk u.dev z = { l with state := 1, tried := nowNs s.dev }) ∧
    (rb s.dev ctl Fl.XB_LINK_CTRL_ISOLATE = true → Machine.exec (.linkRetry z) s = .next s)

/-! ## Optical line side -/

/-- `u` differs from `s` in its devices alone. -/
def Sys2Proof.Terms.OnlyDev (s u : State) : Prop := u.mem = s.mem ∧ u.pending = s.pending
/-- Everything of the device but its ports, lasers and lanes' own records (the `line` field) and what page events and counts change is as
before. -/
def Sys2Proof.Terms.LineOnly (s u : State) : Prop :=
  ∃ l r c p i k t, u = { s with dev := { s.dev with line := l, regs := r, ctrs := c, pages := p, ic := i, ket := k, tel := t } }

/-- R60 to R66, R81. A measurement sets both powers of an engine and OE_LI_PWR and, with both inputs at or above RETIRE, touches nothing
else of the line; an input drawn from that falls below RETIRE counts a switchover, moves all draw to the other and is one fault; 10 s of light return a SUSPECT input,
and a SHADOW input within its range; the inputs change roles after ROTATE_HOURS; RESTORE takes a RETIRED input to SHADOW; an open interlock
ends all permission to emit and a closed one gives it back. -/
def Obligations.LaserInputsFollowTheirLight : Prop :=
  ∀ (s : State) (e : Engine),
    let c (i : Nat) : Nat := laserChan e i
    let st (i : Nat) : Nat := (chan s.dev (c i)).state
    let run (i : Nat) (p : W16) : Option Nat :=
      if liWarn s.dev e ≤ p.toInt then (laser s.dev e i).run.or (some (nowNs s.dev)) else none
    (∀ p0 p1 : W16, Calm s.dev → st 0 ≠ 2 → st 1 ≠ 2 → liRetire s.dev e ≤ p0.toInt → liRetire s.dev e ≤ p1.toInt →
      ∃ u, Machine.exec (.liMeasure e p0 p1) s = .next u ∧ LineOnly s u ∧
        rd u.dev (Rg.OE_LI_PWR e) = BitVec.ofNat 32 (p0.toNat + p1.toNat * 65536) ∧ (∀ a, a ≠ Rg.OE_LI_PWR e → rd u.dev a = rd s.dev a) ∧
        (laser u.dev e 0).pw = p0 ∧ (laser u.dev e 0).run = run 0 p0 ∧ (laser u.dev e 1).pw = p1 ∧ (laser u.dev e 1).run = run 1 p1 ∧
        u.dev.line.ports = s.dev.line.ports ∧ u.dev.line.lanes = s.dev.line.lanes) ∧
    (∀ (i : Fin 2) (p : W16), Calm s.dev → st i ≠ 2 → drawsFrom s.dev e i = true → (laser s.dev e i).below = false → p.toInt < liRetire s.dev e →
      liRetire s.dev e ≤ (laser s.dev e (1 - i.val)).pw.toInt →
      ∃ d, Machine.exec (.liSwitchover e i p) s = .next { s with dev := settle d } ∧ d.ras.todo = [(c i, false)] ∧
        (laser d e i).pw = p ∧ ctr d (Rg.OE_LI_SWITCH_CNT e) = ctr s.dev (Rg.OE_LI_SWITCH_CNT e) + 1 ∧ d.line.ports = s.dev.line.ports ∧
        (engine d e).draw = 2 - i.val) ∧
    (∀ i : Fin 2, st i = 1 → (∃ t, (laser s.dev e i).run = some t ∧ 10000000000 ≤ elapsed (nowNs s.dev) t) →
      ∃ u, Machine.exec (.liRecover e i) s = .next u ∧ OnlyDev s u ∧ (chan u.dev (c i)).state = 0 ∧
        (chan u.dev (c i)).count = (chan s.dev (c i)).count ∧ (engine u.dev e).noLight = false ∧
        (engine u.dev e).draw = if st (1 - i.val) = 0 then 0 else i.val + 1) ∧
    (∀ i : Fin 2, st i = 2 → (∃ t, (laser s.dev e i).shadow = some t ∧ 10000000000 ≤ elapsed (nowNs s.dev) t) →
      liWarn s.dev e ≤ (laser s.dev e i).pw.toInt → (laser s.dev e i).pw.toInt < liHigh s.dev e →
      ∃ u, Machine.exec (.liRecover e i) s = .next u ∧ (chan u.dev (c i)).state = 0 ∧ ctr u.dev (Rg.RAS_RESTORED 5) = ctr s.dev (Rg.RAS_RESTORED 5) + 1) ∧
    (∀ i : Fin 2, st i = 0 → (engine s.dev e).noLight = false → Machine.exec (.liRecover e i) s = .next s) ∧
    (rb s.dev (Rg.OE_CTRL e) Fl.OE_CTRL_ROTATE_EN = true → st 0 = 0 → st 1 = 0 → (page s.dev (oePage e)).held = false →
      rf s.dev (Rg.OE_LI_SHARE e) Fl.OE_LI_SHARE_ROTATE_HOURS ≤ poweredHours s.dev e →
      ∃ u l, Machine.exec (.liRotate e) s = .next u ∧ u = { s with dev := { s.dev with line := l } } ∧
        engine u.dev e = { engine s.dev e with major := !(engine s.dev e).major, hours := 0, since := s.dev.life.powered } ∧
        ∀ y, y ≠ e.val → engine u.dev y = engine s.dev y) ∧
    (rb s.dev (Rg.OE_CTRL e) Fl.OE_CTRL_ROTATE_EN = false → Machine.exec (.liRotate e) s = .next s) ∧
    (∀ m, Admits s.dev (Rg.pageOf (Rg.OE_CTRL e)) m →
      (st 0 = 3 → ∃ u, Machine.exec (.li0Restore e m) s = .next u ∧ (chan u.dev (c 0)).state = 2 ∧ (laser u.dev e 0).shadow = some (nowNs s.dev)) ∧
      (st 1 = 3 → ∃ u, Machine.exec (.li1Restore e m) s = .next u ∧ (chan u.dev (c 1)).state = 2 ∧ (laser u.dev e 1).shadow = some (nowNs s.dev)) ∧
      (st 0 ≠ 3 → Machine.exec (.li0Restore e m) s = .next s) ∧ (st 1 ≠ 3 → Machine.exec (.li1Restore e m) s = .next s)) ∧
    (∀ nack : W32,
      (s.dev.line.permit = true → ∃ u, Machine.exec (.interlockHigh nack) s = .next u ∧ OnlyDev s u ∧ u.dev.line.permit = false ∧ ∀ l, laneLit u.dev l = false) ∧
      (s.dev.line.permit = false → ∃ u, Machine.exec (.interlockLow nack) s = .next u ∧ OnlyDev s u ∧ u.dev.line.permit = true ∧
        u.dev.line.ports = s.dev.line.ports ∧ ∀ l, laneLit u.dev l = laneLit { s.dev with line := { s.dev.line with permit := true } } l) ∧
      (s.dev.line.permit = true → Machine.exec (.interlockLow nack) s = .next s) ∧ (s.dev.line.permit = false → Machine.exec (.interlockHigh nack) s = .next s))

/-- R66 to R72. An output monitor sets its lane dark, which loses its lock and takes its port down with one fault; a retune sets the heater and
counts a miss, and the loss of ring lock is one fault; a codeword counts once, in the bin of its symbol errors or as uncorrectable, with the
alignment markers in error; a port is UP
when all its lanes have lock and neither end signals a fault; it opens at a boundary of an opened zone once its lanes are locked. -/
def Obligations.LanesAndPortsFollowTheirLocks : Prop :=
  ∀ (s : State), Calm s.dev →
    (∀ l : Lane, let p := lanePort s.dev l
      ∃ d, Machine.exec (.laneOverpower l) s = .next { s with dev := settle d } ∧ d.ras.todo = [(laneChan l, false)] ∧ (lane d l).dark = true ∧
        (port d p).up = false ∧ (port d p).locks.testBit (l.val - p) = false ∧ (port d p).opened = false) ∧
    (∀ (l : Lane) (h : Nat) (win : Bool), let e := l.val / 16
      ∃ u, Machine.exec (.heaterRetune l h win true) s = .next u ∧ LineOnly s u ∧
        rf u.dev (Rg.OE_LANE_RING e (l.val % 16)) Fl.OE_LANE_RING_HEATER = min 4095 h ∧ (lane u.dev l).ring = true ∧
        ctr u.dev (Rg.OE_CAL_MISS_CNT e) = ctr s.dev (Rg.OE_CAL_MISS_CNT e) + (if win then 0 else 1)) ∧
    (∀ (l : Lane) (h : Nat) (win : Bool), (lane s.dev l).ring = true →
      ∃ d, Machine.exec (.heaterRetune l h win false) s = .next { s with dev := settle d } ∧ d.ras.todo = [(laneChan l, false)] ∧ (lane d l).ring = false) ∧
    (∀ (p : Port) (errs : List Nat) (am : Nat), let q := p.val / 4
      let k := p.val % 4
      let n := (errs.take (portLanes s.dev p).length).foldl (· + ·) 0
      (portBegins s.dev p = false → Machine.exec (.fecCodeword p ⟨errs, am⟩) s = .next s) ∧
      (portBegins s.dev p = true → ∃ u, Machine.exec (.fecCodeword p ⟨errs, am⟩) s = .next u ∧ (∀ a, rd u.dev a = rd s.dev a) ∧
        ctr u.dev (Rg.FEC_CW q k) = ctr s.dev (Rg.FEC_CW q k) + 1 ∧
        ctr u.dev (Rg.PCS_AM_ERR q k) = ctr s.dev (Rg.PCS_AM_ERR q k) + BitVec.ofNat 64 am ∧
        (∀ b, b ≤ 15 → ctr u.dev (Rg.FEC_BIN q k b) = ctr s.dev (Rg.FEC_BIN q k b) + (if b = n then 1 else 0)) ∧
        ctr u.dev (Rg.FEC_CW_UNCORR q k) = ctr s.dev (Rg.FEC_CW_UNCORR q k) + (if 15 < n then 1 else 0))) ∧
    (∀ (p : Port) (locks : BitVec 4) (lf rmf : Bool), portBegins s.dev p = true →
      let ls := portLanes s.dev p
      let new := ofBits ((List.range ls.length).filter (fun i => locks.toNat.testBit (p.val % 4 + i) && laneMayLock s.dev (p.val + i)))
      (∀ i, i < ls.length → (port s.dev p).locks.testBit i = true → new.testBit i = true) →
      ∃ u, Machine.exec (.linkChange p locks lf rmf) s = .next u ∧ OnlyDev s u ∧ (port u.dev p).locks = new ∧ (port u.dev p).lfault = lf ∧
        (port u.dev p).rfault = rmf ∧
        (port u.dev p).up = (portEnabled s.dev p && decide (new &&& (2 ^ ls.length - 1) = 2 ^ ls.length - 1) && !lf && !rmf && !coasting s.dev) ∧
        u.dev.line.lanes = s.dev.line.lanes) ∧
    (∀ (p : Port), let all := 2 ^ (portLanes s.dev p).length - 1
      portBegins s.dev p = true → (port s.dev p).locks &&& all = all → quadHeld s.dev (p.val / 4) = false →
      s.dev.life.zopen.testBit (portZone p) = true → coasting s.dev = false →
      ∃ u l, Machine.exec (.portOpen p) s = .next u ∧ u = { s with dev := { s.dev with line := l } } ∧
        port u.dev p = { port s.dev p with opened := true, blocked := twinBlocks s.dev && dualPort s.dev p }) ∧
    (∀ (p : Port), s.dev.life.zopen.testBit (portZone p) = false → Machine.exec (.portOpen p) s = .next s)

/-- R71, R73 to R76, R85 to R89, R103 to R110. A port without its lanes takes no frame; a frame with a bad FCS, too short or too long only counts;
PAUSE pauses every class of its port until the time it names; an admitted frame stands last in its store with the next number of its domain,
and its cells are charged; a pause ends at its time; a cause that begins or ends sends one frame, again after half of QUANTA. -/
def Obligations.FramesAndFlowControl : Prop :=
  ∀ (s : State) (p : Port), let q := p.val / 4
    let k := p.val % 4
    let open_ := portBegins s.dev p = true ∧ portEnabled s.dev p = true ∧ portLocked s.dev p = true
    (∀ b un sfd t, portBegins s.dev p = false ∨ portEnabled s.dev p = false ∨ portLocked s.dev p = false →
      Machine.exec (.frameReceive p b un sfd t) s = .next s) ∧
    (∀ b un sfd t, open_ → un = true ∨ fcsGood b = false →
      Machine.exec (.frameReceive p b un sfd t) s = .next { s with dev := bump s.dev (Rg.RX_FCS_ERR q k) 1 }) ∧
    (∀ b sfd t, open_ → fcsGood b = true → (port s.dev p).blocked = false → beAt b 12 2 ≠ 0x8808 →
      (b.length < 64 → Machine.exec (.frameReceive p b false sfd t) s = .next { s with dev := bump s.dev (Rg.RX_UNDERSIZE q k) 1 }) ∧
      (64 ≤ b.length → rf s.dev (Rg.QUAD_MAX_FRAME q) Fl.QUAD_MAX_FRAME_MAX_FRAME < b.length →
        Machine.exec (.frameReceive p b false sfd t) s = .next { s with dev := bump s.dev (Rg.RX_OVERSIZE q k) 1 })) ∧
    (∀ b sfd t, open_ → fcsGood b = true → (port s.dev p).blocked = false → beAt b 12 2 = 0x8808 → beAt b 14 2 = 1 →
      startShut s.dev p = false → quadHeld s.dev q = false → fcMode s.dev p = 1 → flowAddr s.dev p b = true →
      let n := beAt b 16 2
      ∃ u, Machine.exec (.frameReceive p b false sfd t) s = .next u ∧ OnlyDev s u ∧ ctr u.dev (Rg.RX_PAUSE q k) = ctr s.dev (Rg.RX_PAUSE q k) + 1 ∧
        (∀ c, c < 8 → ctr u.dev (Rg.RX_XOFF q k c) = ctr s.dev (Rg.RX_XOFF q k c) + (if n = 0 then 0 else 1) ∧
          pauseEnd u.dev p c = if n = 0 then 0 else atConnector s.dev p t + cdiv (quanta25 s.dev p n) 25) ∧ u.dev.adm = s.dev.adm) ∧
    (∀ b sfd t, open_ → fcsGood b = true → (port s.dev p).blocked = false → beAt b 12 2 ≠ 0x8808 → 64 ≤ b.length →
      b.length ≤ rf s.dev (Rg.QUAD_MAX_FRAME q) Fl.QUAD_MAX_FRAME_MAX_FRAME → startShut s.dev p = false → quadHeld s.dev q = false →
      let z := p.val / 64
      let pl := p.val / 16 % 4
      let cls := (classify s.dev p b).1
      let marked := (classify s.dev p b).2
      let n := 8 * p.val + cls
      refusedBy s.dev p cls marked b.length = none →
      let pkt : Pkt := ⟨b, p, cls, (dom s.dev n).next, marked, lossless s.dev p cls, rxStamp s.dev p sfd⟩
      ∃ u, Machine.exec (.frameReceive p b false sfd t) s = .next u ∧ OnlyDev s u ∧
        (pipe u.dev z pl).express = (pipe s.dev z pl).express ++ (if marked then [pkt] else []) ∧
        (pipe u.dev z pl).normal = (pipe s.dev z pl).normal ++ (if marked then [] else [pkt]) ∧
        (pipe u.dev z pl).blocks = (pipe s.dev z pl).blocks + cdiv b.length 64 ∧
        (dom u.dev n).next = ((dom s.dev n).next + 1) % 65536 ∧ (dom u.dev n).out = (dom s.dev n).out + 1 ∧
        (dom u.dev n).occ = (dom s.dev n).occ + cellsOf b.length ∧ (urnz u.dev z).occ = (urnz s.dev z).occ + cellsOf b.length ∧
        ctr u.dev (Rg.RX_FRAMES_OK q k) = ctr s.dev (Rg.RX_FRAMES_OK q k) + 1 ∧
        ctr u.dev (Rg.RX_OCTETS_OK q k) = ctr s.dev (Rg.RX_OCTETS_OK q k) + BitVec.ofNat 64 b.length) ∧
    (∀ c : Sys2Proof.Class,
      (pauseEnd s.dev p c ≠ 0 → pauseEnd s.dev p c ≤ tbIn s.dev (portZone p) →
        ∃ u l, Machine.exec (.pauseExpiry p c) s = .next u ∧ u = { s with dev := { s.dev with line := l } } ∧ pauseEnd u.dev p c = 0 ∧
          ∀ c', c' < 8 → c' ≠ c.val → pauseEnd u.dev p c' = pauseEnd s.dev p c') ∧
      (tbIn s.dev (portZone p) < pauseEnd s.dev p c → Machine.exec (.pauseExpiry p c) s = .next s)) ∧
    (let now := xoffClasses s.dev p
     let was := (port s.dev p).xoffSent
     (now = was → Machine.exec (.xoff p) s = .next s) ∧
     (portUp s.dev p = true → quadHeld s.dev q = false → fcMode s.dev p = 2 → now ≠ was →
      let on := ofBits ((List.range 8).filter (fun c => now.testBit c && !was.testBit c))
      let off := ofBits ((List.range 8).filter (fun c => was.testBit c && !now.testBit c))
      ∃ u, Machine.exec (.xoff p) s = .next u ∧ OnlyDev s u ∧ u.dev.out = s.dev.out ++ [.flow p (flowFrame s.dev p on off)] ∧
        (port u.dev p).xoffSent = now ∧ ctr u.dev (Rg.TX_PFC q k) = ctr s.dev (Rg.TX_PFC q k) + 1 ∧
        ctr u.dev (Rg.TX_FRAMES q k) = ctr s.dev (Rg.TX_FRAMES q k) + 1 ∧ ctr u.dev (Rg.TX_OCTETS q k) = ctr s.dev (Rg.TX_OCTETS q k) + 64 ∧
        ∀ c, c < 8 → ctr u.dev (Rg.TX_XOFF q k c) = ctr s.dev (Rg.TX_XOFF q k c) + (if on.testBit c then 1 else 0) ∧
          tget zeroN (port u.dev p).xoffAt c = if on.testBit c then tbIn s.dev (portZone p) else tget zeroN (port s.dev p).xoffAt c) ∧
     (portUp s.dev p = true → quadHeld s.dev q = false → fcMode s.dev p = 1 → was = 0 → now ≠ 0 →
      ∃ u, Machine.exec (.xoff p) s = .next u ∧ u.dev.out = s.dev.out ++ [.flow p (flowFrame s.dev p now 0)] ∧
        ctr u.dev (Rg.TX_PAUSE q k) = ctr s.dev (Rg.TX_PAUSE q k) + 1 ∧ (port u.dev p).xoffSent = now)) ∧
    (let t := tbIn s.dev (portZone p)
     let quanta := rf s.dev (Rg.QUAD_PAUSE_TIME q) Fl.QUAD_PAUSE_TIME_QUANTA
     let idx (c : Nat) : Nat := if fcMode s.dev p = 1 then 0 else c
     let due (c : Nat) : Bool := decide (quanta25 s.dev p quanta ≤ 50 * elapsed t (tget zeroN (port s.dev p).xoffAt (idx c)))
     let l := (List.range 8).filter (fun c => (port s.dev p).xoffSent.testBit c && (xoffClasses s.dev p).testBit c && due c)
     (portUp s.dev p = true → quadHeld s.dev q = false → l ≠ [] →
      ∃ u, Machine.exec (.xoffRepeat p) s = .next u ∧ OnlyDev s u ∧ u.dev.out = s.dev.out ++ [.flow p (flowFrame s.dev p (ofBits l) 0)] ∧
        (∀ c ∈ l, tget zeroN (port u.dev p).xoffAt (idx c) = t) ∧
        ∀ j, (∀ c ∈ l, j ≠ idx c) → tget zeroN (port u.dev p).xoffAt j = tget zeroN (port s.dev p).xoffAt j) ∧
     (l = [] → Machine.exec (.xoffRepeat p) s = .next s))

/-! ## Strainer, admission, flights and the Barista -/

/-- R87, R88, R95, R99, R100, R102, R109, R110. The shed counts follow occupancy by their steps; a pipeline begins the parse of its first
express frame, else, or while its express former is stopped, of its first normal one; a parsed frame is counted and waits for its cells; a cell write makes them a buffer of the
pipeline and its packet the next lane of its former; the policers gain their rate. -/
def Obligations.PacketsPassTheStrainer : Prop :=
  ∀ (s : State) (z : Zone) (pl : Fin 4),
    let x := pipe s.dev z pl
    let step (n p s step hyst : Nat) : Nat :=
      if n < (if p < s then 0 else min 8 (1 + (p - s) / step)) then (if p < s then 0 else min 8 (1 + (p - s) / step))
      else if 0 < n ∧ p + hyst < s + (n - 1) * step then n - 1 else n
    (∃ u, Machine.exec (.shedCount z) s = .next u ∧ OnlyDev s u ∧ (∀ a, rd u.dev a = rd s.dev a) ∧
      poolShed u.dev z = step (poolShed s.dev z) (urnz s.dev z).occ (rf s.dev (Rg.URN_POOL_SHED z) Fl.URN_POOL_SHED_CELLS)
        (rf s.dev (Rg.ADM_SHED_STEP z) Fl.ADM_SHED_STEP_STEP) (rf s.dev (Rg.ADM_SHED_HYST z) Fl.ADM_SHED_HYST_HYST) ∧
      (pipe u.dev z pl).shed = step x.shed x.blocks (rf s.dev (Rg.ADM_STORE_SHED z) Fl.ADM_STORE_SHED_SHED)
        (rf s.dev (Rg.ADM_STORE_SHED z) Fl.ADM_STORE_SHED_STEP) (rf s.dev (Rg.ADM_STORE_HYST z) Fl.ADM_STORE_HYST_HYST) ∧
      (pipe u.dev z pl).normal = x.normal ∧ (pipe u.dev z pl).express = x.express) ∧
    (strHeld s.dev z = true ∨ devRuns s.dev = false ∨ 4 ≤ level s.dev z → Machine.exec (.parse z pl) s = .next s) ∧
    (∀ (k : Pkt) (r : List Pkt), strHeld s.dev z = false → devRuns s.dev = true → level s.dev z < 4 → x.parsing.length + x.parsed.length < 240 →
      (x.express = k :: r → (former s.dev z pl true).stopped = false →
        ∃ u, Machine.exec (.parse z pl) s = .next u ∧ OnlyDev s u ∧ (pipe u.dev z pl).express = r ∧ (pipe u.dev z pl).normal = x.normal ∧
          (pipe u.dev z pl).parsing = x.parsing ++ [⟨k, parsePkt s.dev k, true, s.dev.mc⟩] ∧
          (pipe u.dev z pl).blocks = x.blocks - cdiv k.bytes.length 64) ∧
      (x.express = [] ∨ (former s.dev z pl true).stopped = true → x.normal = k :: r → (former s.dev z pl false).stopped = false →
        ∃ u, Machine.exec (.parse z pl) s = .next u ∧ OnlyDev s u ∧ (pipe u.dev z pl).normal = r ∧ (pipe u.dev z pl).express = x.express ∧
          (pipe u.dev z pl).parsing = x.parsing ++ [⟨k, parsePkt s.dev k, false, s.dev.mc⟩] ∧
          (pipe u.dev z pl).blocks = x.blocks - cdiv k.bytes.length 64)) ∧
    (∀ (y : Parsed) (r : List Parsed), x.parsing = y :: r → y.res.mal = none ∨ y.res.act ≠ 0 → (∀ m, y.res.mal = some m → m < 16) →
      ∃ u, Machine.exec (.parseDone z pl) s = .next u ∧ OnlyDev s u ∧ (pipe u.dev z pl).parsing = r ∧ (pipe u.dev z pl).parsed = x.parsed ++ [y] ∧
        ctr u.dev (Rg.STR_PARSED_CNT z pl) = ctr s.dev (Rg.STR_PARSED_CNT z pl) + 1 ∧
        (∀ m, y.res.mal = some m → ctr u.dev (Rg.MAL_CNT z m) = ctr s.dev (Rg.MAL_CNT z m) + 1)) ∧
    (∀ (y : Parsed) (r : List Parsed) (cells : List Nat), x.parsed = y :: r →
      (cells.length ≠ cellsOf y.pkt.bytes.length ∨ cellsAvail s.dev z cells = false → Machine.exec (.cellWrite z pl cells) s = .next s) ∧
      (∀ head rest, cells = head :: rest → cells.length = cellsOf y.pkt.bytes.length → cellsAvail s.dev z cells = true → y.res.mal = none →
        (former s.dev z pl y.express).lanes.length < 32 →
        let key := 131072 * z.val + head
        let h := mkHandle z head ((bufAt s.dev key).incarn + 1)
        ∃ u, Machine.exec (.cellWrite z pl cells) s = .next u ∧ OnlyDev s u ∧ (pipe u.dev z pl).parsed = r ∧
          (bufAt u.dev key).kind = 1 ∧ (bufAt u.dev key).index = pl.val ∧ (bufAt u.dev key).cells = cells ∧ (bufAt u.dev key).bytes = y.pkt.bytes ∧
          (bufAt u.dev key).len = y.pkt.bytes.length ∧
          (bufAt u.dev key).incarn = (bufAt s.dev key).incarn + 1 ∧
          (former u.dev z pl y.express).lanes = (former s.dev z pl y.express).lanes ++
            [⟨h, y.pkt.bytes.length, 8 * y.pkt.port + y.pkt.cls, y.pkt.seq, y.pkt.marked, y.pkt.lossless, y.pkt.stamp, headerWindow y, laneMeta y⟩] ∧
          ctr u.dev (Rg.CELLS_ALLOC z) = ctr s.dev (Rg.CELLS_ALLOC z) + BitVec.ofNat 64 cells.length)) ∧
    (let us := nsIn s.dev z / 1000
     let last := tget zeroN s.dev.adm.tokenUs z
     (us ≤ last → Machine.exec (.puntPolicerRefill z) s = .next s) ∧
     (last < us → ∃ u a, Machine.exec (.puntPolicerRefill z) s = .next u ∧ u = { s with dev := { s.dev with adm := a } } ∧
       tget zeroN a.tokenUs z = us ∧ ∀ k, k < 32 → tget zeroN a.tokens (32 * z.val + k) =
         min (1000 * rf s.dev (Rg.PUNT_POL z k) Fl.PUNT_POL_BURST)
           (tget zeroN s.dev.adm.tokens (32 * z.val + k) + (us - last) * rf s.dev (Rg.PUNT_POL z k) Fl.PUNT_POL_RATE)))

/-- R122 to R124, R126, R128, R141, R150. A former closes its open flight into a free entry of the queue when one is available to it, and
keeps open a partial one of which more packets come while it is stopped or no packet is parsed; an express window begins; the set of active cores grows and
shrinks one core at a time; a flight that starts takes an idle thread at the entry point of its class, with one lane for each packet; a flight
lost to a transient fault waits again. -/
def Obligations.FlightsFormStartAndReturn : Prop :=
  ∀ (s : State) (z : Zone), Calm s.dev →
    (∀ (pl : Fin 4) (ex : Bool), let f := former s.dev z pl ex
      let r := Rg.BAR_FORMER z pl
      let stays : Prop := f.lanes.length < 32 ∧ ((f.stopped = true ∨ 4 ≤ level s.dev z) ∧ comingTo s.dev z pl ex = true ∨
        f.backlog = true ∧ waitsFor s.dev z pl ex = true)
      (f.lanes = [] ∨ stays ∨ availEntries s.dev z ex = 0 →
        ∃ u, Machine.exec (.flightClose z pl ex) s = .next u ∧ OnlyDev s u ∧ u.dev.bar.flights = s.dev.bar.flights ∧
          (former u.dev z pl ex).lanes = f.lanes) ∧
      (f.lanes ≠ [] → ¬stays → 0 < availEntries s.dev z ex →
        ∃ u x, Machine.exec (.flightClose z pl ex) s = .next u ∧ OnlyDev s u ∧ u.dev.bar.flights = s.dev.bar.flights ++ [x] ∧
          (former u.dev z pl ex).lanes = [] ∧ x.lanes = f.lanes ∧ x.zone = z.val ∧ x.loc = .queued ∧ x.bank = activeBank s.dev z ∧
          x.entry < 1024 ∧ x.entry ∉ entriesUsed s.dev z ∧
          x.level = rf s.dev r (if ex then Fl.BAR_FORMER_XLEVEL else Fl.BAR_FORMER_NLEVEL) ∧
          x.cls = rf s.dev r (if ex then Fl.BAR_FORMER_XCLASS else Fl.BAR_FORMER_NCLASS))) ∧
    ((barz s.dev z).window = s.dev.mc / 64 → Machine.exec (.expressWindow z) s = .next s) ∧
    ((barz s.dev z).window ≠ s.dev.mc / 64 → ∃ u b, Machine.exec (.expressWindow z) s = .next u ∧ u = { s with dev := { s.dev with bar := b } } ∧
      barz u.dev z = { barz s.dev z with window := s.dev.mc / 64, expressUsed := 0 }) ∧
    (∀ t k, (barz s.dev z).growSince = some t → rb s.dev (Rg.BAR_CTRL z) Fl.BAR_CTRL_PACK_EN = true → t + 16 ≤ s.dev.mc →
      (serviceCores s.dev z).find? (fun k => !(barz s.dev z).active.testBit k) = some k →
      ∃ u b, Machine.exec (.activeGrow z) s = .next u ∧ u = { s with dev := { s.dev with bar := b } } ∧
        (∀ i, (barz u.dev z).active.testBit i = ((barz s.dev z).active.testBit i || decide (i = k))) ∧ (barz u.dev z).growSince = some s.dev.mc) ∧
    ((barz s.dev z).growSince = none → Machine.exec (.activeGrow z) s = .next s) ∧
    (∀ k, (packed s.dev z).getLast? = some k → rb s.dev (Rg.BAR_CTRL z) Fl.BAR_CTRL_PACK_EN = true →
      rf s.dev (Rg.BAR_PACK z) Fl.BAR_PACK_MIN_ACTIVE < (packed s.dev z).length →
      tget zeroN s.dev.bar.issued (32 * z.val + k) + 32 * rf s.dev (Rg.BAR_PACK z) Fl.BAR_PACK_SHRINK ≤ s.dev.mc →
      ∃ u b, Machine.exec (.activeShrink z) s = .next u ∧ u = { s with dev := { s.dev with bar := b } } ∧
        ∀ i, (barz u.dev z).active.testBit i = ((barz s.dev z).active.testBit i && decide (i ≠ k))) ∧
    ((packed s.dev z).length ≤ rf s.dev (Rg.BAR_PACK z) Fl.BAR_PACK_MIN_ACTIVE → Machine.exec (.activeShrink z) s = .next s) ∧
    (∀ (core : Fin 26) (t : Tid) (f : Flight), let cid := 32 * z.val + core.val
      let e := loadFlight s.dev f cid t
      let w := sramRead e (cidPlace cid) (imageArr cid f.bank) (4 * (32 + f.cls)) 4
      (thr s.dev cid t).state = 0 → kernelRole s.dev cid t = false → unitRuns s.dev cid = true → slotFirst s.dev cid = some f →
      w.2.1 = false → w.1 < 8192 →
      ∃ d, Machine.exec (.flightStart z core t) s = .next { s with dev := settle d } ∧ (thr d cid t).state = 1 ∧ (thr d cid t).pc = w.1 ∧
        (thr d cid t).act = 2 ^ f.lanes.length - 1 ∧ (thr d cid t).flight = some f.id ∧ (thr d cid t).bank = f.bank ∧ (thr d cid t).level = f.level ∧
        (thr d cid t).home = t.val ∧ (thr d cid t).rstack = [] ∧ (thr d cid t).sp = 0 ∧ (thr d cid t).inTrap = false ∧
        (∀ y ∈ d.bar.flights, y.id = f.id → y.loc = .run cid t) ∧
        ∀ c' t', 8 * c' + t' ≠ 8 * cid + t.val → thr d c' t' = thr s.dev c' t') ∧
    (∀ (n : Nat) (f : Flight), (zoneFlights s.dev z).find? (fun f => f.entry == n && f.loc == .lost) = some f →
      ∃ u, Machine.exec (.flightRebuild z n) s = .next u ∧ OnlyDev s u ∧ (∀ y ∈ u.dev.bar.flights, y.id = f.id → y.loc = .queued) ∧
        ctr u.dev (Rg.BAR_REEXEC z) = ctr s.dev (Rg.BAR_REEXEC z) + 1)

/-- R129, R132, R134, R138, R143, R145, R453. The strict discipline places the first flight of the highest level on its core and counts it; the
weighted one spends a credit of the group it serves; a kernel item goes to a waiting thread of its core with A of lane 0, its level and its
entry; a holder is raised to the highest rank reported; a budget level becomes what its causes ask. -/
def Obligations.BaristaDispatchesByLevelAndCredit : Prop :=
  (∀ (s : State) (z : Zone) (f : Flight) (k : Nat), Calm s.dev → (barz s.dev z).window = s.dev.mc / 64 → barHeld s.dev z = false →
    weightedNow s.dev z = false → (barz s.dev z).weighted = false → firstFlight s.dev z 0 = some f → place s.dev f = some k → levelNow s.dev f < 16 →
    ∃ u, Machine.exec (.dispatch z) s = .next u ∧ OnlyDev s u ∧
      (∀ y ∈ u.dev.bar.flights, y.id = f.id → y.loc = .slot (32 * z.val + k) ∧ y.level = levelNow s.dev f) ∧
      ctr u.dev (Rg.BAR_DISPATCH z (levelNow s.dev f)) = ctr s.dev (Rg.BAR_DISPATCH z (levelNow s.dev f)) + 1 ∧
      ctr u.dev (Rg.BAR_LANES z) = ctr s.dev (Rg.BAR_LANES z) + BitVec.ofNat 64 f.lanes.length) ∧
  (∀ (s : State) (z : Zone) (g : Nat), Calm s.dev → (barz s.dev z).window = s.dev.mc / 64 → barHeld s.dev z = false →
    weightedNow s.dev z = true → (barz s.dev z).weighted = true → credited s.dev z (barz s.dev z).last (barz s.dev z).credits = some g →
    ∃ u, Machine.exec (.dispatch z) s = .next u ∧ OnlyDev s u ∧ (barz u.dev z).last = g ∧
      (barz u.dev z).credits = (barz s.dev z).credits.set g ((barz s.dev z).credits.getD g 0 - 1)) ∧
  (∀ (s : State) (z : Zone), Calm s.dev → (barz s.dev z).window = s.dev.mc / 64 → barHeld s.dev z = true →
    (barz s.dev z).weighted = weightedNow s.dev z → Machine.exec (.dispatch z) s = .next s) ∧
  (∀ (s : State) (pl : Place) (v : W64) (i cid t : Nat), Calm s.dev →
    (pl.val = 0 → rb s.dev Rg.MGT_FW Fl.MGT_FW_READY = true) →
    (0 < pl.val → barHeld s.dev (pl.val - 1) = false ∧ weightedNow s.dev (pl.val - 1) = false) →
    nextItem s.dev pl = some (v, i) → itemCoreNow s.dev pl v = some cid → waitingThreads s.dev cid = [t] →
    let bank := if pl.val = 0 then 0 else activeBank s.dev (pl.val - 1)
    let x := thr s.dev cid t
    (x.bank = bank → 8192 ≤ x.pc + 1 → x.inTrap = false) →
    ∃ u, Machine.exec (.kernelGive pl) s = .next u ∧ OnlyDev s u ∧ items u.dev pl = (items s.dev pl).eraseIdx i ∧
      (thr u.dev cid t).state = 4 ∧ (thr u.dev cid t).item = some v ∧ (thr u.dev cid t).level = itemLevel v ∧
      (lctx (thr u.dev cid t) 0).a = v ∧ (x.bank ≠ bank → (thr u.dev cid t).pc = 48) ∧
      (x.bank = bank → x.pc + 1 < 8192 → (thr u.dev cid t).pc = x.pc + 1) ∧
      (x.bank = bank → 8192 ≤ x.pc + 1 → (thr u.dev cid t).pc = 3 ∧ (thr u.dev cid t).tcause = 3 ∧ (thr u.dev cid t).tpc = x.pc + 1 ∧
        (thr u.dev cid t).tinfo = 0) ∧
      ∀ c' t', 8 * c' + t' ≠ 8 * cid + t → thr u.dev c' t' = thr s.dev c' t') ∧
  (∀ (s : State) (c : Cid) (t : Tid) (e : LockEnt),
    s.dev.lku.table.filter (fun e => e.holder / 2 ^ 29 == 0 && e.holder % 256 == c.val && e.holder / 2 ^ 8 % 8 == t.val && e.top != 0 &&
      e.tag == (thr s.dev c t).tag && !e.orphan) = [e] →
    s.dev.bar.raises.any (fun x => x.cid == c.val && x.t == t.val && x.addr == e.addr && 16 * x.band + x.level == e.top - 1) = false →
    ∃ u, Machine.exec (.piRaise c t) s = .next u ∧ OnlyDev s u ∧
      u.dev.bar.raises = s.dev.bar.raises.filter (fun x => !(x.cid == c.val && x.t == t.val && x.addr == e.addr)) ++
        [⟨c, t, e.addr, (e.top - 1) / 16, (e.top - 1) % 16, e.tag⟩] ∧
      (isHub c = false → ctr u.dev (Rg.BAR_PI_RAISE (cidZone c)) =
        ctr s.dev (Rg.BAR_PI_RAISE (cidZone c)) + (if issueRank s.dev c t < e.top - 1 then 1 else 0))) ∧
  (∀ (s : State) (die : Fin 5), s.dev.ket.off = false → causedLevel s.dev die < 8 →
    ∃ u, Machine.exec (.levelChange die) s = .next u ∧ OnlyDev s u ∧ level u.dev die = causedLevel s.dev die ∧
      (∀ y : Fin 5, y ≠ die → level u.dev y = level s.dev y))

/-! ## Tables, learning and table DMA -/

/-- An entry as a write keeps it: bit 63 of its data is not stored (R239). -/
def Sys2Proof.Terms.kept (e : TEnt) : TEnt := { e with data := BitVec.ofNat 64 (e.data.toNat % 2 ^ 63) }
/-- The entry of key `k` at `pos` of place `pl`, table `t`, region `r`, is in `d` what it was in `s` for every other position. -/
def Sys2Proof.Terms.EntOnly (s : State) (d : Dev) (pl t r pos : Nat) : Prop :=
  ∀ pl' t' r' pos', entKey pl' t' r' pos' ≠ entKey pl t r pos → ent d pl' t' r' pos' = ent s.dev pl' t' r' pos'

/-- R224, R240 to R242, R247 to R254. The insertion that a port took first goes before what waits behind it: in a local EXACT table it takes
the first empty candidate, or replaces the data of its key, and answers its slot; a change that reaches the hub removes its key from the master
and goes to every zone; a hub write takes effect in its zone once the link has room and the port has nothing before it; a learn candidate
becomes an entry; an aged entry goes; an aged report is judged once, by the replicas alone. -/
def Obligations.TablesFollowTheirUpdates : Prop :=
  ∀ (s : State) (z : Zone), Calm s.dev →
    (∀ (tbl : Fin 32) (o : PortOp) (rest : List PortOp), let x := tdescOf o.regs
      let r := x.bank
      let k := o.key.take x.keyBytes
      portQ s.dev z = o :: rest → (∀ y ∈ rest.head?, isInsertion y = true) → o.tbl = tbl → o.del = false → x.ty = 1 → x.repl = false → o.slot < 4 →
      (∀ p, findKey s.dev (1 + z) tbl r x k = none → o.sub ≠ 2 → (cands x r k).find? (emptyPos s.dev (1 + z) tbl r x) = some p →
        ∃ d, Machine.exec (.insertion ⟨1 + z.val, by omega⟩ tbl) s = .next { s with dev := settle d } ∧ portQ d z = rest ∧
          ent d (1 + z) tbl r p = kept { valid := true, key := k, data := o.data, stamp := tableTime s.dev (1 + z) x } ∧
          EntOnly s d (1 + z) tbl r p ∧
          d.inf.results = s.dev.inf.results ++ [⟨2, true, o.cid, o.t, o.home, o.slot, o.lane, BitVec.ofNat 64 (p % 2 ^ 32), false, o.flight⟩]) ∧
      (∀ p, findKey s.dev (1 + z) tbl r x k = some p → o.sub ≠ 1 → (ent s.dev (1 + z) tbl r p).lock = none →
        ∃ d, Machine.exec (.insertion ⟨1 + z.val, by omega⟩ tbl) s = .next { s with dev := settle d } ∧ portQ d z = rest ∧
          ent d (1 + z) tbl r p = kept { ent s.dev (1 + z) tbl r p with data := o.data, stamp := tableTime s.dev (1 + z) x } ∧
          EntOnly s d (1 + z) tbl r p ∧
          d.inf.results = s.dev.inf.results ++
            [⟨2, true, o.cid, o.t, o.home, o.slot, o.lane, BitVec.ofNat 64 (2 ^ 56 + p % 2 ^ 32), false, o.flight⟩])) ∧
    (∀ (tbl : Fin 32), (∀ o ∈ (portQ s.dev z).head?, o.tbl ≠ tbl) →
      Machine.exec (.insertion ⟨1 + z.val, by omega⟩ tbl) s = .next s) ∧
    (∀ c l, s.dev.tbl.changes = c :: l → isolated s.dev c.zone = true →
      Machine.exec .masterApply s = .next { s with dev := { s.dev with tbl := { s.dev.tbl with changes := l } } }) ∧
    (∀ c l p, s.dev.tbl.changes = c :: l → isolated s.dev c.zone = false → c.kind = .del →
      let x := descAt s.dev 0 c.tbl
      c.tbl < 32 → x.repl = true → badLpm x c.key = false → findKey s.dev 0 c.tbl c.region x (storedKey x c.key) = some p →
      (ent s.dev 0 c.tbl c.region p).lock = none → descDiffers s.dev c.tbl = false →
      ∃ d, Machine.exec .masterApply s = .next { s with dev := settle d } ∧ d.tbl.changes = l ∧ ent d 0 c.tbl c.region p = {} ∧
        EntOnly s d 0 c.tbl c.region p ∧
        ∀ y : Zone, isolated s.dev y = false → ∃ w, distQ d y = distQ s.dev y ++ [w] ∧ (c.tbl, c.region, p, ({} : TEnt)) ∈ w.writes) ∧
    (isolated s.dev z = true ∨ portBusy s.dev z = true ∨ distQ s.dev z = [] → Machine.exec (.distributionWrite z) s = .next s) ∧
    (∀ w l, distQ s.dev z = w :: l → linkFree s.dev z false (distGranules s.dev z w) = false → Machine.exec (.distributionWrite z) s = .next s) ∧
    (∀ w l t r p e, isolated s.dev z = false → distQ s.dev z = w :: l → w.writes = [(t, r, p, e)] → t < 32 → portBusy s.dev z = false →
      linkFree s.dev z false (distGranules s.dev z w) = true →
      ∃ d, Machine.exec (.distributionWrite z) s = .next { s with dev := settle d } ∧ distQ d z = l ∧ ent d (1 + z) t r p = kept e ∧
        EntOnly s d (1 + z) t r p) ∧
    (learnQ s.dev z = [] ∨ portBusy s.dev z = true → Machine.exec (.learnUpdate z) s = .next s) ∧
    (∀ k p l t q, let x := descAt s.dev (1 + z) t
      learnQ s.dev z = (k, p) :: l → portBusy s.dev z = false → learnTable s.dev z = some t → t < 32 → x.ty = 1 → x.keyBytes = 8 → x.repl = false →
      learnShut s.dev z t = false → findKey s.dev (1 + z) t x.bank x k = none → k.length = 8 → p < 65536 →
      (cands x x.bank k).find? (emptyPos s.dev (1 + z) t x.bank x) = some q →
      ∃ d, Machine.exec (.learnUpdate z) s = .next { s with dev := settle d } ∧ learnQ d z = l ∧ (ent d (1 + z) t x.bank q).valid = true ∧
        (ent d (1 + z) t x.bank q).key = k ∧ (ent d (1 + z) t x.bank q).data.toNat % 65536 = p ∧
        ctr d (Rg.TBL_LEARN_NEW z) = ctr s.dev (Rg.TBL_LEARN_NEW z) + 1) ∧
    (∀ (tbl : Fin 40) (pos : Nat), tbl.val < 32 →
      let x := descAt s.dev (1 + z) tbl
      let e := ent s.dev (1 + z) tbl x.bank pos
      portBusy s.dev z = false → rb s.dev (Rg.TBL_CTRL z) Fl.TBL_CTRL_SWEEP_EN = true → x.ty = 1 → x.repl = false → x.limit ≠ 0 → tblIsHeld s.dev z tbl = false →
      movable s.dev (1 + z) tbl x.bank x pos = true →
      (agedEnt s.dev (1 + z) x e.stamp = true → ∃ d, Machine.exec (.agingSweep ⟨1 + z.val, by omega⟩ tbl pos) s = .next { s with dev := settle d } ∧
        ent d (1 + z) tbl x.bank pos = {} ∧ EntOnly s d (1 + z) tbl x.bank pos ∧
        ctr d (Rg.TBL_AGED z) = ctr s.dev (Rg.TBL_AGED z) + 1) ∧
      (agedEnt s.dev (1 + z) x e.stamp = false → isStash pos = false →
        Machine.exec (.agingSweep ⟨1 + z.val, by omega⟩ tbl pos) s = .next s)) ∧
    (∀ (tbl : Fin 32) (pos : Nat), portBusy s.dev z = true →
      Machine.exec (.agingSweep ⟨1 + z.val, by omega⟩ ⟨tbl.val, by omega⟩ pos) s = .next s) ∧
    (s.dev.tbl.aged = [] → Machine.exec .agedReport s = .next s) ∧
    (∀ y t r pos l, let x := descAt s.dev 0 t
      s.dev.tbl.aged = (y, t, r, pos) :: l → (∀ y : Zone, isolated s.dev y = false → portBusy s.dev y = false) → t < 32 → x.repl = true → x.bank = r → (ent s.dev 0 t r pos).valid = true →
      (ent s.dev 0 t r pos).lock = none → descDiffers s.dev t = false →
      let e := ent s.dev 0 t r pos
      let same (y : Zone) : Prop := isolated s.dev y = false ∧ (ent s.dev (1 + y) t r pos).valid = true ∧ (ent s.dev (1 + y) t r pos).key = e.key
      let age (y : Zone) : Nat := entAge s.dev 0 x (ent s.dev (1 + y) t r pos).stamp
      ((∀ y, ¬same y) → Machine.exec .agedReport s = .next { s with dev := { s.dev with tbl := { s.dev.tbl with aged := l } } }) ∧
      (x.limit ≠ 0 → (∃ y, same y) → (∀ y, same y → x.limit ≤ age y) →
        ∃ d, Machine.exec .agedReport s = .next { s with dev := settle d } ∧ d.tbl.aged = l ∧ ent d 0 t r pos = {} ∧
          EntOnly s d 0 t r pos ∧ ctr d Rg.HTB_AGED = ctr s.dev Rg.HTB_AGED + 1) ∧
      (∀ y, same y → x.limit = 0 ∨ age y < x.limit → (∀ y', same y' → age y ≤ age y') →
        ∃ d, Machine.exec .agedReport s = .next { s with dev := settle d } ∧ d.tbl.aged = l ∧
          ent d 0 t r pos = kept { e with stamp := (tableTime s.dev 0 x + 65536 - age y) % 65536 } ∧ EntOnly s d 0 t r pos))

/-- R249, R256, R259, R261, R265, R394. A lock past its limit is cleared with its contents kept and counted, a forced one without counting; a hold
of tables is written and shows as held once no search of the table waits; an entry of an LPM table may be named by its key; a fetched row and
a rebuilt table are the master's; a distribution late for its zone is marked once. -/
def Obligations.TableLocksHoldsAndRebuilds : Prop :=
  ∀ (s : State) (p : Place) (tbl : Fin 40) (r : Bool) (pos : Nat),
    let e := ent s.dev p tbl (one r)
    let hub := p.val = 0
    (∀ c since, (e pos).lock = some (c, since) → lockHome s.dev p tbl = true →
      let lim := if hub then rf s.dev Rg.HTB_LOCK_LIMIT Fl.HTB_LOCK_LIMIT_LIMIT else rf s.dev (Rg.TBL_LOCK_LIMIT (p.val - 1)) Fl.TBL_LOCK_LIMIT_LIMIT
      let n := if hub then Rg.HTB_LOCK_EXPIRED else Rg.TBL_LOCK_EXPIRED (p.val - 1)
      (since + lim * 1000 < nowNs s.dev → ∃ u, Machine.exec (.lockExpired p tbl r pos) s = .next u ∧ OnlyDev s u ∧
        ent u.dev p tbl (one r) pos = { e pos with lock := none } ∧ EntOnly s u.dev p tbl (one r) pos ∧ ctr u.dev n = ctr s.dev n + 1) ∧
      (nowNs s.dev ≤ since + lim * 1000 → Machine.exec (.lockExpired p tbl r pos) s = .next s) ∧
      (∀ a, entAt s.dev p tbl (one r) (descAt s.dev p tbl) a = some pos →
        ∃ u, Machine.exec (.forceUnlock p tbl r a) s = .next u ∧ OnlyDev s u ∧ ent u.dev p tbl (one r) pos = { e pos with lock := none } ∧
          EntOnly s u.dev p tbl (one r) pos)) ∧
    ((e pos).lock = none → Machine.exec (.lockExpired p tbl r pos) s = .next s ∧ Machine.exec (.forceUnlock p tbl r (.pos pos)) s = .next s) ∧
    (let x := descAt s.dev p tbl
     entAt s.dev p tbl (one r) x (.pos pos) = some pos ∧
     (∀ k, x.ty = 2 ∨ x.ty = 3 → badLpm x k = false → entAt s.dev p tbl (one r) x (.key k) = findKey s.dev p tbl (one r) x (storedKey x k)) ∧
     (∀ k, (x.ty ≠ 2 ∧ x.ty ≠ 3) ∨ badLpm x k = true → Machine.exec (.forceUnlock p tbl r (.key k)) s = .next s)) ∧
    (∀ (z : Zone) (m : Master) (v : W32), Admits s.dev (Rg.pageOf (Rg.TBL_HOLD z)) m →
      ∃ u, Machine.exec (.tblHold z m v) s = .next u ∧ rd u.dev (Rg.TBL_HOLD z) = v ∧
        (∀ t, t < 32 → (rd u.dev (Rg.TBL_HELD z)).getLsbD t = ((rd s.dev (Rg.TBL_HELD z)).getLsbD t && tblIsHeld u.dev z t)) ∧
        ∀ a, a ≠ Rg.TBL_HOLD z → a ≠ Rg.TBL_HELD z → rd u.dev a = rd s.dev a) ∧
    (∀ (z : Zone) (t : Fin 32),
      (tblIsHeld s.dev z t = true → tblWaiting s.dev z t = false → ∃ u, Machine.exec (.tblHeld z t) s = .next u ∧
        (∀ i, i < 32 → (rd u.dev (Rg.TBL_HELD z)).getLsbD i = ((rd s.dev (Rg.TBL_HELD z)).getLsbD i || decide (i = t.val))) ∧
        ∀ a, a ≠ Rg.TBL_HELD z → rd u.dev a = rd s.dev a) ∧
      (tblIsHeld s.dev z t = false ∨ tblWaiting s.dev z t = true → Machine.exec (.tblHeld z t) s = .next s)) ∧
    (∀ (z : Zone) (t : Fin 32), isolated s.dev z = true → Calm s.dev → Machine.exec (.rowFetch z t [pos]) s = .next s) ∧
    (∀ (z : Zone) (t : Fin 32), isolated s.dev z = false →
      s.dev.tbl.fetch.filter (fun f => f.1 == z.val && f.2.1 == t.val && [pos].contains f.2.2.2) = [(z.val, t.val, one r, pos)] →
      ∃ d, Machine.exec (.rowFetch z t [pos]) s = .next { s with dev := settle d } ∧
        ent d (1 + z) t (one r) pos = kept (ent s.dev 0 t (one r) pos) ∧
        (∀ q, ent d (1 + z) t (one r) q = ent s.dev (1 + z) t (one r) q ∨ ent d (1 + z) t (one r) q = kept (ent s.dev 0 t (one r) q)) ∧
        (∀ pl' t' r' q, pl' ≠ 1 + z.val ∨ t' ≠ t.val ∨ r' ≠ one r → pl' < 64 → t' < 64 → r' < 2 → q < 2 ^ 32 → pos < 2 ^ 32 →
          ent d pl' t' r' q = ent s.dev pl' t' r' q) ∧
        (z.val, t.val, one r, pos) ∉ d.tbl.fetch) ∧
    (∀ (z : Zone), (lnk s.dev z).rebuilding = false → Calm s.dev → Machine.exec (.rebuilt z) s = .next s) ∧
    (∀ (z : Zone), (lnk s.dev z).rebuilding = true → isolated s.dev z = false → (lnk s.dev z).state = 3 →
      ∃ d, Machine.exec (.rebuilt z) s = .next { s with dev := settle d } ∧ frozen d z = false ∧ distQ d z = [] ∧
        ∀ t q, t < 32 → q < 2 ^ 32 → (descAt s.dev (1 + z) t).repl = true → descDiffers s.dev t = false →
          ent d (1 + z) t (one r) q = kept (ent s.dev 0 t (one r) q)) ∧
    (let late (z : Zone) (w : DistW) : Prop := w.late = false ∧ (lnk s.dev z).state ≠ 3 ∧ 2000 < nowNs s.dev - w.at_
     ((∀ z : Zone, ∀ w ∈ distQ s.dev z, ¬late z w) → Machine.exec .distLate s = .next s) ∧
     (∀ z : Zone, ∀ w ∈ distQ s.dev z, late z w → ∃ u, Machine.exec .distLate s = .next u ∧ OnlyDev s u ∧
       { w with late := true } ∈ distQ u.dev z ∧ (page u.dev (Rg.pageOf Rg.baseHTB)).intStatus.getLsbD 3 = true))

/-- A table DMA request of one record for a local EXACT table, which its channel takes: not in error, its zone reached, its block ready. -/
structure Sys2Proof.Terms.DmaOne (s : State) (h : Host2) (ch : Fin 8) (q : DmaReq) (op : Nat) : Prop where
  takes : ringTakes s.dev h 2 ch = true
  read : q.readErr = false
  good : badDesc s.dev q.desc = false
  op : (dmaDesc q.desc).op = op
  target : (dmaDesc q.desc).target = 0
  count : (dmaDesc q.desc).count = 1
  region : (dmaDesc q.desc).region = false
  exact_ : (descAt s.dev (1 + (dmaDesc q.desc).zone) (dmaDesc q.desc).table).ty = 1
  here : (descAt s.dev (1 + (dmaDesc q.desc).zone) (dmaDesc q.desc).table).repl = false
  reach : isolated s.dev (dmaDesc q.desc).zone = false
  ready : (page s.dev (Rg.pageOf (Rg.baseTBL (dmaDesc q.desc).zone))).ready = true

/-- R178, R245, R255, R256, R411. Table DMA on one entry: READ gives its record and READ_LOCK locks it for its channel, WRITE an entry that nobody
has locked, WRITE_UNLOCK and UNLOCK one that the channel holds; INSERT places a new key and DELETE removes one; SEARCH gives the entry of its key, a miss, or a poisoned record after
an uncorrectable read; READ_CLEAR of a counter pair leaves zeros; a meter is written as its record gives it, one with MODE 3 as MODE 0 with
status 5; a descriptor that cannot be read sets DESC_ERR of its host. -/
def Obligations.TableDmaWorksOnRecords : Prop :=
  ∀ (s : State) (h : Host2) (ch : Fin 8) (q : DmaReq),
    let x := dmaDesc q.desc
    let b := wordsBytes (q.data.take 32)
    let pl := 1 + x.zone
    let t := descAt s.dev pl x.table
    let r := t.bank
    let e := ent s.dev pl x.table r x.pos
    let mine := 8 * h.val + ch.val
    let same (d : Dev) : Prop := ∀ p, ent d pl x.table r p = ent s.dev pl x.table r p
    let usable : Prop := posOk t r x.pos = true ∧ posGone s.dev pl x.table r t x.pos = false
    (DmaOne s h ch q 0 → usable → ∃ d, Machine.exec (.dmaRead h ch q) s = .next { s with dev := settle d } ∧ same d ∧
      .hostBytes h x.host (entRec e (readEnt s.dev pl x.table r t x.pos).1 0 x.pos).out ∈ d.out ∧
      rf d (ringIdx h 2 ch) Fl.PRING_IDX_CONSUMED = (ringConsumed s.dev h 2 ch + 1) % 65536) ∧
    (DmaOne s h ch q 1 → usable → e.lock = none →
      ∃ d, Machine.exec (.dmaReadLock h ch q) s = .next { s with dev := settle d } ∧
        ent d pl x.table r x.pos = { e with lock := some (mine, nowNs s.dev) } ∧ EntOnly s d pl x.table r x.pos) ∧
    (DmaOne s h ch q 1 → usable → (∃ c n, e.lock = some (c, n) ∧ c ≠ mine) →
      ∃ d, Machine.exec (.dmaReadLock h ch q) s = .next { s with dev := settle d } ∧ same d ∧ .hostBytes h x.host (echoRec b 1 x.pos).out ∈ d.out) ∧
    (DmaOne s h ch q 2 → usable → e.lock = none →
      ∃ d, Machine.exec (.dmaWrite h ch q) s = .next { s with dev := settle d } ∧ ent d pl x.table r x.pos = kept (recEnt t b) ∧
        EntOnly s d pl x.table r x.pos) ∧
    (DmaOne s h ch q 2 → usable → e.lock ≠ none →
      ∃ d, Machine.exec (.dmaWrite h ch q) s = .next { s with dev := settle d } ∧ same d) ∧
    (DmaOne s h ch q 3 → usable → (∃ n, e.lock = some (mine, n)) →
      ∃ d, Machine.exec (.dmaWriteUnlock h ch q) s = .next { s with dev := settle d } ∧ ent d pl x.table r x.pos = kept (recEnt t b) ∧
        (ent d pl x.table r x.pos).lock = none ∧ EntOnly s d pl x.table r x.pos) ∧
    (DmaOne s h ch q 4 → usable → (∃ n, e.lock = some (mine, n)) →
      ∃ d, Machine.exec (.dmaUnlock h ch q) s = .next { s with dev := settle d } ∧ ent d pl x.table r x.pos = { e with lock := none } ∧
        EntOnly s d pl x.table r x.pos) ∧
    (∀ p, DmaOne s h ch q 5 → findKey s.dev pl x.table r t (b.take t.keyBytes) = none →
      (cands t r (b.take t.keyBytes)).find? (emptyPos s.dev pl x.table r t) = some p →
      ∃ d, Machine.exec (.dmaInsert h ch q) s = .next { s with dev := settle d } ∧ EntOnly s d pl x.table r p ∧
        ent d pl x.table r p = kept { valid := true, key := b.take t.keyBytes, data := BitVec.ofNat 64 (leNat ((b.drop 104).take 8)),
                                      stamp := tableTime s.dev pl t }) ∧
    (∀ p, DmaOne s h ch q 6 → findKey s.dev pl x.table r t (b.take t.keyBytes) = some p → (ent s.dev pl x.table r p).lock = none →
      ∃ d, Machine.exec (.dmaDelete h ch q) s = .next { s with dev := settle d } ∧ ent d pl x.table r p = {} ∧ EntOnly s d pl x.table r p) ∧
    (DmaOne s h ch q 7 → findKey s.dev pl x.table r t (b.take t.keyBytes) = none →
      ((searchTbl s.dev pl x.table r t b).2.1 = false →
        ∃ d, Machine.exec (.dmaSearch h ch q) s = .next { s with dev := settle d } ∧ same d ∧ .hostBytes h x.host (echoRec b 3 noPos).out ∈ d.out) ∧
      ((searchTbl s.dev pl x.table r t b).2.1 = true →
        ∃ d, Machine.exec (.dmaSearch h ch q) s = .next { s with dev := settle d } ∧ .hostBytes h x.host (recPoisoned 4 0 noPos) ∈ d.out)) ∧
    (∀ p, DmaOne s h ch q 7 → findKey s.dev pl x.table r t (b.take t.keyBytes) = some p → (searchTbl s.dev pl x.table r t b).2.1 = false →
      ∃ d, Machine.exec (.dmaSearch h ch q) s = .next { s with dev := settle d } ∧ same d ∧
        .hostBytes h x.host (entRec (ent s.dev pl x.table r p) false 0 p).out ∈ d.out) ∧
    (ringTakes s.dev h 2 ch = true → q.readErr = false → badDesc s.dev q.desc = false → x.op = 8 → x.target = 2 → x.count = 1 →
      isolated s.dev x.zone = false → (page s.dev (Rg.pageOf (Rg.baseTBL x.zone))).ready = true → x.pos < 1048576 →
      ∃ d, Machine.exec (.dmaReadClear h ch q) s = .next { s with dev := settle d } ∧ (readPair d x.zone x.pos).1 = 0 ∧
        (readPair d x.zone x.pos).2.1 = 0) ∧
    (ringTakes s.dev h 2 ch = true → q.readErr = false → badDesc s.dev q.desc = false → x.op = 2 → x.target = 3 → x.count = 1 →
      isolated s.dev x.zone = false → (page s.dev (Rg.pageOf (Rg.baseTBL x.zone))).ready = true → x.pos < 65536 →
      let v := leNat (b.take 32)
      let mode3 : Prop := v / 2 ^ 254 = 3
      ∃ d, Machine.exec (.dmaWrite h ch q) s = .next { s with dev := settle d } ∧
        (mode3 → (readMeter d x.zone x.pos).1 = meterSet (v % 2 ^ 254) (nsIn s.dev x.zone) ∧ .hostBytes h x.host (echoRec b 5 x.pos).out ∈ d.out) ∧
        (¬mode3 → (readMeter d x.zone x.pos).1 = meterSet v (nsIn s.dev x.zone) ∧ .hostBytes h x.host (echoRec b 0 x.pos).out ∈ d.out)) ∧
    (ringTakes s.dev h 2 ch = true → q.readErr = true → Calm s.dev →
      ∀ c ∈ [Instr.dmaRead h ch q, .dmaReadLock h ch q, .dmaWrite h ch q, .dmaWriteUnlock h ch q, .dmaUnlock h ch q, .dmaInsert h ch q,
             .dmaDelete h ch q, .dmaSearch h ch q, .dmaReadClear h ch q],
        ∃ u, Machine.exec c s = .next u ∧ OnlyDev s u ∧ (rd u.dev (Rg.HIF_ERR h)).getLsbD 3 = true ∧
          ctr u.dev (Rg.TDMA_DESC h) = ctr s.dev (Rg.TDMA_DESC h) + 1)

/-! ## Buffers and spill -/

/-- Every buffer record but that of key `k` is in `d` what it was in `s`. -/
def Sys2Proof.Terms.BufOnly (s : State) (d : Dev) (k : Nat) : Prop := ∀ j, j ≠ k → bufAt d j = bufAt s.dev j
/-- The transfers and frees that R272 and the inject path allow: kind of the holder, kind after, 0 free. -/
def Sys2Proof.Terms.transfers : List (Nat × Nat) := [(1, 2), (2, 2), (2, 3), (3, 4), (3, 6), (3, 0), (4, 0), (6, 0), (6, 4), (1, 3)]

/-- A request that the allocation port of zone `z` judges: it fits its frame, its requester may present now and is in service, and a slot is free. -/
def Sys2Proof.Terms.Presents (s : State) (z : Zone) (r : AllocReq) : Prop :=
  allocFits r = true ∧ mayPresent s.dev (cycleOf s.dev z) r.requester = true ∧ (resource s.dev z).tenants.length < 8

/-- R270 to R277, R294, R295. An allocation goes through Steep's port of the zone: one that the pool lets have its cells, of a requester in
service, is granted whole and advances the incarnation of their head; another receives the empty answer, counts in ALLOC_EMPTY and backs off;
no cycle gives more than 32 cells, but for one longer request alone. A transfer by the owner writes the new owner, a free gives the cells back,
and one by anyone else, a stale handle or a SHARED buffer, counts in FREE_REFUSED; references are added by an owner or to a shared buffer and
given up one by one, the last freeing the buffer; URN_PEEK shows a record; LOG_CLEAR empties the leak log. -/
def Obligations.BuffersFollowTheirOwners : Prop :=
  ∀ (s : State) (z : Zone),
    (∀ (r : AllocReq) (c : Nat) (l : List Nat), r.cells = c :: l → Presents s z r →
      let n := r.cells.length
      let k := 131072 * z.val + c
      let now := cycleOf s.dev z
      let old := requester s.dev r.requester
      let room := poolRoom s.dev z n (r.marked && injectEngine r.requester)
      (barred s.dev r.requester = false → room = true → cellsAvail s.dev z r.cells = true →
        ∃ u, Machine.exec (.alloc z [r]) s = .next u ∧ OnlyDev s u ∧ (urnz u.dev z).occ = (urnz s.dev z).occ + n ∧
          (bufAt u.dev k).kind = r.owner / 8192 ∧ (bufAt u.dev k).index = r.owner % 8192 ∧ (bufAt u.dev k).cells = r.cells ∧
          (bufAt u.dev k).len = r.len ∧ (bufAt u.dev k).incarn = (bufAt s.dev k).incarn + 1 ∧ (bufAt u.dev k).count = 0 ∧
          (bufAt u.dev k).stale = false ∧ (bufAt u.dev k).stamp = nsIn s.dev z / 1000 % 2 ^ 32 ∧ BufOnly s u.dev k ∧
          ctr u.dev (Rg.CELLS_ALLOC z) = ctr s.dev (Rg.CELLS_ALLOC z) + BitVec.ofNat 64 n ∧
          (resource u.dev z).pointer = r.requester ∧ (requester u.dev r.requester).loss = 0 ∧
          (requester u.dev r.requester).grants = old.grants + 1) ∧
      (barred s.dev r.requester = true ∨ room = false →
        ∃ u, Machine.exec (.alloc z [r]) s = .next u ∧ OnlyDev s u ∧ u.dev.urn = s.dev.urn ∧
          ctr u.dev (Rg.ALLOC_EMPTY z) = ctr s.dev (Rg.ALLOC_EMPTY z) + 1 ∧ (requester u.dev r.requester).waits = old.waits + 1 ∧
          let m := if barred s.dev r.requester then 10 else min 10 (old.loss + 1)
          (requester u.dev r.requester).loss = m ∧ (requester u.dev r.requester).next = now + 2 ^ m)) ∧
    (∀ (r : AllocReq), allocFits r = false ∨ mayPresent s.dev (cycleOf s.dev z) r.requester = false →
      Machine.exec (.alloc z [r]) s = .next { s with dev := endCycle s.dev z (cycleOf s.dev z) }) ∧
    (∀ (n : Nat) (marked : Bool), poolRoom s.dev z n marked = true ↔
      ((urnz s.dev z).occ + n ≤ rf s.dev (Rg.URN_POOL_RESERVE z) Fl.URN_POOL_RESERVE_CELLS ∨ marked = true) ∧ n ≤ freeCells s.dev z) ∧
    (∀ (l : List AllocReq), ∃ u, Machine.exec (.alloc z l) s = .next u ∧
      ((∀ r ∈ l, r.cells.length ≤ 32) → (urnz u.dev z).occ ≤ (urnz s.dev z).occ + 32)) ∧
    (∀ (h : BitVec 32), hZone h ≠ z.val → ∀ (by_ m : Nat) (dst : Option Nat),
      Machine.exec (.ownerTransfer z h by_ dst) s = .next s ∧ Machine.exec (.refAdd z h m by_) s = .next s ∧
      Machine.exec (.refDecrement z h) s = .next s) ∧
    (∀ (h : BitVec 32) (b : Buf), hZone h = z.val → bufOf s.dev h = some b →
      let k := hKey h
      let freed (u : State) : Prop := bufAt u.dev k = { incarn := b.incarn } ∧ BufOnly s u.dev k ∧
        (urnz u.dev z).occ = (urnz s.dev z).occ - b.cells.length
      (∀ by_ o, (by_ / 8192, o / 8192) ∈ transfers → o / 8192 ≠ 0 → b.kind = by_ / 8192 → b.index = by_ % 8192 →
        ∃ u, Machine.exec (.ownerTransfer z h by_ (some o)) s = .next u ∧ OnlyDev s u ∧
          bufAt u.dev k = { b with kind := o / 8192, index := o % 8192, moved := s.dev.mc + 1 } ∧ BufOnly s u.dev k ∧ u.dev.urn.zones = s.dev.urn.zones) ∧
      (∀ (by_ : Nat) (dst : Option Nat), dst.getD 0 / 8192 = 0 → (by_ / 8192, 0) ∈ transfers → b.kind = by_ / 8192 → b.index = by_ % 8192 →
        ∃ u, Machine.exec (.ownerTransfer z h by_ dst) s = .next u ∧ OnlyDev s u ∧ freed u) ∧
      (∀ (by_ : Nat) (dst : Option Nat), 1 ≤ by_ / 8192 → by_ / 8192 ≤ 6 → (by_ / 8192, dst.getD 0 / 8192) ∉ transfers →
        b.kind = by_ / 8192 → b.index = by_ % 8192 → Machine.exec (.ownerTransfer z h by_ dst) s = .next s) ∧
      (∀ (by_ : Nat) (dst : Option Nat), 1 ≤ by_ / 8192 → by_ / 8192 ≤ 6 → (b.kind ≠ by_ / 8192 ∨ b.index ≠ by_ % 8192) →
        ∃ u, Machine.exec (.ownerTransfer z h by_ dst) s = .next u ∧ OnlyDev s u ∧ u.dev.urn = s.dev.urn ∧
          ctr u.dev (Rg.FREE_REFUSED z (by_ / 8192 - 1)) = ctr s.dev (Rg.FREE_REFUSED z (by_ / 8192 - 1)) + 1 ∧
          (page u.dev (urnPage z)).intStatus.getLsbD 6 = true) ∧
      (∀ m by_, b.kind = 5 → b.count + m ≤ 65535 → ∃ u, Machine.exec (.refAdd z h m by_) s = .next u ∧ OnlyDev s u ∧
        bufAt u.dev k = { b with count := b.count + m } ∧ BufOnly s u.dev k) ∧
      (∀ m by_, b.kind = by_ / 8192 → b.index = by_ % 8192 → b.kind ≠ 5 → 1 + m ≤ 65535 →
        ∃ u, Machine.exec (.refAdd z h m by_) s = .next u ∧ OnlyDev s u ∧
          bufAt u.dev k = { b with kind := 5, index := 0, count := 1 + m, moved := s.dev.mc + 1 } ∧ BufOnly s u.dev k) ∧
      (∀ m by_, b.kind = 5 → 65535 < b.count + m → Machine.exec (.refAdd z h m by_) s = .next s) ∧
      (b.kind = 5 → 2 ≤ b.count → ∃ u, Machine.exec (.refDecrement z h) s = .next u ∧ OnlyDev s u ∧
        bufAt u.dev k = { b with count := b.count - 1 } ∧ BufOnly s u.dev k) ∧
      (b.kind = 5 → b.count = 1 → ∃ u, Machine.exec (.refDecrement z h) s = .next u ∧ OnlyDev s u ∧ freed u) ∧
      (b.kind ≠ 5 → ∃ u, Machine.exec (.refDecrement z h) s = .next u ∧ OnlyDev s u ∧ u.dev.urn = s.dev.urn ∧
        ctr u.dev (Rg.REFCNT_ERR z) = ctr s.dev (Rg.REFCNT_ERR z) + 1 ∧ (page u.dev (urnPage z)).intStatus.getLsbD 7 = true)) ∧
    (∀ (h : BitVec 32) (by_ : Nat) (dst : Option Nat), hZone h = z.val → bufOf s.dev h = none → hSpill h = false → 1 ≤ by_ / 8192 → by_ / 8192 ≤ 6 →
      ∃ u, Machine.exec (.ownerTransfer z h by_ dst) s = .next u ∧ OnlyDev s u ∧ u.dev.urn = s.dev.urn ∧
        ctr u.dev (Rg.FREE_REFUSED z (by_ / 8192 - 1)) = ctr s.dev (Rg.FREE_REFUSED z (by_ / 8192 - 1)) + 1 ∧
        (page u.dev (urnPage z)).intStatus.getLsbD 6 = true) ∧
    (∀ (m : Master) (h : BitVec 32), Admits s.dev (Rg.pageOf (Rg.URN_PEEK z)) m →
      let b := bufAt s.dev (hKey h)
      (hSpill h = false → hZone h = z.val → ∃ u, Machine.exec (.urnPeek z m h) s = .next u ∧ rd u.dev (Rg.URN_PEEK z) = h ∧
        rd u.dev (Rg.URN_PEEK_OWNER z) =
          BitVec.ofNat 32 (b.kind * 8192 + b.index + b.incarn.toNat * 2 ^ 16 + one (bufOf s.dev h).isSome * 2 ^ 24 + one b.stale * 2 ^ 25) ∧
        rd u.dev (Rg.URN_PEEK_INFO z) = BitVec.ofNat 32 (b.count + b.cells.length * 2 ^ 16) ∧
        rd u.dev (Rg.URN_PEEK_STAMP z) = BitVec.ofNat 32 b.stamp ∧ u.dev.urn = s.dev.urn) ∧
      (hSpill h = true ∨ hZone h ≠ z.val → ∃ u, Machine.exec (.urnPeek z m h) s = .next u ∧
        PageTo s u (Rg.pageOf (Rg.URN_PEEK z)) (withErr (Rg.URN_PEEK z % 0x1000) 3 true m))) ∧
    (∀ m : Master, Admits s.dev (Rg.pageOf (Rg.URN_AUDIT_CTRL z)) m →
      ∃ u, Machine.exec (.logClear z m) s = .next u ∧ (urnz u.dev z).logValid = 0 ∧ (urnz u.dev z).logNext = 0 ∧
        (∀ i, i < 16 → rd u.dev (Rg.LEAK_LOG_HANDLE z i) = 0 ∧ rd u.dev (Rg.LEAK_LOG_INFO z i) = 0) ∧ u.dev.urn.bufs = s.dev.urn.bufs)

/-- R281 to R283, R285, R287, R288, R292. A leak pass starts at a multiple of 100 ms that has started none, finds a record at or past its limit
that nothing has changed in this cycle, logs and counts it, and with RECLAIM frees it; its end gives HIST and counts the pass. With every
pseudo-channel served, a page that is due goes to HBM once packets leave its link room, with its header, its handles in the SPILL form and no
NEXT, its frames give up their cells, and bytes outside the page stay; with no poisoned burst a refill of a page of one frame brings its bytes
back into the cells offered, behind the frames in cells, and ends the chain; one without room in the pool waits, and a frame with a lost slot is
dropped; a VOQ whose chain is empty leaves spill mode. -/
def Obligations.AuditAndSpillPagesWork : Prop :=
  ∀ (s : State) (z : Zone),
    let due := nsIn s.dev z / 100000000 + 1
    (rb s.dev (Rg.URN_AUDIT_CTRL z) Fl.URN_AUDIT_CTRL_EN = false ∨ (urnz s.dev z).leakRun = true ∨ due ≤ (urnz s.dev z).leakAt →
      Machine.exec (.leakPass z) s = .next s) ∧
    (∀ k b, rb s.dev (Rg.URN_AUDIT_CTRL z) Fl.URN_AUDIT_CTRL_EN = true → (urnz s.dev z).leakRun = false → (urnz s.dev z).leakAt < due →
      s.dev.urn.bufs.filter (fun e => e.1 / 131072 == z.val && e.2.kind != 0) = [(k, b)] → bufAt s.dev k = b → b.kind ≤ 6 →
      let age := (nsIn s.dev z / 1000 + 2 ^ 32 - b.stamp) % 2 ^ 32
      let stale := b.stale || decide (2 ^ 31 ≤ age)
      let lim := Rg.URN_AUDIT_LIMIT z (b.kind - 1)
      let leaked := stale = true ∨ rf s.dev lim Fl.URN_AUDIT_LIMIT_LIMIT * 100 ≤ age
      let reclaim := rb s.dev lim Fl.URN_AUDIT_LIMIT_RECLAIM
      (¬leaked → ∃ u, Machine.exec (.leakPass z) s = .next u ∧ OnlyDev s u ∧ (urnz u.dev z).leakRun = true ∧ bufAt u.dev k = { b with stale := stale } ∧
        ∀ a, ctr u.dev a = ctr s.dev a) ∧
      (b.moved = s.dev.mc + 1 → ∃ u, Machine.exec (.leakPass z) s = .next u ∧ OnlyDev s u ∧ (urnz u.dev z).leakRun = true ∧
        bufAt u.dev k = { b with stale := stale } ∧ ∀ a, ctr u.dev a = ctr s.dev a) ∧
      (leaked → b.moved ≠ s.dev.mc + 1 → reclaim = false → ∃ u, Machine.exec (.leakPass z) s = .next u ∧ OnlyDev s u ∧ (urnz u.dev z).leakRun = true ∧
        bufAt u.dev k = { b with stale := stale } ∧ ctr u.dev (Rg.LEAK_FOUND z) = ctr s.dev (Rg.LEAK_FOUND z) + 1 ∧
        rd u.dev (Rg.LEAK_LOG_HANDLE z (urnz s.dev z).logNext) = mkHandle z (k % 131072) b.incarn ∧
        (rd u.dev (Rg.LEAK_LOG_INFO z (urnz s.dev z).logNext)).toNat % 65536 = (b.kind * 8192 + b.index) % 65536) ∧
      (leaked → b.moved ≠ s.dev.mc + 1 → reclaim = true → ∃ u, Machine.exec (.leakPass z) s = .next u ∧ OnlyDev s u ∧ (bufAt u.dev k).kind = 0 ∧ BufOnly s u.dev k ∧
        ctr u.dev (Rg.LEAK_RECLAIMED z) = ctr s.dev (Rg.LEAK_RECLAIMED z) + 1)) ∧
    ((urnz s.dev z).leakRun = false → Machine.exec (.leakPassEnd z) s = .next s) ∧
    ((urnz s.dev z).leakRun = true → (urnz s.dev z).hist.length = 48 →
      ∃ u, Machine.exec (.leakPassEnd z) s = .next u ∧ OnlyDev s u ∧ (urnz u.dev z).leakRun = false ∧
        (urnz u.dev z).passes = ((urnz s.dev z).passes + 1) % 2 ^ 22 ∧ u.dev.urn.bufs = s.dev.urn.bufs ∧
        ∀ i, i < 48 → rd u.dev (Rg.URN_HIST z i) = BitVec.ofNat 32 ((urnz s.dev z).hist.getD i 0)) ∧
    (∀ v : Fin 2048, (∀ p ∈ (voq s.dev z v).chain, p.written = true) ∨ linkFree s.dev z true 256 = false → Calm s.dev →
      Machine.exec (.pageWrite z v) s = .next s) ∧
    (∀ (v : Fin 2048) (p : Machine.Page), s.dev.hbm.lost = [] → (voq s.dev z v).chain = [p] → p.written = false → p.slots.length ≤ 15 → p.descs.length ≤ 15 →
      linkFree s.dev z true 256 = true → p.slots.length = 15 ∨ p.descs.length = 15 ∨ headCells s.dev z v < refillLevel s.dev z →
      let a := pageAddr s.dev z p.num
      ∃ m d, Machine.exec (.pageWrite z v) s = .next { s with mem := m, dev := settle d } ∧ m.be a 4 = 0xFFFFFFFF ∧
        (m.read (a + 4)).toNat = p.descs.length ∧ m.be (a + 6) 2 = v.val ∧ m.be (a + 8) 4 = p.pos % 2 ^ 32 ∧ m.be (a + 0x8E) 2 = 65535 ∧
        m.be (a + 0x9E) 2 = 65535 ∧ (∀ x k l, p.descs = (x, k) :: l → m.be (a + 16) 4 = (spillHandle z p.num k).toNat) ∧
        (∀ b, ¬(a ≤ b ∧ b < a + 4096) → m.read b = s.mem.read b) ∧
        (voq d z v).chain.map (fun y => (y.num, y.written)) = [(p.num, true)] ∧
        ∀ h b, h ∈ p.slots.map (·.1) → bufOf s.dev h = some b → b.kind = 4 → b.index = v.val → bufOf d h = none) ∧
    (∀ (v : Fin 2048) (cells : List Nat) (bad : List (Nat × Nat)) (nextBad : Bool), let q := voq s.dev z v
      ((∃ p l, q.chain = p :: l ∧ (p.written = false ∨ linkFree s.dev z false 256 = false)) ∨ refillLevel s.dev z ≤ headCells s.dev z v ∨
        (q.chain = [] ∧ q.spill = false) →
        Machine.exec (.refill z v cells bad nextBad) s = .next s) ∧
      (q.chain = [] → q.spill = true → headCells s.dev z v < refillLevel s.dev z →
        voqDepth s.dev z v < rf s.dev (Rg.URN_SPILL_LEVELS z) Fl.URN_SPILL_LEVELS_ON →
        ∃ u, Machine.exec (.refill z v cells bad nextBad) s = .next u ∧ OnlyDev s u ∧ voq u.dev z v = { q with spill := false })) ∧
    (∀ (v : Fin 2048) (cells : List Nat) (bad : List (Nat × Nat)) (p : Machine.Page) (x : Desc) (k : Nat),
      s.dev.hbm.lost = [] → s.dev.hbm.poison = [] → (voq s.dev z v).chain = [p] → p.written = true → p.descs = [(x, k)] →
      byRef s.dev x = false → linkFree s.dev z false 256 = true → headCells s.dev z v < refillLevel s.dev z →
      let n := cellsOf x.len
      let now := cycleOf s.dev z
      let whole := ∀ j, j < n → (0, k + j) ∉ bad
      let room := barred s.dev (urnReq z) = false ∧ poolRoom s.dev z n false = true
      1 ≤ n → 1 ≤ k → k + n ≤ 16 →
      (whole → mayPresent s.dev now (urnReq z) = true → room → cells.length = n → cellsAvail s.dev z cells = true →
        ∃ u y b, Machine.exec (.refill z v cells bad false) s = .next u ∧ OnlyDev s u ∧ (voq u.dev z v).q = (voq s.dev z v).q ++ [y] ∧
          (voq u.dev z v).chain = [] ∧ bufOf u.dev y.handle = some b ∧ b.cells = cells ∧ b.kind = 4 ∧
          b.index = v.val ∧ b.len = x.len ∧ b.bytes = s.mem.readN (pageAddr s.dev z p.num + 256 * k) x.len ∧
          ctr u.dev (Rg.SPILL_IN z) = ctr s.dev (Rg.SPILL_IN z) + 1 ∧
          (headCells s.dev z v + n < rf s.dev (Rg.URN_SPILL_LEVELS z) Fl.URN_SPILL_LEVELS_ON → (voq u.dev z v).spill = false)) ∧
      (whole → mayPresent s.dev now (urnReq z) = true → ¬room →
        ∃ u, Machine.exec (.refill z v cells bad false) s = .next u ∧ OnlyDev s u ∧ (voq u.dev z v).q = (voq s.dev z v).q ∧
          (voq u.dev z v).chain = [p] ∧ u.dev.urn.bufs = s.dev.urn.bufs ∧
          ctr u.dev (Rg.ALLOC_EMPTY z) = ctr s.dev (Rg.ALLOC_EMPTY z) + 1) ∧
      ((0, k) ∈ bad → ∃ u, Machine.exec (.refill z v cells bad false) s = .next u ∧ OnlyDev s u ∧ (voq u.dev z v).q = (voq s.dev z v).q ∧
        (voq u.dev z v).chain = [] ∧ ctr u.dev (Rg.SPILL_DROP z) = ctr s.dev (Rg.SPILL_DROP z) + 1))

/-! ## Reorder stage, Carafe, traffic managers, edit engines -/

/-- The step changed only the traffic managers' and telemetry's own bookkeeping: no entry, VOQ, buffer, register or counter. -/
def Sys2Proof.Terms.Idle (s u : State) : Prop :=
  (∃ g t, u = { s with dev := { s.dev with egr := g, tel := t } }) ∧ ∀ z, rentries u.dev z = rentries s.dev z ∧ carQ u.dev z = carQ s.dev z ∧ mirrQ u.dev z = mirrQ s.dev z

/-- R297 to R300, R305, R306, R323. The entry whose number is next leaves, NEXT advances, and its verdict acts: a DROP frees its buffer, a FORWARD to a
usable port of the zone joins the VOQ of its class, one to no port counts in BAD_DEST, one to a group makes the buffer SHARED, asks Carafe and
makes the domain wait, and a PUNT without a token is dropped; an entry that is not next waits until the hold limit has passed, when
GAP moves NEXT to it. An entry that arrives waits behind the others; a late one takes no descriptor, and a full stage first forces a gap and
releases the entry that has waited longest. Carafe makes a copy for a valid member and gives up the references of an invalid group. GWRITE and MWRITE store
the windows, GREAD and MREAD load them, and a group beyond the last member is refused. -/
def Obligations.ReleasesActOnVerdicts : Prop :=
  (∀ (s : State) (z : Zone) (n : Fin 512), Calm s.dev →
    let k := 512 * z.val + n.val
    (rentries s.dev z = [] ∨ (∃ e, rentries s.dev z = [e] ∧ e.dom = k ∧ ((dom s.dev k).mcWait = true ∨ (e.seq ≠ (dom s.dev k).rel ∧ overdue s.dev z k = none))) →
      ∃ u, Machine.exec (.reorderRelease z) s = .next u ∧ Idle s u) ∧
    (∀ e h b, rentries s.dev z = [e] → e.dom = k → (dom s.dev k).mcWait = false → e.seq = (dom s.dev k).rel → e.handle = some h →
      bufOf s.dev h = some b → b.kind = 3 → b.index = 0 → hZone h = z.val →
      let v := e.verdict
      let released (u : State) : Prop := OnlyDev s u ∧ rentries u.dev z = [] ∧ (dom u.dev k).rel = (e.seq + 1) % 65536 ∧
        ctr u.dev (Rg.ROB_RELEASED z) = ctr s.dev (Rg.ROB_RELEASED z) + 1
      let freed (u : State) : Prop := bufOf u.dev h = none ∧ BufOnly s u.dev (hKey h)
      (vAction v = 0 → ∃ u, Machine.exec (.reorderRelease z) s = .next u ∧ released u ∧ freed u ∧
        ctr u.dev (Rg.DROP_REASON z (vReason v)) = ctr s.dev (Rg.DROP_REASON z (vReason v)) + 1) ∧
      (vAction v = 1 → vMc v = false → 256 ≤ vDest v → ∃ u, Machine.exec (.reorderRelease z) s = .next u ∧ released u ∧ freed u ∧
        ctr u.dev (Rg.BAD_DEST z) = ctr s.dev (Rg.BAD_DEST z) + 1) ∧
      (vAction v = 1 → vMc v = false → vDest v < 256 → portZone (vDest v) = z.val → portUsable s.dev (vDest v) = true →
        (voq s.dev z (8 * vDest v + vClass v)).spill = false → e.lossless = true →
        ∃ u x, Machine.exec (.reorderRelease z) s = .next u ∧ released u ∧
          (voq u.dev z (8 * vDest v + vClass v)).q = (voq s.dev z (8 * vDest v + vClass v)).q ++ [x] ∧
          x.handle = h ∧ x.len = b.len ∧ x.edit = vEdit v ∧ x.port = vDest v ∧ x.cls = vClass v ∧ x.dom = e.dom ∧ x.seq = e.seq ∧
          x.copy = false ∧ bufAt u.dev (hKey h) = { b with kind := 4, index := 8 * vDest v + vClass v, moved := s.dev.mc + 1 } ∧
          ctr u.dev (Rg.FWD_UC z) = ctr s.dev (Rg.FWD_UC z) + 1) ∧
      (vAction v = 1 → vMc v = false → vDest v < 256 → portZone (vDest v) = z.val → portBegins s.dev (vDest v) = true →
        portUsable s.dev (vDest v) = false → ∃ u, Machine.exec (.reorderRelease z) s = .next u ∧ released u ∧ freed u ∧
          ctr u.dev (Rg.DOWN_DROP z) = ctr s.dev (Rg.DOWN_DROP z) + 1) ∧
      (vAction v = 1 → vMc v = true → isolated s.dev z = false → ∃ u r, Machine.exec (.reorderRelease z) s = .next u ∧ released u ∧
        bufAt u.dev (hKey h) = { b with kind := 5, index := 0, count := 1, moved := s.dev.mc + 1 } ∧ carQ u.dev z = carQ s.dev z ++ [r] ∧ r.handle = h ∧
        r.group = vDest v ∧ r.cls = vClass v ∧ r.waits = true ∧ r.mirror = false ∧ (dom u.dev k).mcWait = true) ∧
      (vAction v = 3 → isolated s.dev z = false → ∃ u r, Machine.exec (.reorderRelease z) s = .next u ∧ released u ∧
        carQ u.dev z = carQ s.dev z ++ [r] ∧ r.handle = h ∧ r.group = vDest v ∧ r.waits = false ∧ r.mirror = true ∧ (dom u.dev k).mcWait = false) ∧
      (vAction v = 2 → (∀ p, p < 32 → tget zeroN s.dev.adm.tokens (32 * z + p) < 1000) →
        ∃ u, Machine.exec (.reorderRelease z) s = .next u ∧ released u ∧ freed u ∧
          ∃ p, p < 32 ∧ ctr u.dev (Rg.PUNT_POL_DROP z p) = ctr s.dev (Rg.PUNT_POL_DROP z p) + 1)) ∧
    ((dom s.dev k).mcWait = true ∨ nextWaits s.dev z k = true ∨ overdue s.dev z k = none →
      ∃ u, Machine.exec (.gap z n) s = .next u ∧ Idle s u) ∧
    (∀ o l, (dom s.dev k).mcWait = false → nextWaits s.dev z k = false → domEntries s.dev z k = o :: l →
      rf s.dev (Rg.ROB_CTRL z) Fl.ROB_CTRL_HOLD_US * 1000 * 2 ^ 32 ≤ elapsed (tbIn s.dev z) o.arrival →
      ∃ u, Machine.exec (.gap z n) s = .next u ∧ OnlyDev s u ∧ dom u.dev k = { dom s.dev k with rel := o.seq } ∧
        rentries u.dev z = rentries s.dev z ∧
        ctr u.dev (Rg.ROB_GAP z) = ctr s.dev (Rg.ROB_GAP z) + BitVec.ofNat 64 ((o.seq + 65536 - (dom s.dev k).rel) % 65536)) ∧
    (∀ e : REntry,
      (isLate s.dev e = true → rentries (robArrive s.dev z e) z = rentries s.dev z ∧
        ctr (robArrive s.dev z e) (Rg.ROB_LATE z) = ctr s.dev (Rg.ROB_LATE z) + 1) ∧
      (isLate s.dev e = false → (rentries s.dev z).length < 8192 - entriesGone s.dev z 0 → rentries (robArrive s.dev z e) z = rentries s.dev z ++ [e]) ∧
      (∀ o, isLate s.dev e = false → (rentries s.dev z).length = 8192 - entriesGone s.dev z 0 →
        (rentries s.dev z).find? (fun x => !(dom s.dev x.dom).mcWait) = some o → nextWaits s.dev z o.dom = false → e.dom ≠ o.dom →
        rentries (robArrive s.dev z e) z = (rentries s.dev z).filter (fun x => !(x.dom == o.dom && x.seq == o.seq)) ++ [e] ∧
        ctr (robArrive s.dev z e) (Rg.FORCED_GAP z) = ctr s.dev (Rg.FORCED_GAP z) + 1 ∧
        (dom (robArrive s.dev z e) o.dom).rel = (o.seq + 1) % 65536)) ∧
    (∀ r, (carQ s.dev z = [] → ∃ u, Machine.exec (.expansion z) s = .next u ∧ Idle s u) ∧
      (carQ s.dev z = [] → mirrQ s.dev z = [] → ∃ u, Machine.exec (.mirrorExpansion z) s = .next u ∧ Idle s u) ∧
      (carQ s.dev z = [r] → r.mirror = false → (groupOf s.dev r.group).2.2.1 = false → r.refs = 1 → ∀ b, bufOf s.dev r.handle = some b →
        b.kind = 5 → b.count = 1 → ∃ u, Machine.exec (.expansion z) s = .next u ∧ OnlyDev s u ∧ carQ u.dev z = [] ∧
          bufOf u.dev r.handle = none ∧ (r.waits = true → (dom u.dev r.dom).mcWait = false) ∧
          ctr u.dev Rg.MC_BAD_GROUP = ctr s.dev Rg.MC_BAD_GROUP + 1) ∧
      (carQ s.dev z = [] → mirrQ s.dev z = [r] → (groupOf s.dev r.group).2.2.1 = false → r.refs = 1 → ∀ b, bufOf s.dev r.handle = some b →
        b.kind = 5 → 2 ≤ b.count → ∃ u, Machine.exec (.mirrorExpansion z) s = .next u ∧ OnlyDev s u ∧ mirrQ u.dev z = [] ∧
          bufOf u.dev r.handle = some { b with count := b.count - 1 } ∧ ctr u.dev Rg.MC_BAD_GROUP = ctr s.dev Rg.MC_BAD_GROUP + 1) ∧
      (∀ w : Nat, let p := w % 256
        let c := if w.testBit 11 then w / 256 % 8 else r.cls
        carQ s.dev z = [r] → r.mirror = false → (groupOf s.dev r.group).2.2.1 = true →
        membersOf s.dev (groupOf s.dev r.group).1 (groupOf s.dev r.group).2.1 = [w] → r.refs = 1 → isolated s.dev z = false →
        isolated s.dev (portZone p) = false → portUsable s.dev p = true → quadHeld s.dev (p / 4) = false →
        c ∉ shedSet s.dev z (poolShed s.dev z) → paused s.dev p c = false → (voq s.dev z (8 * p + c)).spill = false → r.lossless = true →
        ∃ u x, Machine.exec (.expansion z) s = .next u ∧ OnlyDev s u ∧ carQ u.dev z = [] ∧
          (voq u.dev z (8 * p + c)).q = (voq s.dev z (8 * p + c)).q ++ [x] ∧ x.handle = r.handle ∧ x.copy = true ∧ x.edit = w / 4096 % 65536 ∧
          x.port = p ∧ x.cls = c ∧ (r.waits = true → (dom u.dev r.dom).mcWait = false) ∧ ctr u.dev Rg.CAR_COPIES = ctr s.dev Rg.CAR_COPIES + 1))) ∧
  (∀ (s : State) (m : Master), Admits s.dev (Rg.pageOf Rg.CAR_CMD) m →
    let g := rf s.dev Rg.CAR_GROUP_SEL Fl.CAR_GROUP_SEL_GROUP
    let base := rf s.dev Rg.CAR_GROUP_LO Fl.CAR_GROUP_LO_BASE
    let count := rf s.dev Rg.CAR_GROUP_LO Fl.CAR_GROUP_LO_COUNT
    let i := rf s.dev Rg.CAR_MEMBER_SEL Fl.CAR_MEMBER_SEL_INDEX
    (base + count ≤ 1048576 → ∃ u, Machine.exec (.gwrite m) s = .next u ∧ OnlyDev s u ∧
      groupOf u.dev g = (base, count, rb s.dev Rg.CAR_GROUP_LO Fl.CAR_GROUP_LO_VALID, rf s.dev Rg.CAR_GROUP_HI Fl.CAR_GROUP_HI_HOLD) ∧
      ∀ j, j ≠ g → groupOf u.dev j = groupOf s.dev j) ∧
    (1048576 < base + count → ∃ u, Machine.exec (.gwrite m) s = .next u ∧ PageTo s u (Rg.pageOf Rg.CAR_CMD) (withErr (Rg.CAR_CMD % 0x1000) 3 true m)) ∧
    (∃ u, Machine.exec (.gread m) s = .next u ∧ rd64 u.dev Rg.CAR_GROUP_LO Rg.CAR_GROUP_HI = (tget zero64 s.dev.egr.groups g).toNat ∧
      ∀ a, a ≠ Rg.CAR_GROUP_LO → a ≠ Rg.CAR_GROUP_HI → rd u.dev a = rd s.dev a) ∧
    (∃ u, Machine.exec (.mwrite m) s = .next u ∧ OnlyDev s u ∧ tget zero32 u.dev.egr.members i = rd s.dev Rg.CAR_MEMBER ∧
      ∀ j, j ≠ i → tget zero32 u.dev.egr.members j = tget zero32 s.dev.egr.members j) ∧
    (∃ u, Machine.exec (.mread m) s = .next u ∧ RegTo s u.dev Rg.CAR_MEMBER (BitVec.allOnes 32) (tget zero32 s.dev.egr.members i)))

/-- R303, R304, R307, R308, R310, R314, R317, R325. A VOQ that wants credit asks; a port that may grants 1024 bytes to the next zone that asks;
a VOQ with a positive balance sends its head frame to staging, or loses it where the port is not UP, and nothing crosses the link of an isolated
zone; a port takes the head of its highest ready strict class; an edit ends with its list run and an FCS, a list out of range drops the frame; an
edited frame goes out and counts, and none while the port receives remote fault; a
shaper fills by its rate up to its burst; edit memory is written outside the set in effect. -/
def Obligations.PortsSendTheirFrames : Prop :=
  (∀ (s : State) (z : Zone) (v : Fin 2048), Calm s.dev →
    let q := voq s.dev z v
    let p := v.val / 8
    (wantsCredit q = true → isoBetween s.dev z (portZone p) = none → ∃ u, Machine.exec (.creditRequest z v) s = .next u ∧ OnlyDev s u ∧
      voq u.dev z v = { q with asked := q.asked + 1 }) ∧
    (wantsCredit q = false ∨ (isoBetween s.dev z (portZone p)).isSome = true → Machine.exec (.creditRequest z v) s = .next s) ∧
    (q.q = [] ∨ q.balance ≤ 0 → Machine.exec (.voqSend z v) s = .next s) ∧
    (∀ x l, q.q = x :: l → crosses z p x = true → isolated s.dev z = true ∨ isolated s.dev (portZone p) = true →
      Machine.exec (.voqSend z v) s = .next s) ∧
    (∀ x l b, q.q = x :: l → 0 < q.balance → x.copy = false → bufOf s.dev x.handle = some b → b.kind = 4 → b.index = v.val →
      crosses z p x = false ∨ (isolated s.dev z = false ∧ isolated s.dev (portZone p) = false) →
      ∃ d, Machine.exec (.voqSend z v) s = .next { s with dev := settle d } ∧ (voq d z v).q = l ∧ (voq d z v).balance = q.balance - (x.len : Int) ∧
        bufOf d x.handle = none ∧
        (portUp s.dev p = true → (staging d p (v.val % 8)).frames =
          (staging s.dev p (v.val % 8)).frames ++ [(x, z.val, (frameOf s.dev x.handle).take x.len, b.tstamp)]) ∧
        (portUp s.dev p = false → (staging d p (v.val % 8)).frames = (staging s.dev p (v.val % 8)).frames ∧
          ctr d (Rg.TM_FLUSHED (portZone p) (p % 64)) = ctr s.dev (Rg.TM_FLUSHED (portZone p) (p % 64)) + 1))) ∧
  (∀ (s : State) (p : Port) (c : Sys2Proof.Class),
    (paused s.dev p c = true ∨ quadHeld s.dev (p / 4) = true ∨ creditLimit s.dev p ≤ portCredits s.dev p ∨ poolSpent s.dev (portZone p) = true →
      Machine.exec (.creditGrant p c) s = .next s) ∧
    (∀ z, paused s.dev p c = false → quadHeld s.dev (p / 4) = false → portCredits s.dev p < creditLimit s.dev p → poolSpent s.dev (portZone p) = false → nextAsker s.dev p c = some z →
      ∃ u, Machine.exec (.creditGrant p c) s = .next u ∧ OnlyDev s u ∧ (staging u.dev p c).last = z ∧
        voq u.dev z (8 * p.val + c.val) = { voq s.dev z (8 * p.val + c.val) with
          asked := (voq s.dev z (8 * p.val + c.val)).asked - 1, balance := (voq s.dev z (8 * p.val + c.val)).balance + 1024 }) ∧
    (portUp s.dev p = false ∨ quadHeld s.dev (p / 4) = true → Machine.exec (.portSelect p) s = .next s) ∧
    (∀ x y b t l, portBegins s.dev p = true → portUp s.dev p = true → quadHeld s.dev (p / 4) = false → (port s.dev p).blocked = false →
      portShaperOpen s.dev p = true → (rf s.dev (etsReg p) Fl.TM_PORT_ETS_STRICT).testBit c = true → classReady s.dev p c = true →
      (∀ k, c.val < k → k < 8 → (rf s.dev (etsReg p) Fl.TM_PORT_ETS_STRICT).testBit k = true → classReady s.dev p k = false) →
      (staging s.dev p c).frames = (x, y, b, t) :: l → x.ecn = false →
      ∃ u e, Machine.exec (.portSelect p) s = .next u ∧ OnlyDev s u ∧ (staging u.dev p c).frames = l ∧
        (tmPort u.dev p).edits = (tmPort s.dev p).edits ++ [e] ∧ e.desc = x ∧ e.bytes = b ∧ e.mark = false ∧ e.set = editSet s.dev (portZone p)) ∧
    ((tmPort s.dev p).edits = [] → Calm s.dev → Machine.exec (.editDone p) s = .next s) ∧
    (∀ e l, let z := portZone p
      (tmPort s.dev p).edits = e :: l →
      (16384 ≤ e.desc.edit → ∃ d, Machine.exec (.editDone p) s = .next { s with dev := settle d } ∧ (tmPort d p).edits = l ∧
        (tmPort d p).mac = (tmPort s.dev p).mac ∧ ctr d (Rg.EDT_BAD_EDIT z) = ctr s.dev (Rg.EDT_BAD_EDIT z) + 1) ∧
      (e.desc.edit < 16384 → editWord s.dev z e.set (16 * e.desc.edit) = 0 → e.mark = false → 64 ≤ e.bytes.length →
        e.bytes.length ≤ rf s.dev (Rg.QUAD_MAX_FRAME (p / 4)) Fl.QUAD_MAX_FRAME_MAX_FRAME →
        let b := e.bytes.take (e.bytes.length - 4)
        ∃ d, Machine.exec (.editDone p) s = .next { s with dev := settle d } ∧ (tmPort d p).edits = l ∧
          (tmPort d p).mac = (tmPort s.dev p).mac ++ [{ e with bytes := b ++ fcs b }] ∧
          ctr d (Rg.EDT_EDITED z) = ctr s.dev (Rg.EDT_EDITED z) + 1)) ∧
    ((tmPort s.dev p).mac = [] ∨ s.dev.life.stopped = true ∨ (port s.dev p).rfault = true → Machine.exec (.frameTransmit p) s = .next s) ∧
    (∀ e l, (tmPort s.dev p).mac = e :: l → s.dev.life.stopped = false → (port s.dev p).rfault = false → quadHeld s.dev (p / 4) = false →
      paused s.dev p e.desc.cls = false →
      ∃ u, Machine.exec (.frameTransmit p) s = .next u ∧ OnlyDev s u ∧ (tmPort u.dev p).mac = l ∧ .frame p e.bytes ∈ u.dev.out ∧
        ctr u.dev (Rg.TX_FRAMES (p / 4) (p % 4)) = ctr s.dev (Rg.TX_FRAMES (p / 4) (p % 4)) + 1 ∧
        ctr u.dev (Rg.TX_OCTETS (p / 4) (p % 4)) = ctr s.dev (Rg.TX_OCTETS (p / 4) (p % 4)) + BitVec.ofNat 64 e.bytes.length)) ∧
  (∀ (s : State) (z : Zone), let k := nsIn s.dev z / 256
    let at_ := tget zeroN s.dev.egr.shaperAt z
    (k ≤ at_ → Machine.exec (.shaperRefill z) s = .next s) ∧
    (at_ < k → ∃ u, Machine.exec (.shaperRefill z) s = .next u ∧ OnlyDev s u ∧ tget zeroN u.dev.egr.shaperAt z = k ∧
      ∀ i, i < 64 → (tmPort s.dev (64 * z + i)).buckets.length = 9 →
        bucket u.dev (64 * z + i) 8 = min (1000 * (rf s.dev (Rg.TM_PSH_BURST z i) Fl.TM_PSH_BURST_BURST : Int))
          (bucket s.dev (64 * z + i) 8 + 32 * rf s.dev (Rg.TM_PSH_RATE z i) Fl.TM_PSH_RATE_RATE * ((k - at_ : Nat) : Int)))) ∧
  (∀ (s : State) (z : Zone) (m : Master) (v : W32), Admits s.dev (Rg.pageOf (Rg.EDT_WDATA z)) m →
    let st := rf s.dev (Rg.EDT_WADDR z) Fl.EDT_WADDR_WSET
    let w := rf s.dev (Rg.EDT_WADDR z) Fl.EDT_WADDR_WORD
    (st = editSet s.dev z ∨ editOldBusy s.dev z = true → ∃ d, Machine.exec (.edtWdata z m v) s = .next { s with dev := settle d } ∧
      d.egr = s.dev.egr ∧ ctr d (Rg.EDT_WRITE_REFUSED z) = ctr s.dev (Rg.EDT_WRITE_REFUSED z) + 1) ∧
    (st ≠ editSet s.dev z → editOldBusy s.dev z = false → w < 294912 →
      ∃ d, Machine.exec (.edtWdata z m v) s = .next { s with dev := settle d } ∧ editWord d z st w = v ∧
        (∀ z' st' w', z' < 4 → st' < 2 → (z', st', w') ≠ (z.val, st, w) → editWord d z' st' w' = editWord s.dev z' st' w') ∧
        rf d (Rg.EDT_WADDR z) Fl.EDT_WADDR_WORD =
          if rb s.dev (Rg.EDT_WADDR z) Fl.EDT_WADDR_AUTOINC then w + 1 else w))

/-! ## HBM controllers -/

/-- Rules 1 to 5 of R331 at a bank whose open row is `r`: `y` is served before `x`. Classes rank 2, 3, 4, 5, 0, 1. -/
def Sys2Proof.Terms.before (r : Option Nat) (y x : HReq) : Prop :=
  let rank (c : Nat) : Nat := [4, 5, 0, 1, 2, 3].getD c 5
  let opens (q : HReq) : Prop := r = some q.row
  (y.promoted = true ∧ x.promoted = false) ∨ (y.promoted = true ∧ x.promoted = true ∧ y.order < x.order) ∨
  (y.promoted = false ∧ x.promoted = false ∧ (rank y.cls < rank x.cls ∨
    (y.cls = x.cls ∧ ((opens y ∧ ¬opens x) ∨ ((opens y ↔ opens x) ∧ y.order < x.order)))))

/-- R331, R332, R336 to R340, R342 to R344. Of two requests a bank serves the one that R331 puts first, or in in-order mode the one that came
first, counts it and leaves the other; an activation counts its row, and one above the threshold issues RFM and throttles its requester; a
request is promoted at its age limit; counts restart with a window; a refresh that is due is made, at half the interval while the stack is HOT;
training clears the stacks that it trains in class 5 and judges the pseudo-channels that failed permanent; temperature, tracking, scrub,
migration and restoration of a pseudo-channel do what their rules say, in the states that allow them and while their page is not held. -/
def Obligations.HbmServesItsQueues : Prop :=
  ∀ (s : State) (pc : Fin 128) (bank : Fin 48),
    let st := pc.val / 32
    let b := hbank s.dev pc bank
    let state := rf s.dev (Rg.HBM_STATUS st) Fl.HBM_STATUS_STATE
    (state ≠ 2 ∨ b.q = [] → Machine.exec (.hbmRequest pc bank) s = .next s) ∧
    (∀ x y, state = 2 → b.q = [x, y] → x.order ≠ y.order → x.cls < 6 → y.cls < 6 →
      let served (u : State) (a o : HReq) : Prop := OnlyDev s u ∧ (hbank u.dev pc bank).q = [o] ∧ (hbank u.dev pc bank).openRow = some a.row ∧
        (hbank u.dev pc bank).inOrder = false ∧
        ctr u.dev (Rg.HBM_SERVED st a.cls) = ctr s.dev (Rg.HBM_SERVED st a.cls) + 1 ∧
        ctr u.dev (if a.write then Rg.HBM_WRITES st else Rg.HBM_READS st) = ctr s.dev (if a.write then Rg.HBM_WRITES st else Rg.HBM_READS st) + 1 ∧
        ctr u.dev (Rg.HBM_ACTIVATES st) = ctr s.dev (Rg.HBM_ACTIVATES st) + BitVec.ofNat 64 (one (decide (b.openRow ≠ some a.row)))
      (b.inOrder = true ∨ ¬before b.openRow y x → ∃ u, Machine.exec (.hbmRequest pc bank) s = .next u ∧ served u x y) ∧
      (b.inOrder = false → before b.openRow y x → ∃ u, Machine.exec (.hbmRequest pc bank) s = .next u ∧ served u y x)) ∧
    (∀ x, state = 2 → b.q = [x] → b.openRow ≠ some x.row → 2 ≤ x.cls → x.cls ≤ 4 →
      let lim := rf s.dev (Rg.HBM_HAMMER st) Fl.HBM_HAMMER_THRESHOLD
      (actCount b x.row + 1 ≤ lim → ∃ u, Machine.exec (.hbmRequest pc bank) s = .next u ∧ OnlyDev s u ∧
        actCount (hbank u.dev pc bank) x.row = actCount b x.row + 1) ∧
      (lim < actCount b x.row + 1 → ∃ u, Machine.exec (.hbmRequest pc bank) s = .next u ∧ OnlyDev s u ∧
        actCount (hbank u.dev pc bank) x.row = 0 ∧ ctr u.dev (Rg.HBM_RFM st) = ctr s.dev (Rg.HBM_RFM st) + 1 ∧
        (page u.dev (hbmPage st)).intStatus.getLsbD 1 = true ∧
        (rb s.dev (Rg.HBM_THROTTLE st) Fl.HBM_THROTTLE_EN = true →
          tget zeroN u.dev.hbm.throttle (1024 * st + x.requester) = rf s.dev (Rg.HBM_THROTTLE st) Fl.HBM_THROTTLE_COUNT ∧
          rd u.dev (Rg.HBM_THR_LAST st) = BitVec.ofNat 32 (x.requester + pc.val * 2 ^ 10) ∧
          (page u.dev (hbmPage st)).intStatus.getLsbD 2 = true))) ∧
    (∀ i, let lim (c : Nat) := rf s.dev (Rg.HBM_AGE st (c / 2)) (if c % 2 == 0 then Fl.HBM_AGE_EVEN else Fl.HBM_AGE_ODD)
      (b.q[i]? = none → Machine.exec (.hbmPromote pc bank i) s = .next s) ∧
      (∀ x, b.q[i]? = some x →
        (x.promoted = true ∨ 4 * s.dev.mc - x.at_ < lim x.cls → Machine.exec (.hbmPromote pc bank i) s = .next s) ∧
        (x.promoted = false → lim x.cls ≤ 4 * s.dev.mc - x.at_ → ∃ u, Machine.exec (.hbmPromote pc bank i) s = .next u ∧ OnlyDev s u ∧
          (hbank u.dev pc bank).q = lmod b.q i (fun y => { y with promoted := true }) ∧
          ctr u.dev (Rg.HBM_PROMOTED st x.cls) = ctr s.dev (Rg.HBM_PROMOTED st x.cls) + 1))) ∧
    (∀ k : Stack, let w := nowNs s.dev / (1000000 * max 1 (rf s.dev (Rg.HBM_HAMMER k) Fl.HBM_HAMMER_WINDOW_MS))
      (w = tget zeroN s.dev.hbm.window k → Machine.exec (.hammerWindow k) s = .next s) ∧
      (w ≠ tget zeroN s.dev.hbm.window k → ∃ u, Machine.exec (.hammerWindow k) s = .next u ∧ OnlyDev s u ∧ tget zeroN u.dev.hbm.window k = w ∧
        (st = k.val → ∀ r, actCount (hbank u.dev pc bank) r = 0) ∧ (st ≠ k.val → hbank u.dev pc bank = b))) ∧
    (let due := tget zeroN s.dev.hbm.refAt pc + (if rb s.dev (Rg.HBM_STATUS st) Fl.HBM_STATUS_HOT then 1950 else 3900)
     (state = 2 ∨ state = 3 → due ≤ nowNs s.dev → ∃ u, Machine.exec (.refresh pc bank) s = .next u ∧ OnlyDev s u ∧
       ctr u.dev (Rg.HBM_REFRESHES st) = ctr s.dev (Rg.HBM_REFRESHES st) + 1 ∧ tget zeroN u.dev.hbm.refAt pc = nowNs s.dev) ∧
     ((state ≠ 2 ∧ state ≠ 3) ∨ nowNs s.dev < due → Machine.exec (.refresh pc bank) s = .next s)) ∧
    (∀ (k : Stack) (t : BitVec 8), let r := Rg.HBM_STATUS k
      (s.dev.ket.off = true ∨ rf s.dev r Fl.HBM_STATUS_STATE = 0 → Machine.exec (.hbmTempRead k t) s = .next s) ∧
      (s.dev.ket.off = false → rf s.dev r Fl.HBM_STATUS_STATE ≠ 0 → ∃ u, Machine.exec (.hbmTempRead k t) s = .next u ∧ OnlyDev s u ∧
        rf u.dev r Fl.HBM_STATUS_TEMP = t.toNat ∧
        rb u.dev r Fl.HBM_STATUS_HOT = (decide (85 ≤ t.toInt) || (decide (80 ≤ t.toInt) && rb s.dev r Fl.HBM_STATUS_HOT)) ∧
        (85 ≤ t.toInt → rb s.dev r Fl.HBM_STATUS_HOT = false → (page u.dev (hbmPage k)).intStatus.getLsbD 4 = true))) ∧
    (∀ (ok : List Bool) (failed : List (Fin 128)), ∃ d, Machine.exec (.hbmTraining ⟨ok, failed⟩) s = .next { s with dev := settle d } ∧ ∀ k, k < 4 →
      let f (d : Dev) := rf d (Rg.HBM_STATUS k) Fl.HBM_STATUS_STATE
      let n := 32 * 3145728
      (f s.dev ≠ 1 → f d = f s.dev) ∧
      (f s.dev = 1 → ok.getD k false = true → f d = 2 ∧ (∀ p, p < 8 → (page d (hbmPage k + p)).ready = true) ∧
        (∀ q ∈ failed, q.val / 32 = k → (pcChan q, true) ∈ d.ras.todo) ∧
        (s.dev.hbm.lost = [] → ctr d (Rg.HBM_SERVED k 5) = ctr s.dev (Rg.HBM_SERVED k 5) + BitVec.ofNat 64 n ∧
          ctr d (Rg.HBM_WRITES k) = ctr s.dev (Rg.HBM_WRITES k) + BitVec.ofNat 64 n)) ∧
      (f s.dev = 1 → ok.getD k false = false → f d = 0 ∧ d.hbm.absent = true ∧ (page d (hbmPage k)).intStatus.getLsbD 5 = true)) ∧
    (∀ k : Stack, let f := rf s.dev (Rg.HBM_STATUS k) Fl.HBM_STATUS_STATE
      let en := rb s.dev (Rg.HBM_CTRL k) Fl.HBM_CTRL_TRACK_EN
      (f = 2 → en = true → (page s.dev (hbmPage k)).held = false → ∃ u, Machine.exec (.readEyeTrack k) s = .next u ∧ OnlyDev s u ∧
        tget zeroN u.dev.hbm.tracked k = nowNs s.dev ∧ u.dev.hbm.banks = s.dev.hbm.banks) ∧
      (f ≠ 2 ∨ en = false ∨ (page s.dev (hbmPage k)).held = true → Machine.exec (.readEyeTrack k) s = .next s)) ∧
    (∀ n, let en := rb s.dev (Rg.HBM_CTRL st) Fl.HBM_CTRL_SCRUB_EN
      let held := (page s.dev (hbmPage st)).held
      let serves := inService s.dev (pcChan pc)
      (state ≠ 2 ∨ en = false ∨ held = true ∨ serves = false → Calm s.dev → Machine.exec (.patrolScrub pc n) s = .next s) ∧
      (state = 2 → en = true → held = false → serves = true → n < 3145728 →
        ∃ d x, Machine.exec (.patrolScrub pc n) s = .next { s with dev := settle d } ∧
          (hbank d pc (n / 4 % 48)).q = (hbank s.dev pc (n / 4 % 48)).q ++ [x] ∧ x.cls = 5 ∧ x.row = n / 4 / 48 ∧ x.write = false ∧
          tget zeroN d.hbm.scrub pc = (n + 1) % 3145728)) ∧
    (let mine := s.dev.hbm.spareOf = some pc.val
     let held := (page s.dev (hbmPage st)).held
     (mine → s.dev.hbm.copy = 0 → held = false → ∃ u, Machine.exec (.migration pc) s = .next u ∧ OnlyDev s u ∧ u.dev.hbm.copy = 1 ∧
       ∀ k, k < 4 → rb u.dev (Rg.HBM_STATUS k) Fl.HBM_STATUS_MIGRATING = true) ∧
     (¬mine ∨ s.dev.hbm.copy ≠ 0 ∨ held = true → Machine.exec (.migration pc) s = .next s) ∧
     (mine → s.dev.hbm.copy = 1 → ∃ u, Machine.exec (.migrationDone pc) s = .next u ∧ OnlyDev s u ∧ u.dev.hbm.copy = 2 ∧
       ∀ k, k < 4 → rb u.dev (Rg.HBM_STATUS k) Fl.HBM_STATUS_MIGRATING = false ∧ rb u.dev (Rg.HBM_STATUS k) Fl.HBM_STATUS_SPARE_USED = true ∧
         rf u.dev (Rg.HBM_STATUS k) Fl.HBM_STATUS_SPARE_PC = pc.val) ∧
     (¬mine ∨ s.dev.hbm.copy ≠ 1 → Machine.exec (.migrationDone pc) s = .next s)) ∧
    (let k := pcChan pc
     let c := chan s.dev k
     (∀ m, Admits s.dev (Rg.pageOf (Rg.HBM_PC_STATE st (pc.val % 32))) m →
       (c.state ≠ 3 → Machine.exec (.hbmRestore pc m) s = .next s) ∧
       (c.state = 3 → ∃ u, Machine.exec (.hbmRestore pc m) s = .next u ∧ OnlyDev s u ∧ (chan u.dev k).state = 2 ∧ (chan u.dev k).start = nowNs s.dev ∧
         (s.dev.hbm.spareOf = some pc.val → s.dev.hbm.copy = 2 → (page s.dev (hbmPage st)).held = false → u.dev.hbm.copy = 3) ∧
         ((page s.dev (hbmPage st)).held = true → pc.val ∈ u.dev.hbm.waiting ∧ u.dev.hbm.copy = s.dev.hbm.copy))) ∧
     (∀ ok, c.state ≠ 2 ∨ pc.val ∈ s.dev.hbm.waiting → Machine.exec (.hbmRestoreDone pc ok) s = .next s) ∧
     (c.state = 2 → pc.val ∉ s.dev.hbm.waiting →
       (∃ u, Machine.exec (.hbmRestoreDone pc true) s = .next u ∧ OnlyDev s u ∧ (chan u.dev k).state = 0 ∧ (chan u.dev k).count = 0 ∧
         u.dev.hbm.spareOf ≠ some pc.val ∧ (s.dev.hbm.spareOf ≠ some pc.val → pc.val ∉ u.dev.hbm.lost) ∧
         ctr u.dev (Rg.RAS_RESTORED 3) = ctr s.dev (Rg.RAS_RESTORED 3) + 1) ∧
       (∃ u, Machine.exec (.hbmRestoreDone pc false) s = .next u ∧ OnlyDev s u ∧ (chan u.dev k).state = 3 ∧
         (s.dev.hbm.spareOf = some pc.val → s.dev.hbm.copy = 3 → u.dev.hbm.copy = 2))))

/-! ## Arbitration and locks -/

/-- R242, R349 to R353, R368, R370. A requester that finds a slot is granted it and its losses end; one that finds none loses, and each loss doubles its
back-off up to 1024 cycles; an early request is ignored; of two that want one slot the one nearer behind the pointer wins; a throttled request
is lost and a RETIRED requester backs off longest; at a table update port the source with the earlier place wins, and an aging sweep the slot
that the port reserves it; a release frees one slot; the watchdog ends a tenancy at the limit that stood when it began and records it, in the
unit too where the requester is one; a RETIRED requester is restored to SHADOW; the counters of a requester are shown and its longest wait is cleared. -/
def Obligations.SteepGrantsInRotation : Prop :=
  (∀ (s : State) (res r : Nat), slotsOf res ≠ 0 → isRequester r = true →
    let now := cycleOf s.dev res
    let mine : Tenant := ⟨r, now + 1, rd s.dev (Rg.ARB_RES res)⟩
    let x := requester s.dev r
    let y := resource s.dev res
    let hbm := 80 ≤ res ∧ res < 92
    let th := tget zeroN s.dev.hbm.throttle (1024 * ((res - 80) / 3) + r)
    let lost (u : State) (k : Nat) : Prop := OnlyDev s u ∧ resource u.dev res = { y with cycle := now + 1 } ∧ (requester u.dev r).loss = k ∧
      (requester u.dev r).next = now + 2 ^ k ∧ (requester u.dev r).waits = x.waits + 1
    (now < x.next → ∃ u, Machine.exec (.arbRequest res [r] []) s = .next u ∧ OnlyDev s u ∧ resource u.dev res = { y with cycle := now + 1 } ∧
      requester u.dev r = x) ∧
    (x.next ≤ now → (chan s.dev (reqChan r)).state = 3 → ∃ u, Machine.exec (.arbRequest res [r] []) s = .next u ∧ lost u 10) ∧
    (x.next ≤ now → (chan s.dev (reqChan r)).state ≠ 3 → hbm → th ≠ 0 → ∃ u, Machine.exec (.arbRequest res [r] []) s = .next u ∧
      lost u (min 10 (x.loss + 1)) ∧ tget zeroN u.dev.hbm.throttle (1024 * ((res - 80) / 3) + r) = th - 1 ∧
      ctr u.dev (Rg.HBM_THROTTLED ((res - 80) / 3)) = ctr s.dev (Rg.HBM_THROTTLED ((res - 80) / 3)) + 1) ∧
    (x.next ≤ now → (chan s.dev (reqChan r)).state ≠ 3 → (¬hbm ∨ th = 0) →
      (y.tenants.length < slotsOf res → ∃ u, Machine.exec (.arbRequest res [r] []) s = .next u ∧ OnlyDev s u ∧
        resource u.dev res = { pointer := r, tenants := y.tenants ++ [mine], cycle := now + 1 } ∧ (requester u.dev r).loss = 0 ∧
        (requester u.dev r).next = 0 ∧ (requester u.dev r).grants = x.grants + 1) ∧
      (slotsOf res ≤ y.tenants.length → ∃ u, Machine.exec (.arbRequest res [r] []) s = .next u ∧ lost u (min 10 (x.loss + 1)))) ∧
    (∃ u, Machine.exec (.arbRequest res [] [r]) s = .next u ∧ OnlyDev s u ∧ (resource u.dev res).tenants = y.tenants.eraseP (fun t => t.req == r)) ∧
    (∀ r', r' ≠ r → isRequester r' = true → ¬hbm → (requester s.dev r).next ≤ now → (requester s.dev r').next ≤ now →
      (chan s.dev (reqChan r)).state ≠ 3 → (chan s.dev (reqChan r')).state ≠ 3 → y.tenants.length + 1 = slotsOf res → y.pointer < 1024 →
      let place (q : Nat) : Nat := sourceRank res q
      (place r = place r' ∧ (r + 1024 - y.pointer + 1023) % 1024 < (r' + 1024 - y.pointer + 1023) % 1024) ∨
        (place r' ≠ 3 ∧ (place r < place r' ∨ place r = 3)) →
      ∃ u, Machine.exec (.arbRequest res [r', r] []) s = .next u ∧ OnlyDev s u ∧
        resource u.dev res = { pointer := r, tenants := y.tenants ++ [mine], cycle := now + 1 } ∧
        (requester u.dev r').loss = min 10 ((requester s.dev r').loss + 1))) ∧
  (∀ (s : State) (res r : Nat), slotsOf res = 0 → Machine.exec (.arbRequest res [r] []) s = .next s) ∧
  (∀ (s : State) (res r from_ : Nat) (then_ : W32), Calm s.dev → isRequester r = true → r < 912 → slotsOf res ≠ 0 →
    let y := resource s.dev res
    let cfg := then_.toNat
    let on := rb s.dev Rg.ARB_CTRL Fl.ARB_CTRL_WD_EN = true ∧ cfg.testBit 16 = true
    y.tenants = [⟨r, from_, then_⟩] →
    let bitten (d : Dev) : Prop := (resource d res).tenants = [] ∧ (864 ≤ r → (requester d r).failures = (requester s.dev r).failures + 1) ∧ rd d Rg.ARB_WD_LAST = BitVec.ofNat 32 (r + res * 2 ^ 16) ∧
      rd64 d Rg.ARB_WD_TIME_LO Rg.ARB_WD_TIME_HI = nowNs s.dev % 2 ^ 64 ∧ ctr d (Rg.ARB_BITES res) = ctr s.dev (Rg.ARB_BITES res) + 1
    (on → cfg % 65536 + from_ ≤ 4 * s.dev.mc → rb s.dev Rg.ARB_CTRL Fl.ARB_CTRL_FAULT_EN = false →
      ∃ u, Machine.exec (.wdBite res r) s = .next u ∧ OnlyDev s u ∧ bitten u.dev ∧ (page u.dev (Rg.pageOf Rg.baseARB)).intStatus.getLsbD 0 = true) ∧
    (on → cfg % 65536 + from_ ≤ 4 * s.dev.mc → rb s.dev Rg.ARB_CTRL Fl.ARB_CTRL_FAULT_EN = true →
      ∃ d, Machine.exec (.wdBite res r) s = .next { s with dev := settle d } ∧ bitten d ∧ d.ras.todo = [(reqChan r, false)]) ∧
    (¬on ∨ 4 * s.dev.mc < cfg % 65536 + from_ → Machine.exec (.wdBite res r) s = .next s)) ∧
  (∀ (s : State) (m : Master), Admits s.dev (Rg.pageOf Rg.ARB_REQ_STATE) m →
    let r := rf s.dev Rg.ARB_REQ_SEL Fl.ARB_REQ_SEL_REQUESTER
    ((chan s.dev (reqChan r)).state ≠ 3 → Machine.exec (.requesterRestore m) s = .next s) ∧
    ((chan s.dev (reqChan r)).state = 3 → ∃ u, Machine.exec (.requesterRestore m) s = .next u ∧ OnlyDev s u ∧
      (chan u.dev (reqChan r)).state = 2 ∧ (chan u.dev (reqChan r)).start = nowNs s.dev) ∧
    (∃ u, Machine.exec (.clearMax m) s = .next u ∧ OnlyDev s u ∧ requester u.dev r = { requester s.dev r with maxWait := 0 } ∧
      ∀ q, q ≠ r → requester u.dev q = requester s.dev q)) ∧
  (∀ (s : State) (m : Master) (v : W32), Admits s.dev (Rg.pageOf Rg.ARB_REQ_SEL) m →
    let r := v.toNat % 1024
    (isRequester r = true → ∃ u, Machine.exec (.arbReqSel m v) s = .next u ∧ OnlyDev s u ∧ rf u.dev Rg.ARB_REQ_SEL Fl.ARB_REQ_SEL_REQUESTER = r ∧
      ctr u.dev Rg.ARB_REQ_GRANTS = BitVec.ofNat 64 (requester s.dev r).grants ∧ ctr u.dev Rg.ARB_REQ_WAITS = BitVec.ofNat 64 (requester s.dev r).waits ∧
      rd u.dev Rg.ARB_REQ_MAXWAIT = BitVec.ofNat 32 (requester s.dev r).maxWait) ∧
    (isRequester r = false → ∃ u, Machine.exec (.arbReqSel m v) s = .next u ∧
      PageTo s u (Rg.pageOf Rg.ARB_REQ_SEL) (withErr (Rg.ARB_REQ_SEL % 0x1000) 3 true m)))

/-- R220, R233, R355 to R358, R361, R363, R364, R371. A request finds a lock free and takes it, takes over the orphaned hold of its own flight, is a
further lane of the LOCK that took it, or waits. A lock that has passed to a waiter is granted with its word's value, or to its host; a release passes the lock to
its waiter or frees it, of a free lock counts in UNLK_NONE, and arrives after the thread's earlier ones; a hold at the age limit is counted once and kept; a host slot takes a free
lock at once, waits for a held one and times out with the holder; it releases, cancels and changes its address; the peek window shows
the holder. -/
def Obligations.LocksPassToTheirWaiters : Prop :=
  ∀ (s : State) (addr : Nat),
    let a := addr / 8 * 8
    let word (h : Host2) (i : Fin 64) : Nat := (lkSlot s.dev h i).lo.toNat + (lkSlot s.dev h i).hi.toNat % 256 * 2 ^ 32
    let size (h : Host2) (i : Fin 64) : Nat := if (lkSlot s.dev h i).hi.getLsbD 8 then 8 else 4
    let me (h : Host2) (i : Fin 64) : Nat := (1 + h.val) * 2 ^ 29 + i.val * 2 ^ 11
    (∀ (m : Memory) (w : LockWait) (e : LockEnt), w.host = none → w.stage = 0 → lockEnt s.dev w.addr = some e →
      let u := requestLock m s.dev w
      let heir := e.orphan = true ∧ e.heir.isSome = true ∧ e.heir = w.flight
      let further := e.order = w.order ∧ e.holder = w.holder
      let held (k : LockEnt → Nat) : Option Nat := (lockEnt u w.addr).map k
      (heir → held (·.holder) = some w.holder ∧ held (·.order) = some w.order ∧ held (·.start) = some (nowNs s.dev) ∧
        ctr u Rg.LKU_TAKEOVER = ctr s.dev Rg.LKU_TAKEOVER + 1) ∧
      (¬heir → further → w ∉ u.lku.waiters ∧ u.lku.table = s.dev.lku.table) ∧
      (¬heir → ¬further → u.lku.waiters = s.dev.lku.waiters ++ [w] ∧ held (·.holder) = some e.holder ∧
        ctr u Rg.LKU_CONTENDED = ctr s.dev Rg.LKU_CONTENDED + 1)) ∧
    (s.dev.lku.waiters.filter (fun w => w.stage == 2 && w.addr == a) = [] → Calm s.dev → Machine.exec (.lockGrant addr) s = .next s) ∧
    (∀ w, s.dev.lku.waiters.filter (fun w => w.stage == 2 && w.addr == a) = [w] →
      (w.host = none → w.slot < 4 → ∃ d, Machine.exec (.lockGrant addr) s = .next { s with dev := settle d } ∧ w ∉ d.lku.waiters ∧
        d.inf.results = s.dev.inf.results ++
          [⟨7, false, w.cid, w.t, w.home, w.slot, w.lane, BitVec.ofNat 64 (s.mem.be w.word w.size),
            (memRead s.dev 4 (reqOf w.cid w.t) w.word w.size).1, w.flight⟩]) ∧
      (∀ (h : Host2) (i : Fin 64), w.host = some (64 * h.val + i.val) → ∃ d, Machine.exec (.lockGrant addr) s = .next { s with dev := settle d } ∧
        w ∉ d.lku.waiters ∧
        ((lkSlot s.dev h i).stall.isSome = true → .lockReply h i (BitVec.ofNat 32 (2 ^ 31 + me h i)) ∈ d.out ∧ (lkSlot d h i).stall = none) ∧
        ((lkSlot s.dev h i).stall = none → (lkSlot d h i).kept = some (BitVec.ofNat 32 (2 ^ 31 + me h i))))) ∧
    (s.dev.inf.posts.find? (fun p => p.eff = .unlock a) = none → Machine.exec (.lockRelease addr) s = .next s) ∧
    (∀ p, s.dev.inf.posts.find? (fun p => p.eff = .unlock a) = some p →
      s.dev.inf.posts.find? (fun q => q.cid == p.cid && q.t == p.t && q.helper == p.helper) ≠ some p → Machine.exec (.lockRelease addr) s = .next s) ∧
    (∀ p, s.dev.inf.posts.find? (fun p => p.eff = .unlock a) = some p →
      s.dev.inf.posts.find? (fun q => q.cid == p.cid && q.t == p.t && q.helper == p.helper) = some p →
      let gone (u : State) : Prop := OnlyDev s u ∧ u.dev.inf.posts = s.dev.inf.posts.erase p
      (lockEnt s.dev a = none → ∃ u, Machine.exec (.lockRelease addr) s = .next u ∧ gone u ∧ u.dev.lku = s.dev.lku ∧
        ctr u.dev Rg.LKU_UNLK_NONE = ctr s.dev Rg.LKU_UNLK_NONE + 1) ∧
      ((lockEnt s.dev a).isSome = true → s.dev.lku.waiters = [] →
        ∃ u, Machine.exec (.lockRelease addr) s = .next u ∧ gone u ∧ lockEnt u.dev a = none ∧ ∀ b, b ≠ a → ((lockEnt u.dev b).map (·.holder)) = ((lockEnt s.dev b).map (·.holder))) ∧
      (∀ w, (lockEnt s.dev a).isSome = true → s.dev.lku.waiters = [w] → w.stage = 0 → w.addr = a →
        ∃ u, Machine.exec (.lockRelease addr) s = .next u ∧ gone u ∧ (lockEnt u.dev a).map (·.holder) = some (waiterHolder w) ∧
          (lockEnt u.dev a).map (·.start) = some (nowNs s.dev) ∧ u.dev.lku.waiters = [{ w with stage := 2 }] ∧
          ctr u.dev Rg.LKU_GRANTS = ctr s.dev Rg.LKU_GRANTS + 1)) ∧
    (let lim := rf s.dev Rg.LKU_AGE_LIMIT Fl.LKU_AGE_LIMIT_AGE_US
     (∀ e, lockEnt s.dev a = some e → lim ≠ 0 → e.aged = false → e.start + lim * 1000 ≤ nowNs s.dev →
       ∃ u, Machine.exec (.longHold addr) s = .next u ∧ OnlyDev s u ∧ lockEnt u.dev a = some { e with aged := true } ∧
         ctr u.dev Rg.LKU_LONG_HOLD = ctr s.dev Rg.LKU_LONG_HOLD + 1 ∧ (page u.dev (Rg.pageOf Rg.baseLKU)).intStatus.getLsbD 2 = true) ∧
     (lockEnt s.dev a = none ∨ lim = 0 ∨ (∃ e, lockEnt s.dev a = some e ∧ (e.aged = true ∨ nowNs s.dev < e.start + lim * 1000)) →
       Machine.exec (.longHold addr) s = .next s)) ∧
    (∀ (h : Host2) (i : Fin 64),
      let x := lkSlot s.dev h i
      let b := word h i / 8 * 8
      let waits := s.dev.lku.waiters.find? (fun w => w.host == some (64 * h.val + i.val))
      (∀ v, x.kept = some v → ∃ d, Machine.exec (.lkAcquire h i) s = .next { s with dev := settle d } ∧ .lockReply h i v ∈ d.out ∧ (lkSlot d h i).kept = none) ∧
      (x.kept = none → waits = none → mapped s.dev (word h i) (size h i) = false → ∃ d, Machine.exec (.lkAcquire h i) s = .next { s with dev := settle d } ∧
        .lockReply h i 0xFFFFFFFF ∈ d.out ∧ d.lku = s.dev.lku) ∧
      (x.kept = none → waits = none → mapped s.dev (word h i) (size h i) = true → lockEnt s.dev b = none → s.dev.lku.table.length < 4096 →
        ∃ d, Machine.exec (.lkAcquire h i) s = .next { s with dev := settle d } ∧ .lockReply h i (BitVec.ofNat 32 (2 ^ 31 + me h i)) ∈ d.out ∧
          (lockEnt d b).map (·.holder) = some (me h i) ∧ ctr d Rg.LKU_GRANTS = ctr s.dev Rg.LKU_GRANTS + 1) ∧
      (x.kept = none → waits = none → mapped s.dev (word h i) (size h i) = true → (lockEnt s.dev b).isSome = true →
        ∃ d w, Machine.exec (.lkAcquire h i) s = .next { s with dev := settle d } ∧ d.lku.waiters = s.dev.lku.waiters ++ [w] ∧ w.addr = b ∧
          w.host = some (64 * h.val + i.val) ∧ (lkSlot d h i).stall = some (nowNs s.dev) ∧ (lockEnt d b).map (·.holder) = (lockEnt s.dev b).map (·.holder)) ∧
      (x.stall = none → Machine.exec (.lkAcquireTimeout h i) s = .next s) ∧
      (∀ t, x.stall = some t → let lim := rf s.dev Rg.LK_HOST_LIMIT Fl.LK_HOST_LIMIT_LIMIT_US * 1000
        (nowNs s.dev - t < lim → Machine.exec (.lkAcquireTimeout h i) s = .next s) ∧
        (∀ e, lim ≤ nowNs s.dev - t → lockEnt s.dev b = some e → (∀ w, waits = some w → w.stage ≠ 1) →
          ∃ u, Machine.exec (.lkAcquireTimeout h i) s = .next u ∧ OnlyDev s u ∧ .lockReply h i (BitVec.ofNat 32 e.holder) ∈ u.dev.out ∧
            (lkSlot u.dev h i).stall = none ∧ u.dev.lku.waiters = s.dev.lku.waiters ∧ ctr u.dev Rg.LKU_HOST_TIMEOUT = ctr s.dev Rg.LKU_HOST_TIMEOUT + 1)) ∧
      (mapped s.dev (word h i) (size h i) = false → Machine.exec (.lkRelease h i) s = .next s) ∧
      (mapped s.dev (word h i) (size h i) = true → lockEnt s.dev b = none → ∃ u, Machine.exec (.lkRelease h i) s = .next u ∧ OnlyDev s u ∧
        ctr u.dev Rg.LKU_UNLK_NONE = ctr s.dev Rg.LKU_UNLK_NONE + 1 ∧ u.dev.lku = s.dev.lku) ∧
      (mapped s.dev (word h i) (size h i) = true → (lockEnt s.dev b).isSome = true → s.dev.lku.waiters = [] →
        ∃ u, Machine.exec (.lkRelease h i) s = .next u ∧ OnlyDev s u ∧ lockEnt u.dev b = none) ∧
      (waits = none → Machine.exec (.lkCancel h i) s = .next s) ∧
      (∀ w, waits = some w → w.stage ≠ 2 → ∃ u, Machine.exec (.lkCancel h i) s = .next u ∧ OnlyDev s u ∧ u.dev.lku.table = s.dev.lku.table ∧
        u.dev.lku.waiters = s.dev.lku.waiters.filter (fun x => x.host != some (64 * h.val + i.val))) ∧
      (∀ (hi : Bool) (v : W32), (∀ w, waits = some w → w.stage ≠ 2) →
        ∃ u, Machine.exec (.lkAddrWrite h i hi v) s = .next u ∧ OnlyDev s u ∧ u.dev.lku.table = s.dev.lku.table ∧
          lkSlot u.dev h i = (if hi then { x with hi := v &&& 0x1FF } else { x with lo := v }) ∧
          ∀ w ∈ u.dev.lku.waiters, w.host ≠ some (64 * h.val + i.val))) ∧
    (∀ (m : Master) (v : W32), Admits s.dev (Rg.pageOf Rg.LKU_PEEK_ADDR_LO) m →
      let p := (v.toNat + (rd s.dev Rg.LKU_PEEK_ADDR_HI).toNat % 256 * 2 ^ 32) / 8 * 8
      ∃ u, Machine.exec (.lkuPeek m false v) s = .next u ∧ OnlyDev s u ∧ rd u.dev Rg.LKU_PEEK_ADDR_LO = v ∧ u.dev.lku = s.dev.lku ∧
        rd u.dev Rg.LKU_PEEK_HOLDER = (match lockEnt s.dev p with | some e => BitVec.ofNat 32 (e.holder + 2 ^ 31) | none => 0))

/-! ## Faults, stored-data protection, restoration -/

/-- Channel `k` can be entered in the registry: it is there, or an entry is free. -/
def Sys2Proof.Terms.Registered (d : Dev) (k : Nat) : Prop := (entryOf d k).isSome = true ∨ (freeEntry d).isSome = true
/-- R329, R373, R375 to R378, R381 to R391, R400, R539. A first transient fault makes a GOOD channel SUSPECT and opens its window; the N-th in the window, or a
hard one, retires it; a window that ends without that makes it GOOD, and a laser input's count 0. Every command that can find a fault judges it
before it ends. A parity error is counted and stops the module when the repeat fails
and no channel takes it. Scrub corrects a word and notes the fault of its row, and has a poisoned replica fetched; a full merge entry is written; a row copy ends; the retirement map takes the changes that
wait; the test window writes and reads a word, raw or checked; a RETIRED channel is restored to SHADOW and leaves it with its test. -/
def Obligations.FaultsAreJudgedAndUnitsReturn : Prop :=
  ∀ (s : State), Calm s.dev →
    let quiet (c : Instr) : Prop := Machine.exec c s = .next s
    (∀ d : Dev, Calm (settle d)) ∧
    (∀ (k : W64) (hard : Bool), validChan k.toNat = false → (∀ b, quiet (.fault k ⟨hard, b⟩)) ∧ Machine.exec (.suspectExpiry k) s = .next s ∧
      ∀ pass, quiet (.shadowEnd k pass)) ∧
    (∀ (k : W64), let n := k.toNat
      let c := chan s.dev n
      let ty := chTy n
      let win := rf s.dev (Rg.RAS_RULE ty) Fl.RAS_RULE_WINDOW_MS * 1000000
      let lim := rf s.dev (Rg.RAS_RULE ty) Fl.RAS_RULE_N
      validChan n = true → ty ≠ 3 → Registered s.dev n →
      (c.state = 0 → c.count = 0 → 2 ≤ lim → ∃ u, Machine.exec (.fault k ⟨false, none⟩) s = .next u ∧ OnlyDev s u ∧
        chan u.dev n = { c with state := 1, count := 1, start := nowNs s.dev, total := c.total + 1 } ∧
        ctr u.dev (Rg.RAS_FAULTS ty) = ctr s.dev (Rg.RAS_FAULTS ty) + 1 ∧ (page u.dev (Rg.pageOf Rg.baseRAS)).intStatus.getLsbD 0 = true) ∧
      (c.state ≤ 1 → ty = 5 → c.count ≠ 0 → nowNs s.dev < c.start + win → ∀ hard, (hard = true ∨ lim ≤ c.count + 1) →
        ∃ u, Machine.exec (.fault k ⟨hard, none⟩) s = .next u ∧ OnlyDev s u ∧
          chan u.dev n = { c with state := 3, count := c.count + 1, total := c.total + 1, hard := hard } ∧
          ctr u.dev (Rg.RAS_RETIRED ty) = ctr s.dev (Rg.RAS_RETIRED ty) + 1 ∧ (page u.dev (Rg.pageOf Rg.baseRAS)).intStatus.getLsbD 1 = true) ∧
      (c.state = 3 → ∀ hard, ∃ u, Machine.exec (.fault k ⟨hard, none⟩) s = .next u ∧ OnlyDev s u ∧ chan u.dev n = { c with total := c.total + 1 }) ∧
      (c.state = 1 → c.start + win ≤ nowNs s.dev → ty ≠ 5 → ∃ u, Machine.exec (.suspectExpiry k) s = .next u ∧ OnlyDev s u ∧
        chan u.dev n = { c with state := 0, count := 0 }) ∧
      (c.state = 1 ∨ (c.state = 0 ∧ c.count ≠ 0) → c.start + win ≤ nowNs s.dev → ty = 5 →
        ∃ u, Machine.exec (.suspectExpiry k) s = .next u ∧ OnlyDev s u ∧ chan u.dev n = { c with count := 0 }) ∧
      ((c.state ≠ 1 ∧ (ty ≠ 5 ∨ c.state ≠ 0 ∨ c.count = 0)) ∨ nowNs s.dev < c.start + win → Machine.exec (.suspectExpiry k) s = .next s) ∧
      (∀ bad, ∃ d, Machine.exec (.parityError k bad) s = .next { s with dev := settle d } ∧ d.ras.todo = [(n, bad)] ∧
        ctr d Rg.RAS_PARITY_RETRY = ctr s.dev Rg.RAS_PARITY_RETRY + 1) ∧
      (c.state ≠ 2 → ∀ pass, quiet (.shadowEnd k pass)) ∧
      (c.state = 2 → ty = 8 → c.start + 1000000000 ≤ nowNs s.dev → ∃ u, Machine.exec (.shadowEnd k true) s = .next u ∧ OnlyDev s u ∧
        (chan u.dev n).state = 0 ∧ (chan u.dev n).count = 0 ∧ ctr u.dev (Rg.RAS_RESTORED 8) = ctr s.dev (Rg.RAS_RESTORED 8) + 1) ∧
      (c.state = 2 → ty = 8 → nowNs s.dev < c.start + 1000000000 → quiet (.shadowEnd k true)) ∧
      (c.state = 2 → ty = 8 → ∃ u, Machine.exec (.shadowEnd k false) s = .next u ∧ OnlyDev s u ∧ (chan u.dev n).state = 3)) ∧
    (∀ (k : W64) (hard : Bool) (b : BurstErr), let a := 32 * b.burst
      (isHbm s.dev a = false ∨ hbmLost s.dev a = true ∨ burstChan s.dev b ≠ k.toNat → quiet (.fault k ⟨hard, (some b)⟩)) ∧
      (validChan k.toNat = true → isHbm s.dev a = true → hbmLost s.dev a = false → burstChan s.dev b = k.toNat →
        let pc := (servedAt s.dev (hbmPc a) (hbmBlock a)).1
        ∃ d, Machine.exec (.fault k ⟨hard, (some b)⟩) s = .next { s with dev := settle d } ∧ d.ras.todo = [(k.toNat, false)] ∧
          (b.synd = none → b.burst ∈ d.hbm.poison ∧ ctr d (Rg.HBM_UNCORR (pc / 32)) = ctr s.dev (Rg.HBM_UNCORR (pc / 32)) + 1 ∧
            (page d (hbmPage (pc / 32))).intStatus.getLsbD 0 = true) ∧
          (∀ y, b.synd = some y → d.hbm = s.dev.hbm ∧ ctr d (Rg.HBM_CORRECTED (pc / 32)) = ctr s.dev (Rg.HBM_CORRECTED (pc / 32)) + 1 ∧
            ∃ l ∈ tget logDflt d.ras.logs (pcLog pc), l.word = b.burst ∧ l.synd = y))) ∧
    (∀ (k : W64) (bad : Bool), validChan k.toNat = false → ∃ u, Machine.exec (.parityError k bad) s = .next u ∧ OnlyDev s u ∧
      ctr u.dev Rg.RAS_PARITY_RETRY = ctr s.dev Rg.RAS_PARITY_RETRY + 1 ∧ (bad = true → u.dev.life.stopped = true) ∧
      (bad = false → u.dev.life.stopped = s.dev.life.stopped)) ∧
    (∀ (pl : Place) (n w : Nat), let x := sword s.dev pl n w
      (sramRows pl n * 128 ≤ w → quiet (.sramScrub pl n w)) ∧
      (rowWithdrawn s.dev pl n (w / 128) = true → (checkWord s.dev pl n w).2.1 = true ∧ (checkWord s.dev pl n w).2.2.ras.todo = [(rowChan pl n w, false)]) ∧
      (w < sramRows pl n * 128 → x.valid = true → x.poison = false → rowWithdrawn s.dev pl n (w / 128) = false → (∀ e ∈ merges s.dev pl n, e.word ≠ w) →
        (x.chk = 0 → ∃ u, Machine.exec (.sramScrub pl n w) s = .next u ∧ OnlyDev s u ∧ sword u.dev pl n w = x ∧
          tget zeroN u.dev.ras.scrub (pl.val * 65536 + n) = w + 1) ∧
        (∀ m, x.chk ≠ 0 → Config.eccFix x.chk = some m → x.inj = false → ∃ d, Machine.exec (.sramScrub pl n w) s = .next { s with dev := settle d } ∧
          sword d pl n w = { valid := true, data := x.data ^^^ m.setWidth 64 } ∧ d.ras.todo = [(rowChan pl n w, false)])) ∧
      (∀ t r pos, w < sramRows pl n * 128 → pl.val ≠ 0 → n / 2048 ≠ 4 → x.valid = true → x.poison = true → rowWithdrawn s.dev pl n (w / 128) = false → (t, r, pos) ∈ entsAt s.dev pl n w →
        (descAt s.dev pl t).repl = true →
        ∃ d, Machine.exec (.sramScrub pl n w) s = .next { s with dev := settle d } ∧ (pl.val - 1, t, r, pos) ∈ d.tbl.fetch)) ∧
    (∀ (pl : Place) (n : Nat), (merges s.dev pl n = [] → quiet (.mergeTimeout pl n)) ∧
      ∀ e l, merges s.dev pl n = e :: l → let core := if pl.val = 0 then n / 2048 = 0 else n / 2048 ≤ 4
        (s.dev.mc - e.at_ < (if core then 2 else 4) → quiet (.mergeTimeout pl n)) ∧
        ((if core then 2 else 4) ≤ s.dev.mc - e.at_ → e.mask = 255 → ∃ u, Machine.exec (.mergeTimeout pl n) s = .next u ∧ OnlyDev s u ∧
          sword u.dev pl n e.word = { valid := true, data := BitVec.ofNat 64 e.val } ∧
          merges u.dev pl n = (merges s.dev pl n).filter (fun y => y.word != e.word))) ∧
    (∀ k : W64, ∃ u, Machine.exec (.rowCopyDone k) s = .next u ∧ u = { s with dev := { s.dev with ras := u.dev.ras } } ∧
      u.dev.ras.copies = s.dev.ras.copies.filter (fun x => x != k.toNat)) ∧
    (∃ u, Machine.exec .retirementJournal s = .next u ∧ u = { s with dev := { s.dev with ras := u.dev.ras } } ∧ u.dev.ras.journal = [] ∧
      ∀ k, tget zeroN u.dev.ras.map k =
        if k ∈ s.dev.ras.journal then
          (if (chan s.dev k).state = (chanDflt k).state ∧ (chan s.dev k).spareIn = false then 0 else 1 + 2 * (chan s.dev k).state + one (chan s.dev k).spareIn)
        else tget zeroN s.dev.ras.map k) ∧
    (∀ (pl : Place) (m : Master), Admits s.dev (Rg.pageOf (pwReg pl Rg.PW_TEST_CTRL Rg.ZPW_TEST_CTRL)) m →
      let n := pwInst s.dev pl
      let w := pwWord s.dev pl
      let lo := pwReg pl Rg.PW_TEST_DATA_LO Rg.ZPW_TEST_DATA_LO
      let hi := pwReg pl Rg.PW_TEST_DATA_HI Rg.ZPW_TEST_DATA_HI
      let chk := pwReg pl Rg.PW_TEST_CHECK Rg.ZPW_TEST_CHECK
      let v := BitVec.ofNat 64 (rd64 s.dev lo hi)
      let c := BitVec.ofNat 8 (rd s.dev chk).toNat
      let x := sword s.dev pl n w
      (sramRows pl n * 128 ≤ w → Machine.exec (.pwTestWrite pl m) s = .next s ∧ quiet (.pwTestRead pl m)) ∧
      (w < sramRows pl n * 128 → heldWord s.mem s.dev pl n w = none →
        (pwBypass s.dev pl = false → ∃ u, Machine.exec (.pwTestWrite pl m) s = .next u ∧ OnlyDev s u ∧ sword u.dev pl n w = { valid := true, data := v }) ∧
        (pwBypass s.dev pl = true → ∃ u, Machine.exec (.pwTestWrite pl m) s = .next u ∧ OnlyDev s u ∧
          sword u.dev pl n w = { valid := true, data := v, chk := c ^^^ Config.eccGen v, inj := decide (c ≠ Config.eccGen v) }) ∧
        (pwBypass s.dev pl = true → x.valid = true → x.poison = false → ∃ u, Machine.exec (.pwTestRead pl m) s = .next u ∧ OnlyDev s u ∧
          rd64 u.dev lo hi = x.data.toNat ∧ rd u.dev chk = BitVec.ofNat 32 ((x.chk ^^^ Config.eccGen x.data).toNat + 256))) ∧
      (w < sramRows pl n * 128 → pl.val = 0 → n / 2048 = 1 →
        let a := sramBase + n % 2048 * 2 ^ 20 + 8 * w
        let e := c ^^^ Config.eccGen v
        ∃ u, Machine.exec (.pwTestWrite pl m) s = .next u ∧ u.pending = s.pending ∧
          (pwBypass s.dev pl = false ∨ e = 0 ∨ Config.eccFix e = none → u.mem.be a 8 = v.toNat) ∧
          (∀ k, pwBypass s.dev pl = true → e ≠ 0 → Config.eccFix e = some k → u.mem.be a 8 = (v ^^^ k.setWidth 64).toNat) ∧
          ∀ b, ¬(a ≤ b ∧ b < a + 8) → u.mem.read b = s.mem.read b)) ∧
    (∀ m : Master, Admits s.dev (Rg.pageOf Rg.RAS_REG_STATE) m →
      let e := tget zeroN s.dev.ras.registry (rf s.dev Rg.RAS_REG_SEL Fl.RAS_REG_SEL_INDEX)
      (e = 0 ∨ (chan s.dev (e - 1)).state ≠ 3 → Machine.exec (.restore m) s = .next s) ∧
      (e ≠ 0 → (chan s.dev (e - 1)).state = 3 → chTy (e - 1) ≠ 4 → ∃ u, Machine.exec (.restore m) s = .next u ∧ OnlyDev s u ∧
        chan u.dev (e - 1) = { chan s.dev (e - 1) with state := 2, start := nowNs s.dev })) ∧
    (∀ z : Zone, let b := barz s.dev z
      let k := coreChan (32 * z.val + b.shadowCore)
      let copies := (zoneFlights s.dev z).any (fun f => f.copyOf.isSome)
      (b.run = false ∨ b.remain ≠ 0 ∨ copies = true ∨ (chan s.dev k).state ≠ 2 → Machine.exec (.shadowRunEnd z) s = .next s) ∧
      (b.run = true → b.remain = 0 → copies = false → (chan s.dev k).state = 2 →
        let min := rf s.dev (Rg.ZRAS_SHADOW_CFG z) Fl.ZRAS_SHADOW_CFG_MIN_JUDGED
        (b.judged < min → ∃ u, Machine.exec (.shadowRunEnd z) s = .next u ∧ OnlyDev s u ∧
          barz u.dev z = { b with remain := 4096, judged := 0, unjudged := 0 }) ∧
        (min ≤ b.judged → b.shadowCore < 26 → ∃ u, Machine.exec (.shadowRunEnd z) s = .next u ∧ OnlyDev s u ∧
          (chan u.dev k).state = (if (serviceCores s.dev z).length < 24 then 0 else 4) ∧ (barz u.dev z).run = false ∧ (barz u.dev z).passed = true)))

/-! ## Host ports -/

/-- R403: a doorbell of ring `r` of kind `k`: partial writes and an index that overfills the ring set their HIF_ERR bits, a plain index is kept. -/
def Sys2Proof.Terms.Doorbell (s : State) (h : Host2) (k r : Nat) (mk : Nat → W32 → Instr) : Prop :=
  let c := ringConsumed s.dev h k r
  let err (u : State) (b : Nat) : Prop := OnlyDev s u ∧ (rd u.dev (Rg.HIF_ERR h)).getLsbD b = true ∧ ringDoorbell u.dev h k r = ringDoorbell s.dev h k r ∧
    (page u.dev (hifPage h)).intStatus.getLsbD 2 = true
  ∀ v : W32, let n := if k = 3 then (c + 65536 - v.toNat) % 65536 else (v.toNat + 65536 - c) % 65536
    (∀ m, m ≠ 4 → ∃ u, Machine.exec (mk m v) s = .next u ∧ err u 1) ∧
    (65536 ≤ v.toNat → Machine.exec (mk 4 v) s = .next s) ∧
    (v.toNat < 65536 → ringSize s.dev h k r < n → ∃ u, Machine.exec (mk 4 v) s = .next u ∧ err u 2) ∧
    (v.toNat < 65536 → n ≤ ringSize s.dev h k r → ∃ u, Machine.exec (mk 4 v) s = .next u ∧ OnlyDev s u ∧ ringDoorbell u.dev h k r = v.toNat ∧
      ringConsumed u.dev h k r = c)
/-- Words 3 to 7 of a punt descriptor are 0 and its length is in range (R408). -/
def Sys2Proof.Terms.PuntDesc (w : List W32) (n : Nat) : Prop :=
  dword w 2 = n ∧ 64 ≤ n ∧ n < 16384 ∧ ∀ i, i < 5 → dword w (3 + i) = 0

/-- R22, R274, R402 to R404, R408 to R410, R413, R414, R419, R420. Doorbells advance their rings or set their error bits; an access outside the listed words sets
BAR_HOLE and reads 0; a punt's bytes go to its buffer and its cells come back; an inject goes to the VOQ of its port, waits for cells, or fails with
its count and its descriptor consumed, counted too by an isolated zone that it was for; a moderation timer triggers its vector; an unmasked pending vector is sent; D3hot holds what D0 returns;
a reset takes every ring out of service; ENABLE starts a ring at index 0; a link change shows its width, speed and state, and a link
that goes down resets the function. -/
def Obligations.HostPortsCarryFramesAndInterrupts : Prop :=
  ∀ (s : State) (h : Host2), Calm s.dev →
    let quiet (c : Instr) : Prop := Machine.exec c s = .next s
    (∀ r : Fin 64, Doorbell s h 0 r (.puntDoorbell h r) ∧ Doorbell s h 1 r (.injectDoorbell h r)) ∧
    (∀ r : Fin 8, Doorbell s h 2 r (.tdmaDoorbell h r)) ∧ (∀ r : Fin 4, Doorbell s h 3 r (.eventDoorbell h r)) ∧
    (∀ off, (bar2Listed off = true → ∀ w, Machine.exec (.bar2HoleAccess h off w) s = .next s) ∧
      (bar2Listed off = false → ∀ w, ∃ u, Machine.exec (.bar2HoleAccess h off w) s = .next u ∧ OnlyDev s u ∧
        (rd u.dev (Rg.HIF_ERR h)).getLsbD 0 = true ∧ (w = false → .barReply h 0 ∈ u.dev.out))) ∧
    (∀ (r : Fin 64) (w : List W32), (puntJobs s.dev h r = [] ∨ inD3 s.dev h = true → ∀ e, quiet (.puntDone h r w e)) ∧
      ∀ j l b, puntJobs s.dev h r = j :: l → inD3 s.dev h = false → bufOf s.dev j.handle = some b → b.kind = 6 → b.index = 128 * h.val + r.val →
        isolated s.dev (hZone j.handle) = false →
        let g := frameOf s.dev j.handle
        let f := g.take (g.length - 4)
        let freed (d : Dev) : Prop := puntJobs d h r = l ∧ bufOf d j.handle = none
        (∀ n, PuntDesc w n → ∃ d, Machine.exec (.puntDone h r w false) s = .next { s with dev := settle d } ∧ freed d ∧
          .hostBytes h (dword w 0 + dword w 1 * 2 ^ 32) (f.take (min f.length n)) ∈ d.out ∧
          ctr d (Rg.PUNT_FRAMES h) = ctr s.dev (Rg.PUNT_FRAMES h) + 1 ∧
          ctr d (Rg.PUNT_BYTES h) = ctr s.dev (Rg.PUNT_BYTES h) + BitVec.ofNat 64 (min f.length n)) ∧
        (dword w 2 < 64 → ∃ d, Machine.exec (.puntDone h r w false) s = .next { s with dev := settle d } ∧ freed d ∧ ctr d (Rg.PUNT_FRAMES h) = ctr s.dev (Rg.PUNT_FRAMES h)) ∧
        (∃ d, Machine.exec (.puntDone h r w true) s = .next { s with dev := settle d } ∧ freed d ∧ (rd d (Rg.HIF_ERR h)).getLsbD 3 = true)) ∧
    (∀ (r : Fin 64) (w : List W32) (bytes : List Byte) (cells : List Nat),
      let x := injectOf w
      let takes := ringTakes s.dev h 1 r
      let z := injectZone s.dev h r x
      let n := cellsOf (x.len + 4)
      let may := mayPresent s.dev (cycleOf s.dev z) (injectReq h r) = true
      let room := poolRoom s.dev z n x.ctrl = true ∧ barred s.dev (injectReq h r) = false
      let taken (u : State) : Prop := OnlyDev s u ∧ ringConsumed u.dev h 1 r = (ringConsumed s.dev h 1 r + 1) % 65536
      let failed (u : State) : Prop := taken u ∧ u.dev.urn = s.dev.urn ∧ ctr u.dev (Rg.INJ_FAIL h) = ctr s.dev (Rg.INJ_FAIL h) + 1
      (takes = false → ∀ e, quiet (.injectDirect h r w bytes cells e) ∧ quiet (.injectPipeline h r w bytes e)) ∧
      (takes = true → (∃ u, Machine.exec (.injectDirect h r w bytes cells true) s = .next u ∧ failed u ∧ (rd u.dev (Rg.HIF_ERR h)).getLsbD 3 = true) ∧
        ∃ u, Machine.exec (.injectPipeline h r w bytes true) s = .next u ∧ failed u) ∧
      (takes = true → injectBad s.dev x w bytes = true → (x.mode ≠ 1 → ∃ u, Machine.exec (.injectDirect h r w bytes cells false) s = .next u ∧ failed u) ∧
        (x.mode = 1 → ∃ u, Machine.exec (.injectPipeline h r w bytes false) s = .next u ∧ failed u)) ∧
      (takes = true → injectBad s.dev x w bytes = false → (page s.dev (urnPage z)).ready = true → isolated s.dev z = true → x.mc = false → x.mode = 0 →
        ∃ u, Machine.exec (.injectDirect h r w bytes cells false) s = .next u ∧ failed u ∧
          ctr u.dev (Rg.XB_ISO_DROP z) = ctr s.dev (Rg.XB_ISO_DROP z) + 1) ∧
      (takes = true → injectBad s.dev x w bytes = false → (page s.dev (urnPage z)).ready = true → isolated s.dev z = false → x.mc = false →
        let v := 8 * x.dest + x.cls
        (portUsable s.dev x.dest = false → x.mode = 0 → ∃ u, Machine.exec (.injectDirect h r w bytes cells false) s = .next u ∧ failed u) ∧
        (portUsable s.dev x.dest = true → x.mode = 0 → may → ¬room →
          ∃ u, Machine.exec (.injectDirect h r w bytes cells false) s = .next u ∧ OnlyDev s u ∧ u.dev.urn = s.dev.urn ∧
            (ring u.dev h 1 r).wait.isSome = true ∧ ctr u.dev (Rg.ALLOC_EMPTY z) = ctr s.dev (Rg.ALLOC_EMPTY z) + 1) ∧
        (portUsable s.dev x.dest = true → x.mode = 0 → may → room → cells.length = n → cellsAvail s.dev z cells = true →
          (voq s.dev z v).q = [] → (voq s.dev z v).chain = [] → (voq s.dev z v).spill = false → x.ctrl = true →
          n ≤ rf s.dev (Rg.TM_VOQ_LIMIT z x.cls) Fl.TM_VOQ_LIMIT_LIMIT →
          ∃ u y b, Machine.exec (.injectDirect h r w bytes cells false) s = .next u ∧ taken u ∧ (voq u.dev z v).q = [y] ∧ y.len = x.len + 4 ∧
            y.port = x.dest ∧ y.cls = x.cls ∧ y.edit = x.edit ∧ bufOf u.dev y.handle = some b ∧ b.bytes = bytes ++ fcs bytes ∧ b.cells = cells ∧
            b.kind = 4 ∧ ctr u.dev (Rg.INJ_FRAMES h) = ctr s.dev (Rg.INJ_FRAMES h) + 1) ∧
        (portUsable s.dev x.dest = true → x.mode = 1 → let a := admitFrame s.dev x.dest (bytes ++ fcs bytes) 0
          ∃ d, Machine.exec (.injectPipeline h r w bytes false) s = .next { s with dev := settle d } ∧ d.adm = a.1.adm ∧ d.urn = a.1.urn ∧
            (a.2 = true → ctr d (Rg.INJ_FRAMES h) = ctr s.dev (Rg.INJ_FRAMES h) + 1) ∧ (a.2 = false → ctr d (Rg.INJ_FAIL h) = ctr s.dev (Rg.INJ_FAIL h) + 1))) ∧
      (∀ t, (ring s.dev h 1 r).wait = some t → takes = true → x.mode = 0 → t + 100000 ≤ nowNs s.dev → ¬room →
        ∃ u, Machine.exec (.noCells h r w) s = .next u ∧ failed u ∧ (ring u.dev h 1 r).wait = none) ∧
      ((ring s.dev h 1 r).wait = none ∨ takes = false ∨ room → Machine.exec (.noCells h r w) s = .next s)) ∧
    (∀ (kind : RingKind) (r : Nat), let k := kindNo kind
      let t := rf s.dev (ringThr h k r) Fl.PRING_THR_TIME_US
      (ringCount k ≤ r ∨ (ring s.dev h k r).timer = none ∨ t = 0 → Machine.exec (.moderationTimer h kind r) s = .next s) ∧
      (∀ t0, r < ringCount k → (ring s.dev h k r).timer = some t0 →
        (s.dev.tb < t0 + t * 1000 * 2 ^ 32 → Machine.exec (.moderationTimer h kind r) s = .next s) ∧
        (t ≠ 0 → t0 + t * 1000 * 2 ^ 32 ≤ s.dev.tb → ∃ u, Machine.exec (.moderationTimer h kind r) s = .next u ∧ OnlyDev s u ∧
          (ring u.dev h k r).timer = none ∧ rf u.dev (ringMod h k r) Fl.PRING_MOD_UNANNOUNCED = 0 ∧
          (rb s.dev (ringCtl h k r) Fl.PRING_CTL_VEC_EN = true → inD3 s.dev h = false →
            (tget zeroN s.dev.hif.open_ h).testBit (rf s.dev (ringCtl h k r) Fl.PRING_CTL_VECTOR) = true →
            .msix h (rf s.dev (ringCtl h k r) Fl.PRING_CTL_VECTOR) ∈ u.dev.out))) ∧
      (ringCount k ≤ r → ∀ m, Machine.exec (.ringEnable h kind r m) s = .next s) ∧
      (∀ m, r < ringCount k → Admits s.dev (Rg.pageOf (ringCtl h k r)) m →
        (ringEnabled s.dev h k r = true → Machine.exec (.ringEnable h kind r m) s = .next s) ∧
        (ringEnabled s.dev h k r = false → ∃ u, Machine.exec (.ringEnable h kind r m) s = .next u ∧ OnlyDev s u ∧ ringEnabled u.dev h k r = true ∧
          rd u.dev (ringIdx h k r) = 0 ∧ (ring u.dev h k r).done = 0))) ∧
    (∀ v : Fin 128, let was := (tget zeroN s.dev.hif.pend h).testBit v
      ∃ u, Machine.exec (.vectorUnmask h v) s = .next u ∧ OnlyDev s u ∧ (tget zeroN u.dev.hif.open_ h).testBit v = true ∧
        (was = false → u.dev.out = s.dev.out) ∧
        (was = true → inD3 s.dev h = false → .msix h v ∈ u.dev.out ∧ (tget zeroN u.dev.hif.pend h).testBit v = false)) ∧
    (∀ pme : Bool, ∃ u, Machine.exec (.d3hot h pme) s = .next u ∧ OnlyDev s u ∧ inD3 u.dev h = true ∧ tget (fun _ => false) u.dev.hif.pmeEn h = pme) ∧
    (inD3 s.dev h = false → Machine.exec (.d0Return h) s = .next s) ∧
    (inD3 s.dev h = true → ∃ u, Machine.exec (.d0Return h) s = .next u ∧ OnlyDev s u ∧ inD3 u.dev h = false ∧
      rb u.dev (Rg.HIF_STATUS h) Fl.HIF_STATUS_HELD_IRQ = false ∧
      ∀ k r, k < 4 → r < ringCount k → (ring u.dev h k r).held = [] ∧ ∀ w ∈ (ring s.dev h k r).held, .hostWrite h w.1 w.2 ∈ u.dev.out) ∧
    (let off (u : State) : Prop := OnlyDev s u ∧ inD3 u.dev h = false ∧ rb u.dev (Rg.HIF_STATUS h) Fl.HIF_STATUS_BME = false ∧
       tget zeroN u.dev.hif.open_ h = 0 ∧ ∀ k r, k < 4 → r < ringCount k → ringEnabled u.dev h k r = false
     (∃ u, Machine.exec (.functionReset h) s = .next u ∧ off u) ∧
     (rf s.dev (Rg.HIF_STATUS h) Fl.HIF_STATUS_WIDTH ≠ 0 → ∃ u, Machine.exec (.hostLinkChange h 0 0 0) s = .next u ∧ off u ∧
       rf u.dev (Rg.HIF_STATUS h) Fl.HIF_STATUS_WIDTH = 0)) ∧
    (∀ w sp pm, (5 ≤ w ∨ 6 ≤ sp ∨ 3 ≤ pm → quiet (.hostLinkChange h w sp pm)) ∧
      (1 ≤ w → w ≤ 4 → 1 ≤ sp → sp ≤ 5 → pm ≤ 2 → hostWidth s.dev h ≠ 0 → ∃ u, Machine.exec (.hostLinkChange h w sp pm) s = .next u ∧ OnlyDev s u ∧
        rf u.dev (Rg.HIF_STATUS h) Fl.HIF_STATUS_WIDTH = min w (hostWidth s.dev h) ∧ rf u.dev (Rg.HIF_STATUS h) Fl.HIF_STATUS_SPEED = sp ∧
        rf u.dev (Rg.HIF_STATUS h) Fl.HIF_STATUS_LINK_PM = pm))

/-! ## Event and interrupt controller -/

/-- Only the event controller changed. -/
def Sys2Proof.Terms.IcOnly (s u : State) : Prop := ∃ i, u = { s with dev := { s.dev with ic := i } }
/-- Source `n` goes to `x`; every other source, and every register, is as it was. -/
def Sys2Proof.Terms.SrcTo (s u : State) (n : Nat) (x : Src) : Prop :=
  src u.dev n = x ∧ (∀ k, k ≠ n → src u.dev k = src s.dev k) ∧ (∀ a, rd u.dev a = rd s.dev a) ∧ OnlyDev s u
/-- Source `n` takes part in no group. -/
def Sys2Proof.Terms.Ungrouped (s : State) (n : Nat) : Prop := rb s.dev (Rg.SRC_CFG n) Fl.SRC_CFG_LOW_CO_EN = false

/-- R422 to R433. An edge sets PENDING and counts; a shared CORE source keeps its core; an isolated zone keeps the edge, a stopped clock
latches one, which sets MERGED when the clock runs again; a source with CO_EN is held in its group until the group's release. A
selection takes the ready source of highest PRIO, the lowest number on a tie: a host is sent its vector once, the kernel target posts
an item, a pin goes low. A claim reads the word and takes the source; a complete ends it, and a bad one sets COMPLETE_BAD. -/
def Obligations.EventSourcesLatchAndDeliver : Prop :=
  ∀ s : State,
    (∀ (n : Fin 512) (core : Fin 26), realSource n = false → Machine.exec (.edge n core) s = .next s) ∧
    (∀ (n : Fin 512) (core : Fin 26), realSource n = true → coreSource n = none →
      let x := src s.dev n
      let cut := srcPlace n ≠ 0 ∧ isolated s.dev (srcPlace n - 1) = true
      let g := rf s.dev (Rg.SRC_CFG n) Fl.SRC_CFG_LOW_GROUP
      (cut → ∃ u, Machine.exec (.edge n core) s = .next u ∧ IcOnly s u ∧ SrcTo s u n { x with isoPending := true, isoCount := satInc8 x.isoCount }) ∧
      (¬cut → treeRuns s.dev 2 = false → ∃ u, Machine.exec (.edge n core) s = .next u ∧ SrcTo s u n { x with latch := true } ∧
        (rb s.dev (Rg.SRC_CFG n) Fl.SRC_CFG_LOW_WAKE_EN = true → u.dev.ket.wakeAt = some (nowNs s.dev))) ∧
      (¬cut → treeRuns s.dev 2 = true → Ungrouped s n →
        ∃ u, Machine.exec (.edge n core) s = .next u ∧ IcOnly s u ∧ SrcTo s u n { x with pending := true, count := satInc8 x.count }) ∧
      (¬cut → treeRuns s.dev 2 = true → ¬Ungrouped s n → x.active = false → x.released = false → x.held = false →
        rb s.dev (Rg.SRC_CFG n) Fl.SRC_CFG_LOW_MASK = false → groupTimedOut s.dev g = false →
        ∃ u, Machine.exec (.edge n core) s = .next u ∧ IcOnly s u ∧
          SrcTo s u n { x with pending := true, count := satInc8 x.count, held := true } ∧
          coGroup u.dev g = ⟨(coGroup s.dev g).edges + 1, (coGroup s.dev g).start.or (some (nowNs s.dev))⟩)) ∧
    (∀ (n : Fin 512) (core : Fin 26) z ev, realSource n = true → coreSource n = some (z, ev) → z < 4 → isolated s.dev z = false →
      treeRuns s.dev 2 = true → Ungrouped s n →
      let x := src s.dev n
      ∃ u, Machine.exec (.edge n core) s = .next u ∧
        SrcTo s u n { x with pending := true, count := satInc8 x.count, cores := setBit x.cores core } ∧
        (page u.dev (Rg.pageOf (Rg.baseCORE (32 * z + core)))).intStatus.getLsbD ev = true) ∧
    (∀ (t n : Nat), selected s.dev t = some n → rb s.dev Rg.IC_CTRL Fl.IC_CTRL_EN = true ∧ srcReady s.dev n = true ∧
      rf s.dev (Rg.SRC_CFG n) Fl.SRC_CFG_LOW_TARGET = t ∧
      (n < 512 → ∀ k, k < 512 → srcReady s.dev k = true → rf s.dev (Rg.SRC_CFG k) Fl.SRC_CFG_LOW_TARGET = t →
        rf s.dev (Rg.SRC_CFG k) Fl.SRC_CFG_LOW_PRIO < rf s.dev (Rg.SRC_CFG n) Fl.SRC_CFG_LOW_PRIO ∨
        (rf s.dev (Rg.SRC_CFG k) Fl.SRC_CFG_LOW_PRIO = rf s.dev (Rg.SRC_CFG n) Fl.SRC_CFG_LOW_PRIO ∧ n ≤ k))) ∧
    (let asked (t : Nat) : Prop := ∀ n ∈ readyFor s.dev t, (src s.dev n).requested = true
     (rb s.dev Rg.IC_CTRL Fl.IC_CTRL_EN = false → ∃ u, Machine.exec .select s = .next u ∧ u.dev.ic = s.dev.ic ∧ OnlyDev s u) ∧
     (∀ (h : Host2) (n : Nat), rb s.dev Rg.IC_CTRL Fl.IC_CTRL_EN = true → (h = 1 → asked 1) →
      topPrio s.dev ((readyFor s.dev (h + 1)).filter (fun k => !(src s.dev k).requested)) = some n → inD3 s.dev h = false →
      (tget zeroN s.dev.hif.open_ h).testBit (rf s.dev (Rg.SRC_CFG n) Fl.SRC_CFG_LOW_VECTOR) = true →
      ∃ u, Machine.exec .select s = .next u ∧ OnlyDev s u ∧ (src u.dev n).requested = true ∧
        .msix h (rf s.dev (Rg.SRC_CFG n) Fl.SRC_CFG_LOW_VECTOR) ∈ u.dev.out) ∧
     (∀ n, asked 1 → asked 2 → selected s.dev 3 = some n →
      let x := src s.dev n
      let pl := rf s.dev (Rg.SRC_CFG n) Fl.SRC_CFG_LOW_KPLACE
      (pl ≠ 0 → isolated s.dev (pl - 1) = false) →
      ((items s.dev pl).length < 4096 → ∃ u, Machine.exec .select s = .next u ∧ OnlyDev s u ∧ items u.dev pl = items s.dev pl ++ [eventItem s.dev n] ∧
        src u.dev n = { x with active := true, pending := false, count := 0, merged := false, released := false, requested := false, target := 3 }) ∧
      (4096 ≤ (items s.dev pl).length → s.dev.ic.stall = false → ∃ u, Machine.exec .select s = .next u ∧ OnlyDev s u ∧
        items u.dev pl = items s.dev pl ∧ (rd u.dev Rg.IC_ERR).getLsbD 1 = true ∧ (page u.dev (Rg.pageOf Rg.baseIC)).intStatus.getLsbD 1 = true ∧
        (src u.dev n).active = x.active)) ∧
     (∀ t n, t = 4 ∨ t = 5 ∨ t = 6 → asked 1 → asked 2 → selected s.dev 3 = none → selected s.dev t = some n →
      ∃ u, Machine.exec .select s = .next u ∧ OnlyDev s u ∧ (∀ k, src u.dev k = src s.dev k) ∧ pinLow u.dev t = true ∧
        tget zeroN u.dev.ic.pinUntil t = s.dev.mc + 4)) ∧
    (∀ (t : Fin 8) (m : Master),
      (t.val = 0 ∨ t.val = 3 ∨ t.val = 7 → Machine.exec (.claim t [m]) s = .next s) ∧
      (t.val ≠ 0 → t.val ≠ 3 → t.val ≠ 7 → Answers s.dev (Rg.pageOf Rg.baseIC) m →
        (selected s.dev t = none → ∃ u, Machine.exec (.claim t [m]) s = .next u ∧ OnlyDev s u ∧ tget zero64 u.dev.rdata (masterKey m) = 0 ∧
          u.dev.ic = s.dev.ic) ∧
        (∀ n, selected s.dev t = some n → n < 512 → let x := src s.dev n
          ∃ u, Machine.exec (.claim t [m]) s = .next u ∧
            tget zero64 u.dev.rdata (masterKey m) =
              BitVec.ofNat 64 (n + 1 + x.count.toNat * 1024 + one x.merged * 2 ^ 18 + srcCore s.dev n * 2 ^ 24) ∧
            SrcTo s u n { x with active := true, pending := false, count := 0, merged := false, released := false, requested := false, target := t })) ∧
      (t.val = 0 ∨ t.val = 7 → ∀ v, Machine.exec (.complete t m v) s = .next s) ∧
      (t.val ≠ 0 → t.val ≠ 7 → Admits s.dev (Rg.pageOf Rg.baseIC) m →
        (∀ (n : Fin 512), let x := src s.dev n
          x.active = true → x.target = t → Ungrouped s n →
          ∃ u, Machine.exec (.complete t m (BitVec.ofNat 32 (n + 1))) s = .next u ∧ IcOnly s u ∧ SrcTo s u n { x with active := false }) ∧
        (∀ (v : W32), let id := v.toNat % 1024
          (id = 0 ∨ 512 < id ∨ (src s.dev (id - 1)).active = false ∨ (src s.dev (id - 1)).target ≠ t) →
          ∃ u, Machine.exec (.complete t m v) s = .next u ∧ OnlyDev s u ∧ (rd u.dev Rg.IC_ERR).getLsbD 0 = true ∧
            (page u.dev (Rg.pageOf Rg.baseIC)).intStatus.getLsbD 0 = true ∧ ∀ k, (src u.dev k).active = (src s.dev k).active))) ∧
    (∀ (n : Fin 512), let x := src s.dev n
      (x.latch = false ∨ treeRuns s.dev 2 = false → Machine.exec (.latchedEdge n) s = .next s) ∧
      (x.latch = true → treeRuns s.dev 2 = true → Ungrouped s n → ∃ u, Machine.exec (.latchedEdge n) s = .next u ∧ IcOnly s u ∧
        SrcTo s u n { x with latch := false, pending := true, merged := true, count := satInc8 x.count }))

/-- R433, R435, R437. A group releases its held sources when its count or time is reached and at GROUP_RELEASE; an armed alarm fires when
its time has come, re-arms by its period or disarms; arming one that is due fires it and sets LATE; a write of its time disarms it; CLEAR
and FORCE_COMPLETE act on their source. -/
def Obligations.GroupsAndAlarmsAct : Prop :=
  ∀ s : State,
    let released (u : State) (g : Nat) : Prop := coGroup u.dev g = ⟨0, none⟩ ∧
      ∀ n ∈ heldIn s.dev g, src u.dev n = { src s.dev n with held := false, released := true }
    (∀ g : Fin 64, let c := rf s.dev (Rg.IC_GROUP g) Fl.IC_GROUP_COUNT
      let t := rf s.dev (Rg.IC_GROUP g) Fl.IC_GROUP_TIME_US
      let due := (c ≠ 0 ∧ c ≤ (coGroup s.dev g).edges) ∨ (t ≠ 0 ∧ ∃ t0, (coGroup s.dev g).start = some t0 ∧ t0 + t * 1000 ≤ nowNs s.dev)
      (due → ∃ u, Machine.exec (.coalesceRelease g) s = .next u ∧ IcOnly s u ∧ released u g ∧
        ∀ n, n ∉ heldIn s.dev g → src u.dev n = src s.dev n) ∧
      (¬due → Machine.exec (.coalesceRelease g) s = .next s)) ∧
    (∀ (m : Master) (hi : Bool) (v : W32), Admits s.dev (Rg.pageOf Rg.GROUP_RELEASE_LO) m →
      ∃ u, Machine.exec (.groupRelease m hi v) s = .next u ∧ IcOnly s u ∧ ∀ i, i < 32 →
        (v.getLsbD i = true → released u (i + 32 * one hi)) ∧
        (v.getLsbD i = false → coGroup u.dev (i + 32 * one hi) = coGroup s.dev (i + 32 * one hi))) ∧
    (∀ (a : Fin 16), let ctl := Rg.ALARM_CTRL a
      let lo := Rg.ALARM_TIME_LO a
      let hi := Rg.ALARM_TIME_HI a
      let at_ := rd64 s.dev lo hi
      let p := (rd s.dev (Rg.ALARM_PERIOD_NS a)).toNat
      let armed := rb s.dev ctl Fl.ALARM_CTRL_ARM
      let fired (u : State) : Prop := OnlyDev s u ∧ (page u.dev (Rg.pageOf Rg.baseIC + 1)).intStatus.getLsbD a = true ∧
        (p = 0 → rb u.dev ctl Fl.ALARM_CTRL_ARM = false ∧ rd64 u.dev lo hi = at_) ∧
        (p ≠ 0 → rb u.dev ctl Fl.ALARM_CTRL_ARM = true ∧ rd64 u.dev lo hi = (at_ + p) % 2 ^ 64) ∧
        ∀ b, b ≠ ctl → b ≠ lo → b ≠ hi → rd u.dev b = rd s.dev b
      (armed = true → at_ ≤ nowNs s.dev → ∃ u, Machine.exec (.alarmFire a) s = .next u ∧ fired u) ∧
      (armed = false ∨ nowNs s.dev < at_ → Machine.exec (.alarmFire a) s = .next s) ∧
      (∀ m, Admits s.dev (Rg.pageOf ctl) m →
        (at_ ≤ nowNs s.dev → ∃ u, Machine.exec (.alarmArm a m) s = .next u ∧ fired u ∧ rb u.dev ctl Fl.ALARM_CTRL_LATE = true) ∧
        (nowNs s.dev < at_ → ∃ u, Machine.exec (.alarmArm a m) s = .next u ∧ rb u.dev ctl Fl.ALARM_CTRL_ARM = true ∧
          rb u.dev ctl Fl.ALARM_CTRL_LATE = rb s.dev ctl Fl.ALARM_CTRL_LATE ∧ ∀ b, b ≠ ctl → rd u.dev b = rd s.dev b) ∧
        (∀ (h : Bool) (v : W32), ∃ u, Machine.exec (.alarmTimeWrite a m h v) s = .next u ∧ rd u.dev (if h then hi else lo) = v ∧
          rb u.dev ctl Fl.ALARM_CTRL_ARM = false ∧ ∀ b, b ≠ ctl → b ≠ (if h then hi else lo) → rd u.dev b = rd s.dev b))) ∧
    (∀ (n : Fin 512) (m : Master), Admits s.dev (Rg.pageOf (Rg.SRC_STATE n)) m → let x := src s.dev n
      (∃ u, Machine.exec (.srcClear n m) s = .next u ∧
        SrcTo s u n { x with pending := false, count := 0, merged := false, held := false, released := false, requested := false }) ∧
      (x.active = true → Ungrouped s n → ∃ u, Machine.exec (.forceComplete n m) s = .next u ∧ IcOnly s u ∧ SrcTo s u n { x with active := false }) ∧
      (x.active = false → Machine.exec (.forceComplete n m) s = .next s))

/-! ## Management interfaces -/

/-- What left the module since `s` is `l`. -/
def Sys2Proof.Terms.Sent (s u : State) (l : List Out) : Prop := u.dev.out = s.dev.out ++ l

/-- R415 to R418, R421. The I3C target takes and drops its dynamic address and answers the common commands; a laser source is turned on only
while the interlock permits, its write is repeated three times and counted when it is not acknowledged; UART characters enter and leave
the FIFOs, errors are counted; JTAG shifts the register that its command selects; a GPIO edge sets the input and its event. -/
def Obligations.ManagementPortsAnswer : Prop :=
  ∀ s : State,
    let addr (u : State) (a v : Nat) : Prop := OnlyDev s u ∧ rf u.dev Rg.I3C_ADDR Fl.I3C_ADDR_DYN_ADDR = a ∧ rf u.dev Rg.I3C_ADDR Fl.I3C_ADDR_DA_VALID = v ∧
      rf u.dev Rg.I3C_ADDR Fl.I3C_ADDR_STATIC_ADDR = rf s.dev Rg.I3C_ADDR Fl.I3C_ADDR_STATIC_ADDR ∧ ∀ b, b ≠ Rg.I3C_ADDR → rd u.dev b = rd s.dev b
    let mgt (c : Instr) (g : Mgt → Mgt) (l : List Out) : Prop :=
      Machine.exec c s = .next { s with dev := { s.dev with mgt := g s.dev.mgt, out := s.dev.out ++ l } }
    let page1 (u : State) : Prop := (page u.dev (Rg.pageOf Rg.baseMGT + 1)).intStatus.getLsbD 0 = true
    (∀ a : BitVec 7,
      (rb s.dev Rg.I3C_ADDR Fl.I3C_ADDR_DA_VALID = false → (∃ u, Machine.exec (.entdaa a) s = .next u ∧ addr u a.toNat 1) ∧
        (∃ u, Machine.exec (.setdasa a) s = .next u ∧ addr u a.toNat 1) ∧ Machine.exec (.setnewda a) s = .next s) ∧
      (rb s.dev Rg.I3C_ADDR Fl.I3C_ADDR_DA_VALID = true → (∃ u, Machine.exec (.setnewda a) s = .next u ∧ addr u a.toNat 1) ∧
        Machine.exec (.entdaa a) s = .next s ∧ Machine.exec (.setdasa a) s = .next s)) ∧
    (∃ u, Machine.exec .rstdaa s = .next u ∧ addr u 0 0) ∧
    (∀ ev : Byte, ∃ l, mgt (.enec ev) (fun x => { x with i3cEv := x.i3cEv ||| ev.toNat }) l ∧
      (l = if ev.getLsbD 0 = true ∧ s.dev.mgt.i3cEv.testBit 0 = false ∧ pinLow s.dev 6 = true then [.i3cIbi] else [])) ∧
    (∀ ev : Byte, ∃ x, mgt (.disec ev) (fun y => { y with i3cEv := x }) [] ∧ ∀ i, x.testBit i = (s.dev.mgt.i3cEv.testBit i && !ev.toNat.testBit i)) ∧
    mgt .getpid id [.i3cBytes (beBytes 6 Config.i3cPid.toNat)] ∧ mgt .getbcr id [.i3cBytes [Config.i3cBcr]] ∧
    mgt .getdcr id [.i3cBytes [Config.i3cDcr]] ∧
    (∃ u a b, Machine.exec .getstatus s = .next u ∧ OnlyDev s u ∧ Sent s u [.i3cBytes [a, b]] ∧ u.dev.mgt = s.dev.mgt ∧ u.dev.regs = s.dev.regs) ∧
    mgt .getmwl id [.i3cBytes (beBytes 2 s.dev.mgt.mwl)] ∧ mgt .getmrl id [.i3cBytes (beBytes 2 s.dev.mgt.mrl)] ∧
    (∀ v, mgt (.setmwl v) (fun x => { x with mwl := v.toNat }) [] ∧ mgt (.setmrl v) (fun x => { x with mrl := v.toNat }) []) ∧
    (∀ a, mgt (.rstact a) (fun x => { x with rstact := a.toNat }) []) ∧
    mgt .i3cStatus (fun x => { x with alarm := alarmCause s.dev }) [.i3cBytes (0 :: leBytes 4 (alarmCause s.dev).toNat)] ∧
    (∀ i : Fin 32, let r := Rg.LSR_SLOT i
      let used := rb s.dev r Fl.LSR_SLOT_VALID && rb s.dev Rg.LSR_CTRL Fl.LSR_CTRL_CTL_EN
      let w (on : Bool) : Out := .source (rf s.dev r Fl.LSR_SLOT_ADDR) (rf s.dev r Fl.LSR_SLOT_EN_REG)
        (rf s.dev r (if on then Fl.LSR_SLOT_ON_VAL else Fl.LSR_SLOT_OFF_VAL))
      let nacked (u : State) (on : Bool) : Prop := OnlyDev s u ∧ Sent s u [w on, w on, w on, w on] ∧ ctr u.dev Rg.LSR_NACK = ctr s.dev Rg.LSR_NACK + 1 ∧
        (page u.dev (Rg.pageOf Rg.baseMGT + 2)).intStatus.getLsbD 0 = true ∧ u.dev.mgt = s.dev.mgt
      (s.dev.line.permit = false ∨ used = false → ∀ k, Machine.exec (.sourceOn i k) s = .next s) ∧
      (used = false → ∀ k, Machine.exec (.sourceOff i k) s = .next s) ∧
      (s.dev.line.permit = true → used = true → (∃ u, Machine.exec (.sourceOn i true) s = .next u ∧ OnlyDev s u ∧ Sent s u [w true] ∧
          u.dev.mgt = { s.dev.mgt with sources := setBit s.dev.mgt.sources i }) ∧
        ∃ u, Machine.exec (.sourceOn i false) s = .next u ∧ nacked u true) ∧
      (used = true → (∃ u, Machine.exec (.sourceOff i true) s = .next u ∧ OnlyDev s u ∧ Sent s u [w false] ∧
          u.dev.mgt = { s.dev.mgt with sources := clrBit s.dev.mgt.sources i }) ∧
        ∃ u, Machine.exec (.sourceOff i false) s = .next u ∧ nacked u false)) ∧
    (∀ b : Byte, let x := s.dev.mgt
      (x.rx.length < 64 → mgt (.uartRxChar b true) (fun x => { x with rx := x.rx ++ [b], rxErr := x.rxErr ++ [false], rxHunt := false }) []) ∧
      (x.rx.length < 64 → ∃ u, Machine.exec (.uartRxChar b false) s = .next u ∧ OnlyDev s u ∧ u.dev.mgt.rx = x.rx ++ [b] ∧ u.dev.mgt.rxHunt = true ∧
        ctr u.dev Rg.UART_FRAMING = ctr s.dev Rg.UART_FRAMING + 1 ∧ ctr u.dev Rg.UART_OVERRUN = ctr s.dev Rg.UART_OVERRUN ∧ page1 u) ∧
      (64 ≤ x.rx.length → ∀ stop, ∃ u, Machine.exec (.uartRxChar b stop) s = .next u ∧ OnlyDev s u ∧ u.dev.mgt.rx = x.rx ∧
        ctr u.dev Rg.UART_OVERRUN = ctr s.dev Rg.UART_OVERRUN + 1 ∧ page1 u ∧
        ctr u.dev Rg.UART_FRAMING = ctr s.dev Rg.UART_FRAMING + (if stop then 0 else 1))) ∧
    (s.dev.mgt.tx = [] → Machine.exec .uartTxChar s = .next s) ∧
    (∀ b l, s.dev.mgt.tx = b :: l → mgt .uartTxChar (fun x => { x with tx := l }) [.uart b]) ∧
    (∃ u, Machine.exec .uartBreak s = .next u ∧ OnlyDev s u ∧ ctr u.dev Rg.UART_BREAK = ctr s.dev Rg.UART_BREAK + 1 ∧ page1 u ∧
      u.dev.mgt = { s.dev.mgt with rxHunt := true }) ∧
    (∀ bits : List Bool,
      (∃ o, mgt (.bypass bits) (fun x => { x with extest := false }) [.jtag o] ∧ o.length = bits.length ∧ ∀ i, i < bits.length → o[i]? =
        if i = 0 then some false else bits[i - 1]?) ∧
      (∃ o, mgt (.idcode bits) (fun x => { x with extest := false }) [.jtag o] ∧ o.length = bits.length ∧ ∀ i, i < bits.length → o[i]? =
        if i < 32 then some ((0x1E96095D : Nat).testBit i) else bits[i - 32]?) ∧
      (∃ u o, Machine.exec (.samplePreload bits) s = .next u ∧ OnlyDev s u ∧ Sent s u [.jtag o] ∧ o.length = bits.length ∧
        u.dev.mgt = { s.dev.mgt with extest := false, boundary := bits } ∧ u.dev.regs = s.dev.regs) ∧
      (∃ u o, Machine.exec (.extest bits) s = .next u ∧ OnlyDev s u ∧ Sent s u [.jtag o] ∧ o.length = bits.length ∧
        u.dev.mgt = { s.dev.mgt with extest := true, boundary := bits } ∧ u.dev.regs = s.dev.regs)) ∧
    (∀ (n : Fin 16) (rise : Bool), let was := (rd s.dev Rg.GPIO_IN).getLsbD n
      let pg := Rg.pageOf Rg.baseMGT + 3
      let en := (rd s.dev (if rise then Rg.GPIO_EDGE_RISE else Rg.GPIO_EDGE_FALL)).getLsbD n
      (was = rise → Machine.exec (.gpioEdge n rise) s = .next s) ∧
      (was ≠ rise → ∃ u, Machine.exec (.gpioEdge n rise) s = .next u ∧ OnlyDev s u ∧
        (∀ i, i < 32 → (rd u.dev Rg.GPIO_IN).getLsbD i = if i = n.val then rise else (rd s.dev Rg.GPIO_IN).getLsbD i) ∧
        (∀ b, b ≠ Rg.GPIO_IN → rd u.dev b = rd s.dev b) ∧
        (en = true → (page u.dev pg).intStatus.getLsbD n = true) ∧ (en = false → ∀ q, page u.dev q = page s.dev q)))

/-! ## Clocks, the timebase, power -/

/-- R439 to R441, R444 to R456. References are judged by their windows, the accepted ones chosen among, and the module coasts without
one; TB_SET and TB_ADJ step the timebase; a read of TB_NOW_LO latches one instant; PPS_IN is stamped and PPS_OUT rises once for each second. -/
def Sys2Proof.Terms.ClockRules (s : State) : Prop :=
  let st := Rg.CLK_STATUS
  let p := rf s.dev Rg.CLK_CTRL Fl.CLK_CTRL_PREFER
  let act := activeRef s.dev
  let coasts (u : State) : Prop := coasting u.dev = true ∧ ctr u.dev Rg.CLK_COAST_CNT = ctr s.dev Rg.CLK_COAST_CNT + 1 ∧ activeRef u.dev = act ∧
    ∀ p, p < 256 → portBegins s.dev p = true → portUp u.dev p = false
  let switches (u : State) (r : Nat) : Prop := coasting u.dev = false ∧ activeRef u.dev = r ∧
    ctr u.dev Rg.CLK_SWITCH_CNT = ctr s.dev Rg.CLK_SWITCH_CNT + 1 ∧ (page u.dev (Rg.pageOf Rg.baseCLK)).intStatus.getLsbD 1 = true
  let stays (u : State) : Prop := coasting u.dev = coasting s.dev ∧ activeRef u.dev = act
  (s.dev.ket.off = false → ∀ (a b : RefCount), rb s.dev Rg.CLK_CTRL Fl.CLK_CTRL_B_EN = true →
    let byB := b.present && s.dev.ket.lastPass.testBit 1
    let byA := a.present && s.dev.ket.lastPass.testBit 0
    let rcOk (n : Nat) : Bool := decide (15157 ≤ n ∧ n ≤ 16093)
    let otherOk (n : Nat) : Bool := decide (15622 ≤ n ∧ n ≤ 15628)
    let pa := a.present && (if byB then otherOk a.other else rcOk a.rc)
    let pb := b.present && (if byA then otherOk b.other else rcOk b.rc)
    let dis := a.present && b.present && byA && byB && !pa && !pb && rcOk a.rc && rcOk b.rc
    let na := rf s.dev st Fl.CLK_STATUS_A_PASSES
    let nb := rf s.dev st Fl.CLK_STATUS_B_PASSES
    let okA := pa && (refOk s.dev 0 || decide (2 ≤ na))
    let okB := pb && (refOk s.dev 1 || decide (2 ≤ nb))
    let ok (r : Nat) : Bool := if r = 0 then okA else okB
    ∃ u, Machine.exec (.refWindow a b) s = .next u ∧ OnlyDev s u ∧ rb u.dev st Fl.CLK_STATUS_DISAGREE = dis ∧
      getF (rd u.dev (Rg.CLK_COUNT 0)) ⟨15, 0⟩ = (if byB then a.other else a.rc) % 65536 ∧ (rd u.dev (Rg.CLK_COUNT 0)).getLsbD 16 = !byB ∧
      getF (rd u.dev (Rg.CLK_COUNT 1)) ⟨15, 0⟩ = (if byA then b.other else b.rc) % 65536 ∧ (rd u.dev (Rg.CLK_COUNT 1)).getLsbD 16 = !byA ∧
      (dis = true → (∀ r, r < 2 → refOk u.dev r = refOk s.dev r) ∧ stays u ∧
        (rb s.dev st Fl.CLK_STATUS_DISAGREE = false → (page u.dev (Rg.pageOf Rg.baseCLK)).intStatus.getLsbD 0 = true)) ∧
      (dis = false →
        rf u.dev st Fl.CLK_STATUS_A_PASSES = (if pa then min 3 (na + 1) else 0) ∧ rf u.dev st Fl.CLK_STATUS_B_PASSES = (if pb then min 3 (nb + 1) else 0) ∧
        refOk u.dev 0 = okA ∧ refOk u.dev 1 = okB ∧
        (coasting s.dev = true → stays u) ∧
        (coasting s.dev = false → ok act = false → ok (1 - act) = true → switches u (1 - act)) ∧
        (coasting s.dev = false → ok act = false → ok (1 - act) = false → coasts u) ∧
        (coasting s.dev = false → ok act = true → rb s.dev Rg.CLK_CTRL Fl.CLK_CTRL_REVERT = true → act ≠ p → ok p = true → switches u p) ∧
        (coasting s.dev = false → ok act = true → rb s.dev Rg.CLK_CTRL Fl.CLK_CTRL_REVERT = false ∨ act = p ∨ ok p = false → stays u))) ∧
  (s.dev.ket.off = false → ∀ r : Fin 2, ∃ u, Machine.exec (.refLoss r) s = .next u ∧ OnlyDev s u ∧ refOk u.dev r = false ∧ refPasses u.dev r = 0 ∧
    refOk u.dev (1 - r.val) = refOk s.dev (1 - r.val) ∧
    (refOk s.dev r = true → (page u.dev (Rg.pageOf Rg.baseCLK)).intStatus.getLsbD 0 = true) ∧
    (coasting s.dev = true → stays u) ∧
    (coasting s.dev = false → act = r → refOk s.dev (1 - r.val) = true → switches u (1 - r.val)) ∧
    (coasting s.dev = false → act = r → refOk s.dev (1 - r.val) = false → coasts u) ∧
    (coasting s.dev = false → act ≠ r → refOk s.dev act = true → stays u)) ∧
  (let r := if refOk s.dev p then p else 1 - p
   (coasting s.dev = true → refOk s.dev r = true → ∃ u, Machine.exec .coastEnd s = .next u ∧ OnlyDev s u ∧ coasting u.dev = false ∧ activeRef u.dev = r ∧
     rb u.dev st Fl.CLK_STATUS_LOCK = true ∧ (page u.dev (Rg.pageOf Rg.baseTB)).intStatus.getLsbD 2 = true ∧ ∀ a, a ≠ st → rd u.dev a = rd s.dev a) ∧
   (coasting s.dev = false ∨ refOk s.dev r = false → Machine.exec .coastEnd s = .next s)) ∧
  (∀ m : Master,
    let stepped (u : State) : Prop := OnlyDev s u ∧ u.dev.tb = s.dev.tb ∧ ctr u.dev Rg.TB_STEP_CNT = ctr s.dev Rg.TB_STEP_CNT + 1 ∧
      (page u.dev (Rg.pageOf Rg.baseTB)).intStatus.getLsbD 1 = true
    (Admits s.dev (Rg.pageOf Rg.TB_CMD) m →
      (∃ u, Machine.exec (.tbSet m) s = .next u ∧ stepped u ∧
        u.dev.tbStep = some (.set (rd64 s.dev Rg.TB_SET_LO Rg.TB_SET_HI * 2 ^ 32 + rf s.dev Rg.TB_SET_FRAC Fl.TB_SET_FRAC_FRAC * 2 ^ 16))) ∧
      (s.dev.tbStep = none → ∃ u, Machine.exec (.tbAdjust m) s = .next u ∧ stepped u ∧ u.dev.tbStep = some (.adjust (rd s.dev Rg.TB_ADJ).toInt))) ∧
    (Answers s.dev (Rg.pageOf Rg.TB_NOW_LO) m → ∃ u, Machine.exec (.tbNowRead m) s = .next u ∧ OnlyDev s u ∧ (∀ a, rd u.dev a = rd s.dev a) ∧
      tget zero64 u.dev.rdata (masterKey m) = BitVec.ofNat 64 (nowNs s.dev % 2 ^ 32) ∧
      getLatch u.dev Rg.TB_NOW_HI m = some (BitVec.ofNat 32 (nowNs s.dev / 2 ^ 32)) ∧
      getLatch u.dev Rg.TB_NOW_FRAC m = some (BitVec.ofNat 32 (s.dev.tb / 2 ^ 16 % 2 ^ 16)))) ∧
  (s.dev.ket.off = false → ∃ u, Machine.exec .ppsIn s = .next u ∧ OnlyDev s u ∧ rd64 u.dev Rg.TB_PPS_IN_LO Rg.TB_PPS_IN_HI = nowNs s.dev % 2 ^ 64 ∧
    rd u.dev Rg.TB_PPS_IN_FRAC = BitVec.ofNat 32 (s.dev.tb / 2 ^ 16 % 2 ^ 16) ∧ ctr u.dev Rg.TB_PPS_IN_CNT = ctr s.dev Rg.TB_PPS_IN_CNT + 1 ∧
    (page u.dev (Rg.pageOf Rg.baseTB)).intStatus.getLsbD 0 = true) ∧
  (let k := ((nowNs s.dev : Int) - (rd s.dev Rg.TB_PPS_OFFSET).toInt) / 1000000000
   let en := rb s.dev Rg.TB_PPS Fl.TB_PPS_PPS_EN
   (s.dev.ket.off = false → en = true → (∀ l, s.dev.ket.ppsLast = some l → l < k) →
     let x := { s.dev.ket with pps := some (nowNs s.dev + 1000 * rf s.dev Rg.TB_PPS Fl.TB_PPS_WIDTH_US), ppsLast := some k }
     Machine.exec .ppsOut s = .next { s with dev := { s.dev with out := s.dev.out ++ [.pps true], ket := x } }) ∧
   (en = false ∨ (∃ l, s.dev.ket.ppsLast = some l ∧ k ≤ l) → Machine.exec .ppsOut s = .next s) ∧
   (∀ t, s.dev.ket.pps = some t → t ≤ nowNs s.dev →
     Machine.exec .ppsOutFall s = .next { s with dev := { s.dev with out := s.dev.out ++ [.pps false], ket := { s.dev.ket with pps := none } } }) ∧
   ((∀ t, s.dev.ket.pps = some t → nowNs s.dev < t) → Machine.exec .ppsOutFall s = .next s)) ∧
  (s.dev.ket.off = true → (∀ a b, Machine.exec (.refWindow a b) s = .next s) ∧ (∀ r, Machine.exec (.refLoss r) s = .next s) ∧
    Machine.exec .ppsIn s = .next s ∧ Machine.exec .ppsOut s = .next s)

/-- What the retained-state shutdown and the loss of supply leave: no HBM contents, the converters off, PG_OUT low, and what Caddy,
the retirement map and the laser sources keep. -/
def Sys2Proof.Terms.SupplyGone (s u : State) : Prop :=
  u.mem = [] ∧ u.pending = s.pending ∧ u.dev.ket.off = true ∧ u.dev.life.pgOut = false ∧ u.dev.mgt.sources = s.dev.mgt.sources ∧
    u.dev.line.permit = s.dev.line.permit ∧ u.dev.caddy.dirty = []
/-- The dirty set was programmed as one journal page; with nothing dirty none was. -/
def Sys2Proof.Terms.DirtyWritten (s u : State) : Prop :=
  u.dev.caddy.dirty = [] ∧ (s.dev.caddy.dirty = [] → u.dev.caddy.journal = s.dev.caddy.journal) ∧
    (s.dev.caddy.dirty ≠ [] → s.dev.caddy.fresh = false → ∃ p, u.dev.caddy.journal = s.dev.caddy.journal ++ [p] ∧ p.seq = s.dev.caddy.jseq + 1 ∧
      u.dev.caddy.jseq = s.dev.caddy.jseq + 1 ∧ p.recs.map (fun r => (r.1, r.2.1)) = s.dev.caddy.dirty)
/-- The newest record of the event log has this kind. -/
def Sys2Proof.Terms.Logged (u : State) (kind : Nat) : Prop := ∃ r l, u.dev.caddy.log = r :: l ∧ r.w0.toNat % 256 = kind

/-- R448 to R456. A unit goes down as its idle time and its enables allow and is woken; the device takes the deepest state whose
condition holds and whose time suffices; a wake counts the events that come late. -/
def Sys2Proof.Terms.PowerStateRules (s : State) : Prop :=
  let on := s.dev.ket.off = false
  (∀ u : Nat, unitExists s.dev u = true → on →
    let x := tget unitDflt s.dev.ket.units u
    let en (f : Fld) : Bool := rb s.dev Rg.PWR_UNIT_EN f
    let idle (n : Nat) : Prop := unitIdle s.dev u = true ∧ ∃ t, x.idle = some t ∧ n ≤ elapsed (nowNs s.dev) t
    let frame (v : State) : Prop := OnlyDev s v ∧ (∀ a, (∀ k, u = 132 + k → a ≠ Rg.HBM_STATUS k) → rd v.dev a = rd s.dev a) ∧
      ∀ k, k ≠ u → tget unitDflt v.dev.ket.units k = tget unitDflt s.dev.ket.units k
    (unitIdle s.dev u = true → x.state = 0 → ∃ v, Machine.exec (.unitNap u) s = .next v ∧ frame v ∧
      tget unitDflt v.dev.ket.units u = { x with state := one (en Fl.PWR_UNIT_EN_NAP_EN), idle := x.idle.or (some (nowNs s.dev)) }) ∧
    (unitIdle s.dev u = false ∨ x.state ≠ 0 → Machine.exec (.unitNap u) s = .next s) ∧
    (x.state < 2 → en Fl.PWR_UNIT_EN_DOZE_EN = true → unitStays s.dev u = false → idle 10000 →
      ∃ v, Machine.exec (.unitDoze u) s = .next v ∧ frame v ∧ tget unitDflt v.dev.ket.units u = { x with state := 2 }) ∧
    (2 ≤ x.state ∨ en Fl.PWR_UNIT_EN_DOZE_EN = false ∨ unitStays s.dev u = true ∨ ¬idle 10000 → Machine.exec (.unitDoze u) s = .next s) ∧
    (let ready := x.state < 3 ∧ en Fl.PWR_UNIT_EN_DORMANT_EN = true ∧ unitStays s.dev u = false ∧ unitEmpty s.dev u = true ∧ idle 2000000
     (ready → u < 132 → ∃ v, Machine.exec (.unitDormant u) s = .next v ∧ frame v ∧ tget unitDflt v.dev.ket.units u = { x with state := 3 } ∧
       ∀ sp, sp < 4 → ∀ e ∈ v.dev.core.sram, e.1 / 2 ^ 20 ≠ cidPlace u * 65536 + coreArr u sp) ∧
     (ready → 136 ≤ u → ∃ v, Machine.exec (.unitDormant u) s = .next v ∧ frame v ∧ tget unitDflt v.dev.ket.units u = { x with state := 3 }) ∧
     (ready → 132 ≤ u → u < 136 → ∃ v, Machine.exec (.unitDormant u) s = .next v ∧ v.pending = s.pending ∧
       (∀ a, v.mem.read a = if a < hbmEnd then 0 else s.mem.read a) ∧ v.dev.hbm.poison = [] ∧ unitState v.dev u = 3 ∧
       (∀ e ∈ v.dev.tbl.ents, e ∈ s.dev.tbl.ents ∧ (e.1 / 2 ^ 33 < 32 ∨ 64 ≤ e.1 / 2 ^ 33)) ∧
       stackState v.dev (u - 132) = 6) ∧
     (¬ready → Machine.exec (.unitDormant u) s = .next s)) ∧
    (∃ v, Machine.exec (.unitWake u) s = .next v ∧ frame v ∧ tget unitDflt v.dev.ket.units u = ⟨0, none⟩)) ∧
  (on →
    let e := nextEvent s.dev
    let long (n : Nat) : Prop := ∀ x, e = some x → n < x.1 - nowNs s.dev
    let deep := mayEnter s.dev 2 = true ∧ long 1000000
    let light := mayEnter s.dev 1 = true ∧ long 10000
    ∃ u, Machine.exec .stateSelect s = .next u ∧ OnlyDev s u ∧
      (deep → rf u.dev Rg.PWR_STATE Fl.PWR_STATE_STATE = 2 ∧ ∀ x, e = some x → u.dev.ket.wakeAt = some (x.1 - 88000)) ∧
      (¬deep → light → rf u.dev Rg.PWR_STATE Fl.PWR_STATE_STATE = 1 ∧ ∀ x, e = some x → u.dev.ket.wakeAt = some (x.1 - 1650)) ∧
      (¬deep → ¬light → rf u.dev Rg.PWR_STATE Fl.PWR_STATE_STATE = 0) ∧
      (∀ x, e = some x → rf u.dev Rg.PWR_NEXT Fl.PWR_NEXT_NEXT_US = min (2 ^ 28 - 1) ((x.1 - nowNs s.dev) / 1000) ∧
        rf u.dev Rg.PWR_NEXT Fl.PWR_NEXT_SOURCE = x.2 % 16)) ∧
  (let st := rf s.dev Rg.PWR_STATE Fl.PWR_STATE_STATE
   let late := ((knownEvents s.dev).filter (fun e => decide (e.1 < nowNs s.dev + (if st = 1 then 1500 else 80000)))).length
   let woken (u : State) : Prop := OnlyDev s u ∧ rf u.dev Rg.PWR_STATE Fl.PWR_STATE_STATE = 0 ∧ u.dev.ket.wakeAt = none ∧
     ctr u.dev Rg.PWR_WAKE_LATE = ctr s.dev Rg.PWR_WAKE_LATE + BitVec.ofNat 64 late ∧ (page u.dev (Rg.pageOf Rg.basePWR)).intStatus.getLsbD 6 = true
   (∀ c, on → st ≠ 0 → ∃ u, Machine.exec (.wake c) s = .next u ∧ woken u) ∧
   (∀ c, st = 0 ∨ s.dev.ket.off = true → Machine.exec (.wake c) s = .next s) ∧
   (∀ t, s.dev.ket.wakeAt = some t → t ≤ nowNs s.dev → st ≠ 0 →
     ∃ u, Machine.exec .wakeAt s = .next u ∧ woken u) ∧
   ((∀ t, s.dev.ket.wakeAt = some t → nowNs s.dev < t) ∨ st = 0 → Machine.exec .wakeAt s = .next s))

/-- R453, R455 to R457, R459. The Kettle takes sensors, VIN, the input power and its rails as causes with their hysteresis and counts
their onsets; a low VIN and a thermal trip shut the module down with its dirty set written. -/
def Sys2Proof.Terms.KettleRules (s : State) : Prop :=
  let on := s.dev.ket.off = false
  let now := nowNs s.dev
  let since (x : Option Nat) (us : Nat) : Prop := ∃ a, x = some a ∧ a + 1000 * us ≤ now
  let vin (u : State) (mv : Nat) : Prop := OnlyDev s u ∧ rf u.dev Rg.PWR_VIN Fl.PWR_VIN_VIN_MV = min mv 65535 ∧
    rf u.dev Rg.PWR_VIN Fl.PWR_VIN_MIN_MV = min (min mv 65535) (rf s.dev Rg.PWR_VIN Fl.PWR_VIN_MIN_MV)
  (∀ ts : List (BitVec 16),
    (s.dev.ket.off = true ∨ ts.length ≠ 64 → Machine.exec (.sensorRead ts) s = .next s) ∧
    (on → ts.length = 64 → ∃ u, Machine.exec (.sensorRead ts) s = .next u ∧ OnlyDev s u ∧ ∀ i x, ts[i]? = some x →
      let t := x.toInt
      let th (k : Nat) : Int := ((rd s.dev Rg.PWR_DIE_T).toNat / 256 ^ (k - 1) % 256 : Nat)
      let was := tget zeroN s.dev.ket.dieTherm i
      let l := tget zeroN u.dev.ket.dieTherm i
      signed 8 (rf u.dev (Rg.PWR_TEMP i) Fl.PWR_TEMP_TEMP) = max (-128) (min 127 t) ∧
      tget (fun _ => none) u.dev.ket.hot i = (if 115 ≤ t then (tget (fun _ => none) s.dev.ket.hot i).or (some (nowNs s.dev)) else none) ∧
      l ≤ 4 ∧ (∀ k, 1 ≤ k → k ≤ 4 → th k ≤ t → k ≤ l) ∧
      (l ≠ 0 → th l ≤ t ∨ (l ≤ was ∧ th l - (rf s.dev Rg.PWR_THYST Fl.PWR_THYST_HYST : Int) ≤ t)))) ∧
  (∀ mv : Nat,
    (s.dev.ket.off = true ∨ 6000 ≤ mv → Machine.exec (.crank mv) s = .next s) ∧
    (on → mv < 6000 → ∃ u, Machine.exec (.crank mv) s = .next u ∧ vin u mv ∧
      let onset := s.dev.ket.crank = false ∧ since (s.dev.ket.below6.or (some now)) (rf s.dev Rg.PWR_CRANK Fl.PWR_CRANK_CRANK_US)
      u.dev.ket.below6 = s.dev.ket.below6.or (some now) ∧ (u.dev.ket.crank = true ↔ s.dev.ket.crank = true ∨ onset) ∧ u.dev.ket.vinLow = s.dev.ket.vinLow ∧
      (onset → ctr u.dev Rg.PWR_CRANK_CNT = ctr s.dev Rg.PWR_CRANK_CNT + 1 ∧ (page u.dev (Rg.pageOf Rg.basePWR)).intStatus.getLsbD 1 = true) ∧
      (¬onset → ctr u.dev Rg.PWR_CRANK_CNT = ctr s.dev Rg.PWR_CRANK_CNT)) ∧
    (s.dev.ket.off = true ∨ 4500 ≤ mv → Machine.exec (.vinLow mv) s = .next s) ∧
    (on → mv < 4500 → ∃ u, Machine.exec (.vinLow mv) s = .next u ∧ vin u mv ∧ u.dev.ket.vinLow = true ∧ u.dev.ket.crank = s.dev.ket.crank ∧
      ctr u.dev Rg.PWR_VIN_LOW_CNT = ctr s.dev Rg.PWR_VIN_LOW_CNT + (if s.dev.ket.vinLow then 0 else 1) ∧
      (s.dev.ket.vinLow = false → (page u.dev (Rg.pageOf Rg.basePWR)).intStatus.getLsbD 2 = true)) ∧
    (s.dev.ket.off = true → Machine.exec (.vinClear mv) s = .next s) ∧
    (on → ∃ u, Machine.exec (.vinClear mv) s = .next u ∧ vin u mv ∧
      let us := rf s.dev Rg.PWR_CRANK Fl.PWR_CRANK_CLEAR_US
      let past (b : Nat) (x : Option Nat) : Prop := b ≤ mv ∧ since (x.or (some now)) us
      (u.dev.ket.crank = true ↔ s.dev.ket.crank = true ∧ ¬past 6000 s.dev.ket.above6) ∧
      (u.dev.ket.vinLow = true ↔ s.dev.ket.vinLow = true ∧ ¬past 4500 s.dev.ket.above45) ∧
      u.dev.ket.below6 = (if mv < 6000 then s.dev.ket.below6.or (some now) else none) ∧
      u.dev.ket.above6 = (if mv < 6000 then none else s.dev.ket.above6.or (some now)) ∧
      u.dev.ket.above45 = (if mv < 4500 then none else s.dev.ket.above45.or (some now))) ∧
    (s.dev.ket.off = true ∨ 4200 ≤ mv → Machine.exec (.shutdown mv) s = .next s) ∧
    (on → mv < 4200 → ∃ u, Machine.exec (.shutdown mv) s = .next u ∧ SupplyGone s u ∧ DirtyWritten s u ∧ Logged u 2 ∧ u.dev.ket.tripped = s.dev.ket.tripped)) ∧
  (∀ n : Fin 68, let hot := tget (fun _ => none) s.dev.ket.hot n
    (on → ∀ t, hot = some t → 1000000 ≤ elapsed (nowNs s.dev) t → ∃ u, Machine.exec (.thermalTrip n) s = .next u ∧ SupplyGone s u ∧ DirtyWritten s u ∧
      u.dev.ket.tripped = true ∧ u.dev.life.alarm = true ∧ ∀ st, Machine.exec (.vinGood st) u = .next u) ∧
    (s.dev.ket.off = true ∨ (∀ t, hot = some t → elapsed (nowNs s.dev) t < 1000000) → Machine.exec (.thermalTrip n) s = .next s)) ∧
  (on → (∃ u, Machine.exec .vstbyLoss s = .next u ∧ SupplyGone s u ∧ DirtyWritten s u ∧ Logged u 2)) ∧
  (s.dev.ket.off = true → Machine.exec .vstbyLoss s = .next s) ∧
  (∀ mw : Nat, let cap := rf s.dev Rg.PWR_CAP Fl.PWR_CAP_CAP_W
    let lv := s.dev.ket.capLevel
    let ended := now / 1000000 ≠ s.dev.ket.capAt
    (s.dev.ket.off = true ∨ ¬ended → Machine.exec (.capWindow mw) s = .next s) ∧
    (on → ended → ∃ u, Machine.exec (.capWindow mw) s = .next u ∧ OnlyDev s u ∧ u.dev.ket.capAt = now / 1000000 ∧ rf u.dev Rg.PWR_INPUT Fl.PWR_INPUT_INPUT_DW = min 65535 (mw / 100) ∧
      (1000 * cap < mw → lv < 3 → u.dev.ket.capLevel = lv + 1 ∧ ctr u.dev Rg.PWR_CAP_CNT = ctr s.dev Rg.PWR_CAP_CNT + 1) ∧
      (1000 * cap < mw → 3 ≤ lv → u.dev.ket.capLevel = lv) ∧ (mw < 950 * cap → u.dev.ket.capLevel = lv - 1) ∧
      (950 * cap ≤ mw → mw ≤ 1000 * cap → u.dev.ket.capLevel = lv))) ∧
  (∀ rail l : Nat, let was := tget zeroN s.dev.ket.rails rail
    let to_ (u : State) (x : Nat) : Prop := OnlyDev s u ∧ tget zeroN u.dev.ket.rails rail = x ∧ ∀ r, r ≠ rail → tget zeroN u.dev.ket.rails r = tget zeroN s.dev.ket.rails r
    (on → railShort s.dev rail = false → ∃ u, Machine.exec (.phaseLimit rail l) s = .next u ∧ to_ u 0) ∧
    (on → railShort s.dev rail = true → l = 2 ∨ l = 3 → ∃ u, Machine.exec (.phaseLimit rail l) s = .next u ∧ to_ u l ∧
      (was = 0 → (page u.dev (Rg.pageOf Rg.basePWR)).intStatus.getLsbD 7 = true)) ∧
    (s.dev.ket.off = true ∨ (railShort s.dev rail = true ∧ l ≠ 2 ∧ l ≠ 3) → Machine.exec (.phaseLimit rail l) s = .next s))

/-- R439 to R441, R444 to R447. -/
def Obligations.ReferencesAndTimebaseFollowTheirRules : Prop := ∀ s : State, ClockRules s
/-- R448 to R452. -/
def Obligations.UnitsAndDeviceChangePowerStates : Prop := ∀ s : State, PowerStateRules s
/-- R453, R455 to R457, R459. -/
def Obligations.KettleTakesCausesAndShutsDown : Prop := ∀ s : State, KettleRules s

/-! ## Start-up, warm reset, loss of supply -/

/-- R469 to R473, R478, R484, R519, R522. VIN good starts a module that no thermal trip keeps off; zones power up in order, their engines
are calibrated, they open forwarding, the module opens; a warm reset takes the zones back to their power-up; PORST_N and EN low stop the
module. The latest snapshot and the pages that follow it in unbroken order are what is restored. -/
def Obligations.ModuleStartsAndResets : Prop :=
  (∀ s : State,
    let on := s.dev.ket.off = false
    let phase := rf s.dev Rg.DEV_PHASE Fl.DEV_PHASE_PHASE
    (∀ st : W32, (on ∨ s.dev.ket.tripped = true → Machine.exec (.vinGood st) s = .next s) ∧
      (s.dev.ket.off = true → s.dev.ket.tripped = false →
        ∃ u, Machine.exec (.vinGood st) s = .next u ∧ OnlyDev s u ∧ u.dev.ket.off = false ∧ u.dev.life.pgOut = true ∧
          u.dev.caddy.powerups = s.dev.caddy.powerups + 1 ∧ rd u.dev Rg.DEV_STRAPS = st &&& 0x3F ∧
          rf u.dev Rg.DEV_PHASE Fl.DEV_PHASE_PHASE = 3 ∧ coasting u.dev = true ∧ Logged u (if st.getLsbD 3 then 9 else 1) ∧
          rf u.dev Rg.CDY_STATUS Fl.CDY_STATUS_SOURCE = (if st.getLsbD 3 then 2 else if (lastSnap s.dev.caddy).isSome then 1 else 0) ∧
          ∀ p ∈ hubPages, ¬(0x100 ≤ p ∧ p < 0x138) → (page u.dev p).ready = true)) ∧
    (∀ (z : Zone) (failed : List Nat),
      let may := on ∧ bootSel s.dev ≠ 3 ∧ zoneUp s.dev z = false ∧ ∀ k, k < z.val → zoneUp s.dev k = true
      (¬may → Machine.exec (.zonePowerUp z failed) s = .next s) ∧
      (may → ∃ u, Machine.exec (.zonePowerUp z failed) s = .next u ∧ OnlyDev s u ∧ (∀ p ∈ zonePages z, (page u.dev p).ready = true) ∧
        (∀ k, k < 4 → zoneUp u.dev k = (zoneUp s.dev k || decide (k = z.val))) ∧ rf u.dev Rg.DEV_PHASE Fl.DEV_PHASE_PHASE = max 4 phase)) ∧
    (∀ (z : Zone) (nack : W32),
      let may := on ∧ zoneUp s.dev z = true ∧ (engine s.dev (4 * z.val)).calibrated = false
      (¬may → Machine.exec (.engineCalibrated z nack) s = .next s) ∧
      (may → ∃ u, Machine.exec (.engineCalibrated z nack) s = .next u ∧ OnlyDev s u ∧
        (∀ i, i < 4 → (engine u.dev (4 * z.val + i)).calibrated = true) ∧ rf u.dev Rg.DEV_PHASE Fl.DEV_PHASE_PHASE = max 5 phase ∧
        (s.dev.line.permit = false → u.dev.out = s.dev.out) ∧
        (s.dev.line.permit = true → ∀ i, i < 8 → rb s.dev (Rg.LSR_SLOT (8 * z.val + i)) Fl.LSR_SLOT_VALID = true →
          rb s.dev Rg.LSR_CTRL Fl.LSR_CTRL_CTL_EN = true → nack.getLsbD (8 * z.val + i) = false → u.dev.mgt.sources.testBit (8 * z.val + i) = true))) ∧
    (∀ z : Zone,
      let may := on ∧ zoneUp s.dev z = true ∧ s.dev.life.zopen.testBit z = false ∧ (∀ p ∈ zonePages z, (page s.dev p).ready = true) ∧
        rb s.dev (Rg.ZCTL_IMG_VALID z) (if activeBank s.dev z = 0 then Fl.ZCTL_IMG_VALID_VALID_A else Fl.ZCTL_IMG_VALID_VALID_B) = true ∧
        coasting s.dev = false
      (¬may → Machine.exec (.zoneOpen z) s = .next s) ∧
      (may → ∃ u, Machine.exec (.zoneOpen z) s = .next u ∧ OnlyDev s u ∧ (∀ k, u.dev.life.zopen.testBit k = (s.dev.life.zopen.testBit k || decide (k = z.val))) ∧
        (rf u.dev Rg.DEV_PHASE Fl.DEV_PHASE_ZONE_OPEN).testBit z = true ∧ ∀ e ∈ u.dev.adm.doms, e.1 / 512 ≠ z)) ∧
    (let may := on ∧ rb s.dev Rg.DEV_PHASE Fl.DEV_PHASE_FWD_OPEN = false ∧ (∀ z, z < 4 → s.dev.life.zopen.testBit z = true) ∧ portsWaited s.dev = true
     (¬may → Machine.exec .fwdOpen s = .next s) ∧
     (may → ∃ u, Machine.exec .fwdOpen s = .next u ∧ OnlyDev s u ∧ rb u.dev Rg.DEV_PHASE Fl.DEV_PHASE_FWD_OPEN = true ∧
       rf u.dev Rg.DEV_PHASE Fl.DEV_PHASE_PHASE = max 6 phase ∧ rd u.dev Rg.DEV_OPEN_MS = BitVec.ofNat 32 (min 65535 (s.dev.life.age * 512 / 100000000)))) ∧
    (let reset (u : State) : Prop := OnlyDev s u ∧ u.dev.caddy.dirty = [] ∧ Logged u 12 ∧ u.dev.tb = s.dev.tb ∧
       rb u.dev Rg.DEV_PHASE Fl.DEV_PHASE_WARM = true ∧ rf u.dev Rg.DEV_PHASE Fl.DEV_PHASE_ZONE_UP = 0 ∧ rf u.dev Rg.DEV_PHASE Fl.DEV_PHASE_ZONE_OPEN = 0 ∧
       rb u.dev Rg.DEV_PHASE Fl.DEV_PHASE_FWD_OPEN = false ∧ rf u.dev Rg.DEV_PHASE Fl.DEV_PHASE_PHASE = 3 ∧ u.dev.life.zopen = 0 ∧
       (∀ p, p < 0x1000 → (page u.dev p).ready = (page s.dev p).ready) ∧ (∀ p, 0x1000 ≤ p → page u.dev p = {}) ∧
       (∀ a, 0x1000000 ≤ a → rd u.dev a = factory a) ∧ ∀ c t, c < 128 → t < 8 → thr u.dev c t = {}
     (on → s.dev.life.opened = true → ∃ u, Machine.exec (.warm none) s = .next u ∧ reset u) ∧
     (s.dev.ket.off = true ∨ s.dev.life.opened = false → Machine.exec (.warm none) s = .next s) ∧
     (∀ (m : Master) (v : W32), Admits s.dev (Rg.pageOf Rg.DEV_RESET) m →
       (v.getLsbD 0 = false → Machine.exec (.warm (some (m, v))) s = .next s) ∧
       (v.getLsbD 0 = true → v.toNat / 2 ^ 24 = 0x96 → ∃ u, Machine.exec (.warm (some (m, v))) s = .next u ∧ reset u) ∧
       (v.getLsbD 0 = true → v.toNat / 2 ^ 24 ≠ 0x96 → ∃ u, Machine.exec (.warm (some (m, v))) s = .next u ∧
         PageTo s u (Rg.pageOf Rg.DEV_RESET) (withErr (Rg.DEV_RESET % 0x1000) 3 true m)))) ∧
    (∃ u, Machine.exec .porst s = .next u ∧ SupplyGone s u ∧ u.dev.ket.tripped = false ∧ u.dev.caddy.journal = s.dev.caddy.journal) ∧
    (on → ∃ u, Machine.exec .enLow s = .next u ∧ SupplyGone s u ∧ DirtyWritten s u ∧ Logged u 2 ∧ u.dev.ket.tripped = false) ∧
    (s.dev.ket.off = true → ∃ u, Machine.exec .enLow s = .next u ∧ u.mem = [] ∧ u.dev = { s.dev with ket := { s.dev.ket with tripped := false } })) ∧
  (∀ c : Caddy,
    (c.snap0 = none → c.snap1 = none → keptStored c = none) ∧
    (∀ a b, c.snap0 = some a → c.snap1 = some b → ∃ k x, lastSnap c = some (k, x) ∧ (x = a ∨ x = b) ∧ a.seq ≤ x.seq ∧ b.seq ≤ x.seq) ∧
    (∀ k x, lastSnap c = some (k, x) → (c.journal = [] → keptStored c = some x.kept) ∧
      (∀ p l, c.journal = p :: l → p.seq ≠ x.upTo + 1 → (∀ q ∈ l, q.seq ≠ x.upTo + 1) → keptStored c = some x.kept) ∧
      (∀ p a w v, c.journal = [p] → p.seq = x.upTo + 1 → p.recs = [(a, w, v)] → ∃ t, keptStored c = some t ∧
        tget keptFactory t a = merged (tget keptFactory x.kept a) w v ∧ ∀ b, b ≠ a → tget keptFactory t b = tget keptFactory x.kept b)))

/-! ## Caddy -/

/-- The dirty set goes into the next journal pages, each no larger than a page of 4 KiB holds, or, after a FACTORY start, into a snapshot. -/
def Sys2Proof.Terms.JournalTakes (s u : State) : Prop :=
  let c := s.dev.caddy
  let v := u.dev.caddy
  OnlyDev s u ∧ v.dirty = [] ∧ (c.dirty = [] → v.journal = c.journal ∧ v.jseq = c.jseq) ∧
    (c.dirty ≠ [] → c.fresh = false → ∃ l : List JPage, l ≠ [] ∧ v.journal = c.journal ++ l ∧ v.jseq = c.jseq + l.length ∧
      l.map (·.seq) = List.range' (c.jseq + 1) l.length ∧ (∀ p ∈ l, p.recs ≠ [] ∧ p.recs.length ≤ recsPerPage) ∧
      l.flatMap (·.recs) = c.dirty.map (fun e => (e.1, e.2, keptVal s.dev e.1 &&& e.2)) ∧
      rd u.dev Rg.CDY_JRNL_SEQ = BitVec.ofNat 32 v.jseq ∧
      ctr u.dev Rg.CDY_JOURNAL_PAGES = ctr s.dev Rg.CDY_JOURNAL_PAGES + BitVec.ofNat _ l.length) ∧
    (c.dirty ≠ [] → c.fresh = true → v.fresh = false ∧ ∃ x, (v.snap0 = some x ∨ v.snap1 = some x) ∧ x.seq = c.sseq + 1 ∧ x.kept = keptNow s.dev)
/-- A write of `m` at `a` is a reserved value: RSVD_VALUE, and nothing else. -/
def Sys2Proof.Terms.Reserved (s u : State) (a : Nat) (m : Master) : Prop := PageTo s u (Rg.pageOf a) (withErr (a % 0x1000) 3 true m)

/-- R475 to R477, R479 to R481, R485, R487, R497. Caddy programs due pages within its budget and SYNC and flushes beside it; snapshots,
configuration saves and checkpoints start when asked or due and go to the other area; ERASE needs its key; a failed block counts;
the firmware store and the live handover go through their states. -/
def Obligations.CaddyKeepsWhatItIsToldTo : Prop :=
  ∀ s : State,
    let on := s.dev.ket.off = false
    let c := s.dev.caddy
    let now := nowNs s.dev
    let only (k : Caddy) : State := { s with dev := { s.dev with caddy := k } }
    let adm (m : Master) : Prop := Admits s.dev (Rg.pageOf Rg.CDY_CMD) m
    (s.dev.ket.off = true ∨ pageDue s.dev = false → Machine.exec .journalProgram s = .next s) ∧
    (on → pageDue s.dev = true → overBudget s.dev = false → ∃ u, Machine.exec .journalProgram s = .next u ∧ JournalTakes s u) ∧
    (on → pageDue s.dev = true → overBudget s.dev = true → (c.deferred = true → Machine.exec .journalProgram s = .next s) ∧
      (c.deferred = false → ∃ u, Machine.exec .journalProgram s = .next u ∧ OnlyDev s u ∧ u.dev.caddy = { c with deferred := true } ∧
        ctr u.dev Rg.CDY_DEFERRED = ctr s.dev Rg.CDY_DEFERRED + 1)) ∧
    (c.flushWant = false → Machine.exec .flush s = .next s) ∧
    (c.flushWant = true → ∃ u, Machine.exec .flush s = .next u ∧ JournalTakes s u ∧ u.dev.caddy.flushWant = false) ∧
    (∀ m, adm m → ∃ u, Machine.exec (.sync m) s = .next u ∧ JournalTakes s u) ∧
    (let ready := c.snapping = none ∧ ∀ t, c.snapAt = some t → 10000000000 ≤ elapsed now t
     let begun := only { c with snapping := some ⟨c.sseq + 1, c.jseq, keptNow s.dev⟩, snapAt := some now, snapWant := false }
     let want := pageSince s.dev = true ∨ c.snapWant = true
     (∀ m, adm m → (ready → Machine.exec (.snapshot m) s = .next begun) ∧ (¬ready → Machine.exec (.snapshot m) s = .next (only { c with snapWant := true }))) ∧
     (on → ready → want → Machine.exec .autoSnapshot s = .next begun) ∧
     (s.dev.ket.off = true ∨ ¬ready ∨ ¬want → Machine.exec .autoSnapshot s = .next s)) ∧
    (c.snapping = none → Machine.exec .snapshotCommitted s = .next s) ∧
    (∀ x, c.snapping = some x → ∃ u, Machine.exec .snapshotCommitted s = .next u ∧ OnlyDev s u ∧ u.dev.caddy.snapping = none ∧
      (∀ y, lastSnap c = some (false, y) → u.dev.caddy.snap0 = c.snap0 ∧ u.dev.caddy.snap1 = some x) ∧
      (lastSnap c = none ∨ (∃ y, lastSnap c = some (true, y)) → u.dev.caddy.snap0 = some x ∧ u.dev.caddy.snap1 = c.snap1) ∧
      u.dev.caddy.journal = c.journal.filter (fun p => decide (x.upTo < p.seq)) ∧ rd u.dev Rg.CDY_SNAP_SEQ = BitVec.ofNat 32 x.seq ∧
      ctr u.dev Rg.CDY_SNAPSHOTS = ctr s.dev Rg.CDY_SNAPSHOTS + 1 ∧ (page u.dev (Rg.pageOf Rg.baseCDY)).intStatus.getLsbD 0 = true) ∧
    (let saved (u : State) : Prop := OnlyDev s u ∧ u.dev.caddy.cfgDirty = false ∧ u.dev.caddy.saveWant = false ∧ u.dev.caddy.saves = now :: c.saves ∧
       ctr u.dev Rg.CDY_CFG_SAVES = ctr s.dev Rg.CDY_CFG_SAVES + 1 ∧
       ∃ x : CfgSave, x.edit = s.dev.egr.editMem ∧ x.groups = s.dev.egr.groups ∧ x.members = s.dev.egr.members ∧
         lastSave u.dev.caddy = some ((match lastSave c with | some (b, _) => !b | none => false), x)
     let free := ∀ t ∈ c.saves, 60000000000 ≤ elapsed now t
     (∀ m, adm m → (free → ∃ u, Machine.exec (.saveCfg m) s = .next u ∧ saved u) ∧
       (¬free → Machine.exec (.saveCfg m) s = .next (only { c with saveWant := true }))) ∧
     (c.saveWant = true → free → ∃ u, Machine.exec .autoCfgSave s = .next u ∧ saved u) ∧
     (on → (c.saveWant = false ∨ ¬free) → autoSaveDue s.dev = true → ∃ u, Machine.exec .autoCfgSave s = .next u ∧ saved u ∧ u.dev.caddy.autoAt = some now) ∧
     (c.saveWant = false ∨ ¬free → s.dev.ket.off = true ∨ autoSaveDue s.dev = false → Machine.exec .autoCfgSave s = .next s)) ∧
    (let en := rb s.dev Rg.CDY_CTRL Fl.CDY_CTRL_CKPT_EN = true
     let due := ∀ t, c.ckptAt = some t → rf s.dev Rg.CDY_CTRL Fl.CDY_CTRL_CKPT_MIN * 60000000000 ≤ elapsed now t
     let taken (u : State) : Prop := OnlyDev s u ∧ lastCkpt u.dev.caddy = some (takeCkpt s.dev) ∧ u.dev.caddy.ckptAt = some now ∧
       ctr u.dev Rg.CDY_CHECKPOINTS = ctr s.dev Rg.CDY_CHECKPOINTS + 1
     (∀ m, adm m → (¬en → Machine.exec (.checkpoint m) s = .next s) ∧ (en → due → ∃ u, Machine.exec (.checkpoint m) s = .next u ∧ taken u) ∧
       (en → ¬due → Machine.exec (.checkpoint m) s = .next (only { c with ckptWant := true }))) ∧
     (on → en → due → ∃ u, Machine.exec .autoCheckpoint s = .next u ∧ taken u) ∧
     (s.dev.ket.off = true ∨ ¬en ∨ ¬due → Machine.exec .autoCheckpoint s = .next s)) ∧
    (∀ m, adm m → (∃ k, Machine.exec (.erase m 0xE5) s = .next (only k) ∧ k.snap0 = none ∧ k.snap1 = none ∧ k.journal = [] ∧ k.cfg0 = none ∧
        k.cfg1 = none ∧ k.ckpt0 = none ∧ k.ckpt1 = none ∧ k.images = [] ∧ k.imgValid = 0 ∧ k.log = c.log) ∧
      ∀ key, key ≠ 0xE5 → ∃ u, Machine.exec (.erase m key) s = .next u ∧ Reserved s u Rg.CDY_CMD m) ∧
    (∀ b, (s.dev.ket.off = true → Machine.exec (.badBlock b) s = .next s) ∧ (on → ∃ u, Machine.exec (.badBlock b) s = .next u ∧ OnlyDev s u ∧
      ctr u.dev Rg.CDY_PROG_FAIL = ctr s.dev Rg.CDY_PROG_FAIL + 1 ∧ ctr u.dev Rg.CDY_BAD_BLOCKS = ctr s.dev Rg.CDY_BAD_BLOCKS + 1 ∧
      (page u.dev (Rg.pageOf Rg.baseCDY)).intStatus.getLsbD 1 = true)) ∧
    (let r := Rg.CDY_FW_CTRL
     let st := rf s.dev r Fl.CDY_FW_CTRL_STATE
     let goes (u : State) (n : Nat) : Prop := OnlyDev s u ∧ rf u.dev r Fl.CDY_FW_CTRL_STATE = n ∧ (n ≠ st → (page u.dev (Rg.pageOf Rg.baseCDY)).intStatus.getLsbD 3 = true)
     (∀ m, Admits s.dev (Rg.pageOf r) m →
       (st = 1 ∨ st = 4 → ∃ u, Machine.exec (.store m) s = .next u ∧ Reserved s u r m) ∧
       (st ≠ 1 → st ≠ 4 → ∃ u, Machine.exec (.store m) s = .next u ∧ goes u 1) ∧
       (st ≠ 2 → ∃ u, Machine.exec (.switch m) s = .next u ∧ Reserved s u r m) ∧
       (st = 2 → ∃ u, Machine.exec (.switch m) s = .next u ∧ goes u 4 ∧ rb u.dev Rg.MGT_FW Fl.MGT_FW_READY = false ∧
         u.dev.caddy = { c with switchAt := some now, readyAt := none })) ∧
     (∀ ok v, (st ≠ 1 → Machine.exec (.storeDone ok v) s = .next s) ∧
       (st = 1 → ∃ u, Machine.exec (.storeDone ok v) s = .next u ∧ goes u (if ok then 2 else 3) ∧
         (ok = true → copyVersion u.dev.caddy (!runningCopy s.dev) = v ∧ copyVersion u.dev.caddy (runningCopy s.dev) = copyVersion c (runningCopy s.dev)))) ∧
     (st ≠ 4 → Machine.exec .handoverDone s = .next s) ∧
     (st = 4 → c.readyAt = none → ∃ u, Machine.exec .handoverDone s = .next u ∧ goes u 4 ∧ runningCopy u.dev = !runningCopy s.dev ∧
       rb u.dev Rg.MGT_FW Fl.MGT_FW_READY = true ∧ rd u.dev Rg.MGT_FW_VERSION = copyVersion c (!runningCopy s.dev) ∧ u.dev.caddy.readyAt = some now) ∧
     (∀ t, st = 4 → c.readyAt = some t → (elapsed now t < 10000000000 → Machine.exec .handoverDone s = .next s) ∧
       (10000000000 ≤ elapsed now t → ∃ u, Machine.exec .handoverDone s = .next u ∧ goes u 0 ∧ u.dev.caddy.bootCopy = runningCopy s.dev ∧
         rb u.dev r Fl.CDY_FW_CTRL_BOOT_COPY = runningCopy s.dev ∧ Logged u 7)) ∧
     (∀ t, st = 4 → c.readyAt = none → c.switchAt = some t → (elapsed now t < 2000000000 → Machine.exec .handoverRevert s = .next s) ∧
       (2000000000 ≤ elapsed now t → ∃ u, Machine.exec .handoverRevert s = .next u ∧ goes u 5 ∧ rb u.dev Rg.MGT_FW Fl.MGT_FW_READY = true ∧ Logged u 8)) ∧
     (st ≠ 4 ∨ c.readyAt ≠ none ∨ c.switchAt = none → Machine.exec .handoverRevert s = .next s))

/-! ## The twin pair and telemetry -/

/-- R488 to R494. Heartbeats go out every 10 µs while the link is UP and name the acting role; a loss of heartbeats leaves PAIRED for
SPLIT or PARTNER_LOST by TWIN_ALIVE_IN; the secondary blocks its dual-homed ports in JOINING and SPLIT; a sync record that prevails is
applied to the master and one that loses is counted; reconciliation leads to PAIRED. -/
def Sys2Proof.Terms.TwinRules (s : State) : Prop :=
  let on := s.dev.ket.off = false
  let st := twinState s.dev
  let w := s.dev.twin
  let now := nowNs s.dev
  let en := twinEn s.dev = true
  let up := twinLinkUp s.dev = true
  let blocks (u : State) : Prop := actsPrimary u.dev = false → (twinState u.dev = 1 ∨ twinState u.dev = 3) → ∀ p, p < 256 → dualPort s.dev p = true →
    (port u.dev p).blocked = true
  let event (u : Dev) (n : Nat) : Prop := (page u (Rg.pageOf Rg.baseTWN)).intStatus.getLsbD n = true
  let enters (u : State) (n : Nat) : Prop := OnlyDev s u ∧ twinState u.dev = n ∧ blocks u ∧ event u.dev 0 ∧
    (n = 3 → ctr u.dev Rg.TWN_SPLITS = ctr s.dev Rg.TWN_SPLITS + 1 ∧ Logged u 10) ∧
    (n = 4 → ctr u.dev Rg.TWN_PARTNER_LOSTS = ctr s.dev Rg.TWN_PARTNER_LOSTS + 1 ∧ Logged u 11)
  (let due := on ∧ en ∧ up ∧ ∀ t, w.sentAt = some t → 10000 ≤ elapsed now t
   (due → Machine.exec .heartbeatSend s = .next { s with dev := { s.dev with twin := { w with sentAt := some now }, out := s.dev.out ++
     [.heartbeat st (strapPrimary s.dev) Config.serial w.own.length] } }) ∧
   (¬due → Machine.exec .heartbeatSend s = .next s)) ∧
  (∀ (x : Nat) (primary : Bool) (serial : W64) (n : Nat),
    (¬on ∨ ¬en ∨ ¬up → Machine.exec (.heartbeat x primary serial n) s = .next s) ∧
    (on → en → up → ∃ u, Machine.exec (.heartbeat x primary serial n) s = .next u ∧ OnlyDev s u ∧ blocks u ∧
      u.dev.twin.hbAt = some now ∧ u.dev.twin.partner = n ∧ ctr u.dev Rg.TWN_HB_RX = ctr s.dev Rg.TWN_HB_RX + 1 ∧
      rd64 u.dev Rg.TWN_PARTNER_LO Rg.TWN_PARTNER_HI = serial.toNat ∧
      rb u.dev Rg.TWN_STATUS Fl.TWN_STATUS_ROLE_CONFLICT = (primary == strapPrimary s.dev) ∧
      actsPrimary u.dev = (if primary = strapPrimary s.dev then decide (Config.serial.toNat < serial.toNat) else strapPrimary s.dev) ∧
      (primary = strapPrimary s.dev → rb s.dev Rg.TWN_STATUS Fl.TWN_STATUS_ROLE_CONFLICT = false → event u.dev 1) ∧
      twinState u.dev = (if st = 3 ∨ st = 4 then 1 else st) ∧ (st = 3 ∨ st = 4 → event u.dev 0 ∧ u.dev.twin.joinAt = now))) ∧
  (let due := on ∧ st = 2 ∧ ∃ t, w.hbAt = some t ∧ t + 30000 ≤ now
   (due → ∃ u, Machine.exec .heartbeatLoss s = .next u ∧ enters u (if twinAlive s.dev then 3 else 4) ∧ twinLinkUp u.dev = false ∧
     rd u.dev Rg.TWN_LANES = 0 ∧ u.dev.twin.left = true ∧ u.dev.twin.hbAt = none ∧ u.dev.twin.own = (latestOf w.own).take 65536) ∧
   (¬due → Machine.exec .heartbeatLoss s = .next s)) ∧
  (∀ a : Bool, ∃ u, Machine.exec (.aliveChange a) s = .next u ∧ twinAlive u.dev = a ∧
    (on → en → a = true → st = 4 → enters u 1) ∧ (on → en → a = false → st = 3 → enters u 4) ∧
    (¬on ∨ ¬en ∨ ¬(a = true ∧ st = 4) ∧ ¬(a = false ∧ st = 3) → OnlyDev s u ∧ twinState u.dev = st ∧ ∀ b, b ≠ Rg.TWN_STATUS → rd u.dev b = rd s.dev b)) ∧
  (let due := on ∧ st = 1 ∧ rf s.dev Rg.TWN_CTRL Fl.TWN_CTRL_JOIN_MS * 1000000 ≤ elapsed now w.joinAt
   (due → ∃ u, Machine.exec .joinTimeout s = .next u ∧ enters u (if twinAlive s.dev then 3 else 4)) ∧
   (¬due → Machine.exec .joinTimeout s = .next s)) ∧
  (∀ lanes : BitVec 16,
    let four (l : Nat) : Prop := 4 ≤ ((List.range 8).filter (fun i => l.testBit i)).length
    let due := on ∧ (st = 1 ∨ st = 3 ∨ st = 4) ∧ ¬up ∧ rf s.dev Rg.TWN_CTRL Fl.TWN_CTRL_RETRY_MS * 1000000 ≤ elapsed now w.retryAt
    (due → ∃ u, Machine.exec (.twinRetry lanes) s = .next u ∧ OnlyDev s u ∧ rd u.dev Rg.TWN_LANES = lanes.setWidth 32 ∧ u.dev.twin.retryAt = now ∧
      (twinLinkUp u.dev = true ↔ four (lanes.toNat % 256) ∧ four (lanes.toNat / 256)) ∧ twinState u.dev = st) ∧
    (¬due → Machine.exec (.twinRetry lanes) s = .next s)) ∧
  (∀ r : SyncRec,
    let counted (d : Dev) : Prop := ctr d Rg.TWN_SYNC_RX = ctr s.dev Rg.TWN_SYNC_RX + 1
    let mine := w.own.filter (fun y => y.tbl == r.tbl && y.key == r.key)
    let takes (o : SyncRec) : Prop := o.time < r.time ∨ (o.time = r.time ∧ actsPrimary s.dev = false)
    let known := r.tbl < 32 ∧ (descAt s.dev 0 r.tbl).repl = true ∧ (rd s.dev Rg.TWN_SYNC).toNat.testBit r.tbl = true
    (¬on ∨ st ≠ 2 → Calm s.dev → Machine.exec (.syncRecord r) s = .next s) ∧
    (on → st = 2 → mine = [] → Machine.exec (.syncRecord r) s = .next { s with dev := settle (applyRec (bump s.dev Rg.TWN_SYNC_RX 1) r) }) ∧
    (on → st = 2 → mine = [] → ¬known → ∃ d, Machine.exec (.syncRecord r) s = .next { s with dev := settle d } ∧ counted d ∧ d.tbl = s.dev.tbl) ∧
    (∀ l o, on → st = 2 → mine = l ++ [o] →
      (takes o → Machine.exec (.syncRecord r) s = .next { s with dev := settle (applyRec (bump (bump s.dev Rg.TWN_SYNC_RX 1) Rg.TWN_SYNC_SUPERSEDED 1) r) }) ∧
      (¬takes o → ∃ d, Machine.exec (.syncRecord r) s = .next { s with dev := settle d } ∧ counted d ∧ d.tbl = s.dev.tbl ∧
        ctr d Rg.TWN_SYNC_SUPERSEDED = ctr s.dev Rg.TWN_SYNC_SUPERSEDED + 1))) ∧
  (st = 2 → Machine.exec .syncAcknowledgement s = .next { s with dev := { s.dev with twin := { w with own := w.own.tail } } }) ∧
  (st ≠ 2 → Machine.exec .syncAcknowledgement s = .next s) ∧
  (∀ (l : List SyncRec) (whole : Bool),
    (¬on ∨ st ≠ 1 ∨ ¬up → Calm s.dev → Machine.exec (.reconciled l whole) s = .next s) ∧
    (on → st = 1 → up → ∃ d, Machine.exec (.reconciled l whole) s = .next { s with dev := settle d } ∧ twinState d = 2 ∧ event d 0 ∧ event d 3 ∧
      rb d Rg.TWN_STATUS Fl.TWN_STATUS_JOURNAL_OVF = false ∧ d.twin.own = [] ∧ d.twin.left = false ∧
      (whole = true → actsPrimary s.dev = true → d.tbl = s.dev.tbl)))

/-- R505 to R511. A sample takes its number and, unless an export runs, one record of each active probe; its export counts each record,
posts it to event ring 1 and writes it to the history buffer, whose first wrap is an event. -/
def Sys2Proof.Terms.TelemetryRules (s : State) : Prop :=
  let quiet (c : Instr) : Prop := Machine.exec c s = .next s
  let seq := (s.dev.tel.seq + 1) % 2 ^ 24
  let now := nowNs s.dev
  let host : Nat := rf s.dev Rg.TEL_CTRL Fl.TEL_CTRL_HOST
  let skipped (d : Dev) : Prop := ctr d Rg.TEL_SKIPPED = ctr s.dev Rg.TEL_SKIPPED + 1 ∧ ctr d Rg.TEL_SAMPLES = ctr s.dev Rg.TEL_SAMPLES ∧
    d.tel.seq = seq ∧ d.tel.job = s.dev.tel.job ∧ (page d (Rg.pageOf Rg.baseTEL)).intStatus.getLsbD 2 = true
  let sampled (d : Dev) : Prop := ctr d Rg.TEL_SAMPLES = ctr s.dev Rg.TEL_SAMPLES + 1 ∧ rf d Rg.TEL_STATUS Fl.TEL_STATUS_SEQ = seq ∧ d.tel.seq = seq ∧
    ((∀ j, j < 64 → probeKind s.dev j = 0) → d.tel.job = none) ∧
    (∀ j i, j < 64 → i < 5 → (∀ k, k < 64 → k ≠ j → probeKind s.dev k = 0) → probeKind s.dev j = 9 → probeMode s.dev j = 0 → probeIndex s.dev j = i →
      probeStale s.dev j = false → s.dev.tel.fresh.testBit j = false → rd64 s.dev (Rg.TEL_ALERT_LO j) (Rg.TEL_ALERT_HI j) = 0 →
      d.tel.job = some [[BitVec.ofNat 32 (j + 9 * 64), BitVec.ofNat 32 i, BitVec.ofNat 32 (level s.dev i), 0, BitVec.ofNat 32 now,
        BitVec.ofNat 32 (now / 2 ^ 32), BitVec.ofNat 32 seq, 0x04000000]])
  let taken (c : Instr) (b : Nat) : Prop := ∃ d, Machine.exec c s = .next { s with dev := settle d } ∧ d.tel.boundary = b ∧
    (s.dev.tel.job ≠ none → skipped d) ∧ (s.dev.tel.job = none → sampled d)
  (let p := telPeriod s.dev
   let last := min s.dev.tel.boundary now
   let due := s.dev.ket.off = false ∧ rb s.dev Rg.TEL_CTRL Fl.TEL_CTRL_EN = true ∧ p ≠ 0 ∧ last < now / p * p
   (due → taken .sample now) ∧ (¬due → Calm s.dev → quiet .sample)) ∧
  (∀ m, Admits s.dev (Rg.pageOf Rg.TEL_CMD) m → taken (.sampleNow m) s.dev.tel.boundary ∧
    ∃ u, Machine.exec (.clearWm m) s = .next u ∧ OnlyDev s u ∧ (∀ z v, voq u.dev z v = { voq s.dev z v with most := 0 }) ∧ u.dev.regs = s.dev.regs) ∧
  (Calm s.dev →
    (s.dev.tel.job = none → quiet .exportDone) ∧
    (inD3 s.dev host = true → ringEnabled s.dev host 3 1 = true → quiet .exportDone) ∧
    (∀ w : List W32, s.dev.tel.job = some [w] → w.length = 8 →
      let done (u : State) : Prop := u.pending = s.pending ∧ u.dev.tel.job = none ∧ ctr u.dev Rg.TEL_EXPORTED = ctr s.dev Rg.TEL_EXPORTED + 1
      let size := rf s.dev Rg.TEL_HBM_SIZE Fl.TEL_HBM_SIZE_HBM_SIZE
      let n := (rd s.dev Rg.TEL_HBM_WPTR).toNat
      let at_ := rf s.dev Rg.TEL_HBM_BASE Fl.TEL_HBM_BASE_HBM_BASE * 2 ^ 20 + 32 * (n % (size * 2 ^ 20 / 32))
      let used := rb s.dev Rg.TEL_CTRL Fl.TEL_CTRL_HBM_EN = true ∧ size ≠ 0
      (ringEnabled s.dev host 3 1 = false → ¬used → ∃ u, Machine.exec .exportDone s = .next u ∧ done u ∧ u.mem = s.mem) ∧
      (ringEnabled s.dev host 3 1 = false → used → hbmLost s.dev at_ = false →
        ∃ u, Machine.exec .exportDone s = .next u ∧ done u ∧ u.mem.readN at_ 32 = wordsBytes w ∧
          (∀ b, ¬(at_ ≤ b ∧ b < at_ + 32) → u.mem.read b = s.mem.read b) ∧ rd u.dev Rg.TEL_HBM_WPTR = BitVec.ofNat 32 (n + 1) ∧
          (n = size * 2 ^ 20 / 32 → (page u.dev (Rg.pageOf Rg.baseTEL)).intStatus.getLsbD 3 = true)) ∧
      (inD3 s.dev host = false → ringEnabled s.dev host 3 1 = true → ringHeld s.dev host 3 1 = false → ¬used →
        (ringConsumed s.dev host 3 1 + 65536 - ringDoorbell s.dev host 3 1) % 65536 ≠ ringSize s.dev host 3 1 →
        ∃ u a ws, Machine.exec .exportDone s = .next u ∧ done u ∧ u.mem = s.mem ∧ .hostWrite host a ws ∈ u.dev.out ∧ ws.take 7 = w.take 7 ∧
          ws.length = 8))) ∧
  (∀ (z : Zone) (k : Fin 26) (m : Master), Admits s.dev (Rg.pageOf (Rg.TEL_PMC_CTRL z k)) m → let cid := 32 * z.val + k.val
    (∃ u, Machine.exec (.pmcClear z k m) s = .next u ∧ OnlyDev s u ∧ (∀ i, i < 4 → rd u.dev (pmcAddr cid i) = 0) ∧
      ∀ a, (∀ i, i < 4 → a ≠ pmcAddr cid i) → rd u.dev a = rd s.dev a) ∧
    (∃ x, Machine.exec (.unfreeze z k m) s = .next { s with dev := { s.dev with tel := { s.dev.tel with frozen := x } } } ∧
      ∀ i, x.testBit i = (s.dev.tel.frozen.testBit i && decide (i ≠ pmcBit cid))))

/-- R488 to R494, R505 to R511. The twin pair and telemetry. -/
def Obligations.TwinAndTelemetryFollowTheirRules : Prop := ∀ s : State, TwinRules s ∧ TelemetryRules s

/-! ## The whole block -/

/-- A step runs the front command on the state with the rest of the queue. With an empty queue one MC cycle passes (DESIGN CHOICE, log 2):
R444, R446. The timebase advances by the rate in force, twice while the module coasts, or takes the step that waits; the rate of the
registers is in force from the next advance on; a module that is off stands still. -/
def Obligations.StepRunsTheFrontCommand : Prop :=
  (∀ (s : State) (c : Instr) (l : List Instr), s.pending = c :: l → Machine.step s = Machine.exec c { s with pending := l }) ∧
  (∀ s : State, s.pending = [] →
    (s.dev.ket.off = true → Machine.step s = .next s) ∧
    (s.dev.ket.off = false → ∃ u, Machine.step s = .next u ∧ OnlyDev s u ∧ u.dev.mc = s.dev.mc + 1 ∧ u.dev.tbStep = none ∧
      u.dev.ket.rate = rd64 s.dev Rg.TB_RATE_LO Rg.TB_RATE_HI % 2 ^ 40 ∧
      let adv := if coasting s.dev then 2 * s.dev.ket.rate else s.dev.ket.rate
      (s.dev.tbStep = none → u.dev.tb = (s.dev.tb + adv) % 2 ^ 96) ∧
      (∀ v, s.dev.tbStep = some (.set v) → u.dev.tb = v % 2 ^ 96) ∧
      (∀ n, s.dev.tbStep = some (.adjust n) → (u.dev.tb : Int) = ((s.dev.tb : Int) + adv + n * 2 ^ 32) % 2 ^ 96)))

/-- The module before power: every register holds its Factory value, some of which are named here (R461 to R467, R501), no page is READY,
every count is 0, nothing waits, memory lists nothing and is in its canonical form. That the module starts off and that HBM reads 0 where
nothing is listed are the model's choices (logs 2 and 3). -/
def Obligations.ResetHoldsTheFactoryValues : Prop :=
  let s := Machine.State.reset
  s.Inv ∧ s.pending = [] ∧ Calm s.dev ∧ (∀ a, s.mem.read a = 0) ∧ s.dev.ket.off = true ∧ s.dev.tb = 0 ∧ s.dev.out = [] ∧
    (∀ a, rd s.dev a = factory a ∧ ctr s.dev a = 0) ∧ (∀ p, (page s.dev p).ready = false ∧ (page s.dev p).hold = false ∧ (page s.dev p).err = 0) ∧
    (∀ c t, thr s.dev c t = {}) ∧ (∀ n, src s.dev n = {}) ∧
    rd s.dev Rg.TB_RATE_LO = 0x1EB851EB ∧ rd s.dev Rg.TB_RATE_HI = 5 ∧ rd s.dev Rg.CLK_CTRL = 4 ∧ rd s.dev Rg.CLK_SLEEP_EN = 4 ∧
    rf s.dev Rg.PWR_VIN Fl.PWR_VIN_MIN_MV = 0xFFFF ∧ rf s.dev Rg.PWR_CAP Fl.PWR_CAP_CAP_W = 820 ∧
    rd s.dev Rg.PWR_DIE_T = 0x6C69645F ∧ rd s.dev Rg.PWR_HBM_T = 0x67645F5A ∧ rf s.dev Rg.PWR_THYST Fl.PWR_THYST_HYST = 3 ∧
    rf s.dev Rg.IC_CTRL Fl.IC_CTRL_EN = 1

/-- Every step answers a next state; no command touches the queue of those that wait; and a step keeps memory in its canonical form:
addresses strictly rising, no entry that holds what an unlisted address reads as. -/
def Obligations.EveryStepKeepsMemoryCanonical : Prop :=
  (∀ s : State, s.safe) ∧ (∀ (c : Instr) (s t : State), Machine.exec c s = .next t → t.pending = s.pending) ∧
  (∀ s t : State, s.Inv → Machine.step s = .next t → t.Inv)
end

