-- ==== Sys2Proof/Laws/Tab.lean ====
section
/-!
SUPPORT. The laws of a sparse store: a read after a write gives the value written and every other key reads as before,
and a write keeps the canonical form.
-/

namespace Sys2Proof.Machine

variable {α : Type}

theorem lookup_pair (a : Nat) (b : α) (r : Tab α) (j : Nat) :
    ((a, b) :: r).lookup j = if j = a then some b else r.lookup j := by
  rw [List.lookup_cons]
  by_cases h : j = a
  · simp [h]
  · rw [beq_eq_false_iff_ne.mpr h, if_neg h]

theorem lookup_tput (k : Nat) (v : α) (t : Tab α) (j : Nat) :
    (tput k v t).lookup j = if j = k then some v else t.lookup j := by
  induction t with
  | nil => simp [tput, lookup_pair]
  | cons e r ih =>
    obtain ⟨a, b⟩ := e
    rcases lt_trichotomy k a with h | h | h
    · simp only [tput, h, if_true, lookup_pair]
    · subst h
      simp only [tput, lt_irrefl, if_false, if_true, lookup_pair]
      split_ifs <;> rfl
    · have h1 : ¬k < a := by omega
      have h2 : ¬k = a := by omega
      simp only [tput, h1, h2, if_false, lookup_pair, ih]
      split_ifs with h3 h4
      · omega
      · rfl
      · rfl
      · rfl

theorem lookup_tdrop (k : Nat) (t : Tab α) (j : Nat) :
    (tdrop k t).lookup j = if j = k then none else t.lookup j := by
  induction t with
  | nil => simp [tdrop]
  | cons e r ih =>
    obtain ⟨a, b⟩ := e
    simp only [tdrop] at ih
    by_cases ha : a = k
    · subst ha
      simp only [tdrop, List.filter_cons, bne_self_eq_false, Bool.false_eq_true, if_false, ih, lookup_pair]
      split_ifs <;> rfl
    · simp only [tdrop, List.filter_cons, bne_iff_ne.mpr ha, if_true, ih, lookup_pair]
      split_ifs with h1 h2
      · omega
      · rfl
      · rfl
      · rfl

/-- A read after a write: the value written at its key, the old value at every other key. -/
theorem tget_tset [DecidableEq α] (d : Nat → α) (t : Tab α) (k : Nat) (v : α) (j : Nat) :
    tget d (tset d t k v) j = if j = k then v else tget d t j := by
  unfold tget tset
  split_ifs with h1 h2 h2
  · simp [lookup_tdrop, h2, h1]
  · simp [lookup_tdrop, h2]
  · simp [lookup_tput, h2]
  · simp [lookup_tput, h2]

@[simp] theorem tget_tset_same [DecidableEq α] (d : Nat → α) (t : Tab α) (k : Nat) (v : α) :
    tget d (tset d t k v) k = v := by simp [tget_tset]

theorem tget_tset_ne [DecidableEq α] (d : Nat → α) (t : Tab α) {k j : Nat} (v : α) (h : j ≠ k) :
    tget d (tset d t k v) j = tget d t j := by simp [tget_tset, h]

theorem tget_tmod [DecidableEq α] (d : Nat → α) (t : Tab α) (k : Nat) (f : α → α) (j : Nat) :
    tget d (tmod d t k f) j = if j = k then f (tget d t k) else tget d t j := by
  simp only [tmod, tget_tset]

@[simp] theorem tget_tmod_same [DecidableEq α] (d : Nat → α) (t : Tab α) (k : Nat) (f : α → α) :
    tget d (tmod d t k f) k = f (tget d t k) := by simp [tget_tmod]

theorem tget_tmod_ne [DecidableEq α] (d : Nat → α) (t : Tab α) {k j : Nat} (f : α → α) (h : j ≠ k) :
    tget d (tmod d t k f) j = tget d t j := by simp [tget_tmod, h]

@[simp] theorem tget_nil (d : Nat → α) (k : Nat) : tget d [] k = d k := rfl

/-- Every key of the store is above `a`. -/
def keysAbove (a : Nat) (t : Tab α) : Prop := ∀ e ∈ t, a < e.1

theorem rising_cons {a : Nat} {b : α} {t : Tab α} : rising ((a, b) :: t) = true ↔ keysAbove a t ∧ rising t = true := by
  induction t generalizing a b with
  | nil => simp [rising, keysAbove]
  | cons e r ih =>
    obtain ⟨c, w⟩ := e
    rw [rising]
    simp only [Bool.and_eq_true, decide_eq_true_eq]
    constructor
    · rintro ⟨h, hr⟩
      refine ⟨?_, hr⟩
      intro e he
      rcases List.mem_cons.mp he with rfl | he
      · exact h
      · exact lt_trans h ((ih.mp hr).1 e he)
    · rintro ⟨h, hr⟩
      exact ⟨h (c, w) (by simp), hr⟩

theorem keysAbove_tput {a k : Nat} {v : α} {t : Tab α} (h : keysAbove a t) (hk : a < k) : keysAbove a (tput k v t) := by
  induction t with
  | nil => simpa [tput, keysAbove] using hk
  | cons e r ih =>
    obtain ⟨c, w⟩ := e
    have hc : a < c := h (c, w) (by simp)
    have hr : keysAbove a r := fun e he => h e (by simp [he])
    simp only [tput]
    split_ifs
    · intro e he
      simp only [List.mem_cons] at he
      rcases he with rfl | rfl | he
      · exact hk
      · exact hc
      · exact hr e he
    · intro e he
      simp only [List.mem_cons] at he
      rcases he with rfl | he
      · exact hk
      · exact hr e he
    · intro e he
      simp only [List.mem_cons] at he
      rcases he with rfl | he
      · exact hc
      · exact ih hr e he

theorem rising_tput (k : Nat) (v : α) {t : Tab α} (h : rising t = true) : rising (tput k v t) = true := by
  induction t with
  | nil => simp [tput, rising]
  | cons e r ih =>
    obtain ⟨a, b⟩ := e
    obtain ⟨h1, h2⟩ := rising_cons.mp h
    simp only [tput]
    split_ifs with hk hk2
    · refine rising_cons.mpr ⟨?_, h⟩
      intro e he
      rcases List.mem_cons.mp he with rfl | he
      · exact hk
      · exact lt_trans hk (h1 e he)
    · subst hk2
      exact rising_cons.mpr ⟨h1, h2⟩
    · exact rising_cons.mpr ⟨keysAbove_tput h1 (by omega), ih h2⟩

theorem rising_filter (p : Nat × α → Bool) {t : Tab α} (h : rising t = true) : rising (t.filter p) = true := by
  induction t with
  | nil => simp [rising]
  | cons e r ih =>
    obtain ⟨a, b⟩ := e
    obtain ⟨h1, h2⟩ := rising_cons.mp h
    rw [List.filter_cons]
    split_ifs
    · exact rising_cons.mpr ⟨fun e he => h1 e (List.mem_filter.mp he).1, ih h2⟩
    · exact ih h2

theorem mem_tput {k : Nat} {v : α} {t : Tab α} {e : Nat × α} (h : e ∈ tput k v t) : e = (k, v) ∨ e ∈ t := by
  induction t with
  | nil => simpa [tput] using h
  | cons x r ih =>
    obtain ⟨a, b⟩ := x
    simp only [tput] at h
    split_ifs at h
    · simpa using h
    · simp only [List.mem_cons] at h ⊢
      rcases h with h | h
      · exact Or.inl h
      · exact Or.inr (Or.inr h)
    · simp only [List.mem_cons] at h ⊢
      rcases h with h | h
      · exact Or.inr (Or.inl h)
      · rcases ih h with h | h
        · exact Or.inl h
        · exact Or.inr (Or.inr h)

/-- A write keeps the canonical form. -/
theorem canon_tset [DecidableEq α] (d : Nat → α) (t : Tab α) (k : Nat) (v : α) (h : canon d t = true) :
    canon d (tset d t k v) = true := by
  simp only [canon, Bool.and_eq_true, List.all_eq_true, decide_eq_true_eq] at h ⊢
  obtain ⟨h1, h2⟩ := h
  unfold tset
  split_ifs with hv
  · exact ⟨rising_filter _ h1, fun e he => h2 e (List.mem_filter.mp he).1⟩
  · refine ⟨rising_tput k v h1, fun e he => ?_⟩
    rcases mem_tput he with rfl | he
    · exact hv
    · exact h2 e he

end Sys2Proof.Machine
end

