-- ==== Sys2Proof/Laws/State.lean ====
section
/-!
SUPPORT. Reading a part of the state after one of the named operations has changed it, and for each shared operation over
registers, counters, pages and event sources the one lemma that says which parts of the state it can change.
-/

namespace Sys2Proof.Machine
open Sys2Proof

/-! ## Registers, counters, pages, sources, outputs -/

theorem rd_wr (d : Dev) (a : Nat) (v : W32) (b : Nat) : rd (wr d a v) b = if b = a then v else rd d b := by
  simp only [rd, wr, tget_tset]
@[simp] theorem rd_wr_same (d : Dev) (a : Nat) (v : W32) : rd (wr d a v) a = v := by simp [rd_wr]
theorem rd_wr_ne (d : Dev) {a b : Nat} (v : W32) (h : b ≠ a) : rd (wr d a v) b = rd d b := by simp [rd_wr, h]
@[simp] theorem rd_wf_same (d : Dev) (a : Nat) (f : Fld) (x : Nat) : rd (wf d a f x) a = putF (rd d a) f x := by simp [wf]
theorem rd_wf_ne (d : Dev) {a b : Nat} (f : Fld) (x : Nat) (h : b ≠ a) : rd (wf d a f x) b = rd d b := by simp [wf, rd_wr, h]
theorem ctr_bump (d : Dev) (a n b : Nat) : ctr (bump d a n) b = if b = a then ctr d a + BitVec.ofNat 64 n else ctr d b := by
  simp only [ctr, bump, tget_tset]
@[simp] theorem ctr_bump_same (d : Dev) (a n : Nat) : ctr (bump d a n) a = ctr d a + BitVec.ofNat 64 n := by simp [ctr_bump]
theorem ctr_setCtr (d : Dev) (a : Nat) (v : W64) (b : Nat) : ctr (setCtr d a v) b = if b = a then v else ctr d b := by
  simp only [ctr, setCtr, tget_tset]
theorem page_modPage (d : Dev) (p : Nat) (f : PageSt → PageSt) (q : Nat) :
    page (modPage d p f) q = if q = p then f (page d p) else page d q := by simp only [page, modPage, tget_tmod]
@[simp] theorem page_modPage_same (d : Dev) (p : Nat) (f : PageSt → PageSt) : page (modPage d p f) p = f (page d p) := by
  simp [page_modPage]
theorem src_modSrc (d : Dev) (n : Nat) (f : Src → Src) (k : Nat) :
    src (modSrc d n f) k = if k = n then f (src d n) else src d k := by simp only [src, modSrc, tget_tmod]
@[simp] theorem src_modSrc_same (d : Dev) (n : Nat) (f : Src → Src) : src (modSrc d n f) n = f (src d n) := by simp [src_modSrc]
theorem coGroup_modGroup (d : Dev) (n : Nat) (f : CoGroup → CoGroup) (k : Nat) :
    coGroup (modGroup d n f) k = if k = n then f (coGroup d n) else coGroup d k := by simp only [coGroup, modGroup, tget_tmod]
theorem lnk_modLink (d : Dev) (z : Nat) (f : Link → Link) (y : Nat) :
    lnk (modLink d z f) y = if y = z then f (lnk d z) else lnk d y := by simp only [lnk, modLink, tget_tmod]
@[simp] theorem lnk_modLink_same (d : Dev) (z : Nat) (f : Link → Link) : lnk (modLink d z f) z = f (lnk d z) := by
  simp [lnk_modLink]
@[simp] theorem rdata_giveKey (d : Dev) (k : Nat) (v : W64) : tget zero64 (giveKey d k v).rdata k = v := by simp [giveKey]
@[simp] theorem emit_out (d : Dev) (o : Out) : (emit d o).out = d.out ++ [o] := rfl

/-! ## A field put into a register reads back -/

theorem getF_lt (v : W32) (f : Fld) : getF v f < 2 ^ (f.hi + 1 - f.lo) := Nat.mod_lt _ (Nat.two_pow_pos _)

/-! ## Which parts of the state an operation can change -/

theorem releaseGroup_shape (d : Dev) (g : Nat) : ∃ i, releaseGroup d g = { d with ic := i } := by
  have h : ∀ (l : List Nat) (d : Dev), ∃ i, l.foldl (fun d n => modSrc d n (fun s => { s with held := false, released := true })) d
      = { d with ic := i } := by
    intro l
    induction l with
    | nil => intro d; exact ⟨d.ic, rfl⟩
    | cons n l ih =>
      intro d
      obtain ⟨i, hi⟩ := ih (modSrc d n (fun s => { s with held := false, released := true }))
      exact ⟨i, by rw [List.foldl_cons, hi]; rfl⟩
  obtain ⟨i, hi⟩ := h (heldIn d g) d
  exact ⟨_, by rw [releaseGroup, hi]; rfl⟩

theorem coalesce_shape (d : Dev) (n : Nat) (e : Bool) : ∃ i, coalesce d n e = { d with ic := i } := by
  obtain ⟨i, hi⟩ := releaseGroup_shape d (rf d (Rg.SRC_CFG n) Fl.SRC_CFG_LOW_GROUP)
  unfold coalesce
  simp only [hi]
  repeat' split
  all_goals exact ⟨_, rfl⟩

theorem applyEdge_shape (d : Dev) (n : Nat) : ∃ i, applyEdge d n = { d with ic := i } := by
  obtain ⟨i, hi⟩ := coalesce_shape (modSrc d n (fun s => { s with pending := true, count := satInc8 s.count })) n true
  exact ⟨i, by rw [applyEdge, hi]; rfl⟩

theorem edgeOn_shape (d : Dev) (n : Nat) : ∃ i k, edgeOn d n = { d with ic := i, ket := k } := by
  obtain ⟨i, hi⟩ := applyEdge_shape d n
  unfold edgeOn
  simp only [hi]
  repeat' split
  all_goals exact ⟨_, _, rfl⟩

/-- A page event changes page headers, event sources and the wake time, nothing else. -/
theorem raise_shape (d : Dev) (pg n : Nat) : ∃ p i k, raise d pg n = { d with pages := p, ic := i, ket := k } := by
  unfold raise
  dsimp only
  repeat' split
  all_goals first
    | exact ⟨_, _, _, rfl⟩
    | (obtain ⟨i, k, h⟩ := edgeOn_shape _ _
       exact ⟨_, i, k, by rw [h]; rfl⟩)

/-- Everything but registers, counters, page headers, event sources, telemetry and the wake time is as before. -/
def SameWork (d e : Dev) : Prop :=
  ∃ r c p i t k, e = { d with regs := r, ctrs := c, pages := p, ic := i, tel := t, ket := k }

theorem SameWork.refl (d : Dev) : SameWork d d := ⟨_, _, _, _, _, _, rfl⟩
theorem SameWork.trans {a b c : Dev} (h : SameWork a b) (g : SameWork b c) : SameWork a c := by
  obtain ⟨r, x, p, i, t, k, rfl⟩ := h
  obtain ⟨r', x', p', i', t', k', rfl⟩ := g
  exact ⟨r', x', p', i', t', k', rfl⟩
theorem SameWork.core {d e : Dev} (h : SameWork d e) : e.core = d.core := by obtain ⟨_, _, _, _, _, _, rfl⟩ := h; rfl
theorem SameWork.ras {d e : Dev} (h : SameWork d e) : e.ras = d.ras := by obtain ⟨_, _, _, _, _, _, rfl⟩ := h; rfl
theorem SameWork.bar {d e : Dev} (h : SameWork d e) : e.bar = d.bar := by obtain ⟨_, _, _, _, _, _, rfl⟩ := h; rfl
theorem SameWork.tbl {d e : Dev} (h : SameWork d e) : e.tbl = d.tbl := by obtain ⟨_, _, _, _, _, _, rfl⟩ := h; rfl
theorem SameWork.urn {d e : Dev} (h : SameWork d e) : e.urn = d.urn := by obtain ⟨_, _, _, _, _, _, rfl⟩ := h; rfl
theorem SameWork.inf {d e : Dev} (h : SameWork d e) : e.inf = d.inf := by obtain ⟨_, _, _, _, _, _, rfl⟩ := h; rfl
theorem SameWork.egr {d e : Dev} (h : SameWork d e) : e.egr = d.egr := by obtain ⟨_, _, _, _, _, _, rfl⟩ := h; rfl
theorem SameWork.adm {d e : Dev} (h : SameWork d e) : e.adm = d.adm := by obtain ⟨_, _, _, _, _, _, rfl⟩ := h; rfl
theorem SameWork.lku {d e : Dev} (h : SameWork d e) : e.lku = d.lku := by obtain ⟨_, _, _, _, _, _, rfl⟩ := h; rfl
theorem SameWork.hbm {d e : Dev} (h : SameWork d e) : e.hbm = d.hbm := by obtain ⟨_, _, _, _, _, _, rfl⟩ := h; rfl
theorem SameWork.link {d e : Dev} (h : SameWork d e) : e.link = d.link := by obtain ⟨_, _, _, _, _, _, rfl⟩ := h; rfl
theorem SameWork.line {d e : Dev} (h : SameWork d e) : e.line = d.line := by obtain ⟨_, _, _, _, _, _, rfl⟩ := h; rfl
theorem SameWork.tb {d e : Dev} (h : SameWork d e) : e.tb = d.tb := by obtain ⟨_, _, _, _, _, _, rfl⟩ := h; rfl
theorem SameWork.mc {d e : Dev} (h : SameWork d e) : e.mc = d.mc := by obtain ⟨_, _, _, _, _, _, rfl⟩ := h; rfl
theorem SameWork.free {d e : Dev} (h : SameWork d e) : e.free = d.free := by obtain ⟨_, _, _, _, _, _, rfl⟩ := h; rfl
theorem SameWork.out {d e : Dev} (h : SameWork d e) : e.out = d.out := by obtain ⟨_, _, _, _, _, _, rfl⟩ := h; rfl

variable {d e : Dev}

theorem SameWork.bump (h : SameWork d e) (a n : Nat) : SameWork d (bump e a n) := h.trans ⟨_, _, _, _, _, _, rfl⟩
theorem SameWork.wr (h : SameWork d e) (a : Nat) (v : W32) : SameWork d (wr e a v) := h.trans ⟨_, _, _, _, _, _, rfl⟩
theorem SameWork.wf (h : SameWork d e) (a : Nat) (f : Fld) (x : Nat) : SameWork d (wf e a f x) := h.trans ⟨_, _, _, _, _, _, rfl⟩
theorem SameWork.modPage (h : SameWork d e) (p : Nat) (f : PageSt → PageSt) : SameWork d (modPage e p f) :=
  h.trans ⟨_, _, _, _, _, _, rfl⟩
theorem SameWork.modTel (h : SameWork d e) (f : Tel → Tel) : SameWork d (modTel e f) := h.trans ⟨_, _, _, _, _, _, rfl⟩
theorem SameWork.raise (h : SameWork d e) (p n : Nat) : SameWork d (raise e p n) := by
  obtain ⟨_, _, _, g⟩ := raise_shape e p n
  exact h.trans ⟨_, _, _, _, _, _, g⟩
theorem SameWork.ite (c : Prop) [Decidable c] {x y : Dev} (h : SameWork d x) (g : SameWork d y) :
    SameWork d (if c then x else y) := by split <;> assumption
theorem SameWork.perf (h : SameWork d e) (c o : Nat) : SameWork d (perf e c o) := .ite _ (h.bump ..) h
theorem SameWork.pmcBump (h : SameWork d e) (c i n : Nat) : SameWork d (pmcBump e c i n) := by
  unfold Machine.pmcBump
  have h1 := h.wr (pmcAddr c i) (BitVec.ofNat 32 ((rd e (pmcAddr c i)).toNat + n))
  refine .ite _ (.ite _ (.modTel (.ite _ (.raise (.wf (.wf h1 _ _ _) _ _ _) _ _) (.wf (.wf h1 _ _ _) _ _ _)) _)
    (.ite _ (.raise (.wf (.wf h1 _ _ _) _ _ _) _ _) (.wf (.wf h1 _ _ _) _ _ _))) h1
theorem SameWork.foldl {β : Type} (f : Dev → β → Dev) (hf : ∀ e x, SameWork d e → SameWork d (f e x)) (l : List β)
    (h : SameWork d e) : SameWork d (l.foldl f e) := by
  induction l generalizing e with
  | nil => exact h
  | cons x l ih => exact ih (hf e x h)
theorem SameWork.pmc (h : SameWork d e) (c v n : Nat) (k : Bool) (x : Nat) : SameWork d (pmc e c v n k x) := by
  refine .ite _ h (.foldl _ (fun e i h => ?_) _ h)
  exact .ite _ (.ite _ ((h.pmcBump ..).pmcBump ..) (h.pmcBump ..)) h
theorem SameWork.settleFreeze (h : SameWork d e) : SameWork d (settleFreeze e) := .ite _ h (h.modTel _)

end Sys2Proof.Machine
end

