-- ==== Sys2Proof/Laws/Core.lean ====
section
/-!
SUPPORT. The issue of an instruction and the shared operations of the Chrotale instructions: for each, the one lemma that
says what it does when no cause of R190 arises, when one does, and when the thread stalls.
-/

namespace Sys2Proof.Machine
open Sys2Proof

/-! ## Threads -/

theorem thr_modThr (d : Dev) (c t : Nat) (f : Thread → Thread) (c' t' : Nat) :
    thr (modThr d c t f) c' t' = if 8 * c' + t' = 8 * c + t then f (thr d c t) else thr d c' t' := by
  simp only [thr, modThr, tget_tmod]
@[simp] theorem thr_modThr_same (d : Dev) (c t : Nat) (f : Thread → Thread) : thr (modThr d c t f) c t = f (thr d c t) := by
  simp [thr_modThr]
theorem thr_congr {d e : Dev} (h : e.core.threads = d.core.threads) (c t : Nat) : thr e c t = thr d c t := by simp [thr, h]

/-! ## A read of a core memory leaves threads and work alone -/

/-- Everything but registers, counters, page headers, event sources, telemetry, the wake time, fault records and SRAM words
is as before. -/
def Quiet (d e : Dev) : Prop :=
  ∃ r c p i t k a w, e = { d with regs := r, ctrs := c, pages := p, ic := i, tel := t, ket := k, ras := a,
                                   core := { d.core with sram := w } }

variable {d e : Dev}

theorem Quiet.refl (d : Dev) : Quiet d d := ⟨_, _, _, _, _, _, _, _, rfl⟩
theorem Quiet.trans {a b c : Dev} (h : Quiet a b) (g : Quiet b c) : Quiet a c := by
  obtain ⟨_, _, _, _, _, _, _, _, rfl⟩ := h
  obtain ⟨r, x, p, i, t, k, y, z, rfl⟩ := g
  exact ⟨r, x, p, i, t, k, y, z, rfl⟩
theorem SameWork.quiet (h : SameWork d e) : Quiet d e := by
  obtain ⟨r, c, p, i, t, k, rfl⟩ := h
  exact ⟨r, c, p, i, t, k, d.ras, d.core.sram, rfl⟩
theorem Quiet.threads (h : Quiet d e) : e.core.threads = d.core.threads := by obtain ⟨_, _, _, _, _, _, _, _, rfl⟩ := h; rfl
theorem Quiet.thr (h : Quiet d e) (c t : Nat) : thr e c t = thr d c t := thr_congr h.threads c t
theorem Quiet.bar (h : Quiet d e) : e.bar = d.bar := by obtain ⟨_, _, _, _, _, _, _, _, rfl⟩ := h; rfl
theorem Quiet.ite (c : Prop) [Decidable c] {x y : Dev} (h : Quiet d x) (g : Quiet d y) : Quiet d (if c then x else y) := by
  split <;> assumption
theorem Quiet.work (h : Quiet d e) {x : Dev} (g : SameWork e x) : Quiet d x := h.trans g.quiet
theorem Quiet.modRas (h : Quiet d e) (f : Ras → Ras) : Quiet d (modRas e f) := h.trans ⟨_, _, _, _, _, _, _, _, rfl⟩
theorem Quiet.noteFault (h : Quiet d e) (k : Nat) (b : Bool) : Quiet d (noteFault e k b) := h.modRas _
theorem Quiet.setSword (h : Quiet d e) (p n w : Nat) (x : SWord) : Quiet d (setSword e p n w x) :=
  h.trans ⟨_, _, _, _, _, _, _, _, rfl⟩
theorem Quiet.bump (h : Quiet d e) (a n : Nat) : Quiet d (bump e a n) := h.work ((SameWork.refl e).bump a n)
theorem Quiet.raise (h : Quiet d e) (a n : Nat) : Quiet d (raise e a n) := h.work ((SameWork.refl e).raise a n)
theorem Quiet.uncorrWord (h : Quiet d e) (p n w : Nat) (j : Bool) : Quiet d (uncorrWord e p n w j) :=
  .ite _ (.ite _ (h.bump _ _) ((h.bump _ _).raise _ _)) ((Quiet.ite _ (h.bump _ _) ((h.bump _ _).raise _ _)).noteFault _ _)
theorem Quiet.logInto (h : Quiet d e) (k w : Nat) (s : BitVec 8) (j : Bool) (o : Nat) : Quiet d (logInto e k w s j o) := by
  unfold Machine.logInto
  dsimp only
  refine .ite _ (h.modRas _) ?_
  split
  · exact h.modRas _
  · exact .ite _ (h.modRas _) ((h.bump _ _).modRas _)
theorem Quiet.logError (h : Quiet d e) (p n w : Nat) (s : BitVec 8) (j : Bool) : Quiet d (logError e p n w s j) :=
  .logInto (.ite _ (h.raise _ _) h) ..
theorem Quiet.checkWord (h : Quiet d e) (p n w : Nat) : Quiet d (checkWord e p n w).2.2 := by
  unfold Machine.checkWord
  dsimp only
  split
  · exact h.uncorrWord p n w false
  split
  · exact h
  split
  · exact h.uncorrWord ..
  split
  · exact h
  split
  · exact .ite _ (.bump (.logError (.setSword h ..) ..) ..) (.noteFault (.bump (.logError (.setSword h ..) ..) ..) ..)
  · exact h.uncorrWord ..
theorem Quiet.readWord (h : Quiet d e) (p n w : Nat) : Quiet d (readWord e p n w).2.2 := by
  unfold Machine.readWord
  split <;> exact h.checkWord ..
theorem Quiet.sramRead (h : Quiet d e) (p n a k : Nat) : Quiet d (sramRead e p n a k).2.2 := by
  cases k with
  | zero => exact h
  | succ k =>
    have : ∀ (l : List Nat) (f : Nat × Bool × Dev → Nat → Nat × Bool × Dev) (_ : ∀ x i, Quiet d x.2.2 → Quiet d (f x i).2.2)
        (x : Nat × Bool × Dev), Quiet d x.2.2 → Quiet d (l.foldl f x).2.2 := by
      intro l f hf
      induction l with
      | nil => intro x hx; exact hx
      | cons i l ih => intro x hx; exact ih _ (hf x i hx)
    exact this _ _ (fun x i hx => hx.readWord ..) _ h
theorem Quiet.coreRead (h : Quiet d e) (c sp a n : Nat) : Quiet d (coreRead e c sp a n).2.2 := h.sramRead ..

/-! ## Counting an issue and fetching its word -/

/-- The count of an issue changes counters, the thread's place in the round-robin and its flight's number of issues. -/
theorem thr_countIssue (d : Dev) (c t c' t' : Nat) :
    ∃ n, thr (countIssue d c t) c' t' = if 8 * c' + t' = 8 * c + t then { thr d c t with issued := n } else thr d c' t' := by
  unfold countIssue
  dsimp only
  have hd : ∀ a b, thr (endYield (setStall d c t .none) c) a b = thr d a b := fun _ _ => rfl
  generalize endYield (setStall d c t .none) c = d0 at hd ⊢
  have hc : ∀ z h, SameWork d0 (coreCtr d0 c z h) := by
    intro z h
    unfold coreCtr
    split
    · split
      · exact (SameWork.refl d0).bump ..
      · exact .refl d0
    · exact (SameWork.refl d0).bump ..
  have h1 := hc Rg.CORE_ISSUED (some Rg.HCC_ISSUED)
  generalize coreCtr d0 c Rg.CORE_ISSUED (some Rg.HCC_ISSUED) = d1 at h1 ⊢
  refine ⟨(ctr d1 (if isHub c then Rg.HCC_ISSUED (c - 128) else Rg.CORE_ISSUED c)).toNat, ?_⟩
  have h2 := (SameWork.refl (modThr d1 c t (fun x => { x with issued := (ctr d1 (if isHub c then Rg.HCC_ISSUED (c - 128) else Rg.CORE_ISSUED c)).toNat }))).pmc
    c (if kernelThread (thr d c t) then 2 else 1) 1 (kernelThread (thr d c t)) 0
  have h3 := thr_congr (congrArg Cores.threads h2.core) c' t'
  have h4 : ∀ a b, thr d1 a b = thr d a b := fun a b => (thr_congr (congrArg Cores.threads h1.core) a b).trans (hd a b)
  split
  · rw [show ∀ (x : Dev) f g, thr (modBar (modFlight x f g) _) c' t' = thr x c' t' from fun _ _ _ => rfl, h3, thr_modThr]
    simp only [h4]
  · rw [h3, thr_modThr]
    simp only [h4]

theorem thr_atIssue (d : Dev) (c t c' t' : Nat) :
    ∃ n, thr (atIssue d c t) c' t' = if 8 * c' + t' = 8 * c + t then { thr d c t with issued := n } else thr d c' t' := by
  obtain ⟨n, h⟩ := thr_countIssue d c t c' t'
  refine ⟨n, ?_⟩
  rw [← h]
  unfold atIssue fetchAt
  split
  · rfl
  · exact ((Quiet.refl _).sramRead ..).thr c' t'

/-! ## The issue -/

theorem budget_not_met (h : Issues d c t) :
    ((thr d c t).flight.isSome && issuesOf (fetchAt d c t).2.2 (thr d c t).flight ==
      (budgetOf (fetchAt d c t).2.2 (thr d c t).flight).1) = false ∧
    ((thr d c t).flight.isSome && issuesOf (fetchAt d c t).2.2 (thr d c t).flight ==
      (budgetOf (fetchAt d c t).2.2 (thr d c t).flight).1 + (budgetOf (fetchAt d c t).2.2 (thr d c t).flight).2) = false := by
  rcases h.budget with hb | ⟨h1, h2⟩
  · simp [hb]
  · simp only [issueNumber, atIssue] at h1 h2
    simp [h1, h2]

/-- An instruction that meets no cause and no stall has its effect on the state at its issue. -/
theorem issue_runs (h : Issues d c t) (i : Issue) (hs : i.stall = .none) (hc : i.cause = none) (eff : Dev → Dev × Bool) :
    issue d c t i eff = issueCycle (eff (atIssue d c t)).1 c (kernelThread (thr d c t))
      (!(eff (atIssue d c t)).2 && (!i.perLane || !i.lanes.isEmpty)) i.lanes.length := by
  obtain ⟨hl, hg⟩ := budget_not_met h
  unfold issue
  simp [h.ready, h.runs, h.first, hs, hc, h.fetch, hl, hg, atIssue]

/-- An instruction that meets a cause traps to its vector (R170, R190). -/
theorem issue_traps (h : Issues d c t) (i : Issue) (v : Nat) (hc : i.cause = some v) (eff : Dev → Dev × Bool) :
    issue d c t i eff = issueCycle (trap (atIssue d c t) c t v i.word (if v == 8 then ofBits i.window else (thr d c t).act)) c
      (kernelThread (thr d c t)) false 0 := by
  obtain ⟨hl, hg⟩ := budget_not_met h
  unfold issue
  simp [h.ready, h.runs, h.first, hc, h.fetch, hl, hg, atIssue]

theorem issue_stalls (hr : canIssue (thr d c t) = true) (hu : unitRuns d c = true) (hf : nextThread d c = some t) (i : Issue)
    (hc : i.cause = none) (hs : i.stall ≠ .none) (eff : Dev → Dev × Bool) :
    issue d c t i eff = offered (setStall d c t i.stall) c := by
  unfold issue
  simp [hr, hu, hf, hc, hs]
/-- An instruction of a thread from which the core does not issue now has no effect of its own (R127, R157). -/
theorem issue_waits (hr : canIssue (thr d c t) = true) (hu : unitRuns d c = true) (hf : nextThread d c ≠ some t) (i : Issue)
    (eff : Dev → Dev × Bool) : issue d c t i eff = offered d c := by
  unfold issue
  simp [hr, hu, hf]

theorem sameWork_issueCycle (d : Dev) (c : Nat) (k r : Bool) (n : Nat) : SameWork d (issueCycle d c k r n) := by
  unfold issueCycle
  have h : SameWork d (perf (perf d c 0) c (if r then 0x8 else 0x10)) := ((SameWork.refl d).perf _ _).perf _ _
  exact .ite _ (.pmc (.ite _ (h.perf _ _) h) ..) (.pmc (.ite _ (h.perf _ _) h) ..)

/-- With no fault waiting, the end of a step changes telemetry alone. -/
theorem settle_calm (h : d.ras.todo = []) : settle d = settleFreeze d := by
  unfold settle
  rw [settleN, h]

/-- In a calm state the end of a command judges nothing. -/
@[simp] theorem settle_of_calm (h : Calm d) : settle d = d := by
  rw [settle_calm h.1]
  simp [settleFreeze, h.2]

/-- No fault is left at the end of a command. -/
theorem settleN_todo (n : Nat) (d : Dev) : (settleN n d).ras.todo = [] := by
  induction n generalizing d with
  | zero => rfl
  | succ n ih =>
    unfold settleN
    split
    · assumption
    · exact ih _
/-- A command that judges its faults at its end leaves a calm state. -/
theorem calm_settle (d : Dev) : Calm (settle d) := by
  unfold settle settleFreeze
  split
  · rename_i h
    exact ⟨settleN_todo .., by simpa using h⟩
  · exact ⟨settleN_todo _ d, rfl⟩

theorem sameWork_settle (h : d.ras.todo = []) : SameWork d (settle d) := by
  rw [settle_calm h]
  exact (SameWork.refl d).settleFreeze

end Sys2Proof.Machine
end

