-- ==== Sys2Proof/Laws/Memory.lean ====
section
/-!
SUPPORT. Global memory: a byte written reads back and every other byte reads as before; every memory operation keeps the
canonical form.
-/

namespace Sys2Proof.Machine
open Sys2Proof

theorem Memory.read_write (m : Memory) (a : Nat) (b : Byte) (k : Nat) :
    (m.write a b).read k = if k = a then b else m.read k := by
  simp only [Memory.read, Memory.write, tget_tset]

theorem Memory.wf_write (m : Memory) (a : Nat) (b : Byte) (h : m.wf = true) : (m.write a b).wf = true := canon_tset _ _ _ _ h

theorem Memory.writeN_nil (m : Memory) (a : Nat) : m.writeN a [] = m := rfl

theorem Memory.writeN_cons (m : Memory) (a : Nat) (b : Byte) (l : List Byte) :
    m.writeN a (b :: l) = (m.write a b).writeN (a + 1) l := by
  have h : ∀ (l : List Byte) (k : Nat) (m : Memory),
      (l.zipIdx (k + 1)).foldl (fun m e => Memory.write m (a + e.2) e.1) m =
        (l.zipIdx k).foldl (fun m e => Memory.write m (a + 1 + e.2) e.1) m := by
    intro l
    induction l with
    | nil => intro k m; rfl
    | cons x l ih =>
      intro k m
      simp only [List.zipIdx_cons, List.foldl_cons]
      rw [ih, show a + (k + 1) = a + 1 + k by omega]
  simp only [Memory.writeN, List.zipIdx_cons, List.foldl_cons, Nat.add_zero]
  exact h l 0 _

/-- A write of bytes from `a` up: each of them reads back, every other byte reads as before. -/
theorem Memory.read_writeN (l : List Byte) (m : Memory) (a k : Nat) :
    (m.writeN a l).read k = if a ≤ k ∧ k < a + l.length then l.getD (k - a) 0 else m.read k := by
  induction l generalizing m a with
  | nil => simp only [Memory.writeN_nil, List.length_nil]; rw [if_neg (by omega)]
  | cons b l ih =>
    rw [Memory.writeN_cons, ih, Memory.read_write]
    simp only [List.length_cons]
    by_cases h1 : k = a
    · subst h1
      rw [if_neg (by omega), if_pos rfl, if_pos (by omega)]
      simp
    · by_cases h2 : a + 1 ≤ k ∧ k < a + 1 + l.length
      · rw [if_pos h2, if_pos (by omega)]
        obtain ⟨j, hj⟩ : ∃ j, k - a = j + 1 := ⟨k - a - 1, by omega⟩
        rw [hj, show k - (a + 1) = j by omega]
        simp
      · rw [if_neg h2, if_neg h1, if_neg (by omega)]

theorem Memory.wf_writeN (l : List Byte) (m : Memory) (a : Nat) (h : m.wf = true) : (m.writeN a l).wf = true := by
  induction l generalizing m a with
  | nil => exact h
  | cons b l ih =>
    rw [Memory.writeN_cons]
    exact ih _ _ (Memory.wf_write _ _ _ h)

/-- The bytes read back are the bytes written. -/
theorem Memory.readN_writeN (l : List Byte) (m : Memory) (a : Nat) : (m.writeN a l).readN a l.length = l := by
  apply List.ext_getElem
  · simp [Memory.readN]
  · intro i h1 h2
    simp only [Memory.readN, List.getElem_map, List.getElem_range, Memory.read_writeN]
    rw [if_pos (by omega)]
    simp [h2]

/-- Empty memory is in canonical form. -/
theorem Memory.wf_nil : Memory.wf [] = true := rfl

end Sys2Proof.Machine
end

