-- ==== Sys2Proof/Laws/Keeps.lean ====
section
/-!
SUPPORT. Every operation that changes global memory keeps its canonical form: stores of helpers, atomics and posted effects, writes
through the protection windows, register writes, table DMA, spill pages, exports, and a stack that goes DORMANT.
-/

namespace Sys2Proof.Machine
open Sys2Proof

variable {m : Memory} {d : Dev}

theorem memPut_wf (h : m.wf = true) (a : Nat) (l : List Byte) : (memPut m d a l).1.wf = true := by
  unfold memPut
  split
  · exact h
  · exact Memory.wf_writeN _ _ _ h

theorem memStore_wf (h : m.wf = true) (c r a : Nat) (l : List Byte) : (memStore m d c r a l).1.wf = true := memPut_wf h ..

theorem foldl_writeN_wf {β : Type} (f : β → Nat) (g : β → List Byte) (l : List β) (m : Memory) (h : m.wf = true) :
    (l.foldl (fun m e => m.writeN (f e) (g e)) m).wf = true := by
  induction l generalizing m with
  | nil => exact h
  | cons x l ih => exact ih _ (Memory.wf_writeN _ _ _ h)

theorem keepLost_wf {m' : Memory} (h : m'.wf = true) (a n : Nat) : (keepLost m m' d a n).wf = true :=
  foldl_writeN_wf _ _ _ _ h

theorem memStoreAll_wf (h : m.wf = true) (c r a : Nat) (l : List Byte) : (memStoreAll m d c r a l).1.wf = true :=
  keepLost_wf (Memory.wf_writeN _ _ _ h) ..

theorem putHeld_wf (h : m.wf = true) (pl n w : Nat) (v : W64) : (putHeld m d pl n w v).1.wf = true := by
  unfold putHeld
  split
  · exact Memory.wf_writeN _ _ _ h
  · split
    · exact h
    · split
      · split <;> exact h
      · split <;> exact h

theorem pwWrite_wf (h : m.wf = true) (pl : Nat) : (pwWrite m d pl).1.wf = true := by
  rw [pwWrite]
  lift_lets
  intros
  split
  · exact h
  · split
    · exact putHeld_wf h ..
    · exact h

theorem doWrite_wf (h : m.wf = true) (p : PageId) (a n x : Nat) (k : Master) : (doWrite m d p a n x k).1.wf = true := by
  unfold doWrite
  dsimp only
  split
  · exact h
  · split
    · exact h
    · split
      · split
        · exact h
        · split
          · exact pwWrite_wf h _
          · exact h
      · exact h

theorem regWrite_wf (h : m.wf = true) (a n x : Nat) (k : Master) : (regWrite m d a n x k).1.wf = true := by
  unfold regWrite
  dsimp only
  split
  · exact h
  · split
    · exact h
    · split
      · exact h
      · exact doWrite_wf h ..

/-- A fold of operations each of which keeps the form keeps it. -/
theorem foldl_wf {β : Type} {f : Memory × Dev → β → Memory × Dev} (hf : ∀ s x, s.1.wf = true → (f s x).1.wf = true) (l : List β)
    (s : Memory × Dev) (h : s.1.wf = true) : (l.foldl f s).1.wf = true := by
  induction l generalizing s with
  | nil => exact h
  | cons x l ih => exact ih _ (hf s x h)

theorem cycleWrite_wf (h : m.wf = true) (ws : List CycW) : (cycleWrite m d ws).1.wf = true := by
  unfold cycleWrite
  dsimp only
  have h1 := foldl_wf (f := fun (s : Memory × Dev) (w : CycW) => regWrite s.1 s.2 w.addr w.n w.x w.m)
    (fun s w hs => regWrite_wf hs ..) (ws.filter (refusedWrite (wakePage d))) (m, wakePage d) h
  split
  · exact h1
  · exact regWrite_wf h1 ..

theorem doAtom_wf (h : m.wf = true) (c : Nat) (e : HEntry) (l : HLane) : (doAtom m d c e l).1.wf = true := by
  unfold doAtom
  dsimp only
  split
  · exact h
  · split
    · exact h
    · split
      · exact memPut_wf h ..
      · exact h

theorem performPost_wf (h : m.wf = true) (p : HPost) : (performPost m d p).1.wf = true := by
  unfold performPost
  split
  · exact h
  · exact memStore_wf h ..
  · exact regWrite_wf h ..
  · exact h
  · exact h
  · exact h

theorem flushPosts_wf (h : m.wf = true) (c t k : Nat) : (flushPosts m d c t k).1.wf = true := by
  unfold flushPosts
  exact foldl_wf (fun s p hs => performPost_wf hs p) _ _ h

theorem doLane_wf (h : m.wf = true) (c : Nat) (e : HEntry) (l : HLane) : (doLane m d c e l).1.wf = true := by
  unfold doLane
  split <;> first | exact doAtom_wf h .. | exact h

theorem takeLanes_wf (h : m.wf = true) (c k n : Nat) : (takeLanes m d c k n).1.wf = true := by
  unfold takeLanes
  split
  · exact h
  · split
    · exact h
    · dsimp only
      split
      · exact flushPosts_wf h ..
      · exact foldl_wf (fun s l hs => doLane_wf hs ..) _ _ (flushPosts_wf h ..)

theorem takeTurn_wf (h : m.wf = true) (c k n : Nat) : (takeTurn m d c k n).1.wf = true := by
  unfold takeTurn
  dsimp only
  split
  · exact h
  · split
    · exact takeLanes_wf h ..
    · split
      · exact h
      · exact takeLanes_wf h ..

theorem dmaWork_wf (h : m.wf = true) (k ch : Nat) (x : DmaDesc) (l : List W32) : (dmaWork m d k ch x l).1.wf = true := by
  unfold dmaWork
  split
  · split
    · split <;> exact h
    · exact h
  · dsimp only
    split
    · exact memStoreAll_wf h 4 (912 + 48 * k + ch) _ _
    · exact h
  · exact h

theorem dmaRun_wf (h : m.wf = true) (k ch op : Nat) (q : DmaReq) : (dmaRun m d k ch op q).1.wf = true := by
  unfold dmaRun
  dsimp only
  repeat' split
  all_goals first | exact h | exact dmaWork_wf h ..

theorem exportRecord_wf (s : Memory × Dev) (w : List W32) (h : s.1.wf = true) : (exportRecord s w).1.wf = true := by
  unfold exportRecord
  dsimp only
  split
  · exact h
  · exact memStore_wf h ..

theorem writeNext_wf (h : m.wf = true) (a n : Nat) : (writeNext m a n).wf = true :=
  Memory.wf_writeN _ _ _ (Memory.wf_writeN _ _ _ (Memory.wf_writeN _ _ _ h))

theorem pageImage_wf (h : m.wf = true) (z v : Nat) (p : Page) (n : Nat) : (pageImage d z v m p n).wf = true := by
  unfold pageImage
  exact foldl_writeN_wf _ _ _ _ (writeNext_wf (foldl_writeN_wf _ _ _ _ (Memory.wf_writeN _ _ _ (Memory.wf_writeN _ _ _ h))) ..)

theorem pageWrite_wf (h : m.wf = true) (z v : Nat) : (pageWrite z v m d).1.wf = true := by
  unfold pageWrite
  dsimp only
  split
  · exact h
  · split
    · exact h
    · split
      · exact h
      · split
        · exact keepLost_wf (pageImage_wf h ..) ..
        · split
          · exact keepLost_wf (writeNext_wf (keepLost_wf (pageImage_wf h ..) ..) ..) ..
          · exact keepLost_wf (pageImage_wf h ..) ..

/-- Entries dropped from memory leave it in its form. -/
theorem filter_wf (h : m.wf = true) (p : Nat × Byte → Bool) : Memory.wf (m.filter p) = true := by
  unfold Memory.wf canon at *
  simp only [Bool.and_eq_true, List.all_eq_true, decide_eq_true_eq] at *
  exact ⟨rising_filter p h.1, fun e he => h.2 e (List.mem_of_mem_filter he)⟩

end Sys2Proof.Machine
end

