-- ==== Sys2Proof/Laws/Lanes.lean ====
section
/-!
SUPPORT. What the shared lane operation of the Chrotale instructions does: each acting lane's registers become what its
operand makes of them, every other lane and thread is as before, and the PC advances.
-/

namespace Sys2Proof.Machine
open Sys2Proof

variable {d e : Dev} {c t : Nat}

theorem nodup_bitsOf (x n : Nat) : (bitsOf x n).Nodup := List.Nodup.filter _ List.nodup_range
theorem nodup_actingLanes (x : Thread) (g : Bool) : (actingLanes x g).Nodup := List.Nodup.filter _ (nodup_bitsOf _ _)

/-- The lanes' values stand in the order of the lanes. -/
theorem readLanes_keys (f : Dev → Nat → Nat × Met × Dev) (ls : List Nat) (d : Dev) : (readLanes d ls f).1.map (·.1) = ls := by
  have h : ∀ (ls : List Nat) (acc : List (Nat × Nat) × Met × Dev),
      (ls.foldl (fun (acc : List (Nat × Nat) × Met × Dev) n =>
        let (v, m, d) := f acc.2.2 n
        (acc.1 ++ [(n, v)], acc.2.1.and m, d)) acc).1.map (·.1) = acc.1.map (·.1) ++ ls := by
    intro ls
    induction ls with
    | nil => intro acc; simp
    | cons n ls ih =>
      intro acc
      rw [List.foldl_cons, ih]
      simp
  simpa [readLanes] using h ls ([], .ok, d)

/-- Reads leave the work of the device as it was. -/
theorem Quiet.readLanes {f : Dev → Nat → Nat × Met × Dev} (hf : ∀ x n, Quiet d x → Quiet d (f x n).2.2) (ls : List Nat)
    (h : Quiet d e) : Quiet d (readLanes e ls f).2.2 := by
  have : ∀ (ls : List Nat) (acc : List (Nat × Nat) × Met × Dev), Quiet d acc.2.2 →
      Quiet d (ls.foldl (fun (acc : List (Nat × Nat) × Met × Dev) n =>
        let (v, m, d) := f acc.2.2 n
        (acc.1 ++ [(n, v)], acc.2.1.and m, d)) acc).2.2 := by
    intro ls
    induction ls with
    | nil => intro acc h; exact h
    | cons n ls ih => intro acc h; exact ih _ (hf _ n h)
  exact this ls _ h
theorem Quiet.spaceRead (h : Quiet d e) (c sp a k : Nat) : Quiet d (spaceRead e c sp a k).2.2 := h.coreRead ..
theorem Quiet.readM (h : Quiet d e) (c m n lo k : Nat) : Quiet d (readM e c m n lo k).2.2 := by
  unfold Machine.readM
  split
  · exact h
  · exact h.spaceRead ..
theorem Quiet.readS (h : Quiet d e) (c a k : Nat) : Quiet d (readS e c a k).2.2 := (h.spaceRead ..).spaceRead ..
theorem Quiet.readOperand (h : Quiet d e) (c t : Nat) (a : FA) (n : Nat) : Quiet d (readOperand e c t a n).2.2 := by
  unfold Machine.readOperand
  dsimp only
  split
  · exact h
  · exact h.spaceRead ..
  · exact h.spaceRead ..
  · exact h.readM ..
  · exact h.readS ..
  · exact h.readS ..
  · exact h.spaceRead ..

/-! ## Operands are values of the width -/

theorem width_eq (a : FA) : 2 ^ a.width = 256 ^ 2 ^ a.w := by
  rw [FA.width, Nat.pow_mul]

theorem spaceRead_lt (d : Dev) (c sp a k : Nat) : (spaceRead d c sp a k).1 < 256 ^ k :=
  Nat.mod_lt _ (Nat.pow_pos (by decide))
theorem readM_lt (d : Dev) (c m n lo k : Nat) : (readM d c m n lo k).1 < 256 ^ k := by
  unfold readM
  split
  · exact Nat.pow_pos (by decide)
  · exact spaceRead_lt ..
theorem readS_lt (d : Dev) (c a k : Nat) : (readS d c a k).1 < 256 ^ k := by
  unfold readS
  dsimp only
  generalize hk : min k (65536 - a % 65536) = k1
  have hle : k1 ≤ k := by omega
  have h1 := spaceRead_lt d c 2 (a % 65536) k1
  have h2 := spaceRead_lt (spaceRead d c 2 (a % 65536) k1).2.2 c 2 0 (k - k1)
  have hp : 256 ^ k = 256 ^ k1 * 256 ^ (k - k1) := by rw [← Nat.pow_add]; congr 1; omega
  rw [hp]
  calc _ < (spaceRead d c 2 (a % 65536) k1).1 * 256 ^ (k - k1) + 256 ^ (k - k1) := Nat.add_lt_add_left h2 _
    _ = ((spaceRead d c 2 (a % 65536) k1).1 + 1) * 256 ^ (k - k1) := by ring
    _ ≤ _ := Nat.mul_le_mul_right _ h1
theorem readOperand_lt (d : Dev) (c t : Nat) (a : FA) (n : Nat) : (readOperand d c t a n).1 < 2 ^ a.width := by
  rw [width_eq]
  unfold readOperand
  dsimp only
  split
  · rw [width_eq]
    exact Nat.mod_lt _ (Nat.pow_pos (by decide))
  · exact spaceRead_lt ..
  · exact spaceRead_lt ..
  · exact readM_lt ..
  · exact readS_lt ..
  · exact readS_lt ..
  · exact spaceRead_lt ..
theorem readLanes_values (f : Dev → Nat → Nat × Met × Dev) (P : Nat → Prop) (hf : ∀ d n, P (f d n).1) (ls : List Nat) (d : Dev) :
    ∀ e ∈ (readLanes d ls f).1, P e.2 := by
  have h : ∀ (ls : List Nat) (acc : List (Nat × Nat) × Met × Dev), (∀ e ∈ acc.1, P e.2) →
      ∀ e ∈ (ls.foldl (fun (acc : List (Nat × Nat) × Met × Dev) n =>
        let (v, m, d) := f acc.2.2 n
        (acc.1 ++ [(n, v)], acc.2.1.and m, d)) acc).1, P e.2 := by
    intro ls
    induction ls with
    | nil => intro acc h; exact h
    | cons n ls ih =>
      intro acc h
      rw [List.foldl_cons]
      refine ih _ (fun e he => ?_)
      simp only [List.mem_append, List.mem_singleton] at he
      rcases he with he | rfl
      · exact h e he
      · exact hf ..
  exact h ls ([], .ok, d) (by simp)
/-- The operand of each lane is a value of the instruction's width (R193). -/
theorem operandsAt_lt (d : Dev) (c t : Nat) (f : BitVec 24) {n v : Nat} (h : (n, v) ∈ (operandsAt d c t f).1) :
    v < 2 ^ (fa f).width :=
  readLanes_values _ (fun v => v < 2 ^ (fa f).width) (fun d n => readOperand_lt d c t (fa f) n) _ _ (n, v) h

/-! ## Registers of the lanes -/

theorem thr_modCtx (d : Dev) (c t n : Nat) (f : LaneCtx → LaneCtx) (c' t' : Nat) :
    thr (modCtx d c t n f) c' t' =
      if 8 * c' + t' = 8 * c + t then { thr d c t with lanes := tmod laneCtx0 (thr d c t).lanes n f } else thr d c' t' := by
  simp only [modCtx, thr_modThr]

/-- Registers of the lanes after the changes of a list, one for each lane. -/
def lanesTo (l : Tab LaneCtx) (vs : List (Nat × Nat)) (g : Nat → Nat → LaneCtx → LaneCtx) : Tab LaneCtx :=
  vs.foldl (fun l v => tmod laneCtx0 l v.1 (g v.1 v.2)) l

theorem thr_foldl_modCtx (g : Nat → Nat → LaneCtx → LaneCtx) (vs : List (Nat × Nat)) (d : Dev) (c t c' t' : Nat) :
    thr (vs.foldl (fun d v => modCtx d c t v.1 (g v.1 v.2)) d) c' t' =
      if 8 * c' + t' = 8 * c + t then { thr d c t with lanes := lanesTo (thr d c t).lanes vs g } else thr d c' t' := by
  induction vs generalizing d with
  | nil =>
    split
    · rename_i h
      simp only [List.foldl_nil, lanesTo, thr, h]
    · rfl
  | cons v vs ih =>
    rw [List.foldl_cons, ih]
    simp only [thr_modCtx]
    split <;> simp [lanesTo]

theorem tget_lanesTo (g : Nat → Nat → LaneCtx → LaneCtx) (vs : List (Nat × Nat)) (l : Tab LaneCtx) (hn : (vs.map (·.1)).Nodup) :
    (∀ n v, (n, v) ∈ vs → tget laneCtx0 (lanesTo l vs g) n = g n v (tget laneCtx0 l n)) ∧
    (∀ n, n ∉ vs.map (·.1) → tget laneCtx0 (lanesTo l vs g) n = tget laneCtx0 l n) := by
  induction vs generalizing l with
  | nil => simp [lanesTo]
  | cons v vs ih =>
    obtain ⟨k, x⟩ := v
    simp only [List.map_cons, List.nodup_cons] at hn
    obtain ⟨h1, h2⟩ := ih (tmod laneCtx0 l k (g k x)) hn.2
    have he : lanesTo l ((k, x) :: vs) g = lanesTo (tmod laneCtx0 l k (g k x)) vs g := rfl
    rw [he]
    constructor
    · intro n y hm
      rcases List.mem_cons.mp hm with heq | hm
      · obtain ⟨rfl, rfl⟩ := Prod.mk.inj heq
        rw [h2 n hn.1, tget_tmod_same]
      · have hne : n ≠ k := fun h => hn.1 (h ▸ List.mem_map.mpr ⟨(n, y), hm, rfl⟩)
        rw [h1 n y hm, tget_tmod_ne _ _ _ hne]
    · intro n hm
      simp only [List.map_cons, List.mem_cons, not_or] at hm
      rw [h2 n hm.2, tget_tmod_ne _ _ _ hm.1]

/-! ## The PC -/

theorem advance_eq (d : Dev) (c t : Nat) (h : (thr d c t).pc + 1 < 8192) :
    advance d c t = modThr d c t (fun x => { x with pc := (thr d c t).pc + 1 }) := by
  simp only [advance, setPc, h, if_true]
theorem setPc_eq (d : Dev) (c t p : Nat) (h : p < 8192) : setPc d c t p = modThr d c t (fun x => { x with pc := p }) := by
  simp only [setPc, h, if_true]

/-! ## Frames -/

/-- What instructions of a core may change. -/
def CoreOnlyDev (d e : Dev) : Prop :=
  ∃ r c p i k l a b o, e = { d with regs := r, ctrs := c, pages := p, ic := i, ket := k, tel := l, ras := a, bar := b, core := o }
theorem CoreOnlyDev.refl (d : Dev) : CoreOnlyDev d d := ⟨_, _, _, _, _, _, _, _, _, rfl⟩
theorem CoreOnlyDev.trans {x y z : Dev} (h : CoreOnlyDev x y) (g : CoreOnlyDev y z) : CoreOnlyDev x z := by
  obtain ⟨_, _, _, _, _, _, _, _, _, rfl⟩ := h
  obtain ⟨r, c, p, i, k, l, a, b, o, rfl⟩ := g
  exact ⟨r, c, p, i, k, l, a, b, o, rfl⟩
theorem SameWork.coreOnly (h : SameWork d e) : CoreOnlyDev d e := by
  obtain ⟨r, c, p, i, t, k, rfl⟩ := h
  exact ⟨r, c, p, i, k, t, d.ras, d.bar, d.core, rfl⟩
theorem Quiet.coreOnly (h : Quiet d e) : CoreOnlyDev d e := by
  obtain ⟨r, c, p, i, t, k, a, w, rfl⟩ := h
  exact ⟨r, c, p, i, k, t, a, d.bar, { d.core with sram := w }, rfl⟩
theorem CoreOnlyDev.work (h : CoreOnlyDev d e) {x : Dev} (g : SameWork e x) : CoreOnlyDev d x := h.trans g.coreOnly
theorem CoreOnlyDev.modThr (h : CoreOnlyDev d e) (c t : Nat) (f : Thread → Thread) : CoreOnlyDev d (modThr e c t f) :=
  h.trans ⟨_, _, _, _, _, _, _, _, _, rfl⟩
theorem CoreOnlyDev.modBar (h : CoreOnlyDev d e) (f : Bar → Bar) : CoreOnlyDev d (modBar e f) :=
  h.trans ⟨_, _, _, _, _, _, _, _, _, rfl⟩
theorem CoreOnlyDev.foldl {β : Type} {f : Dev → β → Dev} (hf : ∀ e x, CoreOnlyDev d e → CoreOnlyDev d (f e x)) (l : List β)
    (h : CoreOnlyDev d e) : CoreOnlyDev d (l.foldl f e) := by
  induction l generalizing e with
  | nil => exact h
  | cons x l ih => exact ih (hf e x h)
theorem CoreOnlyDev.coreCtr (h : CoreOnlyDev d e) (c : Nat) (z : Nat → Nat) (u : Option (Nat → Nat)) :
    CoreOnlyDev d (coreCtr e c z u) := by
  unfold Machine.coreCtr
  split
  · split
    · exact h.work ((SameWork.refl e).bump ..)
    · exact h
  · exact h.work ((SameWork.refl e).bump ..)
theorem CoreOnlyDev.pmc (h : CoreOnlyDev d e) (c v n : Nat) (k : Bool) (x : Nat) : CoreOnlyDev d (pmc e c v n k x) :=
  h.work ((SameWork.refl e).pmc ..)
theorem CoreOnlyDev.setStall (h : CoreOnlyDev d e) (c t : Nat) (s : Stall) : CoreOnlyDev d (setStall e c t s) :=
  h.trans ⟨_, _, _, _, _, _, _, _, _, rfl⟩
theorem CoreOnlyDev.endYield (h : CoreOnlyDev d e) (c : Nat) : CoreOnlyDev d (endYield e c) :=
  h.trans ⟨_, _, _, _, _, _, _, _, _, rfl⟩
theorem CoreOnlyDev.countIssue (h : CoreOnlyDev d e) (c t : Nat) : CoreOnlyDev d (countIssue e c t) := by
  unfold Machine.countIssue
  dsimp only
  have h0 := (h.setStall c t .none).endYield c
  generalize Machine.endYield (Machine.setStall e c t .none) c = f at h0 ⊢
  have h1 := ((h0.coreCtr c Rg.CORE_ISSUED (some Rg.HCC_ISSUED)).modThr c t (fun x => { x with
    issued := (ctr (Machine.coreCtr f c Rg.CORE_ISSUED (some Rg.HCC_ISSUED)) (if isHub c then Rg.HCC_ISSUED (c - 128) else Rg.CORE_ISSUED c)).toNat })).pmc
      c (if kernelThread (thr e c t) then 2 else 1) 1 (kernelThread (thr e c t)) 0
  split
  · exact (h1.modBar _).modBar _
  · exact h1
theorem coreOnly_atIssue (d : Dev) (c t : Nat) : CoreOnlyDev d (atIssue d c t) := by
  have h := (CoreOnlyDev.refl d).countIssue c t
  unfold atIssue fetchAt
  split
  · exact h
  · exact h.trans ((Quiet.refl _).sramRead ..).coreOnly

/-! ## The shared lane operation -/

theorem cause_none {i : Issue} (h1 : i.illegal = false) (h2 : i.field = false) (h3 : i.priv = false) (h4 : i.stack = none)
    (h5 : i.window = []) (h6 : i.refused = false) : i.cause = none := by
  simp [Issue.cause, Issue.early, h1, h2, h3, h4, h5, h6]

/-- `after` changes thread `t` of core `c` by `g` and nothing else. -/
def OnThread (after : Dev → Dev) (c t : Nat) (g : Thread → Thread) : Prop :=
  ∀ d, (∀ c' t', thr (after d) c' t' = if 8 * c' + t' = 8 * c + t then g (thr d c t) else thr d c' t') ∧
    CoreOnlyDev d (after d) ∧ (after d).ras = d.ras
theorem onThread_id (c t : Nat) : OnThread id c t id := fun d =>
  ⟨fun c' t' => by
    split
    · rename_i h
      simp only [id, thr, h]
    · rfl, .refl d, rfl⟩
theorem onThread_modThr (c t : Nat) (g : Thread → Thread) : OnThread (fun d => modThr d c t g) c t g := fun d =>
  ⟨fun c' t' => thr_modThr d c t g c' t', (CoreOnlyDev.refl d).modThr .., rfl⟩

/-- A lane operation that executes: its lanes' registers, the PC, and nothing else but what `after` does to the thread. -/
theorem laneOp_next (op : Nat) (m : FormA) (f : BitVec 24) (fn : Nat → Nat → LaneCtx → LaneCtx) (after : Dev → Dev)
    (g : Thread → Thread) (hg : ∀ x, (g x).pc = x.pc) (ha : OnThread after c t g) (h : Executes d c t f m) :
    let e := settle (laneOp op m d c t f fn after)
    (∃ n, thr e c t = { g { thr d c t with issued := n, lanes := lanesTo (thr d c t).lanes (operandsAt d c t f).1 (fun _ => fn (fa f).width) }
                        with pc := (thr d c t).pc + 1 }) ∧
    (∀ c' t', 8 * c' + t' ≠ 8 * c + t → thr e c' t' = thr d c' t') ∧ CoreOnlyDev d e := by
  intro e
  have hw : (actingLanes (thr d c t) ((fa f).s == 4)).filter (outside (thr d c t) (fa f)) = [] := by
    rw [List.filter_eq_nil_iff]
    intro n hn
    simp [h.window n hn]
  have he : e = settle (laneOp op m d c t f fn after) := rfl
  have hs := h.sound
  have hq : Quiet (atIssue d c t) (operandsAt d c t f).2.2 :=
    (Quiet.refl _).readLanes (fun x n hx => hx.readOperand ..) _
  obtain ⟨n0, hn0⟩ : ∃ n, ∀ c' t', thr (atIssue d c t) c' t' = if 8 * c' + t' = 8 * c + t then { thr d c t with issued := n } else thr d c' t' := by
    obtain ⟨n, hn⟩ := thr_atIssue d c t c t
    refine ⟨n, fun c' t' => ?_⟩
    obtain ⟨n', hn'⟩ := thr_atIssue d c t c' t'
    split
    · rename_i hk
      rw [show thr (atIssue d c t) c' t' = thr (atIssue d c t) c t from by simp only [thr, hk], hn]
      simp
    · rename_i hk
      rw [hn', if_neg hk]
  unfold laneOp at he
  dsimp only at he
  rw [issue_runs h.issues _ (by simp [stallOn, stallIf, h.free]) (cause_none rfl h.form rfl h.stack hw rfl)] at he
  have ho : readLanes (atIssue d c t) (actingLanes (thr d c t) ((fa f).s == 4)) (fun d n => readOperand d c t (fa f) n)
      = operandsAt d c t f := rfl
  simp only [ho, hs, bne_self_eq_false, Bool.false_eq_true, if_false] at he
  have hk : CoreOnlyDev d ((operandsAt d c t f).2.2) := (coreOnly_atIssue d c t).trans hq.coreOnly
  have hcalm := h.calm
  have hx : ∀ c' t', thr (operandsAt d c t f).2.2 c' t' = if 8 * c' + t' = 8 * c + t then { thr d c t with issued := n0 } else thr d c' t' := by
    intro c' t'
    rw [hq.thr, hn0]
  generalize hr : operandsAt d c t f = r at he hcalm hx hk
  obtain ⟨vs, me, d1⟩ := r
  simp only at he hcalm hx hk
  have hfold := thr_foldl_modCtx (fun _ => fn (fa f).width) vs d1 c t
  have hfk : CoreOnlyDev d (vs.foldl (fun d v => modCtx d c t v.1 (fn (fa f).width v.2)) d1) :=
    hk.foldl (fun e x he => he.modThr ..) vs
  have hfr : (vs.foldl (fun d v => modCtx d c t v.1 (fn (fa f).width v.2)) d1).ras = d1.ras := by
    clear hfold hfk he hx hk hcalm hr
    induction vs generalizing d1 with
    | nil => rfl
    | cons v vs ih => rw [List.foldl_cons, ih]; rfl
  generalize vs.foldl (fun d v => modCtx d c t v.1 (fn (fa f).width v.2)) d1 = d2 at he hfold hfk hfr
  have h2 : thr d2 c t = { thr d c t with issued := n0, lanes := lanesTo (thr d c t).lanes vs (fun _ => fn (fa f).width) } := by
    rw [hfold]; simp [hx]
  obtain ⟨h3, h3k, h3r⟩ := ha d2
  generalize after d2 = d3 at he h3 h3k h3r
  have h3t : thr d3 c t = g { thr d c t with issued := n0, lanes := lanesTo (thr d c t).lanes vs (fun _ => fn (fa f).width) } := by
    rw [h3, h2]; simp
  have hpc : (thr d3 c t).pc + 1 < 8192 := by
    rw [h3t, hg]; exact h.next
  rw [advance_eq _ _ _ hpc] at he
  have hwk : SameWork (modThr d3 c t (fun x => { x with pc := (thr d3 c t).pc + 1 })) e := by
    rw [he]
    refine (sameWork_issueCycle ..).trans (sameWork_settle ?_)
    rw [(sameWork_issueCycle ..).ras]
    exact (show d3.ras.todo = [] from by rw [h3r, hfr]; exact hcalm)
  refine ⟨⟨n0, ?_⟩, ?_, ?_⟩
  · rw [thr_congr (congrArg Cores.threads hwk.core), thr_modThr_same, h3t, hg]
  · intro c' t' hne
    rw [thr_congr (congrArg Cores.threads hwk.core), thr_modThr, if_neg hne, h3, if_neg hne, hfold, if_neg hne, hx, if_neg hne]
  · exact ((hfk.trans h3k).modThr ..).work hwk

end Sys2Proof.Machine
end

