-- ==== Sys2Proof/Laws/Pages.lean ====
section
/-!
SUPPORT. Access to a register page: a page that admits a master runs the command; the refusals of R49 and R52 in their order; the
commands of PAGE_CTRL.
-/

namespace Sys2Proof.Machine
open Sys2Proof

variable {d : Dev} {m : Master} {a : Nat}

theorem wakePage_runs (h : treeRuns d 2 = true) : wakePage d = d := by simp [wakePage, h]

/-- A page that admits the master lets the command have its effect. -/
theorem guardWrite_ok (h : Admits d (Rg.pageOf a) m) (f : Dev → Dev) : guardWrite d a m f = f d := by
  have := h.exists_
  unfold guardWrite
  simp only [wakePage_runs h.clock, h.reach, h.ready, h.owner]
  cases h2 : pageId (Rg.pageOf a) <;> simp_all

theorem guardRead_ok (h : Answers d (Rg.pageOf a) m) (f : Dev → Dev) : guardRead d a m f = f d := by
  have := h.exists_
  unfold guardRead
  simp only [wakePage_runs h.clock, h.reach, h.ready]
  cases h2 : pageId (Rg.pageOf a) <;> simp_all

theorem Admits.answers (h : Admits d a m) : Answers d a m := ⟨h.clock, h.exists_, h.reach, h.ready⟩

/-- An unimplemented page, or one that the master does not reach, records the access (R49). -/
theorem guardWrite_unimpl (hc : treeRuns d 2 = true) (h : pageId (Rg.pageOf a) = none ∨ reaches d (Rg.pageOf a) m = false) (f : Dev → Dev) :
    guardWrite d a m f = unimpl d a true m := by
  unfold guardWrite
  simp only [wakePage_runs hc]
  rcases h with h | h <;> simp [h]

/-- A page that is not READY refuses first (R52). -/
theorem guardWrite_notReady (hc : treeRuns d 2 = true) (h : (pageId (Rg.pageOf a)).isSome = true) (hr : reaches d (Rg.pageOf a) m = true)
    (hn : (page d (Rg.pageOf a)).ready = false) (f : Dev → Dev) : guardWrite d a m f = pageErr d (Rg.pageOf a) 7 (a % 0x1000) true m := by
  unfold guardWrite
  simp only [wakePage_runs hc, hr, hn]
  cases h2 : pageId (Rg.pageOf a) <;> simp_all

/-- A page whose owner is another master refuses next (R54). -/
theorem guardWrite_owner (hc : treeRuns d 2 = true) (h : (pageId (Rg.pageOf a)).isSome = true) (hr : reaches d (Rg.pageOf a) m = true)
    (hn : (page d (Rg.pageOf a)).ready = true) (ho : mayWrite (page d (Rg.pageOf a)).owner.toNat m = false) (f : Dev → Dev) :
    guardWrite d a m f = pageErr d (Rg.pageOf a) 5 (a % 0x1000) true m := by
  unfold guardWrite
  simp only [wakePage_runs hc, hr, hn, ho]
  cases h2 : pageId (Rg.pageOf a) <;> simp_all

@[simp] theorem rd_modPage (d : Dev) (p : Nat) (f : PageSt → PageSt) (b : Nat) : rd (modPage d p f) b = rd d b := rfl
@[simp] theorem page_wr (d : Dev) (b : Nat) (v : W32) (p : Nat) : page (wr d b v) p = page d p := rfl
@[simp] theorem rd_pageErr (d : Dev) (pg b o : Nat) (w : Bool) (m : Master) (c : Nat) : rd (pageErr d pg b o w m) c = rd d c := rfl

/-- The dirty set takes Kept bits; nothing else changes. -/
theorem markDirty_shape (d : Dev) (b k : Nat) : ∃ c, markDirty d b k = { d with caddy := c } := by
  unfold markDirty
  dsimp only
  split
  · exact ⟨_, rfl⟩
  · exact ⟨_, rfl⟩

theorem rd_markDirty (d : Dev) (b k c : Nat) : rd (markDirty d b k) c = rd d c := by
  obtain ⟨_, h⟩ := markDirty_shape d b k
  rw [h]; rfl

end Sys2Proof.Machine
end

