-- ==== Sys2Proof/Laws/Ports.lean ====
section
/-!
SUPPORT. Buffers, VOQs and ports that go down: what giving buffers up, emptying a VOQ, flushing a port and losing lock can change.
-/

namespace Sys2Proof.Machine
open Sys2Proof

/-- Everything but registers, counters, page headers, event sources, telemetry, the wake time, buffers and pools, admission and egress
is as before. -/
def BufWork (d e : Dev) : Prop :=
  ∃ r c p i t k u a g, e = { d with regs := r, ctrs := c, pages := p, ic := i, tel := t, ket := k, urn := u, adm := a, egr := g }

theorem BufWork.refl (d : Dev) : BufWork d d := ⟨_, _, _, _, _, _, _, _, _, rfl⟩
theorem BufWork.trans {a b c : Dev} (h : BufWork a b) (g : BufWork b c) : BufWork a c := by
  obtain ⟨_, _, _, _, _, _, _, _, _, rfl⟩ := h
  obtain ⟨r, x, p, i, t, k, u, y, z, rfl⟩ := g
  exact ⟨r, x, p, i, t, k, u, y, z, rfl⟩

variable {d e : Dev}

theorem SameWork.buf (h : SameWork d e) : BufWork d e := by
  obtain ⟨r, c, p, i, t, k, rfl⟩ := h
  exact ⟨r, c, p, i, t, k, d.urn, d.adm, d.egr, rfl⟩
theorem BufWork.line (h : BufWork d e) : e.line = d.line := by obtain ⟨_, _, _, _, _, _, _, _, _, rfl⟩ := h; rfl
theorem BufWork.ras (h : BufWork d e) : e.ras = d.ras := by obtain ⟨_, _, _, _, _, _, _, _, _, rfl⟩ := h; rfl
theorem BufWork.link (h : BufWork d e) : e.link = d.link := by obtain ⟨_, _, _, _, _, _, _, _, _, rfl⟩ := h; rfl
theorem BufWork.core (h : BufWork d e) : e.core = d.core := by obtain ⟨_, _, _, _, _, _, _, _, _, rfl⟩ := h; rfl
theorem BufWork.mgt (h : BufWork d e) : e.mgt = d.mgt := by obtain ⟨_, _, _, _, _, _, _, _, _, rfl⟩ := h; rfl
theorem BufWork.life (h : BufWork d e) : e.life = d.life := by obtain ⟨_, _, _, _, _, _, _, _, _, rfl⟩ := h; rfl
theorem BufWork.out (h : BufWork d e) : e.out = d.out := by obtain ⟨_, _, _, _, _, _, _, _, _, rfl⟩ := h; rfl
theorem BufWork.tb (h : BufWork d e) : e.tb = d.tb := by obtain ⟨_, _, _, _, _, _, _, _, _, rfl⟩ := h; rfl
theorem BufWork.work (h : BufWork d e) {x : Dev} (g : SameWork e x) : BufWork d x := h.trans g.buf
theorem BufWork.ite (c : Prop) [Decidable c] {x y : Dev} (h : BufWork d x) (g : BufWork d y) : BufWork d (if c then x else y) := by
  split <;> assumption
theorem BufWork.bump (h : BufWork d e) (a n : Nat) : BufWork d (bump e a n) := h.work ((SameWork.refl e).bump a n)
theorem BufWork.raise (h : BufWork d e) (a n : Nat) : BufWork d (raise e a n) := h.work ((SameWork.refl e).raise a n)
theorem BufWork.set (h : BufWork d e) (u : Urn) (a : Adm) (g : Egr) : BufWork d { e with urn := u, adm := a, egr := g } :=
  h.trans ⟨_, _, _, _, _, _, _, _, _, rfl⟩
theorem BufWork.foldl {β : Type} (f : Dev → β → Dev) (hf : ∀ e x, BufWork d e → BufWork d (f e x)) (l : List β)
    (h : BufWork d e) : BufWork d (l.foldl f e) := by
  induction l generalizing e with
  | nil => exact h
  | cons x l ih => exact ih (hf e x h)

theorem BufWork.probeMax (h : BufWork d e) (k i : Nat) (v : Int) : BufWork d (probeMax e k i v) := by
  unfold Machine.probeMax
  refine .ite _ (.foldl _ (fun e j h => ?_) _ h) h
  exact .ite _ (h.work ((SameWork.refl e).modTel _)) h
theorem BufWork.watchDom (h : BufWork d e) (n : Nat) : BufWork d (watchDom e n) := h.trans ⟨_, _, _, _, _, _, _, _, _, rfl⟩
theorem BufWork.watchStore (h : BufWork d e) (z k : Nat) : BufWork d (watchStore e z k) := h.trans ⟨_, _, _, _, _, _, _, _, _, rfl⟩
theorem BufWork.watchPool (h : BufWork d e) (z : Nat) : BufWork d (watchPool e z) := by
  unfold Machine.watchPool
  dsimp only
  have h1 : ∀ f, BufWork d (modUrnz e z f) := fun f => h.trans ⟨_, _, _, _, _, _, _, _, _, rfl⟩
  have h2 : ∀ (c : Bool) (x : Dev) n, BufWork d x → BufWork d (if c then Machine.raise x (urnPage z) n else x) :=
    fun c x n hx => .ite _ (hx.raise _ _) hx
  exact h2 _ _ _ (h2 _ _ _ (h2 _ _ _ (h1 _)))
theorem BufWork.creditPool (h : BufWork d e) (z n : Nat) : BufWork d (creditPool e z n) :=
  BufWork.watchPool (h.trans ⟨_, _, _, _, _, _, _, _, _, rfl⟩) z
theorem BufWork.chargePool (h : BufWork d e) (z n : Nat) : BufWork d (chargePool e z n) :=
  BufWork.watchPool (BufWork.probeMax (h.trans ⟨_, _, _, _, _, _, _, _, _, rfl⟩) _ _ _) z
theorem BufWork.freeRec (h : BufWork d e) (k : Nat) : BufWork d (freeRec e k) := by
  unfold Machine.freeRec
  dsimp only
  have h1 : BufWork d (modBuf e k (fun _ => { incarn := (bufAt e k).incarn })) := h.trans ⟨_, _, _, _, _, _, _, _, _, rfl⟩
  refine BufWork.creditPool (.ite _ ?_ ?_) _ _
  · exact BufWork.trans (by split <;> first | exact BufWork.watchDom (h1.trans ⟨_, _, _, _, _, _, _, _, _, rfl⟩) _ | exact h1) ⟨_, _, _, _, _, _, _, _, _, rfl⟩
  · split
    · exact BufWork.watchDom (h1.trans ⟨_, _, _, _, _, _, _, _, _, rfl⟩) _
    · exact h1
theorem BufWork.decRef (h : BufWork d e) (x : W32) : BufWork d (decRef e x) := by
  unfold Machine.decRef
  split
  · have h1 : BufWork d (if isolated e (hZone x) = true then e else Machine.bump e (Rg.ATOM_OPS 0) 1) := .ite _ h (h.bump _ _)
    dsimp only
    generalize (if isolated e (hZone x) = true then e else Machine.bump e (Rg.ATOM_OPS 0) 1) = f at h1 ⊢
    refine .ite _ (.ite _ (h1.freeRec _) (h1.trans ⟨_, _, _, _, _, _, _, _, _, rfl⟩)) ((h.bump _ _).raise _ _)
  · exact .ite _ h ((h.bump _ _).raise _ _)
theorem BufWork.freeRefused (h : BufWork d e) (z k : Nat) : BufWork d (freeRefused e z k) := (h.bump _ _).raise _ _
theorem BufWork.freeBy (h : BufWork d e) (x : W32) (k i : Nat) : BufWork d (freeBy e x k i) := by
  unfold Machine.freeBy
  split
  · exact .ite _ (h.decRef _) (.ite _ (h.freeRec _) (h.freeRefused _ _))
  · exact .ite _ h (h.freeRefused _ _)
theorem BufWork.dropDesc (h : BufWork d e) (v : Nat) (x : Desc) : BufWork d (dropDesc e v x) := .ite _ (h.decRef _) (h.freeBy _ _ _)
theorem BufWork.watchSpill (h : BufWork d e) (z : Nat) : BufWork d (watchSpill e z) := by
  unfold Machine.watchSpill
  exact .foldl _ (fun e x he => .ite _ (he.trans ⟨_, _, _, _, _, _, _, _, _, rfl⟩) he) _ h
theorem BufWork.watchPages (h : BufWork d e) (z : Nat) : BufWork d (watchPages e z) := by
  unfold Machine.watchPages
  dsimp only
  have h1 : BufWork d (if (zoneVoqs e z).all (fun e => !e.2.spill) = true then modUrnz e z (fun u => { u with lost := 0, lostPages := [] }) else e) :=
    .ite _ (h.trans ⟨_, _, _, _, _, _, _, _, _, rfl⟩) h
  have h2 : ∀ f, BufWork d (modUrnz (if (zoneVoqs e z).all (fun e => !e.2.spill) = true then modUrnz e z (fun u => { u with lost := 0, lostPages := [] }) else e) z f) :=
    fun f => h1.trans ⟨_, _, _, _, _, _, _, _, _, rfl⟩
  exact BufWork.watchSpill (.ite _ ((h2 _).raise _ _) (h2 _)) z
theorem BufWork.emptyVoq (h : BufWork d e) (z v : Nat) : BufWork d (emptyVoq e z v).1 :=
  BufWork.watchPages (.foldl _ (fun _ x hx => hx.dropDesc v x) _ (h.trans ⟨_, _, _, _, _, _, _, _, _, rfl⟩)) z
theorem BufWork.emptyChain (h : BufWork d e) (z v : Nat) : BufWork d (emptyChain e z v).1 :=
  BufWork.watchPages (.foldl _ (fun _ x hx => hx.dropDesc v x) _ (h.trans ⟨_, _, _, _, _, _, _, _, _, rfl⟩)) z

theorem flushPort_work (d : Dev) (p : Nat) : BufWork d (flushPort d p) := by
  unfold flushPort
  have h1 : ∀ (l : List Nat) (f : Dev × Nat → Nat → Dev × Nat) (_ : ∀ x k, BufWork d x.1 → BufWork d (f x k).1) (x : Dev × Nat),
      BufWork d x.1 → BufWork d (l.foldl f x).1 := by
    intro l f hf
    induction l with
    | nil => intro x hx; exact hx
    | cons k l ih => intro x hx; exact ih _ (hf x k hx)
  have h2 := h1 (List.range 32) (fun x k => ((emptyVoq x.1 (k / 8) (8 * p + k % 8)).1, x.2 + (emptyVoq x.1 (k / 8) (8 * p + k % 8)).2))
    (fun x k hx => hx.emptyVoq _ _) (d, 0) (.refl d)
  dsimp only at h2 ⊢
  refine BufWork.raise (BufWork.bump ?_ _ _) _ _
  exact BufWork.trans (BufWork.foldl (d := d) (fun d c => modStaging d p c (fun s => { s with frames := [] }))
    (fun e c he => he.trans ⟨_, _, _, _, _, _, _, _, _, rfl⟩) (List.range 8) h2) ⟨_, _, _, _, _, _, _, _, _, rfl⟩

/-- Losing lock and judging ports change, beside buffers and counts, the ports and the signals sent to their partners alone. -/
def PortWork (d e : Dev) : Prop := ∃ x ports o, BufWork d x ∧ e = { x with line := { d.line with ports := ports }, out := o }

theorem PortWork.refl (d : Dev) : PortWork d d := ⟨d, _, _, .refl d, rfl⟩
theorem BufWork.port (h : BufWork d e) : PortWork d e := ⟨e, d.line.ports, e.out, h, by rw [← h.line]⟩
theorem PortWork.buf (h : PortWork d e) {y : Dev} (g : BufWork e y) : PortWork d y := by
  obtain ⟨x, ports, o, hx, rfl⟩ := h
  obtain ⟨r, c, p, i, t, k, u, a, g, rfl⟩ := g
  exact ⟨{ x with regs := r, ctrs := c, pages := p, ic := i, tel := t, ket := k, urn := u, adm := a, egr := g }, ports, o,
    hx.trans ⟨_, _, _, _, _, _, _, _, _, rfl⟩, rfl⟩
theorem PortWork.modPort (h : PortWork d e) (p : Nat) (f : PortSt → PortSt) : PortWork d (modPort e p f) := by
  obtain ⟨x, ports, o, hx, rfl⟩ := h
  exact ⟨x, tmod portDflt ports p f, o, hx, rfl⟩
theorem PortWork.emit (h : PortWork d e) (y : Out) : PortWork d (emit e y) := by
  obtain ⟨x, ports, o, hx, rfl⟩ := h
  exact ⟨x, ports, _, hx, rfl⟩
theorem PortWork.signalFault (h : PortWork d e) (p : Nat) (on : Bool) : PortWork d (signalFault e p on) := by
  unfold Machine.signalFault
  split
  · exact h
  · exact (h.modPort _ _).emit _
theorem PortWork.lanes (h : PortWork d e) : e.line.lanes = d.line.lanes := by obtain ⟨_, _, _, _, rfl⟩ := h; rfl
theorem PortWork.lasers (h : PortWork d e) : e.line.lasers = d.line.lasers := by obtain ⟨_, _, _, _, rfl⟩ := h; rfl
theorem PortWork.engines (h : PortWork d e) : e.line.engines = d.line.engines := by obtain ⟨_, _, _, _, rfl⟩ := h; rfl
theorem PortWork.permit (h : PortWork d e) : e.line.permit = d.line.permit := by obtain ⟨_, _, _, _, rfl⟩ := h; rfl
theorem PortWork.ras (h : PortWork d e) : e.ras = d.ras := by obtain ⟨x, _, _, hx, rfl⟩ := h; exact hx.ras
theorem PortWork.judgePort (h : PortWork d e) (p : Nat) : PortWork d (judgePort e p) := by
  unfold Machine.judgePort
  dsimp only
  split
  · exact h
  · split
    · exact (h.modPort _ _).buf ((BufWork.refl _).raise _ _)
    · exact (((h.modPort _ _).buf ((BufWork.refl _).raise _ _)).buf ((BufWork.refl _).bump _ _)).buf (flushPort_work _ _)
theorem PortWork.ite (c : Prop) [Decidable c] {x y : Dev} (h : PortWork d x) (g : PortWork d y) : PortWork d (if c then x else y) := by
  split <;> assumption
theorem PortWork.loseLock (h : PortWork d e) (ls : List Nat) : PortWork d (loseLock e ls) := by
  unfold Machine.loseLock
  induction ls generalizing e with
  | nil => exact h
  | cons l ls ih =>
    have h1 : PortWork d (Machine.modPort (if (port e (lanePort e l)).locks &&& 2 ^ (portLanes e (lanePort e l)).length - 1 ==
        2 ^ (portLanes e (lanePort e l)).length - 1 && portLit e (lanePort e l) then Machine.signalFault e (lanePort e l) true else e)
        (lanePort e l) fun s => { s with locks := clrBit s.locks (l - lanePort e l), opened := false }) :=
      (PortWork.ite _ (h.signalFault _ _) h).modPort _ _
    exact ih (PortWork.judgePort (.ite _ (h1.buf (((BufWork.refl _).bump _ _).bump _ _)) h1) _)

theorem loseLock_work (d : Dev) (ls : List Nat) : PortWork d (loseLock d ls) := (PortWork.refl d).loseLock ls
theorem judgePort_work (d : Dev) (p : Nat) : PortWork d (judgePort d p) := (PortWork.refl d).judgePort p

end Sys2Proof.Machine
end

