-- ==== Sys2Proof/WellFormed.lean ====
section
/-!
DEFINITION. Which commands name things that the hardware has. A command whose operands pass no check here names no core, no master
or no cell of the module; exec is total on it all the same, and changes nothing that the module does not have.
-/

namespace Sys2Proof

/-- A core identifier that names a core: 26 cores of a zone, or one of the four hub cores (R4). -/
def coreOk (c : Cid) : Bool := decide (c.val % 32 < 26) || decide (128 ≤ c.val)

/-- A master that exists: a kernel thread's core names a core (R36). -/
def masterOk (m : Master) : Bool :=
  match m with
  | .kernel c => coreOk c
  | .hostA => true
  | .hostB => true
  | .firmware _ => true

/-- The masters that access one register in one cycle: at least one, each once (R53). -/
def mastersOk (ms : List Master) : Bool := !ms.isEmpty && ms.all masterOk && ms.eraseDups.length == ms.length

/-- The writes of one cycle to the register of byte `a`: their masters, and data of 1 to 8 bytes each from a byte of it on (R46, R53). -/
def writesOk (a : Nat) (ws : List Write) : Bool :=
  mastersOk (ws.map Write.m) && ws.all (fun w => decide (1 ≤ w.nbytes ∧ w.nbytes ≤ 8 ∧ a % 4 + w.off ≤ 3))

/-- Cells of one frame: 1 to 36 of a zone's 131,072, each once (R270). -/
def cellsOk (l : List Nat) : Bool :=
  decide (1 ≤ l.length ∧ l.length ≤ 36) && l.all (fun c => decide (c < 131072)) && l.eraseDups.length == l.length

/-- The command is well formed. -/
def wellFormed (i : Instr) : Bool :=
  match i with
  | .registerWrite addr ws => writesOk addr.toNat ws
  | .unimplementedPageAccess _ m _ => masterOk m
  | .counterLoRead _ m => masterOk m
  | .rcRead _ r => decide (1 ≤ r.nbytes ∧ r.nbytes ≤ 8) && mastersOk r.masters
  | .hold _ m => masterOk m
  | .held _ => true
  | .holdRelease _ m => masterOk m
  | .commit _ m => masterOk m
  | .commitBoundary _ => true
  | .discard _ m => masterOk m
  | .intForce _ m _ => masterOk m
  | .groupHold m _ => masterOk m
  | .groupHoldRelease m _ => masterOk m
  | .groupCommit m _ _ => masterOk m
  | .groupCancel m _ _ _ => masterOk m
  | .epochAction => true
  | .groupPageWrite _ m _ => masterOk m
  | .retrain _ m => masterOk m
  | .isolate _ m _ => masterOk m
  | .flitReceive _ _ _ b _ => b.sent.length == 512 && b.got.length == 512
  | .replayAttribution _ _ => true
  | .zoneIsolate _ _ => true
  | .linkPrbsPass _ => true
  | .linkRetry _ => true
  | .rebuilt _ => true
  | .liMeasure _ _ _ => true
  | .liSwitchover _ _ _ => true
  | .liRecover _ _ => true
  | .liRotate _ => true
  | .li0Restore _ m => masterOk m
  | .li1Restore _ m => masterOk m
  | .interlockHigh _ => true
  | .interlockLow _ => true
  | .laneOverpower _ => true
  | .heaterRetune _ heater _ _ => decide (heater ≤ 4095)
  | .fecCodeword _ _ => true
  | .linkChange _ _ _ _ => true
  | .portOpen _ => true
  | .frameReceive _ _ _ _ _ => true
  | .pauseExpiry _ _ => true
  | .xoff _ => true
  | .xoffRepeat _ => true
  | .shedCount _ => true
  | .parse _ _ => true
  | .parseDone _ _ => true
  | .cellWrite _ _ cells => cellsOk cells
  | .puntPolicerRefill _ => true
  | .flightClose _ _ _ => true
  | .dispatch _ => true
  | .kernelGive _ => true
  | .expressWindow _ => true
  | .activeGrow _ => true
  | .activeShrink _ => true
  | .flightStart _ _ _ => true
  | .flightRebuild _ _ => true
  | .piRaise c _ => coreOk c
  | .levelChange _ => true
  | .opNop c _ _ => coreOk c
  | .opLd c _ _ => coreOk c
  | .opLds c _ _ => coreOk c
  | .opSt c _ _ => coreOk c
  | .opXld c _ _ => coreOk c
  | .opYld c _ _ => coreOk c
  | .opXst c _ _ => coreOk c
  | .opYst c _ _ => coreOk c
  | .opXset c _ _ => coreOk c
  | .opYset c _ _ => coreOk c
  | .opXget c _ _ => coreOk c
  | .opYget c _ _ => coreOk c
  | .opXadd c _ _ => coreOk c
  | .opYadd c _ _ => coreOk c
  | .opLdf c _ _ => coreOk c
  | .opStf c _ _ => coreOk c
  | .opAdd c _ _ => coreOk c
  | .opAdc c _ _ => coreOk c
  | .opSub c _ _ => coreOk c
  | .opSbc c _ _ => coreOk c
  | .opNeg c _ _ => coreOk c
  | .opCmp c _ _ => coreOk c
  | .opTst c _ _ => coreOk c
  | .opMin c _ _ => coreOk c
  | .opMax c _ _ => coreOk c
  | .opMinu c _ _ => coreOk c
  | .opMaxu c _ _ => coreOk c
  | .opMul c _ _ => coreOk c
  | .opMulh c _ _ => coreOk c
  | .opMulhu c _ _ => coreOk c
  | .opDiv c _ _ => coreOk c
  | .opDivu c _ _ => coreOk c
  | .opRem c _ _ => coreOk c
  | .opRemu c _ _ => coreOk c
  | .divisionReady c _ => coreOk c
  | .opAnd c _ _ => coreOk c
  | .opOr c _ _ => coreOk c
  | .opXor c _ _ => coreOk c
  | .opNot c _ _ => coreOk c
  | .opShl c _ _ => coreOk c
  | .opShr c _ _ => coreOk c
  | .opSar c _ _ => coreOk c
  | .opRol c _ _ => coreOk c
  | .opRor c _ _ => coreOk c
  | .opPopc c _ _ => coreOk c
  | .opClz c _ _ => coreOk c
  | .opCtz c _ _ => coreOk c
  | .opBswap c _ _ => coreOk c
  | .opSext c _ _ => coreOk c
  | .opZext c _ _ => coreOk c
  | .opCadd c _ _ => coreOk c
  | .opCset c _ _ => coreOk c
  | .opCget c _ _ => coreOk c
  | .opSetp c _ _ => coreOk c
  | .opKill c _ _ => coreOk c
  | .opLdp c _ _ => coreOk c
  | .opBr c _ _ => coreOk c
  | .opBc c _ _ => coreOk c
  | .opCall c _ _ => coreOk c
  | .opRet c _ _ => coreOk c
  | .opBhb c _ _ => coreOk c
  | .opPush c _ _ => coreOk c
  | .opPop c _ _ => coreOk c
  | .opDrops c _ _ => coreOk c
  | .opFork c _ _ => coreOk c
  | .opJoin c _ _ => coreOk c
  | .joinComplete c _ => coreOk c
  | .opYield c _ _ => coreOk c
  | .opWait c _ _ => coreOk c
  | .opDone c _ _ => coreOk c
  | .doneComplete c _ => coreOk c
  | .opPost c _ _ => coreOk c
  | .opPrio c _ _ => coreOk c
  | .opDrop c _ _ => coreOk c
  | .opPunt c _ _ => coreOk c
  | .opTrap c _ _ => coreOk c
  | .opRett c _ _ => coreOk c
  | .opCsrr c _ _ => coreOk c
  | .opCsrw c _ _ => coreOk c
  | .opFence c _ _ => coreOk c
  | .fenceDone c _ => coreOk c
  | .opHalt c _ _ => coreOk c
  | .illegalOp c _ _ => coreOk c
  | .helperRefused c _ _ => coreOk c
  | .srch c _ _ _ => coreOk c
  | .srchNoRefresh c _ _ _ => coreOk c
  | .srchx c _ _ _ _ => coreOk c
  | .insrt c _ _ _ => coreOk c
  | .insrtOnly c _ _ _ => coreOk c
  | .insrtUpdate c _ _ _ => coreOk c
  | .del c _ _ _ => coreOk c
  | .hashCrc32c c _ _ _ => coreOk c
  | .hashSeeded c _ _ _ => coreOk c
  | .hashToeplitz c _ _ _ => coreOk c
  | .csumSum c _ _ _ => coreOk c
  | .csumComplement c _ _ _ => coreOk c
  | .csumCrc32c c _ _ _ => coreOk c
  | .meterBlind c _ _ _ => coreOk c
  | .meterAware c _ _ _ => coreOk c
  | .count c _ _ _ _ => coreOk c
  | .gld c _ _ _ _ => coreOk c
  | .gldRegister c _ _ _ => coreOk c
  | .gst c _ _ _ _ => coreOk c
  | .gst16 c _ _ _ => coreOk c
  | .gstRegister c _ _ _ => coreOk c
  | .gstImage c _ _ _ => coreOk c
  | .atomFetchAdd c _ _ _ _ => coreOk c
  | .atomFetchAnd c _ _ _ _ => coreOk c
  | .atomFetchOr c _ _ _ _ => coreOk c
  | .atomSwap c _ _ _ _ => coreOk c
  | .atomCompareSwap c _ _ _ _ => coreOk c
  | .lock c _ _ _ _ => coreOk c
  | .unlk c _ _ _ => coreOk c
  | .rand c _ _ _ => coreOk c
  | .tstampNs c _ _ _ => coreOk c
  | .tstampFrac c _ _ _ => coreOk c
  | .mirr c _ _ _ => coreOk c
  | .helperTake c _ _ => coreOk c
  | .helperResult c _ _ _ => coreOk c
  | .postedEffect c _ => coreOk c
  | .helperTimeout c _ _ _ => coreOk c
  | .insertion _ _ => true
  | .masterApply => true
  | .distributionWrite _ => true
  | .learnUpdate _ => true
  | .agingSweep _ _ _ => true
  | .agedReport => true
  | .lockExpired _ _ _ _ => true
  | .dmaRead _ _ q => (q.readErr || decide (q.desc.length = 8))
  | .dmaReadLock _ _ q => (q.readErr || decide (q.desc.length = 8))
  | .dmaWrite _ _ q => (q.readErr || decide (q.desc.length = 8))
  | .dmaWriteUnlock _ _ q => (q.readErr || decide (q.desc.length = 8))
  | .dmaUnlock _ _ q => (q.readErr || decide (q.desc.length = 8))
  | .dmaInsert _ _ q => (q.readErr || decide (q.desc.length = 8))
  | .dmaDelete _ _ q => (q.readErr || decide (q.desc.length = 8))
  | .dmaSearch _ _ q => (q.readErr || decide (q.desc.length = 8))
  | .dmaReadClear _ _ q => (q.readErr || decide (q.desc.length = 8))
  | .forceUnlock _ _ _ _ => true
  | .tblHold _ m _ => masterOk m
  | .tblHeld _ _ => true
  | .rowFetch _ _ _ => true
  | .alloc _ reqs => reqs.all (fun r => cellsOk r.cells)
  | .ownerTransfer _ _ _ _ => true
  | .refAdd _ _ _ _ => true
  | .refDecrement _ _ => true
  | .leakPass _ => true
  | .leakPassEnd _ => true
  | .pageWrite _ _ => true
  | .refill _ _ cells _ _ => (cells.isEmpty || cellsOk cells)
  | .urnPeek _ m _ => masterOk m
  | .logClear _ m => masterOk m
  | .reorderRelease _ => true
  | .gap _ _ => true
  | .expansion _ => true
  | .mirrorExpansion _ => true
  | .creditRequest _ _ => true
  | .creditGrant _ _ => true
  | .voqSend _ _ => true
  | .portSelect _ => true
  | .editDone _ => true
  | .frameTransmit _ => true
  | .shaperRefill _ => true
  | .gwrite m => masterOk m
  | .gread m => masterOk m
  | .mwrite m => masterOk m
  | .mread m => masterOk m
  | .edtWdata _ m _ => masterOk m
  | .hbmRequest _ _ => true
  | .hbmPromote _ _ _ => true
  | .hammerWindow _ => true
  | .refresh _ _ => true
  | .hbmTempRead _ _ => true
  | .hbmTraining x => x.ok.length == 4
  | .readEyeTrack _ => true
  | .patrolScrub _ block => decide (block < 3145728)
  | .migration _ => true
  | .migrationDone _ => true
  | .hbmRestore _ m => masterOk m
  | .hbmRestoreDone _ _ => true
  | .arbRequest _ reqs _ => reqs.eraseDups.length == reqs.length
  | .wdBite _ _ => true
  | .requesterRestore m => masterOk m
  | .clearMax m => masterOk m
  | .arbReqSel m _ => masterOk m
  | .lkuPeek m _ _ => masterOk m
  | .lockGrant addr => decide (addr < 2 ^ 40)
  | .lockRelease addr => decide (addr < 2 ^ 40)
  | .longHold addr => decide (addr < 2 ^ 40)
  | .lkAcquire _ _ => true
  | .lkAcquireTimeout _ _ => true
  | .lkRelease _ _ => true
  | .lkCancel _ _ => true
  | .lkAddrWrite _ _ _ _ => true
  | .fault _ f => match f.burst with | none => true | some x => decide (x.burst < 0xC0000000)
  | .suspectExpiry _ => true
  | .parityError _ _ => true
  | .sramScrub _ _ _ => true
  | .mergeTimeout _ _ => true
  | .rowCopyDone _ => true
  | .retirementJournal => true
  | .pwTestWrite _ m => masterOk m
  | .pwTestRead _ m => masterOk m
  | .restore m => masterOk m
  | .shadowEnd _ _ => true
  | .shadowRunEnd _ => true
  | .puntDoorbell _ _ _ _ => true
  | .injectDoorbell _ _ _ _ => true
  | .tdmaDoorbell _ _ _ _ => true
  | .eventDoorbell _ _ _ _ => true
  | .bar2HoleAccess _ _ _ => true
  | .puntDone _ _ desc readErr => (readErr || decide (desc.length = 8))
  | .injectDirect _ _ desc _ cells readErr => (readErr || decide (desc.length = 8)) && (cells.isEmpty || cellsOk cells)
  | .injectPipeline _ _ desc _ readErr => (readErr || decide (desc.length = 8))
  | .noCells _ _ desc => decide (desc.length = 8)
  | .moderationTimer _ _ _ => true
  | .vectorUnmask _ _ => true
  | .d3hot _ _ => true
  | .d0Return _ => true
  | .functionReset _ => true
  | .ringEnable _ _ _ m => masterOk m
  | .i3cRead _ _ => true
  | .i3cWrite _ _ => true
  | .i3cStatus => true
  | .entdaa _ => true
  | .setdasa _ => true
  | .setnewda _ => true
  | .rstdaa => true
  | .enec _ => true
  | .disec _ => true
  | .getpid => true
  | .getbcr => true
  | .getdcr => true
  | .getstatus => true
  | .getmwl => true
  | .setmwl _ => true
  | .getmrl => true
  | .setmrl _ => true
  | .rstact _ => true
  | .sourceOn _ _ => true
  | .sourceOff _ _ => true
  | .uartRxChar _ _ => true
  | .uartTxChar => true
  | .uartBreak => true
  | .bypass _ => true
  | .idcode _ => true
  | .samplePreload _ => true
  | .extest _ => true
  | .memacc _ _ => true
  | .gpioEdge _ _ => true
  | .edge _ _ => true
  | .select => true
  | .claim _ ms => mastersOk ms
  | .complete _ m _ => masterOk m
  | .latchedEdge _ => true
  | .coalesceRelease _ => true
  | .groupRelease m _ _ => masterOk m
  | .alarmFire _ => true
  | .alarmArm _ m => masterOk m
  | .alarmTimeWrite _ m _ _ => masterOk m
  | .srcClear _ m => masterOk m
  | .forceComplete _ m => masterOk m
  | .refWindow _ _ => true
  | .refLoss _ => true
  | .coastEnd => true
  | .tbSet m => masterOk m
  | .tbAdjust m => masterOk m
  | .tbNowRead m => masterOk m
  | .ppsIn => true
  | .ppsOut => true
  | .ppsOutFall => true
  | .sensorRead temps => temps.length == 64
  | .crank _ => true
  | .vinLow _ => true
  | .vinClear _ => true
  | .shutdown _ => true
  | .thermalTrip _ => true
  | .capWindow _ => true
  | .phaseLimit _ _ => true
  | .unitNap _ => true
  | .unitDoze _ => true
  | .unitDormant _ => true
  | .unitWake _ => true
  | .stateSelect => true
  | .wake _ => true
  | .wakeAt => true
  | .vstbyLoss => true
  | .vinGood _ => true
  | .zonePowerUp _ _ => true
  | .engineCalibrated _ _ => true
  | .zoneOpen _ => true
  | .fwdOpen => true
  | .warm by_ => by_.all (fun e => masterOk e.1)
  | .porst => true
  | .enLow => true
  | .journalProgram => true
  | .flush => true
  | .sync m => masterOk m
  | .snapshot m => masterOk m
  | .autoSnapshot => true
  | .snapshotCommitted => true
  | .saveCfg m => masterOk m
  | .autoCfgSave => true
  | .checkpoint m => masterOk m
  | .autoCheckpoint => true
  | .erase m _ => masterOk m
  | .badBlock _ => true
  | .store m => masterOk m
  | .storeDone _ _ => true
  | .switch m => masterOk m
  | .handoverDone => true
  | .handoverRevert => true
  | .heartbeatSend => true
  | .heartbeat _ _ _ _ => true
  | .heartbeatLoss => true
  | .aliveChange _ => true
  | .joinTimeout => true
  | .twinRetry _ => true
  | .syncRecord r => decide (r.tbl < 32)
  | .reconciled _ _ => true
  | .sample => true
  | .sampleNow m => masterOk m
  | .exportDone => true
  | .clearWm m => masterOk m
  | .pmcClear _ _ m => masterOk m
  | .unfreeze _ _ m => masterOk m
  | .resume _ m _ => masterOk m
  | .hostLinkChange _ _ _ _ => true
  | .distLate => true
  | .syncAcknowledgement => true

end Sys2Proof
end

