-- ==== Sys2Proof/Tests/Slice0.lean ====
section
/-!
SUPPORT. Tests: ill-formed commands that the check refuses, single steps on small states whose results are worked out from the spec, and
for each statement with hypotheses a state and operands that meet them.
-/

namespace Sys2Proof.Tests
open Sys2Proof Sys2Proof.Machine Sys2Proof.Terms

set_option maxRecDepth 20000

/-! ## Well-formedness -/

theorem test_wf_core : wellFormed (.opNop 26 0 0) = false ∧ wellFormed (.opNop 25 0 0) = true ∧ wellFormed (.opNop 131 0 0) = true := by decide
theorem test_wf_master : wellFormed (.hold 0 (.kernel 31)) = false ∧ wellFormed (.hold 0 (.kernel 32)) = true := by decide
theorem test_wf_masters : wellFormed (.rcRead 0 ⟨4, []⟩) = false ∧ wellFormed (.rcRead 0 ⟨4, [.hostA, .hostA]⟩) = false ∧
    wellFormed (.rcRead 0 ⟨4, [.hostB, .hostA]⟩) = true := by decide
theorem test_wf_writes : wellFormed (.registerWrite 0 [⟨.hostA, 0, 0, 0⟩]) = false ∧ wellFormed (.registerWrite 0 [⟨.hostA, 9, 0, 0⟩]) = false ∧
    wellFormed (.registerWrite 0 [⟨.hostA, 8, 0, 0⟩]) = true := by decide
theorem test_wf_cells : wellFormed (.cellWrite 0 0 []) = false ∧ wellFormed (.cellWrite 0 0 [3, 3]) = false ∧
    wellFormed (.cellWrite 0 0 [131072]) = false ∧ wellFormed (.cellWrite 0 0 [131071]) = true := by decide
theorem test_wf_heater : wellFormed (.heaterRetune 0 4096 true true) = false ∧ wellFormed (.heaterRetune 0 4095 true true) = true := by decide
theorem test_wf_desc : wellFormed (.dmaRead 0 0 ⟨[], [], false⟩) = false ∧ wellFormed (.dmaRead 0 0 ⟨[], [], true⟩) = true ∧
    wellFormed (.noCells 0 0 [0]) = false := by decide
theorem test_wf_block : wellFormed (.patrolScrub 0 3145728) = false ∧ wellFormed (.patrolScrub 0 3145727) = true := by decide
theorem test_wf_requests : wellFormed (.arbRequest 0 [5, 5] []) = false ∧ wellFormed (.arbRequest 0 [5, 6] []) = true := by decide
theorem test_wf_address : wellFormed (.longHold (2 ^ 40)) = false ∧ wellFormed (.longHold (2 ^ 40 - 8)) = true := by decide
theorem test_wf_sensors : wellFormed (.sensorRead []) = false ∧ wellFormed (.sensorRead (List.replicate 64 0)) = true := by decide
theorem test_wf_table : wellFormed (.syncRecord ⟨32, [], 0, false, 0⟩) = false ∧ wellFormed (.syncRecord ⟨31, [], 0, false, 0⟩) = true := by decide

/-! ## Small states -/

/-- The state after reset with its device changed. -/
def atDev (f : Dev → Dev) : State := { State.reset with dev := f State.reset.dev }
/-- Page `pg` answers. -/
def ready (pg : Nat) (d : Dev) : Dev := modPage d pg (fun p => { p with ready := true })
/-- Register `a` holds `v`. -/
def reg (a : Nat) (v : W32) (d : Dev) : Dev := wr d a v
/-- The converters are on. -/
def powered (d : Dev) : Dev := { d with ket := { d.ket with off := false } }
/-- The timebase stands at `ns`. -/
def time (ns : Nat) (d : Dev) : Dev := { d with tb := ns * 2 ^ 32 }
/-- Thread `t` of core `c`. -/
def thread (c t : Nat) (x : Thread) (d : Dev) : Dev := modThr d c t (fun _ => x)
/-- The die link of zone `z`. -/
def link (z : Nat) (l : Link) (d : Dev) : Dev := { d with link := tset (fun _ => {}) d.link z l }
/-- Fault channel `k` in a state. -/
def chanAt (k : Nat) (c : Chan) (d : Dev) : Dev := { d with ras := { d.ras with chans := tset chanDflt d.ras.chans k c } }
/-- A page that the hosts and the hub may write answers host A. -/
theorem admits {d : Dev} {pg : Nat} {m : Master} (h : (treeRuns d 2 && (pageId pg).isSome && reaches d pg m && (page d pg).ready &&
    mayWrite (page d pg).owner.toNat m) = true) : Admits d pg m := by
  simp only [Bool.and_eq_true] at h
  exact ⟨h.1.1.1.1, h.1.1.1.2, h.1.1.2, h.1.2, h.2⟩
theorem answers {d : Dev} {pg : Nat} {m : Master} (h : (treeRuns d 2 && (pageId pg).isSome && reaches d pg m && (page d pg).ready) = true) :
    Answers d pg m := by
  simp only [Bool.and_eq_true] at h
  exact ⟨h.1.1.1, h.1.1.2, h.1.2, h.2⟩

/-! ## Chrotale: values worked out from the spec -/

/-- A flight thread with lanes 0 and 2 active; A of lane 0 is `a`. -/
def flight (a : W64) (pc : Nat := 0) : State :=
  atDev (thread 0 0 { state := 1, act := 5, pc := pc, lanes := [(0, { a := a, p := true })], sp := 1, rstack := [.ret 7] })
def aLane : LaneInit := ⟨0, 64, 0, 0, false, true, 0, [], []⟩
/-- A flight of one lane of zone 0. -/
def aFlight (loc : FlightLoc) : Flight :=
  { id := 1, entry := 0, zone := 0, cls := 0, level := 3, pipe := 0, express := false, bank := 0, lanes := [aLane], loc := loc, group := 0,
    displaced := false, faultCore := none, demoted := false, issues := 0, copyOf := none, copied := false, finished := false, order := 0,
    owner := none, placed := 0, trace := [], results := [], verdicts := [] }
/-- The same for a flight that began with FORK_EN 0. -/
def noFork : State := atDev (fun d => { thread 0 0 { state := 1, act := 5, lanes := [(0, { p := true })], flight := some 1 } d with
  bar := { d.bar with flights := [{ aFlight (.run 0 0) with forkEn := false }] } })
/-- A running kernel thread of zone core 0. -/
def kern (x : Thread) : State := atDev (thread 0 7 { x with state := 4, act := 1 })
/-- What a command leaves, or the state before. -/
def after (c : Instr) (s : State) : State :=
  match exec c s with
  | .next t => t
  | .fault _ => s
  | .refused _ => s

/-- R202, its example: with A = 0x81, shr.8 #8 gives 0 with C = 1. -/
theorem test_shr : (lctx (thr (after (.opShr 0 0 0x000008) (flight 0x81)).dev 0 0) 0).a = 0 ∧
    (lctx (thr (after (.opShr 0 0 0x000008) (flight 0x81)).dev 0 0) 0).c = true := by decide
/-- R202: shl.16 #0x0108 of 0x81 reads s = 8 and gives 0x8100 with C = 0 and N = 1. -/
theorem test_shl : lctx (thr (after (.opShl 0 0 0x400108) (flight 0x81)).dev 0 0) 0 = { a := 0x8100, n := true, p := true } := by decide
/-- R202: ror.8 #9 of 0x81 gives 0xC0 with C = 1. -/
theorem test_ror : lctx (thr (after (.opRor 0 0 0x000009) (flight 0x81)).dev 0 0) 0 = { a := 0xC0, n := true, c := true, p := true } := by decide
/-- R202: sar.8 #8 of 0x81 gives 0xFF with C = 1 and N = 1. -/
theorem test_sar : lctx (thr (after (.opSar 0 0 0x000008) (flight 0x81)).dev 0 0) 0 = { a := 0xFF, n := true, c := true, p := true } := by decide
/-- R199: 8-bit 0x80 + 0x80 is 0 with C and V. -/
theorem test_add : lctx (thr (after (.opAdd 0 0 0x000080) (flight 0x80)).dev 0 0) 0 = { z := true, c := true, v := true, p := true } := by decide
/-- R199: NEG of the 8-bit MIN is MIN with borrow and V. -/
theorem test_neg : lctx (thr (after (.opNeg 0 0 0) (flight 0x80)).dev 0 0) 0 = { a := 0x80, n := true, c := true, v := true, p := true } := by decide
/-- R200: division by zero gives 0 with C and V. -/
theorem test_div : lctx (thr (after (.opDiv 0 0 0) (flight 9)).dev 0 0) 0 = { z := true, c := true, v := true, p := true } := by decide
/-- R186: sar.8 #0x108 traps with ILLEGAL_FIELD, vector 3. -/
theorem test_field : (thr (after (.opSar 0 0 0x000108) (flight 0x81)).dev 0 0).pc = 3 ∧
    (thr (after (.opSar 0 0 0x000108) (flight 0x81)).dev 0 0).inTrap = true := by decide
/-- R161: KILL takes the lane with P out of ACT. -/
theorem test_kill : (thr (after (.opKill 0 0 0) (flight 0)).dev 0 0).act = 4 := by decide
/-- R162: with FORK_EN 0 a fork of lane 0 is serialised: the path runs with lane 0 at the target. -/
theorem test_fork : (thr (after (.opFork 0 0 9) noFork).dev 0 0).pc = 9 ∧ (thr (after (.opFork 0 0 9) noFork).dev 0 0).act = 1 := by decide
/-- R225: CRC32C of the nine characters 1 to 9 is the check value of the polynomial. -/
theorem test_crc : crc32c [0x31, 0x32, 0x33, 0x34, 0x35, 0x36, 0x37, 0x38, 0x39] = 0xE3069283 := by decide

/-! ## Witnesses: Chrotale -/

theorem flight_issues : Issues (flight 5).dev 0 0 := ⟨by decide, by decide, by decide, by decide, by decide⟩
theorem flight_last : Issues (flight 5 8190).dev 0 0 := ⟨by decide, by decide, by decide, by decide, by decide⟩
theorem kern_issues : Issues (kern {}).dev 0 7 := ⟨by decide, by decide, by decide, by decide, by decide⟩
theorem flight_free : Free (flight 5).dev 0 0 := ⟨flight_issues, by decide, by decide⟩
theorem kern_free : Free (kern {}).dev 0 7 := ⟨kern_issues, by decide, by decide⟩

/-- Operand forms with which format A instructions execute, at the first and at the last index of the image. -/
theorem test_witness_lane_rules :
    Executes (flight 5).dev 0 0 0 formOp ∧ Executes (flight 5).dev 0 0 0xC0FFFF formOp ∧ Executes (flight 5 8190).dev 0 0 0 formOp ∧
    Executes (flight 5).dev 0 0 0 formA ∧ Executes (flight 5).dev 0 0 0 { formA with ws := [0, 1, 2] } ∧
    Executes (flight 5).dev 0 0 0 (formPlain true 0 0) ∧ Executes (flight 5).dev 0 0 0 { formOp with ws := [0, 1] } :=
  ⟨⟨flight_issues, by decide, by decide, by decide, by decide, by decide, by decide, by decide⟩,
   ⟨flight_issues, by decide, by decide, by decide, by decide, by decide, by decide, by decide⟩,
   ⟨flight_last, by decide, by decide, by decide, by decide, by decide, by decide, by decide⟩,
   ⟨flight_issues, by decide, by decide, by decide, by decide, by decide, by decide, by decide⟩,
   ⟨flight_issues, by decide, by decide, by decide, by decide, by decide, by decide, by decide⟩,
   ⟨flight_issues, by decide, by decide, by decide, by decide, by decide, by decide, by decide⟩,
   ⟨flight_issues, by decide, by decide, by decide, by decide, by decide, by decide, by decide⟩⟩
/-- A store to the window of M; its words take the write. -/
theorem test_witness_StoresWriteTheirPlaces : Executes (flight 5).dev 0 0 0x100020 formDst ∧
    (writeLanes (atIssue (flight 5).dev 0 0) 0 0 (fa 0x100020) [(0, 5), (2, 0)]).ras.todo = [] :=
  ⟨⟨flight_issues, by decide, by decide, by decide, by decide, by decide, by decide, by decide⟩, by decide⟩
theorem noFork_free : Free noFork.dev 0 0 := ⟨⟨by decide, by decide, by decide, by decide, by decide⟩, by decide, by decide⟩

/-- The flights in the slots of the core need every idle flight thread. -/
def fullSlots : State := { flight 5 with dev := { (flight 5).dev with bar := { (flight 5).dev.bar with flights := List.replicate 8 (aFlight (.slot 0)) } } }
theorem fullSlots_free : Free fullSlots.dev 0 0 := ⟨⟨by decide, by decide, by decide, by decide, by decide⟩, by decide, by decide⟩
theorem test_witness_IndexAndStackPointerResults : Free (flight 5).dev 0 0 ∧ Free (flight 5 8190).dev 0 0 ∧
    (0xFFFF : BitVec 24).toNat < 65536 ∧ (0x040000 : BitVec 24).toNat = 4 * 2 ^ 16 ∧ 0 < (thr (flight 5).dev 0 0).sp ∧
    actingLanes (thr (flight 5).dev 0 0) true = [0] ∧ Executes (flight 5).dev 0 0 0 { formOp with ws := [0, 1] } :=
  ⟨flight_free, ⟨flight_last, by decide, by decide⟩, by decide, by decide, by decide, by decide, test_witness_lane_rules.2.2.2.2.2.2⟩
/-- A field of 8 bits from bit 4 of the header window, and one of 64 bits at its end. -/
theorem test_witness_BitFieldsLoadAndStore : ∀ f ∈ [(0x1D0004 : BitVec 24), 0x1C0000, 0xFD07C0],
    ∀ x, x = thr (flight 5).dev 0 0 → ∀ r, r = readLanes (atIssue (flight 5).dev 0 0) (activeLanes x) (fun d n => fieldBytes d 0 0 f n) →
      Issues (flight 5).dev 0 0 ∧ ffM f < 3 ∧ (∀ n ∈ activeLanes x, (if ffM f = 0 then 8 * (lctx x n).cur.toNat + ffOff f else ffOff f) + ffLen f ≤ 2048) ∧
      ffM f ≠ 2 ∧ r.2.1 = .ok ∧ r.2.2.ras.todo = [] ∧ x.pc + 1 < 8192 := by
  intro f hf x hx r hr
  subst hx hr
  simp only [List.mem_cons, List.not_mem_nil, or_false] at hf
  rcases hf with rfl | rfl | rfl <;>
    exact ⟨flight_issues, by decide, by decide, by decide, by decide, by decide, by decide⟩
/-- PUSH into the last entry and POP of the only one. -/
theorem test_witness_PushAndPopMoveEntries : Free (flight 5).dev 0 0 ∧ (thr (flight 5).dev 0 0).sp < 32 ∧ 0 < (thr (flight 5).dev 0 0).sp ∧
    ((List.range 32).foldl (fun d n => coreWrite d 0 3 (tAddr 0 n 1) 8 (if n = 0 then 5 else 0)) (atIssue (flight 5).dev 0 0)).ras.todo = [] ∧
    (readLanes (atIssue (flight 5).dev 0 0) [0, 2] (fun d n => spaceRead d 0 3 (tAddr 0 n 0) 8)).2.1 = .ok ∧
    (readLanes (atIssue (flight 5).dev 0 0) [0, 2] (fun d n => spaceRead d 0 3 (tAddr 0 n 0) 8)).2.2.ras.todo = [] :=
  ⟨flight_free, by decide, by decide, by decide, by decide, by decide⟩
theorem test_witness_PredicateInstructionsChangePAndAct : Free (flight 5).dev 0 0 ∧ OfFlight (thr (flight 5).dev 0 0) ∧
    fjCond 0xE00000 < 15 ∧ FieldsJ (fjCond 0xE00000) 0 0xE00000 ∧ fjT 0xE00000 = 0 ∧ (thr (flight 5).dev 0 0).act % 2 ^ 32 ≠ 0 ∧
    badA { formOp with ws := [2], g := false } (fa 0x800000) = false ∧ stackUnder (thr (flight 5).dev 0 0) (fa 0x800000) = none ∧
    outside (thr (flight 5).dev 0 0) (fa 0x800000) 0 = false ∧ operandStall (flight 5).dev 0 (thr (flight 5).dev 0 0) (fa 0x800000) [0, 0, 2] = false ∧
    (readOperand (atIssue (flight 5).dev 0 0) 0 0 (fa 0x800000) 0).2.1 = .ok ∧ (readOperand (atIssue (flight 5).dev 0 0) 0 0 (fa 0x800000) 0).2.2.ras.todo = [] :=
  ⟨flight_free, Or.inl (by decide), by decide, ⟨by decide, by decide, by decide, by decide⟩, by decide, by decide, by decide, by decide, by decide,
   by decide, by decide, by decide⟩
theorem test_witness_BranchesCallsAndReturnsSetThePc : Free (flight 5).dev 0 0 ∧ FieldsJ 0 0 0x1FFF ∧ (fjCond 0xE81FFF < 15 ∧ fjQ 0xE81FFF < 3 ∧
    FieldsJ (fjCond 0xE81FFF) (fjQ 0xE81FFF) 0xE81FFF) ∧ (thr (flight 5).dev 0 0).rstack.length < 16 ∧ (thr (flight 5).dev 0 0).rstack = .ret 7 :: [] ∧
    FieldsJ (fjCond 0x300001) 0 0x300001 :=
  ⟨flight_free, ⟨by decide, by decide, by decide, by decide⟩, ⟨by decide, by decide, ⟨by decide, by decide, by decide, by decide⟩⟩, by decide, by decide,
   ⟨by decide, by decide, by decide, by decide⟩⟩
/-- No lane moves where none has P; one moves to a child, and with FORK_EN 0 it is serialised. -/
theorem test_witness_ForkMovesLanesOrSerialises : Free (flight 5).dev 0 0 ∧ FieldsJ 0 0 9 ∧ (thr (flight 5).dev 0 0).rstack.length < 16 ∧
    ofBits ((activeLanes (thr (flight 5).dev 0 0)).filter (fun n => (lctx (thr (flight 5).dev 0 0) n).p)) ≠ 0 ∧
    forkEnabled (atIssue (flight 5).dev 0 0) (thr (flight 5).dev 0 0).flight = true ∧
    (slotFlights (atIssue (flight 5).dev 0 0) 0).length < (idleThreads (atIssue (flight 5).dev 0 0) 0).length ∧
    Free noFork.dev 0 0 ∧ forkEnabled (atIssue noFork.dev 0 0) (thr noFork.dev 0 0).flight ≠ true ∧
    Free fullSlots.dev 0 0 ∧ ¬(slotFlights (atIssue fullSlots.dev 0 0) 0).length < (idleThreads (atIssue fullSlots.dev 0 0) 0).length ∧
    ofBits ((activeLanes (thr (kern {}).dev 0 7)).filter (fun n => (lctx (thr (kern {}).dev 0 7) n).p)) = 0 :=
  ⟨flight_free, ⟨by decide, by decide, by decide, by decide⟩, by decide, by decide, by decide, by decide, noFork_free, by decide,
   fullSlots_free, by decide, by decide⟩
/-- A flight thread with a given return stack, waiting or not. -/
def stacked (l : List RFrame) (w : Wait) (p : Option Nat) : State :=
  atDev (thread 0 1 { state := 1, act := 1, rstack := l, wait := w, parent := p, flight := none })
theorem test_witness_JoinActsOnTheTopFrame :
    (∀ l ∈ [[RFrame.child 2 true 4 []], [.child 2 false 4 []], [.serial true 8191 4 0], [.serial false 9 4 1], [], [.ret 7]], ∀ p ∈ [none, some 0],
      canIssue (thr (stacked l .none p).dev 0 1) = true ∧ unitRuns (stacked l .none p).dev 0 = true ∧
      nextThread (stacked l .none p).dev 0 = some 1 ∧ (fetchAt (stacked l .none p).dev 0 1).2.1 = false ∧ (thr (stacked l .none p).dev 0 1).flight = none ∧
      (atIssue (stacked l .none p).dev 0 1).ras.todo = [] ∧ (thr (stacked l .none p).dev 0 1).state = 1) ∧
    Calm (stacked [.child 2 false 4 [(2, {}), (4, {})]] .join none).dev ∧
    (thr (stacked [.child 2 false 4 [(2, {}), (4, {})]] .join none).dev 0 1).wait = .join ∧
    ([(2, ({} : LaneCtx)), (4, {})].map (·.1)).Nodup :=
  ⟨by decide, ⟨rfl, rfl⟩, by decide, by decide⟩

/-- A kernel role of thread 7 and a hub page of its core that answers. -/
def kernPage : State := atDev (fun d => ready (Rg.pageOf (Rg.CORE_KCTRL 0)) (thread 0 7 { state := 5, dbl := true, tpc := 9 } d))
/-- The kernel queue of zone 0 full. -/
def fullQueue : State := atDev (fun d => { d with bar := { d.bar with items := [(1, List.replicate 4096 0)] } })
theorem test_witness_KernelThreadInstructions : Free (kern {}).dev 0 7 ∧ OfKernel (thr (kern {}).dev 0 7) ∧ kernelRole (atIssue (kern {}).dev 0 7) 0 7 = true ∧
    badItem 1 (lctx (thr (kern {}).dev 0 7) 0).a = false ∧ eventResv (atIssue (kern {}).dev 0 7) 1 < 4096 - (items (kern {}).dev 1).length ∧
    (∃ v, badItem 1 v = true) ∧ (0x00000F : BitVec 24).toNat < 16 ∧ (pageId (Rg.pageOf (Rg.CORE_KCTRL 0))).bind kctrlOf = some (0, Rg.CORE_KCTRL 0 % 0x1000) ∧
    Admits kernPage.dev (Rg.pageOf (Rg.CORE_KCTRL 0)) .hostA ∧ (128 : W32).toNat.testBit 7 = true ∧ (thr kernPage.dev 0 7).state = 5 :=
  ⟨kern_free, rfl, by decide, by decide, by decide, ⟨BitVec.allOnes 64, by decide⟩, by decide, by decide, admits (by decide), by decide, by decide⟩
theorem test_witness_VerdictsAndTheEndOfAFlight : OfFlight (thr (flight 5).dev 0 0) ∧ Issues (flight 5).dev 0 0 ∧
    (readLanes (atIssue (flight 5).dev 0 0) (actingLanes (thr (flight 5).dev 0 0) true) (fun d n => spaceRead d 0 1 (mAddr 0 n 0x1E) 2)).2.1 = .ok ∧
    Free (flight 5).dev 0 0 ∧ Calm (stacked [] .done (some 0)).dev ∧ mayEnd (stacked [] .done (some 0)).dev 0 1 = true ∧
    (thr (stacked [] .done (some 0)).dev 0 1).parent = some 0 ∧ kernelRole (stacked [] .done (some 0)).dev 0 1 = false :=
  ⟨Or.inl (by decide), flight_issues, by decide, flight_free, ⟨rfl, rfl⟩, by decide, by decide, by decide⟩
/-- A kernel thread in a trap. -/
theorem test_witness_SystemInstructions : Free (flight 5).dev 0 0 ∧ (thr (flight 5).dev 0 0).inTrap = false ∧ (0xF : BitVec 24).toNat < 16 ∧
    (∃ x : Thread, x = thr (kern { inTrap := true, tpc := 8190 }).dev 0 7 ∧ x.inTrap = true ∧ x.tpc + 1 < 8192) ∧
    assigned ((0xFF000000 : W32).toNat / 2 ^ 24) = false ∧ Free (kern {}).dev 0 7 ∧ OfKernel (thr (kern {}).dev 0 7) :=
  ⟨flight_free, by decide, by decide, ⟨_, rfl, by decide, by decide⟩, by decide, kern_free, rfl⟩
/-- Two ready threads of zone core 0: a flight of level 0 and one of level 3. -/
def twoReady : State := atDev (fun d => thread 0 1 { state := 1, act := 1, level := 3 } (thread 0 0 { state := 1, act := 1 } d))
theorem test_witness_FenceAndDivisionWaits : nextThread twoReady.dev 0 = some 1 ∧ Calm twoReady.dev ∧ nextThread twoReady.dev 0 ≠ some 0 ∧ Free (flight 5).dev 0 0 ∧ (thr (stacked [] .fence none).dev 0 1).wait = .fence ∧
    outstanding (stacked [] .fence none).dev 0 1 = false ∧ (thr (stacked [] .div none).dev 0 1).wait = .div :=
  ⟨by decide, ⟨rfl, rfl⟩, by decide, flight_free, by decide, by decide, by decide⟩
theorem test_witness_CausesTrapBeforeAnyEffect : Free (flight 5).dev 0 0 ∧ badA formOp (fa 0x000100) = true ∧
    (badA formOp (fa 0x300001) = false ∧ (fa 0x300001).b = 6 ∧ (thr (flight 5).dev 0 0).sp ≤ (fa 0x300001).d) ∧
    (badA formOp (fa 0x10FFFF) = false ∧ (fa 0x10FFFF).b ≠ 6 ∧ (actingLanes (thr (flight 5).dev 0 0) false).filter (outside (thr (flight 5).dev 0 0) (fa 0x10FFFF)) ≠ []) :=
  ⟨flight_free, by decide, by decide, by decide⟩

/-! ## Witnesses: Infusers -/

/-- The words of each helper form. -/
def formWord (q : Nat × Nat) : W32 := hWord q.1 q.2 0 (if q.1 = 0xC4 then 8 else if q = (0xC9, 12) then 1 else 0)
/-- Table 0 of zone 0 and extension table 0 are EXACT with keys of 8 bytes. -/
def tabled (d : Dev) : Dev :=
  wf (wf (wf (wf d (Rg.TBL_DESC 0 0) Fl.TBL_DESC_TYPE 1) (Rg.TBL_DESC 0 0) Fl.TBL_DESC_KEY_BYTES 8) (Rg.HTB_XDESC 0) Fl.HTB_XDESC_TYPE 1)
    (Rg.HTB_XDESC 0) Fl.HTB_XDESC_KEY_BYTES 8
/-- A thread that may issue the form: kernel threads for registers, one of the hub for images. -/
def formCore (q : Nat × Nat) : Cid := if q = (0xC9, 12) then 128 else 0
def formState (q : Nat × Nat) : State :=
  let k := q = (0xC9, 12) ∨ q = (0xC8, 8) ∨ q = (0xC9, 8)
  atDev (fun d => thread (formCore q) 0 { state := if k then 4 else 1, act := 5 } (tabled d))
/-- Every form is accepted somewhere. -/
theorem test_witness_HelperInstructionsEnterTheirQueue : ∀ q ∈ helperForms.map (·.2),
    let s := formState q
    let c := formCore q
    let e := atIssue s.dev c 0
    let cap := captureAll e c 0 (formWord q) (keyBytes (formWord q) (helperRegs e c 0 (formWord q))) [0, 2]
    canIssue (thr s.dev c 0) = true ∧ unitRuns s.dev c = true ∧ nextThread s.dev c = some 0 ∧ (fetchAt s.dev c 0).2.1 = false ∧ (thr s.dev c 0).flight = none ∧
    helperRefuses s.dev c 0 (formWord q) = false ∧ actingLanes (thr s.dev c 0) (hGuard (formWord q)) = [0, 2] ∧
    slotPending s.dev c 0 [0, 2] [hSlot (formWord q)] = false ∧ queueFull s.dev c (helperOf q.1) = false ∧
    cap.2.1 = .ok ∧ cap.2.2.ras.todo = [] := by decide
theorem test_witness_RefusedHelperInstructionsTrap : Free (flight 5).dev 0 0 ∧ (thr (flight 5).dev 0 0).inTrap = false ∧
    helperRefuses (flight 5).dev 0 0 0xC0000000 = true ∧ helperRefuses (flight 5).dev 0 0 0xEF000000 = true :=
  ⟨flight_free, by decide, by decide, by decide⟩
/-- The lane at the front of a queue, and a state with one entry of two lanes, or of one. -/
def frontLane (a : W64) : HLane := ⟨0, a, [0, 0, 0, 0, 0, 0, 0, 1], 0, 0, 0, 0, 0, false, false⟩
def queued (op sub : Nat) (a : W64) (l : List HLane) : State :=
  atDev (fun d => { d with inf := { d.inf with queues := [(helperOf op, [{ word := hWord op sub 0 0, t := 0, home := 0, lanes := frontLane a :: l, flight := none, copy := false, stamp := 7, regs := [] }])] } })
/-- The same entry waits in cores 0 and 1, of which core 0 has its turn first. -/
def queuedTwice : State := let s := queued 0xCA 8 16 []
  { s with dev := { s.dev with inf := { s.dev.inf with queues := s.dev.inf.queues ++ s.dev.inf.queues.map (fun e => (16 + e.1, e.2)) } } }
theorem test_witness_HelperTakesTheOldestLane :
    (queue queuedTwice.dev 1 (helperOf 0xCA) ≠ [] ∧ sharedRate 1 (helperOf 0xCA) = true ∧ nextCore queuedTwice.dev 0 (helperOf 0xCA) = some 0) ∧
    (∀ q ∈ [(0xC4, 0), (0xCE, 0), (0xC8, 3), (0xC9, 3), (0xCA, 8)], ∀ l ∈ [[], [frontLane 0]],
      (queue (queued q.1 q.2 16 l).dev 0 (helperOf q.1)).map (fun e => (e.lanes.length, hOp e.word, hSub e.word, e.copy)) = [(1 + l.length, q.1, q.2, false)] ∧
      (queued q.1 q.2 16 l).dev.ras.todo = [] ∧ (queued q.1 q.2 16 l).dev.inf.posts = [] ∧
      nextCore (queued q.1 q.2 16 l).dev 0 (helperOf q.1) = some 0) ∧
    unmapped (queued 0xC8 3 16 []).dev 0 8 16 = false ∧ unmapped (queued 0xC8 3 0 []).dev 0 8 (BitVec.allOnes 64) = true ∧
    hbmLost (queued 0xCA 8 16 []).dev 16 = false := by decide
def answered (r : HRes) (p : List HPost) : State := atDev (fun d => { d with inf := { d.inf with results := [r], posts := p } })
def aResult : HRes := ⟨6, true, 0, 0, 0, 3, 31, 5, false, none⟩
theorem test_witness_HelperResultsPostsAndTimeouts : Calm (answered aResult []).dev ∧
    (answered aResult []).dev.inf.results.find? (fun r => r.timed && r.cid == 0 && r.home == 0 && r.slot == 3 && r.lane == 31) = some aResult ∧
    (thr (answered aResult []).dev 0 0).flight = aResult.flight ∧
    (answered aResult [⟨0, 6, 0, 0, 3, 31, .store 8 [1, 2]⟩]).dev.inf.posts.find? (fun p => p.cid == 0 && p.helper == 6) =
      some ⟨0, 6, 0, 0, 3, 31, .store 8 [1, 2]⟩ ∧ hbmLost (answered aResult []).dev 8 = false :=
  ⟨⟨rfl, rfl⟩, by decide, by decide, by decide, by decide⟩
/-- R218: a posted store of two bytes lands big-endian in address order, and nothing else changes. -/
theorem test_store : (after (.postedEffect 0 6) (answered aResult [⟨0, 6, 0, 0, 3, 31, .store 8 [1, 2]⟩])).mem = [(8, 1), (9, 2)] := by decide

/-! ## Witnesses: register pages, links -/

/-- The page of TB is ready; its header as given. -/
def paged (pg : Nat) (x : PageSt) : State := atDev (fun d => modPage d pg (fun _ => { x with ready := true }))
/-- The page number of ADM of zone 0 and a waiting value of its ADM_STORE_PFC. -/
def admPg : Nat := Rg.pageOf (Rg.ADM_STORE_PFC 0)
def waitingAt (held : Bool) (a : Nat) (w v : W32) (x : PageSt) : State :=
  atDev (fun d => modPage { d with heldW := if held then [(a, ⟨w, v⟩)] else [], staged := if held then [] else [(a, ⟨w, v⟩)] } (a / 0x1000)
    (fun _ => { x with ready := true }))
def spill : Nat := Rg.ADM_STORE_PFC 0
theorem test_witness_PagesHoldAndRelease : (pageId (spill / 0x1000)).isSome = true ∧
    Admits (paged (spill / 0x1000) {}).dev (spill / 0x1000) .hostA ∧ mayHold (paged (spill / 0x1000) { hold := true }).dev (spill / 0x1000)
      ((pageId (spill / 0x1000)).getD ⟨0, 0, 0, 0⟩) = true ∧ Calm (paged (spill / 0x1000) {}).dev ∧
    Admits (paged (spill / 0x1000) { group := true }).dev (spill / 0x1000) .hostA ∧
    Admits (waitingAt true spill 0xF7F 1 { hold := true, held := true }).dev (spill / 0x1000) .hostA ∧
    waitingOf (waitingAt true spill 0xF7F 1 { hold := true, held := true }).dev.heldW (spill / 0x1000) = [⟨spill, 0xF7F, 1⟩] ∧
    ((pageId (spill / 0x1000)).getD ⟨0, 0, 0, 0⟩).ty ≠ 0x22 ∧ ((pageId (spill / 0x1000)).getD ⟨0, 0, 0, 0⟩).ty ≠ 0x28 :=
  ⟨by decide, admits (by decide), by decide, ⟨rfl, rfl⟩, admits (by decide), admits (by decide), by decide, by decide, by decide⟩

/-- The page of a register. -/
def pidOf (a : Nat) : PageId := (pageId (a / 0x1000)).getD ⟨0, 0, 0, 0⟩
theorem test_witness_CommitsTakeStagedValues :
    let a := Rg.ADM_STORE_PFC 0
    let s := waitingAt false a 0x7FFF7FFF 0x00010002 { commit := true }
    let b := waitingAt false a 0x7FFF7FFF 0x00020001 { commit := true }
    Admits (paged admPg {}).dev admPg .hostA ∧ (page (paged admPg {}).dev admPg).held = false ∧ Calm s.dev ∧
    (atBoundary (paged admPg { commit := true }).dev admPg = true ∧ waitingOf (paged admPg { commit := true }).dev.staged admPg = []) ∧
    (atBoundary s.dev admPg = true ∧ waitingOf s.dev.staged admPg = [⟨a, 0x7FFF7FFF, 0x00010002⟩]) ∧
    ((commitRules b.dev (pidOf a) [⟨a, 0x7FFF7FFF, 0x00020001⟩] a).all (fun r => r.ok (viewOf b.dev [⟨a, 0x7FFF7FFF, 0x00020001⟩])) ≠
      (commitRules s.dev (pidOf a) [⟨a, 0x7FFF7FFF, 0x00010002⟩] a).all (fun r => r.ok (viewOf s.dev [⟨a, 0x7FFF7FFF, 0x00010002⟩]))) ∧
    (pidOf a).ty = 0x24 ∧ (pidOf a).idx = 0 ∧ (pidOf a).zone = 0 ∧ Admits s.dev admPg .hostA :=
  ⟨admits (by decide), by decide, ⟨rfl, rfl⟩, by decide, by decide, by decide, by decide, by decide, by decide, admits (by decide)⟩

/-- The group holds page `admPg` alone; GROUP_HOLD as given; the epoch is `e`, the time 5. -/
def grouped (hold : Bool) (e : W32) (x : PageSt) : State :=
  atDev (fun d => modPage (time 5 (reg (Rg.DEV_GROUP_PAGE 0) (BitVec.ofNat 32 (2 ^ 31 + admPg)) (reg Rg.DEV_GROUP_EPOCH_LO e
    (wf (ready (Rg.pageOf Rg.DEV_GROUP_HOLD) d) Rg.DEV_GROUP_HOLD Fl.DEV_GROUP_HOLD_HOLD (if hold then 1 else 0))))) admPg (fun _ => { x with ready := true }))
/-- The same with a release that waits for the epoch. -/
def groupedRel : State := { grouped true 6 {} with dev := { (grouped true 6 {}).dev with relPend := true } }
/-- The same with a commit that waits for the epoch. -/
def grouped' : State := { grouped true 5 {} with dev := wf (grouped true 5 {}).dev Rg.DEV_GROUP_HOLD Fl.DEV_GROUP_HOLD_COMMIT 1 }
theorem test_witness_GroupHoldActsOnItsPages :
    Admits (grouped false 5 {}).dev (Rg.pageOf Rg.DEV_GROUP_HOLD) .hostA ∧ Calm (grouped false 5 {}).dev ∧
    rb (grouped false 5 {}).dev Rg.DEV_GROUP_HOLD Fl.DEV_GROUP_HOLD_HOLD = false ∧ (grouped false 5 {}).dev.relPend = false ∧
    (admPg ∈ groupNames (grouped false 5 {}).dev ∧ (pageId admPg).isSome = true ∧ reaches (grouped false 5 {}).dev admPg .hostA = true) ∧
    mayWrite (page (grouped false 5 {}).dev admPg).owner.toNat .hostA = true ∧ mayWrite (page (grouped false 5 { owner := 2 }).dev admPg).owner.toNat .hostA = false ∧
    (rb (grouped true 5 { group := true }).dev Rg.DEV_GROUP_HOLD Fl.DEV_GROUP_HOLD_HOLD = true ∧
      (grouped true 5 { group := true }).dev.pages.filter (fun e => e.2.group) = [(admPg, { ready := true, group := true })]) ∧
    (∀ pg ∈ groupNames (grouped false 5 {}).dev, (page (grouped false 5 {}).dev pg).held = false) ∧
    groupedRel.dev.relPend = true ∧ (grouped true 5 { group := true, owner := 2 }).dev.pages.filter (fun e => e.2.group) = [(admPg, { ready := true, group := true, owner := 2 })] ∧
    (rd64 (grouped false 5 {}).dev Rg.DEV_GROUP_EPOCH_LO Rg.DEV_GROUP_EPOCH_HI ≤ nowNs (grouped false 5 {}).dev) ∧
    (nowNs (grouped false 6 {}).dev < rd64 (grouped false 6 {}).dev Rg.DEV_GROUP_EPOCH_LO Rg.DEV_GROUP_EPOCH_HI) ∧
    groupPending (grouped false 5 {}).dev = false ∧ epochCome (grouped false 6 {}).dev = false ∧
    commitPending grouped'.dev = true ∧ rd64 grouped'.dev Rg.DEV_GROUP_EPOCH_LO Rg.DEV_GROUP_EPOCH_HI ≤ nowNs grouped'.dev :=
  ⟨admits (by decide), ⟨rfl, rfl⟩, by decide, by decide, by decide, by decide, by decide, by decide, by decide, by decide, by decide, by decide, by decide, by decide, by decide, by decide, by decide⟩
/-- Offset 0x200 of the TB page is a hole; its RC and counter registers lie elsewhere. -/
theorem test_witness_RegisterWritesFollowTheChecks :
    let ad (d : Dev) (a : Nat) : Prop := Admits d (a / 0x1000) .hostA
    (treeRuns (paged admPg {}).dev 2 = true ∧ Calm (paged admPg {}).dev) ∧
    (∀ k ∈ [admPg, 0], (pageId k).isSome = true ∧ reaches State.reset.dev k .hostA = true) ∧ inWindow State.reset.dev (0x1000 * admPg) .hostA = false ∧
    (page State.reset.dev admPg).ready = false ∧ ownerOk (paged admPg { owner := 2 }).dev admPg 0x40 .hostA = false ∧
    ownerOk (paged admPg {}).dev admPg 0x40 .hostA = true ∧ 4 < (0x1000 * admPg + 0x41) % 4 + 4 ∧
    isHole (paged admPg {}).dev admPg (pidOf (0x1000 * admPg)) 0xFFC = true ∧
    (isHole (paged admPg {}).dev admPg (pidOf (0x1000 * admPg)) 0x04 = false ∧ sideReg (pidOf (0x1000 * admPg)) 0x04 = true) ∧
    ad (paged (Rg.pageOf Rg.DEV_GROUP_EPOCH_LO) {}).dev Rg.DEV_GROUP_EPOCH_LO ∧ ad (paged (Rg.pageOf Rg.DEV_ERR) {}).dev Rg.DEV_ERR ∧
    (ad (paged (Rg.URN_SPILL_REGION 3 / 0x1000) {}).dev (Rg.URN_SPILL_REGION 3) ∧ ad (paged (Rg.URN_SPILL_REGION 3 / 0x1000) { held := true }).dev (Rg.URN_SPILL_REGION 3) ∧
      (0x85F : W64).toNat % 128 ≤ 95 ∧ (0x85F : W64).toNat / 256 % 16 ≤ 8) ∧
    (ad (paged (Rg.ADM_STORE_PFC 3 / 0x1000) {}).dev (Rg.ADM_STORE_PFC 3) ∧ getF ((30464 : W64).setWidth 32) Fl.ADM_STORE_PFC_XOFF ≤ 30464) ∧
    (pageEvents (pidOf Rg.TB_CMD)).isSome = true ∧ Admits (paged (Rg.pageOf Rg.DEV_GROUP_EPOCH_LO) {}).dev (Rg.pageOf Rg.DEV_GROUP_EPOCH_LO) .hostB ∧
    (page (paged admPg { group := true }).dev admPg).group = true ∧ pageFor State.reset.dev 0x2000000 .hostA = none ∧
    inWindow State.reset.dev 0x2000000 .hostA = false :=
  ⟨⟨by decide, rfl, rfl⟩, by decide, by decide, by decide, by decide, by decide, by decide, by decide, by decide, admits (by decide), admits (by decide),
   ⟨admits (by decide), admits (by decide), by decide, by decide⟩, ⟨admits (by decide), by decide⟩, by decide, admits (by decide), by decide, by decide, by decide⟩
theorem test_witness_ForcedEventsRaiseTheirBits : ∃ p b n, pageId (Rg.pageOf Rg.TB_CMD) = some p ∧ pageEvents p = some (b, n) ∧ 0 < n ∧
    Admits (paged (Rg.pageOf Rg.TB_CMD) {}).dev (Rg.pageOf Rg.TB_CMD) .hostA ∧ (page (paged (Rg.pageOf Rg.TB_CMD) {}).dev (Rg.pageOf Rg.TB_CMD)).intMask.getLsbD 0 = false ∧
    ∀ z, z < 4 → isolated (paged (Rg.pageOf Rg.TB_CMD) {}).dev z = false :=
  ⟨pidOf Rg.TB_CMD, ((pageEvents (pidOf Rg.TB_CMD)).getD (0, 0)).1, ((pageEvents (pidOf Rg.TB_CMD)).getD (0, 0)).2, by decide, by decide, by decide, admits (by decide), by decide, by decide⟩
/-- A counter, a register with an RC field, and the firmware ready with MEMACC enabled. -/
def fwUp : State := atDev (fun d => ready (Rg.pageOf Rg.DEV_GROUP_EPOCH_LO) (wf (wf d Rg.MGT_FW Fl.MGT_FW_READY 1) Rg.MGT_DBG Fl.MGT_DBG_MEMACC_EN 1))
/-- The same with MEMACC disabled. -/
def noMemacc : State := { fwUp with dev := wf fwUp.dev Rg.MGT_DBG Fl.MGT_DBG_MEMACC_EN 0 }
def vin : Nat := Rg.PWR_VIN
theorem test_witness_ReadsLatchClearAndGoThroughTheFirmware :
    (Answers (paged (Rg.TM_FLUSHED 0 0 / 0x1000) {}).dev (Rg.TM_FLUSHED 0 0 / 0x1000) .hostA ∧ windowZone (Rg.TM_FLUSHED 0 0) = none ∧
      counterLow (paged (Rg.TM_FLUSHED 0 0 / 0x1000) {}).dev (Rg.TM_FLUSHED 0 0) = true ∧ Rg.TM_FLUSHED 0 0 % 4 = 0) ∧
    fwReady fwUp.dev = true ∧ Rg.DEV_GROUP_EPOCH_LO + 4 ≤ 2 ^ 26 ∧ Calm fwUp.dev ∧ Admits fwUp.dev (Rg.pageOf Rg.DEV_GROUP_EPOCH_LO) fwMaster ∧
    rb fwUp.dev Rg.MGT_DBG Fl.MGT_DBG_MEMACC_EN = true ∧ rb noMemacc.dev Rg.MGT_DBG Fl.MGT_DBG_MEMACC_EN = false ∧
    (Answers (paged (vin / 0x1000) {}).dev (vin / 0x1000) .hostB ∧ windowZone vin = none ∧ vin % 4 = 0 ∧ 0x40 ≤ vin % 0x1000 ∧
      ctrAt (pidOf vin) (vin % 0x1000) = none ∧ ((regAt (pidOf vin) (vin % 0x1000)).map (fun e => openReg (paged (vin / 0x1000) {}).dev (pidOf vin) e.1.off e.2)) = some false ∧
      rcFields (pidOf vin) (vin % 0x1000) ≠ []) ∧
    (isHole (paged (vin / 0x1000) {}).dev (vin / 0x1000) (pidOf vin) (vin % 0x1000 / 4 * 4) = false ∧ sideReg (pidOf vin) (vin % 0x1000 / 4 * 4) = true ∧
      (vin + 1) % 4 + 3 ≤ 4) :=
  ⟨⟨answers (by decide), by decide, by decide, by decide⟩, by decide, by decide, ⟨rfl, rfl⟩, admits (by decide), by decide, by decide,
   ⟨answers (by decide), by decide, by decide, by decide, by decide, by decide, by decide⟩, by decide⟩
/-- The link of zone 3 in a state, with its downward direction as given. -/
def linked (l : Link) (ns : Nat := 0) : State := atDev (fun d => time ns (ready (Rg.pageOf (Rg.XB_LINK_CTRL 3)) (link 3 l d)))
theorem test_witness_LinksDeliverInOrderAndRetrain :
    (lnk (linked { state := 3 }).dev 3).state = 3 ∧ (dirOf (lnk (linked { state := 3 }).dev 3) true).fails < 8 ∧
    (∀ up, 8 ≤ (dirOf (lnk (linked { state := 3, up := { fails := 8 }, down := { fails := 8 } }).dev 3) up).fails) ∧
    (∀ up, (dirOf (lnk (linked { up := { pairs := [([1, 2], [1, 3])] }, down := { pairs := [([1, 2], [1, 3])] } }).dev 3) up).pairs = [([1, 2], [1, 3])]) ∧
    Calm (linked {}).dev ∧
    (∀ up, (512 : Nat) = (List.replicate 512 (7 : BitVec 40)).length ∧ (dirOf (lnk (linked { state := 3 }).dev 3) up).next = 0 ∧
      (dirOf (lnk (linked { state := 3 }).dev 3) up).buf = [] ∧ (dirOf (lnk (linked { state := 3 }).dev 3) up).next ≠ 9) ∧
    (dirLanes (lnk (linked {}).dev 3).up = 512 ∧ dirLanes (lnk (linked {}).dev 3).down = 512) ∧
    Admits (linked {}).dev (Rg.pageOf (Rg.XB_LINK_CTRL 3)) .hostA ∧ isolated (linked { isolated := true }).dev 3 = true ∧
    rb (wf (linked { isolated := true }).dev (Rg.XB_LINK_CTRL 3) Fl.XB_LINK_CTRL_ISOLATE 1) (Rg.XB_LINK_CTRL 3) Fl.XB_LINK_CTRL_ISOLATE = true ∧
    (∃ cause, isoCause (linked { up := { lost := 16 }, down := { lost := 16 } }).dev 3 cause = false) ∧
    1000000 ≤ elapsed (nowNs (linked { state := 2, isolated := true, prbs := 7 } 1000007).dev) (lnk (linked { state := 2, isolated := true, prbs := 7 } 1000007).dev 3).prbs ∧
    rb (linked { state := 2, isolated := true, prbs := 7 } 1000007).dev (Rg.XB_LINK_CTRL 3) Fl.XB_LINK_CTRL_ISOLATE = false ∧
    (rb (wf (linked { state := 2, isolated := true, prbs := 7 } 1000007).dev (Rg.XB_LINK_CTRL 3) Fl.XB_LINK_CTRL_ISOLATE 1) (Rg.XB_LINK_CTRL 3) Fl.XB_LINK_CTRL_ISOLATE = true ∧
      nowNs (wf (linked { state := 2, isolated := true, prbs := 7 } 1000007).dev (Rg.XB_LINK_CTRL 3) Fl.XB_LINK_CTRL_ISOLATE 1) = 1000007) ∧
    (rf (linked { isolated := true } (2 ^ 40)).dev Rg.RAS_LINK_RETRY Fl.RAS_LINK_RETRY_PERIOD_MS * 1000000 ≠ 0 ∧
      rf (linked { isolated := true } (2 ^ 40)).dev Rg.RAS_LINK_RETRY Fl.RAS_LINK_RETRY_PERIOD_MS * 1000000 ≤ elapsed (nowNs (linked { isolated := true } (2 ^ 40)).dev) 0) :=
  ⟨by decide, by decide, by decide, by decide, ⟨rfl, rfl⟩, by decide, by decide, admits (by decide), by decide, by decide, ⟨9, by decide⟩, by decide, by decide, by decide, by decide⟩
/-- R19: a good flit is delivered once; the same flit again is ignored. -/
theorem test_flit : let f := List.replicate 512 (0 : BitVec 40)
    let s := after (.flitReceive 3 true ⟨0, 0⟩ ⟨f, f⟩ true) (linked { state := 3 })
    (lnk s.dev 3).up.delivered = 1 ∧ (lnk (after (.flitReceive 3 true ⟨0, 0⟩ ⟨f, f⟩ true) s).dev 3).up.delivered = 1 := by decide

/-! ## Witnesses: line side -/

/-- Both laser inputs of engine 0 as given, at `ns`. -/
def lit (s : Nat) (x : LaserIn) (ns : Nat) : State :=
  atDev (fun d => time ns (ready (oePage 0) (chanAt (laserChan 0 0) { state := s } (chanAt (laserChan 0 1) { state := s }
    { d with line := { d.line with lasers := [(0, x), (1, x)] } }))))
theorem test_witness_LaserInputsFollowTheirLight :
    (∀ i, i < 2 → (chan (lit 0 { pw := 2000 } 0).dev (laserChan 0 i)).state = 0 ∧ liRetire (lit 0 { pw := 2000 } 0).dev 0 ≤ (laser (lit 0 { pw := 2000 } 0).dev 0 i).pw.toInt ∧ drawsFrom (lit 0 { pw := 2000 } 0).dev 0 i = true ∧ drawsFrom (lit 3 { pw := 2000 } 0).dev 0 i = true) ∧
    (liRetire (lit 0 {} 0).dev 0 ≤ (2000 : W16).toInt ∧ (0x8000 : W16).toInt < liRetire (lit 0 {} 0).dev 0) ∧
    (∀ i, i < 2 → (chan (lit 1 { run := some 0 } 10000000000).dev (laserChan 0 i)).state = 1 ∧ (laser (lit 1 { run := some 0 } 10000000000).dev 0 i).run = some 0 ∧
      10000000000 ≤ elapsed (nowNs (lit 1 { run := some 0 } 10000000000).dev) 0) ∧
    ((chan (lit 2 { shadow := some 0 } 10000000000).dev (laserChan 0 0)).state = 2 ∧ (laser (lit 2 { shadow := some 0 } 10000000000).dev 0 1).shadow = some 0) ∧
    liWarn State.reset.dev 0 < liHigh State.reset.dev 0 ∧ rb State.reset.dev (Rg.OE_CTRL 0) Fl.OE_CTRL_ROTATE_EN = true ∧
    (page (lit 0 {} 0).dev (oePage 0)).held = false ∧
    rf State.reset.dev (Rg.OE_LI_SHARE 0) Fl.OE_LI_SHARE_ROTATE_HOURS ≤
      poweredHours { State.reset.dev with life := { State.reset.dev.life with powered := 2 ^ 56 } } 0 ∧
    Admits (lit 3 {} 0).dev (Rg.pageOf (Rg.OE_CTRL 0)) .hostA ∧ (chan (lit 3 {} 0).dev (laserChan 0 0)).state = 3 ∧ (chan (lit 3 {} 0).dev (laserChan 0 1)).state = 3 ∧
    Calm (lit 0 {} 0).dev :=
  ⟨by decide, by decide, by decide, by decide, by decide, by decide, by decide, by decide, admits (by decide), by decide, by decide, ⟨rfl, rfl⟩⟩

/-- Port 0 as given in an opened zone, its quad in its first mode with every port enabled, changed further by `f`. -/
def ported (q : PortSt) (f : Dev → Dev := id) : State :=
  atDev (fun d => f (wf { d with line := { d.line with ports := [(0, q)], lanes := [(0, { ring := true })] }, life := { d.life with zopen := 15 } } (Rg.QUAD_MODE 0)
    Fl.QUAD_MODE_PORT_EN 15))
/-- Every lane of a port of the mode in effect has lock. -/
def allLocks : Nat := 2 ^ (portLanes State.reset.dev 0).length - 1
/-- A frame with its FCS; PAUSE of 9 quanta. -/
def withFcs (b : List Byte) : List Byte := b ++ fcs b
def plain : List Byte := withFcs (List.replicate 60 0)
def pauseFrame : List Byte := withFcs ([0x01, 0x80, 0xC2, 0, 0, 1, 0, 0, 0, 0, 0, 0, 0x88, 0x08, 0, 1, 0, 9] ++ List.replicate 42 0)
def openPort (f : Dev → Dev := id) : State := ported { locks := allLocks, up := true, opened := true } f
theorem test_witness_LanesAndPortsFollowTheirLocks :
    Calm (ported {}).dev ∧ (lane (ported {}).dev 0).ring = true ∧ portBegins (ported {}).dev 0 = true ∧ portBegins (ported {}).dev 1 = false ∧
    (port (openPort).dev 0).locks &&& allLocks = allLocks ∧ quadHeld openPort.dev 0 = false ∧ openPort.dev.life.zopen.testBit (portZone 0) = true ∧
    coasting openPort.dev = false ∧ State.reset.dev.life.zopen.testBit (portZone 255) = false ∧
    (∀ i, i < (portLanes (ported {}).dev 0).length → (port (ported {}).dev 0).locks.testBit i = true → (0 : Nat).testBit i = true) :=
  ⟨⟨rfl, rfl⟩, by decide, by decide, by decide, by decide, by decide, by decide, by decide, by decide, by decide⟩
/-- Class 7 of port 0 has asked for XOFF at time 0 and its cause stays. -/
def xoffed (mode : Nat) (sent : Nat) : State :=
  ported { locks := allLocks, up := true, xoffSent := sent } (fun d => time 1000000 { wf (wf d (Rg.QUAD_FC 0) (Fl.QUAD_FC_FC_MODE 0) mode) (Rg.QUAD_PFC_CLASS 0)
    (Fl.QUAD_PFC_CLASS_CLASS_EN 0) 128 with adm := { d.adm with doms := [(7, { xOcc := true })] } })
theorem test_witness_FramesAndFlowControl :
    (portBegins openPort.dev 0 = true ∧ portEnabled openPort.dev 0 = true ∧ portLocked openPort.dev 0 = true) ∧ portLocked (ported {}).dev 0 = false ∧
    fcsGood (plain.set 0 1) = false ∧ fcsGood plain = true ∧ (port openPort.dev 0).blocked = false ∧ beAt plain 12 2 ≠ 0x8808 ∧
    (fcsGood (withFcs [0]) = true ∧ (withFcs [0]).length < 64) ∧ rf (openPort (reg (Rg.QUAD_MAX_FRAME 0) 63)).dev (Rg.QUAD_MAX_FRAME 0) Fl.QUAD_MAX_FRAME_MAX_FRAME < 64 ∧
    (fcsGood pauseFrame = true ∧ beAt pauseFrame 12 2 = 0x8808 ∧ beAt pauseFrame 14 2 = 1 ∧ startShut openPort.dev 0 = false ∧ quadHeld openPort.dev 0 = false ∧
      fcMode (openPort (fun d => wf d (Rg.QUAD_FC 0) (Fl.QUAD_FC_FC_MODE 0) 1)).dev 0 = 1 ∧ flowAddr openPort.dev 0 pauseFrame = true) ∧
    (plain.length = 64 ∧ 64 ≤ rf openPort.dev (Rg.QUAD_MAX_FRAME 0) Fl.QUAD_MAX_FRAME_MAX_FRAME ∧
      refusedBy openPort.dev 0 (classify openPort.dev 0 plain).1 (classify openPort.dev 0 plain).2 64 = none) ∧
    (let s := openPort (fun d => time 9 (setPause d 0 7 (9 * 2 ^ 32)))
     pauseEnd s.dev 0 7 ≠ 0 ∧ pauseEnd s.dev 0 7 ≤ tbIn s.dev (portZone 0) ∧ tbIn openPort.dev 0 < pauseEnd (setPause openPort.dev 0 7 1) 0 7) ∧
    (xoffClasses openPort.dev 0 = (port openPort.dev 0).xoffSent ∧
      (let s := ported { locks := allLocks, up := true, xoffSent := 128 } (fun d => wf d (Rg.QUAD_FC 0) (Fl.QUAD_FC_FC_MODE 0) 2)
       portUp s.dev 0 = true ∧ quadHeld s.dev 0 = false ∧ fcMode s.dev 0 = 2 ∧ xoffClasses s.dev 0 ≠ (port s.dev 0).xoffSent)) ∧
    (portUp (xoffed 1 0).dev 0 = true ∧ fcMode (xoffed 1 0).dev 0 = 1 ∧ xoffClasses (xoffed 1 0).dev 0 ≠ 0) ∧
    (xoffClasses (xoffed 2 128).dev 0 = 128 ∧ quanta25 (xoffed 2 128).dev 0 (rf (xoffed 2 128).dev (Rg.QUAD_PAUSE_TIME 0) Fl.QUAD_PAUSE_TIME_QUANTA) ≤
      50 * elapsed (tbIn (xoffed 2 128).dev 0) 0) := by decide

/-! ## Witnesses: Strainer, Barista -/

/-- A pipeline of zone 0, and the rest of the device changed by `f`. -/
def piped (x : Pipe) (f : Dev → Dev := id) : State := atDev (fun d => f { d with adm := { d.adm with pipes := [(0, x)] } })
def aPkt : Pkt := ⟨plain, 0, 0, 0, false, true, 0⟩
def aParsed : Parsed := ⟨aPkt, ⟨0, [], 0, none, 0⟩, false, 0⟩
theorem test_witness_PacketsPassTheStrainer :
    strHeld (piped {}).dev 0 = false ∧ devRuns (piped {}).dev = true ∧ level (piped {}).dev 0 < 4 ∧ 4 ≤ level (wf (piped {}).dev Rg.PWR_LEVELS (Fl.PWR_LEVELS_ZONE 0) 4) 0 ∧
    (pipe (piped { express := [aPkt] }).dev 0 0).express = [aPkt] ∧ (former (piped {}).dev 0 0 true).stopped = false ∧
    ((pipe (piped { normal := [aPkt] }).dev 0 0).normal = [aPkt] ∧ (former (piped {}).dev 0 0 false).stopped = false) ∧
    (former (piped {} (fun d => { d with bar := { d.bar with formers := [(1, { stopped := true })] } })).dev 0 0 true).stopped = true ∧
    ((pipe (piped { parsing := [aParsed] }).dev 0 0).parsing = [aParsed] ∧ aParsed.res.mal = none) ∧
    ((pipe (piped { parsed := [aParsed] }).dev 0 0).parsed = [aParsed] ∧ [131071].length = cellsOf aParsed.pkt.bytes.length ∧
      cellsAvail (piped { parsed := [aParsed] }).dev 0 [131071] = true ∧ (former (piped {}).dev 0 0 aParsed.express).lanes.length < 32) ∧
    cellsAvail (piped {}).dev 0 [131072] = false ∧
    (nsIn (piped {}).dev 0 / 1000 ≤ tget zeroN (piped {}).dev.adm.tokenUs 0 ∧ tget zeroN (piped {}).dev.adm.tokenUs 0 < nsIn (time 1000 (piped {}).dev) 0 / 1000) := by decide

/-- The Barista of zone 0 and its flights. -/
def flights (x : BarZone) (l : List Flight) (f : Dev → Dev := id) : State :=
  atDev (fun d => f { d with bar := { d.bar with zones := [(0, x)], flights := l, formers := [(0, { lanes := [aLane] }), (1, { lanes := [aLane] })] } })
theorem test_witness_FlightsFormStartAndReturn : Calm (flights {} []).dev ∧
    (former State.reset.dev 0 0 true).lanes = [] ∧ ((former (flights {} []).dev 0 0 false).lanes ≠ [] ∧ (former (flights {} []).dev 0 0 false).stopped = false) ∧
    ((barz (flights {} []).dev 0).window = (flights {} []).dev.mc / 64 ∧ (barz (flights { window := 1 } []).dev 0).window ≠ 0) ∧
    (let s := flights { growSince := some 0 } [] (fun d => { d with mc := 16 })
     (barz s.dev 0).growSince = some 0 ∧ rb s.dev (Rg.BAR_CTRL 0) Fl.BAR_CTRL_PACK_EN = true ∧
      (serviceCores s.dev 0).find? (fun k => !(barz s.dev 0).active.testBit k) = some 0) ∧
    (let s := flights { active := 2 ^ 26 - 1 } [] (fun d => { d with mc := 2 ^ 30 })
     (packed s.dev 0).getLast?.isSome = true ∧ rf s.dev (Rg.BAR_PACK 0) Fl.BAR_PACK_MIN_ACTIVE < (packed s.dev 0).length ∧
      s.dev.bar.issued = [] ∧ 0 + 32 * rf s.dev (Rg.BAR_PACK 0) Fl.BAR_PACK_SHRINK ≤ s.dev.mc) ∧
    (packed (flights {} []).dev 0).length ≤ rf (flights {} []).dev (Rg.BAR_PACK 0) Fl.BAR_PACK_MIN_ACTIVE ∧
    (let s := flights {} [aFlight (.slot 25)]
     slotFirst s.dev 25 = some (aFlight (.slot 25)) ∧ (thr s.dev 25 0).state = 0 ∧ kernelRole s.dev 25 0 = false ∧ unitRuns s.dev 25 = true ∧
      (sramRead (loadFlight s.dev (aFlight (.slot 25)) 25 0) (cidPlace 25) (imageArr 25 0) 128 4).2.1 = false ∧
      (sramRead (loadFlight s.dev (aFlight (.slot 25)) 25 0) (cidPlace 25) (imageArr 25 0) 128 4).1 < 8192) ∧
    (0 < availEntries (flights {} []).dev 0 false ∧ comingTo (flights {} []).dev 0 0 false = false ∧ waitsFor (flights {} []).dev 0 0 false = false ∧
      (let s := flights {} [] (fun d => { d with bar := { d.bar with formers := [(0, { lanes := [aLane], stopped := true })] }, adm := { d.adm with pipes := [(0, { parsing := [aParsed] })] } })
       (former s.dev 0 0 false).stopped = true ∧ comingTo s.dev 0 0 false = true)) ∧
    (zoneFlights (flights {} [aFlight .lost]).dev 0).find? (fun f => f.entry == 0 && f.loc == .lost) = some (aFlight .lost) :=
  ⟨⟨rfl, rfl⟩, by decide, by decide, by decide, by decide, by decide, by decide, by decide, by decide, by decide⟩
/-- A lock that thread 0 of core 0 holds, with a waiter of rank 31. -/
def aLock (top : Nat) : LockEnt := { addr := 16, holder := 0, orphan := false, start := 0, aged := false, tag := 0, top := top }
def locked (e : List LockEnt) (f : Dev → Dev := id) : State := atDev (fun d => f { d with lku := { d.lku with table := e } })
def item0 (pl : Nat) (v : W64) (f : Dev → Dev) : State := atDev (fun d => f { d with bar := { d.bar with items := [(pl, [v])] } })
/-- An opened zone of strict discipline with one waiting flight. -/
def strict : State := flights { weighted := false, active := 3 } [aFlight .queued] (fun d => { d with life := { d.life with zopen := 15 } })
theorem test_witness_BaristaDispatchesByLevelAndCredit :
    Calm strict.dev ∧
    ((barz strict.dev 0).window = strict.dev.mc / 64 ∧ barHeld strict.dev 0 = false ∧ weightedNow strict.dev 0 = false ∧ (barz strict.dev 0).weighted = false ∧
      firstFlight strict.dev 0 0 = some (aFlight .queued) ∧ place strict.dev (aFlight .queued) = some 0 ∧ levelNow strict.dev (aFlight .queued) < 16) ∧
    (let s := flights { active := 3, credits := [1, 0, 0, 0] } [aFlight .queued] powered
     weightedNow s.dev 0 = true ∧ (barz s.dev 0).weighted = true ∧ credited s.dev 0 (barz s.dev 0).last (barz s.dev 0).credits = some 0) ∧
    (let s := item0 0 (0x1F ) (fun d => thread 128 5 { state := 3 } (wf d Rg.MGT_FW Fl.MGT_FW_READY 1))
     rb s.dev Rg.MGT_FW Fl.MGT_FW_READY = true ∧ (∃ v i cid, nextItem s.dev 0 = some (v, i) ∧ itemCoreNow s.dev 0 v = some cid ∧ waitingThreads s.dev cid = [5]) ∧ (thr s.dev 128 5).bank = 0 ∧ (thr s.dev 128 5).pc + 1 < 8192) ∧
    (let s := flights {} [] (fun d => modPage d (Rg.pageOf (Rg.baseBAR 0)) (fun p => { p with hold := true }))
     barHeld s.dev 0 = true) ∧
    (let s := locked [aLock 32] (thread 0 0 { state := 1, act := 1 })
     s.dev.lku.table.filter (fun e => e.holder / 2 ^ 29 == 0 && e.holder % 256 == 0 && e.holder / 2 ^ 8 % 8 == 0 && e.top != 0 &&
       e.tag == (thr s.dev 0 0).tag && !e.orphan) = [aLock 32] ∧ issueRank s.dev 0 0 < (aLock 32).top - 1 ∧ s.dev.bar.raises = []) ∧
    (∀ die : Fin 5, (powered State.reset.dev).ket.off = false ∧ causedLevel (powered State.reset.dev) die < 8) :=
  ⟨⟨rfl, rfl⟩, by decide, by decide, ⟨by decide, ⟨31, 0, 128, by decide⟩, by decide⟩, by decide, by decide, by decide⟩

/-! ## Witnesses: tables -/

/-- Table 0 of zone `z`: EXACT, keys of 8 bytes, local or replicated, region A of one unit. -/
def table0 (repl lim z : Nat) (d : Dev) : Dev :=
  let a := Rg.TBL_DESC z 0
  wf (wf (wf (wf (wf d a Fl.TBL_DESC_TYPE 1) a Fl.TBL_DESC_KEY_BYTES 8) a Fl.TBL_DESC_SCOPE repl) (Rg.TBL_REGION_A z 0) Fl.TBL_REGION_A_SIZE 1)
    (a + 12) Fl.TBL_AGE_LIMIT lim
def key0 : List Byte := [1, 2, 3, 4, 5, 6, 7, 8]
def ent0 : TEnt := { valid := true, key := key0, data := 7 }
def desc0 (d : Dev) : TDesc := descAt d 1 0
/-- An operation of the update port on that table. -/
def op0 (d : Dev) : PortOp := ⟨0, 0, 0, 0, 0, none, 0, false, 0, key0, 9, descRegs d 0 0⟩
/-- Zone 0 with its table local, `e` at `pos`, and `o` at its update port. -/
def localT (e : List (Nat × TEnt)) (lim : Nat := 0) (f : Dev → Dev := id) : State :=
  atDev (fun d => let d := table0 0 lim 0 d
    f { d with tbl := { d.tbl with ents := e, port := [(0, [op0 d])], learn := [(0, [(key0, 65535)])] } })
/-- The table replicated in all zones. -/
def replT (e : List (Nat × TEnt)) (lim : Nat := 0) (f : Dev → Dev := id) : State :=
  atDev (fun d => f { table0 1 lim 3 (table0 1 lim 2 (table0 1 lim 1 (table0 1 lim 0 d))) with tbl := { d.tbl with ents := e } })
/-- The first candidate of the key. -/
def cand0 : Nat := (cands (desc0 (localT []).dev) 0 key0).headD 0
def place0 : List (Nat × TEnt) := [(entKey 1 0 0 cand0, ent0)]
def master0 : List (Nat × TEnt) := [(entKey 0 0 0 cand0, ent0)]
/-- Nothing waits at the update ports. -/
def idle0 (d : Dev) : Dev := { d with tbl := { d.tbl with port := [] } }
def ready0 (d : Dev) : Dev := wf (wf (wf d (Rg.TBL_CTRL 0) Fl.TBL_CTRL_LEARN_EN 1) (Rg.TBL_LEARN_CFG 0) Fl.TBL_LEARN_CFG_VALID 1) (Rg.TBL_LEARN_CFG 0)
  Fl.TBL_LEARN_CFG_TABLE 0
theorem test_witness_TablesFollowTheirUpdates :
    Calm (localT []).dev ∧
    (let s := localT []
     portQ s.dev 0 = [op0 s.dev] ∧ isInsertion (op0 s.dev) = true ∧ (op0 s.dev).slot < 4 ∧ portBusy s.dev 0 = true ∧
      (∀ o ∈ (portQ s.dev 0).head?, o.tbl ≠ 31) ∧ (tdescOf (op0 s.dev).regs).ty = 1 ∧ (tdescOf (op0 s.dev).regs).repl = false ∧
      findKey s.dev 1 0 0 (desc0 s.dev) key0 = none ∧ (cands (desc0 s.dev) 0 key0).find? (emptyPos s.dev 1 0 0 (desc0 s.dev)) = some cand0) ∧
    (let s := localT place0
     findKey s.dev 1 0 0 (desc0 s.dev) key0 = some cand0 ∧ (ent s.dev 1 0 0 cand0).lock = none) ∧
    (let s := replT master0 0 (fun d => { d with tbl := { d.tbl with changes := [⟨3, 0, .del, key0, 0, 0, []⟩] } })
     isolated s.dev 3 = false ∧ (descAt s.dev 0 0).repl = true ∧ badLpm (descAt s.dev 0 0) key0 = false ∧
      findKey s.dev 0 0 (descAt s.dev 0 0).bank (descAt s.dev 0 0) (storedKey (descAt s.dev 0 0) key0) = some cand0 ∧
      (ent s.dev 0 0 0 cand0).lock = none ∧ descDiffers s.dev 0 = false ∧ (isolated (link 3 { isolated := true } s.dev) 3) = true) ∧
    (let s := localT [] 0 (fun d => { d with tbl := { d.tbl with dist := [(0, [⟨0, 0, false, [(31, 1, 5, ent0)]⟩])] } })
     distQ s.dev 0 = [⟨0, 0, false, [(31, 1, 5, ent0)]⟩] ∧ portBusy (idle0 s.dev) 0 = false ∧
      linkFree (idle0 s.dev) 0 false (distGranules (idle0 s.dev) 0 ⟨0, 0, false, [(31, 1, 5, ent0)]⟩) = true ∧
      (let b := atDev (fun _ => { s.dev with link := tset (fun _ => {}) s.dev.link 0 { state := 3, down := { lost := 1000 } } })
       linkFree b.dev 0 false (distGranules b.dev 0 ⟨0, 0, false, [(31, 1, 5, ent0)]⟩) = false)) ∧
    (let s := localT [] 0 (fun d => idle0 (ready0 d))
     portBusy s.dev 0 = false ∧      learnQ s.dev 0 = [(key0, 65535)] ∧ learnTable s.dev 0 = some 0 ∧ learnShut s.dev 0 0 = false ∧ learnQ s.dev 3 = []) ∧
    (let s := localT place0 1 (fun d => idle0 (time (2 ^ 60) d))
     portBusy s.dev 0 = false ∧ rb s.dev (Rg.TBL_CTRL 0) Fl.TBL_CTRL_SWEEP_EN = true ∧ (desc0 s.dev).limit ≠ 0 ∧ tblIsHeld s.dev 0 0 = false ∧ movable s.dev 1 0 0 (desc0 s.dev) cand0 = true ∧
      agedEnt s.dev 1 (desc0 s.dev) (ent s.dev 1 0 0 cand0).stamp = true) ∧
    (let s := localT place0 1
     agedEnt s.dev 1 (desc0 s.dev) (ent s.dev 1 0 0 cand0).stamp = false ∧ isStash cand0 = false) ∧
    (let s := replT master0 1 (time (2 ^ 60))
     (descAt s.dev 0 0).repl = true ∧ (ent s.dev 0 0 0 cand0).valid = true ∧ descDiffers s.dev 0 = false ∧
      (descAt s.dev 0 0).limit ≤ entAge s.dev 0 (descAt s.dev 0 0) (ent s.dev 0 0 0 cand0).stamp ∧
      ∀ y : Fin 4, (descAt s.dev 0 0).limit ≤ entAge s.dev 0 (descAt s.dev 0 0) (ent s.dev (1 + y) 0 0 cand0).stamp) :=
  ⟨⟨rfl, rfl⟩, by decide, by decide, by decide, by decide, by decide, by decide, by decide, by decide⟩
def lockedEnt (c n : Nat) : TEnt := { ent0 with lock := some (c, n) }
/-- Table 1 of zone 0 is IPv4 LPM. -/
def lpm1 : State := atDev (fun d => wf d (Rg.TBL_DESC 0 1) Fl.TBL_DESC_TYPE 2)
theorem test_witness_TableLocksHoldsAndRebuilds :
    ((descAt lpm1.dev 1 1).ty = 2 ∧ badLpm (descAt lpm1.dev 1 1) [0, 0, 10, 0, 0, 0, 8] = false ∧ badLpm (descAt lpm1.dev 1 1) [0, 0, 10, 0, 0, 0, 33] = true ∧
      (desc0 (localT []).dev).ty ≠ 2) ∧
    (let s := localT [(entKey 1 0 0 5, lockedEnt 3 0)] 0 (time (2 ^ 40))
     (ent s.dev 1 0 0 5).lock = some (3, 0) ∧ lockHome s.dev 1 0 = true ∧ 0 + rf s.dev (Rg.TBL_LOCK_LIMIT 0) Fl.TBL_LOCK_LIMIT_LIMIT * 1000 < nowNs s.dev) ∧
    (let s := replT [(entKey 0 0 0 5, lockedEnt 3 0)] 0 (time (2 ^ 40))
     (ent s.dev 0 0 0 5).lock = some (3, 0) ∧ lockHome s.dev 0 0 = true ∧ 0 + rf s.dev Rg.HTB_LOCK_LIMIT Fl.HTB_LOCK_LIMIT_LIMIT * 1000 < nowNs s.dev) ∧
    nowNs (localT [(entKey 1 0 0 5, lockedEnt 3 0)]).dev ≤ 0 + rf State.reset.dev (Rg.TBL_LOCK_LIMIT 0) Fl.TBL_LOCK_LIMIT_LIMIT * 1000 ∧
    (page (paged (Rg.pageOf (Rg.TBL_HOLD 3)) {}).dev (Rg.pageOf (Rg.TBL_HOLD 3))).ready = true ∧
    (let s := localT [] 0 (fun d => { reg (Rg.TBL_HOLD 0) 0x80000000 d with tbl := { d.tbl with port := [] } })
     tblIsHeld s.dev 0 31 = true ∧ tblWaiting s.dev 0 31 = false ∧ tblIsHeld s.dev 0 0 = false) ∧
    (let s := localT [] 0 (fun d => { d with tbl := { d.tbl with fetch := [(0, 31, 1, 5)] } })
     s.dev.tbl.fetch.filter (fun f => f.1 == 0 && f.2.1 == 31 && [5].contains f.2.2.2) = [(0, 31, 1, 5)]) ∧
    (let s := replT master0 0 (link 3 { state := 3, rebuilding := true })
     (lnk s.dev 3).rebuilding = true ∧ isolated s.dev 3 = false ∧ (lnk s.dev 3).state = 3 ∧ (descAt s.dev 4 0).repl = true ∧ descDiffers s.dev 0 = false) ∧
    (let s := localT [] 0 (fun d => time 2001 { d with tbl := { d.tbl with dist := [(0, [⟨0, 0, false, []⟩])] } })
     ∀ w ∈ distQ s.dev 0, w.late = false ∧ (lnk s.dev 0).state ≠ 3 ∧ 2000 < nowNs s.dev - w.at_) := by decide
/-- A descriptor of one record for table 0 of zone 0, or of the counters. -/
def dmaReq (op target pos : Nat) (data : List W32) (bad : Bool := false) : DmaReq :=
  ⟨[BitVec.ofNat 32 (op + 16 * target + 65536), BitVec.ofNat 32 pos, 0x1000, 0, 0, 0, 0, 0], data, bad⟩
/-- The same zone with channel 7 of host 1 enabled and one descriptor offered. -/
def dmaT (e : List (Nat × TEnt)) : State :=
  localT e 0 (fun d => ready (hifPage 1) (ready (Rg.pageOf (Rg.baseTBL 0)) (wf (wf d (ringCtl 1 2 7) Fl.PRING_CTL_ENABLE 1) (ringIdx 1 2 7) Fl.PRING_IDX_DOORBELL 1)))
theorem dma_one {e : List (Nat × TEnt)} {op : Nat} {data : List W32} {pos : Nat}
    (h : (ringTakes (dmaT e).dev 1 2 7 && !badDesc (dmaT e).dev (dmaReq op 0 pos data).desc && (dmaDesc (dmaReq op 0 pos data).desc).op == op &&
      (dmaDesc (dmaReq op 0 pos data).desc).target == 0 && (dmaDesc (dmaReq op 0 pos data).desc).count == 1 && !(dmaDesc (dmaReq op 0 pos data).desc).region &&
      (descAt (dmaT e).dev (1 + (dmaDesc (dmaReq op 0 pos data).desc).zone) (dmaDesc (dmaReq op 0 pos data).desc).table).ty == 1 &&
      !(descAt (dmaT e).dev (1 + (dmaDesc (dmaReq op 0 pos data).desc).zone) (dmaDesc (dmaReq op 0 pos data).desc).table).repl &&
      !isolated (dmaT e).dev (dmaDesc (dmaReq op 0 pos data).desc).zone &&
      (page (dmaT e).dev (Rg.pageOf (Rg.baseTBL (dmaDesc (dmaReq op 0 pos data).desc).zone))).ready) = true) :
    DmaOne (dmaT e) 1 7 (dmaReq op 0 pos data) op := by
  simp only [Bool.and_eq_true, Bool.not_eq_true', beq_iff_eq] at h
  obtain ⟨⟨⟨⟨⟨⟨⟨⟨⟨h1, h2⟩, h3⟩, h4⟩, h5⟩, h6⟩, h7⟩, h8⟩, h9⟩, h10⟩ := h
  exact ⟨h1, rfl, h2, h3, h4, h5, h6, h7, h8, h9, h10⟩
/-- The record of the key: its bytes first. -/
def record0 : List W32 := [0x04030201, 0x08070605] ++ List.replicate 30 0
/-- The same with an uncorrectable word under the first candidate of the key. -/
def dmaBad : State := { dmaT [] with dev := (entWords 1 0 0 (desc0 (dmaT []).dev) cand0).foldl (fun d w => setSword d 1 w.arr w.word { valid := true, poison := true }) (dmaT []).dev }
theorem test_witness_TableDmaWorksOnRecords :
    (∀ op, op < 5 → ∀ p ∈ [0, stashPos 0], DmaOne (dmaT []) 1 7 (dmaReq op 0 p record0) op ∧ posOk (desc0 (dmaT []).dev) 0 p = true) ∧
    (ent (dmaT []).dev 1 0 0 0).lock = none ∧ (ent (dmaT [(entKey 1 0 0 0, lockedEnt 15 0)]).dev 1 0 0 0).lock = some (8 * 1 + 7, 0) ∧
    (ent (dmaT [(entKey 1 0 0 0, lockedEnt 3 0)]).dev 1 0 0 0).lock = some (3, 0) ∧
    (DmaOne (dmaT []) 1 7 (dmaReq 5 0 0 record0) 5 ∧ DmaOne (dmaT []) 1 7 (dmaReq 7 0 0 record0) 7 ∧
      findKey (dmaT []).dev 1 0 0 (desc0 (dmaT []).dev) ((wordsBytes record0).take 8) = none ∧
      (cands (desc0 (dmaT []).dev) 0 ((wordsBytes record0).take 8)).find? (emptyPos (dmaT []).dev 1 0 0 (desc0 (dmaT []).dev)) = some cand0) ∧
    (DmaOne (dmaT place0) 1 7 (dmaReq 6 0 0 record0) 6 ∧ findKey (dmaT place0).dev 1 0 0 (desc0 (dmaT place0).dev) ((wordsBytes record0).take 8) = some cand0) ∧
    (ringTakes (dmaT []).dev 1 2 7 = true ∧ badDesc (dmaT []).dev (dmaReq 8 2 1048575 []).desc = false ∧ (dmaDesc (dmaReq 8 2 1048575 []).desc).op = 8 ∧
      (dmaDesc (dmaReq 8 2 1048575 []).desc).target = 2 ∧ (dmaDesc (dmaReq 8 2 1048575 []).desc).pos < 1048576) ∧
    (dmaReq 0 0 0 [] true).readErr = true ∧ Calm (dmaT []).dev ∧
    (searchTbl (dmaT []).dev 1 0 0 (desc0 (dmaT []).dev) (wordsBytes (record0.take 32))).2.1 = false ∧
    (searchTbl dmaBad.dev 1 0 0 (desc0 dmaBad.dev) (wordsBytes (record0.take 32))).2.1 = true ∧
    findKey dmaBad.dev 1 0 0 (desc0 dmaBad.dev) ((wordsBytes record0).take 8) = none ∧
    (badDesc (dmaT []).dev (dmaReq 2 3 65535 record0).desc = false ∧ (dmaDesc (dmaReq 2 3 65535 record0).desc).op = 2 ∧
      (dmaDesc (dmaReq 2 3 65535 record0).desc).target = 3 ∧ leNat ((wordsBytes record0).take 32) / 2 ^ 254 = 0 ∧
      leNat ((wordsBytes (record0.set 7 0xC0000000)).take 32) / 2 ^ 254 = 3) := by
  refine ⟨?_, by decide, by decide, by decide, ⟨dma_one (by decide), dma_one (by decide), by decide, by decide⟩, ⟨dma_one (by decide), by decide⟩,
    by decide, by decide, ⟨rfl, rfl⟩, by decide, by decide, by decide, by decide⟩
  intro op h p hp
  simp only [List.mem_cons, List.not_mem_nil, or_false] at hp
  have h : op = 0 ∨ op = 1 ∨ op = 2 ∨ op = 3 ∨ op = 4 := by omega
  rcases h with rfl | rfl | rfl | rfl | rfl <;> rcases hp with rfl | rfl <;> exact ⟨dma_one (by decide), by decide⟩

/-! ## Witnesses: buffers, spill -/

/-- Buffer `b` heads cell 131071 of zone 3, and the rest of Urn as given. -/
def buffered (b : Buf) (f : Dev → Dev := id) : State :=
  atDev (fun d => f (ready (Rg.pageOf (Rg.URN_PEEK 3)) (ready (Rg.pageOf (Rg.URN_AUDIT_CTRL 3)) { d with urn := { d.urn with bufs := [(131072 * 3 + 131071, b)] } })))
def aHandle : W32 := mkHandle 3 131071 9
def aBuf (kind index : Nat) (count : Nat := 0) : Buf := { kind := kind, index := index, incarn := 9, cells := [131071], len := 64, bytes := plain, count := count }
/-- A request for a frame of two cells. -/
def aReq : AllocReq := ⟨0, 8192 * 6 + 8191, [131071, 0], 257, false⟩
theorem presents : Presents (buffered {}) 3 aReq := ⟨by decide, by decide, by decide⟩
theorem test_witness_BuffersFollowTheirOwners :
    (let s := buffered {}
     poolRoom s.dev 3 2 false = true ∧ barred s.dev aReq.requester = false ∧ barred (chanAt (reqChan 0) { state := 3 } s.dev) aReq.requester = true ∧
      allocFits { aReq with len := 1000 } = false ∧ (aReq.cells.length ≤ 32) ∧
      cellsAvail s.dev 3 [131071, 0] = true) ∧
    (let s := buffered {} (fun d => { d with urn := { d.urn with zones := [(3, { occ := 131072 })] } })
     poolRoom s.dev 3 1 false = false) ∧
    (bufOf (buffered {}).dev aHandle = none ∧ (6, 5) ∉ transfers) ∧
    (hZone aHandle = 3 ∧ hZone 0 ≠ 3 ∧ hKey aHandle = 131072 * 3 + 131071) ∧
    (∀ q ∈ transfers, bufOf (buffered (aBuf q.1 8191)).dev aHandle = some (aBuf q.1 8191) ∧ (8192 * q.1 + 8191) / 8192 = q.1 ∧ (8192 * q.1 + 8191) % 8192 = 8191) ∧
    (bufOf (buffered (aBuf 5 0 2)).dev aHandle = some (aBuf 5 0 2) ∧ 2 + 65533 ≤ 65535 ∧ 65535 < 2 + 65534 ∧
      bufOf (buffered (aBuf 5 0 1)).dev aHandle = some (aBuf 5 0 1)) ∧
    hSpill aHandle = false ∧ (page (buffered {}).dev (Rg.pageOf (Rg.URN_PEEK 3))).ready = true ∧ (page (buffered {}).dev (Rg.pageOf (Rg.URN_AUDIT_CTRL 3))).ready = true := by decide
theorem test_admits_urn : Admits (buffered {}).dev (Rg.pageOf (Rg.URN_PEEK 3)) .hostB ∧ Admits (buffered {}).dev (Rg.pageOf (Rg.URN_AUDIT_CTRL 3)) .hostB :=
  ⟨admits (by decide), admits (by decide)⟩
def aDesc (h : W32) (len : Nat) : Desc := ⟨h, len, 0, 0, 0, 0, 0, false, false, false, true, false, none⟩
/-- VOQ 2047 of zone 3 with its chain. -/
def spilled (v : Voq) (f : Dev → Dev := id) : State := buffered {} (fun d => f { d with urn := { d.urn with voqs := [(2048 * 3 + 2047, v)] } })
def due15 : Machine.Page := ⟨0, List.replicate 15 (aDesc 0 64, 1), [], 0, false⟩
theorem test_witness_AuditAndSpillPagesWork :
    (rb State.reset.dev (Rg.URN_AUDIT_CTRL 3) Fl.URN_AUDIT_CTRL_EN = true ∧ (urnz State.reset.dev 3).leakRun = false ∧
      (urnz State.reset.dev 3).leakAt < nsIn State.reset.dev 3 / 100000000 + 1) ∧
    (let s := buffered (aBuf 6 3)
     s.dev.urn.bufs.filter (fun e => e.1 / 131072 == 3 && e.2.kind != 0) = [(131072 * 3 + 131071, aBuf 6 3)] ∧
      (aBuf 6 3).moved ≠ s.dev.mc + 1 ∧ { aBuf 6 3 with moved := s.dev.mc + 1 }.moved = s.dev.mc + 1 ∧
      ¬((aBuf 6 3).stale = true ∨ rf s.dev (Rg.URN_AUDIT_LIMIT 3 5) Fl.URN_AUDIT_LIMIT_LIMIT * 100 ≤ (nsIn s.dev 3 / 1000 + 2 ^ 32 - 0) % 2 ^ 32)) ∧
    (let s := buffered { aBuf 6 3 with stale := true } (fun d => wf d (Rg.URN_AUDIT_LIMIT 3 5) Fl.URN_AUDIT_LIMIT_RECLAIM 1)
     (bufAt s.dev (131072 * 3 + 131071)).stale = true ∧ rb s.dev (Rg.URN_AUDIT_LIMIT 3 5) Fl.URN_AUDIT_LIMIT_RECLAIM = true) ∧
    (let s := buffered {} (fun d => { d with urn := { d.urn with zones := [(3, { leakRun := true, hist := List.replicate 48 1 })] } })
     (urnz s.dev 3).leakRun = true ∧ (urnz s.dev 3).hist.length = 48) ∧
    ((spilled { chain := [due15] }).dev.hbm.lost = [] ∧ (voq (spilled { chain := [due15] }).dev 3 2047).chain = [due15] ∧ due15.slots.length ≤ 15 ∧ due15.descs.length = 15 ∧
      linkFree (spilled { chain := [due15] }).dev 3 true 256 = true) ∧
    (linkFree (spilled { chain := [due15], q := [aDesc 0 64], balance := 1 } (fun d => link 3 { state := 3, down := { lost := 1000 } } d)).dev 3 false 256 = false) ∧
    ((voq (spilled { spill := true }).dev 3 2047).spill = true ∧ headCells (spilled { spill := true }).dev 3 2047 < refillLevel (spilled { spill := true }).dev 3 ∧
      voqDepth (spilled { spill := true }).dev 3 2047 < rf (spilled { spill := true }).dev (Rg.URN_SPILL_LEVELS 3) Fl.URN_SPILL_LEVELS_ON) ∧
    (let p : Machine.Page := ⟨0, [(aDesc 0 64, 15)], [], 0, true⟩
     let s := spilled { chain := [p] }
     s.dev.hbm.lost = [] ∧ s.dev.hbm.poison = [] ∧ (voq s.dev 3 2047).chain = [p] ∧ headCells s.dev 3 2047 < refillLevel s.dev 3 ∧ 15 + cellsOf (aDesc 0 64).len ≤ 16 ∧
      mayPresent s.dev (cycleOf s.dev 3) (urnReq 3) = true ∧ barred s.dev (urnReq 3) = false ∧ poolRoom s.dev 3 1 false = true ∧
      poolRoom { s.dev with urn := { s.dev.urn with zones := [(3, { occ := 131072 })] } } 3 1 false = false ∧ byRef s.dev (aDesc 0 64) = false ∧
      linkFree s.dev 3 false 256 = true ∧ cellsAvail s.dev 3 [0] = true) ∧
    (∀ p ∈ (voq (spilled {}).dev 3 0).chain, p.written = true) := by decide

/-! ## Witnesses: reorder stage, Carafe, traffic managers, edit engines -/

/-- A handle of zone 0 with its buffer, whose head is cell 131071; the frame is 64 bytes. -/
def zHandle : W32 := mkHandle 0 131071 9
/-- An entry of the last domain of zone 0 and the state in which it waits, its buffer RELEASED to the stage; port 0 is open. -/
def rEntry (seq v : Nat) : REntry := ⟨511, seq, BitVec.ofNat 64 v, some zHandle, 0, false, true⟩
def releasing (l : List REntry) (x : Domain) (b : Buf := aBuf 3 0) (f : Dev → Dev := id) : State :=
  openPort (fun d =>
    let d := { d with adm := { d.adm with doms := [(511, x)] }, urn := { d.urn with bufs := [(131071, b)] } }
    f { d with egr := { d.egr with entries := [(0, l)] } })
/-- The same with a request to Carafe and one for a mirror. -/
def expanding (r m : List CarReq) (n : Nat) (f : Dev → Dev := id) : State :=
  releasing [] {} (aBuf 5 0 n) (fun d => f { d with egr := { d.egr with car := [(0, r)], mirr := [(0, m)] } })
def carReq (w mirror : Bool) : CarReq := ⟨zHandle, 65535, 7, 511, 65535, false, false, false, true, 0, w, 1, mirror, none⟩
def carafe (f : Dev → Dev := id) : State := atDev (fun d => f (ready (Rg.pageOf Rg.CAR_CMD) d))
/-- Group 65535 has one member, at the last index: port 0 with class 7 and edit list 65535. -/
def oneGroup (d : Dev) : Dev :=
  let d := { d with egr := { d.egr with groups := [(65535, BitVec.ofNat 64 (1048575 + 2 ^ 20 + 2 ^ 29))] } }
  { d with egr := { d.egr with members := [(1048575, BitVec.ofNat 32 (2 ^ 31 + 65535 * 4096 + 7 * 256 + 2 ^ 11))] } }
theorem test_witness_ReleasesActOnVerdicts :
    Calm (releasing [] {}).dev ∧ rentries (releasing [] {}).dev 0 = [] ∧
    (let s := releasing [rEntry 9 0] {}
     rentries s.dev 0 = [rEntry 9 0] ∧ (rEntry 9 0).seq ≠ (dom s.dev 511).rel ∧ overdue s.dev 0 511 = none ∧ nextWaits s.dev 0 511 = false ∧
      (dom (releasing [rEntry 9 0] { mcWait := true }).dev 511).mcWait = true) ∧
    (∀ v : Nat, let e := rEntry 65535 v
     let s := releasing [e] { rel := 65535 }
     rentries s.dev 0 = [e] ∧ (dom s.dev 511).mcWait = false ∧ e.seq = (dom s.dev 511).rel ∧ e.handle = some zHandle ∧
      bufOf s.dev zHandle = some (aBuf 3 0) ∧ hZone zHandle = 0) ∧
    (vAction 0 = 0 ∧ vAction 0x01004000 = 1 ∧ vMc 0x01004000 = false ∧ vDest 0x01004000 = 256) ∧
    (let v : W64 := 0xFFFF00004000
     let s := releasing [rEntry 65535 v.toNat] { rel := 65535 }
     vAction v = 1 ∧ vMc v = false ∧ vDest v = 0 ∧ portZone 0 = 0 ∧ portUsable s.dev 0 = true ∧ (voq s.dev 0 (8 * 0 + vClass v)).spill = false ∧
      portBegins s.dev 0 = true ∧ portUsable { s.dev with line := {} } 0 = false) ∧
    (vAction 0x100FFFF004000 = 1 ∧ vMc 0x100FFFF004000 = true ∧ isolated (releasing [] {}).dev 0 = false) ∧
    (vAction 0xFFFFC000 = 3 ∧ vAction 0x8000 = 2 ∧
      ∀ p : Fin 32, tget zeroN (releasing [] {} (aBuf 3 0) (fun d => { d with adm := { d.adm with tokens := (List.range 32).map (fun p => (p, 999)) } })).dev.adm.tokens
        (32 * 0 + p) < 1000) ∧
    (let s := releasing [rEntry 9 0] {} (aBuf 3 0) (time (2 ^ 50))
     domEntries s.dev 0 511 = [rEntry 9 0] ∧ nextWaits s.dev 0 511 = false ∧
      rf s.dev (Rg.ROB_CTRL 0) Fl.ROB_CTRL_HOLD_US * 1000 * 2 ^ 32 ≤ elapsed (tbIn s.dev 0) (rEntry 9 0).arrival) := by
  refine ⟨⟨rfl, rfl⟩, by decide, by decide, ?_, by decide, by decide, by decide, by decide, by decide⟩
  intro v
  exact ⟨rfl, rfl, rfl, rfl, rfl, by decide⟩
/-- A late entry, one that fits, and a full stage whose oldest entry's domain does not wait. -/
theorem test_witness_arrivals :
    isLate (releasing [] { rel := 32768 }).dev (rEntry 0 0) = true ∧ isLate (releasing [] { rel := 32768 }).dev (rEntry 65535 0) = false ∧
    (rentries (releasing [rEntry 9 0] {}).dev 0).length < 8192 ∧
    (let s := releasing (List.replicate 8192 (rEntry 9 0)) {}
     let e : REntry := { rEntry 9 0 with dom := 0 }
     isLate s.dev e = false ∧ (rentries s.dev 0).length = 8192 ∧
      (rentries s.dev 0).find? (fun x => !(dom s.dev x.dom).mcWait) = some (rEntry 9 0) ∧ nextWaits s.dev 0 511 = false ∧ e.dom ≠ 511) := by
  have h : rentries (releasing (List.replicate 8192 (rEntry 9 0)) {}).dev 0 = List.replicate 8192 (rEntry 9 0) := rfl
  refine ⟨by decide, by decide, by decide, by decide, by rw [h, List.length_replicate], ?_, ?_, by decide⟩
  · rw [h, show (8192 : Nat) = 8191 + 1 from rfl, List.replicate_succ, List.find?_cons_of_pos (by decide)]
  · rw [nextWaits, h, List.any_replicate]
    decide
theorem test_witness_CarafeExpands :
    (let s := expanding [carReq true false] [] 1
     carQ s.dev 0 = [carReq true false] ∧ (groupOf s.dev 65535).2.2.1 = false ∧ bufOf s.dev zHandle = some (aBuf 5 0 1)) ∧
    (let s := expanding [] [carReq false true] 2
     carQ s.dev 0 = [] ∧ mirrQ s.dev 0 = [carReq false true] ∧ (groupOf s.dev 65535).2.2.1 = false ∧ bufOf s.dev zHandle = some (aBuf 5 0 2)) ∧
    (let s := expanding [carReq true false] [] 1 oneGroup
     let w := 2 ^ 31 + 65535 * 4096 + 7 * 256 + 2 ^ 11
     (groupOf s.dev 65535).2.2.1 = true ∧ membersOf s.dev (groupOf s.dev 65535).1 (groupOf s.dev 65535).2.1 = [w] ∧ w % 256 = 0 ∧ w / 256 % 8 = 7 ∧
      w.testBit 11 = true ∧ isolated s.dev 0 = false ∧ portUsable s.dev 0 = true ∧ quadHeld s.dev 0 = false ∧ 7 ∉ shedSet s.dev 0 (poolShed s.dev 0) ∧
      paused s.dev 0 7 = false ∧ (voq s.dev 0 7).spill = false ∧ (carReq true false).lossless = true) ∧
    Admits carafe.dev (Rg.pageOf Rg.CAR_CMD) .hostA ∧
    rf carafe.dev Rg.CAR_GROUP_LO Fl.CAR_GROUP_LO_BASE + rf carafe.dev Rg.CAR_GROUP_LO Fl.CAR_GROUP_LO_COUNT ≤ 1048576 ∧
    (let s := carafe (reg Rg.CAR_GROUP_LO 0x1FFFFFFF)
     1048576 < rf s.dev Rg.CAR_GROUP_LO Fl.CAR_GROUP_LO_BASE + rf s.dev Rg.CAR_GROUP_LO Fl.CAR_GROUP_LO_COUNT) :=
  ⟨by decide, by decide, by decide, admits (by decide), by decide, by decide⟩

def zDesc (edit len : Nat) : Desc := ⟨zHandle, len, edit, 511, 0, 0, 7, false, false, false, true, false, none⟩
def anEdit (edit : Nat) (b : List Byte) : Edit := ⟨zDesc edit b.length, 0, b, 0, 0, false, 0⟩
/-- VOQ 7 of zone 0 (port 0, class 7), and the port's scheduler. -/
def sending (v : Voq) (st : Staging) (t : TmPort) (f : Dev → Dev := id) : State :=
  releasing [] {} (aBuf 4 7) (fun d => f { d with urn := { d.urn with voqs := [(7, v)] }, egr := { d.egr with staging := [(7, st)], ports := [(0, t)] } })
theorem test_witness_PortsSendTheirFrames :
    Calm (sending {} {} {}).dev ∧
    (let q : Voq := { q := [zDesc 0 64] }
     wantsCredit q = true ∧ isoBetween (sending q {} {}).dev 0 0 = none ∧ wantsCredit {} = false ∧ q.balance ≤ 0 ∧
      isoBetween (link 0 { isolated := true } (sending q {} {}).dev) 0 (portZone 64) = some 0) ∧
    (crosses 0 0 { zDesc 0 64 with copy := true } = true ∧ crosses 0 64 (zDesc 0 64) = true ∧ crosses 0 0 (zDesc 0 64) = false ∧
      isolated (link 0 { isolated := true } State.reset.dev) 0 = true ∧ isolated State.reset.dev 0 = false) ∧
    (let s := sending { q := [zDesc 0 64], balance := 1 } {} {}
     (voq s.dev 0 7).q = [zDesc 0 64] ∧ 0 < (voq s.dev 0 7).balance ∧ bufOf s.dev zHandle = some (aBuf 4 7) ∧ portUp s.dev 0 = true ∧
      portUp { s.dev with line := {} } 0 = false) ∧
    (let s := sending { q := [zDesc 0 64], asked := 1 } {} {}
     paused s.dev 0 7 = false ∧ quadHeld s.dev 0 = false ∧ portCredits s.dev 0 < creditLimit s.dev 0 ∧ nextAsker s.dev 0 7 = some 0) ∧
    (let s := sending {} { frames := [(zDesc 0 64, 3, plain, 0)] } {} (fun d => wf d (etsReg 0) Fl.TM_PORT_ETS_STRICT 128)
     portBegins s.dev 0 = true ∧ portUp s.dev 0 = true ∧ quadHeld s.dev 0 = false ∧ (port s.dev 0).blocked = false ∧ portShaperOpen s.dev 0 = true ∧
      (rf s.dev (etsReg 0) Fl.TM_PORT_ETS_STRICT).testBit 7 = true ∧ classReady s.dev 0 7 = true ∧ (staging s.dev 0 7).frames = [(zDesc 0 64, 3, plain, 0)]) ∧
    (∀ e ∈ [anEdit 16384 plain, anEdit 0 plain], (tmPort (sending {} {} { edits := [e] }).dev 0).edits = [e]) ∧
    (editWord (sending {} {} {}).dev 0 0 (16 * 16383) = 0 ∧ plain.length = 64 ∧
      64 ≤ rf (sending {} {} {}).dev (Rg.QUAD_MAX_FRAME 0) Fl.QUAD_MAX_FRAME_MAX_FRAME) ∧
    (let s := sending {} {} { mac := [anEdit 0 plain] }
     (tmPort s.dev 0).mac = [anEdit 0 plain] ∧ s.dev.life.stopped = false ∧ quadHeld s.dev 0 = false ∧ paused s.dev 0 7 = false ∧ (port s.dev 0).rfault = false) ∧
    (nsIn State.reset.dev 3 / 256 ≤ tget zeroN State.reset.dev.egr.shaperAt 3 ∧
      tget zeroN State.reset.dev.egr.shaperAt 3 < nsIn (atDev (time 256)).dev 3 / 256 ∧ (tmPort State.reset.dev 255).buckets.length = 9) ∧
    (let s := atDev (ready (Rg.pageOf (Rg.EDT_WDATA 3)))
     Admits s.dev (Rg.pageOf (Rg.EDT_WDATA 3)) .hostA ∧ rf s.dev (Rg.EDT_WADDR 3) Fl.EDT_WADDR_WSET = editSet s.dev 3 ∧ editOldBusy s.dev 3 = false) ∧
    (let s := atDev (fun d => wf (wf (ready (Rg.pageOf (Rg.EDT_WDATA 3)) d) (Rg.EDT_WADDR 3) Fl.EDT_WADDR_WSET 1) (Rg.EDT_WADDR 3) Fl.EDT_WADDR_WORD 294911)
     Admits s.dev (Rg.pageOf (Rg.EDT_WDATA 3)) .hostA ∧ rf s.dev (Rg.EDT_WADDR 3) Fl.EDT_WADDR_WSET ≠ editSet s.dev 3 ∧ editOldBusy s.dev 3 = false ∧
      rf s.dev (Rg.EDT_WADDR 3) Fl.EDT_WADDR_WORD < 294912) :=
  ⟨⟨rfl, rfl⟩, by decide, by decide, by decide, by decide, by decide, by decide, by decide, by decide, by decide,
   ⟨admits (by decide), by decide, by decide⟩, ⟨admits (by decide), by decide, by decide, by decide⟩⟩
/-- R317: a frame whose edit list lies beyond the last one is dropped and counted. -/
theorem test_edit : (tmPort (after (.editDone 0) (sending {} {} { edits := [anEdit 16384 plain] })).dev 0).edits = [] ∧
    ctr (after (.editDone 0) (sending {} {} { edits := [anEdit 16384 plain] })).dev (Rg.EDT_BAD_EDIT 0) = 1 := by decide

/-! ## Witnesses: HBM -/

/-- Bank 47 of pseudo-channel 127 (stack 3) as given; the stack is in state `st`. -/
def hbmAt (st : Nat) (b : HBank) (f : Dev → Dev := id) : State :=
  atDev (fun d => f (wf (powered (ready (Rg.pageOf (Rg.HBM_PC_STATE 3 31)) { d with hbm := { d.hbm with banks := [(48 * 127 + 47, b)] } }))
    (Rg.HBM_STATUS 3) Fl.HBM_STATUS_STATE st))
def hReq (cls row order : Nat) (p : Bool := false) : HReq := ⟨cls, row, true, 1007, 0, order, p⟩
theorem test_witness_HbmServesItsQueues :
    (let s := hbmAt 2 { q := [hReq 0 7 1, hReq 5 9 2], openRow := some 9 }
     let y := hReq 5 9 2
     let x := hReq 0 7 1
     rf s.dev (Rg.HBM_STATUS 3) Fl.HBM_STATUS_STATE = 2 ∧ (hbank s.dev 127 47).q = [x, y] ∧ x.order ≠ y.order ∧ x.cls < 6 ∧ y.cls < 6 ∧
      (hbank (hbmAt 2 { q := [x, y], inOrder := true }).dev 127 47).inOrder = true ∧ (hbank s.dev 127 47).inOrder = false) ∧
    (let s := hbmAt 2 { q := [hReq 4 7 1] }
     (hbank s.dev 127 47).q = [hReq 4 7 1] ∧ (hbank s.dev 127 47).openRow ≠ some 7 ∧
      actCount (hbank s.dev 127 47) 7 + 1 ≤ rf s.dev (Rg.HBM_HAMMER 3) Fl.HBM_HAMMER_THRESHOLD) ∧
    (let s := hbmAt 2 { q := [hReq 2 7 1], acts := [(7, 65535)] }
     rf s.dev (Rg.HBM_HAMMER 3) Fl.HBM_HAMMER_THRESHOLD < actCount (hbank s.dev 127 47) 7 + 1 ∧
      rb (wf s.dev (Rg.HBM_THROTTLE 3) Fl.HBM_THROTTLE_EN 1) (Rg.HBM_THROTTLE 3) Fl.HBM_THROTTLE_EN = true) ∧
    (let s := hbmAt 2 { q := [hReq 2 7 1, hReq 3 7 2] } (fun d => { d with mc := 2 ^ 40 })
     (hbank s.dev 127 47).q[1]? = some (hReq 3 7 2) ∧ (hbank s.dev 127 47).q[2]? = none ∧
      rf s.dev (Rg.HBM_AGE 3 1) Fl.HBM_AGE_ODD ≤ 4 * s.dev.mc - 0 ∧ 4 * State.reset.dev.mc - 0 < rf s.dev (Rg.HBM_AGE 3 1) Fl.HBM_AGE_ODD) ∧
    (let s := hbmAt 2 {} (time (2 ^ 40))
     nowNs s.dev / (1000000 * max 1 (rf s.dev (Rg.HBM_HAMMER 3) Fl.HBM_HAMMER_WINDOW_MS)) ≠ tget zeroN s.dev.hbm.window 3 ∧
      nowNs State.reset.dev / (1000000 * max 1 (rf s.dev (Rg.HBM_HAMMER 3) Fl.HBM_HAMMER_WINDOW_MS)) = tget zeroN s.dev.hbm.window 3) ∧
    (rf (hbmAt 3 {}).dev (Rg.HBM_STATUS 3) Fl.HBM_STATUS_STATE = 3 ∧ rf (hbmAt 0 {}).dev (Rg.HBM_STATUS 3) Fl.HBM_STATUS_STATE = 0 ∧
      rf (hbmAt 1 {}).dev (Rg.HBM_STATUS 3) Fl.HBM_STATUS_STATE = 1 ∧ (hbmAt 1 {}).dev.ket.off = false) ∧
    (85 ≤ (85 : BitVec 8).toInt ∧ (0x80 : BitVec 8).toInt < 85 ∧ rb (hbmAt 2 {}).dev (Rg.HBM_STATUS 3) Fl.HBM_STATUS_HOT = false) ∧
    (let s := hbmAt 2 {} (fun d => wf (wf d (Rg.HBM_CTRL 3) Fl.HBM_CTRL_TRACK_EN 1) (Rg.HBM_CTRL 3) Fl.HBM_CTRL_SCRUB_EN 1)
     rb s.dev (Rg.HBM_CTRL 3) Fl.HBM_CTRL_TRACK_EN = true ∧ rb s.dev (Rg.HBM_CTRL 3) Fl.HBM_CTRL_SCRUB_EN = true ∧ (page s.dev (hbmPage 3)).held = false) ∧
    (∀ k ∈ [0, 1, 2], let s := hbmAt 2 {} (fun d => { d with hbm := { d.hbm with spareOf := some 127, copy := k } })
      s.dev.hbm.spareOf = some 127 ∧ s.dev.hbm.copy = k ∧ (page s.dev (hbmPage 3)).held = false) ∧
    (∀ k ∈ [2, 3], (chan (chanAt (pcChan 127) { state := k } (hbmAt 2 {}).dev) (pcChan 127)).state = k) ∧
    State.reset.dev.hbm.spareOf ≠ some 127 ∧
    (let s := hbmAt 2 {} (time 3900)
     tget zeroN s.dev.hbm.refAt 127 + (if rb s.dev (Rg.HBM_STATUS 3) Fl.HBM_STATUS_HOT then 1950 else 3900) ≤ nowNs s.dev ∧
      nowNs State.reset.dev < tget zeroN s.dev.hbm.refAt 127 + (if rb s.dev (Rg.HBM_STATUS 3) Fl.HBM_STATUS_HOT then 1950 else 3900)) ∧
    (inService (hbmAt 2 {}).dev (pcChan 127) = true ∧ inService (chanAt (pcChan 127) { state := 3 } (hbmAt 2 {}).dev) (pcChan 127) = false ∧
      (hbmAt 2 {}).dev.hbm.waiting = [] ∧ (hbmAt 2 {}).dev.hbm.lost = []) ∧
    ((page (modPage (hbmAt 2 {}).dev (hbmPage 3) (fun p => { p with held := true })) (hbmPage 3)).held = true ∧
      (127 : Nat) ∈ (hbmAt 2 {} (fun d => { d with hbm := { d.hbm with waiting := [127] } })).dev.hbm.waiting) := by decide
theorem test_admits_hbm : Admits (hbmAt 2 {}).dev (Rg.pageOf (Rg.HBM_PC_STATE 3 31)) .hostA := admits (by decide)
/-- R331: promotion and age, class, the open row, order, each on its own. -/
theorem test_before : before (some 9) (hReq 5 9 2 true) (hReq 2 9 1) ∧ before (some 9) (hReq 2 7 2) (hReq 5 9 1) ∧ before (some 9) (hReq 4 9 2) (hReq 4 7 1) ∧
    before (some 9) (hReq 0 7 1) (hReq 0 7 2) ∧ before (some 9) (hReq 1 7 1 true) (hReq 2 9 2 true) ∧ ¬before (some 9) (hReq 5 9 1) (hReq 2 7 2) := by
  simp [before, hReq]
/-- R331: a request of class 2 is served before an older one of class 0 that hits the open row. -/
theorem test_bank : ((hbank (after (.hbmRequest 127 47) (hbmAt 2 { q := [hReq 0 7 1, hReq 2 9 2], openRow := some 7 })).dev 127 47).q).map (·.order) = [1] := by decide

/-! ## Witnesses: arbitration and locks -/

/-- Requester 1007 as given at resource 111, `q` tenants there and `n` FC cycles/4 elapsed. -/
def steep (r : Requester) (p : Resource) (res n : Nat) (f : Dev → Dev := id) : State :=
  atDev (fun d => f (ready (Rg.pageOf Rg.ARB_REQ_SEL) { d with mc := n, steep := { reqs := [(911, r), (900, r)], res := [(res, p)] } }))
/-- A tenancy of requester `r` that began in FC cycle 0 under a limit of 65,535 cycles with the watchdog on. -/
def tenancy (r : Nat) : Tenant := ⟨r, 0, 0x1FFFF⟩
theorem test_witness_SteepGrantsInRotation :
    (slotsOf 111 ≠ 0 ∧ slotsOf 91 ≠ 0 ∧ slotsOf 95 = 0 ∧ isRequester 900 = true ∧ isRequester 0 = true ∧ isRequester 902 = false) ∧
    (cycleOf (steep { next := 5 } {} 111 1).dev 111 < (requester (steep { next := 5 } {} 111 1).dev 900).next) ∧
    (let s := steep { next := 4 } {} 111 1 (chanAt (reqChan 900) { state := 3 })
     (requester s.dev 900).next ≤ cycleOf s.dev 111 ∧ (chan s.dev (reqChan 900)).state = 3) ∧
    (let s := steep {} {} 91 1 (fun d => { d with hbm := { d.hbm with throttle := [(1024 * 3 + 900, 1)] } })
     (chan s.dev (reqChan 900)).state ≠ 3 ∧ tget zeroN s.dev.hbm.throttle (1024 * ((91 - 80) / 3) + 900) ≠ 0) ∧
    ((resource (steep {} {} 111 1).dev 111).tenants.length < slotsOf 111 ∧
      slotsOf 111 ≤ (resource (steep {} { tenants := [tenancy 1] } 111 1).dev 111).tenants.length) ∧
    (let s := steep {} { pointer := 900 } 111 1
     (0 : Nat) ≠ 900 ∧ (resource s.dev 111).tenants.length + 1 = slotsOf 111 ∧ (resource s.dev 111).pointer < 1024 ∧
      sourceRank 111 0 = sourceRank 111 900 ∧
      (0 + 1024 - (resource s.dev 111).pointer + 1023) % 1024 < (900 + 1024 - (resource s.dev 111).pointer + 1023) % 1024) ∧
    (let s := steep {} { tenants := List.replicate 15 (tenancy 1) } 10 1
     (resource s.dev 10).tenants.length + 1 = slotsOf 10 ∧ isRequester 867 = true ∧ isRequester 868 = true ∧ isRequester 897 = true ∧
      sourceRank 10 867 ≠ 3 ∧ sourceRank 10 897 < sourceRank 10 867 ∧ sourceRank 10 868 = 3 ∧
      (∀ r ∈ [867, 868, 897], (requester s.dev r).next ≤ cycleOf s.dev 10 ∧ (chan s.dev (reqChan r)).state ≠ 3)) ∧
    (∀ n ∈ [0, 1], let s := steep {} { tenants := [tenancy 900] } 111 (2 ^ 30) (fun d =>
        wf (wf d Rg.ARB_CTRL Fl.ARB_CTRL_WD_EN 1) Rg.ARB_CTRL Fl.ARB_CTRL_FAULT_EN n)
      (resource s.dev 111).tenants = [⟨900, 0, 0x1FFFF⟩] ∧ rb s.dev Rg.ARB_CTRL Fl.ARB_CTRL_WD_EN = true ∧ (0x1FFFF : W32).toNat.testBit 16 = true ∧
        (0x1FFFF : W32).toNat % 65536 + 0 ≤ 4 * s.dev.mc ∧ rb s.dev Rg.ARB_CTRL Fl.ARB_CTRL_FAULT_EN = decide (n = 1)) ∧
    (chan (steep {} {} 111 1 (chanAt (reqChan 0) { state := 3 })).dev (reqChan (rf (steep {} {} 111 1).dev Rg.ARB_REQ_SEL Fl.ARB_REQ_SEL_REQUESTER))).state = 3 ∧
    (isRequester ((900 : W32).toNat % 1024) = true ∧ isRequester ((1023 : W32).toNat % 1024) = false) := by decide
theorem test_admits_steep : Admits (steep {} {} 111 1).dev (Rg.pageOf Rg.ARB_REQ_SEL) .hostA ∧ Admits (steep {} {} 111 1).dev (Rg.pageOf Rg.ARB_REQ_STATE) .hostA ∧
    Calm (steep {} { tenants := [tenancy 900] } 111 (2 ^ 30)).dev :=
  ⟨admits (by decide), admits (by decide), rfl, rfl⟩

/-- The lock unit as given, for the highest lock of the hub's shared SRAM; slot 63 of host 1 names it. -/
def lockAddr : Nat := sramBase + 16 * 2 ^ 20 - 8
def locks (t : List LockEnt) (w : List LockWait) (x : LockSlot := {}) (f : Dev → Dev := id) : State :=
  atDev (fun d => f (ready (Rg.pageOf Rg.LKU_PEEK_ADDR_LO) { d with lku := { d.lku with table := t, waiters := w, slots := [(127, x)] } }))
def aHold : LockEnt := { addr := lockAddr, holder := 3, orphan := false, start := 0, aged := false, tag := 0, top := 0 }
def aWait (stage : Nat) (h : Option Nat) : LockWait := { addr := lockAddr, word := lockAddr, size := 4, stage := stage, order := 1, host := h, cid := 0, t := 0, home := 0, slot := 3, lane := 31, flight := none }
def aSlot (kept : Option W32 := none) (stall : Option Nat := none) : LockSlot := ⟨BitVec.ofNat 32 lockAddr, BitVec.ofNat 32 (lockAddr / 2 ^ 32), kept, stall⟩
/-- A request of a rebuilt flight whose hold was orphaned, a further lane of a LOCK that holds, and one that waits. -/
theorem test_witness_requests :
    (let e : LockEnt := { aHold with orphan := true, heir := some 9 }
     let w : LockWait := { aWait 0 none with flight := some 9 }
     w.host = none ∧ w.stage = 0 ∧ lockEnt (locks [e] []).dev w.addr = some e ∧ e.orphan = true ∧ e.heir.isSome = true ∧ e.heir = w.flight) ∧
    (let e : LockEnt := { aHold with order := 1 }
     let w : LockWait := { aWait 0 none with holder := 3 }
     lockEnt (locks [e] []).dev w.addr = some e ∧ e.orphan ≠ true ∧ e.order = w.order ∧ e.holder = w.holder) ∧
    (let w := aWait 0 none
     lockEnt (locks [aHold] []).dev w.addr = some aHold ∧ aHold.orphan ≠ true ∧ aHold.order ≠ w.order) := by decide
/-- The release of a thread that does not come first: it waits for the thread's earlier one. -/
theorem test_witness_release :
    let p : HPost := ⟨0, 7, 0, 0, 3, 31, .unlock lockAddr⟩
    let q : HPost := ⟨0, 7, 0, 0, 3, 30, .unlock 0⟩
    let s := locks [aHold] [] {} (fun d => { d with inf := { d.inf with posts := [q, p] } })
    let t := locks [aHold] [] {} (fun d => { d with inf := { d.inf with posts := [p] } })
    s.dev.inf.posts.find? (fun p => p.eff = .unlock lockAddr) = some p ∧
      s.dev.inf.posts.find? (fun q => q.cid == p.cid && q.t == p.t && q.helper == p.helper) ≠ some p ∧
      t.dev.inf.posts.find? (fun q => q.cid == p.cid && q.t == p.t && q.helper == p.helper) = some p := by decide
theorem test_witness_LocksPassToTheirWaiters :
    lockAddr / 8 * 8 = lockAddr ∧
    (∀ h ∈ [none, some 127], (locks [aHold] [aWait 2 h]).dev.lku.waiters.filter (fun w => w.stage == 2 && w.addr == lockAddr) = [aWait 2 h]) ∧
    (lkSlot (locks [aHold] [] (aSlot none (some 0))).dev 1 63).stall.isSome = true ∧ (lkSlot (locks [aHold] [] aSlot).dev 1 63).stall = none ∧
    (let p : HPost := ⟨0, 7, 0, 0, 3, 31, .unlock lockAddr⟩
     let s := locks [aHold] [aWait 0 none] {} (fun d => { d with inf := { d.inf with posts := [p] } })
     s.dev.inf.posts.find? (fun p => p.eff = .unlock lockAddr) = some p ∧ (lockEnt s.dev lockAddr).isSome = true ∧ s.dev.lku.waiters = [aWait 0 none] ∧
      lockEnt (locks [] []).dev lockAddr = none ∧ (locks [] []).dev.inf.posts.find? (fun p => p.eff = .unlock lockAddr) = none) ∧
    (let s := locks [aHold] [] {} (fun d => time (2 ^ 40) (wf d Rg.LKU_AGE_LIMIT Fl.LKU_AGE_LIMIT_AGE_US 1))
     lockEnt s.dev lockAddr = some aHold ∧ rf s.dev Rg.LKU_AGE_LIMIT Fl.LKU_AGE_LIMIT_AGE_US ≠ 0 ∧
      aHold.start + rf s.dev Rg.LKU_AGE_LIMIT Fl.LKU_AGE_LIMIT_AGE_US * 1000 ≤ nowNs s.dev) ∧
    ((lkSlot (locks [] [] (aSlot (some 9))).dev 1 63).kept = some 9 ∧
      (locks [] []).dev.lku.waiters.find? (fun w => w.host == some (64 * 1 + 63)) = none) ∧
    (let s := locks [aHold] [] aSlot
     mapped s.dev ((lkSlot s.dev 1 63).lo.toNat + (lkSlot s.dev 1 63).hi.toNat % 256 * 2 ^ 32) 4 = true ∧
      ((lkSlot s.dev 1 63).lo.toNat + (lkSlot s.dev 1 63).hi.toNat % 256 * 2 ^ 32) / 8 * 8 = lockAddr ∧ (lockEnt s.dev lockAddr).isSome = true ∧
      s.dev.lku.table.length < 4096 ∧ (lkSlot s.dev 1 63).kept = none) ∧
    mapped State.reset.dev 2 4 = false ∧
    (let s := locks [aHold] [aWait 0 (some 127)] (aSlot none (some 0)) (time (2 ^ 40))
     (lkSlot s.dev 1 63).stall = some 0 ∧ rf s.dev Rg.LK_HOST_LIMIT Fl.LK_HOST_LIMIT_LIMIT_US * 1000 ≤ nowNs s.dev - 0 ∧
      nowNs State.reset.dev - 0 < rf s.dev Rg.LK_HOST_LIMIT Fl.LK_HOST_LIMIT_LIMIT_US * 1000 ∧
      s.dev.lku.waiters.find? (fun w => w.host == some (64 * 1 + 63)) = some (aWait 0 (some 127))) := by decide
theorem test_admits_lku : Admits (locks [] []).dev (Rg.pageOf Rg.LKU_PEEK_ADDR_LO) .hostA := admits (by decide)
/-- R364: a host that reads a free lock is answered with bit 31 and its own holder identifier. -/
theorem test_acquire : (after (.lkAcquire 1 63) (locks [] [] aSlot)).dev.out = [.lockReply 1 63 (BitVec.ofNat 32 (2 ^ 31 + 2 * 2 ^ 29 + 63 * 2 ^ 11))] := by decide

/-! ## Witnesses: faults, stored data, restoration -/

/-- Element 1 of laser channel 15, and the channel of requester 1007's neighbour 900. -/
def laserK : W64 := BitVec.ofNat 64 (laserChan 15 1)
def reqK : W64 := BitVec.ofNat 64 (reqChan 900)
def faulty (k : W64) (c : Chan) (ns : Nat := 0) : State := atDev (fun d => time ns (chanAt k.toNat c d))
/-- Word `w` of array `n` of place `pl`, its merge entries, and its test window set on it. -/
def stored (pl n w : Nat) (x : SWord) (l : List MergeE := []) (f : Dev → Dev := id) : State :=
  atDev (fun d =>
    let d := { d with core := { d.core with sram := [(swordKey pl n w, x)], merge := [(pl * 65536 + n, l)] } }
    let d := reg (pwReg pl Rg.PW_SEL Rg.ZPW_SEL) (BitVec.ofNat 32 n) (reg (pwReg pl Rg.PW_TEST_ADDR Rg.ZPW_TEST_ADDR) (BitVec.ofNat 32 w) d)
    f (ready (Rg.pageOf (pwReg pl Rg.PW_TEST_CTRL Rg.ZPW_TEST_CTRL)) d))
theorem test_witness_FaultsAreJudgedAndUnitsReturn :
    Calm State.reset.dev ∧
    (validChan (BitVec.allOnes 64).toNat = false ∧ validChan laserK.toNat = true ∧ validChan reqK.toNat = true ∧ chTy laserK.toNat = 5 ∧ chTy reqK.toNat = 8) ∧
    (Registered (faulty laserK {}).dev laserK.toNat ∧ Registered (faulty reqK {}).dev reqK.toNat) ∧
    ((chan (faulty reqK {}).dev reqK.toNat).state = 0 ∧ (chan (faulty reqK {}).dev reqK.toNat).count = 0 ∧
      2 ≤ rf State.reset.dev (Rg.RAS_RULE 8) Fl.RAS_RULE_N) ∧
    (let s := faulty laserK { state := 1, count := 65535 }
     (chan s.dev laserK.toNat).state ≤ 1 ∧ (chan s.dev laserK.toNat).count ≠ 0 ∧
      nowNs s.dev < 0 + rf s.dev (Rg.RAS_RULE 5) Fl.RAS_RULE_WINDOW_MS * 1000000 ∧ rf s.dev (Rg.RAS_RULE 5) Fl.RAS_RULE_N ≤ 65536) ∧
    (∀ k ∈ [1, 2, 3], (chan (faulty reqK { state := k }).dev reqK.toNat).state = k) ∧
    (0 + rf State.reset.dev (Rg.RAS_RULE 8) Fl.RAS_RULE_WINDOW_MS * 1000000 ≤ nowNs (faulty reqK { state := 1 } (2 ^ 50)).dev ∧
      0 + 1000000000 ≤ nowNs (faulty reqK { state := 2 } 1000000000).dev ∧ nowNs (faulty reqK { state := 2 } 999999999).dev < 0 + 1000000000) ∧
    (sramRows 4 (5 * 2048) * 128 ≤ 2 ^ 20 ∧ sramRows 4 (5 * 2048 + 32) * 128 ≤ 0 ∧ 131071 < sramRows 4 (5 * 2048) * 128 ∧
      (∀ e ∈ merges (stored 4 4096 0 { valid := true, chk := 1 }).dev 4 4096, e.word ≠ 0) ∧
      (sword (stored 4 4096 0 { valid := true, chk := 1 }).dev 4 4096 0).chk ≠ 0 ∧ 0 < sramRows 4 4096 * 128) ∧
    (let s := stored 0 2048 7 {} [⟨7, 255, 9, 0⟩] (fun d => { d with mc := 4 })
     merges s.dev 0 2048 = [⟨7, 255, 9, 0⟩] ∧ 4 ≤ s.dev.mc - 0 ∧ ¬(2048 / 2048 = 0)) ∧
    (let s := stored 4 4096 0 { valid := true }
     pwInst s.dev 4 = 4096 ∧ pwWord s.dev 4 = 0 ∧ heldWord s.mem s.dev 4 4096 0 = none ∧ pwBypass s.dev 4 = false ∧
      pwBypass (reg (Rg.ZPW_TEST_CTRL 3) 1 s.dev) 4 = true ∧ (sword s.dev 4 4096 0).valid = true ∧ (sword s.dev 4 4096 0).poison = false) ∧
    (let s := stored 0 (2048 + 15) 131071 {}
     pwInst s.dev 0 = 2048 + 15 ∧ pwWord s.dev 0 < sramRows 0 (2048 + 15) * 128) ∧
    (let s := atDev (fun d => chanAt reqK.toNat { state := 3 } { d with ras := { d.ras with registry := [(0, reqK.toNat + 1)] } })
     tget zeroN s.dev.ras.registry (rf s.dev Rg.RAS_REG_SEL Fl.RAS_REG_SEL_INDEX) = reqK.toNat + 1 ∧ (chan s.dev reqK.toNat).state = 3 ∧ chTy reqK.toNat ≠ 4) ∧
    (∀ j ∈ [0, 2 ^ 30], let s := atDev (fun d => chanAt (coreChan (32 * 3 + 25)) { state := 2 } { d with bar := { d.bar with zones := [(3, { run := true, shadowCore := 25, judged := j })] } })
      (barz s.dev 3).run = true ∧ (barz s.dev 3).remain = 0 ∧ (zoneFlights s.dev 3).any (fun f => f.copyOf.isSome) = false ∧
        (chan s.dev (coreChan (32 * 3 + 25))).state = 2 ∧
        (decide (rf s.dev (Rg.ZRAS_SHADOW_CFG 3) Fl.ZRAS_SHADOW_CFG_MIN_JUDGED ≤ j) = decide (j ≠ 0))) :=
  ⟨⟨rfl, rfl⟩, by decide, ⟨Or.inr (by decide), Or.inr (by decide)⟩, by decide, by decide, by decide, by decide, by decide, by decide, by decide,
   by decide, by decide, by decide⟩
/-- An uncorrectable and a corrected burst of the last pseudo-channel before the spare, and what channel they are faults of. -/
def aBurst (y : Option (BitVec 8)) : BurstErr := ⟨spareBase / 32 - 1, y⟩
theorem test_witness_bursts :
    (∀ y ∈ [none, some 5], let k : W64 := BitVec.ofNat 64 (burstChan State.reset.dev (aBurst y))
      validChan k.toNat = true ∧ isHbm State.reset.dev (32 * (aBurst y).burst) = true ∧ hbmLost State.reset.dev (32 * (aBurst y).burst) = false ∧
        burstChan State.reset.dev (aBurst y) = k.toNat) ∧
    isHbm State.reset.dev (32 * 2 ^ 40) = false ∧ burstChan State.reset.dev (aBurst none) ≠ reqK.toNat := by decide
/-- A poisoned word of replica 0 of a replicated table. -/
theorem test_witness_replica :
    let s := stored 1 (7 * 2048) 0 { valid := true, poison := true } [] (table0 1 0 0)
    (0 : Nat) < sramRows 1 (7 * 2048) * 128 ∧ 7 * 2048 / 2048 ≠ 4 ∧ (sword s.dev 1 (7 * 2048) 0).valid = true ∧ (sword s.dev 1 (7 * 2048) 0).poison = true ∧
      (0, 0, 0) ∈ entsAt s.dev 1 (7 * 2048) 0 ∧ (descAt s.dev 1 0).repl = true := by decide
/-- A window on hub shared SRAM whose test bits differ from the word's code, and one whose bits are those of the code. -/
theorem test_witness_window : pwBypass (stored 0 2048 0 {}).dev 0 = false ∧ pwBypass (reg Rg.PW_TEST_CTRL 1 (stored 0 2048 0 {}).dev) 0 = true ∧
    2048 / 2048 = 1 ∧ 0 < sramRows 0 2048 * 128 := by decide
theorem test_admits_pw : (∀ pl ∈ [0, 4], Admits (stored pl 4096 0 {}).dev (Rg.pageOf (pwReg pl Rg.PW_TEST_CTRL Rg.ZPW_TEST_CTRL)) .hostA) ∧
    Admits (atDev (ready (Rg.pageOf Rg.RAS_REG_STATE))).dev (Rg.pageOf Rg.RAS_REG_STATE) .hostA := by
  refine ⟨?_, admits (by decide)⟩
  intro pl h
  simp only [List.mem_cons, List.not_mem_nil, or_false] at h
  rcases h with rfl | rfl <;> exact admits (by decide)
/-- R383: the channel of a first fault is SUSPECT and its total counts one. -/
theorem test_fault : (chan (after (.fault reqK ⟨false, none⟩) State.reset).dev reqK.toNat).state = 1 ∧ (chan (after (.fault reqK ⟨false, none⟩) State.reset).dev reqK.toNat).total = 1 := by decide

/-! ## Witnesses: host ports -/

/-- Host 1 with the last ring of kind `k` enabled and one descriptor offered; port 0 is open and the pages that serve are ready. -/
def hosted (k r : Nat) (f : Dev → Dev := id) : State :=
  openPort (fun d => f (ready (urnPage 0) (ready (Rg.pageOf (ringCtl 1 k r)) (ready (hifPage 1) (wf (wf d (ringCtl 1 k r) Fl.PRING_CTL_ENABLE 1) (ringIdx 1 k r)
    Fl.PRING_IDX_DOORBELL 1)))))
/-- A DIRECT or PIPELINE inject of 60 bytes for class 7 of port 0 with CTRL, and its frame. -/
def injectWords (mode : Nat) (res : W32 := 0) : List W32 := [0, 0, BitVec.ofNat 32 (60 + 7 * 2 ^ 14 + 2 ^ 18 + mode * 2 ^ 20), 0, 9, res, 0, 0]
def body : List Byte := List.replicate 60 0
theorem test_witness_HostPortsCarryFramesAndInterrupts :
    Calm (hosted 1 63).dev ∧
    (∀ e ∈ [(0, 63), (1, 63), (2, 7), (3, 3)], let c := ringConsumed (hosted e.1 e.2).dev 1 e.1 e.2
      c = 0 ∧ (0 ≤ ringSize (hosted e.1 e.2).dev 1 e.1 e.2) ∧ ringSize (hosted e.1 e.2).dev 1 e.1 e.2 < (if e.1 = 3 then (0 + 65536 - 1) % 65536 else (65535 + 65536 - 0) % 65536)) ∧
    bar2Listed 0x2100C = true ∧ bar2Listed 4 = false ∧
    (let j : PuntJob := ⟨zHandle, 0, 63, 0, 7, true, 0, 255⟩
     let s := hosted 0 63 (fun d => { d with urn := { d.urn with bufs := [(131071, { aBuf 6 (128 * 1 + 63) with bytes := plain })] }, hif := { d.hif with punts := [(127, [j])] } })
     puntJobs s.dev 1 63 = [j] ∧ inD3 s.dev 1 = false ∧ bufOf s.dev zHandle = some { aBuf 6 (128 * 1 + 63) with bytes := plain } ∧
      isolated s.dev (hZone zHandle) = false ∧ dword [0, 0, 63] 2 < 64) ∧
    (ringTakes (hosted 1 63).dev 1 1 63 = true ∧ ringTakes State.reset.dev 1 1 63 = false) ∧
    (∀ m ∈ [0, 1], let x := injectOf (injectWords m)
      injectBad (hosted 1 63).dev x (injectWords m) body = false ∧ injectBad (hosted 1 63).dev x (injectWords m 1) body = true ∧ x.mode = m ∧ x.mc = false ∧
        x.ctrl = true ∧ injectZone (hosted 1 63).dev 1 63 x = 0 ∧ x.dest = 0 ∧ x.cls = 7) ∧
    ((page (hosted 1 63).dev (urnPage 0)).ready = true ∧ isolated (hosted 1 63).dev 0 = false ∧ portUsable (hosted 1 63).dev 0 = true ∧
      portUsable (hosted 1 63 (fun d => { d with line := {} })).dev 0 = false ∧
      isolated (hosted 1 63 (link 0 { isolated := true })).dev 0 = true) ∧
    (let s := hosted 1 63
     poolRoom s.dev 0 (cellsOf 64) true = true ∧ barred s.dev (injectReq 1 63) = false ∧ mayPresent s.dev (cycleOf s.dev 0) (injectReq 1 63) = true ∧ [131071].length = cellsOf 64 ∧ cellsAvail s.dev 0 [131071] = true ∧ (voq s.dev 0 7).q = [] ∧
      (voq s.dev 0 7).chain = [] ∧ (voq s.dev 0 7).spill = false ∧ cellsOf 64 ≤ rf s.dev (Rg.TM_VOQ_LIMIT 0 7) Fl.TM_VOQ_LIMIT_LIMIT) ∧
    (let s := hosted 1 63 (fun d => time 100000 { d with urn := { d.urn with zones := [(0, { occ := 131072 })] }, hif := { d.hif with rings := [(ringKey 1 1 63, { wait := some 0 })] } })
     poolRoom s.dev 0 (cellsOf 64) true = false ∧ barred (chanAt (reqChan (injectReq 1 63)) { state := 3 } s.dev) (injectReq 1 63) = true ∧ (ring s.dev 1 1 63).wait = some 0 ∧ ringTakes s.dev 1 1 63 = true ∧ 0 + 100000 ≤ nowNs s.dev) ∧
    (let s := hosted 3 3 (fun d => time 1000 (wf (wf { d with hif := { d.hif with rings := [(ringKey 1 3 3, { timer := some 0 })], open_ := [(1, 1)] } } (ringThr 1 3 3) Fl.PRING_THR_TIME_US 1)
        (ringCtl 1 3 3) Fl.PRING_CTL_VEC_EN 1))
     3 < ringCount (kindNo .event) ∧ ringCount (kindNo .event) ≤ 4 ∧ (ring s.dev 1 3 3).timer = some 0 ∧ rf s.dev (ringThr 1 3 3) Fl.PRING_THR_TIME_US ≠ 0 ∧
      0 + rf s.dev (ringThr 1 3 3) Fl.PRING_THR_TIME_US * 1000 * 2 ^ 32 ≤ s.dev.tb ∧ State.reset.dev.tb < 0 + rf s.dev (ringThr 1 3 3) Fl.PRING_THR_TIME_US * 1000 * 2 ^ 32 ∧
      rb s.dev (ringCtl 1 3 3) Fl.PRING_CTL_VEC_EN = true ∧ (tget zeroN s.dev.hif.open_ 1).testBit (rf s.dev (ringCtl 1 3 3) Fl.PRING_CTL_VECTOR) = true) ∧
    (ringEnabled (hosted 2 7).dev 1 2 7 = true ∧ ringEnabled State.reset.dev 1 2 7 = false) ∧
    ((tget zeroN (hosted 3 3 (fun d => { d with hif := { d.hif with pend := [(1, 2 ^ 127)] } })).dev.hif.pend 1).testBit 127 = true ∧
      inD3 (hosted 3 3 (fun d => wf d (Rg.HIF_STATUS 1) Fl.HIF_STATUS_D3HOT 1)).dev 1 = true ∧ hostWidth State.reset.dev 1 ≠ 0 ∧
      rf (hosted 3 3 (fun d => wf d (Rg.HIF_STATUS 1) Fl.HIF_STATUS_WIDTH 4)).dev (Rg.HIF_STATUS 1) Fl.HIF_STATUS_WIDTH ≠ 0) := by
  refine ⟨⟨rfl, rfl⟩, ?_⟩; decide
theorem test_witness_HostPorts_descriptor : PuntDesc [0x1000, 0, 16383, 0, 0, 0, 0, 0] 16383 ∧ PuntDesc [0x1000, 0, 64, 0, 0, 0, 0, 0] 64 ∧
    Admits (atDev (ready (Rg.pageOf (ringCtl 1 2 7)))).dev (Rg.pageOf (ringCtl 1 2 7)) .hostA := by
  refine ⟨?_, ?_, admits (by decide)⟩ <;> (unfold PuntDesc; decide)
/-- R403: a doorbell that would pass the ring's size sets bit 2 of HIF_ERR. -/
theorem test_doorbell : rd (after (.puntDoorbell 1 63 4 65535) (hosted 0 63)).dev (Rg.HIF_ERR 1) = 4 := by decide

/-! ## Witnesses: event controller -/

/-- Source `n` as given with its configuration, and the IC pages ready. -/
def sourced (n : Nat) (x : Src) (f : Dev → Dev := id) : State :=
  atDev (fun d => f (ready (Rg.pageOf (Rg.SRC_STATE n)) (ready (Rg.pageOf (Rg.ALARM_CTRL 0)) (ready (Rg.pageOf Rg.baseIC) (ready (Rg.pageOf Rg.GROUP_RELEASE_LO) { d with ic := { d.ic with srcs := [(n, x)] } })))))
def toTarget (n t : Nat) (d : Dev) : Dev := wf (wf d (Rg.SRC_CFG n) Fl.SRC_CFG_LOW_TARGET t) (Rg.SRC_CFG n) Fl.SRC_CFG_LOW_MASK 0
def grouping (n : Nat) (d : Dev) : Dev := wf (wf d (Rg.SRC_CFG n) Fl.SRC_CFG_LOW_CO_EN 1) (Rg.SRC_CFG n) Fl.SRC_CFG_LOW_MASK 0
/-- The device sleeps and its MC tree stands still. -/
def asleep (d : Dev) : Dev := wf (wf d Rg.PWR_STATE Fl.PWR_STATE_STATE 1) Rg.CLK_SLEEP_EN Fl.CLK_SLEEP_EN_EN 0
/-- A real source of zone 3, and the shared CORE source of event 3 there. -/
def zSrc : Nat := 128 + 96 * 3
def cSrc : Nat := 128 + 96 * 3 + 62
theorem test_witness_EventSourcesLatchAndDeliver :
    (realSource 511 = false ∧ realSource zSrc = true ∧ coreSource zSrc = none ∧ realSource cSrc = true ∧ coreSource cSrc = some (3, 3)) ∧
    (srcPlace zSrc ≠ 0 ∧ isolated (link 3 { isolated := true } State.reset.dev) (srcPlace zSrc - 1) = true ∧ isolated State.reset.dev 3 = false) ∧
    (treeRuns (sourced zSrc {} asleep).dev 2 = false ∧ treeRuns (sourced zSrc {}).dev 2 = true) ∧
    (Ungrouped (sourced zSrc {}) zSrc ∧ rb (sourced zSrc {} (grouping zSrc)).dev (Rg.SRC_CFG zSrc) Fl.SRC_CFG_LOW_CO_EN = true ∧
      rb (sourced zSrc {} (grouping zSrc)).dev (Rg.SRC_CFG zSrc) Fl.SRC_CFG_LOW_MASK = false ∧
      groupTimedOut (sourced zSrc {} (grouping zSrc)).dev (rf (sourced zSrc {} (grouping zSrc)).dev (Rg.SRC_CFG zSrc) Fl.SRC_CFG_LOW_GROUP) = false ∧ Ungrouped (sourced cSrc {}) cSrc) ∧
    (∀ t ∈ [1, 2, 3, 4, 5, 6], let s := sourced zSrc { pending := true } (toTarget zSrc t)
      selected s.dev t = some zSrc ∧ (∀ k ∈ [1, 2, 3], k ≠ t → readyFor s.dev k = [] ∧ selected s.dev k = none)) ∧
    (∀ h ∈ [0, 1], let s := sourced zSrc { pending := true } (fun d => toTarget zSrc (h + 1) { d with hif := { d.hif with open_ := [(h, 1)] } })
      rb s.dev Rg.IC_CTRL Fl.IC_CTRL_EN = true ∧ topPrio s.dev ((readyFor s.dev (h + 1)).filter (fun k => !(src s.dev k).requested)) = some zSrc ∧
        inD3 s.dev h = false ∧ (tget zeroN s.dev.hif.open_ h).testBit (rf s.dev (Rg.SRC_CFG zSrc) Fl.SRC_CFG_LOW_VECTOR) = true) ∧
    ((items State.reset.dev 0).length < 4096 ∧ State.reset.dev.ic.stall = false ∧ rb (wf State.reset.dev Rg.IC_CTRL Fl.IC_CTRL_EN 0) Rg.IC_CTRL Fl.IC_CTRL_EN = false) ∧
    ((src (sourced zSrc { active := true, target := 6 }).dev zSrc).target = 6 ∧ (src (sourced zSrc { latch := true }).dev zSrc).latch = true) := by
  refine ⟨by decide, by decide, by decide, ⟨by unfold Ungrouped; decide, by decide, by decide, by decide, by unfold Ungrouped; decide⟩, by decide, by decide, by decide, by decide⟩
theorem items_set (d : Dev) (l : List W64) : items (setItems d 0 l) 0 = l := by simp [items, setItems, modBar]
/-- A kernel queue that is full. -/
theorem test_full_items : 4096 ≤ (items (setItems (sourced zSrc {}).dev 0 (List.replicate 4096 0)) 0).length := by
  rw [items_set, List.length_replicate]
theorem test_admits_ic : Answers (sourced zSrc {}).dev (Rg.pageOf Rg.baseIC) .hostA ∧ Admits (sourced zSrc {}).dev (Rg.pageOf Rg.baseIC) .hostA ∧
    Admits (sourced zSrc {}).dev (Rg.pageOf Rg.GROUP_RELEASE_LO) .hostA ∧ Admits (sourced zSrc {}).dev (Rg.pageOf (Rg.ALARM_CTRL 15)) .hostA ∧
    Admits (sourced 511 {}).dev (Rg.pageOf (Rg.SRC_STATE 511)) .hostA :=
  ⟨answers (by decide), admits (by decide), admits (by decide), admits (by decide), admits (by decide)⟩
def groupSt : State :=
  sourced zSrc { pending := true, held := true } (fun d => wf { grouping zSrc d with ic := { d.ic with groups := [(0, ⟨1, some 0⟩)] } } (Rg.IC_GROUP 0) Fl.IC_GROUP_COUNT 1)
theorem test_witness_GroupsAndAlarmsAct_count : rf groupSt.dev (Rg.IC_GROUP 0) Fl.IC_GROUP_COUNT = 1 ∧ (coGroup groupSt.dev 0).edges = 1 ∧
    heldIn groupSt.dev 0 = [zSrc] := by decide
def timedSt : State := atDev (fun d => time 1000 (wf { d with ic := { d.ic with groups := [(63, ⟨1, some 0⟩)] } } (Rg.IC_GROUP 63) Fl.IC_GROUP_TIME_US 1))
theorem test_witness_GroupsAndAlarmsAct_time : rf timedSt.dev (Rg.IC_GROUP 63) Fl.IC_GROUP_TIME_US = 1 ∧ (coGroup timedSt.dev 63).start = some 0 ∧
    0 + 1 * 1000 ≤ nowNs timedSt.dev := by decide
def alarmSt (p : W32) (ns : Nat) : State :=
  sourced 511 { active := true } (fun d => time ns (reg (Rg.ALARM_PERIOD_NS 15) p (reg (Rg.ALARM_TIME_LO 15) 7 (wf d (Rg.ALARM_CTRL 15) Fl.ALARM_CTRL_ARM 1))))
theorem test_witness_GroupsAndAlarmsAct : rb (alarmSt 0 7).dev (Rg.ALARM_CTRL 15) Fl.ALARM_CTRL_ARM = true ∧
    rd64 (alarmSt 5 7).dev (Rg.ALARM_TIME_LO 15) (Rg.ALARM_TIME_HI 15) = 7 ∧ nowNs (alarmSt 5 7).dev = 7 ∧ rd (alarmSt 5 7).dev (Rg.ALARM_PERIOD_NS 15) = 5 ∧
    rd (alarmSt 0 7).dev (Rg.ALARM_PERIOD_NS 15) = 0 ∧ nowNs (alarmSt 0 6).dev = 6 ∧ (src (alarmSt 0 6).dev 511).active = true := by
  refine ⟨?_, ?_, ?_, ?_, ?_, ?_, ?_⟩ <;> decide
/-- R428: a claim returns the source number plus 1 and the count, and the source is ACTIVE. -/
theorem test_claim : let s := after (.claim 4 [.hostA]) (sourced zSrc { pending := true, count := 3 } (toTarget zSrc 4))
    tget zero64 s.dev.rdata (masterKey .hostA) = BitVec.ofNat 64 (zSrc + 1 + 3 * 1024) ∧ (src s.dev zSrc).active = true := by decide

/-! ## Witnesses: management interfaces -/

theorem test_witness_ManagementPortsAnswer :
    (rb State.reset.dev Rg.I3C_ADDR Fl.I3C_ADDR_DA_VALID = false ∧ rb (wf State.reset.dev Rg.I3C_ADDR Fl.I3C_ADDR_DA_VALID 1) Rg.I3C_ADDR Fl.I3C_ADDR_DA_VALID = true) ∧
    (let d := wf (wf State.reset.dev (Rg.LSR_SLOT 31) Fl.LSR_SLOT_VALID 1) Rg.LSR_CTRL Fl.LSR_CTRL_CTL_EN 1
     (rb d (Rg.LSR_SLOT 31) Fl.LSR_SLOT_VALID && rb d Rg.LSR_CTRL Fl.LSR_CTRL_CTL_EN) = true ∧ State.reset.dev.line.permit = false) ∧
    (State.reset.dev.mgt.rx.length < 64 ∧ 64 ≤ (List.replicate 64 (0 : Byte)).length ∧ State.reset.dev.mgt.tx = []) ∧
    (let d := wr State.reset.dev Rg.GPIO_EDGE_RISE 0x8000
     (rd d Rg.GPIO_IN).getLsbD 15 = false ∧ (rd d Rg.GPIO_EDGE_RISE).getLsbD 15 = true ∧ (rd d Rg.GPIO_EDGE_FALL).getLsbD 15 = false) := by decide
/-- R421: a rise of an input sets its bit. -/
theorem test_gpio : rd (after (.gpioEdge 15 true) State.reset).dev Rg.GPIO_IN = 0x8000 := by decide

/-! ## Witnesses: clocks, timebase, power -/

/-- A module that is on, changed further by `f`; its CLK and TB pages are ready. -/
def onDev (f : Dev → Dev := id) : State := atDev (fun d => f (powered (ready (Rg.pageOf Rg.CLK_CTRL) (ready (Rg.pageOf Rg.TB_CMD) d))))
/-- CLK_STATUS with the given A_OK, B_OK, COAST and ACTIVE. -/
def refs (a b c act : Nat) (d : Dev) : Dev :=
  let r := Rg.CLK_STATUS
  wf (wf (wf (wf (wf d Rg.CLK_CTRL Fl.CLK_CTRL_B_EN 1) r Fl.CLK_STATUS_A_OK a) r Fl.CLK_STATUS_B_OK b) r Fl.CLK_STATUS_COAST c) r Fl.CLK_STATUS_ACTIVE act
theorem test_witness_ReferencesAndTimebaseFollowTheirRules :
    (onDev.dev.ket.off = false ∧ State.reset.dev.ket.off = true) ∧ rb (onDev (refs 1 1 0 0)).dev Rg.CLK_CTRL Fl.CLK_CTRL_B_EN = true ∧
    (refOk (onDev (refs 1 0 0 0)).dev 0 = true ∧ refOk (onDev (refs 1 0 0 0)).dev 1 = false ∧ coasting (onDev (refs 1 0 0 0)).dev = false ∧
      activeRef (onDev (refs 1 0 0 0)).dev = 0 ∧ refOk (onDev (refs 1 1 0 1)).dev 1 = true ∧ activeRef (onDev (refs 1 1 0 1)).dev = 1 ∧
      coasting (onDev (refs 0 1 1 0)).dev = true ∧ refOk (onDev (refs 0 1 1 0)).dev 1 = true) ∧
    (rb (onDev (fun d => wf d Rg.CLK_CTRL Fl.CLK_CTRL_REVERT 1)).dev Rg.CLK_CTRL Fl.CLK_CTRL_REVERT = true ∧ onDev.dev.tbStep = none) ∧
    (rb (onDev (fun d => wf d Rg.TB_PPS Fl.TB_PPS_PPS_EN 1)).dev Rg.TB_PPS Fl.TB_PPS_PPS_EN = true ∧ onDev.dev.ket.ppsLast = none ∧
      (onDev (fun d => time 5 { d with ket := { d.ket with pps := some 5 } })).dev.ket.pps = some 5 ∧ nowNs (onDev (time 5)).dev = 5 ∧ nowNs (onDev (time 4)).dev < 5) := by decide
theorem test_admits_tb : Admits onDev.dev (Rg.pageOf Rg.TB_CMD) .hostA ∧ Answers onDev.dev (Rg.pageOf Rg.TB_NOW_LO) .hostA := ⟨admits (by decide), answers (by decide)⟩
/-- R439, R440: the loss of the reference that is not active changes neither the active one nor coasting. -/
theorem test_ref : let d := (after (.refLoss 1) (onDev (refs 1 1 0 0))).dev
    refOk d 1 = false ∧ refOk d 0 = true ∧ coasting d = false ∧ activeRef d = 0 := by decide

/-- Unit `u` as given, at `ns`. -/
def unitAt (u : Nat) (x : UnitPw) (ns : Nat) (f : Dev → Dev := id) : State :=
  onDev (fun d => f (time ns (wf (wf (wf { d with ket := { d.ket with units := [(u, x)] } } Rg.PWR_UNIT_EN Fl.PWR_UNIT_EN_NAP_EN 1) Rg.PWR_UNIT_EN
    Fl.PWR_UNIT_EN_DOZE_EN 1) Rg.PWR_UNIT_EN Fl.PWR_UNIT_EN_DORMANT_EN 1)))
/-- Stack 3 serves and the HBM may go dormant. -/
def stackOn (d : Dev) : Dev := wf (wf d (Rg.HBM_STATUS 3) Fl.HBM_STATUS_STATE 2) (Rg.HBM_CTRL 0) Fl.HBM_CTRL_DORMANT_EN 1
theorem test_witness_UnitsAndDeviceChangePowerStates :
    (∀ e ∈ [(128, fun d => d), (135, stackOn), (199, fun d => wf d (Rg.QUAD_MODE 63) Fl.QUAD_MODE_PORT_EN 0)],
      let s := unitAt e.1 { state := 1, idle := some 0 } 2000000 e.2
      unitExists s.dev e.1 = true ∧ s.dev.ket.off = false ∧ unitIdle s.dev e.1 = true ∧ unitStays s.dev e.1 = false ∧ unitEmpty s.dev e.1 = true ∧
        2000000 ≤ elapsed (nowNs s.dev) 0 ∧ rb s.dev Rg.PWR_UNIT_EN Fl.PWR_UNIT_EN_DOZE_EN = true ∧ rb s.dev Rg.PWR_UNIT_EN Fl.PWR_UNIT_EN_DORMANT_EN = true) ∧
    ((tget unitDflt (unitAt 128 {} 0).dev.ket.units 128).state = 0 ∧ unitIdle (unitAt 128 {} 0).dev 128 = true) ∧
    (unitStays (unitAt 199 {} 0 (fun d => wf d (Rg.QUAD_MODE 63) Fl.QUAD_MODE_PORT_EN 8)).dev 199 = true) ∧
    (let light := onDev (fun d => wf d Rg.PWR_STATE Fl.PWR_STATE_SLEEP_EN 1)
     mayEnter light.dev 1 = true ∧ nextEvent light.dev = none ∧ mayEnter light.dev 2 = false) ∧
    mayEnter (onDev (fun d => wf d Rg.PWR_STATE Fl.PWR_STATE_DEEP_EN 1)).dev 2 = true ∧
    (let s := onDev (fun d => time 9 (wf { d with ket := { d.ket with wakeAt := some 9 } } Rg.PWR_STATE Fl.PWR_STATE_STATE 2))
     rf s.dev Rg.PWR_STATE Fl.PWR_STATE_STATE ≠ 0 ∧ s.dev.ket.wakeAt = some 9 ∧ 9 ≤ nowNs s.dev) := by decide
/-- R450: with an alarm far off and deep sleep allowed, the device goes to DEEP SLEEP. -/
theorem test_deep : rf (after .stateSelect (onDev (fun d => wf d Rg.PWR_STATE Fl.PWR_STATE_DEEP_EN 1))).dev Rg.PWR_STATE Fl.PWR_STATE_STATE = 2 := by decide
theorem test_witness_KettleTakesCausesAndShutsDown :
    (onDev.dev.ket.off = false ∧ (List.replicate 64 (0 : BitVec 16)).length = 64) ∧
    (let s := onDev (fun d => time 1000000 { d with ket := { d.ket with hot := [(67, some 0)] } })
     tget (fun _ => none) s.dev.ket.hot 67 = some 0 ∧ 1000000 ≤ elapsed (nowNs s.dev) 0) ∧
    (let s := onDev (chanAt (chanKey 6 5 3 0) { state := 3 })
     railShort s.dev 3 = true ∧ railShort onDev.dev 3 = false) ∧
    (onDev (fun d => { d with ket := { d.ket with capLevel := 3 } })).dev.ket.capLevel = 3 ∧
    (nowNs onDev.dev / 1000000 = onDev.dev.ket.capAt ∧ nowNs (onDev (time 1000000)).dev / 1000000 ≠ (onDev (time 1000000)).dev.ket.capAt) ∧
    (let s := onDev (fun d => time (2 ^ 40) { d with ket := { d.ket with below6 := some 0, above6 := some 0, above45 := some 0, crank := true, vinLow := true } })
     s.dev.ket.below6 = some 0 ∧ 0 + 1000 * rf s.dev Rg.PWR_CRANK Fl.PWR_CRANK_CRANK_US ≤ nowNs s.dev ∧ onDev.dev.ket.crank = false ∧
      nowNs onDev.dev < nowNs onDev.dev + 1000 * rf onDev.dev Rg.PWR_CRANK Fl.PWR_CRANK_CRANK_US ∧
      s.dev.ket.above6 = some 0 ∧ s.dev.ket.above45 = some 0 ∧ 0 + 1000 * rf s.dev Rg.PWR_CRANK Fl.PWR_CRANK_CLEAR_US ≤ nowNs s.dev) := by decide
/-- R457: a window of 1 ms that has not ended is not judged. -/
theorem test_cap : after (.capWindow 999999999) onDev = onDev ∧ (after (.capWindow 999999999) (onDev (time 1000000))).dev.ket.capLevel = 1 := by decide
/-- R453: a VIN below 4.5 V is a cause and counts its onset. -/
theorem test_vin : ctr (after (.vinLow 4499) onDev).dev Rg.PWR_VIN_LOW_CNT = 1 ∧ (after (.vinLow 4500) onDev) = onDev := by decide

/-! ## Witnesses: start-up and Caddy -/

/-- The zones below `z` are up; all their pages are ready where asked, and bank A of zone `z` is valid. -/
def upTo (z : Nat) (f : Dev → Dev := id) : State :=
  onDev (fun d => f (wf (wf d Rg.DEV_PHASE Fl.DEV_PHASE_ZONE_UP (2 ^ z - 1)) (Rg.ZCTL_IMG_VALID 3) Fl.ZCTL_IMG_VALID_VALID_A 1))
def allReady (d : Dev) : Dev := { d with pages := (zonePages 3).map (fun p => (p, { ready := true })) }
def anOpen (d : Dev) : Dev := { d with life := { d.life with zopen := 15 } }
theorem test_witness_ModuleStartsAndResets :
    (State.reset.dev.ket.off = true ∧ State.reset.dev.ket.tripped = false) ∧
    (bootSel (upTo 3).dev ≠ 3 ∧ zoneUp (upTo 3).dev 3 = false ∧ ∀ k, k < 3 → zoneUp (upTo 3).dev k = true) ∧
    (zoneUp (upTo 4).dev 3 = true ∧ (engine (upTo 4).dev (4 * 3)).calibrated = false) ∧
    (activeBank (upTo 4).dev 3 = 0 ∧ coasting (upTo 4).dev = false ∧ (upTo 4).dev.life.zopen.testBit 3 = false ∧
      rb (upTo 4).dev (Rg.ZCTL_IMG_VALID 3) Fl.ZCTL_IMG_VALID_VALID_A = true) ∧
    (rb (upTo 4 anOpen).dev Rg.DEV_PHASE Fl.DEV_PHASE_FWD_OPEN = false ∧ (∀ z, z < 4 → (upTo 4 anOpen).dev.life.zopen.testBit z = true) ∧
      portsWaited (upTo 4 (fun d => time 300000000 (anOpen d))).dev = true) ∧
    ((upTo 4 (fun d => { d with life := { d.life with opened := true } })).dev.life.opened = true) ∧
    ((0x96000001 : W32).getLsbD 0 = true ∧ (0x96000001 : W32).toNat / 2 ^ 24 = 0x96 ∧ (0x95000001 : W32).toNat / 2 ^ 24 ≠ 0x96) := by decide
/-- Every page of zone 3 ready. -/
theorem test_all_ready : ∀ p ∈ zonePages 3, (page (upTo 4 allReady).dev p).ready = true := by decide
theorem test_admits_reset : Admits (onDev (ready (Rg.pageOf Rg.DEV_RESET))).dev (Rg.pageOf Rg.DEV_RESET) .hostA := admits (by decide)
/-- R478: the page that follows the snapshot changes what is restored; a page that does not follow it is not taken. -/
theorem test_restore : (keptStored { snap0 := some ⟨1, 4, []⟩, journal := [⟨5, [(Rg.TB_ADJ, 0xFF, 7)]⟩] }).map (fun t => tget keptFactory t Rg.TB_ADJ) = some 7 ∧
    (keptStored { snap0 := some ⟨1, 4, []⟩, journal := [⟨6, [(Rg.TB_ADJ, 0xFF, 7)]⟩] }).map (fun t => tget keptFactory t Rg.TB_ADJ) =
      some (keptFactory Rg.TB_ADJ) := by decide

/-- Caddy as given, on, at `ns`, its page ready; CDY_FW_CTRL.STATE and CKPT_EN set. -/
def caddied (c : Caddy) (ns : Nat) (st : Nat := 0) : State :=
  onDev (fun d => time ns (ready (Rg.pageOf Rg.CDY_CMD) (wf (wf (wf { d with caddy := c } Rg.CDY_FW_CTRL Fl.CDY_FW_CTRL_STATE st) Rg.CDY_CTRL Fl.CDY_CTRL_CKPT_EN 1)
    Rg.CDY_CTRL Fl.CDY_CTRL_AUTO_CFG 1)))
def dirtyC (progs : List Nat) : Caddy := { dirty := [(Rg.TB_ADJ, 0xFF)], dirtyAt := some 0, progs := progs }
theorem test_witness_CaddyKeepsWhatItIsToldTo :
    (let s := caddied (dirtyC []) 100000000
     s.dev.ket.off = false ∧ overBudget s.dev = false ∧ s.dev.caddy.dirty ≠ [] ∧ s.dev.caddy.fresh = false) ∧
    overBudget (caddied (dirtyC (List.replicate 100 100000000)) 100000000).dev = true ∧
    ({ flushWant := true } : Caddy).flushWant = true ∧
    ((caddied {} 0).dev.caddy.snapping = none ∧ (caddied {} 0).dev.caddy.snapAt = none ∧ pageSince (caddied { journal := [⟨1, []⟩] } 0).dev = true ∧
      10000000000 ≤ elapsed (nowNs (caddied { snapAt := some 0 } 10000000000).dev) 0 ∧ elapsed (nowNs (caddied { snapAt := some 0 } 9999999999).dev) 0 < 10000000000) ∧
    (lastSnap { snap0 := some ⟨2, 0, []⟩ } = some (false, ⟨2, 0, []⟩) ∧ lastSnap { snap0 := some ⟨2, 0, []⟩, snap1 := some ⟨3, 0, []⟩ } = some (true, ⟨3, 0, []⟩) ∧
      lastSnap {} = none) ∧
    (autoSaveDue (caddied { cfgDirty := true } 60000000000).dev = true ∧ (caddied {} 0).dev.caddy.saves = [] ∧ 60000000000 ≤ elapsed 60000000000 0) ∧
    (rb (caddied {} 0).dev Rg.CDY_CTRL Fl.CDY_CTRL_CKPT_EN = true ∧ (caddied {} 0).dev.caddy.ckptAt = none ∧
      rf (caddied {} 0).dev Rg.CDY_CTRL Fl.CDY_CTRL_CKPT_MIN * 60000000000 ≤ elapsed (nowNs (caddied { ckptAt := some 0 } (2 ^ 60)).dev) 0) ∧
    (∀ n ∈ [0, 1, 2, 4], rf (caddied {} 0 n).dev Rg.CDY_FW_CTRL Fl.CDY_FW_CTRL_STATE = n) ∧
    (10000000000 ≤ elapsed (nowNs (caddied { readyAt := some 0 } 10000000000 4).dev) 0 ∧ 2000000000 ≤ elapsed (nowNs (caddied { switchAt := some 0 } 2000000000 4).dev) 0) := by decide
/-- 100 ms after its first change a page is due. -/
theorem test_due : pageDue (caddied (dirtyC []) 100000000).dev = true := by
  have h : (caddied (dirtyC []) 100000000).dev.caddy.dirtyAt = some 0 := rfl
  have k : 100000000 ≤ elapsed (nowNs (caddied (dirtyC []) 100000000).dev) 0 := by decide
  simp [pageDue, h, k]
theorem test_admits_caddy : Admits (caddied {} 0).dev (Rg.pageOf Rg.CDY_CMD) .hostA ∧ Admits (caddied {} 0).dev (Rg.pageOf Rg.CDY_FW_CTRL) .hostA :=
  ⟨admits (by decide), admits (by decide)⟩
/-- R475, R476: SYNC leaves no field dirty; records fill one page after the other. -/
theorem test_sync : (after (.sync .hostA) (caddied (dirtyC []) 0)).dev.caddy.dirty = [] := by decide
theorem test_pages : runsOf 2 5 [1, 2, 3, 4, 5] = [[1, 2], [3, 4], [5]] := by decide

/-! ## Witnesses: the twin pair, telemetry -/

/-- A module of twin state `st`, its link UP or not, at `ns`. -/
def twinned (st up : Nat) (w : Twin) (ns : Nat) (f : Dev → Dev := id) : State :=
  onDev (fun d => f (time ns (wf (wf (wf { d with twin := w } Rg.TWN_CTRL Fl.TWN_CTRL_EN 1) Rg.TWN_STATUS Fl.TWN_STATUS_STATE st) Rg.TWN_STATUS Fl.TWN_STATUS_LINK_UP up)))
def aRec (t : Nat) (x : Nat) : SyncRec := ⟨t, key0, 7, false, x⟩
/-- Table 0 is replicated and synced; it is EXACT in every zone. -/
def synced (d : Dev) : Dev := reg Rg.TWN_SYNC 1 (table0 1 0 3 (table0 1 0 2 (table0 1 0 1 (table0 1 0 0 d))))
theorem test_witness_Twin :
    (let s := twinned 2 1 { sentAt := some 0, hbAt := some 0 } 30000
     s.dev.ket.off = false ∧ twinEn s.dev = true ∧ twinLinkUp s.dev = true ∧ 10000 ≤ elapsed (nowNs s.dev) 0 ∧ twinState s.dev = 2 ∧
      s.dev.twin.hbAt = some 0 ∧ 0 + 30000 ≤ nowNs s.dev) ∧
    (∀ st ∈ [0, 1, 3, 4], twinState (twinned st 1 {} 0).dev = st) ∧
    (let s := twinned 1 0 { joinAt := 0 } (2 ^ 50)
     twinState s.dev = 1 ∧ twinLinkUp s.dev = false ∧ rf s.dev Rg.TWN_CTRL Fl.TWN_CTRL_JOIN_MS * 1000000 ≤ elapsed (nowNs s.dev) 0 ∧
      rf s.dev Rg.TWN_CTRL Fl.TWN_CTRL_RETRY_MS * 1000000 ≤ elapsed (nowNs s.dev) 0) ∧
    (let s := twinned 2 1 { own := [aRec 0 5, aRec 1 5, aRec 0 9] } 0 synced
     s.dev.twin.own.filter (fun y => y.tbl == 0 && y.key == key0) = [aRec 0 5] ++ [aRec 0 9] ∧ s.dev.twin.own.filter (fun y => y.tbl == 31 && y.key == key0) = [] ∧
      (descAt s.dev 0 0).repl = true ∧ (rd s.dev Rg.TWN_SYNC).toNat.testBit 0 = true ∧ actsPrimary s.dev = false ∧ (descAt s.dev 0 31).repl = false) := by decide
/-- One probe, of kind 9 and index 4, at the last place. -/
def probed (f : Dev → Dev := id) : State :=
  onDev (fun d => f (ready (Rg.pageOf (Rg.TEL_PMC_CTRL 3 25)) (ready (Rg.pageOf Rg.basePWR) (ready (Rg.pageOf Rg.TEL_CMD) (wf (wf (wf (reg (Rg.TEL_PROBE_INDEX 63) 4 d) (Rg.TEL_PROBE 63) Fl.TEL_PROBE_KIND 9)
    Rg.TEL_CTRL Fl.TEL_CTRL_EN 1) Rg.TEL_PERIOD Fl.TEL_PERIOD_PERIOD_US 100)))))
theorem test_witness_Telemetry_sample :
    (let s := probed (time (2 ^ 50))
     s.dev.ket.off = false ∧ rb s.dev Rg.TEL_CTRL Fl.TEL_CTRL_EN = true ∧ telPeriod s.dev ≠ 0 ∧
      min s.dev.tel.boundary (nowNs s.dev) < nowNs s.dev / telPeriod s.dev * telPeriod s.dev) ∧
    (let s := probed
     (∀ k, k < 64 → k ≠ 63 → probeKind s.dev k = 0) ∧ probeKind s.dev 63 = 9 ∧ probeMode s.dev 63 = 0 ∧ probeIndex s.dev 63 = 4 ∧ probeStale s.dev 63 = false ∧
      s.dev.tel.fresh.testBit 63 = false ∧ rd64 s.dev (Rg.TEL_ALERT_LO 63) (Rg.TEL_ALERT_HI 63) = 0) := by decide
def exporting (f : Dev → Dev := id) : State := probed (fun d => f { d with tel := { d.tel with job := some [List.replicate 8 0] } })
theorem test_witness_Telemetry_export :
    exporting.dev.tel.job = some [List.replicate 8 0] ∧ ringEnabled exporting.dev 0 3 1 = false ∧
    (let s := exporting (fun d => wf (wf (reg Rg.TEL_HBM_WPTR 32768 d) Rg.TEL_CTRL Fl.TEL_CTRL_HBM_EN 1) Rg.TEL_HBM_SIZE Fl.TEL_HBM_SIZE_HBM_SIZE 1)
     rb s.dev Rg.TEL_CTRL Fl.TEL_CTRL_HBM_EN = true ∧ rf s.dev Rg.TEL_HBM_SIZE Fl.TEL_HBM_SIZE_HBM_SIZE = 1 ∧ (rd s.dev Rg.TEL_HBM_WPTR).toNat = 1 * 2 ^ 20 / 32 ∧
      hbmLost s.dev 0 = false) ∧
    (let s := exporting (fun d => wf (wf d (ringCtl 0 3 1) Fl.PRING_CTL_ENABLE 1) (ringCtl 0 3 1) Fl.PRING_CTL_LOG2_SIZE 8)
     rf s.dev Rg.TEL_CTRL Fl.TEL_CTRL_HOST = 0 ∧ inD3 s.dev 0 = false ∧ ringEnabled s.dev 0 3 1 = true ∧ ringHeld s.dev 0 3 1 = false ∧
      (ringConsumed s.dev 0 3 1 + 65536 - ringDoorbell s.dev 0 3 1) % 65536 ≠ ringSize s.dev 0 3 1) ∧
    inD3 (wf State.reset.dev (Rg.HIF_STATUS 0) Fl.HIF_STATUS_D3HOT 1) 0 = true := by decide
theorem test_witness_TwinAndTelemetryFollowTheirRules : Calm probed.dev ∧ Calm exporting.dev ∧ Admits probed.dev (Rg.pageOf Rg.TEL_CMD) .hostA ∧
    Admits probed.dev (Rg.pageOf (Rg.TEL_PMC_CTRL 3 25)) .hostA := ⟨⟨rfl, rfl⟩, ⟨rfl, rfl⟩, admits (by decide), admits (by decide)⟩
/-- R491: with no heartbeat for 30 µs and TWIN_ALIVE_IN low the module is in PARTNER_LOST. -/
theorem test_loss : twinState (after .heartbeatLoss (twinned 2 1 { hbAt := some 0 } 30000)).dev = 4 ∧ after .heartbeatLoss (twinned 2 1 { hbAt := some 0 } 29999) =
    twinned 2 1 { hbAt := some 0 } 29999 := by decide

/-! ## Witnesses: the whole block -/

theorem test_witness_StepRunsTheFrontCommand : ({ State.reset with pending := [.gpioEdge 15 true] } : State).pending = [.gpioEdge 15 true] ∧
    State.reset.pending = [] ∧ State.reset.dev.ket.off = true ∧ (onDev (fun d => { d with tbStep := some (.set 5) })).dev.tbStep = some (.set 5) := by decide
theorem test_witness_EveryStepKeepsMemoryCanonical : State.reset.Inv ∧ ∃ t, step { State.reset with pending := [.gpioEdge 15 true] } = .next t :=
  ⟨rfl, _, rfl⟩
/-- A command at the front runs, and the queue's rest waits. -/
theorem test_queue : (match step { State.reset with pending := [.gpioEdge 15 true, .porst] } with | .next t => t.pending | _ => []) = [.porst] := by decide
/-- R444: a module that is on and does not coast gains 5.12 ns at a tick. -/
theorem test_tick : (match step (onDev (refs 1 0 0 0)) with | .next t => t.dev.tb | _ => 0) = 0x51EB851EB := by decide

end Sys2Proof.Tests
end

section
/-!
The journal pages of a retained-state shutdown (R455, R475): each holds at most 4 KiB of records, so a large dirty set takes several.
-/

namespace Sys2Proof.Machine
open Sys2Proof Sys2Proof.Terms

/-- A list longer than one run is cut into two runs or more. -/
theorem two_le_length_runsOf {α : Type} {n k : Nat} {l : List α} (hn : n < l.length) (hk : 2 ≤ k) : 2 ≤ (runsOf n k l).length := by
  obtain ⟨k, rfl⟩ := Nat.exists_eq_add_of_le' hk
  cases l with
  | nil => simp at hn
  | cons x l =>
    have hrest : ((x :: l).drop n).length ≠ 0 := by rw [List.length_drop]; omega
    cases h : (x :: l).drop n with
    | nil => simp [h] at hrest
    | cons y r => simp [runsOf, h]

/-- A page of 4 KiB holds at most 4,096 records, whatever a record takes. -/
theorem recsPerPage_le : recsPerPage ≤ 4096 := by
  have := Nat.div_le_self 4096 (max 1 Config.recordBytes)
  unfold recsPerPage
  omega

theorem journal_commitPage (d : Dev) (recs : List (Nat × W32 × W32)) :
    (commitPage d recs).caddy.journal = d.caddy.journal ++ [{ seq := d.caddy.jseq + 1, recs := recs }] := rfl

/-- Each run of records adds one page to the journal. -/
theorem length_journal_commitPages (runs : List (List (Nat × W32 × W32))) (d : Dev) :
    (runs.foldl commitPage d).caddy.journal.length = d.caddy.journal.length + runs.length := by
  induction runs generalizing d with
  | nil => rfl
  | cons r runs ih => rw [List.foldl_cons, ih, journal_commitPage, List.length_append, List.length_cons, List.length_cons, List.length_nil]; omega

/-- A dirty set is programmed as as many pages as its records fill (R475). -/
theorem length_journal_programPage {d : Dev} (hd : d.caddy.dirty ≠ []) (hf : d.caddy.fresh = false) :
    (programPage d).caddy.journal.length =
      d.caddy.journal.length + (runsOf recsPerPage d.caddy.dirty.length (dirtyRecs d)).length := by
  have he : d.caddy.dirty.isEmpty = false := by simpa using hd
  rw [← length_journal_commitPages]
  simp [programPage, he, hf, modCaddy]

theorem raise_caddy (d : Dev) (pg n : Nat) : (raise d pg n).caddy = d.caddy := by
  obtain ⟨_, _, _, h⟩ := raise_shape d pg n
  rw [h]

/-- The shutdown writes its journal through `programPage` alone. -/
theorem length_journal_retainedShutdown {d : Dev} (hd : d.caddy.dirty ≠ []) (hf : d.caddy.fresh = false) :
    ∃ recs : List (Nat × W32 × W32), recs.length = d.caddy.dirty.length ∧
      (retainedShutdown d).caddy.journal.length = d.caddy.journal.length + (runsOf recsPerPage d.caddy.dirty.length recs).length := by
  let e := raise (modTwin (modLife d (fun l => { l with pgOut := false })) (fun w => { w with toggling := false })) (Rg.pageOf Rg.basePWR) 3
  have he : e.caddy = d.caddy := raise_caddy ..
  refine ⟨dirtyRecs e, by simp [dirtyRecs, he], ?_⟩
  have hp := length_journal_programPage (d := e) (by rwa [he]) (by rwa [he])
  rw [he] at hp
  exact hp

/-- With more than 4,096 dirty registers a shutdown writes two journal pages or more. -/
theorem crowded_shutdown_writes_pages {d : Dev} (hd : 4096 < d.caddy.dirty.length) (hf : d.caddy.fresh = false) :
    d.caddy.journal.length + 2 ≤ (retainedShutdown d).caddy.journal.length := by
  have hne : d.caddy.dirty ≠ [] := by rintro h; simp [h] at hd
  obtain ⟨recs, hl, hj⟩ := length_journal_retainedShutdown hne hf
  have hpage := recsPerPage_le
  have hruns : 2 ≤ (runsOf recsPerPage d.caddy.dirty.length recs).length := two_le_length_runsOf (by omega) (by omega)
  omega

/-- RATE and BURST of the class shapers of every port (R308): 4,096 registers of Kept fields, with the bits of the fields. -/
def shaperFields : Tab W32 :=
  (List.range 4).flatMap fun z => (List.range 64).flatMap fun i => (List.range 8).flatMap fun c =>
    [(Rg.TM_CSH_RATE z i c, 0xFFFFF), (Rg.TM_CSH_BURST z i c, 0xFFFFFF)]

theorem length_shaperFields : shaperFields.length = 4096 := by simp [shaperFields, List.length_flatMap]

/-- A module that runs and in which every class shaper and TB_PPS have changed since the last journal page. -/
def crowdedState : State :=
  { dev := { ket := { off := false }, caddy := { dirty := (Rg.TB_PPS, 0xFFFF0001) :: shaperFields, dirtyAt := some 0 } } }

theorem exec_vstbyLoss_on {s : State} (h : s.dev.ket.off = false) :
    Machine.exec .vstbyLoss s = .next { s with mem := [], dev := retainedShutdown s.dev } := by
  show execVstbyLoss s = _
  simp [execVstbyLoss, h, State.onMem]

/-- Refutes O54: with 4,097 registers dirty at the loss of standby supply no single journal page of 4 KiB holds the dirty set, so the
shutdown adds two pages or more (R475), where the statement asks for exactly one. -/
theorem not_kettleTakesCausesAndShutsDown : ¬ Obligations.KettleTakesCausesAndShutsDown := by
  unfold Obligations.KettleTakesCausesAndShutsDown
  intro h
  obtain ⟨-, -, -, hloss, -⟩ := h crowdedState
  obtain ⟨u, hu, -, ⟨-, -, hwritten⟩, -⟩ := hloss rfl
  rw [exec_vstbyLoss_on rfl] at hu
  obtain rfl := Host.Outcome.next.inj hu
  have hlen : 4096 < crowdedState.dev.caddy.dirty.length := by
    have := length_shaperFields
    simp only [crowdedState, List.length_cons]
    omega
  have hpages := crowded_shutdown_writes_pages hlen rfl
  obtain ⟨p, hone, -⟩ := hwritten (by rintro h; simp [h] at hlen) rfl
  rw [show (retainedShutdown crowdedState.dev).caddy.journal = _ from hone, List.length_append, List.length_singleton] at hpages
  omega

end Sys2Proof.Machine
end

section
/-!
Register writes (R46 to R54): what one cycle of writes does when the checks refuse it, when it passes and when two masters meet; then the
access codes of the fields, on the registers that the statement names.
-/

namespace Sys2Proof.Machine
open Sys2Proof Sys2Proof.Terms

variable {d : Dev} {m : Master} {a n x : Nat} {p : PageId} {mem : Memory}

/-! ## The page of an access -/

/-- No implemented page lies in a counter window (R34, R35). -/
theorem windowZone_of_page (h : (pageId (a / 0x1000)).isSome = true) : windowZone a = none := by
  have hzone : ∀ r ∈ zoneDir, r.first + r.n ≤ 0x200 := by decide
  unfold windowZone
  rw [if_neg]
  rintro hw
  simp only [Bool.and_eq_true, decide_eq_true_eq] at hw
  obtain ⟨⟨hlo, hhi⟩, hwin⟩ := hw
  have h1 : ¬a / 0x1000 < 0x1000 := by omega
  have h2 : a / 0x1000 < 0x2000 := by omega
  simp only [pageId, h1, h2, if_true, if_false, Option.isSome_map, dirRow] at h
  obtain ⟨r, hr⟩ := Option.isSome_iff_exists.mp h
  have hin := List.find?_some hr
  have hmem := hzone r (List.mem_of_find?_eq_some hr)
  simp only [Bool.and_eq_true, decide_eq_true_eq] at hin
  omega

theorem inWindow_of_page (h : (pageId (a / 0x1000)).isSome = true) : inWindow d a m = false := by
  simp [inWindow, windowZone_of_page h]

theorem pageFor_of_reaches (h : reaches d (a / 0x1000) m = true) : pageFor d a m = pageId (a / 0x1000) := by simp [pageFor, h]

theorem ownerOk_of_mayWrite {pg off : Nat} (h : mayWrite (page d pg).owner.toNat m = true) : ownerOk d pg off m = true := by
  simp [ownerOk, h]

/-! ## One cycle of writes -/

/-- A write of `n` bytes at `a` that no check refuses (R52). -/
structure Passes (d : Dev) (p : PageId) (a n : Nat) (m : Master) : Prop where
  clock : treeRuns d 2 = true
  page : pageFor d a m = some p
  window : inWindow d a m = false
  checks : writeFails d p a n m = none

theorem regWrite_refused {e : Nat} (hc : treeRuns d 2 = true) (hp : pageFor d a m = some p) (hw : inWindow d a m = false)
    (he : writeFails d p a n m = some e) : regWrite mem d a n x m = (mem, pageErr d (a / 0x1000) e (a % 0x1000) true m) := by
  simp [regWrite, wakePage_runs hc, hp, hw, he]

theorem regWrite_passes (h : Passes d p a n m) : regWrite mem d a n x m = doWrite mem d p a n x m := by
  simp [regWrite, wakePage_runs h.clock, h.page, h.window, h.checks]

theorem refusedWrite_refused {e : Nat} (hp : pageFor d a m = some p) (he : writeFails d p a n m = some e) :
    refusedWrite d ⟨m, a, n, x⟩ = true := by simp [refusedWrite, hp, he]

theorem refusedWrite_passes (h : Passes d p a n m) : refusedWrite d ⟨m, a, n, x⟩ = false := by
  simp [refusedWrite, h.page, h.window, h.checks]

/-- The only write of a cycle, refused: its PAGE_ERR bit and nothing else. -/
theorem cycleWrite_refused {e : Nat} (hc : treeRuns d 2 = true) (hp : pageFor d a m = some p) (hw : inWindow d a m = false)
    (he : writeFails d p a n m = some e) : cycleWrite mem d [⟨m, a, n, x⟩] = (mem, pageErr d (a / 0x1000) e (a % 0x1000) true m) := by
  simp [cycleWrite, wakePage_runs hc, refusedWrite_refused hp he, regWrite_refused hc hp hw he, firstMaster, leastBy]

/-- The only write of a cycle, passed. -/
theorem cycleWrite_passes (h : Passes d p a n m) : cycleWrite mem d [⟨m, a, n, x⟩] = doWrite mem d p a n x m := by
  simp [cycleWrite, wakePage_runs h.clock, refusedWrite_passes h, regWrite_passes h, firstMaster, leastBy]

/-- Of two writes that pass host A's takes effect, and host B's is recorded with CONFLICT (R53). -/
theorem cycleWrite_hosts {a' n' x' : Nat} {p' : PageId} (hb : Passes d p a n .hostB) (ha : Passes d p' a' n' .hostA) :
    cycleWrite mem d [⟨.hostB, a, n, x⟩, ⟨.hostA, a', n', x'⟩] =
      ((doWrite mem d p' a' n' x' .hostA).1, conflict (doWrite mem d p' a' n' x' .hostA).2 a .hostA [.hostB]) := by
  simp [cycleWrite, wakePage_runs hb.clock, refusedWrite_passes hb, refusedWrite_passes ha, regWrite_passes ha, firstMaster, leastBy, masterKey]

/-- Writes of at most 4 bytes are one cycle (R50). -/
theorem exec_registerWrite {s : State} {addr : BitVec 26} {ws : List Write} (h : ∀ w ∈ ws, w.nbytes ≤ 4) :
    Machine.exec (.registerWrite addr ws) s =
      (let r := cycleWrite s.mem s.dev (ws.map (fun w => ⟨w.m, addr.toNat + w.off, w.nbytes, w.v.toNat % 2 ^ 32⟩))
       .next { s with mem := r.1, dev := settle r.2 }) := by
  have hmap : ws.map (fun w => (⟨w.m, addr.toNat + w.off, min 4 w.nbytes, w.v.toNat % 2 ^ 32⟩ : CycW)) =
      ws.map (fun w => ⟨w.m, addr.toNat + w.off, w.nbytes, w.v.toNat % 2 ^ 32⟩) :=
    List.map_congr_left fun w hw => by rw [Nat.min_eq_right (h w hw)]
  have hhigh : ws.filter (fun w => decide (4 < w.nbytes)) = [] :=
    List.filter_eq_nil_iff.mpr fun w hw => by simpa using h w hw
  show execRegisterWrite addr ws s = _
  simp only [execRegisterWrite, State.onMemF, State.onMem, hmap, hhigh, List.isEmpty_nil, if_true]

/-! ## The refusals (R52) -/

theorem pageErr_eq_withErr (d : Dev) (pg b o : Nat) (w : Bool) (m : Master) : pageErr d pg b o w m = modPage d pg (withErr o b w m) := by
  simp only [pageErr, Nat.one_shiftLeft]
  rfl

/-- A change of one page's header leaves every other page and all else. -/
theorem pageTo_modPage (s : State) (k : Nat) (g : PageSt → PageSt) : PageTo s { s with dev := modPage s.dev k g } k g := by
  refine ⟨page_modPage_same .., fun q hq => by simp [page_modPage, hq], _, _, _, rfl⟩

/-- A single write that fails a check. -/
theorem exec_write_refused {s : State} {addr : BitVec 26} {v : W64} {e : Nat} (hc : treeRuns s.dev 2 = true) (hcalm : Calm s.dev) (hn : n ≤ 4)
    (hp : pageFor s.dev addr.toNat m = some p) (hw : inWindow s.dev addr.toNat m = false)
    (he : writeFails s.dev p addr.toNat n m = some e) :
    ∃ u, Machine.exec (.registerWrite addr [⟨m, n, v, 0⟩]) s = .next u ∧
      PageTo s u (addr.toNat / 0x1000) (withErr (addr.toNat % 0x1000) e true m) := by
  refine ⟨_, ?_, pageTo_modPage s _ _⟩
  rw [exec_registerWrite (by simpa using hn)]
  have hset : Calm (modPage s.dev (addr.toNat / 0x1000) (withErr (addr.toNat % 0x1000) e true m)) := hcalm
  simp only [List.map_cons, List.map_nil, Nat.add_zero, cycleWrite_refused hc hp hw he, pageErr_eq_withErr, settle_of_calm hset]

theorem writeFails_notReady (h : (page d (a / 0x1000)).ready = false) : writeFails d p a n m = some 7 := by simp [writeFails, h]
theorem writeFails_owner (h : (page d (a / 0x1000)).ready = true) (ho : ownerOk d (a / 0x1000) (a % 0x1000 / 4 * 4) m = false) :
    writeFails d p a n m = some 5 := by simp [writeFails, h, ho]
theorem writeFails_width (h : (page d (a / 0x1000)).ready = true) (ho : ownerOk d (a / 0x1000) (a % 0x1000 / 4 * 4) m = true)
    (hw : 4 < a % 4 + n) : writeFails d p a n m = some 1 := by simp [writeFails, h, ho, hw]
theorem writeFails_hole (h : (page d (a / 0x1000)).ready = true) (ho : ownerOk d (a / 0x1000) (a % 0x1000 / 4 * 4) m = true)
    (hw : a % 4 + n ≤ 4) (hh : isHole d (a / 0x1000) p (a % 0x1000 / 4 * 4) = true) : writeFails d p a n m = some 2 := by
  simp [writeFails, h, ho, Nat.not_lt.mpr hw, hh]
theorem writeFails_narrow (h : (page d (a / 0x1000)).ready = true) (ho : ownerOk d (a / 0x1000) (a % 0x1000 / 4 * 4) m = true)
    (hw : a % 4 + n ≤ 4) (hh : isHole d (a / 0x1000) p (a % 0x1000 / 4 * 4) = false) (hn : n < 4)
    (hs : sideReg p (a % 0x1000 / 4 * 4) = true) : writeFails d p a n m = some 0 := by
  simp [writeFails, h, ho, Nat.not_lt.mpr hw, hh, hn, hs]
theorem writeFails_none (h : (page d (a / 0x1000)).ready = true) (ho : ownerOk d (a / 0x1000) (a % 0x1000 / 4 * 4) m = true)
    (hw : a % 4 + n ≤ 4) (hh : isHole d (a / 0x1000) p (a % 0x1000 / 4 * 4) = false)
    (hs : n < 4 → sideReg p (a % 0x1000 / 4 * 4) = false) : writeFails d p a n m = none := by
  simpa [writeFails, h, ho, Nat.not_lt.mpr hw, hh] using hs

/-- A page that admits the master takes a write that is no hole, no wider than its register, and whole where a part has an effect. -/
theorem Passes.of_admits (h : Admits d (a / 0x1000) m) (hp : pageId (a / 0x1000) = some p) (hw : a % 4 + n ≤ 4)
    (hh : isHole d (a / 0x1000) p (a % 0x1000 / 4 * 4) = false) (hs : n < 4 → sideReg p (a % 0x1000 / 4 * 4) = false) : Passes d p a n m where
  clock := h.clock
  page := by rw [pageFor_of_reaches h.reach, hp]
  window := inWindow_of_page h.exists_
  checks := writeFails_none h.ready (ownerOk_of_mayWrite h.owner) hw hh hs

/-! ## What a write that passes reaches -/

/-- The bytes that a write of `n` bytes from byte `o` of a register enables, and its value at their place. -/
def laneMask (n o : Nat) : W32 := BitVec.ofNat 32 ((2 ^ (8 * n) - 1) * 2 ^ (8 * o))
def laneData (x o : Nat) : W32 := BitVec.ofNat 32 (x * 2 ^ (8 * o))

@[simp] theorem laneMask_whole : laneMask 4 0 = BitVec.allOnes 32 := by decide
theorem laneData_whole (v : W64) : laneData (v.toNat % 2 ^ 32) 0 = v.setWidth 32 := by
  apply BitVec.eq_of_toNat_eq
  simp [laneData]

theorem doWrite_header (ho : a / 4 * 4 % 0x1000 < 0x40) :
    doWrite mem d p a n x m =
      (mem, writeHeader d (a / 0x1000) (a / 4 * 4 % 0x1000) p (laneData x (a % 4)) (laneMask n (a % 4)) m) := by
  simp only [doWrite, ho, if_true]
  rfl

/-- Outside the protection windows a write to a block register leaves memory. -/
theorem doWrite_block {r : RegD} {i : Nat} (ho : 0x40 ≤ a / 4 * 4 % 0x1000) (hr : regAt p (a / 4 * 4 % 0x1000) = some (r, i))
    (hz : p.ty ≠ 0x2C) (hh : p.ty ≠ 0x0F) :
    doWrite mem d p a n x m = (mem, writeBlock d p (a / 4 * 4) a r i (laneData x (a % 4)) (laneMask n (a % 4)) m) := by
  simp only [doWrite, Nat.not_lt.mpr ho, if_false, hr, beq_eq_false_iff_ne.mpr hz, beq_eq_false_iff_ne.mpr hh, Bool.false_and, Bool.false_eq_true]
  rfl

/-! ## Fields by their access code (R9) -/

/-- The bits of a field. -/
def fieldMask (f : FieldD) : W32 := BitVec.ofNat 32 (maskF ⟨f.hi, f.lo⟩)

theorem getF_and_maskF (v : W32) (f : Fld) : getF (v &&& BitVec.ofNat 32 (maskF f)) f = getF v f := by
  have h32 : v.toNat &&& maskF f % 2 ^ 32 = v.toNat &&& maskF f := by
    apply Nat.eq_of_testBit_eq
    intro i
    rw [Nat.testBit_and, Nat.testBit_and, Nat.testBit_mod_two_pow]
    by_cases hi : i < 32
    · simp [hi]
    · simp [Nat.testBit_lt_two_pow (lt_of_lt_of_le v.isLt (Nat.pow_le_pow_right (by omega) (Nat.not_lt.mp hi)))]
  unfold getF
  rw [BitVec.toNat_and, BitVec.toNat_ofNat, h32]
  apply Nat.eq_of_testBit_eq
  intro i
  simp only [Nat.testBit_mod_two_pow, Nat.testBit_shiftRight, Nat.testBit_and, maskF, Nat.testBit_shiftLeft, Nat.testBit_two_pow_sub_one]
  by_cases hi : i < f.hi + 1 - f.lo <;> simp [hi]

theorem merged_allOnes (x v : W32) : merged x (BitVec.allOnes 32) v = v := by
  rw [merged, BitVec.not_allOnes, BitVec.and_zero, BitVec.and_allOnes, BitVec.zero_or]
/-- Only the bits written count. -/
theorem merged_congr {x w v v' : W32} (h : v &&& w = v' &&& w) : merged x w v = merged x w v' := by simp only [merged, h]

/-- What waits takes only the bits of its mask. -/
theorem stageBits_and (t : Tab Staged) (a : Nat) (w v : W32) : stageBits t a w (v &&& w) = stageBits t a w v := by
  simp only [stageBits, BitVec.and_assoc, BitVec.and_self]

section Fields
variable {acc : Nat} {data en : W32} {st : FieldAcc} {f : FieldD}

/-- A write of the whole register gives a field a value that its table and the state allow (R52). -/
def GoodWord (d : Dev) (p : PageId) (a : Nat) (data : W32) (f : FieldD) : Prop :=
  allowed f (getF data ⟨f.hi, f.lo⟩) = true ∧ stateAllows d p (a % 0x1000) f (getF data ⟨f.hi, f.lo⟩) = true

theorem writeField_rw (hf : f.acc = .rw) (hen : fieldMask f &&& en ≠ 0) (hall : f.allow = []) (hst : ∀ v, stateAllows st.d p (a % 0x1000) f v = true) :
    writeField p a acc data en m st f =
      { st with mask := st.mask ||| fieldMask f, val := st.val ||| merged (rd st.d a) en data &&& fieldMask f } := by
  unfold writeField
  simp only [hf, allowed, hall, hst, List.isEmpty_nil, Bool.true_or, Bool.and_self, if_true]
  exact if_neg hen

theorem writeField_w1c (hf : f.acc = .w1c) (hen : fieldMask f &&& en ≠ 0) :
    writeField p a acc data en m st f = { st with d := wr st.d a (rd st.d a &&& ~~~(data &&& en &&& fieldMask f)) } := by
  unfold writeField
  simp only [hf]
  exact if_neg hen

/-- A held field outside a hold: NOT_HELD. -/
theorem writeField_rwh_open (hf : f.acc = .rwh) (hen : fieldMask f &&& en ≠ 0) (hh : (page st.d (a / 0x1000)).held = false) :
    writeField p a acc data en m st f = { st with d := pageErr st.d (a / 0x1000) 4 (acc % 0x1000) true m } := by
  unfold writeField
  simp only [hf, hh, Bool.not_false, if_true]
  exact if_neg hen

/-- A held field in a hold waits for the release (R41). -/
theorem writeField_rwh_held (hf : f.acc = .rwh) (hen : fieldMask f ≠ 0) (hh : (page st.d (a / 0x1000)).held = true) (hg : GoodWord st.d p a data f) :
    writeField p a acc data (BitVec.allOnes 32) m st f = { st with d := { st.d with heldW := stageBits st.d.heldW a (fieldMask f) data } } := by
  obtain ⟨h1, h2⟩ := hg
  unfold writeField
  rw [← stageBits_and]
  simp only [hf, hh, BitVec.not_allOnes, BitVec.and_zero, BitVec.zero_or, BitVec.and_allOnes, getF_and_maskF, h1, h2, Bool.not_true,
    Bool.false_eq_true, Bool.and_self, if_true, if_false]
  exact if_neg hen

/-- A staged field waits for the commit (R39). -/
theorem writeField_rwc (hf : f.acc = .rwc) (hen : fieldMask f ≠ 0) (hg : GoodWord st.d p a data f) :
    writeField p a acc data (BitVec.allOnes 32) m st f = { st with d := { st.d with staged := stageBits st.d.staged a (fieldMask f) data } } := by
  obtain ⟨h1, h2⟩ := hg
  unfold writeField
  rw [← stageBits_and]
  simp only [hf, BitVec.not_allOnes, BitVec.and_zero, BitVec.zero_or, BitVec.and_allOnes, getF_and_maskF, h1, h2, Bool.and_self, if_true]
  exact if_neg hen

end Fields

/-- A register that is no command, with no rule over its fields and no effect of its own: what the fields leave takes effect. -/
theorem writeBlock_plain {r : RegD} {i acc : Nat} {data en : W32} {st : FieldAcc}
    (hcmd : commandWrite d p a r.off i (merged (rd d a) en data) m = none)
    (hst : r.fields.foldl (writeField p a acc data en m) { d := d, mask := 0, val := 0 } = st)
    (hrules : writeRules st.d p a = []) (heff : ∀ e v o, writeEffect e p a r.off i v o = e) :
    writeBlock d p a acc r i data en m = applyChgs st.d (if st.mask = 0 then [] else [⟨a, st.mask, st.val⟩]) := by
  unfold writeBlock
  rw [show commandWrite d p a r.off i ((rd d a &&& ~~~en) ||| (data &&& en)) m = none from hcmd]
  simp only [hst, hrules, heff]
  rfl

variable {s : State} {addr : BitVec 26} {v : W64}

/-! ## Whole registers written by one master -/

theorem exec_write_passes {o : Nat} (hn : n ≤ 4) (h : Passes s.dev p (addr.toNat + o) n m) :
    Machine.exec (.registerWrite addr [⟨m, n, v, o⟩]) s =
      (let r := doWrite s.mem s.dev p (addr.toNat + o) n (v.toNat % 2 ^ 32) m
       .next { s with mem := r.1, dev := settle r.2 }) := by
  rw [exec_registerWrite (by simpa using hn)]
  simp only [List.map_cons, List.map_nil, cycleWrite_passes h]

theorem isHole_of_regAt {pg off : Nat} {r : RegD × Nat} (ho : 0x40 ≤ off) (hr : regAt p off = some r) : isHole d pg p off = false := by
  simp [isHole, Nat.not_lt.mpr ho, hr]

/-- A block register takes a whole word. -/
theorem exec_write_reg {e : Dev} {r : RegD} {i : Nat} (haddr : addr.toNat = a) (h : Admits s.dev (a / 0x1000) m)
    (hp : pageId (a / 0x1000) = some p) (h4 : a % 4 = 0) (ho : 0x40 ≤ a % 0x1000) (hr : regAt p (a % 0x1000) = some (r, i))
    (hz : p.ty ≠ 0x2C) (hh : p.ty ≠ 0x0F)
    (hw : writeBlock s.dev p a a r i (v.setWidth 32) (BitVec.allOnes 32) m = e) (hc : Calm e) :
    Machine.exec (.registerWrite addr [⟨m, 4, v, 0⟩]) s = .next { s with dev := e } := by
  subst haddr
  have hoff : addr.toNat % 0x1000 / 4 * 4 = addr.toNat % 0x1000 := by omega
  have hreg : addr.toNat / 4 * 4 = addr.toNat := by omega
  have hpass : Passes s.dev p (addr.toNat + 0) 4 m :=
    .of_admits h hp (by omega) (by rw [Nat.add_zero, hoff]; exact isHole_of_regAt ho hr) (by omega)
  rw [exec_write_passes (le_refl 4) hpass]
  simp only [Nat.add_zero, doWrite_block (by rwa [hreg]) (by rwa [hreg]) hz hh, h4, hreg, laneMask_whole, laneData_whole, hw, settle_of_calm hc]

/-- A register of the page header takes a whole word. -/
theorem exec_write_header {e : Dev} {off : Nat} (hoff : addr.toNat % 0x1000 = off) (h : Admits s.dev (addr.toNat / 0x1000) m)
    (hp : pageId (addr.toNat / 0x1000) = some p) (h4 : off % 4 = 0) (ho : off < 0x40)
    (hv : (headerVal s.dev (addr.toNat / 0x1000) p off).isSome = true)
    (hw : writeHeader s.dev (addr.toNat / 0x1000) off p (v.setWidth 32) (BitVec.allOnes 32) m = e) (hc : Calm e) :
    Machine.exec (.registerWrite addr [⟨m, 4, v, 0⟩]) s = .next { s with dev := e } := by
  subst hoff
  have hoff : addr.toNat % 0x1000 / 4 * 4 = addr.toNat % 0x1000 := by omega
  have hreg : addr.toNat / 4 * 4 = addr.toNat := by omega
  have hlane : addr.toNat % 4 = 0 := by omega
  have hhole : isHole s.dev (addr.toNat / 0x1000) p (addr.toNat % 0x1000 / 4 * 4) = false := by
    rw [hoff, isHole, if_pos ho]
    simpa [Option.isNone_iff_eq_none, Option.isSome_iff_ne_none] using hv
  rw [exec_write_passes (le_refl 4) (.of_admits h hp (by omega) hhole (by omega))]
  simp only [Nat.add_zero, doWrite_header (by rwa [hreg]), hlane, hreg, laneMask_whole, laneData_whole, hw, settle_of_calm hc]

/-! ## DEV_GROUP_EPOCH_LO: a plain register (RW) -/

/-- Page 0 of the DEV block. -/
def devPid : PageId := ⟨0x01, 0, 0, 0⟩
def epochLoReg : RegD := ⟨0x58, 1, 4, false, [⟨31, 0, .rw, false, 0, []⟩]⟩

theorem pageId_epochLo : pageId (Rg.DEV_GROUP_EPOCH_LO / 0x1000) = some devPid := by decide
theorem regAt_epochLo : regAt devPid 0x58 = some (epochLoReg, 0) := by decide

/-- One change takes effect: its register and the dirty set. -/
theorem applyChg_shape (d : Dev) (c : Chg) :
    ∃ r k, applyChgs d [c] = { d with regs := r, caddy := k } ∧ ∀ b, rd (applyChgs d [c]) b = if b = c.addr then merged (rd d b) c.mask c.val else rd d b := by
  obtain ⟨k, hk⟩ := markDirty_shape (wr d c.addr (merged (rd d c.addr) c.mask c.val)) c.addr
    ((rd d c.addr ^^^ merged (rd d c.addr) c.mask c.val).toNat)
  refine ⟨(wr d c.addr (merged (rd d c.addr) c.mask c.val)).regs, k, hk, fun b => ?_⟩
  rw [show applyChgs d [c] = markDirty (wr d c.addr (merged (rd d c.addr) c.mask c.val)) c.addr _ from rfl, rd_markDirty, rd_wr]
  split_ifs with h
  · rw [h]
  · rfl

theorem writeBlock_epochLo {acc : Nat} {data en : W32} (hen : en ≠ 0) :
    writeBlock d devPid Rg.DEV_GROUP_EPOCH_LO acc epochLoReg 0 data en m =
      applyChgs d [⟨Rg.DEV_GROUP_EPOCH_LO, BitVec.allOnes 32, merged (rd d Rg.DEV_GROUP_EPOCH_LO) en data⟩] := by
  have hmask : fieldMask ⟨31, 0, .rw, false, 0, []⟩ = BitVec.allOnes 32 := by decide
  have hfield : epochLoReg.fields.foldl (writeField devPid Rg.DEV_GROUP_EPOCH_LO acc data en m) { d := d, mask := 0, val := 0 } =
      { d := d, mask := BitVec.allOnes 32, val := merged (rd d Rg.DEV_GROUP_EPOCH_LO) en data } := by
    rw [epochLoReg, List.foldl_cons, List.foldl_nil, writeField_rw rfl (by rwa [hmask, BitVec.allOnes_and]) rfl (fun _ => rfl), hmask,
      BitVec.and_allOnes]
    show FieldAcc.mk d (0#32 ||| _) (0#32 ||| _) = _
    rw [BitVec.zero_or, BitVec.zero_or]
  rw [writeBlock_plain rfl hfield rfl (fun _ _ _ => rfl), if_neg (show BitVec.allOnes 32 ≠ 0 by decide)]

/-- A write of some bytes of DEV_GROUP_EPOCH_LO changes those bytes. -/
theorem regTo_epochLo {acc : Nat} {data en : W32} (hen : en ≠ 0) (hcalm : Calm s.dev) :
    ∃ e, writeBlock s.dev devPid Rg.DEV_GROUP_EPOCH_LO acc epochLoReg 0 data en m = e ∧ RegTo s e Rg.DEV_GROUP_EPOCH_LO en data ∧
      Calm e ∧ ∀ q, page e q = page s.dev q := by
  rw [writeBlock_epochLo hen]
  obtain ⟨r, k, he, hrd⟩ := applyChg_shape s.dev ⟨Rg.DEV_GROUP_EPOCH_LO, BitVec.allOnes 32, merged (rd s.dev Rg.DEV_GROUP_EPOCH_LO) en data⟩
  have hc : Calm (applyChgs s.dev [⟨Rg.DEV_GROUP_EPOCH_LO, BitVec.allOnes 32, merged (rd s.dev Rg.DEV_GROUP_EPOCH_LO) en data⟩]) := by rw [he]; exact hcalm
  refine ⟨_, rfl, ⟨?_, fun b hb => ?_⟩, hc, fun q => by rw [he]; rfl⟩
  · rw [hrd, if_pos rfl, merged_allOnes]
  · rw [hrd, if_neg hb]

/-! ## DEV_ERR: bits that a 1 clears (W1C) -/

def devErrReg : RegD :=
  ⟨0x40, 1, 4, false, [⟨0, 0, .w1c, false, 0, []⟩, ⟨1, 1, .w1c, false, 0, []⟩, ⟨2, 2, .w1c, false, 0, []⟩, ⟨3, 3, .w1c, false, 0, []⟩,
    ⟨4, 4, .w1c, false, 0, []⟩]⟩

theorem pageId_devErr : pageId (Rg.DEV_ERR / 0x1000) = some devPid := by decide
theorem regAt_devErr : regAt devPid 0x40 = some (devErrReg, 0) := by decide

/-- The bits of a list of fields. -/
def fieldsMask (fs : List FieldD) : W32 := fs.foldr (fun f w => fieldMask f ||| w) 0

/-- A write to W1C fields changes registers alone, and of them the bits written 1. -/
theorem foldl_w1c {acc : Nat} {data : W32} (fs : List FieldD) (h : ∀ f ∈ fs, f.acc = .w1c ∧ fieldMask f ≠ 0) (st : FieldAcc) :
    ∃ r, fs.foldl (writeField p a acc data (BitVec.allOnes 32) m) st = { st with d := { st.d with regs := r } } ∧
      ∀ b, rd { st.d with regs := r } b = if b = a then rd st.d b &&& ~~~(data &&& fieldsMask fs) else rd st.d b := by
  induction fs generalizing st with
  | nil =>
    refine ⟨st.d.regs, rfl, fun b => ?_⟩
    rw [fieldsMask, List.foldr_nil, show ~~~(data &&& 0) = BitVec.allOnes 32 by simp, BitVec.and_allOnes, ite_self]
  | cons f fs ih =>
    obtain ⟨⟨hacc, hmask⟩, hrest⟩ := List.forall_mem_cons.mp h
    rw [List.foldl_cons, writeField_w1c hacc (by rwa [BitVec.and_allOnes]), BitVec.and_allOnes]
    obtain ⟨r, hr, hrd⟩ := ih hrest { st with d := wr st.d a (rd st.d a &&& ~~~(data &&& fieldMask f)) }
    refine ⟨r, hr, fun b => (hrd b).trans ?_⟩
    simp only [rd_wr]
    split_ifs with hb
    · subst hb
      simp only [fieldsMask, List.foldr_cons, BitVec.and_or_distrib_left, BitVec.not_or, BitVec.and_assoc]
    · rfl

theorem writeBlock_devErr (d : Dev) (acc : Nat) (data : W32) (m : Master) :
    ∃ r, writeBlock d devPid Rg.DEV_ERR acc devErrReg 0 data (BitVec.allOnes 32) m = { d with regs := r } ∧
      ∀ b, rd { d with regs := r } b = if b = Rg.DEV_ERR then rd d b &&& ~~~(data &&& 0x1F) else rd d b := by
  obtain ⟨r, hr, hrd⟩ := foldl_w1c (p := devPid) (a := Rg.DEV_ERR) (acc := acc) (data := data) (m := m) devErrReg.fields (by decide) ⟨d, 0, 0⟩
  exact ⟨r, writeBlock_plain rfl hr rfl (fun _ _ _ => rfl), hrd⟩

/-! ## URN_SPILL_REGION: held fields (RWH) -/

def urnPid (z : Nat) : PageId := ⟨0x28, 0, 64 * z, z⟩
def spillBase : FieldD := ⟨6, 0, .rwh, true, 0, [(0, 95)]⟩
def spillSize : FieldD := ⟨11, 8, .rwh, true, 8, [(0, 8)]⟩
def spillReg : RegD := ⟨0x64, 1, 4, false, [spillBase, spillSize]⟩

theorem spillRegion_place : ∀ z, z < 4 → pageId (Rg.URN_SPILL_REGION z / 0x1000) = some (urnPid z) ∧ Rg.URN_SPILL_REGION z % 0x1000 = 0x64 := by decide
theorem regAt_spillRegion (z : Nat) : regAt (urnPid z) 0x64 = some (spillReg, 0) := rfl

theorem fieldMask_spillBase : fieldMask spillBase = 0x7F := by decide
theorem fieldMask_spillSize : fieldMask spillSize = 0xF00 := by decide

/-- Two writes to waiting bits are one to the bits of both. -/
theorem merged_merged (x w w' v : W32) : merged (merged x w v) w' v = merged x (w ||| w') v := by
  apply BitVec.eq_of_getLsbD_eq
  intro i hi
  simp only [merged, BitVec.getLsbD_or, BitVec.getLsbD_and, BitVec.getLsbD_not, hi, decide_true, Bool.true_and]
  cases x.getLsbD i <;> cases w.getLsbD i <;> cases w'.getLsbD i <;> cases v.getLsbD i <;> rfl

/-- What waits for a register after two of its fields have been written. -/
theorem tget_stageBits_twice (t : Tab Staged) (a : Nat) (w w' v : W32) :
    tget stagedDflt (stageBits (stageBits t a w v) a w' v) a =
      ⟨(tget stagedDflt t a).mask ||| (w ||| w'), merged (tget stagedDflt t a).val (w ||| w') v⟩ := by
  simp only [stageBits, tget_tmod_same, BitVec.or_assoc]
  rw [← merged_merged]
  rfl

/-- Outside a hold both fields set NOT_HELD. -/
theorem writeBlock_spill_open {z acc : Nat} {data : W32} (hh : (page d (Rg.URN_SPILL_REGION z / 0x1000)).held = false) :
    writeBlock d (urnPid z) (Rg.URN_SPILL_REGION z) acc spillReg 0 data (BitVec.allOnes 32) m =
      pageErr (pageErr d (Rg.URN_SPILL_REGION z / 0x1000) 4 (acc % 0x1000) true m) (Rg.URN_SPILL_REGION z / 0x1000) 4 (acc % 0x1000) true m := by
  refine writeBlock_plain (st := ⟨pageErr (pageErr d _ 4 _ true m) _ 4 _ true m, 0, 0⟩) rfl ?_ rfl (fun _ _ _ => rfl)
  rw [spillReg, List.foldl_cons, writeField_rwh_open rfl (by decide) hh, List.foldl_cons, List.foldl_nil,
    writeField_rwh_open rfl (by decide) (by simpa [pageErr] using hh)]

/-- In a hold both fields wait for the release. -/
theorem writeBlock_spill_held {z acc : Nat} {data : W32} (hh : (page d (Rg.URN_SPILL_REGION z / 0x1000)).held = true) (hb : getF data ⟨6, 0⟩ ≤ 95) (hs : getF data ⟨11, 8⟩ ≤ 8) :
    writeBlock d (urnPid z) (Rg.URN_SPILL_REGION z) acc spillReg 0 data (BitVec.allOnes 32) m =
      { d with heldW := stageBits (stageBits d.heldW (Rg.URN_SPILL_REGION z) 0x7F data) (Rg.URN_SPILL_REGION z) 0xF00 data } := by
  have hbase (e : Dev) : GoodWord e (urnPid z) (Rg.URN_SPILL_REGION z) data spillBase :=
    ⟨by simp [allowed, spillBase, hb], rfl⟩
  have hsize (e : Dev) : GoodWord e (urnPid z) (Rg.URN_SPILL_REGION z) data spillSize :=
    ⟨by simp [allowed, spillSize, hs], rfl⟩
  refine writeBlock_plain rfl (st := ⟨_, 0, 0⟩) ?_ rfl (fun _ _ _ => rfl)
  rw [spillReg, List.foldl_cons, writeField_rwh_held rfl (by decide) hh (hbase _), List.foldl_cons, List.foldl_nil,
    writeField_rwh_held rfl (by decide) hh (hsize _), fieldMask_spillBase, fieldMask_spillSize]

/-! ## ADM_STORE_PFC: staged fields (RWC) -/

def admPid (z : Nat) : PageId := ⟨0x24, 0, 64 * z, z⟩
def pfcXoff : FieldD := ⟨14, 0, .rwc, true, 12288, [(0, 30464)]⟩
def pfcXon : FieldD := ⟨30, 16, .rwc, true, 11264, []⟩
def storePfcReg : RegD := ⟨0xcc, 1, 4, false, [pfcXoff, pfcXon]⟩

theorem storePfc_place : ∀ z, z < 4 → pageId (Rg.ADM_STORE_PFC z / 0x1000) = some (admPid z) ∧ Rg.ADM_STORE_PFC z % 0x1000 = 0xcc := by decide
theorem regAt_storePfc (z : Nat) : regAt (admPid z) 0xcc = some (storePfcReg, 0) := rfl

theorem fieldMask_pfcXoff : fieldMask pfcXoff = 0x7FFF := by decide
theorem fieldMask_pfcXon : fieldMask pfcXon = 0x7FFF0000 := by decide

/-- A field within the bits written has the value written. -/
theorem getF_merged {x w v : W32} {f : Fld} (h : w &&& BitVec.ofNat 32 (maskF f) = BitVec.ofNat 32 (maskF f)) : getF (merged x w v) f = getF v f := by
  have hbits : merged x w v &&& BitVec.ofNat 32 (maskF f) = v &&& BitVec.ofNat 32 (maskF f) := by
    generalize BitVec.ofNat 32 (maskF f) = k at h ⊢
    apply BitVec.eq_of_getLsbD_eq
    intro i hi
    have hw := congrArg (fun y : W32 => y.getLsbD i) h
    simp only [BitVec.getLsbD_and] at hw
    simp only [merged, BitVec.getLsbD_or, BitVec.getLsbD_and, BitVec.getLsbD_not, hi, decide_true, Bool.true_and]
    revert hw
    cases x.getLsbD i <;> cases w.getLsbD i <;> cases k.getLsbD i <;> cases v.getLsbD i <;> decide
  rw [← getF_and_maskF, hbits, getF_and_maskF]

/-- Both thresholds wait for the commit; their rule is judged there. -/
theorem writeBlock_storePfc {z acc : Nat} {data : W32} (hx : getF data ⟨14, 0⟩ ≤ 30464) :
    writeBlock d (admPid z) (Rg.ADM_STORE_PFC z) acc storePfcReg 0 data (BitVec.allOnes 32) m =
      { d with staged := stageBits (stageBits d.staged (Rg.ADM_STORE_PFC z) 0x7FFF data) (Rg.ADM_STORE_PFC z) 0x7FFF0000 data } := by
  have hxoff (e : Dev) : GoodWord e (admPid z) (Rg.ADM_STORE_PFC z) data pfcXoff :=
    ⟨by simp [allowed, pfcXoff, hx], rfl⟩
  have hxon (e : Dev) : GoodWord e (admPid z) (Rg.ADM_STORE_PFC z) data pfcXon := ⟨rfl, rfl⟩
  refine writeBlock_plain rfl (st := ⟨_, 0, 0⟩) ?_ rfl (fun _ _ _ => rfl)
  rw [storePfcReg, List.foldl_cons, writeField_rwc rfl (by decide) (hxoff _), List.foldl_cons, List.foldl_nil,
    writeField_rwc rfl (by decide) (hxon _), fieldMask_pfcXoff, fieldMask_pfcXon]

/-! ## INT_MASK and PAGE_CTRL -/

theorem writeHeader_intMask {pg b c : Nat} {data : W32} (he : pageEvents p = some (b, c)) :
    ∃ k, writeHeader d pg 0x24 p data (BitVec.allOnes 32) m =
      { modPage d pg (fun s => { s with intMask := data &&& BitVec.ofNat 32 (2 ^ c - 1) }) with caddy := k } := by
  have hm (o : W32) : o &&& ~~~BitVec.allOnes 32 ||| data &&& BitVec.allOnes 32 = data := merged_allOnes o data
  simp only [writeHeader, he, hm]
  exact markDirty_shape _ _ _

/-- COMMIT with DISCARD is reserved; under a group hold the page's own hold ends without a release (R37, R42). -/
theorem writeHeader_commitDiscard {pg : Nat} {data : W32} (hg : (page d pg).group = true) (hv : data.toNat % 8 = 6) :
    writeHeader d pg 4 p data (BitVec.allOnes 32) m = modPage (modPage d pg (withErr 4 3 true m)) pg (fun s => { s with hold := false }) := by
  have hbit (i : Nat) (hi : i < 3) : data.toNat.testBit i = (6 : Nat).testBit i := by
    rw [← hv, show (8 : Nat) = 2 ^ 3 from rfl, Nat.testBit_mod_two_pow]; simp [hi]
  have hpg : Rg.pageOf (0x1000 * pg + 4) = pg ∧ (0x1000 * pg + 4) % 0x1000 = 4 := by unfold Rg.pageOf; omega
  have hgroup : (page (modPage d pg (withErr 4 3 true m)) pg).group = true := by simpa [withErr] using hg
  simp only [writeHeader, BitVec.and_allOnes, hbit 0, hbit 1, hbit 2, Nat.reduceLT, pageCtrl, setHold, rsvd, hpg.1, hpg.2,
    pageErr_eq_withErr, hgroup]
  rfl

/-! ## Two hosts on one register in one cycle (R53) -/

/-- The write of host B that host A's displaced, in the header of its page. -/
theorem page_conflict (d : Dev) (a : Nat) (m : Master) :
    page (conflict d a m [.hostB]) (a / 0x1000) =
      { withErr (a % 0x1000) 6 true m (page d (a / 0x1000)) with info := errInfo (a % 0x1000) 6 true m ||| 0x200000 } := by
  have hlosers : BitVec.ofNat 32 (ofBits ([Master.hostB].map (fun l => 20 + masterCode l))) = (0x200000 : W32) := by decide
  simp only [conflict, pageErr_eq_withErr, page_modPage_same, hlosers]
  rfl

theorem passes_epochLo {o : Nat} (h : Admits d (Rg.pageOf Rg.DEV_GROUP_EPOCH_LO) m) (ho : o < 4) (hn : o + n ≤ 4) :
    Passes d devPid (Rg.DEV_GROUP_EPOCH_LO + o) n m := by
  have hpg : (Rg.DEV_GROUP_EPOCH_LO + o) / 0x1000 = Rg.DEV_GROUP_EPOCH_LO / 0x1000 := by unfold Rg.DEV_GROUP_EPOCH_LO Rg.baseDEV; omega
  have hreg : (Rg.DEV_GROUP_EPOCH_LO + o) % 0x1000 / 4 * 4 = 0x58 := by unfold Rg.DEV_GROUP_EPOCH_LO Rg.baseDEV; omega
  have hlane : (Rg.DEV_GROUP_EPOCH_LO + o) % 4 = o := by unfold Rg.DEV_GROUP_EPOCH_LO Rg.baseDEV; omega
  refine .of_admits (by rwa [hpg]) (by rw [hpg, pageId_epochLo]) (by rwa [hlane]) ?_ ?_
  · rw [hreg]; exact isHole_of_regAt (by decide) regAt_epochLo
  · rw [hreg]; exact fun _ => by decide

/-- Host B writes bytes from `i` on and host A bytes from `j` on: host A's take effect, whether or not the bytes are the same. -/
theorem exec_epochLo_hosts {v' : W64} {n' i j : Nat} (hcalm : Calm s.dev) (ha : Admits s.dev (Rg.pageOf Rg.DEV_GROUP_EPOCH_LO) .hostA)
    (hb : Admits s.dev (Rg.pageOf Rg.DEV_GROUP_EPOCH_LO) .hostB) (haddr : addr.toNat = Rg.DEV_GROUP_EPOCH_LO) (hi : i < 4) (hn : i + n ≤ 4)
    (hj : j < 4) (hn' : j + n' ≤ 4) (hen : laneMask n' j ≠ 0) :
    ∃ u, Machine.exec (.registerWrite addr [⟨.hostB, n, v, i⟩, ⟨.hostA, n', v', j⟩]) s = .next u ∧
      RegTo s u.dev Rg.DEV_GROUP_EPOCH_LO (laneMask n' j) (laneData (v'.toNat % 2 ^ 32) j) ∧
      (page u.dev (addr.toNat / 0x1000)).err = (page s.dev (addr.toNat / 0x1000)).err ||| 64 ∧
      (page u.dev (addr.toNat / 0x1000)).info = errInfo (addr.toNat % 0x1000 + i) 6 true .hostA ||| 0x200000 := by
  have hreg : (Rg.DEV_GROUP_EPOCH_LO + j) / 4 * 4 = Rg.DEV_GROUP_EPOCH_LO := by unfold Rg.DEV_GROUP_EPOCH_LO Rg.baseDEV; omega
  have hlane : (Rg.DEV_GROUP_EPOCH_LO + j) % 4 = j := by unfold Rg.DEV_GROUP_EPOCH_LO Rg.baseDEV; omega
  have hpg : addr.toNat / 0x1000 = (Rg.DEV_GROUP_EPOCH_LO + i) / 0x1000 ∧
      addr.toNat % 0x1000 + i = (Rg.DEV_GROUP_EPOCH_LO + i) % 0x1000 := by rw [haddr]; unfold Rg.DEV_GROUP_EPOCH_LO Rg.baseDEV; omega
  have hdo : doWrite s.mem s.dev devPid (Rg.DEV_GROUP_EPOCH_LO + j) n' (v'.toNat % 2 ^ 32) .hostA =
      (s.mem, writeBlock s.dev devPid Rg.DEV_GROUP_EPOCH_LO (Rg.DEV_GROUP_EPOCH_LO + j) epochLoReg 0 (laneData (v'.toNat % 2 ^ 32) j)
        (laneMask n' j) .hostA) := by
    rw [doWrite_block (by rw [hreg]; decide) (by rw [hreg]; exact regAt_epochLo) (by decide) (by decide), hreg, hlane]
  obtain ⟨e, he, hto, hcalm', hpages⟩ := regTo_epochLo (m := .hostA) (acc := Rg.DEV_GROUP_EPOCH_LO + j) (data := laneData (v'.toNat % 2 ^ 32) j) hen hcalm
  refine ⟨{ s with dev := conflict e (Rg.DEV_GROUP_EPOCH_LO + i) .hostA [.hostB] }, ?_, hto, ?_, ?_⟩
  · have hset : Calm (conflict e (Rg.DEV_GROUP_EPOCH_LO + i) .hostA [.hostB]) := hcalm'
    rw [exec_registerWrite (by simp; omega)]
    simp only [List.map_cons, List.map_nil, haddr, cycleWrite_hosts (passes_epochLo hb hi hn) (passes_epochLo ha hj hn'), hdo, he,
      settle_of_calm hset]
  · rw [hpg.1, page_conflict, hpages]; rfl
  · rw [hpg.1, page_conflict, hpg.2]

theorem laneMask_byte (j : Nat) : laneMask 1 j = BitVec.ofNat 32 (0xFF * 2 ^ (8 * j)) := by norm_num [laneMask]

/-- The low byte of a value at its place. -/
theorem laneData_byte (x j : Nat) :
    laneData x j &&& BitVec.ofNat 32 (0xFF * 2 ^ (8 * j)) = BitVec.ofNat 32 (x % 2 ^ 8 * 2 ^ (8 * j)) &&& BitVec.ofNat 32 (0xFF * 2 ^ (8 * j)) := by
  apply BitVec.eq_of_getLsbD_eq
  intro i hi
  simp only [laneData, BitVec.getLsbD_and, BitVec.getLsbD_ofNat, hi, decide_true, Bool.true_and, Nat.testBit_mul_two_pow,
    show (0xFF : Nat) = 2 ^ 8 - 1 from rfl, Nat.testBit_two_pow_sub_one, Nat.testBit_mod_two_pow]
  by_cases h1 : 8 * j ≤ i <;> by_cases h2 : i - 8 * j < 8 <;> simp [h1, h2]

/-! ## Accesses to no page (R49) -/

/-- What DEV_ERR and DEV_ERR_ADDR record. -/
theorem rd_unimpl (d : Dev) (a : Nat) (w : Bool) (m : Master) :
    rd (unimpl d a w m) Rg.DEV_ERR = rd d Rg.DEV_ERR ||| 1 ∧
      rd (unimpl d a w m) Rg.DEV_ERR_ADDR = BitVec.ofNat 32 (a % 2 ^ 26 + masterCode m * 2 ^ 26 + b2n w * 2 ^ 29) ∧
      ∀ b, b ≠ Rg.DEV_ERR → b ≠ Rg.DEV_ERR_ADDR → rd (unimpl d a w m) b = rd d b := by
  have hne : Rg.DEV_ERR ≠ Rg.DEV_ERR_ADDR := by decide
  refine ⟨?_, rd_wr_same .., fun b h1 h2 => ?_⟩
  · rw [unimpl, rd_wr_ne _ _ hne, rd_wr_same]
  · rw [unimpl, rd_wr_ne _ _ h2, rd_wr_ne _ _ h1]

theorem exec_unimplementedPageAccess_write (hp : pageFor s.dev addr.toNat m = none) (hw : inWindow s.dev addr.toNat m = false) :
    Machine.exec (.unimplementedPageAccess addr m true) s = .next { s with dev := unimpl s.dev addr.toNat true m } := by
  show execUnimplementedPageAccess addr m true s = _
  simp [execUnimplementedPageAccess, State.onDev, hp, hw]

theorem exec_unimplementedPageAccess_read (hp : pageFor s.dev addr.toNat m = none) (hw : inWindow s.dev addr.toNat m = false) :
    Machine.exec (.unimplementedPageAccess addr m false) s =
      .next { s with dev := give (unimpl s.dev addr.toNat false m) m 0xFFFFFFFF } := by
  show execUnimplementedPageAccess addr m false s = _
  simp [execUnimplementedPageAccess, State.onDev, hp, hw]

@[simp] theorem rd_give (d : Dev) (m : Master) (v : W32) (b : Nat) : rd (give d m v) b = rd d b := rfl

/-! ## A whole write to each kind of register -/

section Kinds
variable {z : Nat}

theorem exec_write_epochLo (hcalm : Calm s.dev) (haddr : addr.toNat = Rg.DEV_GROUP_EPOCH_LO)
    (h : Admits s.dev (Rg.DEV_GROUP_EPOCH_LO / 0x1000) m) :
    ∃ u, Machine.exec (.registerWrite addr [⟨m, 4, v, 0⟩]) s = .next u ∧
      RegTo s u.dev Rg.DEV_GROUP_EPOCH_LO (BitVec.allOnes 32) (v.setWidth 32) := by
  obtain ⟨e, he, hto, hset, -⟩ := regTo_epochLo (m := m) (acc := Rg.DEV_GROUP_EPOCH_LO) (data := v.setWidth 32) (en := BitVec.allOnes 32)
    (by decide) hcalm
  exact ⟨_, exec_write_reg haddr h pageId_epochLo (by decide) (by decide) regAt_epochLo (by decide) (by decide) he hset, hto⟩

theorem exec_write_devErr (hcalm : Calm s.dev) (haddr : addr.toNat = Rg.DEV_ERR) (h : Admits s.dev (Rg.DEV_ERR / 0x1000) m) :
    ∃ u, Machine.exec (.registerWrite addr [⟨m, 4, v, 0⟩]) s = .next u ∧
      rd u.dev Rg.DEV_ERR = rd s.dev Rg.DEV_ERR &&& ~~~(v.setWidth 32 &&& 0x1F) ∧ ∀ b, b ≠ Rg.DEV_ERR → rd u.dev b = rd s.dev b := by
  obtain ⟨r, hr, hrd⟩ := writeBlock_devErr s.dev Rg.DEV_ERR (v.setWidth 32) m
  exact ⟨_, exec_write_reg haddr h pageId_devErr (by decide) (by decide) regAt_devErr (by decide) (by decide) hr hcalm,
    (hrd _).trans (if_pos rfl), fun b hb => (hrd b).trans (if_neg hb)⟩

theorem exec_write_spill_open (hcalm : Calm s.dev) (hz : z < 4) (haddr : addr.toNat = Rg.URN_SPILL_REGION z)
    (h : Admits s.dev (Rg.URN_SPILL_REGION z / 0x1000) m) (hh : (page s.dev (Rg.URN_SPILL_REGION z / 0x1000)).held = false) :
    ∃ u, Machine.exec (.registerWrite addr [⟨m, 4, v, 0⟩]) s = .next u ∧ u.dev.heldW = s.dev.heldW ∧ (∀ b, rd u.dev b = rd s.dev b) ∧
      (page u.dev (Rg.URN_SPILL_REGION z / 0x1000)).err = (page s.dev (Rg.URN_SPILL_REGION z / 0x1000)).err ||| 16 := by
  obtain ⟨hpid, hoff⟩ := spillRegion_place z hz
  refine ⟨_, exec_write_reg haddr h hpid (by omega) (by omega) (by rw [hoff]; exact regAt_spillRegion z) (by simp [urnPid]) (by simp [urnPid])
    (writeBlock_spill_open hh) hcalm, rfl, fun _ => rfl, ?_⟩
  simp only [pageErr, page_modPage_same, BitVec.or_assoc]
  rfl

theorem exec_write_spill_held (hcalm : Calm s.dev) (hz : z < 4) (haddr : addr.toNat = Rg.URN_SPILL_REGION z)
    (h : Admits s.dev (Rg.URN_SPILL_REGION z / 0x1000) m) (hh : (page s.dev (Rg.URN_SPILL_REGION z / 0x1000)).held = true)
    (hb : v.toNat % 128 ≤ 95) (hs : v.toNat / 256 % 16 ≤ 8) :
    ∃ u, Machine.exec (.registerWrite addr [⟨m, 4, v, 0⟩]) s = .next u ∧ (∀ b, rd u.dev b = rd s.dev b) ∧
      tget stagedDflt u.dev.heldW (Rg.URN_SPILL_REGION z) =
        ⟨(tget stagedDflt s.dev.heldW (Rg.URN_SPILL_REGION z)).mask ||| 0xF7F,
          merged (tget stagedDflt s.dev.heldW (Rg.URN_SPILL_REGION z)).val 0xF7F (v.setWidth 32)⟩ := by
  obtain ⟨hpid, hoff⟩ := spillRegion_place z hz
  have hbase : getF (v.setWidth 32) ⟨6, 0⟩ ≤ 95 := by simp only [getF, BitVec.toNat_setWidth, Nat.shiftRight_eq_div_pow]; omega
  have hsize : getF (v.setWidth 32) ⟨11, 8⟩ ≤ 8 := by simp only [getF, BitVec.toNat_setWidth, Nat.shiftRight_eq_div_pow]; omega
  exact ⟨_, exec_write_reg haddr h hpid (by omega) (by omega) (by rw [hoff]; exact regAt_spillRegion z) (by simp [urnPid]) (by simp [urnPid])
    (writeBlock_spill_held hh hbase hsize) hcalm, fun _ => rfl, tget_stageBits_twice ..⟩

theorem exec_write_storePfc (hcalm : Calm s.dev) (hz : z < 4) (haddr : addr.toNat = Rg.ADM_STORE_PFC z)
    (h : Admits s.dev (Rg.ADM_STORE_PFC z / 0x1000) m) (hx : getF (v.setWidth 32) Fl.ADM_STORE_PFC_XOFF ≤ 30464) :
    ∃ u, Machine.exec (.registerWrite addr [⟨m, 4, v, 0⟩]) s = .next u ∧ (∀ b, rd u.dev b = rd s.dev b) ∧
      (∀ q, page u.dev q = page s.dev q) ∧
      getF (tget stagedDflt u.dev.staged (Rg.ADM_STORE_PFC z)).val Fl.ADM_STORE_PFC_XOFF = getF (v.setWidth 32) Fl.ADM_STORE_PFC_XOFF ∧
      getF (tget stagedDflt u.dev.staged (Rg.ADM_STORE_PFC z)).val Fl.ADM_STORE_PFC_XON = getF (v.setWidth 32) Fl.ADM_STORE_PFC_XON := by
  obtain ⟨hpid, hoff⟩ := storePfc_place z hz
  refine ⟨_, exec_write_reg haddr h hpid (by omega) (by omega) (by rw [hoff]; exact regAt_storePfc z) (by simp [admPid]) (by simp [admPid])
    (writeBlock_storePfc hx) hcalm, fun _ => rfl, fun _ => rfl, ?_, ?_⟩
  · rw [tget_stageBits_twice, getF_merged (by decide)]
  · rw [tget_stageBits_twice, getF_merged (by decide)]

theorem exec_write_intMask {b c : Nat} (hcalm : Calm s.dev) (h : Admits s.dev (addr.toNat / 0x1000) m) (hoff : addr.toNat % 0x1000 = 0x24)
    (hp : pageId (addr.toNat / 0x1000) = some p) (he : pageEvents p = some (b, c)) :
    ∃ u, Machine.exec (.registerWrite addr [⟨m, 4, v, 0⟩]) s = .next u ∧
      (page u.dev (addr.toNat / 0x1000)).intMask = v.setWidth 32 &&& BitVec.ofNat 32 (2 ^ c - 1) ∧ ∀ b, rd u.dev b = rd s.dev b := by
  obtain ⟨k, hk⟩ := writeHeader_intMask (d := s.dev) (m := m) (pg := addr.toNat / 0x1000) (data := v.setWidth 32) he
  refine ⟨_, exec_write_header hoff h hp (by decide) (by decide) rfl hk hcalm, ?_, fun _ => rfl⟩
  rw [show ∀ e : Dev, page { e with caddy := k } _ = page e _ from fun _ => rfl, page_modPage_same]

theorem exec_write_commitDiscard (hcalm : Calm s.dev) (h : Admits s.dev (addr.toNat / 0x1000) m) (hoff : addr.toNat % 0x1000 = 4)
    (hg : (page s.dev (addr.toNat / 0x1000)).group = true) (hv : v.toNat % 8 = 6) :
    ∃ u, Machine.exec (.registerWrite addr [⟨m, 4, v, 0⟩]) s = .next u ∧
      PageTo s u (addr.toNat / 0x1000) (fun x => withErr 4 3 true m { x with hold := false }) := by
  obtain ⟨p, hp⟩ := Option.isSome_iff_exists.mp h.exists_
  have hv' : (v.setWidth 32).toNat % 8 = 6 := by rw [BitVec.toNat_setWidth]; omega
  refine ⟨_, exec_write_header hoff h hp (by decide) (by decide) rfl (writeHeader_commitDiscard hg hv') hcalm, ?_, fun q hq => ?_, _, _, _, rfl⟩
  · simp only [page_modPage_same]; rfl
  · simp [page_modPage, hq]

end Kinds

/-! ## The statement -/

/-- Settles O27: the refusals by `exec_write_refused`, the access codes by one lemma for each kind of register, two masters by
`exec_epochLo_hosts`, and accesses to no page by `rd_unimpl`. -/
theorem registerWritesFollowTheChecks : Obligations.RegisterWritesFollowTheChecks := by
  unfold Obligations.RegisterWritesFollowTheChecks
  intro s addr m n v hclock hcalm hn
  refine ⟨fun p hp hreach hwin => ?_, ?_, fun v' ha hb haddr => ?_, fun hp hwin => ?_⟩
  · have hfor : pageFor s.dev addr.toNat m = some p := by rw [pageFor_of_reaches hreach, hp]
    have refuse {e : Nat} (he : writeFails s.dev p addr.toNat n m = some e) := exec_write_refused (v := v) hclock hcalm hn hfor hwin he
    exact ⟨fun hr => refuse (writeFails_notReady hr), fun hr ho => refuse (writeFails_owner hr ho),
      fun hr ho hw => refuse (writeFails_width hr ho hw), fun hr ho hw hh => refuse (writeFails_hole hr ho hw hh),
      fun hr ho hw hh hn hs => refuse (writeFails_narrow hr ho hw hh hn hs)⟩
  · rintro rfl hadm
    refine ⟨fun haddr => ?_, fun haddr => ?_, fun z hz haddr hb hs => ⟨fun hh => ?_, fun hh => ?_⟩, fun z hz haddr hx => ?_,
      fun hoff p b c hp he => exec_write_intMask hcalm hadm hoff hp he, fun hoff hg hv => exec_write_commitDiscard hcalm hadm hoff hg hv⟩
    all_goals rw [haddr] at hadm
    · rw [haddr]
      exact exec_write_epochLo hcalm haddr hadm
    · rw [haddr]
      exact exec_write_devErr hcalm haddr hadm
    · rw [haddr] at hh ⊢
      obtain ⟨u, hu, hheld, hrd, herr⟩ := exec_write_spill_open (v := v) hcalm hz haddr hadm hh
      exact ⟨u, hu, hheld, hrd _, herr⟩
    · rw [haddr] at hh ⊢
      obtain ⟨u, hu, hrd, hwait⟩ := exec_write_spill_held hcalm hz haddr hadm hh hb hs
      exact ⟨u, hu, hrd _, by rw [hwait], by rw [hwait]⟩
    · rw [haddr]
      obtain ⟨u, hu, hrd, hpage, hxoff, hxon⟩ := exec_write_storePfc hcalm hz haddr hadm hx
      exact ⟨u, hu, hrd, by rw [hpage], hxoff, hxon⟩
  · refine ⟨?_, fun i j hi hj => ?_⟩
    · obtain ⟨u, hu, hto, hpage⟩ := exec_epochLo_hosts (v := v) (v' := v') (n := 4) (n' := 4) (i := 0) (j := 0) hcalm ha hb haddr
        (by decide) (by decide) (by decide) (by decide) (by decide)
      rw [laneMask_whole, laneData_whole] at hto
      rw [haddr] at hpage ⊢
      exact ⟨u, hu, hto, hpage⟩
    · have hen : laneMask 1 j ≠ 0 := by interval_cases j <;> decide
      obtain ⟨u, hu, ⟨hval, hrest⟩, hpage⟩ := exec_epochLo_hosts (v := v) (v' := v') (n := 1) (n' := 1) hcalm ha hb haddr hi (by omega) hj (by omega) hen
      rw [laneMask_byte, merged_congr (laneData_byte _ _), Nat.mod_mod_of_dvd _ (by decide)] at hval
      rw [haddr] at hpage ⊢
      exact ⟨u, hu, ⟨hval, hrest⟩, hpage⟩
  · have hlt : addr.toNat % 2 ^ 26 = addr.toNat := Nat.mod_eq_of_lt addr.isLt
    refine ⟨⟨_, exec_unimplementedPageAccess_write hp hwin, ?_⟩, ⟨_, exec_unimplementedPageAccess_read hp hwin, ?_⟩⟩
    · obtain ⟨herr, hloc, hrest⟩ := rd_unimpl s.dev addr.toNat true m
      exact ⟨herr, by rw [hloc, hlt]; simp [b2n], hrest⟩
    · obtain ⟨herr, hloc, -⟩ := rd_unimpl s.dev addr.toNat false m
      exact ⟨by rw [rd_give, herr], by rw [rd_give, hloc, hlt]; simp [b2n], (rdata_giveKey ..).trans (by decide)⟩

end Sys2Proof.Machine
end

section
/-!
The refill of a spill page (R288): where a descriptor that has lost its buffer waits in the VOQ, the buffer that the refill makes can be the
one that it names, so the VOQ then holds more cells than it held before with those of the frame refilled.
-/

namespace Sys2Proof.Machine
open Sys2Proof Sys2Proof.Terms

/-- A frame of one cell whose buffer was given up: the next buffer that starts in cell 0 of zone 0 bears its incarnation. -/
def staleDesc : Desc :=
  { handle := mkHandle 0 0 1, len := 64, edit := 0, dom := 0, seq := 0, port := 0, cls := 0, ecn := false, ts2 := false, ctrl := false,
    lossless := false, copy := false, inj := none }

/-- A spilled frame of one cell. -/
def spilledDesc : Desc := { staleDesc with handle := spillHandle 0 0 1 }

/-- A page in HBM in which one frame of one cell starts, in its first slot. -/
def oneFramePage : Machine.Page :=
  { num := 0, descs := [(spilledDesc, 1)], slots := [], pos := 0, written := true }

/-- VOQ 0 of zone 0 in spill mode, behind the stale frame the page; spill mode begins at 2 cells, a refill below 1. -/
def staleState : State :=
  { dev := { regs := [(Rg.URN_SPILL_LEVELS 0, 0x00010002)],
             urn := { voqs := [(0, { q := [staleDesc], chain := [oneFramePage], spill := true })] } } }

/-- The stale frame holds no cell, so with the one refilled the VOQ should stay below the 2 cells of its spill level. -/
theorem headCells_staleState : headCells staleState.dev 0 0 + 1 < rf staleState.dev (Rg.URN_SPILL_LEVELS 0) Fl.URN_SPILL_LEVELS_ON := by decide

/-- The refill into cell 0 gives the stale frame a buffer too: the VOQ holds 2 cells and enters spill mode again (R286). -/
theorem refill_staleState_spills :
    (voq (refill 0 0 [0] [] false staleState.mem staleState.dev) 0 0).spill = true := by decide

/-- Refutes O41: in `staleState` the frames in cells and the frame refilled stay below the spill level together, and yet the refill leaves
the VOQ in spill mode. -/
theorem not_auditAndSpillPagesWork : ¬ Obligations.AuditAndSpillPagesWork := by
  unfold Obligations.AuditAndSpillPagesWork
  intro h
  obtain ⟨-, -, -, -, -, -, -, hrefill⟩ := h staleState 0
  obtain ⟨hwhole, -, -⟩ := hrefill 0 [0] [] oneFramePage spilledDesc 1 rfl rfl rfl rfl rfl
    (by decide) (by decide) (by decide) (by decide) (by decide) (by decide)
  obtain ⟨u, -, -, hu, -, -, -, -, -, -, -, -, -, -, hspill⟩ :=
    hwhole (by simp) (by decide) (by decide) (by decide) (by decide)
  obtain rfl := Host.Outcome.next.inj hu
  have hleft := hspill headCells_staleState
  simp only [Fin.val_zero] at hleft
  exact absurd (refill_staleState_spills.symm.trans hleft) (by decide)

end Sys2Proof.Machine
end

section
/-!
Fields of registers (R8): a field that is written reads back, modulo its width; every field apart from it, and every other register, keeps
its value.
-/

namespace Sys2Proof.Machine
open Sys2Proof

variable {d : Dev} {f g : Fld}

theorem testBit_getF (v : W32) (f : Fld) (i : Nat) : (getF v f).testBit i = (decide (i < f.hi + 1 - f.lo) && v.getLsbD (f.lo + i)) := by
  simp only [getF, Nat.testBit_mod_two_pow, Nat.testBit_shiftRight, BitVec.testBit_toNat]

/-- The bits of a register after a write of one field. -/
theorem getLsbD_putF (v : W32) (f : Fld) (x i : Nat) :
    (putF v f x).getLsbD i = (decide (i < 32) && if f.lo ≤ i ∧ i < f.lo + (f.hi + 1 - f.lo) then x.testBit (i - f.lo) else v.getLsbD i) := by
  simp only [putF, BitVec.getLsbD_or, BitVec.getLsbD_and, BitVec.getLsbD_not, BitVec.getLsbD_ofNat, maskF, Nat.testBit_shiftLeft,
    Nat.testBit_two_pow_sub_one, Nat.testBit_mul_two_pow, Nat.testBit_mod_two_pow]
  by_cases hi : i < 32 <;> by_cases hlo : f.lo ≤ i <;> by_cases hhi : i - f.lo < f.hi + 1 - f.lo <;>
    simp only [hi, hlo, hhi, decide_true, decide_false, Bool.true_and, Bool.false_and, Bool.and_true, Bool.and_false, Bool.not_true, Bool.not_false,
      Bool.or_false, Bool.false_or, true_and, false_and, if_false]
  · rw [if_pos (by omega)]
  · rw [if_neg (by omega)]

/-- A field reads back as it was written, modulo its width. -/
theorem getF_putF_same (v : W32) (x : Nat) (hf : f.hi < 32) : getF (putF v f x) f = x % 2 ^ (f.hi + 1 - f.lo) := by
  apply Nat.eq_of_testBit_eq
  intro i
  rw [testBit_getF, Nat.testBit_mod_two_pow, getLsbD_putF]
  by_cases hi : i < f.hi + 1 - f.lo
  · have h32 : f.lo + i < 32 := by omega
    simp [hi, h32]
  · simp [hi]

/-- A field apart from the one written keeps its value. -/
theorem getF_putF_apart (v : W32) (x : Nat) (h : f.hi < g.lo ∨ g.hi < f.lo) : getF (putF v f x) g = getF v g := by
  apply Nat.eq_of_testBit_eq
  intro i
  rw [testBit_getF, testBit_getF, getLsbD_putF]
  by_cases hi : i < g.hi + 1 - g.lo
  · have hout : ¬(f.lo ≤ g.lo + i ∧ g.lo + i < f.lo + (f.hi + 1 - f.lo)) := by omega
    simp only [hi, decide_true, Bool.true_and, if_neg hout]
    by_cases h32 : g.lo + i < 32
    · simp [h32]
    · rw [BitVec.getLsbD_of_ge v _ (Nat.not_lt.mp h32), Bool.and_eq_false_iff]
      exact .inl (decide_eq_false h32)
  · simp [hi]

theorem rf_wf_same (d : Dev) (a x : Nat) (hf : f.hi < 32) : rf (wf d a f x) a f = x % 2 ^ (f.hi + 1 - f.lo) := by
  rw [rf, rd_wf_same, getF_putF_same _ _ hf]
theorem rf_wf_apart (d : Dev) (a x : Nat) (h : f.hi < g.lo ∨ g.hi < f.lo) : rf (wf d a f x) a g = rf d a g := by
  rw [rf, rd_wf_same, getF_putF_apart _ _ h, rf]
theorem rf_wf_ne (d : Dev) {a b : Nat} (x : Nat) (h : b ≠ a) : rf (wf d a f x) b g = rf d b g := by rw [rf, rd_wf_ne _ _ _ h, rf]
/-- A bit reads back. -/
theorem rb_wf_same (d : Dev) (a : Nat) (b : Bool) (hf : f.hi < 32) (hone : f.hi = f.lo) : rb (wf d a f (b2n b)) a f = b := by
  rw [rb, rf_wf_same _ _ _ hf, hone]
  cases b <;> simp [b2n]
theorem rf_congr {d e : Dev} {a : Nat} (h : rd e a = rd d a) (f : Fld) : rf e a f = rf d a f := by rw [rf, rf, h]
theorem rb_congr {d e : Dev} {a : Nat} (h : rd e a = rd d a) (f : Fld) : rb e a f = rb d a f := by rw [rb, rb, rf_congr h]

@[simp] theorem rd_bump (d : Dev) (a n b : Nat) : rd (bump d a n) b = rd d b := rfl
@[simp] theorem ctr_wr (d : Dev) (a : Nat) (v : W32) (b : Nat) : ctr (wr d a v) b = ctr d b := rfl
@[simp] theorem ctr_wf (d : Dev) (a : Nat) (f : Fld) (x b : Nat) : ctr (wf d a f x) b = ctr d b := rfl
@[simp] theorem rd_raise (d : Dev) (p n b : Nat) : rd (raise d p n) b = rd d b := by obtain ⟨_, _, _, h⟩ := raise_shape d p n; rw [h]; rfl
@[simp] theorem ctr_raise (d : Dev) (p n b : Nat) : ctr (raise d p n) b = ctr d b := by obtain ⟨_, _, _, h⟩ := raise_shape d p n; rw [h]; rfl
theorem ctr_bump_ne (d : Dev) {a b : Nat} (n : Nat) (h : b ≠ a) : ctr (bump d a n) b = ctr d b := by rw [ctr_bump, if_neg h]

end Sys2Proof.Machine
end

section
/-!
The die links (R16 to R23, R374, R392 to R394): what one flit leaves in the two directions of its link, what the comparison of a failed copy with
its replay notes, and what the return of a zone does to the edges latched in it.
-/

namespace Sys2Proof.Machine
open Sys2Proof Sys2Proof.Terms

variable {d : Dev} {s : State} {z : Zone} {up : Bool} {seq ack : Nat} {sent bits : List (BitVec 40)}

/-! ## One direction of a link -/

theorem dirOf_modDir (d : Dev) (z : Nat) (b c : Bool) (f : LinkDir → LinkDir) :
    dirOf (lnk (modDir d z b f) z) c = if c = b then f (dirOf (lnk d z) b) else dirOf (lnk d z) c := by
  cases b <;> cases c <;> simp [modDir, dirOf]
@[simp] theorem dirOf_modDir_same (d : Dev) (z : Nat) (b : Bool) (f : LinkDir → LinkDir) :
    dirOf (lnk (modDir d z b f) z) b = f (dirOf (lnk d z) b) := by simp [dirOf_modDir]
@[simp] theorem dirOf_modDir_not (d : Dev) (z : Nat) (b : Bool) (f : LinkDir → LinkDir) :
    dirOf (lnk (modDir d z b f) z) (!b) = dirOf (lnk d z) (!b) := by simp [dirOf_modDir]
@[simp] theorem dirOf_modDir_of_not (d : Dev) (z : Nat) (b : Bool) (f : LinkDir → LinkDir) :
    dirOf (lnk (modDir d z (!b) f) z) b = dirOf (lnk d z) b := by simp [dirOf_modDir]
@[simp] theorem state_modDir (d : Dev) (z : Nat) (b : Bool) (f : LinkDir → LinkDir) : (lnk (modDir d z b f) z).state = (lnk d z).state := by
  cases b <;> simp [modDir]
@[simp] theorem isolated_modDir (d : Dev) (z : Nat) (b : Bool) (f : LinkDir → LinkDir) : (lnk (modDir d z b f) z).isolated = (lnk d z).isolated := by
  cases b <;> simp [modDir]
theorem lnk_modDir_ne (d : Dev) {z y : Nat} (b : Bool) (f : LinkDir → LinkDir) (h : y ≠ z) : lnk (modDir d z b f) y = lnk d y := by
  simp [modDir, lnk_modLink, h]
@[simp] theorem ctr_modDir (d : Dev) (z : Nat) (b : Bool) (f : LinkDir → LinkDir) (a : Nat) : ctr (modDir d z b f) a = ctr d a := rfl
@[simp] theorem out_modDir (d : Dev) (z : Nat) (b : Bool) (f : LinkDir → LinkDir) : (modDir d z b f).out = d.out := rfl
@[simp] theorem lnk_bump (d : Dev) (a n z : Nat) : lnk (bump d a n) z = lnk d z := rfl
@[simp] theorem lnk_emit (d : Dev) (o : Out) (z : Nat) : lnk (emit d o) z = lnk d z := rfl
@[simp] theorem lnk_wf (d : Dev) (a : Nat) (f : Fld) (x z : Nat) : lnk (wf d a f x) z = lnk d z := rfl
@[simp] theorem nowNs_wf (d : Dev) (a : Nat) (f : Fld) (x : Nat) : nowNs (wf d a f x) = nowNs d := rfl
@[simp] theorem rd_modLink (d : Dev) (z : Nat) (f : Link → Link) (a : Nat) : rd (modLink d z f) a = rd d a := rfl

/-! ## A flit arrives (R16, R19) -/

/-- A flit that agrees with the sender's replay buffer. -/
theorem flitOk_iff {x : LinkDir} {ok : Bool} : flitOk x seq sent bits ok = true ↔
    sent.length = 512 ∧ bits.length = 512 ∧ (∀ e ∈ x.buf, e.1 = seq → e.2 = sent) ∧ (ok = true → bits = sent) := by
  simp only [flitOk, Bool.and_eq_true, beq_iff_eq, List.all_eq_true, Bool.or_eq_true, bne_iff_ne, Bool.not_eq_true', and_assoc]
  refine and_congr_right fun _ => and_congr_right fun _ => and_congr (forall₂_congr fun e _ => ?_) ?_
  · by_cases h : e.1 = seq <;> simp [h]
  · cases ok <;> simp

/-- The sender takes a flit into its replay buffer; nothing else of the direction changes. -/
theorem sentFlit_shape (x : LinkDir) (seq : Nat) (sent : List (BitVec 40)) : ∃ b, sentFlit x seq sent = { x with buf := b } := by
  unfold sentFlit
  split
  · exact ⟨_, rfl⟩
  · exact ⟨_, rfl⟩

theorem mem_keep128_append (l : List (Nat × List (BitVec 40))) (x : Nat × List (BitVec 40)) : x ∈ keep128 (l ++ [x]) := by
  rw [keep128, List.drop_append_of_le_length (by simp)]
  simp

/-- The sender holds the flit: it held it before as it was sent, or holds it now. -/
theorem mem_sentFlit {x : LinkDir} (h : ∀ e ∈ x.buf, e.1 = seq → e.2 = sent) : (seq, sent) ∈ (sentFlit x seq sent).buf := by
  unfold sentFlit
  split
  next hany =>
    obtain ⟨e, he, heq⟩ := List.any_eq_true.mp hany
    have hseq : e.1 = seq := by simpa using heq
    have hsame : e = (seq, sent) := Prod.ext hseq (h e he hseq)
    exact hsame ▸ he
  next =>
    dsimp only
    exact mem_keep128_append x.buf (seq, sent)

/-- A flit that the link cannot meet changes nothing. -/
theorem exec_flitReceive_ignored {ok : Bool} (h : (lnk s.dev z).state ≠ 3 ∨ flitOk (dirOf (lnk s.dev z) up) seq sent bits ok = false) :
    Machine.exec (.flitReceive z up ⟨seq, ack⟩ ⟨sent, bits⟩ ok) s = .next s := by
  show execFlitReceive z up ⟨seq, ack⟩ ⟨sent, bits⟩ ok s = _
  have hc : ((lnk s.dev z).state != 3 || !flitOk (dirOf (lnk s.dev z) up) seq sent bits ok) = true := by
    rcases h with h | h <;> simp [h]
  simp [execFlitReceive, State.onDev, hc]

/-- Both ends after a flit whose CRC matches, before it is delivered: the sender holds it, and the other sender's flits are acknowledged. -/
def goodFlit (d : Dev) (z : Nat) (up : Bool) (seq ack : Nat) (sent : List (BitVec 40)) : Dev :=
  modDir (modDir d z up (fun x => sentFlit x seq sent)) z (!up) (fun x => ackFlits x ack)

theorem exec_flitReceive_good (hup : (lnk s.dev z).state = 3) (hok : flitOk (dirOf (lnk s.dev z) up) seq sent bits true = true) :
    Machine.exec (.flitReceive z up ⟨seq, ack⟩ ⟨sent, bits⟩ true) s =
      .next { s with dev := if seq = (dirOf (lnk s.dev z) up).next then modDir (goodFlit s.dev z up seq ack sent) z up (fun x => deliverFlit x seq sent)
        else goodFlit s.dev z up seq ack sent } := by
  show execFlitReceive z up ⟨seq, ack⟩ ⟨sent, bits⟩ true s = _
  simp [execFlitReceive, State.onDev, hup, hok, goodFlit]

/-- The link after a flit that fails its CRC, before a replay: counted, and kept unless it has been delivered. -/
def badFlit (d : Dev) (z : Nat) (up : Bool) (seq : Nat) (sent got : List (BitVec 40)) : Dev :=
  let e := bump (modDir d z up (fun x => sentFlit x seq sent)) (Rg.XB_CRC_ERR z) 1
  if (dirOf (lnk d z) up).next ≤ seq then modDir e z up (fun x => { x with failed := x.failed ++ [(seq, got)] }) else e

/-- The replay of the flit in turn out of the sender's buffer. -/
def replayFlit (d : Dev) (z : Nat) (up : Bool) (seq : Nat) : Dev :=
  let e := modDir d z up (fun x => { x with fails := x.fails + 1, replay := true })
  emit (bump e (Rg.XB_REPLAY_CNT z) 1) (.replay z up seq (((dirOf (lnk e z) up).buf.filter (fun y => seq ≤ y.1)).map (·.2)))

theorem exec_flitReceive_bad (hup : (lnk s.dev z).state = 3) (hok : flitOk (dirOf (lnk s.dev z) up) seq sent bits false = true)
    (hseq : seq ≠ (dirOf (lnk s.dev z) up).next) :
    Machine.exec (.flitReceive z up ⟨seq, ack⟩ ⟨sent, bits⟩ false) s = .next { s with dev := badFlit s.dev z up seq sent bits } := by
  show execFlitReceive z up ⟨seq, ack⟩ ⟨sent, bits⟩ false s = _
  simp [execFlitReceive, State.onDev, hup, hok, hseq, badFlit]

theorem exec_flitReceive_replayed (hup : (lnk s.dev z).state = 3) (hok : flitOk (dirOf (lnk s.dev z) up) seq sent bits false = true)
    (hseq : seq = (dirOf (lnk s.dev z) up).next) :
    let d := replayFlit (badFlit s.dev z up seq sent bits) z up seq
    Machine.exec (.flitReceive z up ⟨seq, ack⟩ ⟨sent, bits⟩ false) s =
      .next { s with dev := if 9 ≤ (dirOf (lnk d z) up).fails then isolateZone d z else d } := by
  intro d
  subst hseq
  show execFlitReceive z up ⟨_, ack⟩ ⟨sent, bits⟩ false s = _
  simp [d, execFlitReceive, State.onDev, hup, hok, badFlit, replayFlit]

/-- What a failed flit leaves of its direction. -/
theorem dirOf_badFlit (d : Dev) (z : Nat) (up : Bool) (seq : Nat) (sent got : List (BitVec 40)) :
    dirOf (lnk (badFlit d z up seq sent got) z) up =
      { sentFlit (dirOf (lnk d z) up) seq sent with
        failed := (dirOf (lnk d z) up).failed ++ (if (dirOf (lnk d z) up).next ≤ seq then [(seq, got)] else []) } := by
  obtain ⟨b, hb⟩ := sentFlit_shape (dirOf (lnk d z) up) seq sent
  unfold badFlit
  dsimp only
  split <;> simp [hb]

theorem state_badFlit (d : Dev) (z : Nat) (up : Bool) (seq : Nat) (sent got : List (BitVec 40)) :
    (lnk (badFlit d z up seq sent got) z).state = (lnk d z).state ∧ (lnk (badFlit d z up seq sent got) z).isolated = (lnk d z).isolated := by
  unfold badFlit
  dsimp only
  split <;> simp

theorem ctr_badFlit (d : Dev) (z : Nat) (up : Bool) (seq : Nat) (sent got : List (BitVec 40)) (a : Nat) :
    ctr (badFlit d z up seq sent got) a = if a = Rg.XB_CRC_ERR z then ctr d a + 1 else ctr d a := by
  unfold badFlit
  dsimp only
  split <;> (by_cases h : a = Rg.XB_CRC_ERR z <;> simp [ctr_bump, h])

theorem out_badFlit (d : Dev) (z : Nat) (up : Bool) (seq : Nat) (sent got : List (BitVec 40)) : (badFlit d z up seq sent got).out = d.out := by
  unfold badFlit
  dsimp only
  split <;> rfl

theorem dirOf_replayFlit (d : Dev) (z : Nat) (up : Bool) (seq : Nat) :
    dirOf (lnk (replayFlit d z up seq) z) up = { dirOf (lnk d z) up with fails := (dirOf (lnk d z) up).fails + 1, replay := true } := by
  simp [replayFlit]

end Sys2Proof.Machine
end

section
/-!
The return of an isolated zone (R393, R394, R432), the comparison of replays (R374), and O30.
-/

namespace Sys2Proof.Machine
open Sys2Proof Sys2Proof.Terms

variable {d e : Dev} {s : State} {z : Zone} {up : Bool} {seq ack : Nat} {sent bits : List (BitVec 40)}

/-! ## Edges latched in a zone -/

/-- Every source is pending, and keeps an edge in its isolated zone, as before. -/
def SameLatch (d e : Dev) : Prop := ∀ n, (src e n).pending = (src d n).pending ∧ (src e n).isoPending = (src d n).isoPending

theorem SameLatch.refl (d : Dev) : SameLatch d d := fun _ => ⟨rfl, rfl⟩
theorem SameLatch.trans {f : Dev} (h : SameLatch d e) (g : SameLatch e f) : SameLatch d f :=
  fun n => ⟨(g n).1.trans (h n).1, (g n).2.trans (h n).2⟩
theorem SameLatch.modSrc (h : SameLatch d e) (n : Nat) {f : Src → Src} (hf : ∀ x, (f x).pending = x.pending ∧ (f x).isoPending = x.isoPending) :
    SameLatch d (modSrc e n f) := by
  refine h.trans fun k => ?_
  rw [src_modSrc]
  split
  next hk => rw [hk]; exact hf _
  next => exact ⟨rfl, rfl⟩
theorem SameLatch.modGroup (h : SameLatch d e) (n : Nat) (f : CoGroup → CoGroup) : SameLatch d (modGroup e n f) := h
theorem SameLatch.releaseGroup (h : SameLatch d e) (g : Nat) : SameLatch d (releaseGroup e g) := by
  have hfold : ∀ (l : List Nat) (e : Dev), SameLatch d e →
      SameLatch d (l.foldl (fun d n => Machine.modSrc d n (fun s => { s with held := false, released := true })) e) := by
    intro l
    induction l with
    | nil => exact fun e h => h
    | cons n l ih => exact fun e h => ih _ (h.modSrc n fun _ => ⟨rfl, rfl⟩)
  exact (hfold _ e h).modGroup _ _
theorem SameLatch.ite {c : Prop} [Decidable c] {x y : Dev} (h : SameLatch d x) (g : SameLatch d y) : SameLatch d (if c then x else y) := by
  split <;> assumption
/-- Coalescing holds and releases sources; none becomes pending by it. -/
theorem SameLatch.coalesce (h : SameLatch d e) (n : Nat) (edge : Bool) : SameLatch d (coalesce e n edge) := by
  unfold Machine.coalesce
  dsimp only
  generalize hf : (if groupTimedOut e _ = true then Machine.releaseGroup e _ else e) = f
  have hrel : SameLatch d f := by
    rw [← hf]
    exact .ite (h.releaseGroup _) h
  split
  · split
    · split
      · exact hrel.modGroup _ _
      · exact hrel
    · split
      · exact hrel
      · split
        · exact hrel
        · refine (SameLatch.modSrc hrel n ?_).modGroup _ _
          exact fun _ => ⟨rfl, rfl⟩
  · exact h

/-- The edge latched for source `n` has become pending. -/
def Delivered (d : Dev) (n : Nat) : Prop := (src d n).pending = true ∧ (src d n).isoPending = false

theorem SameLatch.delivered (h : SameLatch d e) {n : Nat} (hn : Delivered d n) : Delivered e n := by
  obtain ⟨h1, h2⟩ := h n
  exact ⟨h1.trans hn.1, h2.trans hn.2⟩

/-- One source of the zone delivers the edge that it keeps. -/
def deliverSource (d : Dev) (n : Nat) : Dev :=
  if !(src d n).isoPending then d
  else
    coalesce (modSrc d n (fun x => { x with
      isoPending := false, isoCount := 0, pending := true
      count := if 255 < x.count.toNat + x.isoCount.toNat then 255 else x.count + x.isoCount })) n true

theorem deliverLatched_eq (d : Dev) (z : Nat) :
    deliverLatched d z = (List.range 96).foldl (fun d i => deliverSource d (128 + 96 * z + i)) d := rfl

theorem delivered_deliverSource {n : Nat} (h : (src d n).isoPending = true) : Delivered (deliverSource d n) n := by
  unfold deliverSource
  rw [h]
  exact ((SameLatch.refl _).coalesce n true).delivered (by simp [Delivered])

/-- What another source delivers leaves a source alone. -/
theorem deliverSource_ne {n k : Nat} (h : k ≠ n) :
    (src (deliverSource d n) k).pending = (src d k).pending ∧ (src (deliverSource d n) k).isoPending = (src d k).isoPending := by
  unfold deliverSource
  split
  · exact ⟨rfl, rfl⟩
  · obtain ⟨h1, h2⟩ := (SameLatch.refl _).coalesce n true k
    refine ⟨h1.trans ?_, h2.trans ?_⟩ <;> rw [src_modSrc, if_neg h]

theorem Delivered.deliverSource {n : Nat} (h : Delivered d n) (k : Nat) : Delivered (deliverSource d k) n := by
  by_cases hk : n = k
  · subst hk
    unfold Machine.deliverSource
    simpa [h.2] using h
  · obtain ⟨h1, h2⟩ := deliverSource_ne (d := d) hk
    exact ⟨h1.trans h.1, h2.trans h.2⟩

/-- Every source of a list that keeps an edge has delivered it once the whole list has. -/
theorem delivered_foldl (f : Nat → Nat) (l : List Nat) {i : Nat} (hi : i ∈ l) (h : (src d (f i)).isoPending = true ∨ Delivered d (f i)) :
    Delivered (l.foldl (fun d i => deliverSource d (f i)) d) (f i) := by
  have hkeep : ∀ (l : List Nat) (d : Dev), Delivered d (f i) → Delivered (l.foldl (fun d i => deliverSource d (f i)) d) (f i) := by
    intro l
    induction l with
    | nil => exact fun d h => h
    | cons k l ih => exact fun d h => ih _ (h.deliverSource (f k))
  induction l generalizing d with
  | nil => cases hi
  | cons k l ih =>
    rw [List.foldl_cons]
    by_cases hk : f i = f k
    · refine hkeep l _ ?_
      rcases h with h | h
      · rw [hk]; exact delivered_deliverSource (hk ▸ h)
      · exact h.deliverSource _
    · have hmem : i ∈ l := (List.mem_cons.mp hi).resolve_left fun h => hk (by rw [h])
      refine ih hmem (h.imp (fun h => ?_) fun h => h.deliverSource _)
      rwa [(deliverSource_ne hk).2]

theorem delivered_deliverLatched {i : Nat} (hi : i < 96) (h : (src d (128 + 96 * z.val + i)).isoPending = true) :
    Delivered (deliverLatched d z) (128 + 96 * z.val + i) :=
  delivered_foldl (fun i => 128 + 96 * z.val + i) (List.range 96) (List.mem_range.mpr hi) (.inl h)

theorem deliverLatched_shape (d : Dev) (z : Nat) : ∃ i, deliverLatched d z = { d with ic := i } := by
  have hstep : ∀ (d : Dev) (n : Nat), ∃ i, deliverSource d n = { d with ic := i } := by
    intro d n
    unfold deliverSource
    split
    · exact ⟨_, rfl⟩
    · obtain ⟨i, hi⟩ := coalesce_shape (modSrc d n _) n true
      exact ⟨i, by rw [hi]; rfl⟩
  rw [deliverLatched_eq]
  generalize List.range 96 = l
  induction l generalizing d with
  | nil => exact ⟨_, rfl⟩
  | cons k l ih =>
    obtain ⟨i, hi⟩ := hstep d (128 + 96 * z + k)
    obtain ⟨j, hj⟩ := ih (d := { d with ic := i })
    exact ⟨j, by rw [List.foldl_cons, hi, hj]⟩

/-- An edge on a source of the hub leaves every other source's latch, and what it is pending for. -/
theorem Delivered.edgeOn {n k : Nat} (h : Delivered d n) (hk : k < 128) (hn : 128 ≤ n) : Delivered (edgeOn d k) n := by
  have hne : n ≠ k := by omega
  have hmod (e : Dev) (he : Delivered e n) (f : Src → Src) : Delivered (modSrc e k f) n := by
    rwa [Delivered, src_modSrc, if_neg hne]
  unfold Machine.edgeOn
  rw [show srcPlace k = 0 by simp [srcPlace, hk]]
  simp only [bne_self_eq_false, Bool.false_and, Bool.false_eq_true, if_false]
  split
  · split
    · exact hmod d h _
    · exact hmod d h _
  · exact ((SameLatch.refl _).coalesce k true).delivered (hmod d h _)

theorem pageId_baseTB : pageId (Rg.pageOf Rg.baseTB) = some ⟨4, 0, 0, 0⟩ := by decide

theorem Delivered.raiseTb {n : Nat} (h : Delivered d n) (hn : 128 ≤ n) : Delivered (raise d (Rg.pageOf Rg.baseTB) 3) n := by
  unfold Machine.raise
  rw [pageId_baseTB]
  dsimp only
  rw [show pageEvents ⟨4, 0, 0, 0⟩ = some (32, 4) from rfl]
  dsimp only
  rw [if_neg (by decide : ¬(4 : Nat) = 0x26)]
  split
  · exact h
  · split
    · exact h
    · exact Delivered.edgeOn (d := modPage d _ _) h (by decide) hn

/-- Spill mode is a matter of the VOQs alone. -/
theorem watchSpill_shape (d : Dev) (z : Nat) : ∃ v, watchSpill d z = { d with urn := { d.urn with voqs := v } } := by
  unfold watchSpill
  generalize zoneVoqs d z = l
  induction l generalizing d with
  | nil => exact ⟨_, rfl⟩
  | cons e l ih =>
    rw [List.foldl_cons]
    dsimp only
    split
    · obtain ⟨v, hv⟩ := ih (modVoq d z (e.1 % 2048) (fun q => { q with spill := true, chain := [], pages := 0 }))
      exact ⟨v, by rw [hv]; rfl⟩
    · exact ih d

/-- The link of a zone that returns: UP, and its replicas are rebuilt. -/
def returnedLink (l : Link) : Link :=
  { l with
    state := 3, isolated := false, rebuilding := true
    up := { l.up with fails := 0, replay := false, failed := [] }
    down := { l.down with fails := 0, replay := false, failed := [] } }
/-- A zone that returns, before its latched edges are delivered. -/
def linkBack (d : Dev) (z : Nat) : Dev :=
  let e := modLink d z returnedLink
  { e with ket := { e.ket with ztb := tset (fun _ => none) e.ket.ztb z none, kept := tset (fun _ => none) e.ket.kept z none } }

theorem lnk_linkBack (d : Dev) (z : Nat) : lnk (linkBack d z) z = returnedLink (lnk d z) := lnk_modLink_same d z returnedLink

theorem linkReturn_isolated (h : isolated d z = true) :
    linkReturn d z = watchSpill (raise (deliverLatched (linkBack d z) z) (Rg.pageOf Rg.baseTB) 3) z := by
  simp only [linkReturn, h, if_true, linkBack]
  rfl

/-- A zone that returns is UP and no longer isolated, its replicas are rebuilt, and the edges latched in it are pending. -/
theorem linkReturn_spec (h : isolated d z = true) :
    lnk (linkReturn d z) z = returnedLink (lnk d z) ∧
      ∀ i, i < 96 → (src d (128 + 96 * z.val + i)).isoPending = true → Delivered (linkReturn d z) (128 + 96 * z.val + i) := by
  rw [linkReturn_isolated h]
  obtain ⟨v, hv⟩ := watchSpill_shape (raise (deliverLatched (linkBack d z) z) (Rg.pageOf Rg.baseTB) 3) z
  obtain ⟨p, i, k, hr⟩ := raise_shape (deliverLatched (linkBack d z) z) (Rg.pageOf Rg.baseTB) 3
  obtain ⟨j, hl⟩ := deliverLatched_shape (linkBack d z) z
  refine ⟨by rw [← lnk_linkBack, hv, hr, hl]; rfl, fun i hi hp => ?_⟩
  have hd : Delivered (raise (deliverLatched (linkBack d z) z) (Rg.pageOf Rg.baseTB) 3) (128 + 96 * z.val + i) :=
    (delivered_deliverLatched (d := linkBack d z) hi hp).raiseTb (by omega)
  rw [hv]
  exact hd

/-! ## Replays compared (R374) -/

/-- Faults noted one after another wait in their order. -/
theorem foldl_noteFault (f : Nat → Nat) (l : List Nat) (d : Dev) :
    l.foldl (fun d i => noteFault d (f i) false) d = modRas d (fun r => { r with todo := r.todo ++ l.map (fun i => (f i, false)) }) := by
  induction l generalizing d with
  | nil => simp [modRas]
  | cons i l ih => rw [List.foldl_cons, ih]; simp [noteFault, modRas]

theorem exec_replayAttribution {a b : List (BitVec 40)} {rest : List (List (BitVec 40) × List (BitVec 40))}
    (h : (dirOf (lnk s.dev z) up).pairs = (a, b) :: rest) :
    Machine.exec (.replayAttribution z up) s = .next { s with dev := settle (modDir (modRas s.dev (fun r => { r with
      todo := r.todo ++ ((List.range 512).filter (fun i => a.getD i 0 != b.getD i 0)).map
        (fun i => (linkChan z up (physLane (dirOf (lnk s.dev z) up) i), false)) })) z up (fun x => { x with pairs := rest })) } := by
  show execReplayAttribution z up s = _
  simp only [execReplayAttribution, State.onDevF, State.onDev, h,
    foldl_noteFault (fun i => linkChan z up (physLane (dirOf (lnk s.dev z) up) i))]

end Sys2Proof.Machine
end

section
/-!
O30: the commands of a link (R17, R20 to R23, R392 to R394) and the statement from its parts.
-/

namespace Sys2Proof.Machine
open Sys2Proof Sys2Proof.Terms

variable {d : Dev} {s : State} {z : Zone} {m : Master} {up : Bool} {seq ack : Nat} {sent bits : List (BitVec 40)}

@[simp] theorem ctr_emit (d : Dev) (o : Out) (a : Nat) : ctr (emit d o) a = ctr d a := rfl
@[simp] theorem out_bump (d : Dev) (a n : Nat) : (bump d a n).out = d.out := rfl

/-! ## Isolation, retraining, return -/

theorem isolateZone_isolated (h : isolated d z = true) : isolateZone d z = d := by rw [isolateZone, if_pos h]

theorem exec_retrain (h : Admits s.dev (Rg.pageOf (Rg.XB_LINK_CTRL z)) m) :
    Machine.exec (.retrain z m) s = .next { s with dev := linkRetrain s.dev z } := by
  show execRetrain z m s = _
  simp only [execRetrain, State.onDev, guardWrite_ok h]
theorem exec_isolate (on : Bool) (h : Admits s.dev (Rg.pageOf (Rg.XB_LINK_CTRL z)) m) :
    Machine.exec (.isolate z m on) s = .next { s with dev := linkIsolate s.dev z on } := by
  show execIsolate z m on s = _
  simp only [execIsolate, State.onDev, guardWrite_ok h]

theorem lnk_linkRetrain (d : Dev) (z : Nat) : (lnk (linkRetrain d z) z).state = 1 ∧ (lnk (linkRetrain d z) z).tried = nowNs d := by
  simp [linkRetrain]
/-- A zone that is isolated already only has its link trained. -/
theorem linkRetrain_isolated (h : isolated d z = true) : linkRetrain d z = modLink d z (fun l => { l with state := 1, tried := nowNs d }) := by
  rw [linkRetrain, isolateZone_isolated h]

theorem linkIsolate_on (d : Dev) (z : Nat) : linkIsolate d z true =
    modLink (isolateZone (wf d (Rg.XB_LINK_CTRL z) Fl.XB_LINK_CTRL_ISOLATE 1) z) z (fun l => { l with state := 4 }) := rfl
theorem linkIsolate_off (h : rb d (Rg.XB_LINK_CTRL z) Fl.XB_LINK_CTRL_ISOLATE = true) :
    linkIsolate d z false = linkRetrain (wf d (Rg.XB_LINK_CTRL z) Fl.XB_LINK_CTRL_ISOLATE 0) z := by
  simp [linkIsolate, h, b2n]

/-- ISOLATE set on a zone that is isolated: its link's state, and the bit. -/
theorem linkIsolate_on_isolated (h : isolated d z = true) :
    let u := linkIsolate d z true
    rb u (Rg.XB_LINK_CTRL z) Fl.XB_LINK_CTRL_ISOLATE = true ∧ lnk u z = { lnk d z with state := 4 } ∧
      (∀ y, y ≠ z.val → lnk u y = lnk d y) ∧ ∀ a, a ≠ Rg.XB_LINK_CTRL z → rd u a = rd d a := by
  have hiso : isolated (wf d (Rg.XB_LINK_CTRL z) Fl.XB_LINK_CTRL_ISOLATE 1) z = true := h
  rw [linkIsolate_on, isolateZone_isolated hiso]
  refine ⟨?_, ?_, fun y hy => ?_, fun a ha => ?_⟩
  · rw [rb_congr (rd_modLink _ _ _ _)]
    exact rb_wf_same d _ true (by decide) rfl
  · rw [lnk_modLink_same, lnk_wf]
  · rw [lnk_modLink, if_neg hy, lnk_wf]
  · rw [rd_modLink, rd_wf_ne _ _ _ ha]

/-- ISOLATE cleared on a zone that is isolated: its link trains. -/
theorem linkIsolate_off_isolated (h : isolated d z = true) (hb : rb d (Rg.XB_LINK_CTRL z) Fl.XB_LINK_CTRL_ISOLATE = true) :
    let u := linkIsolate d z false
    rb u (Rg.XB_LINK_CTRL z) Fl.XB_LINK_CTRL_ISOLATE = false ∧ lnk u z = { lnk d z with state := 1, tried := nowNs d } ∧
      ∀ a, a ≠ Rg.XB_LINK_CTRL z → rd u a = rd d a := by
  have hiso : isolated (wf d (Rg.XB_LINK_CTRL z) Fl.XB_LINK_CTRL_ISOLATE 0) z = true := h
  rw [linkIsolate_off hb, linkRetrain_isolated hiso]
  refine ⟨?_, ?_, fun a ha => ?_⟩
  · rw [rb_congr (rd_modLink _ _ _ _)]
    exact rb_wf_same d _ false (by decide) rfl
  · rw [lnk_modLink_same, lnk_wf, nowNs_wf]
  · rw [rd_modLink, rd_wf_ne _ _ _ ha]

theorem exec_zoneIsolate (cause : Nat) : Machine.exec (.zoneIsolate z cause) s = .next { s with
    dev := if isoCause s.dev z cause then modLink (isolateZone s.dev z) z (fun l => { l with state := 4 }) else s.dev } := rfl

/-- The causes that a test of the link meets: ISOLATE, or a direction that is too narrow. -/
theorem isoCause_test : (isoCause d z 3 || isoCause d z 2) = true ↔
    rb d (Rg.XB_LINK_CTRL z) Fl.XB_LINK_CTRL_ISOLATE = true ∨ dirLanes (lnk d z).up < 256 ∨ dirLanes (lnk d z).down < 256 := by
  simp [isoCause]

/-- 1 ms of the link's test is over. -/
def TestOver (d : Dev) (z : Nat) : Prop := (lnk d z).state = 2 ∧ 1000000 ≤ elapsed (nowNs d) (lnk d z).prbs

theorem exec_linkPrbsPass_early (h : ¬ TestOver s.dev z) : Machine.exec (.linkPrbsPass z) s = .next s := by
  show execLinkPrbsPass z s = _
  have hc : ((lnk s.dev z).state == 2 && decide (1000000 ≤ elapsed (nowNs s.dev) (lnk s.dev z).prbs)) = false := by
    simpa [TestOver] using h
  simp [execLinkPrbsPass, State.onDev, hc]
theorem exec_linkPrbsPass_fails (h : TestOver s.dev z) (hc : (isoCause s.dev z 3 || isoCause s.dev z 2) = true) :
    Machine.exec (.linkPrbsPass z) s = .next { s with dev := modLink (isolateZone s.dev z) z (fun l => { l with state := 4 }) } := by
  show execLinkPrbsPass z s = _
  simp [execLinkPrbsPass, State.onDev, h.1, h.2, hc]
theorem exec_linkPrbsPass_passes (h : TestOver s.dev z) (hc : (isoCause s.dev z 3 || isoCause s.dev z 2) = false) :
    Machine.exec (.linkPrbsPass z) s = .next { s with dev := linkReturn s.dev z } := by
  show execLinkPrbsPass z s = _
  simp [execLinkPrbsPass, State.onDev, h.1, h.2, hc]

theorem exec_linkRetry_due (hiso : isolated s.dev z = true) (h1 : (lnk s.dev z).state ≠ 1) (h2 : (lnk s.dev z).state ≠ 2)
    (hb : rb s.dev (Rg.XB_LINK_CTRL z) Fl.XB_LINK_CTRL_ISOLATE = false)
    (hp : rf s.dev Rg.RAS_LINK_RETRY Fl.RAS_LINK_RETRY_PERIOD_MS * 1000000 ≠ 0)
    (ht : rf s.dev Rg.RAS_LINK_RETRY Fl.RAS_LINK_RETRY_PERIOD_MS * 1000000 ≤ elapsed (nowNs s.dev) (lnk s.dev z).tried) :
    Machine.exec (.linkRetry z) s = .next { s with dev := modLink s.dev z (fun l => { l with state := 1, tried := nowNs s.dev }) } := by
  show execLinkRetry z s = _
  have hp' : rf s.dev Rg.RAS_LINK_RETRY Fl.RAS_LINK_RETRY_PERIOD_MS ≠ 0 := fun h => hp (by rw [h])
  simp [execLinkRetry, State.onDev, hiso, h1, h2, hb, hp', ht]
theorem exec_linkRetry_held (hb : rb s.dev (Rg.XB_LINK_CTRL z) Fl.XB_LINK_CTRL_ISOLATE = true) :
    Machine.exec (.linkRetry z) s = .next s := by
  show execLinkRetry z s = _
  simp [execLinkRetry, State.onDev, hb]

/-! ## Flits -/

/-- A good flit in turn is delivered, and acknowledges the flits of the other direction. -/
theorem goodFlit_delivered (d : Dev) (z : Nat) (up : Bool) (seq ack : Nat) (sent : List (BitVec 40)) :
    let x := dirOf (lnk d z) up
    let e := modDir (goodFlit d z up seq ack sent) z up (fun x => deliverFlit x seq sent)
    (∃ b, dirOf (lnk e z) up = deliverFlit { x with buf := b } seq sent) ∧
      dirOf (lnk e z) (!up) = ackFlits (dirOf (lnk d z) (!up)) ack ∧ (lnk e z).state = (lnk d z).state ∧
      ∀ y, y ≠ z → lnk e y = lnk d y := by
  intro x e
  obtain ⟨b, hb⟩ := sentFlit_shape x seq sent
  refine ⟨⟨b, ?_⟩, ?_, ?_, fun y hy => ?_⟩
  · simp [e, goodFlit, ← hb, x]
  · simp [e, goodFlit]
  · simp [e, goodFlit]
  · simp [e, goodFlit, lnk_modDir_ne _ _ _ hy]

/-- A good flit out of turn leaves the direction's count and its turn. -/
theorem dirOf_goodFlit (d : Dev) (z : Nat) (up : Bool) (seq ack : Nat) (sent : List (BitVec 40)) :
    ∃ b, dirOf (lnk (goodFlit d z up seq ack sent) z) up = { dirOf (lnk d z) up with buf := b } := by
  obtain ⟨b, hb⟩ := sentFlit_shape (dirOf (lnk d z) up) seq sent
  exact ⟨b, by simp [goodFlit, hb]⟩

/-- The flit in turn that failed: the counters, the direction and what is sent again. -/
theorem replayFlit_badFlit (d : Dev) (z : Zone) (up : Bool) (seq : Nat) (sent bits : List (BitVec 40))
    (hbuf : ∀ e ∈ (dirOf (lnk d z) up).buf, e.1 = seq → e.2 = sent) (hseq : seq = (dirOf (lnk d z) up).next) :
    let x := dirOf (lnk d z) up
    let e := replayFlit (badFlit d z up seq sent bits) z up seq
    (∃ b, dirOf (lnk e z) up = { x with buf := b, fails := x.fails + 1, replay := true, failed := x.failed ++ [(seq, bits)] } ∧
      (seq, sent) ∈ b) ∧
      e.out = d.out ++ [.replay z up seq (((dirOf (lnk e z) up).buf.filter (fun e => decide (seq ≤ e.1))).map (·.2))] ∧
      ctr e (Rg.XB_CRC_ERR z) = ctr d (Rg.XB_CRC_ERR z) + 1 ∧ ctr e (Rg.XB_REPLAY_CNT z) = ctr d (Rg.XB_REPLAY_CNT z) + 1 ∧
      (lnk e z).state = (lnk d z).state ∧ (lnk e z).isolated = (lnk d z).isolated := by
  intro x e
  have hne : Rg.XB_CRC_ERR z ≠ Rg.XB_REPLAY_CNT z := by simp [Rg.XB_CRC_ERR, Rg.XB_REPLAY_CNT]
  obtain ⟨b, hb⟩ := sentFlit_shape x seq sent
  obtain ⟨hst, hiso⟩ := state_badFlit d z up seq sent bits
  refine ⟨⟨b, ?_, ?_⟩, ?_, ?_, ?_, ?_, ?_⟩
  · have hle : x.next ≤ seq := hseq.ge
    simp only [e, dirOf_replayFlit, dirOf_badFlit, hb, x, if_pos hle]
  · have hmem : (seq, sent) ∈ (sentFlit x seq sent).buf := mem_sentFlit hbuf
    rwa [hb] at hmem
  · simp [e, replayFlit, out_badFlit]
  · simp [e, replayFlit, ctr_bump_ne _ _ hne, ctr_badFlit]
  · simp [e, replayFlit, ctr_badFlit, hne.symm]
  · simp [e, replayFlit, hst]
  · simp [e, replayFlit, hiso]

/-! ## O30 -/

/-- R16, R19, R392: a flit that the link carries, by its CRC and its turn. -/
theorem exec_flitReceive_spec (hup : (lnk s.dev z).state = 3) (hsent : sent.length = 512) (hbits : bits.length = 512)
    (hbuf : ∀ e ∈ (dirOf (lnk s.dev z) up).buf, e.1 = seq → e.2 = sent) :
    let l := lnk s.dev z
    let x := dirOf l up
    (bits = sent → seq = x.next →
      ∃ u k, Machine.exec (.flitReceive z up ⟨seq, ack⟩ ⟨sent, bits⟩ true) s = .next u ∧ u = { s with dev := { s.dev with link := k } } ∧
      (dirOf (lnk u.dev z) up).next = x.next + 1 ∧ (dirOf (lnk u.dev z) up).delivered = x.delivered + 1 ∧
      (dirOf (lnk u.dev z) up).replay = false ∧ (dirOf (lnk u.dev z) up).fails = 0 ∧
      (dirOf (lnk u.dev z) up).pairs = x.pairs ++ (x.failed.filter (fun e => decide (e.1 = seq))).map (fun e => (e.2, sent)) ∧
      (dirOf (lnk u.dev z) up).failed = x.failed.filter (fun e => decide (e.1 ≠ seq)) ∧
      (dirOf (lnk u.dev z) (!up)).buf = (dirOf l (!up)).buf.filter (fun e => decide (ack ≤ e.1 ∨ (dirOf l (!up)).next ≤ e.1)) ∧
      (dirOf (lnk u.dev z) (!up)).delivered = (dirOf l (!up)).delivered ∧ (lnk u.dev z).state = 3 ∧
      ∀ y, y ≠ z.val → lnk u.dev y = lnk s.dev y) ∧
    (bits = sent → seq ≠ x.next → ∃ u k, Machine.exec (.flitReceive z up ⟨seq, ack⟩ ⟨sent, bits⟩ true) s = .next u ∧
      u = { s with dev := { s.dev with link := k } } ∧ (dirOf (lnk u.dev z) up).next = x.next ∧
      (dirOf (lnk u.dev z) up).delivered = x.delivered ∧ (dirOf (lnk u.dev z) up).fails = x.fails) ∧
    (seq ≠ x.next → ∃ u, Machine.exec (.flitReceive z up ⟨seq, ack⟩ ⟨sent, bits⟩ false) s = .next u ∧
      ctr u.dev (Rg.XB_CRC_ERR z) = ctr s.dev (Rg.XB_CRC_ERR z) + 1 ∧ u.dev.out = s.dev.out ∧ (lnk u.dev z).state = 3 ∧
      (dirOf (lnk u.dev z) up).next = x.next ∧ (dirOf (lnk u.dev z) up).fails = x.fails ∧
      (dirOf (lnk u.dev z) up).failed = x.failed ++ (if x.next ≤ seq then [(seq, bits)] else [])) ∧
    (seq = x.next → x.fails < 8 → ∃ u, Machine.exec (.flitReceive z up ⟨seq, ack⟩ ⟨sent, bits⟩ false) s = .next u ∧ u.mem = s.mem ∧
      u.dev.out = s.dev.out ++ [.replay z up seq (((dirOf (lnk u.dev z) up).buf.filter (fun e => decide (seq ≤ e.1))).map (·.2))] ∧
      (seq, sent) ∈ (dirOf (lnk u.dev z) up).buf ∧
      ctr u.dev (Rg.XB_CRC_ERR z) = ctr s.dev (Rg.XB_CRC_ERR z) + 1 ∧ ctr u.dev (Rg.XB_REPLAY_CNT z) = ctr s.dev (Rg.XB_REPLAY_CNT z) + 1 ∧
      (dirOf (lnk u.dev z) up).next = x.next ∧ (dirOf (lnk u.dev z) up).delivered = x.delivered ∧
      (dirOf (lnk u.dev z) up).replay = true ∧ (dirOf (lnk u.dev z) up).fails = x.fails + 1 ∧
      (dirOf (lnk u.dev z) up).failed = x.failed ++ [(seq, bits)] ∧ (lnk u.dev z).state = 3) ∧
    (seq = x.next → 8 ≤ x.fails → ∃ d, Machine.exec (.flitReceive z up ⟨seq, ack⟩ ⟨sent, bits⟩ false) s = .next { s with dev := isolateZone d z } ∧
      (dirOf (lnk d z) up).fails = x.fails + 1 ∧ (lnk d z).isolated = l.isolated) := by
  intro l x
  have hok (ok : Bool) (h : ok = true → bits = sent) : flitOk x seq sent bits ok = true := flitOk_iff.mpr ⟨hsent, hbits, hbuf, h⟩
  refine ⟨fun hb hseq => ?_, fun hb hseq => ?_, fun hseq => ?_, fun hseq hf => ?_, fun hseq hf => ?_⟩
  · have hex := exec_flitReceive_good (ack := ack) hup (hok true fun _ => hb)
    rw [if_pos hseq] at hex
    obtain ⟨⟨b, hx⟩, hy, hst, hne⟩ := goodFlit_delivered s.dev z up seq ack sent
    refine ⟨_, _, hex, rfl, ?_⟩
    dsimp only
    rw [hx, hy, hst]
    refine ⟨rfl, rfl, rfl, rfl, ?_, ?_, ?_, rfl, hup, hne⟩
    · simp [deliverFlit, x, l, beq_eq_decide]
    · simp [deliverFlit, x, l, beq_eq_decide, bne]
    · simp [ackFlits, l]
  · have hex := exec_flitReceive_good (ack := ack) hup (hok true fun _ => hb)
    rw [if_neg hseq] at hex
    obtain ⟨b, hx⟩ := dirOf_goodFlit s.dev z up seq ack sent
    refine ⟨_, _, hex, rfl, ?_⟩
    dsimp only
    rw [hx]
    exact ⟨rfl, rfl, rfl⟩
  · obtain ⟨b, hb⟩ := sentFlit_shape x seq sent
    refine ⟨_, exec_flitReceive_bad hup (hok false nofun) hseq, ?_, out_badFlit .., ?_, ?_⟩
    · rw [ctr_badFlit, if_pos rfl]
    · exact (state_badFlit ..).1.trans hup
    · dsimp only
      rw [dirOf_badFlit, show sentFlit (dirOf (lnk s.dev z) up) seq sent = _ from hb]
      exact ⟨rfl, rfl, rfl⟩
  · obtain ⟨⟨b, hx, hmem⟩, hout, hcrc, hrep, hst, -⟩ := replayFlit_badFlit s.dev z up seq sent bits hbuf hseq
    have hex := exec_flitReceive_replayed (ack := ack) hup (hok false nofun) hseq
    dsimp only at hex
    rw [hx, if_neg (by simpa using hf)] at hex
    refine ⟨_, hex, rfl, hout, ?_⟩
    dsimp only
    rw [hx, hst]
    exact ⟨hmem, hcrc, hrep, rfl, rfl, rfl, rfl, rfl, hup⟩
  · obtain ⟨⟨b, hx, -⟩, -, -, -, -, hiso⟩ := replayFlit_badFlit s.dev z up seq sent bits hbuf hseq
    have hex := exec_flitReceive_replayed (ack := ack) hup (hok false nofun) hseq
    dsimp only at hex
    rw [hx, if_pos (by simpa using hf)] at hex
    refine ⟨_, hex, ?_, hiso⟩
    rw [hx]

/-- Settles O30: each clause is the rule of its command. -/
theorem linksDeliverInOrderAndRetrain : Obligations.LinksDeliverInOrderAndRetrain := by
  unfold Obligations.LinksDeliverInOrderAndRetrain
  intro s z l ctl
  refine ⟨fun up ok seq ack sent bits h => exec_flitReceive_ignored h, ?_, ?_, ?_, ?_, ?_, ?_, ?_, ?_, ?_, ?_, ?_⟩
  · exact fun up seq ack sent bits hup hsent hbits hbuf => exec_flitReceive_spec hup hsent hbits hbuf
  · intro up a b rest x hp hc
    refine ⟨_, exec_replayAttribution hp, ?_, ?_⟩
    · simp [modDir, modLink, modRas, hc.1, beq_eq_decide, bne, x, l]
    · simp
  · intro m ha
    refine ⟨⟨_, exec_retrain ha, lnk_linkRetrain s.dev z⟩, ⟨_, exec_isolate true ha, ?_⟩, fun hiso => ⟨_, exec_isolate true ha, linkIsolate_on_isolated hiso⟩,
      fun hiso hb => ⟨_, exec_isolate false ha, linkIsolate_off_isolated hiso hb⟩⟩
    simp [linkIsolate_on]
  · intro cause h
    refine ⟨_, exec_zoneIsolate cause, ?_⟩
    simp [h]
  · intro cause h
    rw [exec_zoneIsolate, h]
    rfl
  · intro h2 ht hc
    refine ⟨_, exec_linkPrbsPass_fails ⟨h2, ht⟩ (isoCause_test.mpr hc), ?_⟩
    simp
  · intro h2 hiso ht hc
    have hex := exec_linkPrbsPass_fails ⟨h2, ht⟩ (isoCause_test.mpr hc)
    rw [isolateZone_isolated hiso] at hex
    exact ⟨_, _, hex, rfl, lnk_modLink_same ..⟩
  · intro h2 hiso ht hb hup hdown
    have hc : (isoCause s.dev z 3 || isoCause s.dev z 2) = false := by
      rw [← Bool.not_eq_true, isoCause_test]
      rintro (h | h | h)
      · exact Bool.false_ne_true (hb.symm.trans h)
      · exact absurd h (Nat.not_lt.mpr hup)
      · exact absurd h (Nat.not_lt.mpr hdown)
    obtain ⟨hlnk, hlatch⟩ := linkReturn_spec (z := z) hiso
    refine ⟨_, exec_linkPrbsPass_passes ⟨h2, ht⟩ hc, ?_⟩
    dsimp only
    rw [isolated, hlnk]
    exact ⟨rfl, rfl, rfl, hlatch⟩
  · intro h
    refine exec_linkPrbsPass_early fun ⟨h2, ht⟩ => ?_
    exact h.elim (fun h => h h2) fun h => absurd ht (Nat.not_le.mpr h)
  · intro p hiso h1 h2 hb hp ht
    exact ⟨_, _, exec_linkRetry_due hiso h1 h2 hb hp ht, rfl, lnk_modLink_same ..⟩
  · exact exec_linkRetry_held

end Sys2Proof.Machine
end

section
/-!
What a checked access of an on-die memory leaves unchanged (R373, R377 to R379): it changes memory words, fault records, page headers, event
sources, the wake time and the counters of the RAS pages, nothing else.
-/

namespace Sys2Proof.Machine
open Sys2Proof

variable {d e : Dev}

@[simp] theorem egr_bump (d : Dev) (a n : Nat) : (bump d a n).egr = d.egr := rfl
@[simp] theorem urn_bump (d : Dev) (a n : Nat) : (bump d a n).urn = d.urn := rfl
@[simp] theorem hif_bump (d : Dev) (a n : Nat) : (bump d a n).hif = d.hif := rfl
@[simp] theorem egr_wf (d : Dev) (a : Nat) (f : Fld) (x : Nat) : (wf d a f x).egr = d.egr := rfl
@[simp] theorem urn_wf (d : Dev) (a : Nat) (f : Fld) (x : Nat) : (wf d a f x).urn = d.urn := rfl
@[simp] theorem hif_wf (d : Dev) (a : Nat) (f : Fld) (x : Nat) : (wf d a f x).hif = d.hif := rfl
@[simp] theorem out_wf (d : Dev) (a : Nat) (f : Fld) (x : Nat) : (wf d a f x).out = d.out := rfl
@[simp] theorem ras_wf (d : Dev) (a : Nat) (f : Fld) (x : Nat) : (wf d a f x).ras = d.ras := rfl
@[simp] theorem tel_wf (d : Dev) (a : Nat) (f : Fld) (x : Nat) : (wf d a f x).tel = d.tel := rfl
@[simp] theorem egr_raise (d : Dev) (p n : Nat) : (raise d p n).egr = d.egr := by obtain ⟨_, _, _, h⟩ := raise_shape d p n; rw [h]
@[simp] theorem urn_raise (d : Dev) (p n : Nat) : (raise d p n).urn = d.urn := by obtain ⟨_, _, _, h⟩ := raise_shape d p n; rw [h]
@[simp] theorem hif_raise (d : Dev) (p n : Nat) : (raise d p n).hif = d.hif := by obtain ⟨_, _, _, h⟩ := raise_shape d p n; rw [h]
@[simp] theorem out_raise (d : Dev) (p n : Nat) : (raise d p n).out = d.out := by obtain ⟨_, _, _, h⟩ := raise_shape d p n; rw [h]
@[simp] theorem ras_raise (d : Dev) (p n : Nat) : (raise d p n).ras = d.ras := by obtain ⟨_, _, _, h⟩ := raise_shape d p n; rw [h]
@[simp] theorem tel_raise (d : Dev) (p n : Nat) : (raise d p n).tel = d.tel := by obtain ⟨_, _, _, h⟩ := raise_shape d p n; rw [h]

/-- The counters of corrected and uncorrectable words and of log entries lost, of the hub and of the zones. -/
def SramCtr (a : Nat) : Prop :=
  ∃ pl, a = pwAt pl Rg.PW_UNCORR Rg.ZPW_UNCORR ∨ a = pwAt pl Rg.PW_CORRECTED Rg.ZPW_CORRECTED ∨ a = pwAt pl Rg.PW_LOG_OVERFLOW Rg.ZPW_LOG_OVERFLOW

/-- `e` is `d` after accesses of on-die memories. -/
structure SramWork (d e : Dev) : Prop where
  shape : ∃ c p i k r o, e = { d with ctrs := c, pages := p, ic := i, ket := k, ras := r, core := o }
  count : ∀ a, ¬ SramCtr a → ctr e a = ctr d a

namespace SramWork

theorem refl (d : Dev) : SramWork d d := ⟨⟨_, _, _, _, _, _, rfl⟩, fun _ _ => rfl⟩
theorem trans {f : Dev} (h : SramWork d e) (g : SramWork e f) : SramWork d f := by
  obtain ⟨⟨_, _, _, _, _, _, rfl⟩, hc⟩ := h
  obtain ⟨⟨c, p, i, k, r, o, rfl⟩, gc⟩ := g
  exact ⟨⟨c, p, i, k, r, o, rfl⟩, fun a ha => (gc a ha).trans (hc a ha)⟩
theorem ite (c : Prop) [Decidable c] {x y : Dev} (h : SramWork d x) (g : SramWork d y) : SramWork d (if c then x else y) := by
  split <;> assumption
theorem foldl {β : Type} (f : Dev → β → Dev) (hf : ∀ e x, SramWork d e → SramWork d (f e x)) (l : List β) (h : SramWork d e) :
    SramWork d (l.foldl f e) := by
  induction l generalizing e with
  | nil => exact h
  | cons x l ih => exact ih (hf e x h)
theorem bump (h : SramWork d e) {a : Nat} (ha : SramCtr a) (n : Nat) : SramWork d (bump e a n) := by
  refine h.trans ⟨⟨_, _, _, _, _, _, rfl⟩, fun b hb => ctr_bump_ne _ _ fun hba => hb (hba ▸ ha)⟩
theorem raise (h : SramWork d e) (p n : Nat) : SramWork d (raise e p n) := by
  obtain ⟨q, i, k, hr⟩ := raise_shape e p n
  exact h.trans ⟨⟨_, q, i, k, _, _, hr⟩, fun b _ => ctr_raise e p n b⟩
theorem modRas (h : SramWork d e) (f : Ras → Ras) : SramWork d (modRas e f) := h.trans ⟨⟨_, _, _, _, _, _, rfl⟩, fun _ _ => rfl⟩
theorem noteFault (h : SramWork d e) (k : Nat) (b : Bool) : SramWork d (noteFault e k b) := h.modRas _
theorem setSword (h : SramWork d e) (p n w : Nat) (x : SWord) : SramWork d (setSword e p n w x) :=
  h.trans ⟨⟨_, _, _, _, _, _, rfl⟩, fun _ _ => rfl⟩
theorem setMerges (h : SramWork d e) (p n : Nat) (l : List MergeE) : SramWork d (setMerges e p n l) :=
  h.trans ⟨⟨_, _, _, _, _, _, rfl⟩, fun _ _ => rfl⟩

theorem uncorrWord (h : SramWork d e) (p n w : Nat) (j : Bool) : SramWork d (uncorrWord e p n w j) := by
  have hb := h.bump ⟨p, .inl rfl⟩ 1
  have hr : ∀ c : Bool, SramWork d (if c then Machine.bump e (pwAt p Rg.PW_UNCORR Rg.ZPW_UNCORR) 1
      else Machine.raise (Machine.bump e (pwAt p Rg.PW_UNCORR Rg.ZPW_UNCORR) 1) (Rg.pageOf (Rg.baseZRAS (p - 1))) 0) :=
    fun c => .ite _ hb (hb.raise _ _)
  exact .ite _ (hr _) ((hr _).noteFault _ _)
theorem logInto (h : SramWork d e) (k w : Nat) (s : BitVec 8) (j : Bool) {o : Nat} (ho : SramCtr o) : SramWork d (logInto e k w s j o) := by
  unfold Machine.logInto
  dsimp only
  refine .ite _ (h.modRas _) ?_
  split
  · exact h.modRas _
  · exact .ite _ (h.modRas _) ((h.bump ho _).modRas _)
theorem logError (h : SramWork d e) (p n w : Nat) (s : BitVec 8) (j : Bool) : SramWork d (logError e p n w s j) :=
  .logInto (.ite _ (h.raise _ _) h) _ _ _ _ ⟨p, .inr (.inr rfl)⟩
theorem checkWord (h : SramWork d e) (p n w : Nat) : SramWork d (checkWord e p n w).2.2 := by
  have hfix (x : SWord) : SramWork d (Machine.bump (Machine.logError (Machine.setSword e p n w x) p n w (sword e p n w).chk (sword e p n w).inj)
      (pwAt p Rg.PW_CORRECTED Rg.ZPW_CORRECTED) 1) := ((h.setSword p n w x).logError ..).bump ⟨p, .inr (.inl rfl)⟩ 1
  unfold Machine.checkWord
  dsimp only
  split
  · exact h.uncorrWord p n w false
  split
  · exact h
  split
  · exact h.uncorrWord ..
  split
  · exact h
  split
  · exact .ite _ (hfix _) ((hfix _).noteFault _ _)
  · exact h.uncorrWord ..
theorem readWord (h : SramWork d e) (p n w : Nat) : SramWork d (readWord e p n w).2.2 := by
  unfold Machine.readWord
  split <;> exact h.checkWord ..
theorem linkWord (h : SramWork d e) (z c : Nat) (r : Bool) : SramWork d (linkWord e z c r) := h.checkWord ..
theorem checkCell (h : SramWork d e) (z c n : Nat) : SramWork d (checkCell e z c n) :=
  .foldl _ (fun _ _ hx => hx.checkWord ..) _ (h.linkWord ..)
theorem readFrame (h : SramWork d e) (x : W32) (n : Nat) : SramWork d (readFrame e x n) := by
  unfold Machine.readFrame
  split
  · exact h
  · exact .foldl _ (fun _ _ hx => hx.checkCell ..) _ (h.linkWord ..)
theorem readEdit (h : SramWork d e) (z s k : Nat) : SramWork d (readEdit e z s k) :=
  .ite _ (.foldl _ (fun _ _ hx => hx.readWord ..) _ h) h
theorem writeWord (h : SramWork d e) (p n w : Nat) (v : W64) : SramWork d (writeWord e p n w v) := (h.setSword ..).setMerges ..
theorem completeMerge (h : SramWork d e) (p n : Nat) (m : MergeE) : SramWork d (completeMerge e p n m) :=
  .ite _ (h.writeWord ..) (((h.checkWord ..).setSword ..).setMerges ..)
theorem writePart (h : SramWork d e) (p n w m v : Nat) : SramWork d (writePart e p n w m v) := by
  unfold Machine.writePart
  split
  · exact h.writeWord ..
  · split
    · exact .ite _ ((h.setMerges ..).completeMerge ..) (h.setMerges ..)
    · refine setMerges ?_ _ _ _
      split
      · exact .ite _ (h.completeMerge ..) h
      · exact h

theorem regs (h : SramWork d e) : e.regs = d.regs := by obtain ⟨⟨_, _, _, _, _, _, rfl⟩, -⟩ := h; rfl
theorem rd (h : SramWork d e) (a : Nat) : rd e a = rd d a := by simp only [Machine.rd, h.regs]
theorem urn (h : SramWork d e) : e.urn = d.urn := by obtain ⟨⟨_, _, _, _, _, _, rfl⟩, -⟩ := h; rfl
theorem egr (h : SramWork d e) : e.egr = d.egr := by obtain ⟨⟨_, _, _, _, _, _, rfl⟩, -⟩ := h; rfl
theorem line (h : SramWork d e) : e.line = d.line := by obtain ⟨⟨_, _, _, _, _, _, rfl⟩, -⟩ := h; rfl
theorem life (h : SramWork d e) : e.life = d.life := by obtain ⟨⟨_, _, _, _, _, _, rfl⟩, -⟩ := h; rfl
theorem hif (h : SramWork d e) : e.hif = d.hif := by obtain ⟨⟨_, _, _, _, _, _, rfl⟩, -⟩ := h; rfl
theorem out (h : SramWork d e) : e.out = d.out := by obtain ⟨⟨_, _, _, _, _, _, rfl⟩, -⟩ := h; rfl

end SramWork

end Sys2Proof.Machine
end

section
/-!
A buffer given up (R274): its record keeps its incarnation alone, and the pools, the order domains and the page events follow; registers,
counters, VOQs and other buffers are as before.
-/

namespace Sys2Proof.Machine
open Sys2Proof

variable {d e : Dev}

theorem bufAt_modBuf (d : Dev) (k : Nat) (f : Buf → Buf) (j : Nat) : bufAt (modBuf d k f) j = if j = k then f (bufAt d k) else bufAt d j := by
  simp only [bufAt, modBuf, tget_tmod]
theorem voq_modVoq (d : Dev) (z v : Nat) (f : Voq → Voq) : voq (modVoq d z v f) z v = f (voq d z v) := by simp [voq, modVoq]

/-- `e` is `d` with pools and order domains counted anew; buffers and VOQs are as before. -/
structure PoolWork (d e : Dev) : Prop where
  shape : ∃ zs a p i k, e = { d with urn := { d.urn with zones := zs }, adm := a, pages := p, ic := i, ket := k }

namespace PoolWork

theorem refl (d : Dev) : PoolWork d d := ⟨_, _, _, _, _, rfl⟩
theorem trans {f : Dev} (h : PoolWork d e) (g : PoolWork e f) : PoolWork d f := by
  obtain ⟨_, _, _, _, _, rfl⟩ := h
  obtain ⟨z, a, p, i, k, rfl⟩ := g
  exact ⟨z, a, p, i, k, rfl⟩
theorem ite (c : Prop) [Decidable c] {x y : Dev} (h : PoolWork d x) (g : PoolWork d y) : PoolWork d (if c then x else y) := by
  split <;> assumption
theorem raise (h : PoolWork d e) (p n : Nat) : PoolWork d (raise e p n) := by
  obtain ⟨q, i, k, hr⟩ := raise_shape e p n
  exact h.trans ⟨_, _, q, i, k, hr⟩
theorem setAdm (h : PoolWork d e) (a : Adm) : PoolWork d { e with adm := a } := h.trans ⟨_, _, _, _, _, rfl⟩
theorem modDom (h : PoolWork d e) (n : Nat) (f : Domain → Domain) : PoolWork d (modDom e n f) := h.setAdm _
theorem watchDom (h : PoolWork d e) (n : Nat) : PoolWork d (watchDom e n) := h.setAdm _
theorem modUrnz (h : PoolWork d e) (z : Nat) (f : UrnZone → UrnZone) : PoolWork d (modUrnz e z f) := h.trans ⟨_, _, _, _, _, rfl⟩
theorem watchPool (h : PoolWork d e) (z : Nat) : PoolWork d (watchPool e z) := by
  have hr : ∀ (c : Bool) (x : Dev) n, PoolWork d x → PoolWork d (if c then Machine.raise x (urnPage z) n else x) :=
    fun c x n hx => .ite _ (hx.raise _ _) hx
  exact hr _ _ _ (hr _ _ _ (hr _ _ _ (h.modUrnz _ _)))
theorem creditPool (h : PoolWork d e) (z n : Nat) : PoolWork d (creditPool e z n) := (h.modUrnz z _).watchPool z
theorem bufAt (h : PoolWork d e) (k : Nat) : bufAt e k = bufAt d k := by obtain ⟨_, _, _, _, _, rfl⟩ := h; rfl

end PoolWork

/-- `e` is `d` with the buffer of record `k` given up. -/
structure GaveUp (d e : Dev) (k : Nat) : Prop where
  work : PoolWork (modBuf d k (fun _ => { incarn := (bufAt d k).incarn })) e

theorem gaveUp_freeRec (d : Dev) (k : Nat) : GaveUp d (freeRec d k) k := by
  refine ⟨?_⟩
  unfold freeRec
  dsimp only
  refine PoolWork.creditPool (.ite _ (PoolWork.setAdm ?_ _) ?_) _ _
  all_goals
    split
    · exact ((PoolWork.refl _).modDom _ _).watchDom _
    · exact .refl _

namespace GaveUp
variable {k : Nat}

theorem regs (h : GaveUp d e k) : e.regs = d.regs := by obtain ⟨⟨_, _, _, _, _, rfl⟩⟩ := h; rfl
theorem ctrs (h : GaveUp d e k) : e.ctrs = d.ctrs := by obtain ⟨⟨_, _, _, _, _, rfl⟩⟩ := h; rfl
theorem ctr (h : GaveUp d e k) (a : Nat) : ctr e a = ctr d a := by obtain ⟨⟨_, _, _, _, _, rfl⟩⟩ := h; rfl
theorem rd (h : GaveUp d e k) (a : Nat) : rd e a = rd d a := by obtain ⟨⟨_, _, _, _, _, rfl⟩⟩ := h; rfl
theorem voqs (h : GaveUp d e k) : e.urn.voqs = d.urn.voqs := by obtain ⟨⟨_, _, _, _, _, rfl⟩⟩ := h; rfl
theorem egr (h : GaveUp d e k) : e.egr = d.egr := by obtain ⟨⟨_, _, _, _, _, rfl⟩⟩ := h; rfl
theorem line (h : GaveUp d e k) : e.line = d.line := by obtain ⟨⟨_, _, _, _, _, rfl⟩⟩ := h; rfl
theorem life (h : GaveUp d e k) : e.life = d.life := by obtain ⟨⟨_, _, _, _, _, rfl⟩⟩ := h; rfl
theorem hif (h : GaveUp d e k) : e.hif = d.hif := by obtain ⟨⟨_, _, _, _, _, rfl⟩⟩ := h; rfl
theorem ras (h : GaveUp d e k) : e.ras = d.ras := by obtain ⟨⟨_, _, _, _, _, rfl⟩⟩ := h; rfl
theorem tel (h : GaveUp d e k) : e.tel = d.tel := by obtain ⟨⟨_, _, _, _, _, rfl⟩⟩ := h; rfl
theorem out (h : GaveUp d e k) : e.out = d.out := by obtain ⟨⟨_, _, _, _, _, rfl⟩⟩ := h; rfl
theorem bufAt (h : GaveUp d e k) : bufAt e k = { incarn := (bufAt d k).incarn } := by
  rw [h.work.bufAt, bufAt_modBuf, if_pos rfl]
/-- Its handle names no buffer. -/
theorem bufOf {x : W32} (h : GaveUp d e (hKey x)) : bufOf e x = none := by
  have hk : (Machine.bufAt e (hKey x)).kind = 0 := by rw [h.bufAt]
  simp [Machine.bufOf, hk]

end GaveUp

/-- The owner of a buffer gives it up (R274). -/
theorem freeBy_owner {x : W32} {kind idx : Nat} {b : Buf} (hb : bufOf d x = some b) (hk : b.kind = kind) (hi : b.index = idx) (h5 : kind ≠ 5) :
    GaveUp d (freeBy d x kind idx) (hKey x) := by
  subst hk hi
  have : freeBy d x b.kind b.index = freeRec d (hKey x) := by simp [freeBy, hb, h5]
  exact this ▸ gaveUp_freeRec d (hKey x)

end Sys2Proof.Machine
end

section
/-!
Credits and the way of a frame from its VOQ to the staging of its port (R303, R304, R308, R22).
-/

namespace Sys2Proof.Machine
open Sys2Proof Sys2Proof.Terms

variable {d e : Dev} {s : State} {z : Zone} {v : Fin 2048} {x : Desc} {l : List Desc} {b : Buf} {p : Port} {c : Sys2Proof.Class}

theorem staging_modStaging (d : Dev) (p c : Nat) (f : Staging → Staging) : staging (modStaging d p c f) p c = f (staging d p c) := by
  simp [staging, modStaging]
theorem tmPort_modTm (d : Dev) (p : Nat) (f : TmPort → TmPort) (i : Nat) : tmPort (modTm d p f) i = if i = p then f (tmPort d p) else tmPort d i := by
  simp only [tmPort, modTm, tget_tmod]
@[simp] theorem tmPort_modTm_same (d : Dev) (p : Nat) (f : TmPort → TmPort) : tmPort (modTm d p f) p = f (tmPort d p) := by simp [tmPort_modTm]
@[simp] theorem tmPort_modStaging (d : Dev) (p c : Nat) (f : Staging → Staging) (i : Nat) : tmPort (modStaging d p c f) i = tmPort d i := rfl
@[simp] theorem staging_modTm (d : Dev) (p : Nat) (f : TmPort → TmPort) (i c : Nat) : staging (modTm d p f) i c = staging d i c := rfl
@[simp] theorem tmPort_bump (d : Dev) (a n i : Nat) : tmPort (bump d a n) i = tmPort d i := rfl
@[simp] theorem tmPort_raise (d : Dev) (a n i : Nat) : tmPort (raise d a n) i = tmPort d i := by obtain ⟨_, _, _, h⟩ := raise_shape d a n; rw [h]; rfl
@[simp] theorem staging_bump (d : Dev) (a n i c : Nat) : staging (bump d a n) i c = staging d i c := rfl
@[simp] theorem staging_raise (d : Dev) (a n i c : Nat) : staging (raise d a n) i c = staging d i c := by
  obtain ⟨_, _, _, h⟩ := raise_shape d a n; rw [h]; rfl
theorem staging_congr (h : e.egr = d.egr) (p c : Nat) : staging e p c = staging d p c := by simp only [staging, h]
theorem tmPort_congr (h : e.egr = d.egr) (p : Nat) : tmPort e p = tmPort d p := by simp only [tmPort, h]
theorem voq_congr (h : e.urn.voqs = d.urn.voqs) (z v : Nat) : voq e z v = voq d z v := by simp only [voq, h]
theorem bufOf_congr (h : e.urn = d.urn) (x : W32) : bufOf e x = bufOf d x := by
  unfold bufOf bufAt
  rw [h]
theorem frameOf_congr (h : e.urn = d.urn) (hf : e.free = d.free) (x : W32) : frameOf e x = frameOf d x := by
  unfold frameOf
  rw [bufOf_congr h, hf]
theorem portUp_congr (hl : e.line = d.line) (hs : e.life = d.life) (p : Nat) : portUp e p = portUp d p := by simp only [portUp, port, hl, hs]

/-! ## Credits -/

theorem exec_creditRequest : Machine.exec (.creditRequest z v) s = .next { s with
    dev := if wantsCredit (voq s.dev z v) && (isoBetween s.dev z (portZone (v.val / 8))).isNone
      then modVoq s.dev z v (fun q => { q with asked := q.asked + 1 }) else s.dev } := rfl

theorem exec_creditGrant_held (h : paused s.dev p c = true ∨ quadHeld s.dev (p.val / 4) = true ∨ creditLimit s.dev p ≤ portCredits s.dev p ∨
    poolSpent s.dev (portZone p) = true) : Machine.exec (.creditGrant p c) s = .next s := by
  show execCreditGrant p c s = _
  have hc : (paused s.dev p c || quadHeld s.dev (p.val / 4) || decide (creditLimit s.dev p ≤ portCredits s.dev p) || poolSpent s.dev (portZone p)) = true := by
    rcases h with h | h | h | h <;> simp [h]
  simp only [execCreditGrant, State.onDev, hc, if_true]

theorem exec_creditGrant {y : Nat} (hp : paused s.dev p c = false) (hq : quadHeld s.dev (p.val / 4) = false)
    (hl : portCredits s.dev p < creditLimit s.dev p) (hs : poolSpent s.dev (portZone p) = false) (hn : nextAsker s.dev p c = some y) :
    Machine.exec (.creditGrant p c) s = .next { s with
      dev := modStaging (modVoq s.dev y (8 * p.val + c.val) (fun q => { q with asked := q.asked - 1, balance := q.balance + 1024 })) p c
        (fun x => { x with last := y }) } := by
  show execCreditGrant p c s = _
  simp [execCreditGrant, State.onDev, hp, hq, hs, hn, Nat.not_le.mpr hl]

/-! ## A VOQ sends its head -/

/-- Nothing is sent without a frame or without credit. -/
theorem exec_voqSend_waits (hc : Calm s.dev) (h : (voq s.dev z v).q = [] ∨ (voq s.dev z v).balance ≤ 0) :
    Machine.exec (.voqSend z v) s = .next s := by
  show execVoqSend z v s = _
  simp only [execVoqSend, State.onDevF, State.onDev]
  split
  · rw [settle_of_calm hc]
  next x r hq =>
    have hb : (voq s.dev z v).balance ≤ 0 := h.resolve_left (by simp [hq])
    simp [hb, settle_of_calm hc]

/-- Nothing crosses the link of an isolated zone (R22). -/
theorem exec_voqSend_isolated (hc : Calm s.dev) (hq : (voq s.dev z v).q = x :: l) (hx : crosses z (v.val / 8) x = true)
    (hi : isolated s.dev z = true ∨ isolated s.dev (portZone (v.val / 8)) = true) : Machine.exec (.voqSend z v) s = .next s := by
  show execVoqSend z v s = _
  have hor : (isolated s.dev z || isolated s.dev (portZone (v.val / 8))) = true := by simpa using hi
  simp only [execVoqSend, State.onDevF, State.onDev, hq, hx, hor, Bool.and_true, Bool.or_true, if_true, settle_of_calm hc]

/-- The device once the head `x` has left its VOQ, before it is staged. -/
def headSent (d : Dev) (z v : Nat) (x : Desc) (l : List Desc) : Dev :=
  dropDesc (modVoq (readFrame (if crosses z (v / 8) x then sendAcross d z (v / 8) x else d) x.handle x.len) z v
    (fun q => { q with q := l, balance := q.balance - (x.len : Int) })) v x

/-- A frame on its way changes link budgets alone. -/
theorem crossed_shape (d : Dev) (z p : Nat) (x : Desc) : ∃ k, (if crosses z p x then sendAcross d z p x else d) = { d with link := k } := by
  split
  · exact ⟨_, rfl⟩
  · exact ⟨d.link, rfl⟩

/-- The frame's VOQ, its buffer given up, and what is as before. -/
theorem headSent_spec (hx : x.copy = false) (hb : bufOf d x.handle = some b) (hk : b.kind = 4) (hi : b.index = v.val) :
    let e := headSent d z v x l
    voq e z v = { voq d z v with q := l, balance := (voq d z v).balance - (x.len : Int) } ∧ bufOf e x.handle = none ∧ e.egr = d.egr ∧
      e.line = d.line ∧ e.life = d.life ∧ ∀ a, ¬ SramCtr a → ctr e a = ctr d a := by
  intro e
  obtain ⟨k, hk1⟩ := crossed_shape d z (v / 8) x
  have hr : SramWork { d with link := k } (readFrame { d with link := k } x.handle x.len) := (SramWork.refl _).readFrame ..
  have he : e = freeBy (modVoq (readFrame { d with link := k } x.handle x.len) z v (fun q => { q with q := l, balance := q.balance - (x.len : Int) }))
      x.handle 4 v := by simp only [e, headSent, hk1, dropDesc, hx, Bool.false_eq_true, if_false]
  generalize readFrame { d with link := k } x.handle x.len = f at hr he
  have hbf : bufOf (modVoq f z v (fun q => { q with q := l, balance := q.balance - (x.len : Int) })) x.handle = some b :=
    (show bufOf f x.handle = bufOf d x.handle from bufOf_congr hr.urn _).trans hb
  have hg := freeBy_owner hbf hk hi (by decide)
  rw [← he] at hg
  refine ⟨?_, hg.bufOf, hg.egr.trans hr.egr, hg.line.trans hr.line, hg.life.trans hr.life, fun a ha => (hg.ctr a).trans (hr.count a ha)⟩
  rw [voq_congr hg.voqs, voq_modVoq, voq_congr (congrArg Urn.voqs hr.urn)]
  rfl

theorem exec_voqSend (hq : (voq s.dev z v).q = x :: l) (hbal : 0 < (voq s.dev z v).balance) (hb : bufOf s.dev x.handle = some b)
    (hcr : crosses z (v.val / 8) x = false ∨ (isolated s.dev z = false ∧ isolated s.dev (portZone (v.val / 8)) = false)) :
    let p := v.val / 8
    let d := headSent s.dev z v x l
    Machine.exec (.voqSend z v) s = .next { s with dev := settle (
      if portUp d p then modStaging d p (v.val % 8) (fun y => { y with frames := y.frames ++ [(x, z.val, (frameOf s.dev x.handle).take x.len, b.tstamp)] })
      else raise (bump d (Rg.TM_FLUSHED (portZone p) (p % 64)) 1) (Rg.pageOf (Rg.baseTM (portZone p)) + 5) 0) } := by
  intro p d
  show execVoqSend z v s = _
  have hgo : ((voq s.dev z v).balance ≤ 0 || (crosses z p x && (isolated s.dev z || isolated s.dev (portZone p)))) = false := by
    rcases hcr with h | ⟨h1, h2⟩
    · simp [p, h, hbal]
    · simp [p, h1, h2, hbal]
  have hsame : (if crosses z p x then sendAcross s.dev z p x else s.dev).urn = s.dev.urn ∧
      (if crosses z p x then sendAcross s.dev z p x else s.dev).free = s.dev.free := by
    obtain ⟨k, hk⟩ := crossed_shape s.dev z p x
    rw [hk]
    exact ⟨rfl, rfl⟩
  have hf := frameOf_congr hsame.1 hsame.2 x.handle
  have hbuf := (bufOf_congr hsame.1 x.handle).trans hb
  simp only [execVoqSend, State.onDevF, State.onDev, hq, hgo, Bool.false_eq_true, if_false, hf, hbuf, p, d, headSent]

/-- A counter of dropped frames is none of an on-die memory. -/
theorem not_sramCtr_flushed (z i : Nat) (hi : i < 64) : ¬ SramCtr (Rg.TM_FLUSHED z i) := by
  unfold SramCtr
  rintro ⟨pl, h⟩
  unfold pwAt Rg.TM_FLUSHED Rg.baseTM Rg.zoneBase Rg.PW_UNCORR Rg.PW_CORRECTED Rg.PW_LOG_OVERFLOW Rg.ZPW_UNCORR Rg.ZPW_CORRECTED
    Rg.ZPW_LOG_OVERFLOW Rg.baseZRAS Rg.baseRAS Rg.zoneBase at h
  split at h
  · omega
  · omega

end Sys2Proof.Machine
end

section
/-!
Messages to a host (R403, R404, R412 to R414): what an entry of a ring, a vector and the wake of the link leave unchanged.
-/

namespace Sys2Proof.Machine
open Sys2Proof

variable {d e : Dev} {h kind r v : Nat}

theorem ring_modRing (d : Dev) (h kind r : Nat) (f : Ring → Ring) (k' r' : Nat) :
    ring (modRing d h kind r f) h k' r' = if ringKey h k' r' = ringKey h kind r then f (ring d h kind r) else ring d h k' r' := by
  simp only [ring, modRing, modHif, tget_tmod]
@[simp] theorem ring_modRing_same (d : Dev) (h kind r : Nat) (f : Ring → Ring) : ring (modRing d h kind r f) h kind r = f (ring d h kind r) := by
  simp [ring_modRing]
theorem ring_congr (hr : e.hif.rings = d.hif.rings) (h k r : Nat) : ring e h k r = ring d h k r := by simp only [ring, hr]

/-- `e` is `d` after the function of host `h` has sent: its link is awake, words are out, vectors are sent or pending. -/
structure LinkWork (h : Nat) (d e : Dev) : Prop where
  shape : ∃ rg c p i k pd l, e = { d with regs := rg, ctrs := c, pages := p, ic := i, ket := k, hif := { d.hif with pend := pd }, out := d.out ++ l }
  reg : ∀ a, a ≠ Rg.HIF_STATUS h → rd e a = rd d a
  field : ∀ f : Fld, f.hi < 6 ∨ 7 < f.lo → rf e (Rg.HIF_STATUS h) f = rf d (Rg.HIF_STATUS h) f
  count : ∀ a, a ≠ Rg.MSIX_SENT h → ctr e a = ctr d a

namespace LinkWork

theorem refl (h : Nat) (d : Dev) : LinkWork h d d := ⟨⟨_, _, _, _, _, d.hif.pend, [], by rw [List.append_nil]⟩, fun _ _ => rfl, fun _ _ => rfl, fun _ _ => rfl⟩
theorem trans {f : Dev} (w : LinkWork h d e) (g : LinkWork h e f) : LinkWork h d f := by
  obtain ⟨⟨_, _, _, _, _, _, l, rfl⟩, wr, wf, wc⟩ := w
  obtain ⟨⟨rg, c, p, i, k, pd, m, rfl⟩, gr, gf, gc⟩ := g
  exact ⟨⟨rg, c, p, i, k, pd, l ++ m, by rw [← List.append_assoc]⟩, fun a ha => (gr a ha).trans (wr a ha), fun a ha => (gf a ha).trans (wf a ha),
    fun a ha => (gc a ha).trans (wc a ha)⟩
theorem ite (c : Prop) [Decidable c] {x y : Dev} (w : LinkWork h d x) (g : LinkWork h d y) : LinkWork h d (if c then x else y) := by
  split <;> assumption
theorem emit (w : LinkWork h d e) (o : Out) : LinkWork h d (emit e o) :=
  w.trans ⟨⟨_, _, _, _, _, e.hif.pend, [o], rfl⟩, fun _ _ => rfl, fun _ _ => rfl, fun _ _ => rfl⟩
theorem raise (w : LinkWork h d e) (p n : Nat) : LinkWork h d (raise e p n) := by
  obtain ⟨q, i, k, hr⟩ := raise_shape e p n
  exact w.trans ⟨⟨_, _, q, i, k, e.hif.pend, [], by rw [hr, List.append_nil]⟩, fun a _ => rd_raise e p n a, fun f _ => rf_congr (rd_raise e p n _) f,
    fun a _ => ctr_raise e p n a⟩
theorem wake (w : LinkWork h d e) : LinkWork h d (Machine.wf e (Rg.HIF_STATUS h) Fl.HIF_STATUS_LINK_PM 0) := by
  refine w.trans ⟨⟨_, _, _, _, _, e.hif.pend, [], by rw [List.append_nil]; rfl⟩, fun a ha => rd_wf_ne _ _ _ ha, fun f hf => rf_wf_apart _ _ _ ?_,
    fun _ _ => rfl⟩
  exact hf.symm
theorem toL0 (w : LinkWork h d e) : LinkWork h d (toL0 e h) := .ite _ w (w.wake.raise _ _)
theorem bumpSent (w : LinkWork h d e) (n : Nat) : LinkWork h d (Machine.bump e (Rg.MSIX_SENT h) n) :=
  w.trans ⟨⟨_, _, _, _, _, e.hif.pend, [], by rw [List.append_nil]; rfl⟩, fun _ _ => rfl, fun _ _ => rfl, fun a ha => ctr_bump_ne e n ha⟩
theorem setPend (w : LinkWork h d e) (t : Tab Nat) : LinkWork h d (modHif e (fun x => { x with pend := t })) :=
  w.trans ⟨⟨_, _, _, _, _, t, [], by rw [List.append_nil]; rfl⟩, fun _ _ => rfl, fun _ _ => rfl, fun _ _ => rfl⟩
theorem sendVector (w : LinkWork h d e) (v : Nat) : LinkWork h d (sendVector e h v) := .ite _ ((w.toL0.emit _).bumpSent 1) (w.setPend _)
theorem foldl {β : Type} (f : Dev → β → Dev) (hf : ∀ e x, LinkWork h d e → LinkWork h d (f e x)) (l : List β) (w : LinkWork h d e) :
    LinkWork h d (l.foldl f e) := by
  induction l generalizing e with
  | nil => exact w
  | cons x l ih => exact ih (hf e x w)

theorem out (w : LinkWork h d e) : ∃ l, e.out = d.out ++ l := by obtain ⟨⟨_, _, _, _, _, _, l, rfl⟩, -, -, -⟩ := w; exact ⟨l, rfl⟩
theorem mem_out (w : LinkWork h d e) {o : Out} (ho : o ∈ d.out) : o ∈ e.out := by
  obtain ⟨l, hl⟩ := w.out
  exact hl ▸ List.mem_append_left _ ho
theorem open_ (w : LinkWork h d e) : e.hif.open_ = d.hif.open_ := by obtain ⟨⟨_, _, _, _, _, _, _, rfl⟩, -, -, -⟩ := w; rfl
theorem rings (w : LinkWork h d e) : e.hif.rings = d.hif.rings := by obtain ⟨⟨_, _, _, _, _, _, _, rfl⟩, -, -, -⟩ := w; rfl

end LinkWork

/-- A vector that is not masked is sent. -/
theorem msix_mem_sendVector (ho : (tget zeroN d.hif.open_ h).testBit v = true) : .msix h v ∈ (sendVector d h v).out := by
  rw [sendVector, if_pos ho]
  simp [bump, emit]

/-- `e` is `d` after an entry of ring `r` of a kind of host `h` was made: the entry and its interrupt are out or held. -/
structure HostWork (h kind r : Nat) (d e : Dev) : Prop where
  shape : ∃ rg c p i k hf l, e = { d with regs := rg, ctrs := c, pages := p, ic := i, ket := k, hif := hf, out := d.out ++ l } ∧
    hf.punts = d.hif.punts ∧ hf.open_ = d.hif.open_
  waits : ∀ k' r', (ring e h k' r').wait = (ring d h k' r').wait
  reg : ∀ a, a ≠ Rg.HIF_STATUS h → a ≠ ringMod h kind r → rd e a = rd d a
  count : ∀ a, a ≠ Rg.MSIX_SENT h → a ≠ Rg.PME_SENT h → ctr e a = ctr d a

theorem LinkWork.host (w : LinkWork h d e) (kind r : Nat) : HostWork h kind r d e := by
  obtain ⟨⟨rg, c, p, i, k, pd, l, rfl⟩, wr, -, wc⟩ := w
  exact ⟨⟨rg, c, p, i, k, _, l, rfl, rfl, rfl⟩, fun _ _ => rfl, fun a ha _ => wr a ha, fun a ha _ => wc a ha⟩

namespace HostWork

theorem refl (h kind r : Nat) (d : Dev) : HostWork h kind r d d := (LinkWork.refl h d).host kind r
theorem trans {f : Dev} (w : HostWork h kind r d e) (g : HostWork h kind r e f) : HostWork h kind r d f := by
  obtain ⟨⟨_, _, _, _, _, _, l, rfl, wp, wo⟩, ww, wr, wc⟩ := w
  obtain ⟨⟨rg, c, p, i, k, hf, m, rfl, gp, go⟩, gw, gr, gc⟩ := g
  exact ⟨⟨rg, c, p, i, k, hf, l ++ m, by rw [← List.append_assoc], gp.trans wp, go.trans wo⟩, fun a b => (gw a b).trans (ww a b),
    fun a h1 h2 => (gr a h1 h2).trans (wr a h1 h2), fun a h1 h2 => (gc a h1 h2).trans (wc a h1 h2)⟩
theorem link (w : HostWork h kind r d e) {f : Dev} (g : LinkWork h e f) : HostWork h kind r d f := w.trans (g.host kind r)
theorem ite (c : Prop) [Decidable c] {x y : Dev} (w : HostWork h kind r d x) (g : HostWork h kind r d y) :
    HostWork h kind r d (if c then x else y) := by split <;> assumption
theorem modHif (w : HostWork h kind r d e) (f : Hif → Hif) (hp : (f e.hif).punts = e.hif.punts) (ho : (f e.hif).open_ = e.hif.open_)
    (hr : (f e.hif).rings = e.hif.rings) : HostWork h kind r d (modHif e f) :=
  w.trans ⟨⟨_, _, _, _, _, f e.hif, [], by rw [List.append_nil]; rfl, hp, ho⟩, fun k' r' => congrArg Ring.wait (ring_congr hr h k' r'), fun _ _ _ => rfl,
    fun _ _ _ => rfl⟩
theorem modRing (w : HostWork h kind r d e) (f : Ring → Ring) (hf : ∀ x, (f x).wait = x.wait) : HostWork h kind r d (modRing e h kind r f) := by
  refine w.trans ⟨⟨_, _, _, _, _, (Machine.modRing e h kind r f).hif, [], by rw [List.append_nil]; rfl, rfl, rfl⟩, fun k' r' => ?_, fun _ _ _ => rfl,
    fun _ _ _ => rfl⟩
  rw [ring_modRing]
  split
  next hk => rw [hf, show ring e h k' r' = ring e h kind r by simp only [ring, hk]]
  · rfl
theorem wfStatus (w : HostWork h kind r d e) (f : Fld) (x : Nat) : HostWork h kind r d (wf e (Rg.HIF_STATUS h) f x) :=
  w.trans ⟨⟨_, _, _, _, _, e.hif, [], by rw [List.append_nil]; rfl, rfl, rfl⟩, fun _ _ => rfl, fun _ ha _ => rd_wf_ne _ _ _ ha, fun _ _ _ => rfl⟩
theorem wfMod (w : HostWork h kind r d e) (f : Fld) (x : Nat) : HostWork h kind r d (wf e (ringMod h kind r) f x) :=
  w.trans ⟨⟨_, _, _, _, _, e.hif, [], by rw [List.append_nil]; rfl, rfl, rfl⟩, fun _ _ => rfl, fun _ _ ha => rd_wf_ne _ _ _ ha, fun _ _ _ => rfl⟩
theorem pme (w : HostWork h kind r d e) : HostWork h kind r d (bump (emit e (.pme h)) (Rg.PME_SENT h) 1) :=
  w.trans ⟨⟨_, _, _, _, _, e.hif, [.pme h], rfl, rfl, rfl⟩, fun _ _ => rfl, fun _ _ _ => rfl, fun _ _ ha => ctr_bump_ne _ _ ha⟩
theorem requestVector (w : HostWork h kind r d e) (v : Nat) : HostWork h kind r d (requestVector e h v) := by
  unfold Machine.requestVector
  have hheld := ((w.modHif (fun x => { x with held := tmod zeroN x.held h (fun b => setBit b v) }) rfl rfl rfl).wfStatus
    Fl.HIF_STATUS_HELD_IRQ 1).modHif (fun x => { x with pmeStatus := tset (fun _ => false) x.pmeStatus h true }) rfl rfl rfl
  exact .ite _ (.ite _ hheld.pme hheld) (w.link ((LinkWork.refl h e).sendVector v))
theorem trigger (w : HostWork h kind r d e) : HostWork h kind r d (trigger e h kind r) :=
  ((HostWork.ite _ (w.requestVector _) w).wfMod _ _).modRing _ fun _ => rfl
theorem unannounced (w : HostWork h kind r d e) : HostWork h kind r d (unannounced e h kind r) := by
  have hu := (w.wfMod Fl.PRING_MOD_UNANNOUNCED (rf e (ringMod h kind r) Fl.PRING_MOD_UNANNOUNCED + 1)).modRing
    (fun x => { x with timer := x.timer.or (some e.tb) }) fun _ => rfl
  exact .ite _ hu.trigger hu
theorem makeEntry (w : HostWork h kind r d e) (l : List W32) : HostWork h kind r d (makeEntry e h kind r l) := by
  have hd := w.modRing (fun x => { x with done := x.done + 1 }) fun _ => rfl
  unfold Machine.makeEntry
  dsimp only
  refine unannounced (.ite _ (modRing hd _ ?_) (hd.link ((LinkWork.refl h _).toL0.emit _)))
  exact fun _ => rfl

theorem mem_out (w : HostWork h kind r d e) {o : Out} (ho : o ∈ d.out) : o ∈ e.out := by
  obtain ⟨⟨_, _, _, _, _, _, l, rfl, -, -⟩, -, -, -⟩ := w
  exact List.mem_append_left _ ho
theorem urn (w : HostWork h kind r d e) : e.urn = d.urn := by obtain ⟨⟨_, _, _, _, _, _, _, rfl, -, -⟩, -, -, -⟩ := w; rfl
theorem egr (w : HostWork h kind r d e) : e.egr = d.egr := by obtain ⟨⟨_, _, _, _, _, _, _, rfl, -, -⟩, -, -, -⟩ := w; rfl
theorem adm (w : HostWork h kind r d e) : e.adm = d.adm := by obtain ⟨⟨_, _, _, _, _, _, _, rfl, -, -⟩, -, -, -⟩ := w; rfl
theorem ras (w : HostWork h kind r d e) : e.ras = d.ras := by obtain ⟨⟨_, _, _, _, _, _, _, rfl, -, -⟩, -, -, -⟩ := w; rfl
theorem tel (w : HostWork h kind r d e) : e.tel = d.tel := by obtain ⟨⟨_, _, _, _, _, _, _, rfl, -, -⟩, -, -, -⟩ := w; rfl
theorem punts (w : HostWork h kind r d e) : e.hif.punts = d.hif.punts := by obtain ⟨⟨_, _, _, _, _, _, _, rfl, hp, -⟩, -, -, -⟩ := w; exact hp
theorem open_ (w : HostWork h kind r d e) : e.hif.open_ = d.hif.open_ := by obtain ⟨⟨_, _, _, _, _, _, _, rfl, -, ho⟩, -, -, -⟩ := w; exact ho

end HostWork

end Sys2Proof.Machine
end

section
/-!
The port scheduler, edits, transmission, shapers and edit memory (R307, R310, R314, R317, R325).
-/

namespace Sys2Proof.Machine
open Sys2Proof Sys2Proof.Terms

variable {d e : Dev} {s : State} {z : Zone} {p : Port} {c : Sys2Proof.Class} {m : Master} {v : W32}

/-! ## The next frame of a port -/

/-- The last number below `n` that a test keeps. -/
theorem getLast?_filter_range {P : Nat → Bool} {c n : Nat} (hc : P c = true) (hn : c < n) (hlast : ∀ k, c < k → k < n → P k = false) :
    ((List.range n).filter P).getLast? = some c := by
  induction n with
  | zero => omega
  | succ n ih =>
    rw [List.range_succ, List.filter_append]
    by_cases h : c = n
    · subst h
      simp [hc]
    · have hP : P n = false := hlast n (by omega) (by omega)
      simpa [hP] using ih (by omega) fun k h1 h2 => hlast k h1 (by omega)

/-- The highest strict class that is ready comes first (R307). -/
theorem chooseClass_strict (hs : portShaperOpen d p = true) (hb : (rf d (etsReg p) Fl.TM_PORT_ETS_STRICT).testBit c = true)
    (hr : classReady d p c = true)
    (hlast : ∀ k, c.val < k → k < 8 → (rf d (etsReg p) Fl.TM_PORT_ETS_STRICT).testBit k = true → classReady d p k = false) :
    chooseClass d p = some (c.val, (tmPort d p).deficit, (tmPort d p).pointer) := by
  have hl : (((List.range 8).filter (classReady d p)).filter (fun c => (rf d (etsReg p) Fl.TM_PORT_ETS_STRICT).testBit c)).getLast? = some c.val := by
    rw [List.filter_filter]
    refine getLast?_filter_range (by simp [hb, hr]) c.isLt fun k h1 h2 => ?_
    by_cases hk : (rf d (etsReg p) Fl.TM_PORT_ETS_STRICT).testBit k = true
    · simp [hlast k h1 h2 hk]
    · simp [hk]
  unfold chooseClass
  simp only [hs, Bool.not_true, Bool.false_eq_true, if_false, hl]

/-- The watch over the old edit set changes its flag and raises an event. -/
theorem watchEdit_shape (d : Dev) (z : Nat) : ∃ t p i k, watchEdit d z = { d with egr := { d.egr with oldBusy := t }, pages := p, ic := i, ket := k } := by
  unfold watchEdit
  dsimp only
  split
  · obtain ⟨p, i, k, hr⟩ := raise_shape { d with egr := { d.egr with oldBusy := tset (fun _ => false) d.egr.oldBusy (4 + z) (editOldBusy d z) } }
      (Rg.pageOf (Rg.baseEDT z)) 0
    exact ⟨_, p, i, k, hr⟩
  · exact ⟨_, _, _, _, rfl⟩
@[simp] theorem tmPort_watchEdit (d : Dev) (z i : Nat) : tmPort (watchEdit d z) i = tmPort d i := by
  obtain ⟨_, _, _, _, h⟩ := watchEdit_shape d z; rw [h]; rfl
@[simp] theorem staging_watchEdit (d : Dev) (z i c : Nat) : staging (watchEdit d z) i c = staging d i c := by
  obtain ⟨_, _, _, _, h⟩ := watchEdit_shape d z; rw [h]; rfl
@[simp] theorem ctr_watchEdit (d : Dev) (z a : Nat) : ctr (watchEdit d z) a = ctr d a := by
  obtain ⟨_, _, _, _, h⟩ := watchEdit_shape d z; rw [h]; rfl
@[simp] theorem out_watchEdit (d : Dev) (z : Nat) : (watchEdit d z).out = d.out := by
  obtain ⟨_, _, _, _, h⟩ := watchEdit_shape d z; rw [h]

theorem exec_portSelect_waits (h : portUp s.dev p = false ∨ quadHeld s.dev (p.val / 4) = true) : Machine.exec (.portSelect p) s = .next s := by
  show execPortSelect p s = _
  have hc : (!portBegins s.dev p || !portUp s.dev p || quadHeld s.dev (p.val / 4) || (port s.dev p).blocked) = true := by
    rcases h with h | h <;> simp [h]
  simp only [execPortSelect, State.onDev, hc, if_true]

/-- The edit of a frame that a port takes from its staging, not marked. -/
def takenEdit (d : Dev) (p : Nat) (x : Desc) (y : Nat) (b : List Byte) (t : W64) : Edit :=
  { desc := x, zone := y, bytes := b, tstamp := t, set := editSet d (portZone p), mark := false, start := tbIn d (portZone p) }

theorem exec_portSelect {x : Desc} {y : Nat} {b : List Byte} {t : W64} {l : List (Desc × Nat × List Byte × W64)} {ds : List Nat} {ptr : Nat}
    (hb : portBegins s.dev p = true) (hu : portUp s.dev p = true) (hq : quadHeld s.dev (p.val / 4) = false) (hbl : (port s.dev p).blocked = false)
    (hch : chooseClass s.dev p = some (c.val, ds, ptr)) (hst : (staging s.dev p c).frames = (x, y, b, t) :: l) (hecn : x.ecn = false) :
    Machine.exec (.portSelect p) s = .next { s with dev := watchEdit (modTm (modStaging s.dev p c (fun y => { y with frames := l })) p (fun q =>
      { q with deficit := if l.isEmpty then ds.set c 0 else ds, pointer := ptr
               edits := q.edits ++ [takenEdit s.dev p x y b t] })) (portZone p) } := by
  show execPortSelect p s = _
  have hgo : (!portBegins s.dev p || !portUp s.dev p || quadHeld s.dev (p.val / 4) || (port s.dev p).blocked) = false := by simp [hb, hu, hq, hbl]
  have hj : judgeEcn s.dev p c x.ecn = (false, s.dev) := by simp [judgeEcn, hecn]
  simp only [execPortSelect, State.onDev, hgo, Bool.false_eq_true, if_false, hch, hst, hj]
  rfl

/-! ## Edits -/

theorem not_sramCtr_edited (z : Nat) : ¬ SramCtr (Rg.EDT_EDITED z) ∧ ¬ SramCtr (Rg.EDT_BAD_EDIT z) := by
  unfold SramCtr
  constructor <;> rintro ⟨pl, h⟩
  all_goals
    unfold pwAt Rg.PW_UNCORR Rg.PW_CORRECTED Rg.PW_LOG_OVERFLOW Rg.ZPW_UNCORR Rg.ZPW_CORRECTED Rg.ZPW_LOG_OVERFLOW Rg.baseZRAS Rg.baseRAS
      Rg.zoneBase at h
  · unfold Rg.EDT_EDITED Rg.baseEDT Rg.zoneBase at h
    split at h
    · omega
    · omega
  · unfold Rg.EDT_BAD_EDIT Rg.baseEDT Rg.zoneBase at h
    split at h
    · omega
    · omega

/-- A list out of range drops the frame. -/
theorem finishEdit_bad {q : Nat} {x : Edit} (h : 16384 ≤ x.desc.edit) :
    finishEdit d q x = (none, raise (bump d (Rg.EDT_BAD_EDIT (portZone q)) 1) (Rg.pageOf (Rg.baseEDT (portZone q))) 1) := by
  simp [finishEdit, Nat.not_lt.mpr h]

/-- An edit program whose first word is END runs to its end at once. -/
theorem runList_end {z set ed n : Nat} {tx rx : W64} {x : EdSt} (h : editWord d z set (16 * ed) = 0) (hn : n = 7) :
    runList d z set ed tx rx (n + 1) x = some x := by
  subst hn
  simp [runList, h, opRange]

/-- An edit that only ends its list: the frame keeps its bytes and takes its FCS anew. -/
theorem finishEdit_end {q : Nat} {x : Edit} (hl : x.desc.edit < 16384) (hw : editWord d (portZone q) x.set (16 * x.desc.edit) = 0)
    (hm : x.mark = false) (hlen : 64 ≤ x.bytes.length) (hmax : x.bytes.length ≤ rf d (Rg.QUAD_MAX_FRAME (q / 4)) Fl.QUAD_MAX_FRAME_MAX_FRAME) :
    let b := x.bytes.take (x.bytes.length - 4)
    ∃ f, finishEdit d q x = (some (b ++ fcs b), f) ∧ f.egr = d.egr ∧ ctr f (Rg.EDT_EDITED (portZone q)) = ctr d (Rg.EDT_EDITED (portZone q)) := by
  intro b
  have hb : b.length = x.bytes.length - 4 := by simp [b]
  refine ⟨bump (bump d (Rg.EDT_PTP_TC (portZone q)) 0) (Rg.EDT_PTP_NO_TS (portZone q)) 0, ?_, rfl, ?_⟩
  · have hrun (tx rx : W64) (y : EdSt) := runList_end (tx := tx) (rx := rx) (x := y) hw rfl
    have h60 : ¬ b.length < 60 := by omega
    have hfit : ¬ rf d (Rg.QUAD_MAX_FRAME (q / 4)) Fl.QUAD_MAX_FRAME_MAX_FRAME < b.length + 4 := by omega
    have hr (a n : Nat) (e : Dev) (r : Nat) (f : Fld) : rf (bump e a n) r f = rf e r f := rfl
    unfold finishEdit
    simp only [hl, if_true, hrun, hm, Bool.false_eq_true, if_false]
    rw [if_neg h60]
    simp only [hr]
    rw [if_neg hfit]
  · have h1 : Rg.EDT_EDITED (portZone q) ≠ Rg.EDT_PTP_TC (portZone q) := by simp [Rg.EDT_EDITED, Rg.EDT_PTP_TC]
    have h2 : Rg.EDT_EDITED (portZone q) ≠ Rg.EDT_PTP_NO_TS (portZone q) := by simp [Rg.EDT_EDITED, Rg.EDT_PTP_NO_TS]
    rw [ctr_bump_ne _ _ h2, ctr_bump_ne _ _ h1]

/-- The device when the edit at the head of a port's edit stage has run, before its outcome. -/
def editRun (d : Dev) (p : Nat) (x : Edit) (l : List Edit) : Dev :=
  readEdit (bump (modTm d p (fun t => { t with edits := l })) (Rg.EDT_EDITED (portZone p)) 1) (portZone p) x.set x.desc.edit

theorem editRun_work (d : Dev) (p : Nat) (x : Edit) (l : List Edit) :
    SramWork (bump (modTm d p (fun t => { t with edits := l })) (Rg.EDT_EDITED (portZone p)) 1) (editRun d p x l) := (SramWork.refl _).readEdit ..
theorem tmPort_editRun (d : Dev) (p : Nat) (x : Edit) (l : List Edit) : tmPort (editRun d p x l) p = { tmPort d p with edits := l } := by
  rw [tmPort_congr (editRun_work d p x l).egr, tmPort_bump, tmPort_modTm_same]

theorem exec_editDone_none (hc : Calm s.dev) (h : (tmPort s.dev p).edits = []) : Machine.exec (.editDone p) s = .next s := by
  show execEditDone p s = _
  simp only [execEditDone, State.onDevF, State.onDev, h, settle_of_calm hc]

theorem exec_editDone_bad {x : Edit} {l : List Edit} {f : Dev} (h : (tmPort s.dev p).edits = x :: l)
    (hf : finishEdit (editRun s.dev p x l) p x = (none, f)) : Machine.exec (.editDone p) s = .next { s with dev := settle (watchEdit f (portZone p)) } := by
  show execEditDone p s = _
  unfold editRun at hf
  simp only [execEditDone, State.onDevF, State.onDev, h, hf]

theorem exec_editDone_good {x : Edit} {l : List Edit} {f : Dev} {b : List Byte} (h : (tmPort s.dev p).edits = x :: l)
    (hf : finishEdit (editRun s.dev p x l) p x = (some b, f)) : Machine.exec (.editDone p) s = .next { s with
      dev := settle (modTm (chargeShapers f p x.desc.cls (b.length + 20)) p (fun t => { t with mac := t.mac ++ [{ x with bytes := b }] })) } := by
  show execEditDone p s = _
  unfold editRun at hf
  simp only [execEditDone, State.onDevF, State.onDev, h, hf]

/-! ## Transmission -/

/-- An event entry goes to its host, whose counters lie below those of the zones. -/
theorem postEvent_spec (d : Dev) {h : Nat} (hh : h < 2) (ty : Nat) (l : List Nat) :
    (postEvent d h 3 ty l).1.egr = d.egr ∧ (∀ o ∈ d.out, o ∈ (postEvent d h 3 ty l).1.out) ∧
      ∀ a, Rg.zoneBase 0 ≤ a → ctr (postEvent d h 3 ty l).1 a = ctr d a := by
  have hbelow (a : Nat) (ha : Rg.zoneBase 0 ≤ a) : a ≠ Rg.EVT_DROP h 3 ∧ a ≠ Rg.MSIX_SENT h ∧ a ≠ Rg.PME_SENT h := by
    unfold Rg.EVT_DROP Rg.MSIX_SENT Rg.PME_SENT Rg.baseHIF
    unfold Rg.zoneBase at ha
    omega
  unfold postEvent
  split
  · exact ⟨rfl, fun _ ho => ho, fun _ _ => rfl⟩
  dsimp only
  split
  · refine ⟨by rw [egr_raise, egr_bump], fun o ho => by rwa [out_raise, out_bump], fun a ha => ?_⟩
    rw [ctr_raise, ctr_bump_ne _ _ (hbelow a ha).1]
  · have hw (l) := (HostWork.refl h 3 3 (wf d (ringIdx h 3 3) Fl.PRING_IDX_CONSUMED (ringConsumed d h 3 3 + 1))).makeEntry l
    refine ⟨(hw _).egr.trans (egr_wf ..), fun o ho => (hw _).mem_out ?_, fun a ha => ?_⟩
    · rwa [out_wf]
    · obtain ⟨-, hmsix, hpme⟩ := hbelow a ha
      rw [(hw _).count a hmsix hpme, ctr_wf]

theorem postStamp_spec (d : Dev) (p : Nat) (x : Edit) :
    (postStamp d p x).egr = d.egr ∧ (∀ o ∈ d.out, o ∈ (postStamp d p x).out) ∧ ∀ a, Rg.zoneBase 0 ≤ a → ctr (postStamp d p x) a = ctr d a := by
  have hh : rf d (Rg.QUAD_PTP (p / 4)) Fl.QUAD_PTP_TS_HOST < 2 := getF_lt (rd d (Rg.QUAD_PTP (p / 4))) Fl.QUAD_PTP_TS_HOST
  unfold postStamp
  dsimp only
  split
  · exact postEvent_spec d hh _ _
  · exact ⟨rfl, fun _ ho => ho, fun _ _ => rfl⟩

theorem exec_frameTransmit_waits (h : (tmPort s.dev p).mac = [] ∨ s.dev.life.stopped = true ∨ (port s.dev p).rfault = true) :
    Machine.exec (.frameTransmit p) s = .next s := by
  show execFrameTransmit p s = _
  have hn : (if s.dev.life.stopped || quadHeld s.dev (p.val / 4) || (port s.dev p).rfault then none
      else (tmPort s.dev p).mac.findIdx? (fun e => !paused s.dev p e.desc.cls)) = none := by
    rcases h with h | h | h <;> simp [h]
  simp only [execFrameTransmit, State.onDev, hn]

theorem exec_frameTransmit {x : Edit} {l : List Edit} (h : (tmPort s.dev p).mac = x :: l) (hs : s.dev.life.stopped = false)
    (hr : (port s.dev p).rfault = false) (hq : quadHeld s.dev (p.val / 4) = false) (hp : paused s.dev p x.desc.cls = false) :
    Machine.exec (.frameTransmit p) s = .next { s with dev := watchEdit (postStamp
      (bump (bump (emit (modTm s.dev p (fun t => { t with mac := t.mac.eraseIdx 0 })) (.frame p x.bytes)) (Rg.TX_FRAMES (p.val / 4) (p.val % 4)) 1)
        (Rg.TX_OCTETS (p.val / 4) (p.val % 4)) x.bytes.length) p x) (portZone p) } := by
  show execFrameTransmit p s = _
  have hi : (tmPort s.dev p).mac.findIdx? (fun e => !paused s.dev p e.desc.cls) = some 0 := by
    rw [h, List.findIdx?_cons]
    simp [hp]
  have hx : (tmPort s.dev p).mac[0]? = some x := by simp [h]
  simp only [execFrameTransmit, State.onDev, hs, hr, hq, Bool.or_false, Bool.false_eq_true, if_false, hi, hx]

/-! ## Shapers -/

/-- The buckets of a port after `n` refills. -/
def filled (d : Dev) (p n : Nat) (l : List Int) : List Int :=
  let up (x : Int) (rate burst : Nat) : Int := min (1000 * (burst : Int)) (x + 32 * rate * n)
  l.zipIdx.map (fun e =>
    if e.2 == 8 then up e.1 (rf d (Rg.TM_PSH_RATE (portZone p) (p % 64)) Fl.TM_PSH_RATE_RATE)
      (rf d (Rg.TM_PSH_BURST (portZone p) (p % 64)) Fl.TM_PSH_BURST_BURST)
    else up e.1 (rf d (cshRate p e.2) Fl.TM_CSH_RATE_A_RATE) (rf d (cshBurst p e.2) Fl.TM_CSH_BURST_A_BURST))

theorem tmPort_fillShapers (d : Dev) (p n i : Nat) :
    tmPort (fillShapers d p n) i = if i = p then { tmPort d p with buckets := filled d p n (tmPort d p).buckets } else tmPort d i :=
  tmPort_modTm d p _ i
theorem filled_congr (h : e.regs = d.regs) (p n : Nat) (l : List Int) : filled e p n l = filled d p n l := by
  have hr (a : Nat) (f : Fld) : rf e a f = rf d a f := rf_congr (by simp only [rd, h]) f
  simp only [filled, hr]

/-- Each port of a list is refilled once. -/
theorem foldl_fillShapers (g : Nat → Nat) (hg : Function.Injective g) (n : Nat) (l : List Nat) (hl : l.Nodup) (d : Dev) :
    let e := l.foldl (fun d i => fillShapers d (g i) n) d
    (∃ q, e = { d with egr := { d.egr with ports := q } }) ∧
      ∀ i, tmPort e (g i) = if i ∈ l then { tmPort d (g i) with buckets := filled d (g i) n (tmPort d (g i)).buckets } else tmPort d (g i) := by
  induction l generalizing d with
  | nil => exact ⟨⟨d.egr.ports, rfl⟩, fun i => by simp⟩
  | cons k l ih =>
    obtain ⟨hk, hl⟩ := List.nodup_cons.mp hl
    obtain ⟨⟨q, hq⟩, ht⟩ := ih hl (fillShapers d (g k) n)
    refine ⟨⟨q, by rw [List.foldl_cons, hq]; rfl⟩, fun i => ?_⟩
    rw [List.foldl_cons, ht, tmPort_fillShapers]
    by_cases hik : i = k
    · subst hik
      simp [hk]
    · have hsame (m : List Int) : filled (fillShapers d (g k) n) (g i) n m = filled d (g i) n m := filled_congr rfl _ _ _
      simp [hik, hg.eq_iff, hsame]

theorem getD_filled {l : List Int} (hl : l.length = 9) (d : Dev) (p n : Nat) :
    (filled d p n l).getD 8 0 = min (1000 * (rf d (Rg.TM_PSH_BURST (portZone p) (p % 64)) Fl.TM_PSH_BURST_BURST : Int))
      (l.getD 8 0 + 32 * rf d (Rg.TM_PSH_RATE (portZone p) (p % 64)) Fl.TM_PSH_RATE_RATE * n) := by
  simp [filled, List.getD_eq_getElem?_getD, hl]

theorem exec_shaperRefill : Machine.exec (.shaperRefill z) s = .next { s with
    dev := if nsIn s.dev z / 256 ≤ tget zeroN s.dev.egr.shaperAt z then s.dev
    else (List.range 64).foldl (fun d i => fillShapers d (64 * z.val + i) (nsIn s.dev z / 256 - tget zeroN s.dev.egr.shaperAt z))
      { s.dev with egr := { s.dev.egr with shaperAt := tset zeroN s.dev.egr.shaperAt z (nsIn s.dev z / 256) } } } := rfl

/-! ## Edit memory -/

theorem exec_edtWdata (h : Admits s.dev (Rg.pageOf (Rg.EDT_WDATA z)) m) :
    Machine.exec (.edtWdata z m v) s = .next { s with dev := settle (edtWrite s.dev z v) } := by
  show execEdtWdata z m v s = _
  simp only [execEdtWdata, State.onDevF, State.onDev, guardWrite_ok h]

/-- The set in effect, and one whose frames are still in work, are not written. -/
theorem edtWrite_refused {z : Nat} (h : rf d (Rg.EDT_WADDR z) Fl.EDT_WADDR_WSET = editSet d z ∨ editOldBusy d z = true) :
    (edtWrite d z v).egr = d.egr ∧ ctr (edtWrite d z v) (Rg.EDT_WRITE_REFUSED z) = ctr d (Rg.EDT_WRITE_REFUSED z) + 1 := by
  have hc : (rf d (Rg.EDT_WADDR z) Fl.EDT_WADDR_WSET == editSet d z || editOldBusy d z) = true := by
    rcases h with h | h <;> simp [h]
  unfold edtWrite
  simp only [hc, if_true]
  split
  · exact ⟨by rw [egr_wf, egr_bump], by rw [ctr_wf, ctr_bump_same]; rfl⟩
  · exact ⟨by rw [egr_bump], by rw [ctr_bump_same]; rfl⟩

/-- The device with a word of edit memory written, before the address advances. -/
def edtStored (d : Dev) (z : Nat) (v : W32) : Dev :=
  let w := rf d (Rg.EDT_WADDR z) Fl.EDT_WADDR_WORD
  let st := rf d (Rg.EDT_WADDR z) Fl.EDT_WADDR_WSET
  cfgTouched (setEditWord (if w < 294912 then writePart d (1 + z) (13 * 2048 + st) (w / 2) (if w % 2 == 0 then 0xF0 else 0x0F) 0 else d) z st w v)

theorem edtWrite_stored {z : Nat} (h : rf d (Rg.EDT_WADDR z) Fl.EDT_WADDR_WSET ≠ editSet d z) (hb : editOldBusy d z = false) :
    edtWrite d z v = if rb (edtStored d z v) (Rg.EDT_WADDR z) Fl.EDT_WADDR_AUTOINC
      then wf (edtStored d z v) (Rg.EDT_WADDR z) Fl.EDT_WADDR_WORD (rf d (Rg.EDT_WADDR z) Fl.EDT_WADDR_WORD + 1) else edtStored d z v := by
  simp [edtWrite, h, hb, edtStored]

theorem edtStored_regs (d : Dev) (z : Nat) (v : W32) (a : Nat) : rd (edtStored d z v) a = rd d a := by
  have hset (e : Dev) (s w : Nat) : rd (cfgTouched (setEditWord e z s w v)) a = rd e a := by
    unfold setEditWord
    split <;> rfl
  unfold edtStored
  dsimp only
  rw [hset]
  split
  · exact ((SramWork.refl d).writePart ..).rd a
  · rfl

theorem egr_edtStored {z : Nat} (hw : rf d (Rg.EDT_WADDR z) Fl.EDT_WADDR_WORD < 294912) : (edtStored d z v).egr =
    (setEditWord d z (rf d (Rg.EDT_WADDR z) Fl.EDT_WADDR_WSET) (rf d (Rg.EDT_WADDR z) Fl.EDT_WADDR_WORD) v).egr := by
  have hset (e : Dev) (h : e.egr = d.egr) (s w : Nat) : (cfgTouched (setEditWord e z s w v)).egr = (setEditWord d z s w v).egr := by
    unfold setEditWord cfgTouched
    split
    · simp only [h]
    · exact h
  unfold edtStored
  dsimp only
  rw [if_pos hw]
  exact hset _ ((SramWork.refl d).writePart ..).egr _ _

/-- A word of edit memory after a write of one. -/
theorem editWord_setEditWord {z st w z' st' w' : Nat} (hw : w < 294912) (hst : st < 2) (hst' : st' < 2) :
    editWord (setEditWord d z st w v) z' st' w' = if z' = z ∧ st' = st ∧ w' = w then v else editWord d z' st' w' := by
  unfold editWord setEditWord
  rw [if_pos hw]
  by_cases hw' : w' < 294912
  · simp only [hw', if_true]
    rw [tget_tset]
    refine if_congr ?_ rfl rfl
    omega
  · have hne : w' ≠ w := by omega
    simp [hw', hne]
theorem editWord_congr (h : e.egr = d.egr) (z st w : Nat) : editWord e z st w = editWord d z st w := by simp only [editWord, h]

end Sys2Proof.Machine
end

section
/-! O43: the statement from the rules of the commands. -/

namespace Sys2Proof.Machine
open Sys2Proof Sys2Proof.Terms

variable {s : State} {z : Zone} {m : Master} {v : W32}

theorem voq_raise (d : Dev) (a n z v : Nat) : voq (raise d a n) z v = voq d z v := by rw [voq, urn_raise]; rfl
theorem voq_bump (d : Dev) (a n z v : Nat) : voq (bump d a n) z v = voq d z v := rfl
theorem voq_modStaging (d : Dev) (p c : Nat) (f : Staging → Staging) (z v : Nat) : voq (modStaging d p c f) z v = voq d z v := rfl
theorem bufOf_modStaging (d : Dev) (p c : Nat) (f : Staging → Staging) (x : W32) : bufOf (modStaging d p c f) x = bufOf d x := rfl
theorem ctr_modTm (d : Dev) (p : Nat) (f : TmPort → TmPort) (a : Nat) : ctr (modTm d p f) a = ctr d a := rfl
theorem tmPort_emit (d : Dev) (o : Out) (p : Nat) : tmPort (emit d o) p = tmPort d p := rfl
/-- The counters of sent frames lie in the zones, apart from one another. -/
theorem tx_counters (q i : Nat) : Rg.zoneBase 0 ≤ Rg.TX_FRAMES q i ∧ Rg.zoneBase 0 ≤ Rg.TX_OCTETS q i ∧ Rg.TX_FRAMES q i ≠ Rg.TX_OCTETS q i := by
  unfold Rg.TX_FRAMES Rg.TX_OCTETS Rg.baseQUAD Rg.zoneBase
  omega

/-- An edit word is stored, and the other words are as before. -/
theorem edtWrite_stores (hne : rf s.dev (Rg.EDT_WADDR z) Fl.EDT_WADDR_WSET ≠ editSet s.dev z) (hb : editOldBusy s.dev z = false)
    (hw : rf s.dev (Rg.EDT_WADDR z) Fl.EDT_WADDR_WORD < 294912) :
    let st := rf s.dev (Rg.EDT_WADDR z) Fl.EDT_WADDR_WSET
    let w := rf s.dev (Rg.EDT_WADDR z) Fl.EDT_WADDR_WORD
    let d := edtWrite s.dev z v
    editWord d z st w = v ∧ (∀ z' st' w', z' < 4 → st' < 2 → (z', st', w') ≠ (z.val, st, w) → editWord d z' st' w' = editWord s.dev z' st' w') ∧
      rf d (Rg.EDT_WADDR z) Fl.EDT_WADDR_WORD = if rb s.dev (Rg.EDT_WADDR z) Fl.EDT_WADDR_AUTOINC then w + 1 else w := by
  intro st w d
  have hst : st < 2 := getF_lt _ Fl.EDT_WADDR_WSET
  have hrb : rb (edtStored s.dev z v) (Rg.EDT_WADDR z) Fl.EDT_WADDR_AUTOINC = rb s.dev (Rg.EDT_WADDR z) Fl.EDT_WADDR_AUTOINC :=
    rb_congr (edtStored_regs ..) _
  have hrf : rf (edtStored s.dev z v) (Rg.EDT_WADDR z) Fl.EDT_WADDR_WORD = w := rf_congr (edtStored_regs ..) _
  have hegr : d.egr = (edtStored s.dev z v).egr := by
    simp only [d, edtWrite_stored hne hb]
    split
    · rw [egr_wf]
    · rfl
  have hword (z' st' w' : Nat) (hst' : st' < 2) : editWord d z' st' w' = if z' = z.val ∧ st' = st ∧ w' = w then v else editWord s.dev z' st' w' := by
    rw [editWord_congr (hegr.trans (egr_edtStored hw)), editWord_setEditWord hw hst hst']
  refine ⟨(hword _ _ _ hst).trans (if_pos ⟨rfl, rfl, rfl⟩), fun z' st' w' _ hst' hd => ?_, ?_⟩
  · rw [hword _ _ _ hst', if_neg]
    rintro ⟨rfl, rfl, rfl⟩
    exact hd rfl
  · simp only [d, edtWrite_stored hne hb, hrb]
    split
    · rw [rf_wf_same _ _ _ (by decide)]
      exact Nat.mod_eq_of_lt (Nat.lt_of_le_of_lt hw (by decide))
    · exact hrf

/-- R308: the head of a VOQ goes to staging, or is lost where the port is not UP. -/
theorem exec_voqSend_spec {v : Fin 2048} {x : Desc} {l : List Desc} {b : Buf} (hq : (voq s.dev z v).q = x :: l) (hbal : 0 < (voq s.dev z v).balance)
    (hcopy : x.copy = false) (hb : bufOf s.dev x.handle = some b) (hk : b.kind = 4) (hidx : b.index = v.val)
    (hcr : crosses z (v.val / 8) x = false ∨ (isolated s.dev z = false ∧ isolated s.dev (portZone (v.val / 8)) = false)) :
    let p := v.val / 8
    ∃ d, Machine.exec (.voqSend z v) s = .next { s with dev := settle d } ∧ (voq d z v).q = l ∧
      (voq d z v).balance = (voq s.dev z v).balance - (x.len : Int) ∧ bufOf d x.handle = none ∧
      (portUp s.dev p = true → (staging d p (v.val % 8)).frames =
        (staging s.dev p (v.val % 8)).frames ++ [(x, z.val, (frameOf s.dev x.handle).take x.len, b.tstamp)]) ∧
      (portUp s.dev p = false → (staging d p (v.val % 8)).frames = (staging s.dev p (v.val % 8)).frames ∧
        ctr d (Rg.TM_FLUSHED (portZone p) (p % 64)) = ctr s.dev (Rg.TM_FLUSHED (portZone p) (p % 64)) + 1) := by
  intro p
  obtain ⟨hv, hnone, hegr, hline, hlife, hctr⟩ := headSent_spec (z := z) (l := l) hcopy hb hk hidx
  refine ⟨_, exec_voqSend hq hbal hb hcr, ?_⟩
  rw [portUp_congr hline hlife]
  cases hup : portUp s.dev (v.val / 8)
  · rw [if_neg Bool.false_ne_true]
    refine ⟨?_, ?_, ?_, nofun, fun _ => ⟨?_, ?_⟩⟩
    · rw [voq_raise, voq_bump, hv]
    · rw [voq_raise, voq_bump, hv]
    · rw [bufOf_congr (urn_raise ..), bufOf_congr (urn_bump ..), hnone]
    · rw [staging_raise, staging_bump, staging_congr hegr]
    · rw [ctr_raise, ctr_bump_same, hctr _ (not_sramCtr_flushed _ _ (Nat.mod_lt _ (by decide)))]
      rfl
  · rw [if_pos rfl]
    refine ⟨?_, ?_, ?_, fun _ => ?_, nofun⟩
    · rw [voq_modStaging, hv]
    · rw [voq_modStaging, hv]
    · rw [bufOf_modStaging, hnone]
    · rw [staging_modStaging, staging_congr hegr]

/-- R314: an edit with a list out of range, and one whose list ends at once. -/
theorem exec_editDone_spec {p : Port} {x : Edit} {l : List Edit} (hx : (tmPort s.dev p).edits = x :: l) :
    let z := portZone p
    (16384 ≤ x.desc.edit → ∃ d, Machine.exec (.editDone p) s = .next { s with dev := settle d } ∧ (tmPort d p).edits = l ∧
      (tmPort d p).mac = (tmPort s.dev p).mac ∧ ctr d (Rg.EDT_BAD_EDIT z) = ctr s.dev (Rg.EDT_BAD_EDIT z) + 1) ∧
    (x.desc.edit < 16384 → editWord s.dev z x.set (16 * x.desc.edit) = 0 → x.mark = false → 64 ≤ x.bytes.length →
      x.bytes.length ≤ rf s.dev (Rg.QUAD_MAX_FRAME (p / 4)) Fl.QUAD_MAX_FRAME_MAX_FRAME →
      let b := x.bytes.take (x.bytes.length - 4)
      ∃ d, Machine.exec (.editDone p) s = .next { s with dev := settle d } ∧ (tmPort d p).edits = l ∧
        (tmPort d p).mac = (tmPort s.dev p).mac ++ [{ x with bytes := b ++ fcs b }] ∧
        ctr d (Rg.EDT_EDITED z) = ctr s.dev (Rg.EDT_EDITED z) + 1) := by
  intro z
  obtain ⟨hed, hbad⟩ := not_sramCtr_edited z
  have hwork := editRun_work s.dev p x l
  refine ⟨fun hbig => ?_, fun hsmall hw hm hlen hmax => ?_⟩
  · refine ⟨_, exec_editDone_bad hx (finishEdit_bad hbig), ?_, ?_, ?_⟩
    · rw [tmPort_watchEdit, tmPort_raise, tmPort_bump, tmPort_editRun]
    · rw [tmPort_watchEdit, tmPort_raise, tmPort_bump, tmPort_editRun]
    · have hne : Rg.EDT_BAD_EDIT z ≠ Rg.EDT_EDITED z := by simp [Rg.EDT_EDITED, Rg.EDT_BAD_EDIT]
      rw [ctr_watchEdit, ctr_raise, ctr_bump_same, hwork.count _ hbad, ctr_bump_ne _ _ hne]
      rfl
  · have hw' : editWord (editRun s.dev p x l) z x.set (16 * x.desc.edit) = 0 := by
      rw [editWord_congr hwork.egr]
      exact hw
    have hmax' : x.bytes.length ≤ rf (editRun s.dev p x l) (Rg.QUAD_MAX_FRAME (p / 4)) Fl.QUAD_MAX_FRAME_MAX_FRAME := by
      rw [rf_congr (hwork.rd _)]
      exact hmax
    obtain ⟨f, hf, hegr, hctr⟩ := finishEdit_end hsmall hw' hm hlen hmax'
    refine ⟨_, exec_editDone_good hx hf, ?_, ?_, ?_⟩
    · rw [tmPort_modTm_same, chargeShapers, tmPort_modTm_same, tmPort_congr hegr, tmPort_editRun]
    · rw [tmPort_modTm_same, chargeShapers, tmPort_modTm_same, tmPort_congr hegr, tmPort_editRun]
    · rw [ctr_modTm, chargeShapers, ctr_modTm, hctr, hwork.count _ hed, ctr_bump_same]
      rfl

/-- R317: the first frame at the MAC goes out, and counts. -/
theorem exec_frameTransmit_spec {p : Port} {x : Edit} {l : List Edit} (h : (tmPort s.dev p).mac = x :: l) (hs : s.dev.life.stopped = false)
    (hr : (port s.dev p).rfault = false) (hq : quadHeld s.dev (p.val / 4) = false) (hp : paused s.dev p x.desc.cls = false) :
    ∃ u, Machine.exec (.frameTransmit p) s = .next u ∧ OnlyDev s u ∧ (tmPort u.dev p).mac = l ∧ .frame p x.bytes ∈ u.dev.out ∧
      ctr u.dev (Rg.TX_FRAMES (p / 4) (p % 4)) = ctr s.dev (Rg.TX_FRAMES (p / 4) (p % 4)) + 1 ∧
      ctr u.dev (Rg.TX_OCTETS (p / 4) (p % 4)) = ctr s.dev (Rg.TX_OCTETS (p / 4) (p % 4)) + BitVec.ofNat 64 x.bytes.length := by
  obtain ⟨hegr, hout, hctr⟩ := postStamp_spec (bump (bump (emit (modTm s.dev p (fun t => { t with mac := t.mac.eraseIdx 0 })) (.frame p x.bytes))
    (Rg.TX_FRAMES (p.val / 4) (p.val % 4)) 1) (Rg.TX_OCTETS (p.val / 4) (p.val % 4)) x.bytes.length) p x
  obtain ⟨hzf, hzo, hne⟩ := tx_counters (p.val / 4) (p.val % 4)
  refine ⟨_, exec_frameTransmit h hs hr hq hp, ⟨rfl, rfl⟩, ?_, ?_, ?_, ?_⟩
  · rw [tmPort_watchEdit, tmPort_congr hegr, tmPort_bump, tmPort_bump, tmPort_emit, tmPort_modTm_same, h]
    rfl
  · rw [out_watchEdit]
    exact hout _ (by simp)
  · rw [ctr_watchEdit, hctr _ hzf, ctr_bump_ne _ _ hne, ctr_bump_same, ctr_emit, ctr_modTm]
    rfl
  · rw [ctr_watchEdit, hctr _ hzo, ctr_bump_same, ctr_bump_ne _ _ hne.symm, ctr_emit, ctr_modTm]

/-- R325: a refill that is due fills the bucket of each port. -/
theorem exec_shaperRefill_spec (h : tget zeroN s.dev.egr.shaperAt z < nsIn s.dev z / 256) :
    let k := nsIn s.dev z / 256
    let at_ := tget zeroN s.dev.egr.shaperAt z
    ∃ u, Machine.exec (.shaperRefill z) s = .next u ∧ OnlyDev s u ∧ tget zeroN u.dev.egr.shaperAt z = k ∧
      ∀ i, i < 64 → (tmPort s.dev (64 * z + i)).buckets.length = 9 →
        bucket u.dev (64 * z + i) 8 = min (1000 * (rf s.dev (Rg.TM_PSH_BURST z i) Fl.TM_PSH_BURST_BURST : Int))
          (bucket s.dev (64 * z + i) 8 + 32 * rf s.dev (Rg.TM_PSH_RATE z i) Fl.TM_PSH_RATE_RATE * ((k - at_ : Nat) : Int)) := by
  intro k at_
  obtain ⟨⟨q, hq⟩, hport⟩ := foldl_fillShapers (64 * z.val + ·) (fun a b hab => Nat.add_left_cancel hab) (k - at_) (List.range 64) List.nodup_range
    { s.dev with egr := { s.dev.egr with shaperAt := tset zeroN s.dev.egr.shaperAt z k } }
  have hex := exec_shaperRefill (s := s) (z := z)
  rw [if_neg (Nat.not_le.mpr h)] at hex
  refine ⟨_, hex, ⟨rfl, rfl⟩, ?_, fun i hi hlen => ?_⟩
  · dsimp only
    rw [hq]
    exact tget_tset_same ..
  · have hz : portZone (64 * z.val + i) = z.val := by unfold portZone; omega
    have hi' : (64 * z.val + i) % 64 = i := by omega
    rw [bucket, hport, if_pos (List.mem_range.mpr hi)]
    refine (getD_filled hlen _ _ _).trans ?_
    rw [hz, hi']
    rfl

/-- Settles O43: each clause is the rule of its command. -/
theorem portsSendTheirFrames : Obligations.PortsSendTheirFrames := by
  unfold Obligations.PortsSendTheirFrames
  refine ⟨fun s z v hcalm => ?_, fun s p c => ?_, fun s z => ?_, fun s z m v hadm => ?_⟩
  · refine ⟨fun hw hi => ?_, fun h => ?_, fun h => exec_voqSend_waits hcalm h, fun x l hq hx hi => exec_voqSend_isolated hcalm hq hx hi,
      fun x l b hq hbal hcopy hb hk hidx hcr => exec_voqSend_spec hq hbal hcopy hb hk hidx hcr⟩
    · refine ⟨_, exec_creditRequest, ⟨rfl, rfl⟩, ?_⟩
      rw [if_pos (by simp [hw, hi])]
      exact voq_modVoq ..
    · rw [exec_creditRequest, if_neg]
      rcases h with h | h
      · simp [h]
      · intro hc
        rw [Bool.and_eq_true, Option.isNone_iff_eq_none] at hc
        simp [hc.2] at h
  · refine ⟨exec_creditGrant_held, fun y h1 h2 h3 h4 h5 => ?_, exec_portSelect_waits, fun x y b t l hb hu hq hbl hsh hst hr hlast hf hecn => ?_,
      fun h hc => exec_editDone_none hc h, fun x l hx => exec_editDone_spec hx, exec_frameTransmit_waits,
      fun x l h hs hr hq hp => exec_frameTransmit_spec h hs hr hq hp⟩
    · refine ⟨_, exec_creditGrant h1 h2 h3 h4 h5, ⟨rfl, rfl⟩, ?_, voq_modVoq ..⟩
      dsimp only
      rw [staging_modStaging]
    · refine ⟨_, takenEdit s.dev p x y b t, exec_portSelect hb hu hq hbl (chooseClass_strict hsh hst hr hlast) hf hecn, ⟨rfl, rfl⟩, ?_, ?_,
        rfl, rfl, rfl, rfl⟩
      · simp [staging_modStaging]
      · simp
  · refine ⟨fun h => ?_, exec_shaperRefill_spec⟩
    rw [exec_shaperRefill, if_pos h]
  · exact ⟨fun h => ⟨_, exec_edtWdata hadm, edtWrite_refused h⟩, fun hne hb hw => ⟨_, exec_edtWdata hadm, edtWrite_stores hne hb hw⟩⟩

end Sys2Proof.Machine
end

section
/-!
Doorbells, errors, vectors, D-states and rings of a host port (R402 to R404, R413, R414, R419).
-/

namespace Sys2Proof.Machine
open Sys2Proof Sys2Proof.Terms

variable {d e : Dev} {s : State} {h k r : Nat} {v : W32} {m : Master}

/-! ## Page events -/

@[simp] theorem page_edgeOn (d : Dev) (n p : Nat) : page (edgeOn d n) p = page d p := by
  obtain ⟨_, _, he⟩ := edgeOn_shape d n
  rw [he]
  rfl

theorem getLsbD_event (x : W32) {n : Nat} (hn : n < 32) : (x ||| BitVec.ofNat 32 (1 <<< n)).getLsbD n = true := by
  simp [BitVec.getLsbD_ofNat, Nat.testBit_shiftLeft, hn]

/-- A page event that is raised is in INT_STATUS. -/
theorem raised {pg n : Nat} {q : PageId} (hq : pageId pg = some q) (he : (pageEvents q).isSome = true) (hn : n < 32) :
    (page (raise d pg n) pg).intStatus.getLsbD n = true := by
  obtain ⟨⟨base, cnt⟩, hp⟩ := Option.isSome_iff_exists.mp he
  unfold raise
  simp only [hq, hp]
  have hset (f : Dev → Dev) (hf : ∀ e p, page (f e) p = page e p) :
      (page (f (modPage d pg (fun s => { s with intStatus := s.intStatus ||| BitVec.ofNat 32 (1 <<< n) }))) pg).intStatus.getLsbD n = true := by
    rw [hf, page_modPage_same]
    exact getLsbD_event _ hn
  split
  next hb => simpa [BitVec.testBit_toNat] using hb
  · split
    · split
      · exact hset (fun d => noteCore d _ _ true) fun _ _ => rfl
      · exact hset id fun _ _ => rfl
    · split
      · exact hset (fun d => edgeOn (noteCore d _ _ true) _) fun _ _ => page_edgeOn ..
      · exact hset (fun d => edgeOn d _) fun _ _ => page_edgeOn ..

theorem hifPage_events (h : Host2) : ∃ q, pageId (hifPage h) = some q ∧ (pageEvents q).isSome = true := by
  have hall : ∀ h : Host2, ((pageId (hifPage h)).bind pageEvents).isSome = true := by decide
  have h1 := hall h
  cases hp : pageId (hifPage h) with
  | none => simp [hp] at h1
  | some q => exact ⟨q, rfl, by simpa [hp] using h1⟩

/-! ## Errors of a host port -/

theorem rd_hifErr_ne (d : Dev) (h b : Nat) {a : Nat} (ha : a ≠ Rg.HIF_ERR h) : rd (hifErr d h b) a = rd d a := by
  rw [hifErr, rd_raise, rd_wr_ne _ _ ha]
theorem rd_hifErr (d : Dev) (h : Nat) {b : Nat} (hb : b < 32) : (rd (hifErr d h b) (Rg.HIF_ERR h)).getLsbD b = true := by
  rw [hifErr, rd_raise, rd_wr_same, ← Nat.one_shiftLeft]
  exact getLsbD_event _ hb
theorem hifErr_shape (d : Dev) (h b : Nat) : ∃ rg p i k, hifErr d h b = { d with regs := rg, pages := p, ic := i, ket := k } := by
  obtain ⟨p, i, k, hr⟩ := raise_shape (wr d (Rg.HIF_ERR h) (rd d (Rg.HIF_ERR h) ||| BitVec.ofNat 32 (2 ^ b))) (hifPage h) 2
  exact ⟨_, p, i, k, hr⟩
theorem ctr_hifErr (d : Dev) (h b a : Nat) : ctr (hifErr d h b) a = ctr d a := by obtain ⟨_, _, _, _, he⟩ := hifErr_shape d h b; rw [he]; rfl

/-- The registers of a ring lie apart from the status and errors of the port, and from one another. -/
theorem ring_regs_apart (h k r : Nat) :
    ringIdx h k r ≠ Rg.HIF_ERR h ∧ ringIdx h k r ≠ Rg.HIF_STATUS h ∧ ringIdx h k r ≠ ringMod h k r ∧ ringIdx h k r ≠ ringCtl h k r ∧
      ringCtl h k r ≠ Rg.HIF_STATUS h ∧ ringCtl h k r ≠ ringMod h k r ∧ ringMod h k r ≠ Rg.HIF_STATUS h ∧ Rg.HIF_ERR h ≠ ringMod h k r ∧
      Rg.HIF_ERR h ≠ Rg.HIF_STATUS h := by
  have hb : Rg.baseHIF h + 0x1040 ≤ Rg.ringBlock h k r := by
    unfold Rg.ringBlock
    split
    · omega
    · omega
  unfold ringIdx ringMod ringCtl Rg.HIF_ERR Rg.HIF_STATUS
  omega

/-- A doorbell that is refused sets its error bit and leaves the ring as it was. -/
theorem hifErr_spec (s : State) (h : Host2) (k r : Nat) {b : Nat} (hb : b < 32) :
    OnlyDev s { s with dev := hifErr s.dev h b } ∧ (rd (hifErr s.dev h b) (Rg.HIF_ERR h)).getLsbD b = true ∧
      ringDoorbell (hifErr s.dev h b) h k r = ringDoorbell s.dev h k r ∧ (page (hifErr s.dev h b) (hifPage h)).intStatus.getLsbD 2 = true := by
  obtain ⟨q, hq, he⟩ := hifPage_events h
  exact ⟨⟨rfl, rfl⟩, rd_hifErr _ _ hb, rf_congr (rd_hifErr_ne _ _ _ (ring_regs_apart h k r).1) _, raised hq he (by decide)⟩

/-- R403: a doorbell of any ring. -/
theorem doorbell_spec (s : State) (h : Host2) (k r : Nat) (mk : Nat → W32 → Instr)
    (hmk : ∀ n v, Machine.exec (mk n v) s = .next { s with dev := doorbell s.dev h k r n v }) : Doorbell s h k r mk := by
  unfold Doorbell
  intro c err v n
  refine ⟨fun m hm => ⟨_, hmk m v, ?_⟩, fun hv => ?_, fun hv hn => ⟨_, hmk 4 v, ?_⟩, fun hv hn => ⟨_, hmk 4 v, ⟨rfl, rfl⟩, ?_⟩⟩
  · have : doorbell s.dev h k r m v = hifErr s.dev h 1 := by simp [doorbell, hm]
    exact this ▸ hifErr_spec s h k r (by decide)
  · rw [hmk]
    simp [doorbell, hv]
  · have hd : doorbell s.dev h k r 4 v = hifErr s.dev h 2 := by
      simp only [n, c] at hn
      simp [doorbell, Nat.not_le.mpr hv, hn]
    exact hd ▸ hifErr_spec s h k r (by decide)
  · have hd : rd (doorbell s.dev h k r 4 v) (ringIdx h k r) = rd (wf s.dev (ringIdx h k r) Fl.PRING_IDX_DOORBELL v.toNat) (ringIdx h k r) := by
      simp only [n, c] at hn
      simp only [doorbell, bne_self_eq_false, Bool.false_eq_true, if_false, Nat.not_le.mpr hv, beq_iff_eq, Nat.not_lt.mpr hn]
      split <;> rfl
    refine ⟨?_, ?_⟩
    · rw [ringDoorbell, rf_congr hd, rf_wf_same _ _ _ (by decide)]
      exact Nat.mod_eq_of_lt hv
    · rw [ringConsumed, rf_congr hd, rf_wf_apart _ _ _ (by decide)]
      rfl

/-- An access outside the listed words. -/
theorem exec_bar2HoleAccess (h : Host2) (off : Nat) (w : Bool) : Machine.exec (.bar2HoleAccess h off w) s = .next { s with
    dev := if bar2Listed off then s.dev else if w then hifErr s.dev h 0 else emit (hifErr s.dev h 0) (.barReply h 0) } := rfl

/-! ## Vectors -/

theorem testBit_setBit_same (x n : Nat) : (setBit x n).testBit n = true := by simp [setBit, Nat.testBit_shiftLeft]
theorem testBit_clrBit_same (x n : Nat) : (clrBit x n).testBit n = false := by
  unfold clrBit
  split
  next hx =>
    have hodd : x / 2 ^ n % 2 = 1 := by
      rw [Nat.testBit_eq_decide_div_mod_eq] at hx
      exact of_decide_eq_true hx
    have hle : 2 ^ n * 1 ≤ x := by
      rw [Nat.mul_one]
      exact Nat.ge_two_pow_of_testBit hx
    have hdiv : (x - 2 ^ n) / 2 ^ n = x / 2 ^ n - 1 := by
      have := Nat.sub_mul_div x (2 ^ n) 1
      rwa [Nat.mul_one] at this
    rw [Nat.one_shiftLeft, Nat.testBit_eq_decide_div_mod_eq, hdiv]
    exact decide_eq_false (by omega)
  next hx => simpa using hx

theorem inD3_congr (hr : rd e (Rg.HIF_STATUS h) = rd d (Rg.HIF_STATUS h)) : inD3 e h = inD3 d h := rb_congr hr _

theorem requestVector_d0 (hd : inD3 d h = false) (v : Nat) : requestVector d h v = sendVector d h v := by simp [requestVector, hd]

/-- A pending vector that is unmasked is requested. -/
theorem exec_vectorUnmask (h : Host2) (v : Fin 128) : Machine.exec (.vectorUnmask h v) s = .next { s with
    dev := if (tget zeroN s.dev.hif.pend h).testBit v then
        requestVector (modHif s.dev (fun x => { x with open_ := tmod zeroN x.open_ h (fun b => setBit b v), pend := tmod zeroN x.pend h (fun b => clrBit b v) })) h v
      else modHif s.dev (fun x => { x with open_ := tmod zeroN x.open_ h (fun b => setBit b v) }) } := rfl

/-- A vector that is open is sent, and pending bits stay. -/
theorem pend_sendVector (ho : (tget zeroN d.hif.open_ h).testBit k = true) : (sendVector d h k).hif = d.hif := by
  rw [sendVector, if_pos ho, hif_bump]
  unfold toL0 emit
  dsimp only
  split
  · rfl
  · rw [hif_raise, hif_wf]

/-! ## A ring is enabled -/

theorem exec_ringEnable_none (h : Host2) (kind : RingKind) (hr : ringCount (kindNo kind) ≤ r) :
    Machine.exec (.ringEnable h kind r m) s = .next s := by
  show execRingEnable h kind r m s = _
  simp only [execRingEnable, State.onDev, if_pos hr]
theorem exec_ringEnable (h : Host2) (kind : RingKind) (hr : r < ringCount (kindNo kind)) (ha : Admits s.dev (Rg.pageOf (ringCtl h (kindNo kind) r)) m) :
    Machine.exec (.ringEnable h kind r m) s = .next { s with
      dev := if ringEnabled s.dev h (kindNo kind) r then s.dev else ringUp s.dev h (kindNo kind) r } := by
  show execRingEnable h kind r m s = _
  simp only [execRingEnable, State.onDev, if_neg (Nat.not_le.mpr hr), guardWrite_ok ha]

/-- ENABLE starts the ring at index 0. -/
theorem ringUp_spec (d : Dev) (h k r : Nat) :
    ringEnabled (ringUp d h k r) h k r = true ∧ rd (ringUp d h k r) (ringIdx h k r) = 0 ∧ (ring (ringUp d h k r) h k r).done = 0 := by
  obtain ⟨-, -, -, hne, -⟩ := ring_regs_apart h k r
  have hrd (a : Nat) : rd (ringUp d h k r) a = rd (wr (wf d (ringCtl h k r) Fl.PRING_CTL_ENABLE 1) (ringIdx h k r) 0) a := rfl
  refine ⟨?_, ?_, ?_⟩
  · rw [ringEnabled, rb_congr ((hrd _).trans (rd_wr_ne _ _ hne.symm))]
    exact rb_wf_same d _ true (by decide) rfl
  · rw [hrd, rd_wr_same]
  · rw [ringUp, ring_modRing_same]

/-! ## Moderation -/

theorem exec_moderationTimer (h : Host2) (kind : RingKind) : Machine.exec (.moderationTimer h kind r) s = .next { s with
    dev := match (if r < ringCount (kindNo kind) then (ring s.dev h (kindNo kind) r).timer else none) with
      | some t0 => if rf s.dev (ringThr h (kindNo kind) r) Fl.PRING_THR_TIME_US != 0 &&
            t0 + rf s.dev (ringThr h (kindNo kind) r) Fl.PRING_THR_TIME_US * 1000 * 2 ^ 32 ≤ s.dev.tb
          then trigger s.dev h (kindNo kind) r else s.dev
      | none => s.dev } := rfl

/-- A ring that triggers: its timer stops, its count restarts, and its vector is sent if it may be. -/
theorem trigger_spec (d : Dev) (h k r : Nat) :
    (ring (trigger d h k r) h k r).timer = none ∧ rf (trigger d h k r) (ringMod h k r) Fl.PRING_MOD_UNANNOUNCED = 0 ∧
      (rb d (ringCtl h k r) Fl.PRING_CTL_VEC_EN = true → inD3 d h = false →
        (tget zeroN d.hif.open_ h).testBit (rf d (ringCtl h k r) Fl.PRING_CTL_VECTOR) = true →
        .msix h (rf d (ringCtl h k r) Fl.PRING_CTL_VECTOR) ∈ (trigger d h k r).out) := by
  refine ⟨?_, ?_, fun hv hd ho => ?_⟩
  · rw [trigger, ring_modRing_same]
  · exact (rf_wf_same (f := Fl.PRING_MOD_UNANNOUNCED) _ (ringMod h k r) 0 (by decide)).trans (Nat.zero_mod _)
  · have hm := msix_mem_sendVector ho
    rw [← requestVector_d0 hd] at hm
    unfold trigger
    simp only [hv, if_true]
    exact hm

/-! ## Power states -/

theorem exec_d3hot (h : Host2) (pme : Bool) : Machine.exec (.d3hot h pme) s = .next { s with
    dev := if inD3 s.dev h then modHif s.dev (fun x => { x with pmeEn := tset (fun _ => false) x.pmeEn h pme })
      else raise (wf (modHif s.dev (fun x => { x with pmeEn := tset (fun _ => false) x.pmeEn h pme })) (Rg.HIF_STATUS h) Fl.HIF_STATUS_D3HOT 1) (hifPage h) 1 } := rfl

theorem exec_d0Return (h : Host2) : Machine.exec (.d0Return h) s = .next { s with dev := if inD3 s.dev h then toD0 s.dev h else s.dev } := rfl

end Sys2Proof.Machine
end

section
/-!
A function returns to D0, is reset, or sees its link change (R402, R413, R414, R419).
-/

namespace Sys2Proof.Machine
open Sys2Proof Sys2Proof.Terms

variable {d e : Dev} {s : State} {h k r : Nat}

/-! ## The rings of a host -/

theorem mem_hostRings {k r : Nat} (hk : k < 4) (hr : r < ringCount k) : (k, r) ∈ hostRings :=
  List.mem_flatMap.mpr ⟨k, List.mem_range.mpr hk, List.mem_map.mpr ⟨r, List.mem_range.mpr hr, rfl⟩⟩
theorem of_mem_hostRings {x : Nat × Nat} (hx : x ∈ hostRings) : x.1 < 4 ∧ x.2 < ringCount x.1 := by
  obtain ⟨k, hk, hx⟩ := List.mem_flatMap.mp hx
  obtain ⟨r, hr, rfl⟩ := List.mem_map.mp hx
  exact ⟨List.mem_range.mp hk, List.mem_range.mp hr⟩

theorem ringCount_le (k : Nat) (hk : k < 4) : ringCount k ≤ 64 ∧ (k = 2 → ringCount k ≤ 8) := by
  match k, hk with
  | 0, _ | 1, _ | 2, _ | 3, _ => decide

/-- The rings of a host have their own records. -/
theorem ringKey_inj {k r k' r' : Nat} (hk : k < 4) (hr : r < ringCount k) (hk' : k' < 4) (hr' : r' < ringCount k')
    (he : ringKey h k r = ringKey h k' r') : k = k' ∧ r = r' := by
  obtain ⟨h1, h2⟩ := ringCount_le k hk
  obtain ⟨h3, h4⟩ := ringCount_le k' hk'
  simp only [ringKey, beq_iff_eq] at he
  split at he <;> split at he <;> omega

/-! ## D0 -/

theorem rf_modHif (d : Dev) (g : Hif → Hif) (a : Nat) (f : Fld) : rf (modHif d g) a f = rf d a f := rfl
theorem hif_modHif (d : Dev) (g : Hif → Hif) : (modHif d g).hif = g d.hif := rfl
theorem ras_modHif (d : Dev) (g : Hif → Hif) : (modHif d g).ras = d.ras := rfl
theorem tel_modHif (d : Dev) (g : Hif → Hif) : (modHif d g).tel = d.tel := rfl
theorem out_modHif (d : Dev) (g : Hif → Hif) : (modHif d g).out = d.out := rfl
theorem ring_setHeld (d : Dev) (t : Hif → Tab Nat) (h k r : Nat) : ring (modHif d (fun x => { x with held := t x })) h k r = ring d h k r := rfl

/-- What a ring held in D3hot goes to the host. -/
def flushRing (h : Nat) (d : Dev) (x : Nat × Nat) : Dev :=
  let l := (ring d h x.1 x.2).held
  if l.isEmpty then d
  else l.foldl (fun d w => emit (toL0 d h) (.hostWrite h w.1 w.2)) (modRing d h x.1 x.2 (fun y => { y with held := [] }))

/-- The device back in D0 once its rings are flushed. -/
def ringsFlushed (d : Dev) (h : Nat) : Dev := hostRings.foldl (flushRing h) (raise (wf d (Rg.HIF_STATUS h) Fl.HIF_STATUS_D3HOT 0) (hifPage h) 1)

theorem toD0_eq (d : Dev) (h : Nat) : toD0 d h = (bitsOf (tget zeroN (ringsFlushed d h).hif.held h) 128).foldl (fun d v => sendVector d h v)
    (wf (modHif (ringsFlushed d h) (fun x => { x with held := tset zeroN x.held h 0 })) (Rg.HIF_STATUS h) Fl.HIF_STATUS_HELD_IRQ 0) := by
  unfold toD0 ringsFlushed flushRing
  generalize hostRings = l
  rfl

theorem foldl_hostWrite (h : Nat) (l : List (Nat × List W32)) (d : Dev) :
    LinkWork h d (l.foldl (fun d w => emit (toL0 d h) (.hostWrite h w.1 w.2)) d) ∧
      ∀ w ∈ l, .hostWrite h w.1 w.2 ∈ (l.foldl (fun d w => emit (toL0 d h) (.hostWrite h w.1 w.2)) d).out := by
  induction l generalizing d with
  | nil => exact ⟨.refl h d, fun _ hw => absurd hw List.not_mem_nil⟩
  | cons x l ih =>
    obtain ⟨hw, hm⟩ := ih (emit (toL0 d h) (.hostWrite h x.1 x.2))
    refine ⟨((LinkWork.refl h d).toL0.emit _).trans hw, fun w hwl => ?_⟩
    rcases List.mem_cons.mp hwl with rfl | hwl
    · exact hw.mem_out (by simp)
    · exact hm w hwl

/-- One ring flushed: it holds nothing, its entries are out, and other rings are as before. -/
theorem flushRing_spec (d : Dev) (h : Nat) (x : Nat × Nat) :
    (∀ o ∈ d.out, o ∈ (flushRing h d x).out) ∧
      (∀ f : Fld, f.hi < 6 ∨ 7 < f.lo → rf (flushRing h d x) (Rg.HIF_STATUS h) f = rf d (Rg.HIF_STATUS h) f) ∧
      (ring (flushRing h d x) h x.1 x.2).held = [] ∧ (∀ w ∈ (ring d h x.1 x.2).held, .hostWrite h w.1 w.2 ∈ (flushRing h d x).out) ∧
      ∀ k r, ringKey h k r ≠ ringKey h x.1 x.2 → ring (flushRing h d x) h k r = ring d h k r := by
  by_cases hl : (ring d h x.1 x.2).held = []
  · have he : flushRing h d x = d := by simp [flushRing, hl]
    rw [he, hl]
    exact ⟨fun _ ho => ho, fun _ _ => rfl, rfl, fun _ hw => absurd hw List.not_mem_nil, fun _ _ _ => rfl⟩
  · obtain ⟨hw, hm⟩ := foldl_hostWrite h (ring d h x.1 x.2).held (modRing d h x.1 x.2 (fun y => { y with held := [] }))
    have he : flushRing h d x = (ring d h x.1 x.2).held.foldl (fun d w => emit (toL0 d h) (.hostWrite h w.1 w.2))
        (modRing d h x.1 x.2 (fun y => { y with held := [] })) := by simp [flushRing, hl]
    rw [he]
    refine ⟨fun o ho => hw.mem_out ho, fun f hf => (hw.field f hf).trans rfl, ?_, hm, fun k r hne => ?_⟩
    · rw [ring_congr hw.rings, ring_modRing_same]
    · rw [ring_congr hw.rings, ring_modRing, if_neg hne]

/-- All rings of a list flushed. -/
theorem foldl_flushRing (h : Nat) (l : List (Nat × Nat)) (hl : ∀ x ∈ l, x.1 < 4 ∧ x.2 < ringCount x.1) (d : Dev) :
    let e := l.foldl (flushRing h) d
    (∀ o ∈ d.out, o ∈ e.out) ∧ (∀ f : Fld, f.hi < 6 ∨ 7 < f.lo → rf e (Rg.HIF_STATUS h) f = rf d (Rg.HIF_STATUS h) f) ∧
      ∀ k r, k < 4 → r < ringCount k → ((ring d h k r).held = [] ∨ (k, r) ∈ l → (ring e h k r).held = []) ∧
        ((k, r) ∈ l → ∀ w ∈ (ring d h k r).held, .hostWrite h w.1 w.2 ∈ e.out) := by
  induction l generalizing d with
  | nil => exact ⟨fun _ ho => ho, fun _ _ => rfl, fun k r _ _ => ⟨fun hh => hh.resolve_right List.not_mem_nil, fun hh => absurd hh List.not_mem_nil⟩⟩
  | cons x l ih =>
    obtain ⟨hout, hfld, hring⟩ := ih (fun y hy => hl y (List.mem_cons_of_mem _ hy)) (flushRing h d x)
    obtain ⟨xout, xfld, xheld, xsent, xne⟩ := flushRing_spec d h x
    obtain ⟨hx1, hx2⟩ := hl x List.mem_cons_self
    refine ⟨fun o ho => hout o (xout o ho), fun f hf => (hfld f hf).trans (xfld f hf), fun k r hk hr => ?_⟩
    obtain ⟨rheld, rsent⟩ := hring k r hk hr
    by_cases hkey : ringKey h k r = ringKey h x.1 x.2
    · obtain ⟨rfl, rfl⟩ := ringKey_inj hk hr hx1 hx2 hkey
      exact ⟨fun _ => rheld (.inl xheld), fun _ w hw => hout _ (xsent w hw)⟩
    · have hmem (hm : (k, r) ∈ x :: l) : (k, r) ∈ l := (List.mem_cons.mp hm).resolve_left fun hxx => hkey (by rw [← hxx])
      rw [← xne k r hkey]
      exact ⟨fun hh => rheld (hh.imp id hmem), fun hm => rsent (hmem hm)⟩

/-- The function in D0: nothing is held, and what was held is out. -/
theorem toD0_spec (d : Dev) (h : Nat) : inD3 (toD0 d h) h = false ∧ rb (toD0 d h) (Rg.HIF_STATUS h) Fl.HIF_STATUS_HELD_IRQ = false ∧
    ∀ k r, k < 4 → r < ringCount k → (ring (toD0 d h) h k r).held = [] ∧ ∀ w ∈ (ring d h k r).held, .hostWrite h w.1 w.2 ∈ (toD0 d h).out := by
  obtain ⟨-, hfld, hring⟩ := foldl_flushRing h hostRings (fun _ => of_mem_hostRings) (raise (wf d (Rg.HIF_STATUS h) Fl.HIF_STATUS_D3HOT 0) (hifPage h) 1)
  have hfl : hostRings.foldl (flushRing h) (raise (wf d (Rg.HIF_STATUS h) Fl.HIF_STATUS_D3HOT 0) (hifPage h) 1) = ringsFlushed d h := rfl
  rw [hfl] at hfld hring
  have hw : LinkWork h (wf (modHif (ringsFlushed d h) (fun x => { x with held := tset zeroN x.held h 0 })) (Rg.HIF_STATUS h) Fl.HIF_STATUS_HELD_IRQ 0)
      (toD0 d h) := by
    rw [toD0_eq]
    exact .foldl _ (fun _ v hx => hx.sendVector v) _ (.refl h _)
  refine ⟨?_, ?_, fun k r hk hr => ?_⟩
  · have hd3 : rf (toD0 d h) (Rg.HIF_STATUS h) Fl.HIF_STATUS_D3HOT = 0 := by
      rw [hw.field _ (by decide), rf_wf_apart _ _ _ (by decide), rf_modHif, hfld _ (by decide), rf_congr (rd_raise ..),
        rf_wf_same _ _ _ (by decide), Nat.zero_mod]
    simp [inD3, rb, hd3]
  · have hirq : rf (toD0 d h) (Rg.HIF_STATUS h) Fl.HIF_STATUS_HELD_IRQ = 0 := by
      rw [hw.field _ (by decide), rf_wf_same _ _ _ (by decide), Nat.zero_mod]
    simp [rb, hirq]
  · obtain ⟨hheld, hsent⟩ := hring k r hk hr
    have hstart : ring (raise (wf d (Rg.HIF_STATUS h) Fl.HIF_STATUS_D3HOT 0) (hifPage h) 1) h k r = ring d h k r :=
      ring_congr (by rw [hif_raise, hif_wf]) h k r
    rw [hstart] at hsent
    refine ⟨?_, fun w hwl => hw.mem_out ?_⟩
    · rw [ring_congr hw.rings, ring_congr (congrArg Hif.rings (hif_wf ..)), ring_setHeld]
      exact hheld (.inr (mem_hostRings hk hr))
    · rw [out_wf, out_modHif]
      exact hsent (mem_hostRings hk hr) w hwl

/-! ## A reset of the function -/

/-- Registers, host rings, fault records and telemetry are as before. -/
structure Aside (d e : Dev) : Prop where
  regs : e.regs = d.regs
  hif : e.hif = d.hif
  ras : e.ras = d.ras
  tel : e.tel = d.tel

namespace Aside

theorem refl (d : Dev) : Aside d d := ⟨rfl, rfl, rfl, rfl⟩
theorem trans {f : Dev} (h : Aside d e) (g : Aside e f) : Aside d f :=
  ⟨g.regs.trans h.regs, g.hif.trans h.hif, g.ras.trans h.ras, g.tel.trans h.tel⟩
theorem ite (c : Prop) [Decidable c] {x y : Dev} (h : Aside d x) (g : Aside d y) : Aside d (if c then x else y) := by split <;> assumption
theorem foldl {β : Type} (f : Dev → β → Dev) (hf : ∀ e x, Aside d e → Aside d (f e x)) (l : List β) (h : Aside d e) : Aside d (l.foldl f e) := by
  induction l generalizing e with
  | nil => exact h
  | cons x l ih => exact ih (hf e x h)
theorem bump (h : Aside d e) (a n : Nat) : Aside d (bump e a n) := h.trans ⟨rfl, rfl, rfl, rfl⟩
theorem raise (h : Aside d e) (p n : Nat) : Aside d (raise e p n) := by
  obtain ⟨q, i, k, hr⟩ := raise_shape e p n
  rw [hr]
  exact h.trans ⟨rfl, rfl, rfl, rfl⟩
theorem modBuf (h : Aside d e) (n : Nat) (f : Buf → Buf) : Aside d (modBuf e n f) := h.trans ⟨rfl, rfl, rfl, rfl⟩
theorem modLku (h : Aside d e) (f : LockUnit → LockUnit) : Aside d (modLku e f) := h.trans ⟨rfl, rfl, rfl, rfl⟩
theorem modBar (h : Aside d e) (f : Bar → Bar) : Aside d (modBar e f) := h.trans ⟨rfl, rfl, rfl, rfl⟩
theorem rd (h : Aside d e) (a : Nat) : rd e a = rd d a := by simp only [Machine.rd, h.regs]

/-- A buffer is given up, or refused. -/
theorem freeRec (h : Aside d e) (n : Nat) : Aside d (freeRec e n) :=
  h.trans ⟨(gaveUp_freeRec e n).regs, (gaveUp_freeRec e n).hif, (gaveUp_freeRec e n).ras, (gaveUp_freeRec e n).tel⟩
theorem freeRefused (h : Aside d e) (z n : Nat) : Aside d (freeRefused e z n) := (h.bump _ _).raise _ _
theorem decRef (h : Aside d e) (x : W32) : Aside d (decRef e x) := by
  unfold Machine.decRef
  split
  · have hops : Aside d (if isolated e (hZone x) = true then e else Machine.bump e (Rg.ATOM_OPS 0) 1) := .ite _ h (h.bump _ _)
    exact .ite _ (.ite _ (hops.freeRec _) (hops.modBuf _ _)) ((h.bump _ _).raise _ _)
  · exact .ite _ h ((h.bump _ _).raise _ _)
theorem freeBy (h : Aside d e) (x : W32) (n i : Nat) : Aside d (freeBy e x n i) := by
  unfold Machine.freeBy
  split
  · exact .ite _ (h.decRef _) (.ite _ (h.freeRec _) (h.freeRefused _ _))
  · exact .ite _ h (h.freeRefused _ _)

/-- A lock passes to its next waiter, or the table takes one. -/
theorem passTo (h : Aside d e) (w : LockWait) : Aside d (passTo e w) := (h.modLku _).bump _ _
theorem fillTable (n : Nat) (h : Aside d e) : Aside d (fillTable e n) := by
  induction n generalizing e with
  | zero => exact h
  | succ n ih =>
    unfold Machine.fillTable
    split
    · exact h
    · split
      · exact h
      · split
        · exact ih (h.modLku _)
        · exact ih (h.passTo _)
theorem watchLocks (h : Aside d e) : Aside d (watchLocks e) := by
  unfold Machine.watchLocks
  refine .foldl _ (fun e x he => ?_) _ h
  dsimp only
  split
  · exact he
  · exact .ite _ (.ite _ (Aside.bump (he.modLku _) _ _) ((Aside.bump (he.modLku _) _ _).raise _ _)) he
theorem releaseLock (h : Aside d e) (a : Nat) : Aside d (releaseLock e a).1 := by
  unfold Machine.releaseLock
  split
  · exact h.bump _ _
  · refine Aside.watchLocks ?_
    split
    · exact (h.modBar _).passTo _
    · exact ((h.modBar _).modLku _).fillTable _
theorem slotCancel (h : Aside d e) (p i : Nat) : Aside d (slotCancel e p i) := by
  unfold Machine.slotCancel
  split
  · exact h
  · exact .ite _ ((h.modLku _).releaseLock _) (h.modLku _)

end Aside

/-- One ring out of service. -/
def ringDown (h : Nat) (d : Dev) (x : Nat × Nat) : Dev :=
  let d := modRing (wf d (ringCtl h x.1 x.2) Fl.PRING_CTL_ENABLE 0) h x.1 x.2 (fun y => { y with timer := none, held := [], wait := none })
  if x.1 == 0 then (puntJobs d h x.2).foldl (fun d j => freeBy d j.handle 6 (128 * h + x.2)) (setPuntJobs d h x.2 []) else d

/-- `e` is `d` with rings of host `h` out of service. -/
structure RingsDown (h : Nat) (d e : Dev) : Prop where
  status : rd e (Rg.HIF_STATUS h) = rd d (Rg.HIF_STATUS h)
  opened : e.hif.open_ = d.hif.open_
  ras : e.ras = d.ras
  tel : e.tel = d.tel
  off : ∀ k r, ringEnabled d h k r = false → ringEnabled e h k r = false

namespace RingsDown

theorem refl (h : Nat) (d : Dev) : RingsDown h d d := ⟨rfl, rfl, rfl, rfl, fun _ _ hk => hk⟩
theorem trans {f : Dev} (w : RingsDown h d e) (g : RingsDown h e f) : RingsDown h d f :=
  ⟨g.status.trans w.status, g.opened.trans w.opened, g.ras.trans w.ras, g.tel.trans w.tel, fun k r hk => g.off k r (w.off k r hk)⟩
theorem aside (g : Aside d e) : RingsDown h d e :=
  ⟨g.rd _, congrArg Hif.open_ g.hif, g.ras, g.tel, fun _ _ hk => (rb_congr (g.rd _) _).trans hk⟩

/-- ENABLE of one ring is cleared. -/
theorem clear (d : Dev) (h k r : Nat) :
    RingsDown h d (wf d (ringCtl h k r) Fl.PRING_CTL_ENABLE 0) ∧ ringEnabled (wf d (ringCtl h k r) Fl.PRING_CTL_ENABLE 0) h k r = false := by
  obtain ⟨-, -, -, -, hne, -⟩ := ring_regs_apart h k r
  have hself : ringEnabled (wf d (ringCtl h k r) Fl.PRING_CTL_ENABLE 0) h k r = false := rb_wf_same d _ false (by decide) rfl
  refine ⟨⟨rd_wf_ne _ _ _ hne.symm, congrArg Hif.open_ (hif_wf ..), ras_wf .., tel_wf .., fun k' r' hk => ?_⟩, hself⟩
  by_cases he : ringCtl h k' r' = ringCtl h k r
  · rw [ringEnabled, he]
    exact hself
  · rw [ringEnabled, rb_congr (rd_wf_ne _ _ _ he)]
    exact hk
theorem modRing (d : Dev) (h k r : Nat) (f : Ring → Ring) : RingsDown h d (modRing d h k r f) := ⟨rfl, rfl, rfl, rfl, fun _ _ hk => hk⟩
theorem setPuntJobs (d : Dev) (h r : Nat) (l : List PuntJob) : RingsDown h d (setPuntJobs d h r l) := ⟨rfl, rfl, rfl, rfl, fun _ _ hk => hk⟩

end RingsDown

theorem ringDown_spec (h : Nat) (d : Dev) (x : Nat × Nat) : RingsDown h d (ringDown h d x) ∧ ringEnabled (ringDown h d x) h x.1 x.2 = false := by
  obtain ⟨hw, hoff⟩ := RingsDown.clear d h x.1 x.2
  have hring := RingsDown.modRing (wf d (ringCtl h x.1 x.2) Fl.PRING_CTL_ENABLE 0) h x.1 x.2 (fun y => { y with timer := none, held := [], wait := none })
  have hfree (e : Dev) : RingsDown h e ((puntJobs e h x.2).foldl (fun d j => freeBy d j.handle 6 (128 * h + x.2)) (setPuntJobs e h x.2 [])) :=
    (RingsDown.setPuntJobs e h x.2 []).trans (.aside (.foldl _ (fun _ _ hx => hx.freeBy ..) _ (.refl _)))
  unfold ringDown
  dsimp only
  split
  · exact ⟨(hw.trans hring).trans (hfree _), (hring.trans (hfree _)).off _ _ hoff⟩
  · exact ⟨hw.trans hring, hring.off _ _ hoff⟩

theorem foldl_ringDown (h : Nat) (l : List (Nat × Nat)) (d : Dev) :
    RingsDown h d (l.foldl (ringDown h) d) ∧ ∀ x ∈ l, ringEnabled (l.foldl (ringDown h) d) h x.1 x.2 = false := by
  induction l generalizing d with
  | nil => exact ⟨.refl h d, fun _ hx => absurd hx List.not_mem_nil⟩
  | cons y l ih =>
    obtain ⟨hl, hoff⟩ := ih (ringDown h d y)
    obtain ⟨hy, hyoff⟩ := ringDown_spec h d y
    refine ⟨hy.trans hl, fun x hx => ?_⟩
    rcases List.mem_cons.mp hx with rfl | hx
    · exact hl.off _ _ hyoff
    · exact hoff x hx

/-- Every vector masked, none pending or held, and no PM_PME. -/
def masked (h : Nat) (x : Hif) : Hif :=
  { x with
    open_ := tset zeroN x.open_ h 0, pend := tset zeroN x.pend h 0, held := tset zeroN x.held h 0
    pmeEn := tset (fun _ => false) x.pmeEn h false, pmeStatus := tset (fun _ => false) x.pmeStatus h false }

/-- The status word and the vectors of a function that is reset, before its rings go out of service. -/
def functionCleared (d : Dev) (h : Nat) : Dev :=
  let e := modHif (wf (wf (wf d (Rg.HIF_STATUS h) Fl.HIF_STATUS_D3HOT 0) (Rg.HIF_STATUS h) Fl.HIF_STATUS_BME 0) (Rg.HIF_STATUS h) Fl.HIF_STATUS_HELD_IRQ 0)
    (masked h)
  if inD3 d h then raise e (hifPage h) 1 else e

theorem resetFunction_eq (d : Dev) (h : Nat) : resetFunction d h =
    (List.range 64).foldl (fun d i => modLkSlot (slotCancel d h i) h i (fun x => { x with stall := none }))
      (hostRings.foldl (ringDown h) (functionCleared d h)) := by
  unfold resetFunction functionCleared masked ringDown
  generalize hostRings = l
  generalize List.range 64 = m
  rfl

/-- What clearing leaves: the fields of the status word apart from those cleared, and no vector open. -/
theorem functionCleared_spec (d : Dev) (h : Nat) :
    let e := functionCleared d h
    rf e (Rg.HIF_STATUS h) Fl.HIF_STATUS_D3HOT = 0 ∧ rf e (Rg.HIF_STATUS h) Fl.HIF_STATUS_BME = 0 ∧
      (∀ f : Fld, f.hi < 8 → rf e (Rg.HIF_STATUS h) f = rf d (Rg.HIF_STATUS h) f) ∧ tget zeroN e.hif.open_ h = 0 ∧ e.ras = d.ras ∧ e.tel = d.tel := by
  intro e
  have hrf (f : Fld) : rf e (Rg.HIF_STATUS h) f = rf (wf (wf (wf d (Rg.HIF_STATUS h) Fl.HIF_STATUS_D3HOT 0) (Rg.HIF_STATUS h) Fl.HIF_STATUS_BME 0)
      (Rg.HIF_STATUS h) Fl.HIF_STATUS_HELD_IRQ 0) (Rg.HIF_STATUS h) f := by
    simp only [e, functionCleared]
    split
    · rw [rf_congr (rd_raise ..), rf_modHif]
    · rw [rf_modHif]
  refine ⟨?_, ?_, fun f hf => ?_, ?_, ?_, ?_⟩
  · rw [hrf, rf_wf_apart _ _ _ (by decide), rf_wf_apart _ _ _ (by decide), rf_wf_same _ _ _ (by decide), Nat.zero_mod]
  · rw [hrf, rf_wf_apart _ _ _ (by decide), rf_wf_same _ _ _ (by decide), Nat.zero_mod]
  · have h8 (g : Fld) (hg : 8 ≤ g.lo) : g.hi < f.lo ∨ f.hi < g.lo := .inr (by omega)
    rw [hrf, rf_wf_apart _ _ _ (h8 _ (by decide)), rf_wf_apart _ _ _ (h8 _ (by decide)), rf_wf_apart _ _ _ (h8 _ (by decide))]
  · have hhif : e.hif = masked h d.hif := by
      simp only [e, functionCleared]
      split
      · rw [hif_raise, hif_modHif, hif_wf, hif_wf, hif_wf]
      · rw [hif_modHif, hif_wf, hif_wf, hif_wf]
    rw [hhif]
    exact tget_tset_same zeroN d.hif.open_ h 0
  · simp only [e, functionCleared]
    split
    · rw [ras_raise, ras_modHif, ras_wf, ras_wf, ras_wf]
    · rw [ras_modHif, ras_wf, ras_wf, ras_wf]
  · simp only [e, functionCleared]
    split
    · rw [tel_raise, tel_modHif, tel_wf, tel_wf, tel_wf]
    · rw [tel_modHif, tel_wf, tel_wf, tel_wf]

/-- A function that was reset: in D0, no bus master, every vector masked, every ring out of service (R402). -/
theorem resetFunction_spec (d : Dev) (h : Nat) :
    let e := resetFunction d h
    inD3 e h = false ∧ rb e (Rg.HIF_STATUS h) Fl.HIF_STATUS_BME = false ∧ tget zeroN e.hif.open_ h = 0 ∧
      (∀ k r, k < 4 → r < ringCount k → ringEnabled e h k r = false) ∧
      (∀ f : Fld, f.hi < 8 → rf e (Rg.HIF_STATUS h) f = rf d (Rg.HIF_STATUS h) f) ∧ e.ras = d.ras ∧ e.tel = d.tel := by
  intro e
  obtain ⟨hd3, hbme, hfld, hopen, hras, htel⟩ := functionCleared_spec d h
  obtain ⟨hdown, hoff⟩ := foldl_ringDown h hostRings (functionCleared d h)
  have hside : Aside (hostRings.foldl (ringDown h) (functionCleared d h)) e := by
    rw [show e = _ from resetFunction_eq d h]
    exact .foldl _ (fun _ i hx => (hx.slotCancel h i).modLku _) _ (.refl _)
  have hall : RingsDown h (functionCleared d h) e := hdown.trans (.aside hside)
  have hrf (f : Fld) : rf e (Rg.HIF_STATUS h) f = rf (functionCleared d h) (Rg.HIF_STATUS h) f := rf_congr hall.status f
  refine ⟨?_, ?_, ?_, fun k r hk hr => ?_, fun f hf => (hrf f).trans (hfld f hf), hall.ras.trans hras, hall.tel.trans htel⟩
  · simp [inD3, rb, hrf, hd3]
  · simp [rb, hrf, hbme]
  · rw [hall.opened, hopen]
  · exact (RingsDown.aside hside).off k r (hoff (k, r) (mem_hostRings hk hr))

theorem calm_resetFunction (hc : Calm d) : Calm (resetFunction d h) := by
  obtain ⟨-, -, -, -, -, hras, htel⟩ := resetFunction_spec d h
  exact ⟨(congrArg Ras.todo hras).trans hc.1, (congrArg Tel.freezing htel).trans hc.2⟩

theorem exec_functionReset (hc : Calm s.dev) (h : Host2) : Machine.exec (.functionReset h) s = .next { s with dev := resetFunction s.dev h } := by
  show execFunctionReset h s = _
  simp only [execFunctionReset, State.onDevF, State.onDev, settle_of_calm (calm_resetFunction hc)]

/-! ## The link changes -/

/-- The status word with a new width, speed and power state of the link. -/
def linkStatus (d : Dev) (h width speed pm : Nat) : Dev :=
  let r := Rg.HIF_STATUS h
  wf (wf (wf d r Fl.HIF_STATUS_WIDTH width) r Fl.HIF_STATUS_SPEED (b2n (width != 0) * speed)) r Fl.HIF_STATUS_LINK_PM (b2n (width != 0) * pm)

theorem linkStatus_fields (d : Dev) (h width speed pm : Nat) :
    rf (linkStatus d h width speed pm) (Rg.HIF_STATUS h) Fl.HIF_STATUS_WIDTH = width % 8 ∧
      rf (linkStatus d h width speed pm) (Rg.HIF_STATUS h) Fl.HIF_STATUS_SPEED = b2n (width != 0) * speed % 8 ∧
      rf (linkStatus d h width speed pm) (Rg.HIF_STATUS h) Fl.HIF_STATUS_LINK_PM = b2n (width != 0) * pm % 4 := by
  unfold linkStatus
  dsimp only
  refine ⟨?_, ?_, ?_⟩
  · rw [rf_wf_apart _ _ _ (by decide), rf_wf_apart _ _ _ (by decide), rf_wf_same _ _ _ (by decide)]
    rfl
  · rw [rf_wf_apart _ _ _ (by decide), rf_wf_same _ _ _ (by decide)]
    rfl
  · rw [rf_wf_same _ _ _ (by decide)]
    rfl
theorem calm_linkStatus (hc : Calm d) (h width speed pm : Nat) : Calm (linkStatus d h width speed pm) := by
  unfold linkStatus
  simpa only [Calm, ras_wf, tel_wf] using hc

theorem linkTo_eq (d : Dev) (h width speed pm : Nat) : linkTo d h width speed pm =
    if rd (linkStatus d h width speed pm) (Rg.HIF_STATUS h) == rd d (Rg.HIF_STATUS h) then linkStatus d h width speed pm
    else if width == 0 then resetFunction (raise (linkStatus d h width speed pm) (hifPage h) 0) h
    else raise (linkStatus d h width speed pm) (hifPage h) 0 := rfl

theorem calm_raise (hc : Calm d) (p n : Nat) : Calm (raise d p n) := by
  rw [Calm, ras_raise, tel_raise]
  exact hc

/-- The link stays up: its new width, speed and power state show. -/
theorem linkTo_up (hc : Calm d) {width speed pm : Nat} (hw : width ≠ 0) :
    Calm (linkTo d h width speed pm) ∧ ∀ f, rf (linkTo d h width speed pm) (Rg.HIF_STATUS h) f = rf (linkStatus d h width speed pm) (Rg.HIF_STATUS h) f := by
  have hw0 : (width == 0) = false := by simpa using hw
  rw [linkTo_eq, hw0]
  simp only [Bool.false_eq_true, if_false]
  split
  · exact ⟨calm_linkStatus hc .., fun _ => rfl⟩
  · exact ⟨calm_raise (calm_linkStatus hc ..) _ _, fun f => rf_congr (rd_raise ..) f⟩

/-- A link that goes down resets the function. -/
theorem linkTo_down (hw : rf d (Rg.HIF_STATUS h) Fl.HIF_STATUS_WIDTH ≠ 0) :
    linkTo d h 0 0 0 = resetFunction (raise (linkStatus d h 0 0 0) (hifPage h) 0) h := by
  have hne : rd (linkStatus d h 0 0 0) (Rg.HIF_STATUS h) ≠ rd d (Rg.HIF_STATUS h) := fun he =>
    hw ((rf_congr he Fl.HIF_STATUS_WIDTH).symm.trans (linkStatus_fields d h 0 0 0).1)
  rw [linkTo_eq, if_neg (by simpa using hne)]
  rfl

theorem exec_hostLinkChange (h : Host2) (w sp pm : Nat) : Machine.exec (.hostLinkChange h w sp pm) s = .next { s with
    dev := settle (if 5 ≤ w || 6 ≤ sp || 3 ≤ pm || ((w == 0) != (sp == 0)) then s.dev else linkTo s.dev h (min w (hostWidth s.dev h)) sp pm) } := rfl

end Sys2Proof.Machine
end

section
/-!
Punts and the end of an inject (R408 to R410).
-/

namespace Sys2Proof.Machine
open Sys2Proof Sys2Proof.Terms

variable {d e : Dev} {s : State} {h r : Nat} {j : PuntJob} {w : List W32} {b : Buf} {l : List PuntJob} {st n : Nat}

/-- The counters of a host port that frames change lie apart from those of its interrupts. -/
theorem hif_counters (h : Nat) :
    (Rg.PUNT_FRAMES h ≠ Rg.MSIX_SENT h ∧ Rg.PUNT_FRAMES h ≠ Rg.PME_SENT h ∧ Rg.PUNT_BYTES h ≠ Rg.MSIX_SENT h ∧ Rg.PUNT_BYTES h ≠ Rg.PME_SENT h ∧
      Rg.PUNT_FRAMES h ≠ Rg.PUNT_BYTES h) ∧
    (Rg.INJ_FRAMES h ≠ Rg.MSIX_SENT h ∧ Rg.INJ_FRAMES h ≠ Rg.PME_SENT h ∧ Rg.INJ_FAIL h ≠ Rg.MSIX_SENT h ∧ Rg.INJ_FAIL h ≠ Rg.PME_SENT h ∧
      Rg.INJ_FRAMES h ≠ Rg.INJ_BYTES h) := by
  unfold Rg.PUNT_FRAMES Rg.PUNT_BYTES Rg.MSIX_SENT Rg.PME_SENT Rg.INJ_FRAMES Rg.INJ_FAIL Rg.INJ_BYTES
  omega

/-- A counter outside the first page of a host port is none of those of its injects and interrupts. -/
theorem hif_apart {h a : Nat} (ha : a < Rg.baseHIF h ∨ Rg.baseHIF h + 0x1000 ≤ a) :
    a ≠ Rg.MSIX_SENT h ∧ a ≠ Rg.PME_SENT h ∧ a ≠ Rg.INJ_FRAMES h ∧ a ≠ Rg.INJ_BYTES h ∧ a ≠ Rg.INJ_FAIL h := by
  unfold Rg.MSIX_SENT Rg.PME_SENT Rg.INJ_FRAMES Rg.INJ_BYTES Rg.INJ_FAIL
  omega

theorem urn_modHif (d : Dev) (g : Hif → Hif) : (modHif d g).urn = d.urn := rfl
theorem adm_modHif (d : Dev) (g : Hif → Hif) : (modHif d g).adm = d.adm := rfl
theorem adm_wf (d : Dev) (a : Nat) (f : Fld) (x : Nat) : (wf d a f x).adm = d.adm := rfl
theorem rf_modRing (d : Dev) (h k r : Nat) (g : Ring → Ring) (a : Nat) (f : Fld) : rf (modRing d h k r g) a f = rf d a f := rfl

/-- The counters of a host port are none of an on-die memory. -/
theorem not_sramCtr_punt {h : Nat} (hh : h < 2) : ¬ SramCtr (Rg.PUNT_FRAMES h) ∧ ¬ SramCtr (Rg.PUNT_BYTES h) := by
  unfold SramCtr
  constructor <;> rintro ⟨pl, hp⟩
  all_goals
    unfold pwAt Rg.PW_UNCORR Rg.PW_CORRECTED Rg.PW_LOG_OVERFLOW Rg.ZPW_UNCORR Rg.ZPW_CORRECTED Rg.ZPW_LOG_OVERFLOW Rg.baseZRAS Rg.baseRAS
      Rg.zoneBase at hp
  · unfold Rg.PUNT_FRAMES Rg.baseHIF at hp
    split at hp
    · omega
    · omega
  · unfold Rg.PUNT_BYTES Rg.baseHIF at hp
    split at hp
    · omega
    · omega

/-! ## Punts -/

/-- The bytes that a punt writes at most: its frame without the FCS. -/
def puntData (d : Dev) (j : PuntJob) : List Byte := (frameOf d j.handle).take ((frameOf d j.handle).length - 4)

/-- The punt's frame has been read, and its job is off the list. -/
def puntRead (d : Dev) (h r : Nat) (j : PuntJob) (n : Nat) : Dev :=
  setPuntJobs (readFrame d j.handle n) h r ((puntJobs (readFrame d j.handle n) h r).drop 1)

theorem puntRead_spec (hj : puntJobs d h r = j :: l) (n : Nat) :
    puntJobs (puntRead d h r j n) h r = l ∧ (puntRead d h r j n).urn = d.urn ∧ ∀ a, ¬ SramCtr a → ctr (puntRead d h r j n) a = ctr d a := by
  have hw := (SramWork.refl d).readFrame j.handle n
  refine ⟨?_, hw.urn, hw.count⟩
  have hj' : puntJobs (readFrame d j.handle n) h r = j :: l := by rw [← hj, puntJobs, hw.hif]; rfl
  rw [puntRead, hj']
  exact tget_tset_same ..

/-- The end of a punt: its entry is made and its cells come back. -/
theorem punt_ends (hb : bufOf e j.handle = some b) (hk : b.kind = 6) (hi : b.index = 128 * h + r) (x : List W32) :
    let f := freeBy (makeEntry e h 0 r x) j.handle 6 (128 * h + r)
    bufOf f j.handle = none ∧ puntJobs f h r = puntJobs e h r ∧ (∀ o ∈ e.out, o ∈ f.out) ∧
      (∀ a, a ≠ Rg.MSIX_SENT h → a ≠ Rg.PME_SENT h → ctr f a = ctr e a) ∧ rd f (Rg.HIF_ERR h) = rd e (Rg.HIF_ERR h) := by
  intro f
  have hw := (HostWork.refl h 0 r e).makeEntry x
  have hg : GaveUp _ f _ := freeBy_owner ((bufOf_congr hw.urn _).trans hb) hk hi (by decide)
  obtain ⟨-, -, -, -, -, -, -, hmod, hst⟩ := ring_regs_apart h 0 r
  refine ⟨hg.bufOf, ?_, fun o ho => ?_, fun a h1 h2 => (hg.ctr a).trans (hw.count a h1 h2), (hg.rd _).trans (hw.reg _ hst hmod)⟩
  · rw [puntJobs, hg.hif, hw.punts]
    rfl
  · rw [hg.out]
    exact hw.mem_out ho

theorem exec_puntDone_waits (hc : Calm s.dev) (h : Host2) (r : Fin 64) (err : Bool) (hq : puntJobs s.dev h r = [] ∨ inD3 s.dev h = true) :
    Machine.exec (.puntDone h r w err) s = .next s := by
  show execPuntDone h r w err s = _
  simp only [execPuntDone, State.onDevF, State.onDev]
  split
  · rw [settle_of_calm hc]
  next hd =>
    rw [hq.resolve_right hd]
    simp only [settle_of_calm hc]
theorem exec_puntDone (h : Host2) (r : Fin 64) (err : Bool) (hj : puntJobs s.dev h r = j :: l) (hd : inD3 s.dev h = false) :
    Machine.exec (.puntDone h r w err) s = .next { s with dev := settle (puntFinish s.dev h r j w (puntStatus s.dev j w err)) } := by
  show execPuntDone h r w err s = _
  simp only [execPuntDone, State.onDevF, State.onDev, hd, Bool.false_eq_true, if_false, hj]

theorem puntStatus_good (hw : PuntDesc w n) (hi : isolated d (hZone j.handle) = false) : puntStatus d j w false = 0 := by
  obtain ⟨rfl, h64, hmax, hzero⟩ := hw
  have hz : (List.range 5).any (fun i => dword w (3 + i) != 0) = false := by
    rw [List.any_eq_false]
    intro i hm
    simp [hzero i (List.mem_range.mp hm)]
  simp [puntStatus, hi, Nat.not_lt.mpr h64, Nat.not_le.mpr hmax, hz]
theorem puntStatus_short (hw : dword w 2 < 64) : puntStatus d j w false = 1 := by simp [puntStatus, hw]
theorem puntStatus_err : puntStatus d j w true = 5 := rfl

/-- The bytes of a punt are out, and counted. -/
def puntSent (d : Dev) (h r : Nat) (j : PuntJob) (w : List W32) : Dev :=
  let n := min (puntData d j).length (dword w 2)
  bump (bump (emit (toL0 (puntRead d h r j n) h) (.hostBytes h (dword w 0 + dword w 1 * 2 ^ 32) ((puntData d j).take n))) (Rg.PUNT_FRAMES h) 1)
    (Rg.PUNT_BYTES h) n

theorem puntSent_spec (hh : h < 2) (hj : puntJobs d h r = j :: l) (w : List W32) :
    let n := min (puntData d j).length (dword w 2)
    let e := puntSent d h r j w
    puntJobs e h r = l ∧ e.urn = d.urn ∧ .hostBytes h (dword w 0 + dword w 1 * 2 ^ 32) ((puntData d j).take n) ∈ e.out ∧
      ctr e (Rg.PUNT_FRAMES h) = ctr d (Rg.PUNT_FRAMES h) + 1 ∧ ctr e (Rg.PUNT_BYTES h) = ctr d (Rg.PUNT_BYTES h) + BitVec.ofNat 64 n := by
  intro n e
  obtain ⟨⟨hfm, -, hbm, -, hfb⟩, -⟩ := hif_counters h
  obtain ⟨hnf, hnb⟩ := not_sramCtr_punt hh
  obtain ⟨hjobs, hurn, hctr⟩ := puntRead_spec hj n
  have hl := ((LinkWork.refl h (puntRead d h r j n)).toL0.emit (.hostBytes h (dword w 0 + dword w 1 * 2 ^ 32) ((puntData d j).take n)))
  have hpunts : e.hif.punts = (puntRead d h r j n).hif.punts := (hl.host 0 r).punts
  refine ⟨by rw [← hjobs, puntJobs, hpunts]; rfl, (hl.host 0 r).urn.trans hurn, ?_, ?_, ?_⟩
  · rw [show e = puntSent d h r j w from rfl, puntSent, out_bump, out_bump, emit_out]
    exact List.mem_append_right _ List.mem_cons_self
  · rw [show e = puntSent d h r j w from rfl, puntSent, ctr_bump_ne _ _ hfb, ctr_bump_same, hl.count _ hfm, hctr _ hnf]
    rfl
  · rw [show e = puntSent d h r j w from rfl, puntSent, ctr_bump_same, ctr_bump_ne _ _ hfb.symm, hl.count _ hbm, hctr _ hnb]

theorem puntFinish_good (d : Dev) (h r : Nat) (j : PuntJob) (w : List W32) :
    ∃ x, puntFinish d h r j w 0 = freeBy (makeEntry (puntSent d h r j w) h 0 r x) j.handle 6 (128 * h + r) := ⟨_, rfl⟩
theorem puntFinish_short (d : Dev) (h r : Nat) (j : PuntJob) (w : List W32) :
    ∃ x, puntFinish d h r j w 1 = freeBy (makeEntry (puntRead d h r j 0) h 0 r x) j.handle 6 (128 * h + r) := ⟨_, rfl⟩
theorem puntFinish_err (d : Dev) (h r : Nat) (j : PuntJob) (w : List W32) :
    ∃ x, puntFinish d h r j w 5 = freeBy (makeEntry (hifErr (puntRead d h r j 0) h 3) h 0 r x) j.handle 6 (128 * h + r) := ⟨_, rfl⟩

/-! ## The end of an inject -/

/-- The descriptor of an inject is consumed, and it waits no more. -/
def injectTaken (d : Dev) (h r : Nat) : Dev :=
  modRing (wf d (ringIdx h 1 r) Fl.PRING_IDX_CONSUMED (ringConsumed d h 1 r + 1)) h 1 r (fun x => { x with wait := none })
/-- The inject is counted. -/
def injectCounted (d : Dev) (h r st n : Nat) : Dev :=
  if st == 0 then bump (bump (injectTaken d h r) (Rg.INJ_FRAMES h) 1) (Rg.INJ_BYTES h) n else bump (injectTaken d h r) (Rg.INJ_FAIL h) 1
/-- A read that failed is an error of the port. -/
def injectJudged (d : Dev) (h r st n : Nat) : Dev := if st == 5 then hifErr (injectCounted d h r st n) h 3 else injectCounted d h r st n

theorem injectEnd_eq (d : Dev) (h r st n : Nat) : ∃ x, injectEnd d h r st n = makeEntry (injectJudged d h r st n) h 1 r x := ⟨_, rfl⟩

/-- What an inject changes before its entry is made. -/
theorem injectCounted_shape (d : Dev) (h r st n : Nat) : ∃ c, injectCounted d h r st n = { injectTaken d h r with ctrs := c } := by
  unfold injectCounted
  split <;> exact ⟨_, rfl⟩
theorem injectJudged_shape (d : Dev) (h r st n : Nat) :
    (∃ rg c p i k, injectJudged d h r st n = { injectTaken d h r with regs := rg, ctrs := c, pages := p, ic := i, ket := k }) ∧
      (∀ a, a ≠ Rg.HIF_ERR h → rd (injectJudged d h r st n) a = rd (injectTaken d h r) a) ∧
      ∀ a, ctr (injectJudged d h r st n) a = ctr (injectCounted d h r st n) a := by
  obtain ⟨c, hc⟩ := injectCounted_shape d h r st n
  have hrd (a : Nat) : rd (injectCounted d h r st n) a = rd (injectTaken d h r) a := by rw [hc]; rfl
  unfold injectJudged
  split
  · refine ⟨?_, fun a ha => (rd_hifErr_ne _ _ _ ha).trans (hrd a), fun a => ctr_hifErr _ _ _ a⟩
    obtain ⟨rg, p, i, k, he⟩ := hifErr_shape (injectCounted d h r st n) h 3
    rw [he, hc]
    exact ⟨rg, c, p, i, k, rfl⟩
  · rw [hc]
    exact ⟨⟨_, _, _, _, _, rfl⟩, fun _ _ => rfl, fun _ => rfl⟩

theorem injectTaken_same (d : Dev) (h r : Nat) :
    (injectTaken d h r).urn = d.urn ∧ (injectTaken d h r).adm = d.adm ∧ (injectTaken d h r).ras = d.ras ∧ (injectTaken d h r).tel = d.tel := by
  unfold injectTaken modRing
  refine ⟨?_, ?_, ?_, ?_⟩
  · rw [urn_modHif, urn_wf]
  · rw [adm_modHif, adm_wf]
  · rw [ras_modHif, ras_wf]
  · rw [tel_modHif, tel_wf]
theorem ctr_injectTaken (d : Dev) (h r a : Nat) : ctr (injectTaken d h r) a = ctr d a := rfl

/-- An inject that ends: its descriptor is consumed, it waits no more, and it is counted. -/
theorem injectEnd_spec (d : Dev) (h r st n : Nat) :
    let e := injectEnd d h r st n
    (e.urn = d.urn ∧ e.adm = d.adm ∧ e.ras = d.ras ∧ e.tel = d.tel) ∧ ringConsumed e h 1 r = (ringConsumed d h 1 r + 1) % 65536 ∧
      (ring e h 1 r).wait = none ∧
      (st = 0 → ctr e (Rg.INJ_FRAMES h) = ctr d (Rg.INJ_FRAMES h) + 1) ∧ (st ≠ 0 → ctr e (Rg.INJ_FAIL h) = ctr d (Rg.INJ_FAIL h) + 1) ∧
      (∀ a, a < Rg.baseHIF h ∨ Rg.baseHIF h + 0x1000 ≤ a → ctr e a = ctr d a) ∧ (st = 5 → (rd e (Rg.HIF_ERR h)).getLsbD 3 = true) := by
  intro e
  obtain ⟨hidxerr, hidxst, hidxmod, -, -, -, -, herrmod, herrst⟩ := ring_regs_apart h 1 r
  obtain ⟨-, hfm, hfp, hlm, hlp, hfb⟩ := hif_counters h
  obtain ⟨hurn, hadm, hras, htel⟩ := injectTaken_same d h r
  obtain ⟨x, hx⟩ := injectEnd_eq d h r st n
  have hw : HostWork h 1 r (injectJudged d h r st n) e := by
    rw [show e = _ from hx]
    exact (HostWork.refl h 1 r _).makeEntry x
  obtain ⟨⟨rg, c, p, i, k, hj⟩, hrd, hctr⟩ := injectJudged_shape d h r st n
  have hcnt (a : Nat) (h1 : a ≠ Rg.MSIX_SENT h) (h2 : a ≠ Rg.PME_SENT h) : ctr e a = ctr (injectCounted d h r st n) a := (hw.count a h1 h2).trans (hctr a)
  refine ⟨⟨?_, ?_, ?_, ?_⟩, ?_, ?_, fun h0 => ?_, fun h0 => ?_, fun a ha => ?_, fun h5 => ?_⟩
  · rw [hw.urn, hj]
    exact hurn
  · rw [hw.adm, hj]
    exact hadm
  · rw [hw.ras, hj]
    exact hras
  · rw [hw.tel, hj]
    exact htel
  · rw [ringConsumed, rf_congr (hw.reg _ hidxst hidxmod), rf_congr (hrd _ hidxerr), injectTaken, rf_modRing, rf_wf_same _ _ _ (by decide)]
    rfl
  · rw [hw.waits, hj]
    exact congrArg Ring.wait (ring_modRing_same _ h 1 r _)
  · rw [hcnt _ hfm hfp, injectCounted, if_pos (by simpa using h0), ctr_bump_ne _ _ hfb, ctr_bump_same, ctr_injectTaken]
    rfl
  · rw [hcnt _ hlm hlp, injectCounted, if_neg (by simpa using h0), ctr_bump_same, ctr_injectTaken]
    rfl
  · obtain ⟨h1, h2, h3, h4, h5⟩ := hif_apart ha
    rw [hcnt _ h1 h2, injectCounted]
    split
    · rw [ctr_bump_ne _ _ h4, ctr_bump_ne _ _ h3, ctr_injectTaken]
    · rw [ctr_bump_ne _ _ h5, ctr_injectTaken]
  · rw [hw.reg _ herrst herrmod, injectJudged, if_pos (by simpa using h5)]
    exact rd_hifErr _ _ (by decide)

end Sys2Proof.Machine
end

section
/-!
An inject in direct mode (R410, R270 to R272): cells, the buffer, the VOQ.
-/

namespace Sys2Proof.Machine
open Sys2Proof Sys2Proof.Terms

variable {d e : Dev} {s : State} {h r z v n : Nat} {x : Inject} {w : List W32} {bytes : List Byte} {cells : List Nat}

/-! ## Cells charged -/

theorem probeMax_shape (d : Dev) (k i : Nat) (y : Int) : ∃ t, probeMax d k i y = { d with tel := { d.tel with top := t } } := by
  have hfold : ∀ (l : List Nat) (d : Dev) (c : Dev → Nat → Bool), ∃ t, l.foldl (fun d j => if c d j then
      modTel d (fun t => { t with top := tmod (fun _ => 0) t.top j (fun x => max x y) }) else d) d = { d with tel := { d.tel with top := t } } := by
    intro l
    induction l with
    | nil => exact fun d _ => ⟨_, rfl⟩
    | cons j l ih =>
      intro d c
      rw [List.foldl_cons]
      split
      · obtain ⟨t, ht⟩ := ih (modTel d (fun t => { t with top := tmod (fun _ => 0) t.top j (fun x => max x y) })) c
        exact ⟨t, by rw [ht]; rfl⟩
      · exact ih d c
  unfold probeMax
  split
  · exact hfold _ d (fun d j => rf d (Rg.TEL_PROBE j) Fl.TEL_PROBE_KIND == k && rf d (Rg.TEL_PROBE j) Fl.TEL_PROBE_MODE == 1 &&
      (rd d (Rg.TEL_PROBE_INDEX j)).toNat == i)
  · exact ⟨_, rfl⟩

/-- `e` is `d` with pools, order domains and probes counted anew. -/
structure Charged (d e : Dev) : Prop where
  work : ∃ t, PoolWork { d with tel := { d.tel with top := t } } e

namespace Charged

theorem of_pool (w : PoolWork d e) : Charged d e := ⟨d.tel.top, w⟩
theorem trans {f : Dev} (w : Charged d e) (g : Charged e f) : Charged d f := by
  obtain ⟨t, ⟨z1, a1, p1, i1, k1, rfl⟩⟩ := w
  obtain ⟨u, ⟨z2, a2, p2, i2, k2, rfl⟩⟩ := g
  exact ⟨u, ⟨z2, a2, p2, i2, k2, rfl⟩⟩
theorem probeMax (w : Charged d e) (k i : Nat) (y : Int) : Charged d (probeMax e k i y) := by
  obtain ⟨t, ht⟩ := probeMax_shape e k i y
  exact w.trans ⟨t, ht ▸ .refl _⟩
theorem chargePool (w : Charged d e) (z n : Nat) : Charged d (chargePool e z n) :=
  (Charged.probeMax (w.trans (of_pool ((PoolWork.refl e).modUrnz z _))) 1 z _).trans (of_pool ((PoolWork.refl _).watchPool z))

theorem regs (w : Charged d e) : e.regs = d.regs := by obtain ⟨_, ⟨_, _, _, _, _, rfl⟩⟩ := w; rfl
theorem rd (w : Charged d e) (a : Nat) : rd e a = rd d a := by simp only [Machine.rd, w.regs]
theorem ctr (w : Charged d e) (a : Nat) : ctr e a = ctr d a := by obtain ⟨_, ⟨_, _, _, _, _, rfl⟩⟩ := w; rfl
theorem hif (w : Charged d e) : e.hif = d.hif := by obtain ⟨_, ⟨_, _, _, _, _, rfl⟩⟩ := w; rfl
theorem ras (w : Charged d e) : e.ras = d.ras := by obtain ⟨_, ⟨_, _, _, _, _, rfl⟩⟩ := w; rfl
theorem freezing (w : Charged d e) : e.tel.freezing = d.tel.freezing := by obtain ⟨_, ⟨_, _, _, _, _, rfl⟩⟩ := w; rfl
theorem bufs (w : Charged d e) : e.urn.bufs = d.urn.bufs := by obtain ⟨_, ⟨_, _, _, _, _, rfl⟩⟩ := w; rfl
theorem voqs (w : Charged d e) : e.urn.voqs = d.urn.voqs := by obtain ⟨_, ⟨_, _, _, _, _, rfl⟩⟩ := w; rfl

end Charged

/-! ## Cells filled -/

/-- Cells that are filled change their valid bits and words alone. -/
theorem fillCells_shape (d : Dev) (z : Nat) (cells : List Nat) (len : Nat) :
    ∃ t o, fillCells d z cells len = { d with urn := { d.urn with high := t }, core := o } := by
  have hwords : ∀ (l : List Nat) (d : Dev) (c : Nat), ∃ o,
      l.foldl (fun d i => setSword d (1 + z) (cellWord c i).1 (cellWord c i).2 {}) d = { d with core := o } := by
    intro l
    induction l with
    | nil => exact fun d _ => ⟨_, rfl⟩
    | cons i l ih =>
      intro d c
      obtain ⟨o, ho⟩ := ih (setSword d (1 + z) (cellWord c i).1 (cellWord c i).2 {}) c
      exact ⟨o, by rw [List.foldl_cons, ho]; rfl⟩
  unfold fillCells
  generalize cells.zipIdx = l
  induction l generalizing d with
  | nil => exact ⟨_, _, rfl⟩
  | cons y l ih =>
    rw [List.foldl_cons]
    dsimp only
    obtain ⟨o, ho⟩ := hwords (List.range (cellFill len y.2)) { d with urn := { d.urn with high := tmod zeroN d.urn.high (131072 * z + y.1) (max (cellFill len y.2)) } } y.1
    rw [ho]
    obtain ⟨t, o', ht⟩ := ih (d := { d with urn := { d.urn with high := tmod zeroN d.urn.high (131072 * z + y.1) (max (cellFill len y.2)) }, core := o })
    exact ⟨t, o', ht⟩

/-! ## Handles -/

/-- The parts of a handle that is made. -/
theorem mkHandle_parts {z c : Nat} (i : BitVec 8) (hz : z < 4) (hc : c < 131072) :
    hSpill (mkHandle z c i) = false ∧ hKey (mkHandle z c i) = 131072 * z + c ∧ hIncarn (mkHandle z c i) = i.toNat ∧ hZone (mkHandle z c i) = z := by
  have hi : i.toNat < 256 := i.isLt
  have hval : (mkHandle z c i).toNat = c + z * 131072 + i.toNat * 524288 := by
    simp only [mkHandle, BitVec.toNat_ofNat]
    omega
  have hlt : (mkHandle z c i).toNat < 2 ^ 31 := by omega
  refine ⟨?_, ?_, ?_, ?_⟩
  · exact Nat.testBit_lt_two_pow hlt
  · unfold hKey hZone hHead
    omega
  · unfold hIncarn
    omega
  · unfold hZone
    omega

/-- A handle names the record of its incarnation. -/
theorem bufOf_mkHandle {z c : Nat} (hz : z < 4) (hc : c < 131072) (hk : (bufAt d (131072 * z + c)).kind ≠ 0) :
    bufOf d (mkHandle z c (bufAt d (131072 * z + c)).incarn) = some (bufAt d (131072 * z + c)) := by
  obtain ⟨hs, hkey, hinc, -⟩ := mkHandle_parts (bufAt d (131072 * z + c)).incarn hz hc
  unfold bufOf
  simp [hs, hkey, hinc, hk]

/-! ## A frame enters an empty VOQ -/

/-- Registers, host rings, fault records, profiling that freezes, and all counters but one are as before. -/
structure Beside (a : Nat) (d e : Dev) : Prop where
  regs : e.regs = d.regs
  hif : e.hif = d.hif
  ras : e.ras = d.ras
  freezing : e.tel.freezing = d.tel.freezing
  ctr : ∀ b, b ≠ a → ctr e b = ctr d b

namespace Beside
variable {a : Nat}

theorem refl (a : Nat) (d : Dev) : Beside a d d := ⟨rfl, rfl, rfl, rfl, fun _ _ => rfl⟩
theorem trans {f : Dev} (w : Beside a d e) (g : Beside a e f) : Beside a d f :=
  ⟨g.regs.trans w.regs, g.hif.trans w.hif, g.ras.trans w.ras, g.freezing.trans w.freezing, fun b hb => (g.ctr b hb).trans (w.ctr b hb)⟩
theorem bump (w : Beside a d e) (n : Nat) : Beside a d (bump e a n) := w.trans ⟨rfl, rfl, rfl, rfl, fun _ hb => ctr_bump_ne _ _ hb⟩
theorem charged (w : Beside a d e) {f : Dev} (g : Charged e f) : Beside a d f := w.trans ⟨g.regs, g.hif, g.ras, g.freezing, fun b _ => g.ctr b⟩
theorem rd (w : Beside a d e) (b : Nat) : rd e b = rd d b := by simp only [Machine.rd, w.regs]

end Beside

/-- The VOQ with the frame behind its others. -/
def appended (d : Dev) (z v : Nat) (y : Desc) : Dev :=
  modVoq d z v (fun q => { q with q := q.q ++ [y], most := max q.most (voqDepth d z v + descCells d y) })
/-- Its depth is probed, and it may enter spill mode. -/
def queued (d : Dev) (z v : Nat) (y : Desc) : Dev :=
  let e := probeMax (appended d z v y) 3 (2048 * z + v) (voqDepth (appended d z v y) z v)
  if entersSpill e z v then modVoq e z v (fun q => { q with spill := true, chain := [], pages := 0 }) else e

/-- A control frame within its limit is queued (R308). -/
theorem enqueue_ctrl {y : Desc} (hsp : (voq d z v).spill = false) (hl : y.lossless = false) (hctl : y.ctrl = true)
    (hlim : voqDepth d z v + descCells d y ≤ rf d (Rg.TM_VOQ_LIMIT z (v % 8)) Fl.TM_VOQ_LIMIT_LIMIT) : enqueue d z v y = queued d z v y := by
  unfold enqueue
  simp only [hsp, hl, hctl, Bool.false_eq_true, if_false, if_true, if_neg (Nat.not_lt.mpr hlim)]
  rfl

theorem queued_spec (d : Dev) (z v : Nat) (y : Desc) (a : Nat) :
    (voq (queued d z v y) z v).q = (voq d z v).q ++ [y] ∧ (queued d z v y).urn.bufs = d.urn.bufs ∧ Beside a d (queued d z v y) := by
  have hc := (Charged.of_pool (.refl (appended d z v y))).probeMax 3 (2048 * z + v) (voqDepth (appended d z v y) z v)
  have hq : (voq (probeMax (appended d z v y) 3 (2048 * z + v) (voqDepth (appended d z v y) z v)) z v).q = (voq d z v).q ++ [y] := by
    rw [voq_congr hc.voqs, appended, voq_modVoq]
  have hb : Beside a d (probeMax (appended d z v y) 3 (2048 * z + v) (voqDepth (appended d z v y) z v)) :=
    (show Beside a d (appended d z v y) from ⟨rfl, rfl, rfl, rfl, fun _ _ => rfl⟩).charged hc
  unfold queued
  dsimp only
  split
  · exact ⟨by rw [voq_modVoq, hq], hc.bufs, hb.trans ⟨rfl, rfl, rfl, rfl, fun _ _ => rfl⟩⟩
  · exact ⟨hq, hc.bufs, hb⟩

/-! ## A buffer for an inject -/

/-- The record of a buffer that was made, and what is as before. -/
theorem newBuf_spec (d : Dev) (z c : Nat) (cells : List Nat) (b : Buf) :
    let e := newBuf d z (c :: cells) b
    (∃ st, bufAt e (131072 * z + c) = { b with
      cells := c :: cells, incarn := (bufAt d (131072 * z + c)).incarn + 1, count := 0, stale := false, stamp := st }) ∧
      e.urn.voqs = d.urn.voqs ∧ Beside (Rg.CELLS_ALLOC z) d e := by
  intro e
  refine ⟨⟨nsIn d z / 1000 % 2 ^ 32, ?_⟩, rfl, ?_⟩
  · exact (bufAt_modBuf d _ _ _).trans (if_pos rfl)
  · have hm (k : Nat) (f : Buf → Buf) : Beside (Rg.CELLS_ALLOC z) d (modBuf d k f) := ⟨rfl, rfl, rfl, rfl, fun _ _ => rfl⟩
    exact (hm _ _).bump _

/-- The frame of an inject in its buffer: its cells are charged and filled. -/
def frameStored (d : Dev) (z own : Nat) (f : List Byte) (cells : List Nat) : Dev :=
  fillCells (chargePool (newBuf d z cells { kind := 6, index := own, len := f.length, bytes := f, marked := false }) z cells.length) z cells f.length

theorem frameStored_spec (d : Dev) (z own : Nat) (f : List Byte) (c : Nat) (cells : List Nat) :
    let e := frameStored d z own f (c :: cells)
    ∃ b, bufAt e (131072 * z + c) = b ∧ b.kind = 6 ∧ b.index = own ∧ b.bytes = f ∧ b.cells = c :: cells ∧ e.urn.voqs = d.urn.voqs ∧
      Beside (Rg.CELLS_ALLOC z) d e := by
  intro e
  obtain ⟨⟨st, hb⟩, hv, hw⟩ := newBuf_spec d z c cells { kind := 6, index := own, len := f.length, bytes := f, marked := false }
  have hc := (Charged.of_pool (.refl (newBuf d z (c :: cells) { kind := 6, index := own, len := f.length, bytes := f, marked := false }))).chargePool z
    (c :: cells).length
  obtain ⟨t, o, hf⟩ := fillCells_shape (chargePool (newBuf d z (c :: cells) { kind := 6, index := own, len := f.length, bytes := f, marked := false }) z
    (c :: cells).length) z (c :: cells) f.length
  have he : e = _ := hf
  have hbufs : e.urn.bufs = (newBuf d z (c :: cells) { kind := 6, index := own, len := f.length, bytes := f, marked := false }).urn.bufs := by
    rw [he]
    exact hc.bufs
  refine ⟨_, rfl, ?_⟩
  rw [bufAt, hbufs, ← bufAt, hb]
  refine ⟨rfl, rfl, rfl, rfl, ?_, ?_⟩
  · rw [he]
    exact hc.voqs.trans hv
  · rw [he]
    exact (hw.charged hc).trans ⟨rfl, rfl, rfl, rfl, fun _ _ => rfl⟩

end Sys2Proof.Machine
end

section
/-!
The inject of a frame as a whole (R404, R410, R22).
-/

namespace Sys2Proof.Machine
open Sys2Proof Sys2Proof.Terms

variable {d e : Dev} {s : State} {h r z v n : Nat} {x : Inject} {w : List W32} {bytes : List Byte} {cells : List Nat}

/-! ## From the buffer to the VOQ -/

/-- Owner `own` hands a buffer to VOQ `v` (R272). -/
theorem handOver_spec {y : W32} {b : Buf} {own : Nat} (hb : bufOf d y = some b) (hk : b.kind = 6) (hi : b.index = own) :
    ∃ f : Buf → Buf, handOver d y 6 own 4 v = modBuf d (hKey y) f ∧ ∀ b, f b = { b with kind := 4, index := v, moved := d.mc + 1 } := by
  subst hi
  exact ⟨fun b => { b with kind := 4, index := v, moved := d.mc + 1 }, by simp [handOver, hb, hk], fun _ => rfl⟩

/-- The descriptor of a unicast inject. -/
def injectDesc (h r : Nat) (x : Inject) (buf : W32) (len : Nat) : Desc :=
  { handle := buf, len := len, edit := x.edit, dom := x.tag / 65536, seq := x.tag % 65536, port := x.dest, cls := x.cls, ecn := false
    ts2 := x.ts2, ctrl := x.ctrl, lossless := false, copy := false, inj := some (64 * h + r) }

theorem injectSend_unicast (hm : x.mc = false) : injectSend d h r z x bytes cells =
    let own := 128 * h + 64 + r
    let f := bytes ++ fcs bytes
    let e := frameStored d z own f cells
    let buf := headHandle e z cells
    enqueue (handOver e buf 6 own 4 (8 * x.dest + x.cls)) z (8 * x.dest + x.cls) (injectDesc h r x buf f.length) := by
  unfold injectSend frameStored injectDesc
  simp only [hm, Bool.false_eq_true, if_false]

/-- A control inject to an empty VOQ: its descriptor is there, and its buffer holds its bytes and cells. -/
theorem injectSend_spec {c : Nat} (hm : x.mc = false) (hctl : x.ctrl = true) (hz : z < 4) (hc : c < 131072) (hcls : x.cls < 8)
    (hq : (voq d z (8 * x.dest + x.cls)).q = []) (hch : (voq d z (8 * x.dest + x.cls)).chain = []) (hsp : (voq d z (8 * x.dest + x.cls)).spill = false)
    (hlim : (c :: cells).length ≤ rf d (Rg.TM_VOQ_LIMIT z x.cls) Fl.TM_VOQ_LIMIT_LIMIT) :
    let e := injectSend d h r z x bytes (c :: cells)
    ∃ y b, (voq e z (8 * x.dest + x.cls)).q = [y] ∧ y.len = (bytes ++ fcs bytes).length ∧ y.port = x.dest ∧ y.cls = x.cls ∧ y.edit = x.edit ∧
      bufOf e y.handle = some b ∧ b.bytes = bytes ++ fcs bytes ∧ b.cells = c :: cells ∧ b.kind = 4 ∧ Beside (Rg.CELLS_ALLOC z) d e := by
  intro e
  obtain ⟨b, hb, hbk, hbi, hbb, hbc, hv, hbes⟩ := frameStored_spec d z (128 * h + 64 + r) (bytes ++ fcs bytes) c cells
  have he : e = _ := injectSend_unicast hm
  dsimp only at he
  generalize frameStored d z (128 * h + 64 + r) (bytes ++ fcs bytes) (c :: cells) = g at hb hv hbes he
  have hhead : headHandle g z (c :: cells) = mkHandle z c b.incarn := by rw [headHandle, List.headD_cons, hb]
  rw [hhead] at he
  have hbuf : bufOf g (mkHandle z c b.incarn) = some b := by
    have := bufOf_mkHandle (d := g) hz hc (by rw [hb, hbk]; decide)
    rwa [hb] at this
  obtain ⟨f, hho, hf⟩ := handOver_spec (v := 8 * x.dest + x.cls) hbuf hbk hbi
  obtain ⟨-, hkey, -, -⟩ := mkHandle_parts b.incarn hz hc
  rw [hkey] at hho
  rw [hho] at he
  have hat : bufAt (modBuf g (131072 * z + c) f) (131072 * z + c) = { b with kind := 4, index := 8 * x.dest + x.cls, moved := g.mc + 1 } := by
    rw [bufAt_modBuf, if_pos rfl, hf, hb]
  have hbuf' (k : Dev) (hk : k.urn.bufs = (modBuf g (131072 * z + c) f).urn.bufs) :
      bufOf k (mkHandle z c b.incarn) = some { b with kind := 4, index := 8 * x.dest + x.cls, moved := g.mc + 1 } := by
    have hkat : bufAt k (131072 * z + c) = { b with kind := 4, index := 8 * x.dest + x.cls, moved := g.mc + 1 } := by
      rw [← hat, bufAt, hk]
      rfl
    have := bufOf_mkHandle (d := k) hz hc (by simp [hkat])
    rwa [hkat] at this
  have hvoq : voq (modBuf g (131072 * z + c) f) z (8 * x.dest + x.cls) = voq d z (8 * x.dest + x.cls) := voq_congr hv _ _
  have hcells : descCells (modBuf g (131072 * z + c) f) (injectDesc h r x (mkHandle z c b.incarn) (bytes ++ fcs bytes).length) = (c :: cells).length := by
    rw [descCells, show (injectDesc h r x (mkHandle z c b.incarn) (bytes ++ fcs bytes).length).handle = mkHandle z c b.incarn from rfl, hbuf' _ rfl]
    exact congrArg List.length hbc
  have hdepth : voqDepth (modBuf g (131072 * z + c) f) z (8 * x.dest + x.cls) = 0 := by simp [voqDepth, hvoq, hq, hch, chainDescs]
  have hmod : (8 * x.dest + x.cls) % 8 = x.cls := by omega
  have hgbes : Beside (Rg.CELLS_ALLOC z) d (modBuf g (131072 * z + c) f) := hbes.trans ⟨rfl, rfl, rfl, rfl, fun _ _ => rfl⟩
  rw [enqueue_ctrl (by rw [hvoq]; exact hsp) rfl hctl (by rw [hdepth, hcells, hmod, Nat.zero_add, rf_congr (hgbes.rd _)]; exact hlim)] at he
  obtain ⟨hqd, hqb, hqbes⟩ := queued_spec (modBuf g (131072 * z + c) f) z (8 * x.dest + x.cls)
    (injectDesc h r x (mkHandle z c b.incarn) (bytes ++ fcs bytes).length) (Rg.CELLS_ALLOC z)
  refine ⟨injectDesc h r x (mkHandle z c b.incarn) (bytes ++ fcs bytes).length, { b with kind := 4, index := 8 * x.dest + x.cls, moved := g.mc + 1 }, ?_,
    rfl, rfl, rfl, rfl, ?_, hbb, hbc, rfl, ?_⟩
  · rw [he, hqd, hvoq, hq]
    rfl
  · rw [he]
    exact hbuf' _ hqb
  · rw [he]
    exact hgbes.trans hqbes

/-! ## Arbitration for cells -/

/-- A requester that is refused changes its own record and the count of refusals. -/
theorem allocAlone_refused {q : Nat} {m : Bool} (hm : mayPresent d (cycleOf d z) q = true) (hr : ¬ (poolRoom d z n m = true ∧ barred d q = false)) :
    ∃ t, allocAlone d z q n m cells = (none, { bump d (Rg.ALLOC_EMPTY z) 1 with steep := t }) := by
  have hc : (barred d q || !poolRoom d z n m) = true := by
    cases hb : barred d q with
    | true => rfl
    | false => simpa [hb] using hr
  exact ⟨(endCycle (allocEmpty d (cycleOf d z) z q) z (cycleOf d z)).steep, by simp only [allocAlone, hm, hc, Bool.not_true, Bool.false_eq_true, if_false, if_true]; rfl⟩

/-- A requester that is served changes its own record. -/
theorem allocAlone_served {q : Nat} {m : Bool} (hm : mayPresent d (cycleOf d z) q = true) (hp : poolRoom d z n m = true) (hb : barred d q = false)
    (hl : cells.length = n) (ha : cellsAvail d z cells = true) : ∃ t, allocAlone d z q n m cells = (some { d with steep := t }, d) := by
  refine ⟨(endCycle (granted d (cycleOf d z) z q) z (cycleOf d z)).steep, ?_⟩
  simp only [allocAlone, hm, hp, hb, hl, ha, Bool.not_true, Bool.or_false, Bool.false_eq_true, if_false, bne_self_eq_false]
  rfl

/-! ## The judgement of a descriptor -/

theorem injectStatus_err : injectStatus d h r x w bytes true = 5 := rfl
theorem injectStatus_bad (hb : injectBad d x w bytes = true) : injectStatus d h r x w bytes false = 1 := by simp [injectStatus, hb]
theorem injectStatus_isolated (hb : injectBad d x w bytes = false) (hp : (page d (urnPage (injectZone d h r x))).ready = true) (hm : x.mc = false)
    (hi : isolated d (injectZone d h r x) = true) : injectStatus d h r x w bytes false = 6 := by simp [injectStatus, hb, hp, hm, hi]
theorem injectStatus_good (hb : injectBad d x w bytes = false) (hp : (page d (urnPage (injectZone d h r x))).ready = true) (hm : x.mc = false)
    (hi : isolated d (injectZone d h r x) = false) : injectStatus d h r x w bytes false = if portUsable d x.dest then 0 else 2 := by
  cases hu : portUsable d x.dest <;> simp [injectStatus, hb, hp, hm, hi, hu]

/-- What a good descriptor says of itself. -/
theorem of_injectBad (hb : injectBad d x w bytes = false) : bytes.length = x.len ∧ (x.mc = false → x.dest < 256) := by
  simp only [injectBad, Bool.or_eq_false_iff, bne_eq_false_iff_eq, Bool.and_eq_false_iff, Bool.not_eq_false', decide_eq_false_iff_not] at hb
  obtain ⟨⟨⟨⟨-, hdest⟩, -⟩, -⟩, hlen⟩ := hb
  refine ⟨hlen, fun hm => ?_⟩
  rcases hdest with h | h
  · simp [hm] at h
  · omega

/-! ## The commands -/

theorem exec_injectDirect_idle (hc : Calm s.dev) (h : Host2) (r : Fin 64) (err : Bool) (ht : ringTakes s.dev h 1 r = false) :
    Machine.exec (.injectDirect h r w bytes cells err) s = .next s := by
  show execInjectDirect h r w bytes cells err s = _
  simp [execInjectDirect, State.onDevF, State.onDev, ht, settle_of_calm hc]
theorem exec_injectPipeline_idle (hc : Calm s.dev) (h : Host2) (r : Fin 64) (err : Bool) (ht : ringTakes s.dev h 1 r = false) :
    Machine.exec (.injectPipeline h r w bytes err) s = .next s := by
  show execInjectPipeline h r w bytes err s = _
  simp [execInjectPipeline, State.onDevF, State.onDev, ht, settle_of_calm hc]

theorem exec_injectDirect_refused (h : Host2) (r : Fin 64) {err : Bool} (ht : ringTakes s.dev h 1 r = true) (hm : (injectOf w).mode ≠ 1 ∨ err = true)
    (hst : injectStatus s.dev h r (injectOf w) w bytes err ≠ 0) : Machine.exec (.injectDirect h r w bytes cells err) s = .next { s with
      dev := settle (injectRefuse s.dev h r (injectOf w) (injectStatus s.dev h r (injectOf w) w bytes err)) } := by
  show execInjectDirect h r w bytes cells err s = _
  have hgo : (!ringTakes s.dev h 1 r || ((injectOf w).mode == 1 && !err)) = false := by rcases hm with h | h <;> simp [ht, h]
  simp only [execInjectDirect, State.onDevF, State.onDev, hgo, Bool.false_eq_true, if_false, bne_iff_ne, if_pos hst]
theorem exec_injectPipeline_refused (h : Host2) (r : Fin 64) {err : Bool} (ht : ringTakes s.dev h 1 r = true) (hm : (injectOf w).mode = 1 ∨ err = true)
    (hst : injectStatus s.dev h r (injectOf w) w bytes err ≠ 0) : Machine.exec (.injectPipeline h r w bytes err) s = .next { s with
      dev := settle (injectRefuse s.dev h r (injectOf w) (injectStatus s.dev h r (injectOf w) w bytes err)) } := by
  show execInjectPipeline h r w bytes err s = _
  have hgo : (!ringTakes s.dev h 1 r || ((injectOf w).mode != 1 && !err)) = false := by rcases hm with h | h <;> simp [ht, h]
  simp only [execInjectPipeline, State.onDevF, State.onDev, hgo, Bool.false_eq_true, if_false, bne_iff_ne, if_pos hst]

/-- The device when an inject is refused: its descriptor is consumed, and a drop at an isolated zone counted (R22). -/
theorem injectRefuse_spec (d : Dev) {h : Nat} (hh : h < 2) (r : Nat) (x : Inject) {st : Nat} (h0 : st ≠ 0) :
    let e := injectRefuse d h r x st
    (e.urn = d.urn ∧ e.ras = d.ras ∧ e.tel = d.tel) ∧ ringConsumed e h 1 r = (ringConsumed d h 1 r + 1) % 65536 ∧
      ctr e (Rg.INJ_FAIL h) = ctr d (Rg.INJ_FAIL h) + 1 ∧ (st = 5 → (rd e (Rg.HIF_ERR h)).getLsbD 3 = true) ∧
      (st = 6 → ctr e (Rg.XB_ISO_DROP (injectZone d h r x)) = ctr d (Rg.XB_ISO_DROP (injectZone d h r x)) + 1) := by
  intro e
  have hfar : Rg.baseHIF h + 0x1000 ≤ Rg.XB_ISO_DROP (injectZone d h r x) ∧ Rg.INJ_FAIL h ≠ Rg.XB_ISO_DROP (injectZone d h r x) := by
    unfold Rg.XB_ISO_DROP Rg.baseXB Rg.INJ_FAIL Rg.baseHIF
    omega
  have he : e = injectEnd (if st == 6 then isoDrop d (injectZone d h r x) else d) h r st 0 := rfl
  by_cases h6 : st = 6
  · subst h6
    obtain ⟨⟨hu, -, hra, hte⟩, hco, -, -, hfail, hctr, -⟩ := injectEnd_spec (isoDrop d (injectZone d h r x)) h r 6 0
    rw [show injectEnd (isoDrop d (injectZone d h r x)) h r 6 0 = e from rfl] at hu hra hte hco hfail hctr
    refine ⟨⟨hu, hra, hte⟩, hco, ?_, nofun, fun _ => ?_⟩
    · rw [hfail h0, isoDrop, ctr_bump_ne _ _ hfar.2]
    · rw [hctr _ (.inr hfar.1), isoDrop, ctr_bump_same]
      rfl
  · rw [if_neg (by simpa using h6)] at he
    obtain ⟨⟨hu, -, hra, hte⟩, hco, -, -, hfail, -, herr⟩ := injectEnd_spec d h r st 0
    rw [← he] at hu hra hte hco hfail herr
    exact ⟨⟨hu, hra, hte⟩, hco, hfail h0, herr, fun h => absurd h h6⟩

theorem calm_congr (hr : e.ras = d.ras) (ht : e.tel.freezing = d.tel.freezing) (hc : Calm d) : Calm e :=
  ⟨(congrArg Ras.todo hr).trans hc.1, ht.trans hc.2⟩

/-- What a refused inject leaves: nothing else waits to be settled. -/
theorem settle_injectRefuse (hc : Calm d) {h : Nat} (hh : h < 2) (r : Nat) (x : Inject) {st : Nat} (h0 : st ≠ 0) :
    settle (injectRefuse d h r x st) = injectRefuse d h r x st := by
  obtain ⟨⟨-, hra, hte⟩, -⟩ := injectRefuse_spec d hh r x h0
  exact settle_of_calm (calm_congr hra (congrArg Tel.freezing hte) hc)

/-- No cells: the inject waits, and the refusal is counted. -/
theorem exec_injectDirect_waits (hc : Calm s.dev) (h : Host2) (r : Fin 64) (ht : ringTakes s.dev h 1 r = true) (hm : (injectOf w).mode = 0)
    (hst : injectStatus s.dev h r (injectOf w) w bytes false = 0)
    (hmay : mayPresent s.dev (cycleOf s.dev (injectZone s.dev h r (injectOf w))) (injectReq h r) = true)
    (hroom : ¬ (poolRoom s.dev (injectZone s.dev h r (injectOf w)) (cellsOf ((injectOf w).len + 4)) (injectOf w).ctrl = true ∧
      barred s.dev (injectReq h r) = false)) :
    ∃ t, Machine.exec (.injectDirect h r w bytes cells false) s = .next { s with
      dev := modRing { bump s.dev (Rg.ALLOC_EMPTY (injectZone s.dev h r (injectOf w))) 1 with steep := t } h 1 r
        (fun y => { y with wait := y.wait.or (some (nowNs s.dev)) }) } := by
  obtain ⟨t, hal⟩ := allocAlone_refused (cells := cells) hmay hroom
  refine ⟨t, ?_⟩
  show execInjectDirect h r w bytes cells false s = _
  have hno : (poolRoom s.dev (injectZone s.dev h r (injectOf w)) (cellsOf ((injectOf w).len + 4)) (injectOf w).ctrl && !barred s.dev (injectReq h r)) = false := by
    rw [Bool.eq_false_iff]
    simpa using hroom
  have hcalm : Calm (modRing { bump s.dev (Rg.ALLOC_EMPTY (injectZone s.dev h r (injectOf w))) 1 with steep := t } h 1 r
      (fun y => { y with wait := y.wait.or (some (nowNs s.dev)) })) := hc
  simp only [execInjectDirect, State.onDevF, State.onDev, ht, hm, hst, hal, hno, Bool.not_true, Bool.false_or, Nat.reduceBEq, Bool.false_and, Bool.false_eq_true,
    if_false, bne_self_eq_false, settle_of_calm hcalm]

/-- Cells granted: the frame goes to its VOQ. -/
theorem exec_injectDirect_sent (h : Host2) (r : Fin 64) (ht : ringTakes s.dev h 1 r = true) (hm : (injectOf w).mode = 0)
    (hst : injectStatus s.dev h r (injectOf w) w bytes false = 0)
    (hmay : mayPresent s.dev (cycleOf s.dev (injectZone s.dev h r (injectOf w))) (injectReq h r) = true)
    (hp : poolRoom s.dev (injectZone s.dev h r (injectOf w)) (cellsOf ((injectOf w).len + 4)) (injectOf w).ctrl = true)
    (hb : barred s.dev (injectReq h r) = false) (hl : cells.length = cellsOf ((injectOf w).len + 4))
    (ha : cellsAvail s.dev (injectZone s.dev h r (injectOf w)) cells = true) :
    ∃ t, Machine.exec (.injectDirect h r w bytes cells false) s = .next { s with dev := settle (
      injectEnd (injectSend { s.dev with steep := t } h r (injectZone s.dev h r (injectOf w)) (injectOf w) bytes cells) h r 0 (injectOf w).len) } := by
  obtain ⟨t, hal⟩ := allocAlone_served hmay hp hb hl ha
  refine ⟨t, ?_⟩
  show execInjectDirect h r w bytes cells false s = _
  simp only [execInjectDirect, State.onDevF, State.onDev, ht, hm, hst, hal, Bool.not_true, Bool.false_or, Nat.reduceBEq, Bool.false_and, Bool.false_eq_true,
    if_false, bne_self_eq_false]

theorem exec_injectPipeline (h : Host2) (r : Fin 64) (ht : ringTakes s.dev h 1 r = true) (hm : (injectOf w).mode = 1)
    (hst : injectStatus s.dev h r (injectOf w) w bytes false = 0) :
    let a := admitFrame s.dev (injectOf w).dest (bytes ++ fcs bytes) 0
    Machine.exec (.injectPipeline h r w bytes false) s = .next { s with dev := settle (injectEnd a.1 h r (if a.2 then 0 else 4) (injectOf w).len) } := by
  intro a
  show execInjectPipeline h r w bytes false s = _
  simp only [execInjectPipeline, State.onDevF, State.onDev, ht, hm, hst, Bool.not_true, Bool.false_or, bne_self_eq_false, Bool.false_and, Bool.false_eq_true,
    if_false, a]

/-- An inject that has waited 100 µs without cells fails. -/
theorem exec_noCells_fails (h : Host2) (r : Fin 64) {t : Nat} (hw : (ring s.dev h 1 r).wait = some t) (ht : ringTakes s.dev h 1 r = true)
    (hm : (injectOf w).mode = 0) (hle : t + 100000 ≤ nowNs s.dev)
    (hroom : ¬ (poolRoom s.dev (injectZone s.dev h r (injectOf w)) (cellsOf ((injectOf w).len + 4)) (injectOf w).ctrl = true ∧
      barred s.dev (injectReq h r) = false)) : Machine.exec (.noCells h r w) s = .next { s with dev := injectEnd s.dev h r 3 0 } := by
  show execNoCells h r w s = _
  have hel : 100000 ≤ elapsed (nowNs s.dev) t := by unfold elapsed; omega
  have hor : (!poolRoom s.dev (injectZone s.dev h r (injectOf w)) (cellsOf ((injectOf w).len + 4)) (injectOf w).ctrl || barred s.dev (injectReq h r)) = true := by
    cases hb : barred s.dev (injectReq h r) with
    | true => simp
    | false => simpa [hb] using hroom
  simp [execNoCells, State.onDev, hw, ht, hm, hel, hor]
theorem exec_noCells_waits (h : Host2) (r : Fin 64) (hq : (ring s.dev h 1 r).wait = none ∨ ringTakes s.dev h 1 r = false ∨
      (poolRoom s.dev (injectZone s.dev h r (injectOf w)) (cellsOf ((injectOf w).len + 4)) (injectOf w).ctrl = true ∧
        barred s.dev (injectReq h r) = false)) : Machine.exec (.noCells h r w) s = .next s := by
  show execNoCells h r w s = _
  simp only [execNoCells, State.onDev]
  split
  · rfl
  next t hw =>
    rcases hq with hq | hq | ⟨hp, hb⟩
    · simp [hw] at hq
    · simp [hq]
    · simp [hp, hb]

/-! ## Admission counts in its zone alone -/

theorem ctr_admitFrame (d : Dev) (p : Nat) (f : List Byte) (st : W64) {a : Nat} (ha : a < Rg.zoneBase 0) :
    ctr (admitFrame d p f st).1 a = ctr d a := by
  have hbump (e : Dev) (b n : Nat) (hb : Rg.zoneBase 0 ≤ b) : ctr (bump e b n) a = ctr e a := ctr_bump_ne _ _ (by omega)
  have hdrop (z i j : Nat) : Rg.zoneBase 0 ≤ Rg.ADM_DROP z i j := by unfold Rg.ADM_DROP Rg.baseADM Rg.zoneBase; omega
  have hseq (z i : Nat) : Rg.zoneBase 0 ≤ Rg.ADM_DROP_SEQ z i := by unfold Rg.ADM_DROP_SEQ Rg.baseADM Rg.zoneBase; omega
  have hadmit (z i : Nat) : Rg.zoneBase 0 ≤ Rg.ADM_ADMIT z i := by unfold Rg.ADM_ADMIT Rg.baseADM Rg.zoneBase; omega
  have hset (e : Dev) (c : Prop) [Decidable c] (z n : Nat) : ctr (if c then setCtrlCells e z n else e) a = ctr e a := by split <;> rfl
  have hcharge (e : Dev) (z n : Nat) : ctr (chargePool e z n) a = ctr e a := ((Charged.of_pool (.refl e)).chargePool z n).ctr a
  have hprobe (e : Dev) (k i : Nat) (y : Int) : ctr (probeMax e k i y) a = ctr e a := ((Charged.of_pool (.refl e)).probeMax k i y).ctr a
  have hstore (e : Dev) (z k : Nat) (f : Pipe → Pipe) : ctr (watchStore (modPipe e z k f) z k) a = ctr e a := rfl
  have hdom (e : Dev) (n : Nat) (f : Domain → Domain) : ctr (watchDom (modDom e n f) n) a = ctr e a := rfl
  unfold admitFrame
  dsimp only
  split
  · exact hbump _ _ _ (hseq ..)
  · split
    · rw [ctr_raise, hbump _ _ _ (hdrop ..)]
    · split
      · rw [ctr_raise, hbump _ _ _ (hdrop ..)]
      · exact hbump _ _ _ (hdrop ..)
  · rw [hbump _ _ _ (hadmit ..), hstore, hcharge, hset, hprobe, hdom]

end Sys2Proof.Machine
end

section
/-! The ends of a punt and of an inject that is refused (R22, R404, R408, R410). -/

namespace Sys2Proof.Machine
open Sys2Proof Sys2Proof.Terms

variable {s : State} {w : List W32} {bytes : List Byte} {cells : List Nat} {j : PuntJob} {l : List PuntJob} {b : Buf}

/-- R408: the three ends of a punt. -/
theorem exec_puntDone_ends (h : Host2) (r : Fin 64) (hj : puntJobs s.dev h r = j :: l) (hd : inD3 s.dev h = false)
    (hb : bufOf s.dev j.handle = some b) (hk : b.kind = 6) (hi : b.index = 128 * h.val + r.val) (hiso : isolated s.dev (hZone j.handle) = false) :
    let freed (d : Dev) : Prop := puntJobs d h r = l ∧ bufOf d j.handle = none
    let f := puntData s.dev j
    (∀ n, PuntDesc w n → ∃ d, Machine.exec (.puntDone h r w false) s = .next { s with dev := settle d } ∧ freed d ∧
      .hostBytes h (dword w 0 + dword w 1 * 2 ^ 32) (f.take (min f.length n)) ∈ d.out ∧
      ctr d (Rg.PUNT_FRAMES h) = ctr s.dev (Rg.PUNT_FRAMES h) + 1 ∧
      ctr d (Rg.PUNT_BYTES h) = ctr s.dev (Rg.PUNT_BYTES h) + BitVec.ofNat 64 (min f.length n)) ∧
    (dword w 2 < 64 → ∃ d, Machine.exec (.puntDone h r w false) s = .next { s with dev := settle d } ∧ freed d ∧
      ctr d (Rg.PUNT_FRAMES h) = ctr s.dev (Rg.PUNT_FRAMES h)) ∧
    (∃ d, Machine.exec (.puntDone h r w true) s = .next { s with dev := settle d } ∧ freed d ∧ (rd d (Rg.HIF_ERR h)).getLsbD 3 = true) := by
  intro freed f
  obtain ⟨⟨hfm, hfp, hbm, hbp, -⟩, -⟩ := hif_counters h
  obtain ⟨hnf, -⟩ := not_sramCtr_punt h.isLt
  refine ⟨fun n hw => ?_, fun hw => ?_, ?_⟩
  · obtain ⟨hjobs, hurn, hbytes, hframes, hcount⟩ := puntSent_spec h.isLt hj w
    have hex := exec_puntDone (w := w) h r false hj hd
    rw [puntStatus_good hw hiso] at hex
    obtain ⟨x, hx⟩ := puntFinish_good s.dev h r j w
    obtain ⟨hnone, hsame, hout, hcnt, -⟩ := punt_ends ((bufOf_congr hurn j.handle).trans hb) hk hi x
    rw [← hx] at hnone hsame hout hcnt
    obtain ⟨rfl, -⟩ := hw
    exact ⟨_, hex, ⟨hsame.trans hjobs, hnone⟩, hout _ hbytes, (hcnt _ hfm hfp).trans hframes, (hcnt _ hbm hbp).trans hcount⟩
  · obtain ⟨hjobs, hurn, hctr⟩ := puntRead_spec hj 0
    have hex := exec_puntDone (w := w) h r false hj hd
    rw [puntStatus_short hw] at hex
    obtain ⟨x, hx⟩ := puntFinish_short s.dev h r j w
    obtain ⟨hnone, hsame, -, hcnt, -⟩ := punt_ends ((bufOf_congr hurn j.handle).trans hb) hk hi x
    rw [← hx] at hnone hsame hcnt
    exact ⟨_, hex, ⟨hsame.trans hjobs, hnone⟩, (hcnt _ hfm hfp).trans (hctr _ hnf)⟩
  · obtain ⟨hjobs, hurn, -⟩ := puntRead_spec hj 0
    have hex := exec_puntDone (w := w) h r true hj hd
    rw [puntStatus_err] at hex
    obtain ⟨x, hx⟩ := puntFinish_err s.dev h r j w
    obtain ⟨rg, p, i, k, he⟩ := hifErr_shape (puntRead s.dev h r j 0) h 3
    have hurn' : (hifErr (puntRead s.dev h r j 0) h 3).urn = s.dev.urn := by rw [he]; exact hurn
    obtain ⟨hnone, hsame, -, -, hrd⟩ := punt_ends ((bufOf_congr hurn' j.handle).trans hb) hk hi x
    rw [← hx] at hnone hsame hrd
    refine ⟨_, hex, ⟨?_, hnone⟩, ?_⟩
    · rw [hsame, ← hjobs, puntJobs, he]
      rfl
    · rw [hrd]
      exact rd_hifErr _ _ (by decide)

/-- R22, R404, R410: the ends of an inject. -/
theorem exec_inject_ends (hc : Calm s.dev) (h : Host2) (r : Fin 64) (w : List W32) (bytes : List Byte) (cells : List Nat) :
    let x := injectOf w
    let takes := ringTakes s.dev h 1 r
    let z := injectZone s.dev h r x
    let taken (u : State) : Prop := OnlyDev s u ∧ ringConsumed u.dev h 1 r = (ringConsumed s.dev h 1 r + 1) % 65536
    let failed (u : State) : Prop := taken u ∧ u.dev.urn = s.dev.urn ∧ ctr u.dev (Rg.INJ_FAIL h) = ctr s.dev (Rg.INJ_FAIL h) + 1
    (takes = true → (∃ u, Machine.exec (.injectDirect h r w bytes cells true) s = .next u ∧ failed u ∧ (rd u.dev (Rg.HIF_ERR h)).getLsbD 3 = true) ∧
      ∃ u, Machine.exec (.injectPipeline h r w bytes true) s = .next u ∧ failed u) ∧
    (takes = true → injectBad s.dev x w bytes = true → (x.mode ≠ 1 → ∃ u, Machine.exec (.injectDirect h r w bytes cells false) s = .next u ∧ failed u) ∧
      (x.mode = 1 → ∃ u, Machine.exec (.injectPipeline h r w bytes false) s = .next u ∧ failed u)) ∧
    (takes = true → injectBad s.dev x w bytes = false → (page s.dev (urnPage z)).ready = true → isolated s.dev z = true → x.mc = false → x.mode = 0 →
      ∃ u, Machine.exec (.injectDirect h r w bytes cells false) s = .next u ∧ failed u ∧
        ctr u.dev (Rg.XB_ISO_DROP z) = ctr s.dev (Rg.XB_ISO_DROP z) + 1) ∧
    (takes = true → injectBad s.dev x w bytes = false → (page s.dev (urnPage z)).ready = true → isolated s.dev z = false → x.mc = false →
      portUsable s.dev x.dest = false → x.mode = 0 → ∃ u, Machine.exec (.injectDirect h r w bytes cells false) s = .next u ∧ failed u) := by
  intro x takes z taken failed
  have hrefuse (st : Nat) (h0 : st ≠ 0) : failed { s with dev := settle (injectRefuse s.dev h r x st) } ∧
      (st = 5 → (rd (settle (injectRefuse s.dev h r x st)) (Rg.HIF_ERR h)).getLsbD 3 = true) ∧
      (st = 6 → ctr (settle (injectRefuse s.dev h r x st)) (Rg.XB_ISO_DROP z) = ctr s.dev (Rg.XB_ISO_DROP z) + 1) := by
    obtain ⟨⟨hu, -⟩, hco, hfail, herr, hiso⟩ := injectRefuse_spec s.dev h.isLt r x h0
    rw [settle_injectRefuse hc h.isLt r x h0]
    exact ⟨⟨⟨⟨rfl, rfl⟩, hco⟩, hu, hfail⟩, herr, hiso⟩
  refine ⟨fun ht => ⟨?_, ?_⟩, fun ht hb => ⟨fun hm => ?_, fun hm => ?_⟩, fun ht hb hp hi hm h0 => ?_, fun ht hb hp hi hm hu h0 => ?_⟩
  · obtain ⟨hf, herr, -⟩ := hrefuse 5 (by decide)
    exact ⟨_, exec_injectDirect_refused h r ht (.inr rfl) (by rw [injectStatus_err]; decide), hf, herr rfl⟩
  · obtain ⟨hf, -⟩ := hrefuse 5 (by decide)
    exact ⟨_, exec_injectPipeline_refused h r ht (.inr rfl) (by rw [injectStatus_err]; decide), hf⟩
  · have hex := exec_injectDirect_refused (cells := cells) h r ht (.inl hm) (err := false) (bytes := bytes) (by rw [injectStatus_bad hb]; decide)
    rw [injectStatus_bad hb] at hex
    exact ⟨_, hex, (hrefuse 1 (by decide)).1⟩
  · have hex := exec_injectPipeline_refused h r ht (.inl hm) (err := false) (bytes := bytes) (by rw [injectStatus_bad hb]; decide)
    rw [injectStatus_bad hb] at hex
    exact ⟨_, hex, (hrefuse 1 (by decide)).1⟩
  · have hst := injectStatus_isolated (h := h) (r := r) hb hp hm hi
    have hex := exec_injectDirect_refused (cells := cells) h r ht (.inl (by rw [h0]; decide)) (err := false) (by rw [hst]; decide)
    rw [hst] at hex
    obtain ⟨hf, -, hdrop⟩ := hrefuse 6 (by decide)
    exact ⟨_, hex, hf, hdrop rfl⟩
  · have hst := injectStatus_good (h := h) (r := r) hb hp hm hi
    rw [hu, if_neg Bool.false_ne_true] at hst
    have hex := exec_injectDirect_refused (cells := cells) h r ht (.inl (by rw [h0]; decide)) (err := false) (by rw [hst]; decide)
    rw [hst] at hex
    exact ⟨_, hex, (hrefuse 2 (by decide)).1⟩

end Sys2Proof.Machine
end

section
/-! An inject that gets its cells (R410). -/

namespace Sys2Proof.Machine
open Sys2Proof Sys2Proof.Terms

variable {s : State} {w : List W32} {bytes : List Byte} {cells : List Nat}

theorem injectOf_cls (w : List W32) : (injectOf w).cls < 8 := Nat.mod_lt _ (by decide)

/-- Cells that are available lie in the pool. -/
theorem of_cellsAvail {d : Dev} {z c : Nat} {l : List Nat} (h : cellsAvail d z (c :: l) = true) : c < 131072 := by
  simp only [cellsAvail, Bool.and_eq_true, List.all_cons, decide_eq_true_eq] at h
  obtain ⟨-, ⟨⟨hc, -⟩, -⟩, -⟩ := h
  exact hc

/-- R410: a control inject that gets its cells. -/
theorem exec_injectDirect_lands (hc : Calm s.dev) (h : Host2) (r : Fin 64) (ht : ringTakes s.dev h 1 r = true)
    (hbad : injectBad s.dev (injectOf w) w bytes = false) (hst : injectStatus s.dev h r (injectOf w) w bytes false = 0) (hm : (injectOf w).mc = false)
    (hmode : (injectOf w).mode = 0) (hz : injectZone s.dev h r (injectOf w) < 4)
    (hmay : mayPresent s.dev (cycleOf s.dev (injectZone s.dev h r (injectOf w))) (injectReq h r) = true)
    (hp : poolRoom s.dev (injectZone s.dev h r (injectOf w)) (cellsOf ((injectOf w).len + 4)) (injectOf w).ctrl = true)
    (hb : barred s.dev (injectReq h r) = false) (hl : cells.length = cellsOf ((injectOf w).len + 4))
    (ha : cellsAvail s.dev (injectZone s.dev h r (injectOf w)) cells = true)
    (hq : (voq s.dev (injectZone s.dev h r (injectOf w)) (8 * (injectOf w).dest + (injectOf w).cls)).q = [])
    (hch : (voq s.dev (injectZone s.dev h r (injectOf w)) (8 * (injectOf w).dest + (injectOf w).cls)).chain = [])
    (hsp : (voq s.dev (injectZone s.dev h r (injectOf w)) (8 * (injectOf w).dest + (injectOf w).cls)).spill = false) (hctl : (injectOf w).ctrl = true)
    (hlim : cellsOf ((injectOf w).len + 4) ≤
      rf s.dev (Rg.TM_VOQ_LIMIT (injectZone s.dev h r (injectOf w)) (injectOf w).cls) Fl.TM_VOQ_LIMIT_LIMIT) :
    let x := injectOf w
    let v := 8 * x.dest + x.cls
    ∃ u y b, Machine.exec (.injectDirect h r w bytes cells false) s = .next u ∧
      (OnlyDev s u ∧ ringConsumed u.dev h 1 r = (ringConsumed s.dev h 1 r + 1) % 65536) ∧
      (voq u.dev (injectZone s.dev h r x) v).q = [y] ∧ y.len = x.len + 4 ∧
      y.port = x.dest ∧ y.cls = x.cls ∧ y.edit = x.edit ∧ bufOf u.dev y.handle = some b ∧ b.bytes = bytes ++ fcs bytes ∧ b.cells = cells ∧
      b.kind = 4 ∧ ctr u.dev (Rg.INJ_FRAMES h) = ctr s.dev (Rg.INJ_FRAMES h) + 1 := by
  intro x v
  obtain ⟨t, hex⟩ := exec_injectDirect_sent h r ht hmode hst hmay hp hb hl ha
  obtain ⟨hlen, -⟩ := of_injectBad hbad
  cases cells with
  | nil =>
    have hpos : 0 < cellsOf ((injectOf w).len + 4) := by unfold cellsOf cdiv; omega
    simp at hl
    omega
  | cons c l =>
    obtain ⟨y, b, hvq, hylen, hyp, hyc, hye, hbuf, hbb, hbc, hbk, hbes⟩ := injectSend_spec (d := { s.dev with steep := t }) (h := h) (r := r) (x := x)
      (z := injectZone s.dev h r x) (bytes := bytes) (cells := l) hm hctl hz (of_cellsAvail ha) (injectOf_cls w) hq hch hsp (hl ▸ hlim)
    generalize injectSend { s.dev with steep := t } h r (injectZone s.dev h r x) x bytes (c :: l) = e at hvq hbuf hbes hex
    obtain ⟨⟨hurn, -, hras, htel⟩, hcons, -, hfr, -⟩ := injectEnd_spec e h r 0 x.len
    have hcalm : Calm (injectEnd e h r 0 x.len) := calm_congr (hras.trans hbes.ras) ((congrArg Tel.freezing htel).trans hbes.freezing) hc
    rw [settle_of_calm hcalm] at hex
    refine ⟨_, y, b, hex, ⟨⟨rfl, rfl⟩, ?_⟩, ?_, ?_, hyp, hyc, hye, ?_, hbb, hbc, hbk, ?_⟩
    · rw [hcons, ringConsumed, rf_congr (hbes.rd _)]
      rfl
    · rw [voq_congr (congrArg Urn.voqs hurn), hvq]
    · rw [hylen, List.length_append, hlen]
      rfl
    · rw [bufOf_congr hurn, hbuf]
    · have hne : Rg.INJ_FRAMES h ≠ Rg.CELLS_ALLOC (injectZone s.dev h r x) := by
        have := h.isLt
        unfold Rg.INJ_FRAMES Rg.CELLS_ALLOC Rg.baseHIF Rg.baseURN Rg.zoneBase
        omega
      rw [hfr rfl, hbes.ctr _ hne]
      rfl

end Sys2Proof.Machine
end

section
/-! O48: the statement from the rules of the commands. -/

namespace Sys2Proof.Machine
open Sys2Proof Sys2Proof.Terms

variable {s : State}

theorem injectZone_lt {d : Dev} {h r : Nat} {x : Inject} (hm : x.mc = false) : injectZone d h r x < 4 := by
  simp only [injectZone, hm, Bool.false_eq_true, if_false, portZone]
  omega

/-- R413: an unmasked vector. -/
theorem exec_vectorUnmask_spec (h : Host2) (v : Fin 128) :
    ∃ u, Machine.exec (.vectorUnmask h v) s = .next u ∧ OnlyDev s u ∧ (tget zeroN u.dev.hif.open_ h).testBit v = true ∧
      ((tget zeroN s.dev.hif.pend h).testBit v = false → u.dev.out = s.dev.out) ∧
      ((tget zeroN s.dev.hif.pend h).testBit v = true → inD3 s.dev h = false → .msix h v ∈ u.dev.out ∧ (tget zeroN u.dev.hif.pend h).testBit v = false) := by
  have hopen : (tget zeroN (tmod zeroN s.dev.hif.open_ h (fun b => setBit b v)) h).testBit v = true := by
    rw [tget_tmod_same]
    exact testBit_setBit_same _ _
  refine ⟨_, exec_vectorUnmask h v, ⟨rfl, rfl⟩, ?_, fun hp => ?_, fun hp hd => ?_⟩
  · dsimp only
    split
    · rw [((HostWork.refl h.val 0 0 _).requestVector v).open_]
      exact hopen
    · exact hopen
  · rw [hp]
    rfl
  · dsimp only
    rw [if_pos hp]
    generalize hg : modHif s.dev (fun x => { x with open_ := tmod zeroN x.open_ h (fun b => setBit b v), pend := tmod zeroN x.pend h (fun b => clrBit b v) }) = d
    have hopen' : (tget zeroN d.hif.open_ h).testBit v = true := by
      rw [← hg]
      exact hopen
    have hd3 : inD3 d h = false := by
      rw [← hg]
      exact hd
    rw [requestVector_d0 hd3]
    refine ⟨msix_mem_sendVector hopen', ?_⟩
    rw [pend_sendVector hopen', ← hg]
    exact (congrArg (Nat.testBit · v.val) (tget_tmod_same zeroN s.dev.hif.pend h.val (fun b => clrBit b v))).trans (testBit_clrBit_same _ _)

/-- R404: a moderation timer. -/
theorem exec_moderationTimer_quiet (h : Host2) (kind : RingKind) {r : Nat}
    (hq : ringCount (kindNo kind) ≤ r ∨ (ring s.dev h (kindNo kind) r).timer = none ∨ rf s.dev (ringThr h (kindNo kind) r) Fl.PRING_THR_TIME_US = 0) :
    Machine.exec (.moderationTimer h kind r) s = .next s := by
  rw [exec_moderationTimer]
  rcases hq with hq | hq | hq
  · simp [Nat.not_lt.mpr hq]
  · simp [hq]
  · simp only [hq, bne_self_eq_false, Bool.false_and, Bool.false_eq_true, if_false]
    split <;> rfl
theorem exec_moderationTimer_early (h : Host2) (kind : RingKind) {r t0 : Nat} (hr : r < ringCount (kindNo kind))
    (ht : (ring s.dev h (kindNo kind) r).timer = some t0)
    (hlt : s.dev.tb < t0 + rf s.dev (ringThr h (kindNo kind) r) Fl.PRING_THR_TIME_US * 1000 * 2 ^ 32) :
    Machine.exec (.moderationTimer h kind r) s = .next s := by
  rw [exec_moderationTimer, if_pos hr, ht]
  simp only [decide_eq_false (Nat.not_le.mpr hlt), Bool.and_false, Bool.false_eq_true, if_false]
theorem exec_moderationTimer_due (h : Host2) (kind : RingKind) {r t0 : Nat} (hr : r < ringCount (kindNo kind))
    (ht : (ring s.dev h (kindNo kind) r).timer = some t0) (h0 : rf s.dev (ringThr h (kindNo kind) r) Fl.PRING_THR_TIME_US ≠ 0)
    (hle : t0 + rf s.dev (ringThr h (kindNo kind) r) Fl.PRING_THR_TIME_US * 1000 * 2 ^ 32 ≤ s.dev.tb) :
    Machine.exec (.moderationTimer h kind r) s = .next { s with dev := trigger s.dev h (kindNo kind) r } := by
  rw [exec_moderationTimer, if_pos hr, ht]
  simp only [bne_iff_ne.mpr h0, decide_eq_true hle, Bool.and_true, if_true]

/-- R414: D3hot. -/
theorem exec_d3hot_spec (h : Host2) (pme : Bool) :
    ∃ u, Machine.exec (.d3hot h pme) s = .next u ∧ OnlyDev s u ∧ inD3 u.dev h = true ∧ tget (fun _ => false) u.dev.hif.pmeEn h = pme := by
  refine ⟨_, exec_d3hot h pme, ⟨rfl, rfl⟩, ?_⟩
  dsimp only
  split
  next hd => exact ⟨hd, tget_tset_same _ _ _ _⟩
  · refine ⟨?_, ?_⟩
    · rw [inD3_congr (rd_raise ..)]
      exact rb_wf_same _ _ true (by decide) rfl
    · rw [hif_raise, hif_wf]
      exact tget_tset_same _ _ _ _

/-- R402, R419: a reset of the function, and a link that goes down. -/
theorem exec_resets (hc : Calm s.dev) (h : Host2) :
    let off (u : State) : Prop := OnlyDev s u ∧ inD3 u.dev h = false ∧ rb u.dev (Rg.HIF_STATUS h) Fl.HIF_STATUS_BME = false ∧
      tget zeroN u.dev.hif.open_ h = 0 ∧ ∀ k r, k < 4 → r < ringCount k → ringEnabled u.dev h k r = false
    (∃ u, Machine.exec (.functionReset h) s = .next u ∧ off u) ∧
      (rf s.dev (Rg.HIF_STATUS h) Fl.HIF_STATUS_WIDTH ≠ 0 → ∃ u, Machine.exec (.hostLinkChange h 0 0 0) s = .next u ∧ off u ∧
        rf u.dev (Rg.HIF_STATUS h) Fl.HIF_STATUS_WIDTH = 0) := by
  intro off
  have hoff (d : Dev) : off { s with dev := resetFunction d h } := by
    obtain ⟨h1, h2, h3, h4, -⟩ := resetFunction_spec d h
    exact ⟨⟨rfl, rfl⟩, h1, h2, h3, h4⟩
  refine ⟨⟨_, exec_functionReset hc h, hoff _⟩, fun hw => ?_⟩
  have hex := exec_hostLinkChange (s := s) h 0 0 0
  have hgo : (decide (5 ≤ 0) || decide (6 ≤ 0) || decide (3 ≤ 0) || (((0 : Nat) == 0) != ((0 : Nat) == 0))) = false := by decide
  rw [hgo, if_neg Bool.false_ne_true, Nat.zero_min, linkTo_down hw,
    settle_of_calm (calm_resetFunction (calm_raise (calm_linkStatus hc ..) _ _))] at hex
  refine ⟨_, hex, hoff _, ?_⟩
  obtain ⟨-, -, -, -, hfld, -⟩ := resetFunction_spec (raise (linkStatus s.dev h 0 0 0) (hifPage h) 0) h
  rw [hfld _ (by decide), rf_congr (rd_raise ..), (linkStatus_fields ..).1]

/-- R402: the link comes up, or changes its width, speed or power state. -/
theorem exec_hostLinkChange_up (hc : Calm s.dev) (h : Host2) {w sp pm : Nat} (hw1 : 1 ≤ w) (hw4 : w ≤ 4) (hs1 : 1 ≤ sp) (hs5 : sp ≤ 5) (hpm : pm ≤ 2)
    (hh : hostWidth s.dev h ≠ 0) : ∃ u, Machine.exec (.hostLinkChange h w sp pm) s = .next u ∧ OnlyDev s u ∧
      rf u.dev (Rg.HIF_STATUS h) Fl.HIF_STATUS_WIDTH = min w (hostWidth s.dev h) ∧ rf u.dev (Rg.HIF_STATUS h) Fl.HIF_STATUS_SPEED = sp ∧
      rf u.dev (Rg.HIF_STATUS h) Fl.HIF_STATUS_LINK_PM = pm := by
  have hex := exec_hostLinkChange (s := s) h w sp pm
  have hgo : (decide (5 ≤ w) || decide (6 ≤ sp) || decide (3 ≤ pm) || ((w == 0) != (sp == 0))) = false := by
    have hw0 : (w == 0) = false := by simp; omega
    have hs0 : (sp == 0) = false := by simp; omega
    rw [hw0, hs0]
    simp
    omega
  have hmin : min w (hostWidth s.dev h) ≠ 0 := by omega
  obtain ⟨hcalm, hfld⟩ := linkTo_up (h := h) hc (speed := sp) (pm := pm) hmin
  obtain ⟨h1, h2, h3⟩ := linkStatus_fields s.dev h (min w (hostWidth s.dev h)) sp pm
  rw [hgo, if_neg Bool.false_ne_true, settle_of_calm hcalm] at hex
  have hon : b2n (min w (hostWidth s.dev h) != 0) = 1 := by rw [bne_iff_ne.mpr hmin]; rfl
  rw [hon, Nat.one_mul] at h2 h3
  refine ⟨_, hex, ⟨rfl, rfl⟩, ?_, ?_, ?_⟩
  · rw [hfld, h1]
    omega
  · rw [hfld, h2]
    omega
  · rw [hfld, h3]
    omega

/-- Settles O48: each clause is the rule of its command. -/
theorem hostPortsCarryFramesAndInterrupts : Obligations.HostPortsCarryFramesAndInterrupts := by
  unfold Obligations.HostPortsCarryFramesAndInterrupts
  intro s h hc quiet
  refine ⟨fun r => ⟨doorbell_spec s h 0 r _ fun _ _ => rfl, doorbell_spec s h 1 r _ fun _ _ => rfl⟩, fun r => doorbell_spec s h 2 r _ fun _ _ => rfl,
    fun r => doorbell_spec s h 3 r _ fun _ _ => rfl, fun off => ⟨fun hl w => ?_, fun hl w => ?_⟩, fun r w => ?_, fun r w bytes cells => ?_, fun kind r => ?_,
    fun v => exec_vectorUnmask_spec h v, fun pme => exec_d3hot_spec h pme, fun hd => ?_, fun hd => ?_, exec_resets hc h, fun w sp pm => ⟨fun hbad => ?_, ?_⟩⟩
  · rw [exec_bar2HoleAccess, if_pos hl]
  · refine ⟨_, exec_bar2HoleAccess h off w, ⟨rfl, rfl⟩, ?_, ?_⟩
    · rw [hl, if_neg Bool.false_ne_true]
      split <;> exact rd_hifErr _ _ (by decide)
    · rintro rfl
      rw [hl, if_neg Bool.false_ne_true, if_neg Bool.false_ne_true, emit_out]
      exact List.mem_append_right _ List.mem_cons_self
  · exact ⟨fun hq e => exec_puntDone_waits hc h r e hq, fun j l b hj hd hb hk hi hiso => exec_puntDone_ends h r hj hd hb hk hi hiso⟩
  · obtain ⟨herr, hbad, hiso, hdown⟩ := exec_inject_ends hc h r w bytes cells
    intro x takes z n may room taken failed
    refine ⟨fun ht e => ⟨exec_injectDirect_idle hc h r e ht, exec_injectPipeline_idle hc h r e ht⟩, herr, hbad, hiso,
      fun ht hb hp hi hm => ⟨fun hu => hdown ht hb hp hi hm hu, fun hu h0 hmay hroom => ?_, ?_, ?_⟩, fun t hw ht h0 hle hroom => ?_,
      fun hq => exec_noCells_waits h r hq⟩
    · obtain ⟨t, hex⟩ := exec_injectDirect_waits (cells := cells) hc h r ht h0 ((injectStatus_good hb hp hm hi).trans (if_pos hu)) hmay hroom
      refine ⟨_, hex, ⟨rfl, rfl⟩, rfl, ?_, ctr_bump_same _ _ _⟩
      exact (congrArg (fun y => Option.isSome (Ring.wait y)) (ring_modRing_same _ h.val 1 r.val _)).trans (by cases (ring _ h.val 1 r.val).wait <;> rfl)
    · rintro hu h0 hmay ⟨hroom, hbar⟩ hl ha hq hch hsp hctl hlim
      exact exec_injectDirect_lands hc h r ht hb ((injectStatus_good hb hp hm hi).trans (if_pos hu)) hm h0 (injectZone_lt hm) hmay hroom hbar hl ha hq hch hsp
        hctl hlim
    · intro hu h1 a
      have hlow : Rg.INJ_FRAMES h < Rg.zoneBase 0 ∧ Rg.INJ_FAIL h < Rg.zoneBase 0 := by
        have := h.isLt
        unfold Rg.INJ_FRAMES Rg.INJ_FAIL Rg.baseHIF Rg.zoneBase
        omega
      obtain ⟨⟨hurn, hadm, -⟩, -, -, hfr, hfa, -⟩ := injectEnd_spec a.1 h r (if a.2 then 0 else 4) x.len
      refine ⟨_, exec_injectPipeline h r ht h1 ((injectStatus_good hb hp hm hi).trans (if_pos hu)), hadm, hurn, fun ha => ?_, fun ha => ?_⟩
      · rw [hfr (if_pos ha), ctr_admitFrame _ _ _ _ hlow.1]
      · rw [hfa (by rw [ha]; decide), ctr_admitFrame _ _ _ _ hlow.2]
    · obtain ⟨⟨hurn, -⟩, hcons, hwait, -, hfa, -⟩ := injectEnd_spec s.dev h r 3 0
      exact ⟨_, exec_noCells_fails h r hw ht h0 hle hroom, ⟨⟨⟨rfl, rfl⟩, hcons⟩, hurn, hfa (by decide)⟩, hwait⟩
  · refine ⟨exec_moderationTimer_quiet h kind, fun t0 hr ht => ⟨exec_moderationTimer_early h kind hr ht, fun h0 hle => ?_⟩,
      fun hr m => exec_ringEnable_none h kind hr, fun m hr ha => ⟨fun he => ?_, fun he => ?_⟩⟩
    · exact ⟨_, exec_moderationTimer_due h kind hr ht h0 hle, ⟨rfl, rfl⟩, trigger_spec s.dev h (kindNo kind) r⟩
    · rw [exec_ringEnable h kind hr ha, if_pos he]
    · refine ⟨_, exec_ringEnable h kind hr ha, ⟨rfl, rfl⟩, ?_⟩
      dsimp only
      rw [he, if_neg Bool.false_ne_true]
      exact ringUp_spec s.dev h (kindNo kind) r
  · rw [exec_d0Return, hd]
    rfl
  · refine ⟨_, exec_d0Return h, ⟨rfl, rfl⟩, ?_⟩
    dsimp only
    rw [if_pos hd]
    exact toD0_spec s.dev h
  · have hor : (decide (5 ≤ w) || decide (6 ≤ sp) || decide (3 ≤ pm) || ((w == 0) != (sp == 0))) = true := by
      rcases hbad with hb | hb | hb <;> simp [hb]
    show Machine.exec (.hostLinkChange h w sp pm) s = .next s
    rw [exec_hostLinkChange, if_pos hor, settle_of_calm hc]
  · exact fun h1 h2 h3 h4 h5 hh => exec_hostLinkChange_up hc h h1 h2 h3 h4 h5 hh

end Sys2Proof.Machine
end

section
/-!
Page events (R36, R422, R425): what one event changes in the header of its page and in its source, and INT_FORCE, which makes several occur.
-/

namespace Sys2Proof.Machine
open Sys2Proof Sys2Proof.Terms

variable {d e : Dev} {m : Master} {p : PageId} {k n base cnt : Nat}

/-! ## The pages that exist -/

/-- A page within a row of the directory is one of the row's pages. -/
theorem dirRow_page {rows : List DirRow} {o : Nat} {r : DirRow} (h : dirRow rows o = some r) :
    r ∈ rows ∧ ∃ i, i < r.n ∧ o = r.first + i := by
  have hin := List.find?_some h
  simp only [Bool.and_eq_true, decide_eq_true_eq] at hin
  exact ⟨List.mem_of_find?_eq_some h, o - r.first, by omega, by omega⟩

/-- The pages of the hub and of the zones (R33, R34). -/
theorem page_place (h : (pageId k).isSome = true) :
    (∃ r ∈ hubDir, ∃ i, i < r.n ∧ k = r.first + i) ∨ ∃ z, z < 4 ∧ ∃ r ∈ zoneDir, ∃ i, i < r.n ∧ k = 0x1000 + 0x400 * z + r.first + i := by
  unfold pageId at h
  split at h
  · obtain ⟨r, hr⟩ := Option.isSome_iff_exists.mp (Option.isSome_map ▸ h)
    obtain ⟨hmem, hin⟩ := dirRow_page hr
    exact .inl ⟨r, hmem, hin⟩
  · split at h
    · obtain ⟨r, hr⟩ := Option.isSome_iff_exists.mp (Option.isSome_map ▸ h)
      obtain ⟨hmem, i, hi, ho⟩ := dirRow_page hr
      exact .inr ⟨(k - 0x1000) / 0x400, by omega, r, hmem, i, hi, by omega⟩
    · simp at h

/-- The sources of a page's events are among the 512, its events among the bits of INT_STATUS (R422). -/
theorem pageEvents_bound (hp : pageId k = some p) (he : pageEvents p = some (base, cnt)) : base + cnt ≤ 512 ∧ cnt ≤ 32 := by
  have hhub : ∀ r ∈ hubDir, ∀ i, i < r.n → ∀ x ∈ (pageId (r.first + i)).bind pageEvents, x.1 + x.2 ≤ 512 ∧ x.2 ≤ 32 := by decide
  have hzone : ∀ z, z < 4 → ∀ r ∈ zoneDir, ∀ i, i < r.n →
      ∀ x ∈ (pageId (0x1000 + 0x400 * z + r.first + i)).bind pageEvents, x.1 + x.2 ≤ 512 ∧ x.2 ≤ 32 := by decide
  have hev : (base, cnt) ∈ (pageId k).bind pageEvents := by simp [hp, he]
  obtain ⟨r, hr, i, hi, rfl⟩ | ⟨z, hz, r, hr, i, hi, rfl⟩ := page_place (k := k) (by rw [hp]; rfl)
  · exact hhub r hr i hi _ hev
  · exact hzone z hz r hr i hi _ hev

/-! ## The header of the page -/

/-- The header with the bit of event `n` set. -/
def withEvent (n : Nat) (x : PageSt) : PageSt := { x with intStatus := x.intStatus ||| BitVec.ofNat 32 (1 <<< n) }

/-- The state in which the edge of a page event comes: the bit is set, and a CORE page is noted in its shared source (R424). -/
def eventNoted (d : Dev) (p : PageId) (k base n : Nat) : Dev :=
  if p.ty = 0x26 then noteCore (modPage d k (withEvent n)) (base + n) (p.inst % 64) true else modPage d k (withEvent n)

theorem eventNoted_shape (d : Dev) (p : PageId) (k base n : Nat) : ∃ h i, eventNoted d p k base n = { d with pages := h, ic := i } := by
  unfold eventNoted
  split <;> exact ⟨_, _, rfl⟩

theorem page_eventNoted (d : Dev) (p : PageId) (k base n q : Nat) : page (eventNoted d p k base n) q =
    if q = k then withEvent n (page d k) else page d q := by
  unfold eventNoted
  split <;> exact page_modPage d k (withEvent n) q

theorem raise_eq (hp : pageId k = some p) (he : pageEvents p = some (base, cnt)) :
    raise d k n = if (page d k).intStatus.toNat.testBit n then d
      else if (page d k).intMask.toNat.testBit n then eventNoted d p k base n else edgeOn (eventNoted d p k base n) (base + n) := by
  unfold raise eventNoted
  simp only [hp, he]
  rfl

/-- A page without events takes none. -/
theorem raise_none (h : (pageId k).bind pageEvents = none) : raise d k n = d := by
  unfold raise
  cases hp : pageId k with
  | none => rfl
  | some p =>
    have he : pageEvents p = none := by simpa [hp] using h
    simp only [he]

/-- An event changes INT_STATUS of its own page and no other header. -/
theorem page_raise_ne {q : Nat} (h : q ≠ k) : page (raise d k n) q = page d q := by
  cases hx : (pageId k).bind pageEvents with
  | none => rw [raise_none hx]
  | some x =>
    obtain ⟨p, hp, he⟩ := Option.bind_eq_some_iff.mp hx
    rw [raise_eq hp (show pageEvents p = some (x.1, x.2) from he)]
    split
    · rfl
    · split
      · rw [page_eventNoted, if_neg h]
      · rw [page_edgeOn, page_eventNoted, if_neg h]

theorem getLsbD_withEvent (x : PageSt) {i : Nat} (hn : n < 32) :
    (withEvent n x).intStatus.getLsbD i = (x.intStatus.getLsbD i || decide (i = n)) := by
  rw [withEvent, BitVec.getLsbD_or, BitVec.getLsbD_ofNat, Nat.one_shiftLeft, Nat.testBit_two_pow]
  by_cases h : i = n
  · simp [h, hn]
  · simp [h, Ne.symm h]

/-- An event that is in INT_STATUS already changes nothing. -/
theorem withEvent_of_set {x : PageSt} (hn : n < 32) (h : x.intStatus.getLsbD n = true) : withEvent n x = x := by
  have hset : (withEvent n x).intStatus = x.intStatus := by
    apply BitVec.eq_of_getLsbD_eq
    intro i _
    rw [getLsbD_withEvent x hn]
    by_cases hi : i = n
    · simp [hi, h]
    · simp [hi]
  exact congrArg (fun y : W32 => { x with intStatus := y }) hset

/-- The bit of the event is set, and every other bit of the header stays. -/
theorem page_raise (hp : pageId k = some p) (he : pageEvents p = some (base, cnt)) (hn : n < 32) :
    page (raise d k n) k = withEvent n (page d k) := by
  rw [raise_eq hp he]
  split
  next hb => rw [withEvent_of_set hn (by rwa [BitVec.testBit_toNat] at hb)]
  · split
    · rw [page_eventNoted, if_pos rfl]
    · rw [page_edgeOn, page_eventNoted, if_pos rfl]

/-! ## The sources -/

/-- Of every source only the marks of coalescing may have changed (R433). -/
def SameEdges (d e : Dev) : Prop := ∀ j, ∃ h r, src e j = { src d j with held := h, released := r }

theorem SameEdges.refl (d : Dev) : SameEdges d d := fun _ => ⟨_, _, rfl⟩
theorem SameEdges.modSrc (h : SameEdges d e) (n : Nat) (x y : Src → Bool) :
    SameEdges d (modSrc e n (fun s => { s with held := x s, released := y s })) := by
  intro j
  obtain ⟨a, b, hj⟩ := h j
  rw [src_modSrc]
  split
  next hjn => exact ⟨_, _, by rw [← hjn, hj]⟩
  next => exact ⟨a, b, hj⟩
theorem SameEdges.modGroup (h : SameEdges d e) (g : Nat) (f : CoGroup → CoGroup) : SameEdges d (modGroup e g f) := h
theorem SameEdges.releaseGroup (h : SameEdges d e) (g : Nat) : SameEdges d (releaseGroup e g) := by
  have hfold : ∀ (l : List Nat) (e : Dev), SameEdges d e →
      SameEdges d (l.foldl (fun d n => Machine.modSrc d n (fun s => { s with held := false, released := true })) e) := by
    intro l
    induction l with
    | nil => exact fun e h => h
    | cons n l ih => exact fun e h => ih _ (h.modSrc n (fun _ => false) (fun _ => true))
  exact (hfold _ e h).modGroup g _
theorem SameEdges.coalesce (h : SameEdges d e) (n : Nat) (edge : Bool) : SameEdges d (coalesce e n edge) := by
  unfold Machine.coalesce
  dsimp only
  generalize hf : (if groupTimedOut e _ = true then Machine.releaseGroup e _ else e) = f
  have hrel : SameEdges d f := by
    rw [← hf]
    split
    · exact h.releaseGroup _
    · exact h
  split
  · split
    · split
      · exact hrel.modGroup _ _
      · exact hrel
    · split
      · exact hrel
      · split
        · exact hrel
        · exact (hrel.modSrc n (fun _ => true) (fun _ => false)).modGroup _ _
  · exact h

/-- An edge on a source is pending and counted (R425). -/
def Counted (x y : Src) : Prop := y.pending = true ∧ y.count = satInc8 x.count
/-- No edge has come on the source. -/
def Quiescent (x y : Src) : Prop := y.pending = x.pending ∧ y.count = x.count

theorem Quiescent.trans {x y z : Src} (h : Quiescent x y) (g : Quiescent y z) : Quiescent x z := ⟨g.1.trans h.1, g.2.trans h.2⟩
theorem Counted.quiescent {x y z : Src} (h : Counted x y) (g : Quiescent y z) : Counted x z := ⟨g.1.trans h.1, g.2.trans h.2⟩
theorem Quiescent.counted {x y z : Src} (h : Quiescent x y) (g : Counted y z) : Counted x z := ⟨g.1, by rw [g.2, h.2]⟩
theorem SameEdges.quiescent (h : SameEdges d e) (j : Nat) : Quiescent (src d j) (src e j) := by
  obtain ⟨_, _, hj⟩ := h j
  rw [hj]
  exact ⟨rfl, rfl⟩

/-- A change of one source leaves the others. -/
theorem quiescent_modSrc_ne {j : Nat} (h : j ≠ n) (f : Src → Src) : Quiescent (src d j) (src (modSrc d n f) j) := by
  rw [src_modSrc, if_neg h]
  exact ⟨rfl, rfl⟩

theorem quiescent_edgeOn_ne {j : Nat} (h : j ≠ n) : Quiescent (src d j) (src (edgeOn d n) j) := by
  unfold edgeOn
  dsimp only
  split
  · exact quiescent_modSrc_ne h _
  · split
    · split
      · exact quiescent_modSrc_ne h _
      · exact quiescent_modSrc_ne h _
    · exact (quiescent_modSrc_ne h _).trans (((SameEdges.refl _).coalesce n true).quiescent j)

/-- An edge outside an isolated zone, with the MC clock running. -/
theorem counted_edgeOn (hc : treeRuns d 2 = true) (hn : n < 512) (hz : ∀ z, z < 4 → isolated d z = false) :
    Counted (src d n) (src (edgeOn d n) n) := by
  have hiso : (srcPlace n != 0 && isolated d (srcPlace n - 1)) = false := by
    rw [hz _ (by unfold srcPlace; split <;> omega), Bool.and_false]
  unfold edgeOn
  simp only [hiso, hc, Bool.not_true, Bool.false_eq_true, if_false]
  refine Counted.quiescent ?_ (((SameEdges.refl _).coalesce n true).quiescent n)
  rw [src_modSrc_same]
  exact ⟨rfl, rfl⟩

theorem quiescent_noteCore (d : Dev) (n c : Nat) (on : Bool) (j : Nat) : Quiescent (src d j) (src (noteCore d n c on) j) := by
  rw [noteCore, src_modSrc]
  split
  next h => rw [h]; exact ⟨rfl, rfl⟩
  next => exact ⟨rfl, rfl⟩

theorem quiescent_eventNoted (j : Nat) : Quiescent (src d j) (src (eventNoted d p k base n) j) := by
  unfold eventNoted
  split
  · exact quiescent_noteCore (modPage d k _) ..
  · exact ⟨rfl, rfl⟩

theorem quiescent_raise (hp : pageId k = some p) (he : pageEvents p = some (base, cnt)) {j : Nat} (hj : j ≠ base + n) :
    Quiescent (src d j) (src (raise d k n) j) := by
  rw [raise_eq hp he]
  split
  · exact ⟨rfl, rfl⟩
  · split
    · exact quiescent_eventNoted j
    · exact (quiescent_eventNoted j).trans (quiescent_edgeOn_ne hj)

/-- A page whose events reach their sources: its clock runs and no zone is isolated. -/
def Delivers (d : Dev) : Prop := treeRuns d 2 = true ∧ ∀ z, z < 4 → isolated d z = false

/-- An event whose bit was 0 is an edge on its source where its mask bit is 0 (R36). -/
theorem counted_raise (hp : pageId k = some p) (he : pageEvents p = some (base, cnt)) (hn : n < cnt) (hd : Delivers d)
    (hbit : (page d k).intStatus.getLsbD n = false) (hmask : (page d k).intMask.getLsbD n = false) :
    Counted (src d (base + n)) (src (raise d k n) (base + n)) := by
  obtain ⟨hbound, -⟩ := pageEvents_bound hp he
  obtain ⟨_, _, hsh⟩ := eventNoted_shape d p k base n
  rw [raise_eq hp he, BitVec.testBit_toNat, BitVec.testBit_toNat, hbit, hmask, if_neg Bool.false_ne_true, if_neg Bool.false_ne_true]
  refine (quiescent_eventNoted (base + n)).counted (counted_edgeOn ?_ (by omega) fun z hz => ?_)
  · rw [hsh]; exact hd.1
  · rw [hsh]; exact hd.2 z hz

theorem delivers_raise (h : Delivers d) : Delivers (raise d k n) := by
  obtain ⟨_, _, _, hr⟩ := raise_shape d k n
  rw [hr]
  exact h

/-! ## Several events of one page -/

/-- The events of a list occur on page `k`. -/
def raiseAll (d : Dev) (k : Nat) (l : List Nat) : Dev := l.foldl (fun d i => raise d k i) d

theorem raiseAll_cons (l : List Nat) : raiseAll d k (n :: l) = raiseAll (raise d k n) k l := rfl

theorem rd_raiseAll (l : List Nat) (d : Dev) (a : Nat) : rd (raiseAll d k l) a = rd d a := by
  induction l generalizing d with
  | nil => rfl
  | cons n l ih => rw [raiseAll_cons, ih, rd_raise]

theorem page_raiseAll_ne {q : Nat} (h : q ≠ k) (l : List Nat) (d : Dev) : page (raiseAll d k l) q = page d q := by
  induction l generalizing d with
  | nil => rfl
  | cons n l ih => rw [raiseAll_cons, ih, page_raise_ne h]

/-- Exactly the bits of the list rise. -/
theorem intStatus_raiseAll (hp : pageId k = some p) (he : pageEvents p = some (base, cnt)) (l : List Nat) (hl : ∀ j ∈ l, j < 32) (d : Dev) (i : Nat) :
    (page (raiseAll d k l) k).intStatus.getLsbD i = ((page d k).intStatus.getLsbD i || decide (i ∈ l)) := by
  induction l generalizing d with
  | nil => simp [raiseAll]
  | cons n l ih =>
    obtain ⟨hn, hrest⟩ := List.forall_mem_cons.mp hl
    rw [raiseAll_cons, ih hrest, page_raise hp he hn, getLsbD_withEvent _ hn, Bool.or_assoc, ← Bool.decide_or]
    simp only [List.mem_cons]

theorem quiescent_raiseAll (hp : pageId k = some p) (he : pageEvents p = some (base, cnt)) {i : Nat} (l : List Nat) (hi : i ∉ l) (d : Dev) :
    Quiescent (src d (base + i)) (src (raiseAll d k l) (base + i)) := by
  induction l generalizing d with
  | nil => exact ⟨rfl, rfl⟩
  | cons n l ih =>
    obtain ⟨hin, hil⟩ := List.ne_and_not_mem_of_not_mem_cons hi
    exact (quiescent_raise hp he (by omega)).trans (ih hil _)

/-- An event of the list whose bit was 0 is one edge on its source where its mask bit is 0. -/
theorem counted_raiseAll (hp : pageId k = some p) (he : pageEvents p = some (base, cnt)) {i : Nat} (l : List Nat) (hl : ∀ j ∈ l, j < cnt)
    (hnd : l.Nodup) (hi : i ∈ l) (d : Dev) (hd : Delivers d) (hbit : (page d k).intStatus.getLsbD i = false)
    (hmask : (page d k).intMask.getLsbD i = false) : Counted (src d (base + i)) (src (raiseAll d k l) (base + i)) := by
  obtain ⟨-, hcnt⟩ := pageEvents_bound hp he
  induction l generalizing d with
  | nil => simp at hi
  | cons n l ih =>
    obtain ⟨hn, hrest⟩ := List.forall_mem_cons.mp hl
    obtain ⟨hnl, hnd⟩ := List.nodup_cons.mp hnd
    rw [raiseAll_cons]
    by_cases hin : i = n
    · subst hin
      exact (counted_raise hp he hn hd hbit hmask).quiescent (quiescent_raiseAll hp he l hnl _)
    · have hpage := page_raise (d := d) hp he (show n < 32 by omega)
      refine (quiescent_raise hp he (by omega)).counted
        (ih hrest hnd ((List.mem_cons.mp hi).resolve_left hin) _ (delivers_raise hd) ?_ ?_)
      · rw [hpage, getLsbD_withEvent _ (by omega), hbit, decide_eq_false hin]
        rfl
      · rw [hpage]
        exact hmask

/-! ## INT_FORCE -/

/-- A register of a page that admits the master. -/
theorem guardWrite_page {o : Nat} (ho : o < 0x1000) (h : Admits d k m) (f : Dev → Dev) : guardWrite d (0x1000 * k + o) m f = f d := by
  have hpg : Rg.pageOf (0x1000 * k + o) = k := by unfold Rg.pageOf; omega
  exact guardWrite_ok (by rwa [hpg]) f

theorem exec_intForce {s : State} {pg : BitVec 14} {v : W32} (h : Admits s.dev pg.toNat m) (hp : pageId pg.toNat = some p)
    (he : pageEvents p = some (base, cnt)) :
    Machine.exec (.intForce pg m v) s = .next { s with dev := raiseAll s.dev pg.toNat (bitsOf v.toNat cnt) } := by
  show execIntForce pg m v s = _
  simp only [execIntForce, State.onDev, guardWrite_page (show 0x28 < 0x1000 by decide) h, intForce, hp, Option.bind_some, he]
  rfl

/-- Settles O28: INT_FORCE makes the events of its list occur, and each is the rule of one event. -/
theorem forcedEventsRaiseTheirBits : Obligations.ForcedEventsRaiseTheirBits := by
  unfold Obligations.ForcedEventsRaiseTheirBits
  intro s pg m v p base n hp he hadm
  obtain ⟨-, hn⟩ := pageEvents_bound hp he
  have hmem (i : Nat) : i ∈ bitsOf v.toNat n ↔ i < n ∧ v.getLsbD i = true := by
    rw [bitsOf, List.mem_filter, List.mem_range, BitVec.testBit_toNat]
  refine ⟨_, exec_intForce hadm hp he, rfl, rd_raiseAll _ _, fun i _ => ?_, fun q hq => page_raiseAll_ne hq _ _,
    fun i hi hv hbit hmask hz => ?_⟩
  · rw [intStatus_raiseAll hp he _ (fun j hj => lt_of_lt_of_le ((hmem j).mp hj).1 hn)]
    simp only [hmem, Bool.decide_and, Bool.decide_eq_true, Bool.and_comm]
  · exact counted_raiseAll hp he _ (fun j hj => ((hmem j).mp hj).1) (nodup_bitsOf _ _) ((hmem i).mpr ⟨hi, hv⟩) _ ⟨hadm.clock, hz⟩ hbit hmask

end Sys2Proof.Machine
end

section
/-!
A hold of a core's page takes the flights from its slots (R181): what that changes, and that it leaves no flight there.
-/

namespace Sys2Proof.Machine
open Sys2Proof

variable {d e : Dev} {cid k n z : Nat}

/-- The numbers of the flights in the slots of a core. -/
def slotIds (d : Dev) (cid : Nat) : List Nat := (slotFlights d cid).map (·.id)

theorem mem_slotIds {i : Nat} : i ∈ slotIds d cid ↔ ∃ f ∈ d.bar.flights, f.loc = .slot cid ∧ f.id = i := by
  simp only [slotIds, slotFlights, List.mem_map, List.mem_filter, beq_iff_eq, and_assoc]

theorem slotIds_congr (h : e.bar.flights = d.bar.flights) : slotIds e cid = slotIds d cid := by
  simp only [slotIds, slotFlights, h]

theorem slotFlights_nil (h : ∀ i, i ∉ slotIds d cid) : slotFlights d cid = [] := by
  have hnil : slotIds d cid = [] := List.eq_nil_iff_forall_not_mem.mpr h
  exact List.map_eq_nil_iff.mp hnil

/-- Only the Barista, the record of busy banks, and by events headers, sources and the wake time have changed; no header of a CORE page has;
and no flight has come into a slot of the core. -/
structure SlotWork (cid : Nat) (d e : Dev) : Prop where
  shape : ∃ b g p i t, e = { d with bar := b, egr := g, pages := p, ic := i, ket := t }
  header : ∀ q p, pageId q = some p → p.ty = 0x26 → page e q = page d q
  slots : ∀ i ∈ slotIds e cid, i ∈ slotIds d cid

/-- The pages whose events a flight's return can raise are no CORE pages. -/
def NoCore (k : Nat) : Prop := ∀ p, pageId k = some p → p.ty ≠ 0x26

theorem noCore_zonePage {o : Nat} (h : ∀ z, z < 4 → ∀ p ∈ pageId (0x1000 + 0x400 * z + o), p.ty ≠ 0x26) (z : Nat) :
    NoCore (0x1000 + 0x400 * z + o) := by
  intro p hp
  by_cases hz : z < 4
  · exact h z hz p hp
  · have h1 : ¬0x1000 + 0x400 * z + o < 0x1000 := by omega
    have h2 : ¬0x1000 + 0x400 * z + o < 0x2000 := by omega
    simp [pageId, h1, h2] at hp

theorem noCore_zctl (z : Nat) : NoCore (Rg.pageOf (Rg.baseZCTL z)) := by
  have hpg : Rg.pageOf (Rg.baseZCTL z) = 0x1000 + 0x400 * z + 0 := by unfold Rg.pageOf Rg.baseZCTL Rg.zoneBase; omega
  rw [hpg]
  exact noCore_zonePage (by decide) z

theorem noCore_bar (z : Nat) : NoCore (barPage z) := by
  have hpg : barPage z = 0x1000 + 0x400 * z + 0x60 := by unfold barPage Rg.pageOf Rg.baseBAR Rg.zoneBase; omega
  rw [hpg]
  exact noCore_zonePage (by decide) z

namespace SlotWork

theorem refl (cid : Nat) (d : Dev) : SlotWork cid d d := ⟨⟨_, _, _, _, _, rfl⟩, fun _ _ _ _ => rfl, fun _ h => h⟩
theorem trans {f : Dev} (w : SlotWork cid d e) (g : SlotWork cid e f) : SlotWork cid d f := by
  obtain ⟨⟨_, _, _, _, _, rfl⟩, hhead, hslots⟩ := w
  obtain ⟨⟨b, x, p, i, t, rfl⟩, ghead, gslots⟩ := g
  exact ⟨⟨b, x, p, i, t, rfl⟩, fun q p hp hty => (ghead q p hp hty).trans (hhead q p hp hty), fun i hi => hslots i (gslots i hi)⟩
theorem ite (c : Prop) [Decidable c] {x y : Dev} (w : SlotWork cid d x) (g : SlotWork cid d y) : SlotWork cid d (if c then x else y) := by
  split <;> assumption
theorem foldl {β : Type} (f : Dev → β → Dev) (hf : ∀ e x, SlotWork cid d e → SlotWork cid d (f e x)) (l : List β) (w : SlotWork cid d e) :
    SlotWork cid d (l.foldl f e) := by
  induction l generalizing e with
  | nil => exact w
  | cons x l ih => exact ih (hf e x w)

theorem raise (w : SlotWork cid d e) (hk : NoCore k) (n : Nat) : SlotWork cid d (raise e k n) := by
  refine w.trans ⟨?_, fun q p hp hty => page_raise_ne fun hqk => ?_, fun i hi => ?_⟩
  · obtain ⟨p, i, t, h⟩ := raise_shape e k n
    exact ⟨_, _, p, i, t, h⟩
  · rw [hqk] at hp
    exact hk p hp hty
  · obtain ⟨_, _, _, h⟩ := raise_shape e k n
    rwa [h] at hi

/-- A change of the Barista that leaves its flights. -/
theorem modBar (w : SlotWork cid d e) (f : Bar → Bar) (hf : (f e.bar).flights = e.bar.flights) : SlotWork cid d (modBar e f) :=
  w.trans ⟨⟨_, _, _, _, _, rfl⟩, fun _ _ _ _ => rfl, fun i hi => by rwa [slotIds_congr (e := Machine.modBar e f) hf] at hi⟩

theorem modFlight (w : SlotWork cid d e) (n : Nat) (f : Flight → Flight) (hid : ∀ x, (f x).id = x.id)
    (hloc : ∀ x, (f x).loc = .slot cid → x.loc = .slot cid) : SlotWork cid d (modFlight e n f) := by
  refine w.trans ⟨⟨_, _, _, _, _, rfl⟩, fun _ _ _ _ => rfl, fun i hi => ?_⟩
  obtain ⟨y, hy, hl, rfl⟩ := mem_slotIds.mp hi
  obtain ⟨x, hx, rfl⟩ := List.mem_map.mp hy
  by_cases h : (x.id == n) = true
  · rw [if_pos h] at hl ⊢
    exact mem_slotIds.mpr ⟨x, hx, hloc x hl, (hid x).symm⟩
  · rw [if_neg h] at hl ⊢
    exact mem_slotIds.mpr ⟨x, hx, hl, rfl⟩

theorem dropFlight (w : SlotWork cid d e) (n : Nat) : SlotWork cid d (dropFlight e n) := by
  refine w.trans ⟨⟨_, _, _, _, _, rfl⟩, fun _ _ _ _ => rfl, fun i hi => ?_⟩
  obtain ⟨y, hy, hl, rfl⟩ := mem_slotIds.mp hi
  exact mem_slotIds.mpr ⟨y, (List.mem_filter.mp hy).1, hl, rfl⟩

theorem setBusy (w : SlotWork cid d e) (t : Tab Bool) : SlotWork cid d { e with egr := { e.egr with oldBusy := t } } :=
  w.trans ⟨⟨_, _, _, _, _, rfl⟩, fun _ _ _ _ => rfl, fun _ hi => hi⟩
theorem watchBank (w : SlotWork cid d e) (z : Nat) : SlotWork cid d (watchBank e z) :=
  .ite _ ((w.setBusy _).raise (noCore_zctl z) 0) (w.setBusy _)
theorem watchFormers (w : SlotWork cid d e) (z : Nat) : SlotWork cid d (watchFormers e z) :=
  foldl _ (fun _ _ w => .ite _ (raise (modBar w _ rfl) (noCore_bar z) 0) (.ite _ (modBar w _ rfl) w)) _ w
theorem watchGrow (w : SlotWork cid d e) (z : Nat) : SlotWork cid d (watchGrow e z) := by
  unfold Machine.watchGrow
  exact modBar w _ rfl
/-- A shadow copy ends: after it is gone, nothing more leaves or enters a slot. -/
theorem dropCopy_after (d : Dev) (c : Flight) : SlotWork cid (Machine.dropFlight d c.id) (dropCopy d c) := by
  unfold Machine.dropCopy
  refine watchBank ?_ _
  have hzone := (SlotWork.refl cid (Machine.dropFlight d c.id)).modBar
    (fun b => { b with zones := tmod barzDflt b.zones c.zone fun b => { b with remain := b.remain + 1 } }) rfl
  split
  · exact .ite _ (hzone.dropFlight _) (hzone.modFlight _ _ (fun _ => rfl) fun _ h => h)
  · exact hzone

end SlotWork

/-! ## No flight is left in the slots -/

theorem not_mem_slotIds_dropFlight (d : Dev) (cid n : Nat) : n ∉ slotIds (dropFlight d n) cid := by
  intro h
  obtain ⟨y, hy, -, hid⟩ := mem_slotIds.mp h
  simpa [hid] using (List.mem_filter.mp hy).2

theorem not_mem_slotIds_queued (d : Dev) (cid n b : Nat) : n ∉ slotIds (modFlight d n (fun x => { x with loc := .queued, back := b })) cid := by
  intro h
  obtain ⟨y, hy, hl, hid⟩ := mem_slotIds.mp h
  obtain ⟨x, -, rfl⟩ := List.mem_map.mp hy
  by_cases hx : (x.id == n) = true
  · rw [if_pos hx] at hl
    cases hl
  · rw [if_neg hx] at hid
    exact hx (beq_iff_eq.mpr hid)

/-- A flight leaves its slot: a shadow copy ends, another waits at the head of its level. -/
def leaveSlot (b : Nat) (d : Dev) (f : Flight) : Dev :=
  if f.copyOf.isSome then dropCopy d f else modFlight d f.id (fun x => { x with loc := .queued, back := b })

theorem SlotWork.leaveSlot (w : SlotWork cid d e) (b : Nat) (f : Flight) : SlotWork cid d (leaveSlot b e f) :=
  .ite _ ((w.dropFlight f.id).trans (.dropCopy_after e f)) (w.modFlight _ _ (fun _ => rfl) fun _ h => by cases h)

theorem not_mem_slotIds_leaveSlot (d : Dev) (cid b : Nat) (f : Flight) : f.id ∉ slotIds (leaveSlot b d f) cid := by
  unfold Machine.leaveSlot
  split
  · exact fun h => not_mem_slotIds_dropFlight d cid f.id ((SlotWork.dropCopy_after d f).slots _ h)
  · exact not_mem_slotIds_queued d cid f.id b

/-- Of a list of flights none is in a slot once each has left. -/
theorem not_mem_slotIds_leaveAll (b : Nat) (l : List Flight) (d : Dev) {f : Flight} (hf : f ∈ l) :
    f.id ∉ slotIds (l.foldl (leaveSlot b) d) cid := by
  induction l generalizing d with
  | nil => simp at hf
  | cons g l ih =>
    rcases List.mem_cons.mp hf with rfl | hf
    · have hrest : SlotWork cid (leaveSlot b d f) (l.foldl (leaveSlot b) (leaveSlot b d f)) :=
        .foldl _ (fun _ x w => w.leaveSlot b x) l (.refl cid _)
      exact fun h => not_mem_slotIds_leaveSlot d cid b f (hrest.slots _ h)
    · exact ih _ hf

theorem unslot_eq (d : Dev) (cid : Nat) : unslot d cid = if (slotFlights d cid).isEmpty then d else
    watchGrow (watchFormers ((slotFlights d cid).foldl (leaveSlot (nextSeq d).bar.seq) (nextSeq d)) (cidZone cid)) (cidZone cid) := rfl

theorem slotWork_leaveAll (d : Dev) (cid : Nat) :
    SlotWork cid d ((slotFlights d cid).foldl (leaveSlot (nextSeq d).bar.seq) (nextSeq d)) :=
  .foldl _ (fun _ f w => w.leaveSlot _ f) _ ((SlotWork.refl cid d).modBar _ rfl)

theorem slotWork_watch (d : Dev) (cid z : Nat) : SlotWork cid d (watchGrow (watchFormers d z) z) := ((SlotWork.refl cid d).watchFormers z).watchGrow z

theorem slotWork_unslot (d : Dev) (cid : Nat) : SlotWork cid d (unslot d cid) := by
  rw [unslot_eq]
  exact .ite _ (.refl cid d) ((slotWork_leaveAll d cid).trans (slotWork_watch ..))

/-- The slots are empty (R181). -/
theorem slotFlights_unslot (d : Dev) (cid : Nat) : slotFlights (unslot d cid) cid = [] := by
  rw [unslot_eq]
  split
  next h => exact List.isEmpty_iff.mp h
  next =>
    refine slotFlights_nil fun i hi => ?_
    have hleft := (slotWork_watch _ cid _).slots i hi
    obtain ⟨f, hf, rfl⟩ := List.mem_map.mp ((slotWork_leaveAll d cid).slots i hleft)
    exact not_mem_slotIds_leaveAll _ _ _ hf hleft

end Sys2Proof.Machine
end

section
/-!
PAGE_CTRL of one page (R36 to R42, R181, R538): hold, HELD and release, commit at a boundary, and DISCARD.
-/

namespace Sys2Proof.Machine
open Sys2Proof Sys2Proof.Terms

variable {d e : Dev} {s : State} {m : Master} {pg : BitVec 14} {p : PageId} {k : Nat} {c : Chg} {l l' : List Chg} {kept : List Nat}

/-! ## The commands of PAGE_CTRL -/

/-- A write of PAGE_CTRL that the page admits. -/
theorem guardWrite_ctrl (h : Admits d k m) (f : Dev → Dev) : guardWrite d (0x1000 * k + 4) m f = f d := guardWrite_page (by decide) h f

theorem exec_hold (h : Admits s.dev pg.toNat m) :
    Machine.exec (.hold pg m) s = .next { s with dev := settle (setHold s.dev pg.toNat true m) } := by
  show execHold pg m s = _
  rw [execHold, State.onDevF, State.onDev, guardWrite_ctrl h]
theorem exec_holdRelease (h : Admits s.dev pg.toNat m) :
    Machine.exec (.holdRelease pg m) s = .next { s with dev := settle (setHold s.dev pg.toNat false m) } := by
  show execHoldRelease pg m s = _
  rw [execHoldRelease, State.onDevF, State.onDev, guardWrite_ctrl h]
theorem exec_commit (h : Admits s.dev pg.toNat m) :
    Machine.exec (.commit pg m) s = .next { s with dev := settle (requestCommit s.dev pg.toNat m) } := by
  show execCommit pg m s = _
  rw [execCommit, State.onDevF, State.onDev, guardWrite_ctrl h]
theorem exec_discard (h : Admits s.dev pg.toNat m) :
    Machine.exec (.discard pg m) s = .next { s with dev := discardStaged s.dev pg.toNat } := by
  show execDiscard pg m s = _
  rw [execDiscard, State.onDev, guardWrite_ctrl h]
theorem exec_held : Machine.exec (.held pg) s = .next { s with dev := settle (pageHeld s.dev pg.toNat) } := rfl
theorem exec_commitBoundary (hc : (page s.dev pg.toNat).commit = true) (hb : atBoundary s.dev pg.toNat = true) :
    Machine.exec (.commitBoundary pg) s = .next { s with dev := settle (applyCommit s.dev pg.toNat) } := by
  show execCommitBoundary pg s = _
  rw [execCommitBoundary, State.onDevF, State.onDev, hc, hb]
  rfl

theorem settle_modPage (hc : Calm d) (k : Nat) (f : PageSt → PageSt) : settle (modPage d k f) = modPage d k f :=
  settle_of_calm (show Calm (modPage d k f) from hc)

/-! ## Hold and HELD (R36, R41, R181) -/

theorem setHold_on : setHold d k true m = if (page d k).hold || (page d k).group then modPage d k (fun x => { x with hold := true })
    else beginHold (modPage d k (fun x => { x with hold := true })) k := rfl
theorem setHold_off : setHold d k false m = if (page d k).group then modPage d k (fun x => { x with hold := false })
    else releasePage (modPage d k (fun x => { x with hold := false })) k m := rfl

theorem beginHold_core (hp : pageId k = some p) (hty : p.ty = 0x26) : beginHold d k = unslot d (32 * p.zone + p.inst % 64) := by
  simp [beginHold, hp, hty]
theorem beginHold_other (hp : pageId k = some p) (hty : p.ty ≠ 0x26) : beginHold d k = d := by simp [beginHold, hp, hty]

/-- HOLD of a page that is no core's sets the hold and nothing else. -/
theorem exec_hold_other (hc : Calm s.dev) (h : Admits s.dev pg.toNat m) (hp : pageId pg.toNat = some p) (hty : p.ty ≠ 0x26) :
    Machine.exec (.hold pg m) s = .next { s with dev := modPage s.dev pg.toNat (fun x => { x with hold := true }) } := by
  rw [exec_hold h, setHold_on, beginHold_other hp hty, ite_self, settle_modPage hc]

theorem SlotWork.rd {cid : Nat} (w : SlotWork cid d e) (a : Nat) : rd e a = rd d a := by obtain ⟨⟨_, _, _, _, _, rfl⟩, -, -⟩ := w; rfl
theorem SlotWork.calm {cid : Nat} (w : SlotWork cid d e) (hc : Calm d) : Calm e := by obtain ⟨⟨_, _, _, _, _, rfl⟩, -, -⟩ := w; exact hc

/-- HOLD of a core's page: its header takes the hold, registers stay, and a hold that begins leaves no flight in the slots. -/
theorem exec_hold_core (hc : Calm s.dev) (h : Admits s.dev pg.toNat m) (hp : pageId pg.toNat = some p) (hty : p.ty = 0x26) :
    ∃ u, Machine.exec (.hold pg m) s = .next u ∧ u.mem = s.mem ∧ page u.dev pg.toNat = { page s.dev pg.toNat with hold := true } ∧
      (∀ a, rd u.dev a = rd s.dev a) ∧
      ((page s.dev pg.toNat).hold = false → (page s.dev pg.toNat).group = false → slotFlights u.dev (32 * p.zone + p.inst % 64) = []) := by
  rw [exec_hold h, setHold_on, beginHold_core hp hty]
  split
  next hheld =>
    rw [settle_modPage hc]
    exact ⟨_, rfl, rfl, page_modPage_same .., fun _ => rfl, fun h1 h2 => by simp [h1, h2] at hheld⟩
  next =>
    have hwork := slotWork_unslot (modPage s.dev pg.toNat (fun x => { x with hold := true })) (32 * p.zone + p.inst % 64)
    rw [settle_of_calm (hwork.calm hc)]
    exact ⟨_, rfl, rfl, (hwork.header _ p hp hty).trans (page_modPage_same ..), hwork.rd, fun _ _ => slotFlights_unslot ..⟩

/-- HELD rises once the block has finished. -/
theorem exec_held_rises (hc : Calm s.dev) (hp : pageId pg.toNat = some p) (hh : (page s.dev pg.toNat).held = false)
    (hcm : (page s.dev pg.toNat).commit = false) (hm : mayHold s.dev pg.toNat p = true) :
    Machine.exec (.held pg) s = .next { s with dev := modPage s.dev pg.toNat (fun x => { x with held := true }) } := by
  have hpage : pageHeld s.dev pg.toNat = modPage s.dev pg.toNat (fun x => { x with held := true }) := by
    simp [pageHeld, hp, hh, hm, hcm]
  rw [exec_held, hpage, settle_modPage hc]

/-! ## Values that wait -/

theorem waitingOf_dropWaiting_same (t : Tab Staged) (k : Nat) : waitingOf (dropWaiting t k) k = [] := by
  have hnone : ∀ x : Nat × Staged, ((x.1 / 0x1000 == k && x.2.mask != 0) && x.1 / 0x1000 != k) = false := by
    intro x
    by_cases hx : x.1 / 0x1000 = k <;> simp [hx]
  rw [waitingOf, dropWaiting, List.filter_filter]
  simp only [hnone, List.filter_false, List.map_nil]

theorem waitingOf_dropWaiting_ne (t : Tab Staged) {k q : Nat} (h : q ≠ k) : waitingOf (dropWaiting t k) q = waitingOf t q := by
  have hsame : ∀ x : Nat × Staged, ((x.1 / 0x1000 == q && x.2.mask != 0) && x.1 / 0x1000 != k) = (x.1 / 0x1000 == q && x.2.mask != 0) := by
    intro x
    by_cases hx : x.1 / 0x1000 = q <;> simp [hx, h]
  rw [waitingOf, dropWaiting, List.filter_filter]
  simp only [hsame]
  rfl

/-- The values written in the hold of a page, and those staged in it, are forgotten. -/
def dropHeld (d : Dev) (k : Nat) : Dev := { d with heldW := dropWaiting d.heldW k }
def dropStaged (d : Dev) (k : Nat) : Dev := { d with staged := dropWaiting d.staged k }

@[simp] theorem rd_dropHeld (d : Dev) (k a : Nat) : rd (dropHeld d k) a = rd d a := rfl
@[simp] theorem rd_dropStaged (d : Dev) (k a : Nat) : rd (dropStaged d k) a = rd d a := rfl
@[simp] theorem page_dropHeld (d : Dev) (k q : Nat) : page (dropHeld d k) q = page d q := rfl
@[simp] theorem page_dropStaged (d : Dev) (k q : Nat) : page (dropStaged d k) q = page d q := rfl
@[simp] theorem waitingOf_dropHeld (d : Dev) (k : Nat) : waitingOf (dropHeld d k).heldW k = [] := waitingOf_dropWaiting_same ..
@[simp] theorem waitingOf_dropStaged (d : Dev) (k : Nat) : waitingOf (dropStaged d k).staged k = [] := waitingOf_dropWaiting_same ..

theorem viewOf_one : viewOf d [c] c.addr = merged (rd d c.addr) c.mask c.val := by simp [viewOf, merged]

/-! ## Rules over several fields (R538) -/

theorem judgeRules_ok {rules : List XRule} (h : ∀ r ∈ rules, r.ok (viewOf d l) = true) : judgeRules d rules l = (l, []) := by
  have hnone : rules.find? (fun r => l.any (fun c => namedBits r.named c != 0) && !r.ok (viewOf d l)) = none :=
    List.find?_eq_none.mpr fun r hr => by simp [h r hr]
  unfold judgeRules
  cases rules.length with
  | zero => rfl
  | succ n => rw [judgeRounds, hnone]

/-- A rule over a whole register that fails: the register keeps its value. -/
theorem judgeRules_kept {ok : (Nat → W32) → Bool} (hw : c.mask ≠ 0) (h : ok (viewOf d [c]) = false) :
    judgeRules d [⟨[wholeReg c.addr], ok⟩] [c] = ([], [c.addr]) := by
  have hall : BitVec.ofNat 32 (2 ^ 32 - 1) = BitVec.allOnes 32 := rfl
  have hbits : namedBits [wholeReg c.addr] c = c.mask := by
    simp only [namedBits, wholeReg, List.foldl_cons, List.foldl_nil, beq_self_eq_true, if_true, hall, BitVec.and_allOnes]
    exact BitVec.zero_or
  have hne : ¬c.mask = 0#32 := hw
  have hfind : [(⟨[wholeReg c.addr], ok⟩ : XRule)].find? (fun r => [c].any (fun c => namedBits r.named c != 0) && !r.ok (viewOf d [c])) =
      some ⟨[wholeReg c.addr], ok⟩ := by
    simp [hbits, hne, h]
  have hkept : [c].filter (fun c' => namedBits [wholeReg c.addr] c' != 0) = [c] := List.filter_cons_of_pos (by rw [hbits]; exact bne_iff_ne.mpr hw)
  have hgone : ([c].map (fun c' => { c' with mask := c'.mask &&& ~~~namedBits [wholeReg c.addr] c' })).filter (fun c' => c'.mask != 0) = [] := by
    simp [hbits]
  rw [judgeRules, List.length_singleton, judgeRounds, hfind]
  show judgeRounds d _ 0 (List.filter _ _) ([] ++ List.map _ (List.filter _ _)) = _
  rw [hkept, hgone]
  rfl

/-! ## Release (R41, R44, R259) -/

/-- A page that was not held forgets what was written in the hold. -/
theorem releasePage_open (hp : pageId k = some p) (hh : (page d k).held = false) : releasePage d k m =
    if p.ty == 0x27 && p.idx == 1 then tblHoldWrite (dropHeld d k) p.zone (rd (dropHeld d k) (Rg.TBL_HOLD p.zone)) else dropHeld d k := by
  simp only [releasePage, hp, hh, Bool.not_false, if_true]
  rfl

/-- The same TBL_HOLD again: at most TBL_HELD changes. -/
theorem rd_tblHoldWrite_same {z a : Nat} (h : a ≠ Rg.TBL_HELD z) : rd (tblHoldWrite d z (rd d (Rg.TBL_HOLD z))) a = rd d a := by
  rw [tblHoldWrite, rd_wr_ne _ _ h, rd_wr]
  split
  next ha => rw [ha]
  next => rfl

theorem wr_shape (d : Dev) (a : Nat) (v : W32) : ∃ r, wr d a v = { d with regs := r } := ⟨_, rfl⟩
theorem tblHoldWrite_shape (d : Dev) (z : Nat) (v : W32) : ∃ r, tblHoldWrite d z v = { d with regs := r } := by
  obtain ⟨x, hx⟩ := wr_shape d (Rg.TBL_HOLD z) v
  obtain ⟨r, hr⟩ := wr_shape (wr d (Rg.TBL_HOLD z) v) (Rg.TBL_HELD z)
    (BitVec.ofNat 32 (ofBits ((bitsOf (rd (wr d (Rg.TBL_HOLD z) v) (Rg.TBL_HELD z)).toNat 32).filter (tblIsHeld (wr d (Rg.TBL_HOLD z) v) z))))
  rw [tblHoldWrite, hr, hx]
  exact ⟨r, rfl⟩

theorem releasePage_open_spec (hc : Calm d) (hp : pageId k = some p) (hh : (page d k).held = false) :
    Calm (releasePage d k m) ∧ page (releasePage d k m) k = page d k ∧ waitingOf (releasePage d k m).heldW k = [] ∧
      ∀ a, (p.ty = 0x27 → p.idx = 1 → a ≠ Rg.TBL_HELD p.zone) → rd (releasePage d k m) a = rd d a := by
  rw [releasePage_open hp hh]
  split
  next htbl =>
    obtain ⟨hty, hidx⟩ : p.ty = 0x27 ∧ p.idx = 1 := by simpa using htbl
    have hrd (a : Nat) (ha : a ≠ Rg.TBL_HELD p.zone) := rd_tblHoldWrite_same (d := dropHeld d k) ha
    obtain ⟨r, hr⟩ := tblHoldWrite_shape (dropHeld d k) p.zone (rd (dropHeld d k) (Rg.TBL_HOLD p.zone))
    rw [hr] at hrd ⊢
    exact ⟨hc, rfl, waitingOf_dropHeld d k, fun a ha => hrd a (ha hty hidx)⟩
  next => exact ⟨hc, rfl, waitingOf_dropHeld d k, fun _ _ => rfl⟩

theorem exec_holdRelease_open (hc : Calm s.dev) (h : Admits s.dev pg.toNat m) (hp : pageId pg.toNat = some p)
    (hg : (page s.dev pg.toNat).group = false) (hh : (page s.dev pg.toNat).held = false) :
    ∃ u, Machine.exec (.holdRelease pg m) s = .next u ∧ page u.dev pg.toNat = { page s.dev pg.toNat with hold := false } ∧
      waitingOf u.dev.heldW pg.toNat = [] ∧ ∀ a, (p.ty = 0x27 → p.idx = 1 → a ≠ Rg.TBL_HELD p.zone) → rd u.dev a = rd s.dev a := by
  obtain ⟨hcalm, hpage, hwait, hrd⟩ := releasePage_open_spec (d := modPage s.dev pg.toNat (fun x => { x with hold := false })) (m := m) hc hp
    (by rw [page_modPage_same]; exact hh)
  rw [exec_holdRelease h, setHold_off, hg, if_neg Bool.false_ne_true, settle_of_calm hcalm]
  exact ⟨_, rfl, hpage.trans (page_modPage_same ..), hwait, hrd⟩

/-- A held page takes the one value that waits; no rule of the release names it outside the URN pages. -/
theorem releasePage_one (hp : pageId k = some p) (hh : (page d k).held = true) (hquad : p.ty ≠ 0x22) (hurn : p.ty ≠ 0x28)
    (hl : waitingOf d.heldW k = [c]) : releasePage d k m = releaseEffect d (modPage (applyChgs (dropHeld d k) [c]) k
      (fun x => { x with held := false, gen := if merged (rd d c.addr) c.mask c.val != rd d c.addr then x.gen + 1 else x.gen })) p := by
  have hrules : releaseRules d p c.addr = [] := by simp [releaseRules, hurn]
  have hbefore : ∀ e, beforeRelease e p [c] = e := fun e => by simp [beforeRelease, hquad]
  have hjudge : judgeRules d [] [c] = ([c], []) := rfl
  simp only [releasePage, hp, hh, hl, List.flatMap_cons, List.flatMap_nil, List.append_nil, hrules, hjudge, hbefore, List.any_cons, List.any_nil,
    Bool.or_false, viewOf_one, Bool.not_true, Bool.false_eq_true, if_false]
  rfl

/-- What one change leaves of the values that wait and of the headers. -/
theorem applyChg_rest (d : Dev) (c : Chg) : (applyChgs d [c]).heldW = d.heldW ∧ (applyChgs d [c]).staged = d.staged ∧
    ∀ q, page (applyChgs d [c]) q = page d q := by
  obtain ⟨_, _, he, -⟩ := applyChg_shape d c
  rw [he]
  exact ⟨rfl, rfl, fun _ => rfl⟩

theorem exec_holdRelease_one (h : Admits s.dev pg.toNat m) (hp : pageId pg.toNat = some p) (hg : (page s.dev pg.toNat).group = false)
    (hh : (page s.dev pg.toNat).held = true) (hquad : p.ty ≠ 0x22) (hurn : p.ty ≠ 0x28) (hl : waitingOf s.dev.heldW pg.toNat = [c]) :
    ∃ d0 d1, Machine.exec (.holdRelease pg m) s = .next { s with dev := settle (releaseEffect d0 d1 p) } ∧ RegTo s d1 c.addr c.mask c.val ∧
      waitingOf d1.heldW pg.toNat = [] ∧ page d1 pg.toNat = { page s.dev pg.toNat with
        hold := false, held := false
        gen := if rd d1 c.addr = rd s.dev c.addr then (page s.dev pg.toNat).gen else (page s.dev pg.toNat).gen + 1 } := by
  have hheld : (page (modPage s.dev pg.toNat (fun x => { x with hold := false })) pg.toNat).held = true := by rw [page_modPage_same]; exact hh
  rw [exec_holdRelease h, setHold_off, hg, if_neg Bool.false_ne_true, releasePage_one hp hheld hquad hurn hl]
  generalize hf : modPage s.dev pg.toNat (fun x => { x with hold := false }) = f
  have hrd : ∀ b, rd (dropHeld f pg.toNat) b = rd s.dev b := by rw [← hf]; exact fun _ => rfl
  have hpage : page (dropHeld f pg.toNat) pg.toNat = { page s.dev pg.toNat with hold := false } := by
    rw [page_dropHeld, ← hf, page_modPage_same]
  obtain ⟨_, _, -, hto⟩ := applyChg_shape (dropHeld f pg.toNat) c
  obtain ⟨hheldW, -, hpages⟩ := applyChg_rest (dropHeld f pg.toNat) c
  refine ⟨_, _, rfl, ⟨?_, fun b hb => ?_⟩, ?_, ?_⟩
  · rw [rd_modPage, hto, if_pos rfl, hrd]
  · rw [rd_modPage, hto, if_neg hb, hrd]
  · show waitingOf (applyChgs _ [c]).heldW _ = []
    rw [hheldW, waitingOf_dropHeld]
  · have hfrd : rd f c.addr = rd s.dev c.addr := by rw [← hf]; rfl
    rw [page_modPage_same, hpages, hpage, rd_modPage, hto, if_pos rfl, hrd, hfrd]
    by_cases hn : merged (rd s.dev c.addr) c.mask c.val = rd s.dev c.addr <;> simp [hn]

/-- Settles O24: each clause is the rule of its command. -/
theorem pagesHoldAndRelease : Obligations.PagesHoldAndRelease := by
  unfold Obligations.PagesHoldAndRelease
  intro s pg m p hp hcalm
  refine ⟨fun h => ?_, fun hh hcm hm => ⟨_, exec_held_rises hcalm hp hh hcm hm, pageTo_modPage ..⟩, fun h hg => ?_,
    fun h hg hh => exec_holdRelease_open hcalm h hp hg hh, fun a w v h hg hh hquad hurn hl => exec_holdRelease_one h hp hg hh hquad hurn hl⟩
  · by_cases hty : p.ty = 0x26
    · obtain ⟨u, hu, hcore⟩ := exec_hold_core hcalm h hp hty
      exact ⟨u, hu, fun hn => absurd hty hn, fun _ => hcore⟩
    · exact ⟨_, exec_hold_other hcalm h hp hty, fun _ => pageTo_modPage .., fun hn => absurd hn hty⟩
  · rw [exec_holdRelease h, setHold_off, hg, if_pos rfl, settle_modPage hcalm]
    exact ⟨_, rfl, pageTo_modPage ..⟩

/-! ## Commit (R37, R39, R40) -/

theorem applyCommit_none (hp : pageId k = some p) (hl : waitingOf d.staged k = []) :
    applyCommit d k = modPage (dropStaged d k) k (fun x => { x with commit := false }) := by
  have hjudge : judgeRules d [] [] = ([], []) := rfl
  simp only [applyCommit, hp, hl, List.flatMap_nil, hjudge]
  rfl

/-- The one value that waits takes effect. -/
theorem applyCommit_one (hp : pageId k = some p) (hl : waitingOf d.staged k = [c])
    (hok : ∀ r ∈ commitRules d p [c] c.addr, r.ok (viewOf d [c]) = true) :
    applyCommit d k = commitEffect d (modPage (applyChgs (dropStaged d k) [c]) k
      (fun x => { x with commit := false, gen := x.gen + 1 })) p [c.addr] := by
  simp only [applyCommit, hp, hl, List.flatMap_cons, List.flatMap_nil, List.append_nil, judgeRules_ok hok]
  rfl

/-- The one value that waits is refused: its register keeps its value (R538). -/
theorem applyCommit_kept (hp : pageId k = some p) (hl : waitingOf d.staged k = [c])
    (hj : judgeRules d (commitRules d p [c] c.addr) [c] = ([], [c.addr])) :
    applyCommit d k = modPage (modPage (dropStaged d k) k
      (withErr (c.addr % 0x1000) 3 true (page d k).commitBy)) k (fun x => { x with commit := false }) := by
  have hlow : lowestOf [c.addr] = c.addr := by simp [lowestOf]
  simp only [applyCommit, hp, hl, List.flatMap_cons, List.flatMap_nil, List.append_nil, hj, applyChgs, List.foldl_nil, keptErr, List.isEmpty_cons,
    List.isEmpty_nil, Bool.false_eq_true, if_false, if_true, hlow, pageErr_eq_withErr]
  rfl

theorem exec_commitBoundary_one (hcm : (page s.dev pg.toNat).commit = true) (hb : atBoundary s.dev pg.toNat = true)
    (hp : pageId pg.toNat = some p) (hl : waitingOf s.dev.staged pg.toNat = [c])
    (hok : ∀ r ∈ commitRules s.dev p [c] c.addr, r.ok (viewOf s.dev [c]) = true) :
    ∃ d1, Machine.exec (.commitBoundary pg) s = .next { s with dev := settle (commitEffect s.dev d1 p [c.addr]) } ∧ RegTo s d1 c.addr c.mask c.val ∧
      waitingOf d1.staged pg.toNat = [] ∧
      page d1 pg.toNat = { page s.dev pg.toNat with commit := false, gen := (page s.dev pg.toNat).gen + 1 } := by
  rw [exec_commitBoundary hcm hb, applyCommit_one hp hl hok]
  obtain ⟨_, _, -, hto⟩ := applyChg_shape (dropStaged s.dev pg.toNat) c
  obtain ⟨-, hstaged, hpages⟩ := applyChg_rest (dropStaged s.dev pg.toNat) c
  refine ⟨_, rfl, ⟨?_, fun b hb => ?_⟩, ?_, ?_⟩
  · rw [rd_modPage, hto, if_pos rfl]
    rfl
  · rw [rd_modPage, hto, if_neg hb]
    rfl
  · show waitingOf (applyChgs _ [c]).staged _ = []
    rw [hstaged, waitingOf_dropStaged]
  · rw [page_modPage_same, hpages]
    rfl

/-- Pages of the admission block take a commit at any time. -/
theorem atBoundary_adm (hp : pageId k = some p) (hty : p.ty = 0x24) : atBoundary d k = true := by
  have hne {q : Nat} {y : PageId} (hq : pageId q = some y) (hy : y.ty ≠ 0x24) : k ≠ q := by
    rintro rfl
    exact hy (Option.some.inj (hq.symm.trans hp) ▸ hty)
  have htwn : k ≠ Rg.pageOf Rg.baseTWN := hne (y := ⟨9, 0, 0, 0⟩) (by decide) (by decide)
  have htel : k ≠ Rg.pageOf Rg.baseTEL + 1 := hne (y := ⟨0x12, 1, 0, 0⟩) (by decide) (by decide)
  simp [atBoundary, htwn, htel]

theorem storePfc_offset (z : Nat) : Rg.ADM_STORE_PFC z % 0x1000 = 0xCC := by
  unfold Rg.ADM_STORE_PFC Rg.baseADM Rg.zoneBase
  omega

/-- A store threshold: XON lies below XOFF (R538). -/
theorem commitRules_storePfc (hty : p.ty = 0x24) (hidx : p.idx = 0) (l : List Chg) : commitRules d p l (Rg.ADM_STORE_PFC p.zone) =
    [⟨[wholeReg (Rg.ADM_STORE_PFC p.zone)], fun v => decide (getF (v (Rg.ADM_STORE_PFC p.zone)) Fl.ADM_STORE_PFC_XON <
      getF (v (Rg.ADM_STORE_PFC p.zone)) Fl.ADM_STORE_PFC_XOFF)⟩] := by
  unfold commitRules
  simp only [hty, hidx, storePfc_offset]
  rfl

theorem exec_commitBoundary_storePfc {w v : W32} (hc : Calm s.dev) (hcm : (page s.dev pg.toNat).commit = true) (hp : pageId pg.toNat = some p)
    (hty : p.ty = 0x24) (hidx : p.idx = 0) (hl : waitingOf s.dev.staged pg.toNat = [⟨Rg.ADM_STORE_PFC p.zone, w, v⟩]) (hw : w ≠ 0)
    (hx : getF (merged (rd s.dev (Rg.ADM_STORE_PFC p.zone)) w v) Fl.ADM_STORE_PFC_XOFF ≤
      getF (merged (rd s.dev (Rg.ADM_STORE_PFC p.zone)) w v) Fl.ADM_STORE_PFC_XON) :
    ∃ u, Machine.exec (.commitBoundary pg) s = .next u ∧ (∀ a, rd u.dev a = rd s.dev a) ∧ page u.dev pg.toNat =
      withErr (Rg.ADM_STORE_PFC p.zone % 0x1000) 3 true (page s.dev pg.toNat).commitBy { page s.dev pg.toNat with commit := false } := by
  have hkept : judgeRules s.dev (commitRules s.dev p [⟨Rg.ADM_STORE_PFC p.zone, w, v⟩] (Rg.ADM_STORE_PFC p.zone))
      [⟨Rg.ADM_STORE_PFC p.zone, w, v⟩] = ([], [Rg.ADM_STORE_PFC p.zone]) := by
    rw [commitRules_storePfc hty hidx]
    refine judgeRules_kept (c := ⟨Rg.ADM_STORE_PFC p.zone, w, v⟩) hw ?_
    rw [viewOf_one (c := ⟨Rg.ADM_STORE_PFC p.zone, w, v⟩)]
    exact decide_eq_false (Nat.not_lt.mpr hx)
  rw [exec_commitBoundary hcm (atBoundary_adm hp hty), applyCommit_kept hp hl hkept, settle_modPage (d := modPage (dropStaged s.dev _) _ _) hc]
  refine ⟨_, rfl, fun _ => rfl, ?_⟩
  rw [page_modPage_same, page_modPage_same]
  rfl

/-- COMMIT waits for the boundary of a block that is not held. -/
theorem requestCommit_waits (hh : (page d k).held = false) :
    requestCommit d k m = modPage (modPage d k (fun x => { x with commitBy := m })) k (fun x => { x with commit := true }) := by
  rw [requestCommit, page_modPage_same, if_neg (by simpa using hh)]

/-- Two changes of a header are one. -/
theorem pageTo_modPage_twice (s : State) (k : Nat) (f g : PageSt → PageSt) :
    PageTo s { s with dev := modPage (modPage s.dev k f) k g } k (fun x => g (f x)) :=
  ⟨by simp only [page_modPage_same], fun q hq => by simp only [page_modPage, if_neg hq], _, _, _, rfl⟩

/-- Settles O25: each clause is the rule of its command. -/
theorem commitsTakeStagedValues : Obligations.CommitsTakeStagedValues := by
  unfold Obligations.CommitsTakeStagedValues
  intro s pg m p hp hcalm
  refine ⟨fun h hh => ?_, fun hcm hb hl => ?_, fun a w v hcm hb hl hok => exec_commitBoundary_one (c := ⟨a, w, v⟩) hcm hb hp hl hok,
    fun w v hcm hty hidx hl _ hw => exec_commitBoundary_storePfc hcalm hcm hp hty hidx hl hw, fun h hcm => ?_, fun h hcm => ?_⟩
  · rw [exec_commit h, requestCommit_waits hh, settle_modPage (d := modPage s.dev _ _) hcalm]
    exact ⟨_, rfl, pageTo_modPage_twice ..⟩
  · rw [exec_commitBoundary hcm hb, applyCommit_none hp hl, settle_modPage (d := dropStaged s.dev _) hcalm]
    exact ⟨_, rfl, page_modPage_same .., fun _ => rfl⟩
  · refine ⟨dropWaiting s.dev.staged pg.toNat, ?_, ?_, fun q hq => ?_⟩
    · rw [exec_discard h, discardStaged, hcm, if_neg Bool.false_ne_true]
    · exact waitingOf_dropWaiting_same ..
    · exact waitingOf_dropWaiting_ne _ hq
  · rw [exec_discard h, discardStaged, hcm, if_pos rfl]

end Sys2Proof.Machine
end

section
/-!
Group hold (R44): the clause on a page whose owner excludes the group master reads the header from the list of headers, the device looks it
up by its page. The statement asks for no canonical state, and where a page is listed twice the two differ.
-/

namespace Sys2Proof.Machine
open Sys2Proof Sys2Proof.Terms

/-- Page 0 is listed twice: READY and without owner, as it reads, and behind it held by the group and owned by host B. Group hold is on. -/
def pageTwice : State :=
  { dev := { regs := [(Rg.DEV_GROUP_HOLD, 1)], pages := [(0, { ready := true }), (0, { group := true, owner := 2 })] } }

/-- Host A's release acts on the header that page 0 reads as, which has no owner: no GRP_OWNER. -/
theorem release_pageTwice : ∃ u, Machine.exec (.groupHoldRelease .hostA false) pageTwice = .next u ∧ (rd u.dev Rg.DEV_ERR).getLsbD 3 = false :=
  ⟨_, rfl, by decide⟩

/-- Refutes O26: in `pageTwice` the one listed header of the group is host B's, and yet host A's release sets no GRP_OWNER. -/
theorem not_groupHoldActsOnItsPages : ¬ Obligations.GroupHoldActsOnItsPages := by
  unfold Obligations.GroupHoldActsOnItsPages
  rintro ⟨h, -⟩
  obtain ⟨-, hrelease, -⟩ := h pageTwice .hostA false ⟨by decide, by decide, by decide, by decide, by decide⟩ ⟨rfl, rfl⟩
  obtain ⟨-, hskipped⟩ := hrelease 0 { group := true, owner := 2 } (by decide) rfl (by decide) (by decide)
  obtain ⟨u, hu, -, herr, -⟩ := hskipped (by decide)
  obtain ⟨u', hu', herr'⟩ := release_pageTwice
  cases hu.symm.trans hu'
  rw [herr] at herr'
  exact Bool.noConfusion herr'

end Sys2Proof.Machine
end

section
/-!
Reads of the register pages (R46 to R53): counters and their latches, registers that a read clears, narrow reads; then access through the
firmware by I3C and JTAG (R415, R418).
-/

namespace Sys2Proof.Machine
open Sys2Proof Sys2Proof.Terms

variable {d : Dev} {s : State} {m : Master} {p : PageId} {a n i : Nat} {r : RegD} {addr : BitVec 26} {v : W32}

/-! ## The low half of a counter (R50, R51) -/

/-- An address on a page is that of its page and offset. -/
theorem page_offset (a : Nat) : a / 0x1000 * 0x1000 + a % 0x1000 = a := by omega

theorem counterLow_iff (hp : pageId (a / 0x1000) = some p) :
    counterLow d a = true ↔ 0x40 ≤ a % 0x1000 ∧ ctrAt p (a % 0x1000) = some (a % 0x1000) := by
  have hw : windowZone a = none := windowZone_of_page (by rw [hp]; rfl)
  simp only [counterLow, hw, hp, Bool.and_eq_true, decide_eq_true_eq, beq_iff_eq]

theorem regRead_counterLow (h : Answers d (a / 0x1000) m) (hp : pageId (a / 0x1000) = some p) (h4 : a % 4 = 0) (ho : 0x40 ≤ a % 0x1000)
    (hc : ctrAt p (a % 0x1000) = some (a % 0x1000)) : regRead d a m =
      (BitVec.ofNat 32 (ctrShown d a).toNat, setLatch d a m (BitVec.ofNat 32 ((ctrShown d a).toNat / 2 ^ 32))) := by
  simp only [regRead, wakePage_runs h.clock, windowZone_of_page h.exists_, h.reach, h.ready, hp, h4, Nat.not_lt.mpr ho, hc, page_offset, readHalf,
    bne_self_eq_false, Bool.not_true, Bool.false_eq_true, if_false, if_true]

/-- A read of the low half gives it and keeps the high half for its master. -/
theorem exec_counterLoRead (hcalm : Calm s.dev) (h : Answers s.dev (addr.toNat / 0x1000) m) (hp : pageId (addr.toNat / 0x1000) = some p)
    (hlow : counterLow s.dev addr.toNat = true) (h4 : addr.toNat % 4 = 0) :
    Machine.exec (.counterLoRead addr m) s = .next { s with dev := give (setLatch s.dev addr.toNat m
      (BitVec.ofNat 32 ((ctrShown s.dev addr.toNat).toNat / 2 ^ 32))) m ((ctrShown s.dev addr.toNat).setWidth 32) } := by
  obtain ⟨ho, hc⟩ := (counterLow_iff hp).mp hlow
  show execCounterLoRead addr m s = _
  rw [execCounterLoRead, State.onDevF, State.onDev, if_pos hlow, regRead_counterLow h hp h4 ho hc]
  exact congrArg (fun e => Host.Outcome.next { s with dev := e }) (settle_of_calm (d := give (setLatch s.dev addr.toNat m _) m _) hcalm)

theorem getLatch_setLatch (d : Dev) (a : Nat) (m : Master) (v : W32) : getLatch (setLatch d a m v) a m = some v := by
  rw [getLatch, setLatch, lookup_tput, if_pos rfl]

/-! ## Registers that a read clears (R51, R53) -/

/-- The fields that a read clears, if a register of a page of type `ty` has any, are one field within the register, and the page has no
register with another effect of reading. -/
def clearsOne (ty : Nat) (r : RegD) : Bool :=
  match r.fields.filter (fun f => f.acc == .rc) with
  | [] => true
  | [f] => decide (f.hi < 32 ∧ f.fact < 2 ^ (f.hi + 1 - f.lo)) && !([0x04, 0x05, 0x10].contains ty)
  | _ => false

/-- Page 7 and above of a block, and a type of 45 and above, have the header alone. -/
theorem pageLayout_header (ty idx : Nat) (h : 45 ≤ ty ∨ 7 ≤ idx) : pageLayout ty idx = pgHeader := by
  obtain hty | hty := Nat.lt_or_ge ty 45
  · obtain ⟨j, rfl⟩ := Nat.exists_eq_add_of_le' (h.resolve_left (Nat.not_le.mpr hty))
    interval_cases ty <;> rfl
  · obtain ⟨k, rfl⟩ := Nat.exists_eq_add_of_le' hty
    rfl

theorem pageLayout_clearsOne (ty idx : Nat) : (pageLayout ty idx).regs.all (clearsOne ty) = true := by
  have hlayouts : ∀ ty < 45, ∀ idx < 7, (pageLayout ty idx).regs.all (clearsOne ty) = true := by decide
  by_cases h : 45 ≤ ty ∨ 7 ≤ idx
  · rw [pageLayout_header ty idx h]
    rfl
  · obtain ⟨hty, hidx⟩ := not_or.mp h
    exact hlayouts ty (Nat.not_le.mp hty) idx (Nat.not_le.mp hidx)

theorem regsOf_eq (h : p.ty ≠ 0x10) : regsOf p = (pageLayout p.ty p.idx).regs := by simp [regsOf, h]

/-- No register of an HBM page is cleared by a read. -/
theorem rcFields_hbm (h : p.ty = 0x10) (o : Nat) : rcFields p o = [] := by
  have hlayout : ∀ r ∈ (pageLayout p.ty p.idx).regs, r.fields.filter (fun f => f.acc == .rc) = [] := by
    intro r hr
    have hone := List.all_eq_true.mp (pageLayout_clearsOne p.ty p.idx) r hr
    unfold clearsOne at hone
    split at hone
    · assumption
    · simp [h] at hone
    · cases hone
  have hregs : ∀ r ∈ regsOf p, r.fields.filter (fun f => f.acc == .rc) = [] := by
    intro r hr
    unfold regsOf at hr
    dsimp only at hr
    split at hr
    · obtain ⟨x, hx, rfl⟩ := List.mem_map.mp hr
      split
      · rw [List.filter_comm, hlayout x hx, List.filter_nil]
      · exact hlayout x hx
    · exact hlayout r hr
  unfold rcFields
  split
  next r i hreg =>
    obtain ⟨x, hx, hxr⟩ := Option.map_eq_some_iff.mp hreg
    cases hxr
    exact hregs r (List.mem_of_find?_eq_some hx)
  next => rfl

/-- The one field that a read of the register clears. -/
theorem rcFields_one (hrc : rcFields p n ≠ []) :
    ∃ f, rcFields p n = [f] ∧ f.hi < 32 ∧ f.fact < 2 ^ (f.hi + 1 - f.lo) ∧ p.ty ≠ 0x04 ∧ p.ty ≠ 0x05 ∧ p.ty ≠ 0x10 := by
  have hhbm : p.ty ≠ 0x10 := fun h => hrc (rcFields_hbm h n)
  unfold rcFields at hrc ⊢
  split at hrc
  next r i hreg =>
    obtain ⟨x, hx, hxr⟩ := Option.map_eq_some_iff.mp hreg
    cases hxr
    have hmem := List.mem_of_find?_eq_some hx
    rw [regsOf_eq hhbm] at hmem
    have hone := List.all_eq_true.mp (pageLayout_clearsOne p.ty p.idx) r hmem
    unfold clearsOne at hone
    split at hone
    next h => exact absurd h hrc
    next f h =>
      simp only [Bool.and_eq_true, decide_eq_true_eq, Bool.not_eq_true', List.contains_eq_mem, decide_eq_false_iff_not, List.mem_cons,
        List.not_mem_nil, or_false, not_or] at hone
      obtain ⟨⟨hhi, hfact⟩, htb, hic, -⟩ := hone
      exact ⟨f, h, hhi, hfact, htb, hic, hhbm⟩
    next => cases hone
  next => exact absurd rfl hrc

/-- A register on a page of another type is another register. -/
theorem ne_of_ty {b : Nat} {q : PageId} (hp : pageId (a / 0x1000) = some p) (hq : pageId (b / 0x1000) = some q) (hty : p.ty ≠ q.ty) : a ≠ b := by
  rintro rfl
  exact hty (congrArg PageId.ty (Option.some.inj (hp.symm.trans hq)))

theorem claimAt_none (hp : pageId (a / 0x1000) = some p) (hty : p.ty ≠ 0x05) : claimAt a = none := by
  have hpage : ∀ t ∈ [1, 2, 4, 5, 6], pageId (claimAddr t / 0x1000) = some ⟨0x05, 0, 0, 0⟩ := by decide
  exact List.find?_eq_none.mpr fun t ht => by simpa using (ne_of_ty hp (hpage t ht) hty).symm

/-- A read of a register with no effect but the fields that it clears. -/
theorem regRead_rc (h : Answers d (a / 0x1000) m) (hp : pageId (a / 0x1000) = some p) (h4 : a % 4 = 0) (ho : 0x40 ≤ a % 0x1000)
    (hc : ctrAt p (a % 0x1000) = none) (hr : regAt p (a % 0x1000) = some (r, i)) (hopen : openReg d p r.off i = false)
    (htb : p.ty ≠ 0x04) (hic : p.ty ≠ 0x05) (hhbm : p.ty ≠ 0x10) : regRead d a m = (blockVal d p a r.off i, clearRc d p a) := by
  have hlo : a ≠ Rg.TB_NOW_LO := ne_of_ty hp (q := ⟨0x04, 0, 0, 0⟩) (by decide) htb
  have hhi : a ≠ Rg.TB_NOW_HI := ne_of_ty hp (q := ⟨0x04, 0, 0, 0⟩) (by decide) htb
  have hfrac : a ≠ Rg.TB_NOW_FRAC := ne_of_ty hp (q := ⟨0x04, 0, 0, 0⟩) (by decide) htb
  have hcopy : seeCopy d p r.off = d := by simp [seeCopy, hhbm]
  simp only [regRead, wakePage_runs h.clock, windowZone_of_page h.exists_, h.reach, h.ready, hp, h4, Nat.not_lt.mpr ho, hc, hr, claimAt_none hp hic,
    hcopy, hopen, beq_eq_false_iff_ne.mpr hlo, beq_eq_false_iff_ne.mpr hhi, beq_eq_false_iff_ne.mpr hfrac, bne_self_eq_false, Option.isSome_none,
    Bool.or_false, Bool.not_true, Bool.false_eq_true, if_false, if_true]

/-- The field has its factory value, and every other register is as before. -/
theorem rd_clearRc (hrc : rcFields p (a % 0x1000) ≠ []) :
    (∀ f ∈ rcFields p (a % 0x1000), getF (rd (clearRc d p a) a) ⟨f.hi, f.lo⟩ = f.fact) ∧ ∀ b, b ≠ a → rd (clearRc d p a) b = rd d b := by
  obtain ⟨f, hf, hhi, hfact, -⟩ := rcFields_one hrc
  rw [clearRc, hf]
  refine ⟨fun g hg => ?_, fun b hb => rd_wf_ne _ _ _ hb⟩
  rw [List.mem_singleton.mp hg]
  exact (rf_wf_same d a f.fact hhi).trans (Nat.mod_eq_of_lt hfact)

/-- Every master of a list receives the value. -/
theorem foldl_give (ms : List Master) (v : W32) (d : Dev) : ∃ t, ms.foldl (fun d m => give d m v) d = { d with rdata := t } ∧
    ∀ k, (tget zero64 d.rdata k = v.setWidth 64 ∨ ∃ m ∈ ms, masterKey m = k) → tget zero64 t k = v.setWidth 64 := by
  induction ms generalizing d with
  | nil => exact ⟨_, rfl, fun k hk => hk.elim id fun ⟨_, hm, _⟩ => absurd hm List.not_mem_nil⟩
  | cons n ms ih =>
    obtain ⟨t, ht, hval⟩ := ih (give d n v)
    have hgive (k : Nat) : tget zero64 (give d n v).rdata k = if k = masterKey n then v.setWidth 64 else tget zero64 d.rdata k := tget_tset ..
    refine ⟨t, ht, fun k hk => hval k ?_⟩
    rw [hgive]
    split
    next => exact .inl rfl
    next hne =>
      obtain hold | ⟨m, hm, hmk⟩ := hk
      · exact .inl hold
      · exact .inr ⟨m, (List.mem_cons.mp hm).resolve_left fun hmn => hne (by rw [← hmk, hmn]), hmk⟩

theorem answers_of (h : Answers d (a / 0x1000) m) : answers d a m = true := by
  simp only [answers, Rg.pageOf, h.exists_, h.reach, h.ready, Bool.and_self]

/-- The masters that read an RC register in one cycle: one of them reads it, all receive its value. -/
theorem execRcRead_eq {ms : List Master} (hms : ∀ x ∈ m :: ms, Answers s.dev (addr.toNat / 0x1000) x) (hp : pageId (addr.toNat / 0x1000) = some p)
    (h4 : addr.toNat % 4 = 0) (hrc : rcFields p (addr.toNat % 0x1000) ≠ []) : Machine.exec (.rcRead addr ⟨4, m :: ms⟩) s = .next { s with
      dev := settle ((m :: ms).foldl (fun d x => give d x (regRead s.dev addr.toNat m).1) (regRead s.dev addr.toNat m).2) } := by
  have hclock := (hms m List.mem_cons_self).clock
  have hsome : (rcFields p (addr.toNat % 0x1000)).isEmpty = false := by simpa using hrc
  have hyes : (m :: ms).filter (answers s.dev addr.toNat) = m :: ms := List.filter_eq_self.mpr fun x hx => answers_of (hms x hx)
  have hno : (m :: ms).filter (fun x => !answers s.dev addr.toNat x) = [] :=
    List.filter_eq_nil_iff.mpr fun x hx => by simp [answers_of (hms x hx)]
  show execRcRead addr ⟨4, m :: ms⟩ s = _
  simp only [execRcRead, State.onDevF, State.onDev, hp, hsome, h4, wakePage_runs hclock, hyes, hno, List.foldl_nil, bne_self_eq_false, Bool.not_false,
    Bool.not_true, Bool.or_false, Bool.false_eq_true, if_false]

theorem calm_clearRc (hc : Calm d) (hrc : rcFields p (a % 0x1000) ≠ []) : Calm (clearRc d p a) := by
  obtain ⟨f, hf, -⟩ := rcFields_one hrc
  rw [clearRc, hf]
  exact hc

theorem exec_rcRead {ms : List Master} (hcalm : Calm s.dev) (hms : ∀ x ∈ ms, Answers s.dev (addr.toNat / 0x1000) x) (hne : ms ≠ [])
    (hp : pageId (addr.toNat / 0x1000) = some p) (h4 : addr.toNat % 4 = 0) (ho : 0x40 ≤ addr.toNat % 0x1000)
    (hc : ctrAt p (addr.toNat % 0x1000) = none) (hr : regAt p (addr.toNat % 0x1000) = some (r, i)) (hrc : rcFields p (addr.toNat % 0x1000) ≠ [])
    (hopen : openReg s.dev p r.off i = false) :
    ∃ u, Machine.exec (.rcRead addr ⟨4, ms⟩) s = .next u ∧
      (∀ x ∈ ms, tget zero64 u.dev.rdata (masterKey x) = (blockVal s.dev p addr.toNat r.off i).setWidth 64) ∧
      (∀ f ∈ rcFields p (addr.toNat % 0x1000), getF (rd u.dev addr.toNat) ⟨f.hi, f.lo⟩ = f.fact) ∧
      ∀ b, b ≠ addr.toNat → rd u.dev b = rd s.dev b := by
  obtain ⟨m, ms, rfl⟩ := List.exists_cons_of_ne_nil hne
  obtain ⟨-, -, -, -, htb, hic, hhbm⟩ := rcFields_one hrc
  obtain ⟨t, ht, hval⟩ := foldl_give (m :: ms) (blockVal s.dev p addr.toNat r.off i) (clearRc s.dev p addr.toNat)
  have hcalm' : Calm { clearRc s.dev p addr.toNat with rdata := t } := calm_clearRc hcalm hrc
  refine ⟨{ s with dev := { clearRc s.dev p addr.toNat with rdata := t } }, ?_, fun x hx => hval _ (.inr ⟨x, hx, rfl⟩), rd_clearRc hrc⟩
  rw [execRcRead_eq hms hp h4 hrc, regRead_rc (hms m List.mem_cons_self) hp h4 ho hc hr hopen htb hic hhbm, ht, settle_of_calm hcalm']

/-! ## Narrow reads (R46, R48) -/

/-- A narrow read of a register with side effects. -/
theorem readPart_narrow (h : Answers d (a / 0x1000) m) (hp : pageId (a / 0x1000) = some p) (hn : n < 4) (hw : a % 4 + n ≤ 4)
    (hh : isHole d (a / 0x1000) p (a % 0x1000 / 4 * 4) = false) (hs : sideReg p (a % 0x1000 / 4 * 4) = true) : readPart d a n m =
      ((regRead d (a / 4 * 4) m).1.toNat / 2 ^ (8 * (a % 4)) % 2 ^ (8 * n), modPage d (a / 0x1000) (withErr (a % 0x1000) 0 false m)) := by
  have hn4 : (n == 4) = false := beq_eq_false_iff_ne.mpr (by omega)
  simp only [readPart, wakePage_runs h.clock, pageFor_of_reaches h.reach, hp, hh, hs, hn4, Nat.not_lt.mpr hw, pageErr_eq_withErr, decide_false,
    Bool.false_and, Bool.or_false, Bool.false_eq_true, if_false, if_true]

theorem exec_narrowRead (hcalm : Calm s.dev) (h : Answers s.dev (addr.toNat / 0x1000) m) (hp : pageId (addr.toNat / 0x1000) = some p) (hn : n < 4)
    (hw : addr.toNat % 4 + n ≤ 4) (hh : isHole s.dev (addr.toNat / 0x1000) p (addr.toNat % 0x1000 / 4 * 4) = false)
    (hs : sideReg p (addr.toNat % 0x1000 / 4 * 4) = true) : Machine.exec (.rcRead addr ⟨n, [m]⟩) s = .next { s with
      dev := giveKey (modPage s.dev (addr.toNat / 0x1000) (withErr (addr.toNat % 0x1000) 0 false m)) (masterKey m)
        (BitVec.ofNat 64 ((regRead s.dev (addr.toNat / 4 * 4) m).1.toNat / 2 ^ (8 * (addr.toNat % 4)) % 2 ^ (8 * n))) } := by
  have hne : (n != 4) = true := bne_iff_ne.mpr (by omega)
  show execRcRead addr ⟨n, [m]⟩ s = _
  simp only [execRcRead, State.onDevF, State.onDev, hne, Bool.or_true, if_true, List.foldl_cons, List.foldl_nil, readBytes,
    Nat.min_eq_right (show n ≤ 4 by omega), readPart_narrow h hp hn hw hh hs, show n ≤ 4 by omega]
  exact congrArg (fun e => Host.Outcome.next { s with dev := e }) (settle_of_calm (d := giveKey (modPage s.dev _ _) _ _) hcalm)

/-! ## I3C and MEMACC (R415, R418) -/

theorem settle_emit (hc : Calm d) (o : Out) : settle (emit d o) = emit d o := settle_of_calm (show Calm (emit d o) from hc)

/-- A count of words out of range is a bad command. -/
theorem i3c_badCount (hn : n = 0 ∨ 16 < n) (x : Bool) : (n == 0 || decide (16 < n) || x) = true := by
  rcases hn with h | h <;> simp [h]

theorem exec_i3cRead_bad {w : W32} (hc : Calm s.dev) (hn : n = 0 ∨ 16 < n) :
    Machine.exec (.i3cRead w n) s = .next { s with dev := emit s.dev (.i3cBytes [2]) } := by
  show execI3cRead w n s = _
  rw [execI3cRead, State.onDevF, State.onDev, if_pos (i3c_badCount hn _), settle_emit hc]

theorem exec_i3cWrite_bad {w : W32} {l : List W32} (hc : Calm s.dev) (hn : l.length = 0 ∨ 16 < l.length) :
    Machine.exec (.i3cWrite w l) s = .next { s with dev := emit s.dev (.i3cBytes [2]) } := by
  show execI3cWrite w l s = _
  simp only [execI3cWrite, State.onMemF, State.onMem, i3c_badCount hn, if_true, settle_emit hc]

theorem exec_i3cRead_one {w : W32} (hf : fwReady s.dev = true) (hw : w.toNat + 4 ≤ 2 ^ 26) : Machine.exec (.i3cRead w 1) s = .next { s with
    dev := settle (emit (regRead s.dev w.toNat fwMaster).2 (.i3cBytes (0 :: leBytes 4 (regRead s.dev w.toNat fwMaster).1.toNat))) } := by
  have hgood : ((1 : Nat) == 0 || decide (16 < 1) || decide (2 ^ 26 < w.toNat + 4 * 1)) = false := by simp; omega
  show execI3cRead w 1 s = _
  rw [execI3cRead, State.onDevF, State.onDev, hgood, hf]
  rfl

/-- The firmware writes DEV_GROUP_EPOCH_LO. -/
theorem regWrite_epochLo (mem : Memory) (hc : Calm s.dev) (h : Admits s.dev (Rg.pageOf Rg.DEV_GROUP_EPOCH_LO) m) (v : W32) :
    ∃ e, regWrite mem s.dev Rg.DEV_GROUP_EPOCH_LO 4 v.toNat m = (mem, e) ∧ RegTo s e Rg.DEV_GROUP_EPOCH_LO (BitVec.allOnes 32) v ∧ Calm e ∧
      e.out = s.dev.out := by
  have hdata : laneData v.toNat 0 = v := by simp [laneData]
  obtain ⟨e, he, hto, hcalm, -⟩ := regTo_epochLo (m := m) (acc := Rg.DEV_GROUP_EPOCH_LO) (data := v) (en := BitVec.allOnes 32) (by decide) hc
  refine ⟨e, ?_, hto, hcalm, ?_⟩
  · have hoff : Rg.DEV_GROUP_EPOCH_LO / 4 * 4 % 0x1000 = 0x58 := by decide
    have hpass : Passes s.dev devPid Rg.DEV_GROUP_EPOCH_LO 4 m := passes_epochLo (o := 0) h (by decide) (by decide)
    rw [regWrite_passes hpass,
      doWrite_block (r := epochLoReg) (i := 0) (by rw [hoff]; decide) (by rw [hoff]; exact regAt_epochLo) (by decide) (by decide),
      show Rg.DEV_GROUP_EPOCH_LO % 4 = 0 from rfl, show Rg.DEV_GROUP_EPOCH_LO / 4 * 4 = Rg.DEV_GROUP_EPOCH_LO from rfl, hdata, laneMask_whole, he]
  · obtain ⟨_, _, hsh, -⟩ := applyChg_shape s.dev ⟨Rg.DEV_GROUP_EPOCH_LO, BitVec.allOnes 32,
      merged (rd s.dev Rg.DEV_GROUP_EPOCH_LO) (BitVec.allOnes 32) v⟩
    rw [← he, writeBlock_epochLo (by decide), hsh]

theorem exec_i3cWrite_epochLo (hf : fwReady s.dev = true) (hc : Calm s.dev) (h : Admits s.dev (Rg.pageOf Rg.DEV_GROUP_EPOCH_LO) fwMaster) :
    ∃ u, Machine.exec (.i3cWrite (BitVec.ofNat 32 Rg.DEV_GROUP_EPOCH_LO) [v]) s = .next u ∧
      RegTo s u.dev Rg.DEV_GROUP_EPOCH_LO (BitVec.allOnes 32) v ∧ u.dev.out = s.dev.out ++ [.i3cBytes [0]] := by
  obtain ⟨e, he, hto, hcalm, hout⟩ := regWrite_epochLo (m := fwMaster) s.mem hc h v
  refine ⟨{ s with dev := emit e (.i3cBytes [0]) }, ?_, hto, by rw [emit_out, hout]⟩
  show execI3cWrite _ [v] s = _
  have hplace : (BitVec.ofNat 32 Rg.DEV_GROUP_EPOCH_LO).toNat + 4 * 0 = Rg.DEV_GROUP_EPOCH_LO := rfl
  have hgood : (([v].length) == 0 || decide (16 < [v].length) ||
      decide (2 ^ 26 < (BitVec.ofNat 32 Rg.DEV_GROUP_EPOCH_LO).toNat + 4 * [v].length)) = false := rfl
  simp only [execI3cWrite, State.onMemF, State.onMem, hgood, hf, Bool.not_true, Bool.false_eq_true, if_false, List.zipIdx_cons, List.zipIdx_nil,
    List.foldl_cons, List.foldl_nil, hplace, he, settle_emit hcalm]

theorem exec_memacc_epochLo (hf : fwReady s.dev = true) (hc : Calm s.dev) (h : Admits s.dev (Rg.pageOf Rg.DEV_GROUP_EPOCH_LO) fwMaster)
    (hon : rb s.dev Rg.MGT_DBG Fl.MGT_DBG_MEMACC_EN = true) :
    ∃ u, Machine.exec (.memacc (BitVec.ofNat 26 Rg.DEV_GROUP_EPOCH_LO) (some v)) s = .next u ∧
      RegTo s u.dev Rg.DEV_GROUP_EPOCH_LO (BitVec.allOnes 32) v := by
  obtain ⟨e, he, hto, hcalm, -⟩ := regWrite_epochLo (m := fwMaster) s.mem hc h v
  refine ⟨{ s with dev := e }, ?_, hto⟩
  have hplace : (BitVec.ofNat 26 Rg.DEV_GROUP_EPOCH_LO).toNat = Rg.DEV_GROUP_EPOCH_LO := rfl
  show execMemacc _ (some v) s = _
  simp only [execMemacc, State.onMemF, State.onMem, hon, hf, Bool.and_self, if_true, hplace, he, settle_of_calm hcalm]

/-- While it is not enabled MEMACC reads 0 and discards writes. -/
theorem exec_memacc_off (hc : Calm s.dev) (hoff : rb s.dev Rg.MGT_DBG Fl.MGT_DBG_MEMACC_EN = false) :
    Machine.exec (.memacc addr none) s = .next { s with dev := emit s.dev (.jtag (wordBits 32 0)) } ∧
      Machine.exec (.memacc addr (some v)) s = .next s := by
  constructor
  · show execMemacc addr none s = _
    simp only [execMemacc, State.onMemF, State.onMem, hoff, Bool.not_false, if_true, settle_emit hc]
  · show execMemacc addr (some v) s = _
    simp only [execMemacc, State.onMemF, State.onMem, hoff, Bool.false_and, Bool.false_eq_true, if_false, settle_of_calm hc]

/-- Settles O29: each clause is the rule of its access. -/
theorem readsLatchClearAndGoThroughTheFirmware : Obligations.ReadsLatchClearAndGoThroughTheFirmware := by
  unfold Obligations.ReadsLatchClearAndGoThroughTheFirmware
  refine ⟨fun s addr m p h hp _ hlow h4 hc => ?_, fun s addr ms p r i hms hne hp _ h4 ho hctr hr hrc hopen hc =>
      exec_rcRead hc hms hne hp h4 ho hctr hr hrc hopen, fun s addr m n p h hp _ _ hn hw hh hs hc => ?_,
    fun s addr words hn hc => ⟨exec_i3cRead_bad hc hn, exec_i3cWrite_bad hc hn⟩, fun s addr hf hw => exec_i3cRead_one hf hw,
    fun s v hf hc h => ⟨exec_i3cWrite_epochLo hf hc h, exec_memacc_epochLo hf hc h⟩, fun s addr v hoff hc => exec_memacc_off hc hoff⟩
  · exact ⟨_, exec_counterLoRead hc h hp hlow h4, rdata_giveKey .., getLatch_setLatch .., rfl, rfl⟩
  · exact ⟨_, exec_narrowRead hc h hp hn hw hh hs, fun _ => rfl, page_modPage_same .., rdata_giveKey ..⟩

end Sys2Proof.Machine
end

section
/-!
Ports, lanes, engines and laser inputs (R57, R60, R66, R70): what each part of the line side reads after another was changed, and what a page
event leaves of it.
-/

namespace Sys2Proof.Machine
open Sys2Proof

variable {d e : Dev}

/-! ## One part read after a change -/

theorem port_modPort (d : Dev) (p : Nat) (f : PortSt → PortSt) (q : Nat) : port (modPort d p f) q = if q = p then f (port d p) else port d q := by
  simp only [port, modPort, tget_tmod]
@[simp] theorem port_modPort_same (d : Dev) (p : Nat) (f : PortSt → PortSt) : port (modPort d p f) p = f (port d p) := by simp [port_modPort]
@[simp] theorem lane_modLane_same (d : Dev) (l : Nat) (f : LaneSt → LaneSt) : lane (modLane d l f) l = f (lane d l) := by simp [lane, modLane]
theorem engine_modEngine (d : Dev) (n : Nat) (f : EngineSt → EngineSt) (k : Nat) :
    engine (modEngine d n f) k = if k = n then f (engine d n) else engine d k := by simp only [engine, modEngine, tget_tmod]
@[simp] theorem engine_modEngine_same (d : Dev) (n : Nat) (f : EngineSt → EngineSt) : engine (modEngine d n f) n = f (engine d n) := by
  simp [engine_modEngine]
@[simp] theorem laser_modLaser_same (d : Dev) (n i : Nat) (f : LaserIn → LaserIn) : laser (modLaser d n i f) n i = f (laser d n i) := by
  simp [laser, modLaser]
theorem laser_modLaser_ne (d : Dev) (n : Nat) {i j : Nat} (f : LaserIn → LaserIn) (h : j ≠ i) : laser (modLaser d n i f) n j = laser d n j := by
  have hk : 2 * n + j ≠ 2 * n + i := by omega
  simp only [laser, modLaser, tget_tmod_ne _ _ _ hk]
theorem chan_modChan (d : Dev) (k : Nat) (f : Chan → Chan) (j : Nat) : chan (modChan d k f) j = if j = k then f (chan d k) else chan d j := by
  simp only [chan, modChan, modRas, tget_tmod]
@[simp] theorem chan_modChan_same (d : Dev) (k : Nat) (f : Chan → Chan) : chan (modChan d k f) k = f (chan d k) := by simp [chan_modChan]

theorem port_congr (h : e.line.ports = d.line.ports) (p : Nat) : port e p = port d p := by simp only [port, h]
theorem lane_congr (h : e.line.lanes = d.line.lanes) (l : Nat) : lane e l = lane d l := by simp only [lane, h]
theorem engine_congr (h : e.line.engines = d.line.engines) (n : Nat) : engine e n = engine d n := by simp only [engine, h]
theorem laser_congr (h : e.line.lasers = d.line.lasers) (n i : Nat) : laser e n i = laser d n i := by simp only [laser, h]
theorem chan_congr (h : e.ras.chans = d.ras.chans) (k : Nat) : chan e k = chan d k := by simp only [chan, h]
theorem rd_congr (h : e.regs = d.regs) (a : Nat) : rd e a = rd d a := by simp only [rd, h]
theorem ctr_congr (h : e.ctrs = d.ctrs) (a : Nat) : ctr e a = ctr d a := by simp only [ctr, h]

theorem line_bump (d : Dev) (a n : Nat) : (bump d a n).line = d.line := rfl
theorem line_wr (d : Dev) (a : Nat) (v : W32) : (wr d a v).line = d.line := rfl
theorem laser_wr (d : Dev) (a : Nat) (v : W32) (n i : Nat) : laser (wr d a v) n i = laser d n i := rfl
@[simp] theorem regs_raise (d : Dev) (p n : Nat) : (raise d p n).regs = d.regs := by obtain ⟨_, _, _, h⟩ := raise_shape d p n; rw [h]
@[simp] theorem line_raise (d : Dev) (p n : Nat) : (raise d p n).line = d.line := by obtain ⟨_, _, _, h⟩ := raise_shape d p n; rw [h]

/-! ## The two inputs of an engine -/

theorem laserChan_fields (n : Engine) (i : Fin 2) : chTy (laserChan n i) = 5 ∧ chUnit (laserChan n i) = n ∧ chElem (laserChan n i) = i := by
  revert n i
  decide
theorem laserChan_injective {n i j : Nat} (h : laserChan n i = laserChan n j) : i = j := by
  unfold laserChan chanKey at h
  omega

end Sys2Proof.Machine
end

section
/-!
The light of the laser inputs (R60 to R64): measurements, the comparison with RETIRE and the switchover.
-/

namespace Sys2Proof.Machine
open Sys2Proof Sys2Proof.Terms

variable {d e : Dev} {s : State} {n i : Nat} {pw : W16}

/-- `e` is `d` with inputs measured and judged: what the inputs keep and page events have changed. -/
def LaserWork (d e : Dev) : Prop := ∃ l p i k, e = { d with line := { d.line with lasers := l }, pages := p, ic := i, ket := k }

namespace LaserWork

theorem refl (d : Dev) : LaserWork d d := ⟨_, _, _, _, rfl⟩
theorem trans {f : Dev} (w : LaserWork d e) (g : LaserWork e f) : LaserWork d f := by
  obtain ⟨_, _, _, _, rfl⟩ := w
  obtain ⟨l, p, i, k, rfl⟩ := g
  exact ⟨l, p, i, k, rfl⟩
theorem modLaser (w : LaserWork d e) (n i : Nat) (f : LaserIn → LaserIn) : LaserWork d (modLaser e n i f) := w.trans ⟨_, _, _, _, rfl⟩
theorem raise (w : LaserWork d e) (p n : Nat) : LaserWork d (raise e p n) := by
  obtain ⟨_, _, _, h⟩ := raise_shape e p n
  exact w.trans ⟨_, _, _, _, h⟩
theorem regs (w : LaserWork d e) : e.regs = d.regs := by obtain ⟨_, _, _, _, rfl⟩ := w; rfl
theorem ctrs (w : LaserWork d e) : e.ctrs = d.ctrs := by obtain ⟨_, _, _, _, rfl⟩ := w; rfl
theorem ras (w : LaserWork d e) : e.ras = d.ras := by obtain ⟨_, _, _, _, rfl⟩ := w; rfl
theorem ports (w : LaserWork d e) : e.line.ports = d.line.ports := by obtain ⟨_, _, _, _, rfl⟩ := w; rfl
theorem lanes (w : LaserWork d e) : e.line.lanes = d.line.lanes := by obtain ⟨_, _, _, _, rfl⟩ := w; rfl
theorem engines (w : LaserWork d e) : e.line.engines = d.line.engines := by obtain ⟨_, _, _, _, rfl⟩ := w; rfl
theorem nowNs (w : LaserWork d e) : nowNs e = nowNs d := by obtain ⟨_, _, _, _, rfl⟩ := w; rfl
theorem calm (w : LaserWork d e) (h : Calm d) : Calm e := by obtain ⟨_, _, _, _, rfl⟩ := w; exact h
theorem chan (w : LaserWork d e) (k : Nat) : chan e k = chan d k := chan_congr (congrArg Ras.chans w.ras) k
theorem liWarn (w : LaserWork d e) (n : Nat) : liWarn e n = liWarn d n := by
  simp only [Machine.liWarn, rf, rd_congr w.regs]
theorem liRetire (w : LaserWork d e) (n : Nat) : liRetire e n = liRetire d n := by
  simp only [Machine.liRetire, rf, rd_congr w.regs]
theorem drawsFrom (w : LaserWork d e) (n i : Nat) : drawsFrom e n i = drawsFrom d n i := by
  simp only [Machine.drawsFrom, rf, rd_congr w.regs, engine_congr w.engines]
  rfl

end LaserWork

/-- An input with the power found: its run at or above WARN goes on, begins or ends (R60). -/
def foundPower (d : Dev) (n : Nat) (pw : W16) (x : LaserIn) : LaserIn :=
  { x with pw := pw, run := if liWarn d n ≤ pw.toInt then x.run.or (some (nowNs d)) else none }

theorem setPower_eq (h : (chan d (laserChan n i)).state ≠ 2) (pw : W16) :
    ∃ c : Bool, setPower d n i pw = if c then raise (modLaser d n i (foundPower d n pw)) (oePage n) 1 else modLaser d n i (foundPower d n pw) := by
  refine ⟨_, if_neg ?_⟩
  have hs : ∀ c : Bool, (chan (if c then raise (modLaser d n i (foundPower d n pw)) (oePage n) 1 else modLaser d n i (foundPower d n pw))
      (laserChan n i)).state ≠ 2 := by
    intro c
    rw [chan_congr (d := d) (by split <;> simp [modLaser])]
    exact h
  simp only [Bool.and_eq_true, beq_iff_eq, not_and]
  exact fun h2 => absurd h2 (hs _)

/-- A measurement of an input that is not in SHADOW notes no fault. -/
theorem setPower_spec (h : (chan d (laserChan n i)).state ≠ 2) (pw : W16) :
    LaserWork d (setPower d n i pw) ∧ laser (setPower d n i pw) n i = foundPower d n pw (laser d n i) ∧
      ∀ j, j ≠ i → laser (setPower d n i pw) n j = laser d n j := by
  obtain ⟨c, hc⟩ := setPower_eq h pw
  have hl : (setPower d n i pw).line = (modLaser d n i (foundPower d n pw)).line := by rw [hc]; split <;> simp
  refine ⟨?_, ?_, fun j hj => ?_⟩
  · rw [hc]
    split
    · exact ((LaserWork.refl d).modLaser _ _ _).raise _ _
    · exact (LaserWork.refl d).modLaser _ _ _
  · rw [laser_congr (congrArg Line.lasers hl), laser_modLaser_same]
  · rw [laser_congr (congrArg Line.lasers hl), laser_modLaser_ne _ _ _ hj]

/-! ## The comparison with RETIRE (R62, R64) -/

theorem watchRetire_lit (h : liRetire d n ≤ (laser d n i).pw.toInt) :
    watchRetire d n i = modLaser d n i (fun x => { x with below := false }) := by
  simp [watchRetire, Int.not_lt.mpr h]

theorem watchRetire_falls (hs : (chan d (laserChan n i)).state ≠ 2) (hb : (laser d n i).below = false)
    (h : (laser d n i).pw.toInt < liRetire d n) :
    watchRetire d n i = noteFault (moveDraw (modLaser d n i (fun x => { x with below := true })) n i) (laserChan n i) false := by
  have hs' : (chan (modLaser d n i (fun x => { x with below := true })) (laserChan n i)).state ≠ 2 := hs
  simp [watchRetire, h, hb, hs']

theorem engineDark_lit (h : liRetire d n ≤ (laser d n 0).pw.toInt ∨ liRetire d n ≤ (laser d n 1).pw.toInt) : engineDark d n = d := by
  rcases h with h | h
  · simp [engineDark, Int.not_lt.mpr h]
  · simp [engineDark, Int.not_lt.mpr h]

/-- An input that is lit keeps all but the result of its comparison. -/
theorem watchRetire_lit_spec (h : liRetire d n ≤ (laser d n i).pw.toInt) :
    LaserWork d (watchRetire d n i) ∧ ∀ j, (laser (watchRetire d n i) n j).pw = (laser d n j).pw ∧
      (laser (watchRetire d n i) n j).run = (laser d n j).run ∧ (j ≠ i → laser (watchRetire d n i) n j = laser d n j) := by
  rw [watchRetire_lit h]
  refine ⟨(LaserWork.refl d).modLaser _ _ _, fun j => ?_⟩
  by_cases hj : j = i
  · subst hj
    rw [laser_modLaser_same]
    exact ⟨rfl, rfl, fun hj => absurd rfl hj⟩
  · rw [laser_modLaser_ne _ _ _ hj]
    exact ⟨rfl, rfl, fun _ => rfl⟩

/-- With both inputs lit the comparison leaves their powers and runs. -/
theorem watchInputs_lit (h0 : liRetire d n ≤ (laser d n 0).pw.toInt) (h1 : liRetire d n ≤ (laser d n 1).pw.toInt) :
    LaserWork d (watchInputs d n) ∧ ∀ j, (laser (watchInputs d n) n j).pw = (laser d n j).pw ∧ (laser (watchInputs d n) n j).run = (laser d n j).run := by
  obtain ⟨hw0, hp0⟩ := watchRetire_lit_spec h0
  have h1' : liRetire (watchRetire d n 0) n ≤ (laser (watchRetire d n 0) n 1).pw.toInt := by rwa [hw0.liRetire, (hp0 1).1]
  obtain ⟨hw1, hp1⟩ := watchRetire_lit_spec h1'
  have hdark : watchInputs d n = watchRetire (watchRetire d n 0) n 1 := by
    refine engineDark_lit (.inr ?_)
    rwa [hw1.liRetire, (hp1 1).1]
  rw [hdark]
  refine ⟨hw0.trans hw1, fun j => ?_⟩
  obtain ⟨hpw0, hrun0, -⟩ := hp0 j
  obtain ⟨hpw1, hrun1, -⟩ := hp1 j
  exact ⟨hpw1.trans hpw0, hrun1.trans hrun0⟩

/-- What a switchover away from input `i` leaves (R62). -/
structure Switched (n i : Nat) (d e : Dev) : Prop where
  todo : e.ras.todo = d.ras.todo ++ [(laserChan n i, false)]
  power : ∀ j, (laser e n j).pw = (laser d n j).pw
  count : ctr e (Rg.OE_LI_SWITCH_CNT n) = ctr d (Rg.OE_LI_SWITCH_CNT n) + 1
  ports : e.line.ports = d.line.ports
  draw : (engine e n).draw = 2 - i
  regs : e.regs = d.regs

theorem Switched.liRetire (h : Switched n i d e) : liRetire e n = liRetire d n := by simp only [Machine.liRetire, rf, rd_congr h.regs]
theorem Switched.after {f : Dev} (w : LaserWork d e) (hp : ∀ j, (laser e n j).pw = (laser d n j).pw) (h : Switched n i e f) : Switched n i d f :=
  ⟨by rw [h.todo, w.ras], fun j => (h.power j).trans (hp j), by rw [h.count, ctr_congr w.ctrs], h.ports.trans w.ports, h.draw, h.regs.trans w.regs⟩
theorem Switched.before {f : Dev} (h : Switched n i d e) (w : LaserWork e f) (hp : ∀ j, (laser f n j).pw = (laser e n j).pw) : Switched n i d f :=
  ⟨by rw [w.ras, h.todo], fun j => (hp j).trans (h.power j), by rw [ctr_congr w.ctrs, h.count], w.ports.trans h.ports,
    by rw [engine_congr w.engines, h.draw], w.regs.trans h.regs⟩

theorem moveDraw_draws (h : drawsFrom d n i = true) :
    moveDraw d n i = modEngine (bump d (Rg.OE_LI_SWITCH_CNT n) 1) n (fun x => { x with draw := 2 - i }) := by
  rw [moveDraw, if_pos h]

theorem switched_moveDraw (hd : drawsFrom d n i = true) : Switched n i d (noteFault (moveDraw d n i) (laserChan n i) false) := by
  rw [moveDraw_draws hd]
  exact ⟨rfl, fun _ => rfl, ctr_bump_same d _ 1, rfl, congrArg EngineSt.draw (engine_modEngine_same (bump d _ 1) n _), rfl⟩

theorem watchRetire_switches (hs : (chan d (laserChan n i)).state ≠ 2) (hd : drawsFrom d n i = true) (hb : (laser d n i).below = false)
    (h : (laser d n i).pw.toInt < liRetire d n) : Switched n i d (watchRetire d n i) := by
  have hw := (LaserWork.refl d).modLaser n i (fun x => { x with below := true })
  have hp (j : Nat) : (laser (modLaser d n i (fun x => { x with below := true })) n j).pw = (laser d n j).pw := by
    by_cases hj : j = i
    · subst hj; rw [laser_modLaser_same]
    · rw [laser_modLaser_ne _ _ _ hj]
  rw [watchRetire_falls hs hb h]
  exact Switched.after hw hp (switched_moveDraw (by rwa [hw.drawsFrom]))

/-- One input falls below RETIRE while the other is lit. -/
theorem watchInputs_switches (hi : i = 0 ∨ i = 1) (hs : (chan d (laserChan n i)).state ≠ 2) (hd : drawsFrom d n i = true)
    (hb : (laser d n i).below = false) (h : (laser d n i).pw.toInt < liRetire d n)
    (ho : liRetire d n ≤ (laser d n (1 - i)).pw.toInt) : Switched n i d (watchInputs d n) := by
  have hdark {f : Dev} (hf : Switched n i d f) : engineDark f n = f := by
    have hlit : liRetire f n ≤ (laser f n (1 - i)).pw.toInt := by rwa [hf.liRetire, hf.power]
    apply engineDark_lit
    rcases hi with rfl | rfl
    · exact .inr hlit
    · exact .inl hlit
  have hinner : Switched n i d (watchRetire (watchRetire d n 0) n 1) := by
    rcases hi with rfl | rfl
    · have h0 := watchRetire_switches hs hd hb h
      obtain ⟨hw, hp⟩ := watchRetire_lit_spec (d := watchRetire d n 0) (i := 1) (by rw [h0.liRetire, h0.power]; exact ho)
      exact h0.before hw fun j => (hp j).1
    · obtain ⟨hw, hp⟩ := watchRetire_lit_spec (i := 0) ho
      refine Switched.after hw (fun j => (hp j).1) (watchRetire_switches ?_ ?_ ?_ ?_)
      · rwa [hw.chan]
      · rwa [hw.drawsFrom]
      · rwa [(hp 1).2.2 (by decide)]
      · rwa [hw.liRetire, (hp 1).1]
  rw [watchInputs, hdark hinner]
  exact hinner

theorem settle_wr (hc : Calm d) (a : Nat) (v : W32) : settle (wr d a v) = wr d a v := settle_of_calm (show Calm (wr d a v) from hc)

/-! ## Measurements and switchovers as commands -/

theorem exec_liMeasure_lit {e : Engine} {p0 p1 : W16} (hc : Calm s.dev) (hs0 : (chan s.dev (laserChan e 0)).state ≠ 2)
    (hs1 : (chan s.dev (laserChan e 1)).state ≠ 2) (h0 : liRetire s.dev e ≤ p0.toInt) (h1 : liRetire s.dev e ≤ p1.toInt) :
    ∃ f, LaserWork s.dev f ∧ (laser f e 0).pw = p0 ∧ (laser f e 0).run = (foundPower s.dev e p0 (laser s.dev e 0)).run ∧
      (laser f e 1).pw = p1 ∧ (laser f e 1).run = (foundPower s.dev e p1 (laser s.dev e 1)).run ∧
      Machine.exec (.liMeasure e p0 p1) s =
        .next { s with dev := wr f (Rg.OE_LI_PWR e) (BitVec.ofNat 32 (p0.toNat + p1.toNat * 65536)) } := by
  obtain ⟨hw0, hl0, hn0⟩ := setPower_spec hs0 p0
  obtain ⟨hw1, hl1, hn1⟩ := setPower_spec (d := setPower s.dev e 0 p0) (n := e) (i := 1) (by rwa [hw0.chan]) p1
  have hw := hw0.trans hw1
  have hf (x : LaserIn) : foundPower (setPower s.dev e 0 p0) e p1 x = foundPower s.dev e p1 x := by
    simp only [foundPower, hw0.liWarn, hw0.nowNs]
  rw [hf, hn0 1 (by decide)] at hl1
  have hl0' := (hn1 0 (by decide)).trans hl0
  obtain ⟨hwi, hp⟩ := watchInputs_lit (d := setPower (setPower s.dev e 0 p0) e 1 p1) (n := e)
    (by rw [hw.liRetire, hl0']; exact h0) (by rw [hw.liRetire, hl1]; exact h1)
  obtain ⟨hpw0, hrun0⟩ := hp 0
  obtain ⟨hpw1, hrun1⟩ := hp 1
  rw [hl0'] at hpw0 hrun0
  rw [hl1] at hpw1 hrun1
  refine ⟨_, hw.trans hwi, hpw0, hrun0, hpw1, hrun1, ?_⟩
  show execLiMeasure e p0 p1 s = _
  simp only [execLiMeasure, State.onDevF, State.onDev, settle_wr ((hw.trans hwi).calm hc)]

theorem exec_liSwitchover {e : Engine} {i : Fin 2} {p : W16} (hs : (chan s.dev (laserChan e i)).state ≠ 2)
    (hd : drawsFrom s.dev e i = true) (hb : (laser s.dev e i).below = false) (hp : p.toInt < liRetire s.dev e)
    (ho : liRetire s.dev e ≤ (laser s.dev e (1 - i.val)).pw.toInt) :
    ∃ m f, LaserWork s.dev m ∧ (laser m e i).pw = p ∧ Switched e i m f ∧
      Machine.exec (.liSwitchover e i p) s = .next { s with dev := settle f } := by
  obtain ⟨hw, hl, hn⟩ := setPower_spec hs p
  have hne : 1 - i.val ≠ i := by omega
  refine ⟨_, _, hw, congrArg LaserIn.pw hl, watchInputs_switches (by omega) (by rwa [hw.chan]) (by rwa [hw.drawsFrom]) (by rw [hl]; exact hb)
    (by rw [hl, hw.liRetire]; exact hp) (by rw [hn _ hne, hw.liRetire]; exact ho), ?_⟩
  show execLiSwitchover e i p s = _
  simp only [execLiSwitchover, State.onDevF, State.onDev, if_pos hp]

end Sys2Proof.Machine
end

section
/-!
Laser inputs that return to service (R61, R63, R64, R383, R390), and the roles of the inputs.
-/

namespace Sys2Proof.Machine
open Sys2Proof Sys2Proof.Terms

variable {d e : Dev} {s : State} {n i k st : Nat}

/-! ## The change of a channel's state -/

/-- `e` is `d` after events were posted to the hosts: beside host ports, registers, page headers, event sources and the wake time only counters
below the pages after the host ports have changed. -/
structure Told (d e : Dev) : Prop where
  shape : ∃ rg c p i k hf l, e = { d with regs := rg, ctrs := c, pages := p, ic := i, ket := k, hif := hf, out := d.out ++ l }
  count : ∀ a, Rg.baseHIF 2 ≤ a → ctr e a = ctr d a

namespace Told

theorem refl (d : Dev) : Told d d := ⟨⟨_, _, _, _, _, _, [], by rw [List.append_nil]⟩, fun _ _ => rfl⟩
theorem trans {f : Dev} (w : Told d e) (g : Told e f) : Told d f := by
  obtain ⟨⟨_, _, _, _, _, _, l, rfl⟩, wc⟩ := w
  obtain ⟨⟨rg, c, p, i, k, hf, m, rfl⟩, gc⟩ := g
  exact ⟨⟨rg, c, p, i, k, hf, l ++ m, by rw [← List.append_assoc]⟩, fun a ha => (gc a ha).trans (wc a ha)⟩
theorem raise (w : Told d e) (p n : Nat) : Told d (raise e p n) := by
  obtain ⟨q, i, k, hr⟩ := raise_shape e p n
  exact w.trans ⟨⟨_, _, q, i, k, _, [], by rw [hr, List.append_nil]⟩, fun a _ => ctr_raise e p n a⟩
theorem line (w : Told d e) : e.line = d.line := by obtain ⟨⟨_, _, _, _, _, _, _, rfl⟩, -⟩ := w; rfl
theorem ras (w : Told d e) : e.ras = d.ras := by obtain ⟨⟨_, _, _, _, _, _, _, rfl⟩, -⟩ := w; rfl
theorem tb (w : Told d e) : e.tb = d.tb := by obtain ⟨⟨_, _, _, _, _, _, _, rfl⟩, -⟩ := w; rfl

end Told

theorem told_postEvent {h r : Nat} (hh : h < 2) (hr : r < 4) (ty : Nat) (l : List Nat) : Told d (postEvent d h r ty l).1 := by
  have hbelow (a : Nat) (ha : Rg.baseHIF 2 ≤ a) : a ≠ Rg.EVT_DROP h r ∧ a ≠ Rg.MSIX_SENT h ∧ a ≠ Rg.PME_SENT h := by
    unfold Rg.EVT_DROP Rg.MSIX_SENT Rg.PME_SENT Rg.baseHIF
    unfold Rg.baseHIF at ha
    omega
  unfold postEvent
  split
  · exact .refl d
  dsimp only
  split
  · exact Told.raise ⟨⟨_, _, _, _, _, _, [], by rw [List.append_nil]; rfl⟩, fun a ha => ctr_bump_ne _ _ (hbelow a ha).1⟩ _ _
  · have hw (l) := (HostWork.refl h 3 r (wf d (ringIdx h 3 r) Fl.PRING_IDX_CONSUMED (ringConsumed d h 3 r + 1))).makeEntry l
    obtain ⟨⟨rg, c, p, i, k, hf, m, hs, -⟩, -, -, hc⟩ := hw ((List.range 8).map (fun i => BitVec.ofNat 32 (l.getD i 0 + (if i == 7 then ty * 2 ^ 24 else 0))))
    refine ⟨⟨rg, c, p, i, k, hf, m, hs⟩, fun a ha => ?_⟩
    obtain ⟨-, hmsix, hpme⟩ := hbelow a ha
    exact hc a hmsix hpme

theorem told_faultEntry (d : Dev) (k : Nat) : Told d (faultEntry d k) :=
  (told_postEvent (by decide) (by decide) _ _).trans (told_postEvent (by decide) (by decide) _ _)

theorem told_showState (d : Dev) (k : Nat) : Told d (showState d k) := by
  unfold showState
  split
  · split
    · exact (Told.refl d).raise _ _
    · exact .refl d
  · exact (Told.refl d).raise _ _
  · exact (Told.refl d).raise _ _
  · exact .refl d

/-- A channel's state is set, shown and posted. -/
theorem told_setState (d : Dev) (k st : Nat) : Told (modChan d k (fun c => { c with state := st })) (setState d k st) := by
  unfold setState
  dsimp only
  split
  · exact told_showState _ k
  · exact (told_showState _ k).trans (told_faultEntry _ k)

theorem chan_setState (d : Dev) (k st j : Nat) : chan (setState d k st) j = if j = k then { chan d k with state := st } else chan d j := by
  rw [chan_congr (congrArg Ras.chans (told_setState d k st).ras), chan_modChan]
theorem line_setState (d : Dev) (k st : Nat) : (setState d k st).line = d.line := (told_setState d k st).line
theorem ctr_setState (d : Dev) (k st : Nat) {a : Nat} (ha : Rg.baseHIF 2 ≤ a) : ctr (setState d k st) a = ctr d a := (told_setState d k st).count a ha
theorem nowNs_setState (d : Dev) (k st : Nat) : nowNs (setState d k st) = nowNs d := congrArg (· / 2 ^ 32) (told_setState d k st).tb

/-- The registry alone follows a channel. -/
theorem syncEntry_shape (d : Dev) (k : Nat) : ∃ r, syncEntry d k = modRas d (fun x => { x with registry := r }) := by
  unfold syncEntry
  split
  · exact ⟨_, rfl⟩
  · split
    · exact ⟨_, rfl⟩
    · exact ⟨d.ras.registry, rfl⟩
  · exact ⟨d.ras.registry, rfl⟩
theorem chan_syncEntry (d : Dev) (k j : Nat) : chan (syncEntry d k) j = chan d j := by obtain ⟨r, h⟩ := syncEntry_shape d k; rw [h]; rfl
theorem line_syncEntry (d : Dev) (k : Nat) : (syncEntry d k).line = d.line := by obtain ⟨r, h⟩ := syncEntry_shape d k; rw [h]; rfl
theorem ctr_syncEntry (d : Dev) (k a : Nat) : ctr (syncEntry d k) a = ctr d a := by obtain ⟨r, h⟩ := syncEntry_shape d k; rw [h]; rfl

/-! ## The draw settles (R61 to R63) -/

theorem moveDraw_spec (d : Dev) (n i : Nat) : (moveDraw d n i).ras = d.ras ∧ engine (moveDraw d n i) n = { engine d n with draw := 2 - i } ∧
    ∀ a, a ≠ Rg.OE_LI_SWITCH_CNT n → ctr (moveDraw d n i) a = ctr d a := by
  unfold moveDraw
  dsimp only
  refine ⟨?_, (engine_modEngine_same ..).trans ?_, fun a ha => ?_⟩
  · split <;> rfl
  · split <;> rfl
  · split
    · exact ctr_bump_ne d 1 ha
    · rfl

/-- What the light of an engine has settled to: with input `i` GOOD, both inputs feed it or `i` alone. -/
structure Settled (n i : Nat) (d e : Dev) : Prop where
  ras : e.ras = d.ras
  draw : (engine e n).draw = if (chan d (laserChan n (1 - i))).state = 0 then 0 else i + 1
  dark : (engine e n).noLight = (engine d n).noLight
  count : ∀ a, a ≠ Rg.OE_LI_SWITCH_CNT n → ctr e a = ctr d a

theorem settled_moveDraw (h : (chan d (laserChan n (1 - i))).state ≠ 0) (hi : i = 0 ∨ i = 1) : Settled n i d (moveDraw d n (1 - i)) := by
  obtain ⟨hr, he, hc⟩ := moveDraw_spec d n (1 - i)
  refine ⟨hr, ?_, by rw [he], hc⟩
  rw [he, if_neg h]
  rcases hi with rfl | rfl
  · rfl
  · rfl

theorem settled_settleDraw (hi : i = 0 ∨ i = 1) (hg : (chan d (laserChan n i)).state = 0) : Settled n i d (settleDraw d n) := by
  by_cases ho : (chan d (laserChan n (1 - i))).state = 0
  · have hboth : settleDraw d n = modEngine d n (fun x => { x with draw := 0 }) := by
      rcases hi with rfl | rfl
      · simp [settleDraw, hg, show (chan d (laserChan n 1)).state = 0 from ho]
      · simp [settleDraw, hg, show (chan d (laserChan n 0)).state = 0 from ho]
    rw [hboth]
    exact ⟨rfl, by rw [engine_modEngine_same, if_pos ho], by rw [engine_modEngine_same], fun _ _ => rfl⟩
  · have hone : settleDraw d n = if (engine d n).draw ≠ i + 1 then moveDraw d n (1 - i) else d := by
      rcases hi with rfl | rfl
      · simp [settleDraw, hg, show (chan d (laserChan n 1)).state ≠ 0 from ho]
      · simp [settleDraw, hg, show (chan d (laserChan n 0)).state ≠ 0 from ho]
    rw [hone]
    split
    next => exact settled_moveDraw ho hi
    next hd => exact ⟨rfl, by rw [if_neg ho]; exact not_not.mp hd, rfl, fun _ _ => rfl⟩

/-! ## Recovery (R63, R64) -/

/-- Light that has lasted for 10 s returns to a dark engine. -/
def relit (d : Dev) (n : Nat) (long : Bool) : Dev := if long && (engine d n).noLight then modEngine d n (fun y => { y with noLight := false }) else d

theorem relit_shape (d : Dev) (n : Nat) (long : Bool) : ∃ x, relit d n long = { d with line := { d.line with engines := x } } := by
  unfold relit
  split
  · exact ⟨_, rfl⟩
  · exact ⟨_, rfl⟩
theorem noLight_relit (d : Dev) (n : Nat) : (engine (relit d n true) n).noLight = false := by
  unfold relit
  split
  · rw [engine_modEngine_same]
  next h => simpa using h

/-- 10 s since the time that `t` holds, if any. -/
def lasted (d : Dev) (t : Option Nat) : Bool := match t with | some t => decide (10000000000 ≤ elapsed (nowNs d) t) | none => false
theorem lasted_of {t : Option Nat} (h : ∃ t0, t = some t0 ∧ 10000000000 ≤ elapsed (nowNs d) t0) : lasted d t = true := by
  obtain ⟨t0, rfl, ht⟩ := h
  exact decide_eq_true ht

/-- An input whose light (`long`) or whose time in SHADOW (`tested`) has lasted returns to the draw of its engine, by its state. -/
def recovered (d : Dev) (n i : Nat) (long tested : Bool) (pw : Int) : Dev :=
  match (chan d (laserChan n i)).state with
  | 1 => if long then settleDraw (syncEntry (setState d (laserChan n i) 0) (laserChan n i)) n else d
  | 2 => if tested && liWarn d n ≤ pw && pw < liHigh d n then
      settleDraw (passShadow (modLaser d n i (fun y => { y with shadow := none })) (laserChan n i)) n
    else d
  | _ => d

theorem exec_liRecover (e : Engine) (i : Fin 2) : Machine.exec (.liRecover e i) s = .next { s with
    dev := recovered (relit s.dev e (lasted s.dev (laser s.dev e i).run)) e i (lasted s.dev (laser s.dev e i).run)
      (lasted s.dev (laser s.dev e i).shadow) (laser s.dev e i).pw.toInt } := rfl

theorem chan_relit (d : Dev) (n : Nat) (long : Bool) (k : Nat) : chan (relit d n long) k = chan d k := by
  obtain ⟨x, h⟩ := relit_shape d n long
  rw [h]
  rfl

/-- A SUSPECT input whose light has lasted is GOOD again (R63). -/
theorem recovered_suspect (hi : i = 0 ∨ i = 1) (h : (chan d (laserChan n i)).state = 1) (tested : Bool) (pw : Int) :
    ∃ m, Settled n i m (recovered d n i true tested pw) ∧ engine m n = engine d n ∧
      ∀ j, chan m j = if j = laserChan n i then { chan d j with state := 0 } else chan d j := by
  have hr : recovered d n i true tested pw = settleDraw (syncEntry (setState d (laserChan n i) 0) (laserChan n i)) n := by
    rw [recovered, h]
    rfl
  rw [hr]
  have hc (j : Nat) : chan (syncEntry (setState d (laserChan n i) 0) (laserChan n i)) j =
      if j = laserChan n i then { chan d j with state := 0 } else chan d j := by
    rw [chan_syncEntry, chan_setState]
    split
    next hj => rw [hj]
    · rfl
  refine ⟨_, settled_settleDraw hi ?_, ?_, hc⟩
  · rw [hc, if_pos rfl]
  · exact engine_congr (congrArg Line.engines ((line_syncEntry _ _).trans (line_setState d _ 0))) n

/-- A laser input that passes its test in SHADOW is GOOD and counted (R390). -/
theorem passShadow_laser (hty : chTy k = 5) :
    (chan (passShadow d k) k).state = 0 ∧ ctr (passShadow d k) (Rg.RAS_RESTORED 5) = ctr d (Rg.RAS_RESTORED 5) + 1 := by
  have hbelow : Rg.baseHIF 2 ≤ Rg.RAS_RESTORED 5 := by decide
  obtain ⟨m, hp, hm⟩ : ∃ m, passShadow d k = syncEntry (setState m k 0) k ∧ ctr m (Rg.RAS_RESTORED 5) = ctr d (Rg.RAS_RESTORED 5) + 1 := by
    unfold passShadow
    simp only [hty]
    refine ⟨_, rfl, ?_⟩
    exact (ctr_raise ..).trans (ctr_bump_same ..)
  rw [hp, chan_syncEntry, chan_setState, if_pos rfl, ctr_syncEntry, ctr_setState _ _ _ hbelow]
  exact ⟨rfl, hm⟩

theorem recovered_shadow (n : Engine) (i : Fin 2) (h : (chan d (laserChan n i)).state = 2) (long : Bool) {pw : Int} (hw : liWarn d n ≤ pw) (hh : pw < liHigh d n) :
    (chan (recovered d n i long true pw) (laserChan n i)).state = 0 ∧
      ctr (recovered d n i long true pw) (Rg.RAS_RESTORED 5) = ctr d (Rg.RAS_RESTORED 5) + 1 := by
  have hr : recovered d n i long true pw =
      settleDraw (passShadow (modLaser d n i (fun y => { y with shadow := none })) (laserChan n i)) n := by
    simp [recovered, h, hw, hh]
  obtain ⟨hst, hct⟩ := passShadow_laser (d := modLaser d n i (fun y => { y with shadow := none })) (laserChan_fields n i).1
  have hs : Settled n i _ (recovered d n i long true pw) := hr ▸ settled_settleDraw (by omega) hst
  have hne : Rg.RAS_RESTORED 5 ≠ Rg.OE_LI_SWITCH_CNT n := by
    unfold Rg.RAS_RESTORED Rg.OE_LI_SWITCH_CNT Rg.baseRAS Rg.baseOE Rg.zoneBase
    omega
  exact ⟨by rw [chan_congr (congrArg Ras.chans hs.ras), hst], by rw [hs.count _ hne, hct]; rfl⟩

theorem exec_liRecover_suspect {e : Engine} {i : Fin 2} (hs : (chan s.dev (laserChan e i)).state = 1)
    (ht : lasted s.dev (laser s.dev e i).run = true) :
    ∃ f, Machine.exec (.liRecover e i) s = .next { s with dev := f } ∧ (chan f (laserChan e i)).state = 0 ∧
      (chan f (laserChan e i)).count = (chan s.dev (laserChan e i)).count ∧ (engine f e).noLight = false ∧
      (engine f e).draw = if (chan s.dev (laserChan e (1 - i.val))).state = 0 then 0 else i.val + 1 := by
  have hi : i.val = 0 ∨ i.val = 1 := by omega
  have hne : laserChan e (1 - i.val) ≠ laserChan e i := fun h => by have := laserChan_injective h; omega
  obtain ⟨m, hset, heng, hch⟩ := recovered_suspect (d := relit s.dev e true) hi ((congrArg Chan.state (chan_relit ..)).trans hs)
    (lasted s.dev (laser s.dev e i).shadow) (laser s.dev e i).pw.toInt
  have hself : chan m (laserChan e i) = { chan s.dev (laserChan e i) with state := 0 } := by rw [hch, if_pos rfl, chan_relit]
  have hother : chan m (laserChan e (1 - i.val)) = chan s.dev (laserChan e (1 - i.val)) := by rw [hch, if_neg hne, chan_relit]
  rw [exec_liRecover, ht]
  refine ⟨_, rfl, ?_, ?_, ?_, ?_⟩
  · rw [chan_congr (congrArg Ras.chans hset.ras), hself]
  · rw [chan_congr (congrArg Ras.chans hset.ras), hself]
  · rw [hset.dark, heng, noLight_relit]
  · rw [hset.draw, hother]

theorem exec_liRecover_shadow {e : Engine} {i : Fin 2} (hs : (chan s.dev (laserChan e i)).state = 2)
    (ht : lasted s.dev (laser s.dev e i).shadow = true) (hw : liWarn s.dev e ≤ (laser s.dev e i).pw.toInt)
    (hh : (laser s.dev e i).pw.toInt < liHigh s.dev e) :
    ∃ u, Machine.exec (.liRecover e i) s = .next u ∧ (chan u.dev (laserChan e i)).state = 0 ∧
      ctr u.dev (Rg.RAS_RESTORED 5) = ctr s.dev (Rg.RAS_RESTORED 5) + 1 := by
  obtain ⟨x, hx⟩ := relit_shape s.dev e (lasted s.dev (laser s.dev e i).run)
  obtain ⟨hst, hct⟩ := recovered_shadow (d := relit s.dev e (lasted s.dev (laser s.dev e i).run)) e i
    ((congrArg Chan.state (chan_relit ..)).trans hs) (lasted s.dev (laser s.dev e i).run) (pw := (laser s.dev e i).pw.toInt)
    (by rw [hx]; exact hw) (by rw [hx]; exact hh)
  rw [exec_liRecover, ht]
  refine ⟨_, rfl, hst, ?_⟩
  rw [hct, hx]
  rfl

theorem exec_liRecover_good {e : Engine} {i : Fin 2} (h : (chan s.dev (laserChan e i)).state = 0) (hl : (engine s.dev e).noLight = false) :
    Machine.exec (.liRecover e i) s = .next s := by
  have hrelit (c : Bool) : relit s.dev e c = s.dev := by simp [relit, hl]
  rw [exec_liRecover, hrelit, recovered, h]
  rfl

/-! ## Roles and RESTORE (R61, R63, R81) -/

theorem exec_liRotate_due {e : Engine} (hen : rb s.dev (Rg.OE_CTRL e) Fl.OE_CTRL_ROTATE_EN = true) (h0 : (chan s.dev (laserChan e 0)).state = 0)
    (h1 : (chan s.dev (laserChan e 1)).state = 0) (hh : (page s.dev (oePage e)).held = false)
    (ht : rf s.dev (Rg.OE_LI_SHARE e) Fl.OE_LI_SHARE_ROTATE_HOURS ≤ poweredHours s.dev e) :
    Machine.exec (.liRotate e) s = .next { s with
      dev := modEngine s.dev e (fun x => { x with major := !x.major, hours := 0, since := s.dev.life.powered }) } := by
  show execLiRotate e s = _
  simp only [execLiRotate, State.onDev, hen, h0, h1, hh, ht, beq_self_eq_true, Bool.not_false, Bool.and_self, decide_true, if_true]

theorem exec_liRotate_off {e : Engine} (hen : rb s.dev (Rg.OE_CTRL e) Fl.OE_CTRL_ROTATE_EN = false) : Machine.exec (.liRotate e) s = .next s := by
  show execLiRotate e s = _
  simp only [execLiRotate, State.onDev, hen, Bool.false_and, Bool.false_eq_true, if_false]

theorem exec_li0Restore {e : Engine} {m : Master} (h : Admits s.dev (Rg.pageOf (Rg.OE_CTRL e)) m) :
    Machine.exec (.li0Restore e m) s = .next { s with dev := restoreChan s.dev (laserChan e 0) } := by
  show execLi0Restore e m s = _
  simp only [execLi0Restore, State.onDev, guardWrite_ok h]
theorem exec_li1Restore {e : Engine} {m : Master} (h : Admits s.dev (Rg.pageOf (Rg.OE_CTRL e)) m) :
    Machine.exec (.li1Restore e m) s = .next { s with dev := restoreChan s.dev (laserChan e 1) } := by
  show execLi1Restore e m s = _
  simp only [execLi1Restore, State.onDev, guardWrite_ok h]

theorem restoreChan_other (h : (chan d k).state ≠ 3) : restoreChan d k = d := by simp [restoreChan, h]

/-- RESTORE takes a RETIRED laser input to SHADOW, whose time begins (R63). -/
theorem restoreChan_laser (hty : chTy k = 5) (h : (chan d k).state = 3) :
    (chan (restoreChan d k) k).state = 2 ∧ (laser (restoreChan d k) (chUnit k) (chElem k)).shadow = some (nowNs d) := by
  have hr : restoreChan d k = modLaser (modChan (setState d k 2) k (fun c => { c with start := nowNs d })) (chUnit k) (chElem k)
      (fun x => { x with shadow := some (nowNs (setState d k 2)) }) := by
    simp [restoreChan, h, hty]
    rfl
  rw [hr, laser_modLaser_same, nowNs_setState]
  refine ⟨?_, rfl⟩
  show (chan (modChan (setState d k 2) k (fun c => { c with start := nowNs d })) k).state = 2
  rw [chan_modChan_same, chan_setState, if_pos rfl]

end Sys2Proof.Machine
end

section
/-!
The interlock (R65, R416), and O31.
-/

namespace Sys2Proof.Machine
open Sys2Proof Sys2Proof.Terms

variable {d e : Dev} {s : State}

/-- The line side and every register are as before. -/
def SameLine (d e : Dev) : Prop := e.line = d.line ∧ e.regs = d.regs

theorem SameLine.trans {f : Dev} (w : SameLine d e) (g : SameLine e f) : SameLine d f := ⟨g.1.trans w.1, g.2.trans w.2⟩
theorem SameLine.raise (w : SameLine d e) (p n : Nat) : SameLine d (raise e p n) := ⟨(line_raise ..).trans w.1, (regs_raise ..).trans w.2⟩
theorem SameLine.bump (w : SameLine d e) (a n : Nat) : SameLine d (bump e a n) := w
theorem sameLine_emit (d : Dev) (o : Out) : SameLine d (emit d o) := ⟨rfl, rfl⟩
theorem SameLine.foldl {β : Type} (f : Dev → β → Dev) (hf : ∀ e x, SameLine e (f e x)) (l : List β) (d : Dev) : SameLine d (l.foldl f d) := by
  induction l generalizing d with
  | nil => exact ⟨rfl, rfl⟩
  | cons x l ih => exact (hf d x).trans (ih _)

theorem sameLine_interlockEvents (d : Dev) : SameLine d (interlockEvents d) :=
  SameLine.foldl _ (fun _ _ => SameLine.raise ⟨rfl, rfl⟩ _ _) _ d
theorem sameLine_sourceWrite (d : Dev) (i : Nat) (on ack : Bool) : SameLine d (sourceWrite d i on ack) := by
  unfold sourceWrite
  dsimp only
  split
  · exact ⟨rfl, rfl⟩
  split
  · split
    · exact ⟨rfl, rfl⟩
    · exact ⟨rfl, rfl⟩
  · exact ((SameLine.foldl _ (fun e _ => sameLine_emit e _) (List.range 4) d).bump _ _).raise _ _
theorem sameLine_sourcesSet (d : Dev) (l : List Nat) (on : Bool) (nack : W32) : SameLine d (sourcesSet d l on nack) :=
  SameLine.foldl _ (fun e i => sameLine_sourceWrite e i on _) l d

/-- Whether a lane emits is decided by the line side and registers. -/
theorem SameLine.laneLit (w : SameLine d e) (l : Nat) : laneLit e l = laneLit d l := by
  obtain ⟨hl, hr⟩ := w
  have hrd := rd_congr hr
  simp only [Machine.laneLit, lanePort, quadMode, portEnabled, coasting, rb, rf, hrd, hl, engine_congr (congrArg Line.engines hl),
    lane_congr (congrArg Line.lanes hl)]
theorem laneLit_of_permit (h : d.line.permit = false) (l : Nat) : laneLit d l = false := by simp [laneLit, h]

theorem exec_interlockHigh {nack : W32} (h : s.dev.line.permit = true) : ∃ f, Machine.exec (.interlockHigh nack) s = .next { s with dev := f } ∧
    f.line.permit = false := by
  refine ⟨sourcesSet (interlockEvents (loseLock { s.dev with line := { s.dev.line with permit := false } } (List.range 256)))
    (List.range 32) false nack, ?_, ?_⟩
  · show execInterlockHigh nack s = _
    simp only [execInterlockHigh, State.onDev, h, Bool.not_true, Bool.false_eq_true, if_false]
  · rw [((sameLine_interlockEvents _).trans (sameLine_sourcesSet _ _ _ _)).1, (loseLock_work _ _).permit]

theorem exec_interlockHigh_open {nack : W32} (h : s.dev.line.permit = false) : Machine.exec (.interlockHigh nack) s = .next s := by
  show execInterlockHigh nack s = _
  simp only [execInterlockHigh, State.onDev, h, Bool.not_false, if_true]

theorem exec_interlockLow {nack : W32} (h : s.dev.line.permit = false) : ∃ f, Machine.exec (.interlockLow nack) s = .next { s with dev := f } ∧
    SameLine { s.dev with line := { s.dev.line with permit := true } } f := by
  refine ⟨_, ?_, (sameLine_interlockEvents _).trans (sameLine_sourcesSet _ ((List.range 32).filter
    (slotReady { s.dev with line := { s.dev.line with permit := true } })) true nack)⟩
  show execInterlockLow nack s = _
  simp only [execInterlockLow, State.onDev, h, Bool.false_eq_true, if_false]

theorem exec_interlockLow_closed {nack : W32} (h : s.dev.line.permit = true) : Machine.exec (.interlockLow nack) s = .next s := by
  show execInterlockLow nack s = _
  simp only [execInterlockLow, State.onDev, h, if_true]

/-- Settles O31: each clause is the rule of its command. -/
theorem laserInputsFollowTheirLight : Obligations.LaserInputsFollowTheirLight := by
  unfold Obligations.LaserInputsFollowTheirLight
  intro s e
  dsimp only
  refine ⟨fun p0 p1 hc hs0 hs1 h0 h1 => ?_, fun i p hc hs hd hb hp ho => ?_, fun i hs ht => ?_, fun i hs ht hw hh => ?_,
    fun i hs hl => exec_liRecover_good hs hl, fun hen h0 h1 hh ht => ?_, exec_liRotate_off, fun m hm => ⟨fun h => ?_, fun h => ?_, fun h => ?_, fun h => ?_⟩,
    fun nack => ⟨fun h => ?_, fun h => ?_, exec_interlockLow_closed, exec_interlockHigh_open⟩⟩
  · obtain ⟨f, hw, hpw0, hrun0, hpw1, hrun1, hu⟩ := exec_liMeasure_lit hc hs0 hs1 h0 h1
    refine ⟨_, hu, ?_, rd_wr_same .., fun a ha => (rd_wr_ne _ _ ha).trans (rd_congr hw.regs a), ?_⟩
    · obtain ⟨l, p, i, k, rfl⟩ := hw
      exact ⟨_, _, _, _, _, _, _, rfl⟩
    · rw [laser_wr, laser_wr, line_wr]
      exact ⟨hpw0, hrun0, hpw1, hrun1, hw.ports, hw.lanes⟩
  · obtain ⟨m, f, hw, hpw, hf, hu⟩ := exec_liSwitchover hs hd hb hp ho
    refine ⟨f, hu, ?_, (hf.power _).trans hpw, ?_, hf.ports.trans hw.ports, hf.draw⟩
    · rw [hf.todo, hw.ras, hc.1]
      rfl
    · rw [hf.count, ctr_congr hw.ctrs]
  · obtain ⟨f, hu, hst, hcount, hdark, hdraw⟩ := exec_liRecover_suspect hs (lasted_of ht)
    exact ⟨_, hu, ⟨rfl, rfl⟩, hst, hcount, hdark, hdraw⟩
  · exact exec_liRecover_shadow hs (lasted_of ht) hw hh
  · refine ⟨_, _, exec_liRotate_due hen h0 h1 hh ht, rfl, engine_modEngine_same .., fun y hy => ?_⟩
    rw [engine_modEngine, if_neg hy]
  · obtain ⟨hty, hun, hel⟩ := laserChan_fields e 0
    obtain ⟨hst, hsh⟩ := restoreChan_laser hty h
    exact ⟨_, exec_li0Restore hm, hst, by rwa [hun, hel] at hsh⟩
  · obtain ⟨hty, hun, hel⟩ := laserChan_fields e 1
    obtain ⟨hst, hsh⟩ := restoreChan_laser hty h
    exact ⟨_, exec_li1Restore hm, hst, by rwa [hun, hel] at hsh⟩
  · rw [exec_li0Restore hm, restoreChan_other h]
  · rw [exec_li1Restore hm, restoreChan_other h]
  · obtain ⟨f, hf, hp⟩ := exec_interlockHigh (nack := nack) h
    exact ⟨_, hf, ⟨rfl, rfl⟩, hp, laneLit_of_permit hp⟩
  · obtain ⟨f, hf, hw⟩ := exec_interlockLow (nack := nack) h
    exact ⟨_, hf, ⟨rfl, rfl⟩, by rw [hw.1], by rw [hw.1], fun l => hw.laneLit l⟩

end Sys2Proof.Machine
end

section
/-!
The state of a port (R57, R70, R72): UP as its locks and faults judge it, the loss of a lane's lock, openings.
-/

namespace Sys2Proof.Machine
open Sys2Proof Sys2Proof.Terms

variable {d e : Dev} {s : State} {p j : Nat}

theorem length_portLanes (d : Dev) (p : Nat) : (portLanes d p).length = modeLanes (quadMode d (p / 4)) := by simp [portLanes]

/-- UP as the locks and faults of the port say (R70). -/
def judgedUp (d : Dev) (p : Nat) : Bool :=
  portBegins d p && portEnabled d p && (port d p).locks &&& (2 ^ (portLanes d p).length - 1) == 2 ^ (portLanes d p).length - 1 &&
    !(port d p).lfault && !(port d p).rfault && !coasting d

/-- The port with UP as judged. -/
def judged (d : Dev) (p : Nat) : Dev := modPort d p (fun x => { x with up := judgedUp d p, opened := x.opened && judgedUp d p })

theorem judgePort_eq (d : Dev) (p : Nat) : judgePort d p = if judgedUp d p == (port d p).up then d
    else if judgedUp d p then raise (judged d p) (quadPage (p / 4)) 0
    else flushPort (bump (raise (judged d p) (quadPage (p / 4)) 0) (Rg.LINK_DOWN (p / 4) (p % 4)) 1) p := rfl

theorem line_judgePort (h : judgedUp d p ≠ (port d p).up) : (judgePort d p).line = (judged d p).line := by
  rw [judgePort_eq, if_neg (beq_iff_eq.not.mpr h)]
  split
  · exact line_raise ..
  · rw [(flushPort_work _ p).line, line_bump, line_raise]

theorem port_judgePort (d : Dev) (p : Nat) : port (judgePort d p) p = { port d p with
    up := judgedUp d p, opened := if judgedUp d p = (port d p).up then (port d p).opened else (port d p).opened && judgedUp d p } := by
  by_cases h : judgedUp d p = (port d p).up
  · rw [judgePort_eq, if_pos (beq_iff_eq.mpr h), if_pos h, h]
  · rw [port_congr (congrArg Line.ports (line_judgePort h)), judged, port_modPort_same, if_neg h]

/-- A port one of whose lanes has no lock is not UP. -/
theorem judgedUp_of_unlocked (hj : j < (portLanes d p).length) (h : (port d p).locks.testBit j = false) : judgedUp d p = false := by
  have hne : (port d p).locks &&& (2 ^ (portLanes d p).length - 1) ≠ 2 ^ (portLanes d p).length - 1 := by
    intro he
    have hbit := congrArg (Nat.testBit · j) he
    simp only [Nat.testBit_and, Nat.testBit_two_pow_sub_one, hj, h, decide_true, Bool.false_and] at hbit
    exact absurd hbit (by decide)
  unfold judgedUp
  simp only [beq_eq_false_iff_ne.mpr hne, Bool.and_false, Bool.false_and]

/-- A lane is one of the lanes of its port. -/
theorem lanePort_spec (d : Dev) (l : Nat) : l - lanePort d l < (portLanes d (lanePort d l)).length := by
  have hm : modeLanes (quadMode d (l / 4)) = 1 ∨ modeLanes (quadMode d (l / 4)) = 2 ∨ modeLanes (quadMode d (l / 4)) = 4 := by
    unfold modeLanes
    split <;> simp
  have hq : lanePort d l / 4 = l / 4 := by
    unfold lanePort
    rcases hm with h | h | h
    · rw [h]; omega
    · rw [h]; omega
    · rw [h]; omega
  rw [length_portLanes, hq]
  unfold lanePort
  rcases hm with h | h | h
  · rw [h]; omega
  · rw [h]; omega
  · rw [h]; omega

theorem regs_signalFault (d : Dev) (p : Nat) (on : Bool) : (signalFault d p on).regs = d.regs := by unfold signalFault; split <;> rfl
theorem port_signalFault (d : Dev) (p : Nat) (on : Bool) : port (signalFault d p on) p = { port d p with rfSent := on } := by
  unfold signalFault
  split
  next h => rw [← beq_iff_eq.mp h]
  · exact port_modPort_same ..

/-- The port of the lane signals remote fault where it had lock and emits light (R70). -/
def signalled (d : Dev) (l : Nat) : Dev :=
  let p := lanePort d l
  if (port d p).locks &&& (2 ^ (portLanes d p).length - 1) == 2 ^ (portLanes d p).length - 1 && portLit d p then signalFault d p true else d
/-- The lane's lock is gone, and its port must open again. -/
def cleared (d : Dev) (l : Nat) : Dev :=
  modPort (signalled d l) (lanePort d l) (fun s => { s with locks := clrBit s.locks (l - lanePort d l), opened := false })
/-- The loss is counted (R84). -/
def unlocked (d : Dev) (l : Nat) : Dev :=
  if (port d (lanePort d l)).locks.testBit (l - lanePort d l) then
    bump (bump (cleared d l) (Rg.LANE_LOCK_LOSS (l / 4) (l % 4)) 1) (Rg.PCS_LOCK_LOSS (lanePort d l / 4) (lanePort d l % 4)) 1
  else cleared d l

theorem loseLock_one (d : Dev) (l : Nat) : loseLock d [l] = judgePort (unlocked d l) (lanePort d l) := rfl

theorem unlocked_spec (d : Dev) (l : Nat) : (unlocked d l).regs = d.regs ∧
    (port (unlocked d l) (lanePort d l)).locks = clrBit (port d (lanePort d l)).locks (l - lanePort d l) ∧
    (port (unlocked d l) (lanePort d l)).opened = false := by
  have hsig : (signalled d l).regs = d.regs ∧ (port (signalled d l) (lanePort d l)).locks = (port d (lanePort d l)).locks := by
    unfold signalled
    dsimp only
    split
    · exact ⟨regs_signalFault .., by rw [port_signalFault]⟩
    · exact ⟨rfl, rfl⟩
  have hcl : (unlocked d l).regs = (cleared d l).regs ∧ (unlocked d l).line = (cleared d l).line := by
    unfold unlocked
    split
    · exact ⟨rfl, rfl⟩
    · exact ⟨rfl, rfl⟩
  rw [hcl.1, port_congr (congrArg Line.ports hcl.2), cleared, port_modPort_same, hsig.2]
  exact ⟨hsig.1, rfl, rfl⟩

/-- A lane loses its lock: its bit is clear, and its port is down and must open again (R66, R72). -/
theorem port_loseLock (d : Dev) (l : Nat) :
    (port (loseLock d [l]) (lanePort d l)).up = false ∧ (port (loseLock d [l]) (lanePort d l)).locks.testBit (l - lanePort d l) = false ∧
      (port (loseLock d [l]) (lanePort d l)).opened = false := by
  obtain ⟨hr, hlocks, hopen⟩ := unlocked_spec d l
  have hbit : (port (unlocked d l) (lanePort d l)).locks.testBit (l - lanePort d l) = false := by rw [hlocks, testBit_clrBit_same]
  have hlen : (portLanes (unlocked d l) (lanePort d l)).length = (portLanes d (lanePort d l)).length := by
    simp only [portLanes, quadMode, rf, rd_congr hr]
  have hup : judgedUp (unlocked d l) (lanePort d l) = false := judgedUp_of_unlocked (by rw [hlen]; exact lanePort_spec d l) hbit
  rw [loseLock_one, port_judgePort]
  exact ⟨hup, hbit, by simp [hopen]⟩

theorem exec_laneOverpower (l : Lane) : Machine.exec (.laneOverpower l) s = .next { s with
    dev := settle (noteFault (loseLock (modLane s.dev l (fun x => { x with dark := true })) [l.val]) (laneChan l) false) } := rfl

theorem exec_portOpen_opens {p : Port} (hb : portBegins s.dev p = true)
    (hl : (port s.dev p).locks &&& (2 ^ (portLanes s.dev p).length - 1) = 2 ^ (portLanes s.dev p).length - 1)
    (hq : quadHeld s.dev (p.val / 4) = false) (hz : s.dev.life.zopen.testBit (portZone p) = true) (hc : coasting s.dev = false) :
    Machine.exec (.portOpen p) s = .next { s with
      dev := modPort s.dev p (fun x => { x with opened := true, blocked := twinBlocks s.dev && dualPort s.dev p }) } := by
  show execPortOpen p s = _
  simp only [execPortOpen, State.onDev, hb, hl, hq, hz, hc, beq_self_eq_true, Bool.not_false, Bool.and_self, if_true]

theorem exec_portOpen_shut {p : Port} (hz : s.dev.life.zopen.testBit (portZone p) = false) : Machine.exec (.portOpen p) s = .next s := by
  show execPortOpen p s = _
  simp only [execPortOpen, State.onDev, hz, Bool.and_false, Bool.false_and, Bool.false_eq_true, if_false]

/-! ## Changes of lock (R70, R382) -/

/-- Lanes of the port that have lock and may have it. -/
def newLocks (d : Dev) (p locks : Nat) : Nat :=
  ofBits ((List.range (portLanes d p).length).filter (fun i => locks.testBit (p % 4 + i) && laneMayLock d (p + i)))

/-- A port all of whose lanes have lock signals no fault (R70). -/
def unsignalled (d : Dev) (p new : Nat) : Dev := if new == 2 ^ (portLanes d p).length - 1 then signalFault d p false else d
/-- The port with its new locks and faults, before UP is judged. -/
def relocked (d : Dev) (p new : Nat) (lf rmf : Bool) : Dev :=
  modPort (unsignalled d p new) p (fun x => { x with locks := new, lfault := lf, rfault := rmf })

/-- No lane that had lock loses it. -/
theorem exec_linkChange {p : Port} {locks : BitVec 4} {lf rmf : Bool} (hb : portBegins s.dev p = true)
    (h : ∀ i, i < (portLanes s.dev p).length → (port s.dev p).locks.testBit i = true → (newLocks s.dev p locks.toNat).testBit i = true) :
    Machine.exec (.linkChange p locks lf rmf) s = .next { s with
      dev := settle (judgePort (relocked s.dev p (newLocks s.dev p locks.toNat) lf rmf) p) } := by
  have hlost : (List.range (portLanes s.dev p).length).filter
      (fun i => (port s.dev p).locks.testBit i && !(newLocks s.dev p locks.toNat).testBit i) = [] := by
    rw [List.filter_eq_nil_iff]
    intro i hi
    cases hold : (port s.dev p).locks.testBit i with
    | false => simp
    | true => simp [h i (List.mem_range.mp hi) hold]
  show execLinkChange p locks lf rmf s = _
  unfold newLocks at hlost
  simp only [execLinkChange, State.onDevF, State.onDev, hb, Bool.not_true, Bool.false_eq_true, if_false, hlost]
  rfl

theorem relocked_spec (d : Dev) (p new : Nat) (lf rmf : Bool) : (relocked d p new lf rmf).regs = d.regs ∧
    (port (relocked d p new lf rmf) p).locks = new ∧ (port (relocked d p new lf rmf) p).lfault = lf ∧
    (port (relocked d p new lf rmf) p).rfault = rmf ∧ PortWork d (relocked d p new lf rmf) := by
  have hu : (unsignalled d p new).regs = d.regs ∧ PortWork d (unsignalled d p new) := by
    unfold unsignalled
    split
    · exact ⟨regs_signalFault .., (PortWork.refl d).signalFault _ _⟩
    · exact ⟨rfl, .refl d⟩
  unfold relocked
  rw [port_modPort_same]
  exact ⟨hu.1, rfl, rfl, rfl, hu.2.modPort _ _⟩

theorem judgedUp_relocked (hb : portBegins d p = true) (new : Nat) (lf rmf : Bool) : judgedUp (relocked d p new lf rmf) p =
    (portEnabled d p && decide (new &&& (2 ^ (portLanes d p).length - 1) = 2 ^ (portLanes d p).length - 1) && !lf && !rmf && !coasting d) := by
  obtain ⟨hr, hlocks, hlf, hrf, -⟩ := relocked_spec d p new lf rmf
  have hrd := rd_congr hr
  have hbegins : portBegins (relocked d p new lf rmf) p = true := by
    rw [← hb]
    simp only [portBegins, quadMode, rf, hrd]
  have hlanes : portLanes (relocked d p new lf rmf) p = portLanes d p := by simp only [portLanes, quadMode, rf, hrd]
  have hen : portEnabled (relocked d p new lf rmf) p = portEnabled d p := by simp only [portEnabled, rf, hrd]
  have hco : coasting (relocked d p new lf rmf) = coasting d := by simp only [coasting, rb, rf, hrd]
  rw [judgedUp, hbegins, hlanes, hen, hco, hlocks, hlf, hrf, Bool.true_and]
  rfl

end Sys2Proof.Machine
end

section
/-!
Heater retunes (R67, R68), codewords (R69, R84), and O32.
-/

namespace Sys2Proof.Machine
open Sys2Proof Sys2Proof.Terms

variable {d e : Dev} {s : State} {p : Nat}

/-! ## Heaters -/

@[simp] theorem tel_bump (d : Dev) (a n : Nat) : (bump d a n).tel = d.tel := rfl

/-- The heater is set, and a retune outside its window counts. -/
def retuned (d : Dev) (l heater : Nat) (inWindow : Bool) : Dev :=
  let e := wf d (Rg.OE_LANE_RING (l / 16) (l % 16)) Fl.OE_LANE_RING_HEATER (min 4095 heater)
  if inWindow then e else raise (bump e (Rg.OE_CAL_MISS_CNT (l / 16)) 1) (oePage (l / 16)) 3

theorem sameWork_retuned (d : Dev) (l heater : Nat) (inWindow : Bool) : SameWork d (retuned d l heater inWindow) :=
  have hw := (SameWork.refl d).wf (Rg.OE_LANE_RING (l / 16) (l % 16)) Fl.OE_LANE_RING_HEATER (min 4095 heater)
  .ite _ hw ((hw.bump _ _).raise _ _)
theorem tel_retuned (d : Dev) (l heater : Nat) (inWindow : Bool) : (retuned d l heater inWindow).tel = d.tel := by
  unfold retuned
  dsimp only
  split
  · exact tel_wf ..
  · rw [tel_raise, tel_bump, tel_wf]

theorem calm_retuned (hc : Calm d) (l heater : Nat) (inWindow : Bool) : Calm (retuned d l heater inWindow) :=
  ⟨by rw [(sameWork_retuned ..).ras]; exact hc.1, by rw [tel_retuned]; exact hc.2⟩
theorem calm_modLane (hc : Calm d) (l : Nat) (f : LaneSt → LaneSt) : Calm (modLane d l f) := hc

theorem rf_retuned (d : Dev) (l heater : Nat) (inWindow : Bool) :
    rf (retuned d l heater inWindow) (Rg.OE_LANE_RING (l / 16) (l % 16)) Fl.OE_LANE_RING_HEATER = min 4095 heater := by
  have hwf : rf (wf d (Rg.OE_LANE_RING (l / 16) (l % 16)) Fl.OE_LANE_RING_HEATER (min 4095 heater)) (Rg.OE_LANE_RING (l / 16) (l % 16))
      Fl.OE_LANE_RING_HEATER = min 4095 heater := by
    rw [rf_wf_same _ _ _ (by decide)]
    exact Nat.mod_eq_of_lt (show min 4095 heater < 4096 by omega)
  unfold retuned
  dsimp only
  split
  · exact hwf
  · rwa [rf_congr (rd_raise ..), rf_congr (rd_bump ..)]

theorem ctr_retuned (d : Dev) (l heater : Nat) (inWindow : Bool) :
    ctr (retuned d l heater inWindow) (Rg.OE_CAL_MISS_CNT (l / 16)) = ctr d (Rg.OE_CAL_MISS_CNT (l / 16)) + (if inWindow then 0 else 1) := by
  unfold retuned
  dsimp only
  split
  · rw [ctr_wf]; exact (BitVec.add_zero _).symm
  · rw [ctr_raise, ctr_bump_same, ctr_wf]; rfl

theorem exec_heaterRetune_locked (l : Lane) (h : Nat) (win : Bool) : Machine.exec (.heaterRetune l h win true) s = .next { s with
    dev := settle (modLane (retuned s.dev l h win) l (fun x => { x with ring := true })) } := by
  show execHeaterRetune l h win true s = _
  simp only [execHeaterRetune, State.onDevF, State.onDev, Bool.not_true, Bool.and_false, Bool.false_eq_true, if_false]
  rfl

theorem exec_heaterRetune_lost (l : Lane) (h : Nat) (win : Bool) (hr : (lane s.dev l).ring = true) :
    Machine.exec (.heaterRetune l h win false) s = .next { s with
      dev := settle (modLane (noteFault (retuned s.dev l h win) (laneChan l) false) l (fun x => { x with ring := false })) } := by
  have hring : ((lane (retuned s.dev l h win) l).ring && !false) = true := by
    rw [lane_congr (congrArg Line.lanes (sameWork_retuned ..).line), hr]
    rfl
  show State.onDevF s (fun d => modLane (if (lane (retuned d l h win) l).ring && !false then noteFault (retuned d l h win) (laneChan l) false
    else retuned d l h win) l (fun x => { x with ring := false })) = _
  simp only [State.onDevF, State.onDev, if_pos hring]

/-! ## Counters counted one after another -/

theorem regs_foldl_bump (f g : Nat → Nat) (l : List Nat) (d : Dev) : (l.foldl (fun d i => bump d (f i) (g i)) d).regs = d.regs := by
  induction l generalizing d with
  | nil => rfl
  | cons i l ih => rw [List.foldl_cons, ih]; rfl
theorem ctr_foldl_bump_ne (f g : Nat → Nat) (l : List Nat) (d : Dev) {b : Nat} (h : ∀ i ∈ l, b ≠ f i) :
    ctr (l.foldl (fun d i => bump d (f i) (g i)) d) b = ctr d b := by
  induction l generalizing d with
  | nil => rfl
  | cons i l ih => rw [List.foldl_cons, ih _ fun j hj => h j (List.mem_cons_of_mem _ hj), ctr_bump_ne _ _ (h i List.mem_cons_self)]

/-! ## Codewords (R69) -/

/-- Symbol errors of a codeword over the lanes of its port. -/
def symErrs (d : Dev) (p : Nat) (errs : List Nat) : Nat := (errs.take (portLanes d p).length).foldl (· + ·) 0

/-- A codeword and its marker errors are counted. -/
def codeword (d : Dev) (p am : Nat) : Dev := bump (bump d (Rg.FEC_CW (p / 4) (p % 4)) 1) (Rg.PCS_AM_ERR (p / 4) (p % 4)) am
/-- The symbols corrected on each lane are counted. -/
def corrected (d : Dev) (p lanes : Nat) (errs : List Nat) : Dev :=
  (List.range lanes).foldl (fun d i => bump d (Rg.FEC_SYM_CORR (p / 4) ((p % 4 + i) % 4)) (errs.getD i 0)) d

theorem exec_fecCodeword_none {p : Port} {w : Codeword} (hb : portBegins s.dev p = false) : Machine.exec (.fecCodeword p w) s = .next s := by
  show execFecCodeword p w s = _
  simp only [execFecCodeword, State.onDev, hb, Bool.not_false, if_true]
theorem exec_fecCodeword_good {p : Port} {errs : List Nat} {am : Nat} (hb : portBegins s.dev p = true) (hn : symErrs s.dev p errs ≤ 15) :
    Machine.exec (.fecCodeword p ⟨errs, am⟩) s = .next { s with
      dev := corrected (bump (codeword s.dev p am) (Rg.FEC_BIN (p / 4) (p % 4) (symErrs s.dev p errs)) 1) p (portLanes s.dev p).length errs } := by
  show execFecCodeword p ⟨errs, am⟩ s = _
  unfold symErrs at hn
  simp only [execFecCodeword, State.onDev, hb, Bool.not_true, Bool.false_eq_true, if_false, if_pos hn]
  rfl
theorem exec_fecCodeword_bad {p : Port} {errs : List Nat} {am : Nat} (hb : portBegins s.dev p = true) (hn : 15 < symErrs s.dev p errs) :
    Machine.exec (.fecCodeword p ⟨errs, am⟩) s = .next { s with
      dev := raise (bump (codeword s.dev p am) (Rg.FEC_CW_UNCORR (p / 4) (p % 4)) 1) (quadPage (p / 4)) 1 } := by
  show execFecCodeword p ⟨errs, am⟩ s = _
  unfold symErrs at hn
  simp only [execFecCodeword, State.onDev, hb, Bool.not_true, Bool.false_eq_true, if_false, if_neg (Nat.not_le.mpr hn)]
  rfl

/-- The counters of one port's codewords lie apart. -/
theorem fec_counters {q k b : Nat} (hb : b ≤ 15) :
    Rg.FEC_CW q k ≠ Rg.PCS_AM_ERR q k ∧ Rg.FEC_BIN q k b ≠ Rg.FEC_CW q k ∧ Rg.FEC_BIN q k b ≠ Rg.PCS_AM_ERR q k ∧
      Rg.FEC_BIN q k b ≠ Rg.FEC_CW_UNCORR q k ∧ Rg.FEC_CW_UNCORR q k ≠ Rg.FEC_CW q k ∧ Rg.FEC_CW_UNCORR q k ≠ Rg.PCS_AM_ERR q k := by
  unfold Rg.FEC_CW Rg.PCS_AM_ERR Rg.FEC_BIN Rg.FEC_CW_UNCORR
  omega
theorem fec_symCorr_apart {q k i b : Nat} (hk : k < 4) (hb : b ≤ 15) :
    Rg.FEC_CW q k ≠ Rg.FEC_SYM_CORR q i ∧ Rg.PCS_AM_ERR q k ≠ Rg.FEC_SYM_CORR q i ∧ Rg.FEC_BIN q k b ≠ Rg.FEC_SYM_CORR q i ∧
      Rg.FEC_CW_UNCORR q k ≠ Rg.FEC_SYM_CORR q i := by
  unfold Rg.FEC_CW Rg.PCS_AM_ERR Rg.FEC_BIN Rg.FEC_CW_UNCORR Rg.FEC_SYM_CORR
  omega
theorem fec_bin_eq {q k b n : Nat} : Rg.FEC_BIN q k b = Rg.FEC_BIN q k n ↔ b = n := by
  unfold Rg.FEC_BIN
  omega

/-- What the counters of a port and the registers become at a codeword with `n` symbol errors (R69, R84). -/
structure CodewordCounted (p am n : Nat) (d e : Dev) : Prop where
  regs : e.regs = d.regs
  all : ctr e (Rg.FEC_CW (p / 4) (p % 4)) = ctr d (Rg.FEC_CW (p / 4) (p % 4)) + 1
  markers : ctr e (Rg.PCS_AM_ERR (p / 4) (p % 4)) = ctr d (Rg.PCS_AM_ERR (p / 4) (p % 4)) + BitVec.ofNat 64 am
  bins : ∀ b, b ≤ 15 → ctr e (Rg.FEC_BIN (p / 4) (p % 4) b) = ctr d (Rg.FEC_BIN (p / 4) (p % 4) b) + (if b = n then 1 else 0)
  uncorr : ctr e (Rg.FEC_CW_UNCORR (p / 4) (p % 4)) = ctr d (Rg.FEC_CW_UNCORR (p / 4) (p % 4)) + (if 15 < n then 1 else 0)

theorem codewordCounted_good {n : Nat} (hn : n ≤ 15) (d : Dev) (p am lanes : Nat) (errs : List Nat) :
    CodewordCounted p am n d (corrected (bump (codeword d p am) (Rg.FEC_BIN (p / 4) (p % 4) n) 1) p lanes errs) := by
  have hk : p % 4 < 4 := Nat.mod_lt _ (by decide)
  have hfold {b : Nat} (h : ∀ i, b ≠ Rg.FEC_SYM_CORR (p / 4) i) (e : Dev) : ctr (corrected e p lanes errs) b = ctr e b :=
    ctr_foldl_bump_ne _ _ _ _ fun i _ => h _
  obtain ⟨hca, hbc, hba, hbu, huc, hua⟩ := fec_counters (q := p / 4) (k := p % 4) hn
  refine ⟨regs_foldl_bump .., ?_, ?_, fun b hb => ?_, ?_⟩
  · rw [hfold fun i => (fec_symCorr_apart hk hn).1, ctr_bump_ne _ _ hbc.symm, codeword, ctr_bump_ne _ _ hca, ctr_bump_same]
    rfl
  · rw [hfold fun i => (fec_symCorr_apart hk hn).2.1, ctr_bump_ne _ _ hba.symm, codeword, ctr_bump_same, ctr_bump_ne _ _ hca.symm]
  · obtain ⟨-, hbc', hba', -⟩ := fec_counters (q := p / 4) (k := p % 4) hb
    rw [hfold fun i => (fec_symCorr_apart hk hb).2.2.1]
    have hcode : ctr (codeword d p am) (Rg.FEC_BIN (p / 4) (p % 4) b) = ctr d (Rg.FEC_BIN (p / 4) (p % 4) b) := by
      rw [codeword, ctr_bump_ne _ _ hba', ctr_bump_ne _ _ hbc']
    by_cases hbn : b = n
    · rw [if_pos hbn, ← hbn, ctr_bump_same, hcode]
      rfl
    · rw [if_neg hbn, ctr_bump_ne _ _ (mt fec_bin_eq.mp hbn), hcode]
      exact (BitVec.add_zero _).symm
  · rw [hfold fun i => (fec_symCorr_apart hk hn).2.2.2, ctr_bump_ne _ _ hbu.symm, codeword, ctr_bump_ne _ _ hua, ctr_bump_ne _ _ huc,
      if_neg (Nat.not_lt.mpr hn)]
    exact (BitVec.add_zero _).symm

theorem codewordCounted_bad {n : Nat} (hn : 15 < n) (d : Dev) (p am : Nat) :
    CodewordCounted p am n d (raise (bump (codeword d p am) (Rg.FEC_CW_UNCORR (p / 4) (p % 4)) 1) (quadPage (p / 4)) 1) := by
  obtain ⟨hca, -, -, -, huc, hua⟩ := fec_counters (q := p / 4) (k := p % 4) (Nat.zero_le 15)
  refine ⟨?_, ?_, ?_, fun b hb => ?_, ?_⟩
  · rw [regs_raise]
    rfl
  · rw [ctr_raise, ctr_bump_ne _ _ huc.symm, codeword, ctr_bump_ne _ _ hca, ctr_bump_same]
    rfl
  · rw [ctr_raise, ctr_bump_ne _ _ hua.symm, codeword, ctr_bump_same, ctr_bump_ne _ _ hca.symm]
  · obtain ⟨-, hbc, hba, hbu, -, -⟩ := fec_counters (q := p / 4) (k := p % 4) hb
    rw [ctr_raise, ctr_bump_ne _ _ hbu, codeword, ctr_bump_ne _ _ hba, ctr_bump_ne _ _ hbc, if_neg (by omega)]
    exact (BitVec.add_zero _).symm
  · rw [ctr_raise, ctr_bump_same, codeword, ctr_bump_ne _ _ hua, ctr_bump_ne _ _ huc, if_pos hn]
    rfl

theorem exec_fecCodeword {p : Port} {errs : List Nat} {am : Nat} (hb : portBegins s.dev p = true) :
    ∃ f, Machine.exec (.fecCodeword p ⟨errs, am⟩) s = .next { s with dev := f } ∧ CodewordCounted p am (symErrs s.dev p errs) s.dev f := by
  rcases Nat.lt_or_ge 15 (symErrs s.dev p errs) with hn | hn
  · exact ⟨_, exec_fecCodeword_bad hb hn, codewordCounted_bad hn ..⟩
  · exact ⟨_, exec_fecCodeword_good hb hn, codewordCounted_good hn ..⟩

/-! ## The statement -/

/-- Settles O32: each clause is the rule of its command. -/
theorem lanesAndPortsFollowTheirLocks : Obligations.LanesAndPortsFollowTheirLocks := by
  unfold Obligations.LanesAndPortsFollowTheirLocks
  intro s hc
  refine ⟨fun l => ?_, fun l h win => ?_, fun l h win hr => ?_, fun p errs am => ⟨exec_fecCodeword_none, fun hb => ?_⟩, fun p locks lf rmf hb hkeep => ?_,
    fun p hb hl hq hz hco => ⟨_, _, exec_portOpen_opens hb hl hq hz hco, rfl, port_modPort_same ..⟩, fun p => exec_portOpen_shut⟩
  · obtain ⟨hup, hlock, hopen⟩ := port_loseLock (modLane s.dev l (fun x => { x with dark := true })) l
    have hw := loseLock_work (modLane s.dev l (fun x => { x with dark := true })) [l.val]
    refine ⟨_, exec_laneOverpower l, ?_, ?_, hup, hlock, hopen⟩
    · show (loseLock _ _).ras.todo ++ _ = _
      rw [hw.ras]
      exact congrArg (· ++ [_]) hc.1
    · show (lane (loseLock _ _) _).dark = true
      rw [lane_congr hw.lanes, lane_modLane_same]
  · have hw := sameWork_retuned s.dev l h win
    have hcalm : Calm (modLane (retuned s.dev l h win) l (fun x => { x with ring := true })) := calm_modLane (calm_retuned hc ..) ..
    rw [exec_heaterRetune_locked, settle_of_calm hcalm]
    refine ⟨_, rfl, ?_, rf_retuned .., ?_, ctr_retuned ..⟩
    · obtain ⟨r, c, p, i, t, k, hs⟩ := hw
      exact ⟨_, r, c, p, i, k, t, by rw [hs]; rfl⟩
    · exact congrArg LaneSt.ring (lane_modLane_same ..)
  · refine ⟨_, exec_heaterRetune_lost l h win hr, ?_, congrArg LaneSt.ring (lane_modLane_same ..)⟩
    show (retuned _ _ _ _).ras.todo ++ _ = _
    rw [(sameWork_retuned ..).ras]
    exact congrArg (· ++ [_]) hc.1
  · obtain ⟨f, hu, hf⟩ := exec_fecCodeword (errs := errs) (am := am) hb
    exact ⟨_, hu, rd_congr hf.regs, hf.all, hf.markers, hf.bins, hf.uncorr⟩
  · obtain ⟨-, hlocks, hlf, hrf, hw⟩ := relocked_spec s.dev p (newLocks s.dev p locks.toNat) lf rmf
    have hj := hw.judgePort p
    have hline : (settle (judgePort (relocked s.dev p (newLocks s.dev p locks.toNat) lf rmf) p)).line =
        (judgePort (relocked s.dev p (newLocks s.dev p locks.toNat) lf rmf) p).line := (sameWork_settle (by rw [hj.ras]; exact hc.1)).line
    have hport := (port_congr (congrArg Line.ports hline) p).trans (port_judgePort ..)
    refine ⟨_, exec_linkChange hb hkeep, ⟨rfl, rfl⟩, ?_, ?_, ?_, ?_, ?_⟩
    · rw [hport]; exact hlocks
    · rw [hport]; exact hlf
    · rw [hport]; exact hrf
    · rw [hport]; exact judgedUp_relocked hb ..
    · rw [hline]; exact hj.lanes

end Sys2Proof.Machine
end

section
/-!
Received frames that are not admitted, and flow control received (R71, R73 to R76).
-/

namespace Sys2Proof.Machine
open Sys2Proof Sys2Proof.Terms

variable {d e : Dev} {s : State} {p : Port} {b : List Byte} {un : Bool} {sfd t : Nat}

/-! ## A fold of steps each of which has its own place -/

/-- What is seen at place `c` after a fold over places: what its own step makes of it. -/
theorem foldl_at {σ α : Type} {f : σ → Nat → σ} {obs : σ → α} {c : Nat} {new : α → α} (P : σ → Prop) (hkeep : ∀ x i, P x → P (f x i))
    (hself : ∀ x, P x → obs (f x c) = new (obs x)) (hother : ∀ x i, i ≠ c → obs (f x i) = obs x) {l : List Nat} (hl : l.Nodup) {x : σ} (hx : P x) :
    obs (l.foldl f x) = if c ∈ l then new (obs x) else obs x := by
  induction l generalizing x with
  | nil => simp
  | cons i l ih =>
    obtain ⟨hi, hl⟩ := List.nodup_cons.mp hl
    rw [List.foldl_cons, ih hl (hkeep x i hx)]
    by_cases hc : c = i
    · subst hc
      rw [if_neg hi, if_pos List.mem_cons_self, hself x hx]
    · rw [hother x i (Ne.symm hc)]
      simp [hc]

/-! ## Frames that only count (R71, R85) -/

/-- The port takes frames: it begins a port, is enabled and has its lanes. -/
def Takes (d : Dev) (p : Nat) : Prop := portBegins d p = true ∧ portEnabled d p = true ∧ portLocked d p = true

theorem exec_frameReceive_closed (h : portBegins s.dev p = false ∨ portEnabled s.dev p = false ∨ portLocked s.dev p = false) :
    Machine.exec (.frameReceive p b un sfd t) s = .next s := by
  have hno : (!portBegins s.dev p || !portEnabled s.dev p || !portLocked s.dev p) = true := by
    rcases h with h | h | h
    · simp [h]
    · simp [h]
    · simp [h]
  show execFrameReceive p b un sfd t s = _
  simp only [execFrameReceive, State.onDev, hno, if_true]

theorem exec_frameReceive_fcs (h : Takes s.dev p) (hbad : un = true ∨ fcsGood b = false) : Machine.exec (.frameReceive p b un sfd t) s = .next { s with
    dev := bump s.dev (Rg.RX_FCS_ERR (p.val / 4) (p.val % 4)) 1 } := by
  obtain ⟨h1, h2, h3⟩ := h
  have hno : (un || !fcsGood b) = true := by
    rcases hbad with h | h
    · simp [h]
    · simp [h]
  show execFrameReceive p b un sfd t s = _
  simp only [execFrameReceive, State.onDev, h1, h2, h3, Bool.not_true, Bool.or_self, Bool.false_eq_true, if_false, hno, if_true]

/-- A frame with a good FCS at a port that is not blocked. -/
structure Good (d : Dev) (p : Nat) (b : List Byte) : Prop where
  takes : Takes d p
  fcs : fcsGood b = true
  free : (port d p).blocked = false

/-- A good frame that is no MAC control frame is judged by its length, and then by its zone, its port and its quad. -/
theorem exec_frameReceive_data (h : Good s.dev p b) (hty : beAt b 12 2 ≠ 0x8808) : Machine.exec (.frameReceive p b false sfd t) s = .next { s with
    dev := if b.length < 64 then bump s.dev (Rg.RX_UNDERSIZE (p.val / 4) (p.val % 4)) 1
      else if rf s.dev (Rg.QUAD_MAX_FRAME (p.val / 4)) Fl.QUAD_MAX_FRAME_MAX_FRAME < b.length then bump s.dev (Rg.RX_OVERSIZE (p.val / 4) (p.val % 4)) 1
      else if startShut s.dev p then bump s.dev (Rg.START_DISCARD (p.val / 4) (p.val % 4)) 1
      else if quadHeld s.dev (p.val / 4) then bump s.dev (Rg.HELD_DISCARD (p.val / 4) (p.val % 4)) 1
      else
        let d := bump (bump s.dev (Rg.RX_FRAMES_OK (p.val / 4) (p.val % 4)) 1) (Rg.RX_OCTETS_OK (p.val / 4) (p.val % 4)) b.length
        (admitFrame d p b (rxStamp d p sfd)).1 } := by
  obtain ⟨⟨h1, h2, h3⟩, hfcs, hfree⟩ := h
  show execFrameReceive p b false sfd t s = _
  simp only [execFrameReceive, State.onDev, h1, h2, h3, hfcs, hfree, Bool.not_true, Bool.or_self, Bool.false_eq_true, if_false,
    beq_eq_false_iff_ne.mpr hty]

theorem exec_frameReceive_control (h : Good s.dev p b) (hty : beAt b 12 2 = 0x8808) (hs : startShut s.dev p = false)
    (hq : quadHeld s.dev (p.val / 4) = false) :
    Machine.exec (.frameReceive p b false sfd t) s = .next { s with dev := controlFrameIn s.dev p b t } := by
  obtain ⟨⟨h1, h2, h3⟩, hfcs, hfree⟩ := h
  show execFrameReceive p b false sfd t s = _
  simp only [execFrameReceive, State.onDev, h1, h2, h3, hfcs, hfree, Bool.not_true, Bool.or_self, Bool.false_eq_true, if_false, hty,
    beq_self_eq_true, if_true, hs, hq]

/-! ## Flow control received (R73, R74) -/

theorem pauseEnd_setPause (d : Dev) (p c x c' : Nat) : pauseEnd (setPause d p c x) p c' = if c' = c then x else pauseEnd d p c' := by
  simp only [pauseEnd, setPause, tget_tset, Nat.add_left_cancel_iff]

/-- One class of a PAUSE frame: its timer is set for `n` quanta from `x`, and XOFF is counted where they are not 0. -/
def pauseClass (p x n : Nat) (d : Dev) (c : Nat) : Dev :=
  pauseFor (if n == 0 then d else bump d (Rg.RX_XOFF (p / 4) (p % 4) c) 1) p c x n

theorem controlFrameIn_pause {p : Nat} (hop : beAt b 14 2 = 1) (hm : fcMode d p = 1) (ha : flowAddr d p b = true) :
    controlFrameIn d p b t = (List.range 8).foldl (pauseClass p (atConnector d p t) (beAt b 16 2)) (bump d (Rg.RX_PAUSE (p / 4) (p % 4)) 1) := by
  unfold controlFrameIn
  simp only [hop, hm, ha, beq_self_eq_true, Bool.and_self, if_true]
  rfl

theorem pauseClass_shape (p x n : Nat) (d : Dev) (c : Nat) : ∃ l, pauseClass p x n d c = { d with
    line := l, ctrs := (if n == 0 then d else bump d (Rg.RX_XOFF (p / 4) (p % 4) c) 1).ctrs } := by
  unfold pauseClass
  split
  · exact ⟨_, rfl⟩
  · exact ⟨_, rfl⟩

theorem regs_pauseClass (p x n : Nat) (d : Dev) (c : Nat) : (pauseClass p x n d c).regs = d.regs := by
  obtain ⟨l, h⟩ := pauseClass_shape p x n d c
  rw [h]
theorem adm_pauseClass (p x n : Nat) (d : Dev) (c : Nat) : (pauseClass p x n d c).adm = d.adm := by
  obtain ⟨l, h⟩ := pauseClass_shape p x n d c
  rw [h]
theorem ctr_pauseClass (p x n : Nat) (d : Dev) (c a : Nat) :
    ctr (pauseClass p x n d c) a = if a = Rg.RX_XOFF (p / 4) (p % 4) c then ctr d a + (if n = 0 then 0 else 1) else ctr d a := by
  obtain ⟨l, h⟩ := pauseClass_shape p x n d c
  have hc : (pauseClass p x n d c).ctrs = (if n == 0 then d else bump d (Rg.RX_XOFF (p / 4) (p % 4) c) 1).ctrs := by rw [h]
  rw [ctr_congr hc]
  by_cases hn : n = 0
  · rw [if_pos (beq_iff_eq.mpr hn), if_pos hn]
    split
    · exact (BitVec.add_zero _).symm
    · rfl
  · rw [if_neg (beq_iff_eq.not.mpr hn), ctr_bump, if_neg hn]
    split
    next ha => rw [ha]; rfl
    · rfl
theorem pauseEnd_pauseClass (p x n : Nat) (d : Dev) (c c' : Nat) :
    pauseEnd (pauseClass p x n d c) p c' = if c' = c then (if n = 0 then 0 else x + cdiv (quanta25 d p n) 25) else pauseEnd d p c' := by
  have hstep : ∀ e : Dev, e.regs = d.regs → pauseEnd e p c' = pauseEnd d p c' →
      pauseEnd (pauseFor e p c x n) p c' = if c' = c then (if n = 0 then 0 else x + cdiv (quanta25 d p n) 25) else pauseEnd d p c' := by
    intro e hr hp
    rw [pauseFor, pauseEnd_setPause, hp]
    simp only [beq_iff_eq, quanta25, portRate, quadMode, rf, rd_congr hr]
  unfold pauseClass
  split
  · exact hstep d rfl rfl
  · exact hstep (bump d _ 1) rfl rfl

theorem rx_xoff_eq {q k c c' : Nat} : Rg.RX_XOFF q k c = Rg.RX_XOFF q k c' ↔ c = c' := by
  unfold Rg.RX_XOFF
  omega
theorem rx_pause_apart (q k c : Nat) : Rg.RX_PAUSE q k ≠ Rg.RX_XOFF q k c := by
  unfold Rg.RX_PAUSE Rg.RX_XOFF
  omega

/-- What a PAUSE frame of `n` quanta leaves (R74). -/
structure PausedFor (p x n : Nat) (d e : Dev) : Prop where
  count : ctr e (Rg.RX_PAUSE (p / 4) (p % 4)) = ctr d (Rg.RX_PAUSE (p / 4) (p % 4)) + 1
  xoff : ∀ c, c < 8 → ctr e (Rg.RX_XOFF (p / 4) (p % 4) c) = ctr d (Rg.RX_XOFF (p / 4) (p % 4) c) + (if n = 0 then 0 else 1)
  timers : ∀ c, c < 8 → pauseEnd e p c = if n = 0 then 0 else x + cdiv (quanta25 d p n) 25
  adm : e.adm = d.adm

theorem pausedFor_foldl (p x n : Nat) (d : Dev) :
    PausedFor p x n d ((List.range 8).foldl (pauseClass p x n) (bump d (Rg.RX_PAUSE (p / 4) (p % 4)) 1)) := by
  have hdisj (c : Nat) := rx_pause_apart (p / 4) (p % 4) c
  refine ⟨?_, fun c hc => ?_, fun c hc => ?_, ?_⟩
  · refine List.foldlRecOn _ _ (motive := fun e => ctr e (Rg.RX_PAUSE (p / 4) (p % 4)) = ctr d (Rg.RX_PAUSE (p / 4) (p % 4)) + 1)
      (ctr_bump_same ..) fun e he c _ => ?_
    rw [ctr_pauseClass, if_neg (hdisj c), he]
  · rw [foldl_at (f := pauseClass p x n) (obs := fun e => ctr e (Rg.RX_XOFF (p / 4) (p % 4) c)) (c := c) (new := fun v => v + (if n = 0 then 0 else 1)) (fun _ => True)
      (fun _ _ _ => trivial) (fun e _ => by rw [ctr_pauseClass, if_pos rfl])
      (fun e i hi => by rw [ctr_pauseClass, if_neg (mt rx_xoff_eq.mp (Ne.symm hi))]) List.nodup_range trivial,
      if_pos (List.mem_range.mpr hc), ctr_bump_ne _ _ (hdisj c).symm]
  · have hq (e : Dev) (he : e.regs = d.regs) : quanta25 e p n = quanta25 d p n := by simp only [quanta25, portRate, quadMode, rf, rd_congr he]
    rw [foldl_at (f := pauseClass p x n) (obs := fun e => pauseEnd e p c) (c := c) (new := fun _ => if n = 0 then 0 else x + cdiv (quanta25 d p n) 25) (fun e => e.regs = d.regs)
      (fun e i he => (regs_pauseClass ..).trans he) (fun e he => by rw [pauseEnd_pauseClass, if_pos rfl, hq e he])
      (fun e i hi => by rw [pauseEnd_pauseClass, if_neg (Ne.symm hi)]) List.nodup_range
      (x := bump d (Rg.RX_PAUSE (p / 4) (p % 4)) 1) rfl, if_pos (List.mem_range.mpr hc)]
  · exact List.foldlRecOn (motive := fun e : Dev => e.adm = d.adm) _ _ rfl fun e he c _ => (adm_pauseClass ..).trans he

theorem exec_frameReceive_pause (h : Good s.dev p b) (hty : beAt b 12 2 = 0x8808) (hop : beAt b 14 2 = 1) (hs : startShut s.dev p = false)
    (hq : quadHeld s.dev (p.val / 4) = false) (hm : fcMode s.dev p = 1) (ha : flowAddr s.dev p b = true) :
    ∃ f, Machine.exec (.frameReceive p b false sfd t) s = .next { s with dev := f } ∧
      PausedFor p (atConnector s.dev p t) (beAt b 16 2) s.dev f := by
  refine ⟨_, exec_frameReceive_control h hty hs hq, ?_⟩
  rw [controlFrameIn_pause hop hm ha]
  exact pausedFor_foldl ..

/-! ## The end of a pause (R74) -/

theorem exec_pauseExpiry_due {c : Sys2Proof.Class} (h0 : pauseEnd s.dev p c ≠ 0) (ht : pauseEnd s.dev p c ≤ tbIn s.dev (portZone p)) :
    Machine.exec (.pauseExpiry p c) s = .next { s with dev := setPause s.dev p c 0 } := by
  have hdue : (pauseEnd s.dev p c != 0 && !paused s.dev p c) = true := by simp [h0, paused, ht]
  show execPauseExpiry p c s = _
  simp only [execPauseExpiry, State.onDev, if_pos hdue]
theorem exec_pauseExpiry_early {c : Sys2Proof.Class} (ht : tbIn s.dev (portZone p) < pauseEnd s.dev p c) :
    Machine.exec (.pauseExpiry p c) s = .next s := by
  have hno : (pauseEnd s.dev p c != 0 && !paused s.dev p c) = false := by simp [paused, ht]
  show execPauseExpiry p c s = _
  simp only [execPauseExpiry, State.onDev, hno, Bool.false_eq_true, if_false]

end Sys2Proof.Machine
end

section
/-!
Flow control sent (R75, R76, R108): one frame for each change of causes, and again after half of QUANTA.
-/

namespace Sys2Proof.Machine
open Sys2Proof Sys2Proof.Terms

variable {d e : Dev} {s : State} {p : Port}

/-! ## A flow-control frame goes out (R75, R84) -/

/-- The frame is out and counted, but for its classes. -/
def flowOut (d : Dev) (p on off : Nat) : Dev :=
  bump (bump (bump (emit d (.flow p (flowFrame d p on off))) (Rg.TX_FRAMES (p / 4) (p % 4)) 1) (Rg.TX_OCTETS (p / 4) (p % 4)) 64)
    (if fcMode d p == 1 then Rg.TX_PAUSE (p / 4) (p % 4) else Rg.TX_PFC (p / 4) (p % 4)) 1
/-- The classes whose XOFF the frame counts: in PAUSE mode all of them or none. -/
def flowClasses (d : Dev) (p on : Nat) : List Nat := if fcMode d p == 1 then (if on == 0 then [] else List.range 8) else bitsOf on 8

theorem fcMode_bump (d : Dev) (a n q : Nat) : fcMode (bump d a n) q = fcMode d q := rfl
theorem fcMode_emit (d : Dev) (o : Out) (q : Nat) : fcMode (emit d o) q = fcMode d q := rfl
theorem fcMode_modPort (d : Dev) (p : Nat) (f : PortSt → PortSt) (q : Nat) : fcMode (modPort d p f) q = fcMode d q := rfl

theorem sendFlow_eq (d : Dev) (p on off : Nat) :
    sendFlow d p on off = (flowClasses d p on).foldl (fun d c => bump d (Rg.TX_XOFF (p / 4) (p % 4) c) 1) (flowOut d p on off) := by
  unfold sendFlow flowClasses flowOut
  dsimp only
  rw [fcMode_bump, fcMode_bump, fcMode_bump, fcMode_emit, fcMode_bump, fcMode_bump, fcMode_emit]

theorem foldl_bump_shape (f g : Nat → Nat) (l : List Nat) (d : Dev) : ∃ c, l.foldl (fun d i => bump d (f i) (g i)) d = { d with ctrs := c } := by
  induction l generalizing d with
  | nil => exact ⟨_, rfl⟩
  | cons i l ih =>
    obtain ⟨c, hc⟩ := ih (bump d (f i) (g i))
    exact ⟨c, by rw [List.foldl_cons, hc]; rfl⟩
theorem flowOut_shape (d : Dev) (p on off : Nat) : ∃ c, flowOut d p on off = { d with ctrs := c, out := d.out ++ [.flow p (flowFrame d p on off)] } := by
  have hgen (o : Out) (a b c n m k : Nat) : ∃ x, bump (bump (bump (emit d o) a n) b m) c k = { d with ctrs := x, out := d.out ++ [o] } := ⟨_, rfl⟩
  exact hgen ..

/-- What is sent, and that beside it counters alone change. -/
theorem sendFlow_shape (d : Dev) (p on off : Nat) :
    ∃ c, sendFlow d p on off = { d with ctrs := c, out := d.out ++ [.flow p (flowFrame d p on off)] } := by
  obtain ⟨c, hc⟩ := flowOut_shape d p on off
  obtain ⟨c', hc'⟩ := foldl_bump_shape (fun c => Rg.TX_XOFF (p / 4) (p % 4) c) (fun _ => 1) (flowClasses d p on) (flowOut d p on off)
  exact ⟨c', by rw [sendFlow_eq, hc', hc]⟩

theorem flow_counters (q k : Nat) : Rg.TX_FRAMES q k ≠ Rg.TX_OCTETS q k ∧ Rg.TX_FRAMES q k ≠ Rg.TX_PFC q k ∧ Rg.TX_OCTETS q k ≠ Rg.TX_PFC q k := by
  unfold Rg.TX_FRAMES Rg.TX_OCTETS Rg.TX_PFC
  omega
theorem tx_xoff_apart (q k c : Nat) : Rg.TX_FRAMES q k ≠ Rg.TX_XOFF q k c ∧ Rg.TX_OCTETS q k ≠ Rg.TX_XOFF q k c ∧
    Rg.TX_PAUSE q k ≠ Rg.TX_XOFF q k c ∧ Rg.TX_PFC q k ≠ Rg.TX_XOFF q k c := by
  unfold Rg.TX_FRAMES Rg.TX_OCTETS Rg.TX_PAUSE Rg.TX_PFC Rg.TX_XOFF
  omega
theorem txPause_apart (q k : Nat) : Rg.TX_PAUSE q k ≠ Rg.TX_FRAMES q k ∧ Rg.TX_PAUSE q k ≠ Rg.TX_OCTETS q k := by
  unfold Rg.TX_PAUSE Rg.TX_FRAMES Rg.TX_OCTETS
  omega
theorem tx_xoff_eq {q k c c' : Nat} : Rg.TX_XOFF q k c = Rg.TX_XOFF q k c' ↔ c = c' := by
  unfold Rg.TX_XOFF
  omega

/-- The counters of a port after a PFC frame. -/
structure PfcCounted (p on : Nat) (d e : Dev) : Prop where
  pfc : ctr e (Rg.TX_PFC (p / 4) (p % 4)) = ctr d (Rg.TX_PFC (p / 4) (p % 4)) + 1
  frames : ctr e (Rg.TX_FRAMES (p / 4) (p % 4)) = ctr d (Rg.TX_FRAMES (p / 4) (p % 4)) + 1
  octets : ctr e (Rg.TX_OCTETS (p / 4) (p % 4)) = ctr d (Rg.TX_OCTETS (p / 4) (p % 4)) + 64
  xoff : ∀ c, c < 8 → ctr e (Rg.TX_XOFF (p / 4) (p % 4) c) = ctr d (Rg.TX_XOFF (p / 4) (p % 4) c) + (if on.testBit c then 1 else 0)

theorem mem_bitsOf {x n i : Nat} : i ∈ bitsOf x n ↔ i < n ∧ x.testBit i = true := by simp [bitsOf]

/-- A counter other than those of XOFF after a flow-control frame. -/
theorem ctr_sendFlow {p a : Nat} (h : ∀ c, a ≠ Rg.TX_XOFF (p / 4) (p % 4) c) (on off : Nat) : ctr (sendFlow d p on off) a = ctr (flowOut d p on off) a := by
  rw [sendFlow_eq, ctr_foldl_bump_ne (fun c => Rg.TX_XOFF (p / 4) (p % 4) c) (fun _ => 1) _ _ fun c _ => h c]

theorem pfcCounted_sendFlow {p : Nat} (hm : fcMode d p = 2) (on off : Nat) : PfcCounted p on d (sendFlow d p on off) := by
  obtain ⟨hfo, hfp, hop⟩ := flow_counters (p / 4) (p % 4)
  have hx := tx_xoff_apart (p / 4) (p % 4)
  have hout : flowOut d p on off = bump (bump (bump (emit d (.flow p (flowFrame d p on off))) (Rg.TX_FRAMES (p / 4) (p % 4)) 1)
      (Rg.TX_OCTETS (p / 4) (p % 4)) 64) (Rg.TX_PFC (p / 4) (p % 4)) 1 := by
    simp only [flowOut, hm]
    rfl
  have hcls : flowClasses d p on = bitsOf on 8 := by simp [flowClasses, hm]
  refine ⟨?_, ?_, ?_, fun c hc => ?_⟩
  · rw [ctr_sendFlow fun c => (hx c).2.2.2, hout, ctr_bump_same, ctr_bump_ne _ _ hop.symm, ctr_bump_ne _ _ hfp.symm, ctr_emit]
    rfl
  · rw [ctr_sendFlow fun c => (hx c).1, hout, ctr_bump_ne _ _ hfp, ctr_bump_ne _ _ hfo, ctr_bump_same, ctr_emit]
    rfl
  · rw [ctr_sendFlow fun c => (hx c).2.1, hout, ctr_bump_ne _ _ hop, ctr_bump_same, ctr_bump_ne _ _ hfo.symm, ctr_emit]
    rfl
  · obtain ⟨hxf, hxo, -, hxp⟩ := hx c
    have hbefore : ctr (flowOut d p on off) (Rg.TX_XOFF (p / 4) (p % 4) c) = ctr d (Rg.TX_XOFF (p / 4) (p % 4) c) := by
      rw [hout, ctr_bump_ne _ _ hxp.symm, ctr_bump_ne _ _ hxo.symm, ctr_bump_ne _ _ hxf.symm, ctr_emit]
    rw [sendFlow_eq, hcls, foldl_at (f := fun d c => bump d (Rg.TX_XOFF (p / 4) (p % 4) c) 1) (obs := fun e => ctr e (Rg.TX_XOFF (p / 4) (p % 4) c))
      (c := c) (new := fun v => v + 1) (fun _ => True) (fun _ _ _ => trivial) (fun e _ => ctr_bump_same ..)
      (fun e i hi => ctr_bump_ne _ _ (mt tx_xoff_eq.mp (Ne.symm hi))) (nodup_bitsOf on 8) trivial, hbefore]
    by_cases hon : on.testBit c = true
    · rw [if_pos (mem_bitsOf.mpr ⟨hc, hon⟩), if_pos hon]
    · rw [if_neg fun h => hon (mem_bitsOf.mp h).2, if_neg hon]
      exact (BitVec.add_zero _).symm

theorem ctr_txPause_sendFlow {p : Nat} (hm : fcMode d p = 1) (on off : Nat) :
    ctr (sendFlow d p on off) (Rg.TX_PAUSE (p / 4) (p % 4)) = ctr d (Rg.TX_PAUSE (p / 4) (p % 4)) + 1 := by
  simp only [ctr_sendFlow fun c => (tx_xoff_apart (p / 4) (p % 4) c).2.2.1, flowOut, hm, beq_self_eq_true, if_true]
  rw [ctr_bump_same, ctr_bump_ne _ _ (txPause_apart ..).2, ctr_bump_ne _ _ (txPause_apart ..).1, ctr_emit]
  rfl

/-! ## Times of XOFF -/

/-- The times at which XOFF was last sent, with `x` for the places of `l`. -/
def stamped (t : Tab Nat) (l : List Nat) (x : Nat) : Tab Nat := l.foldl (fun t c => tset zeroN t c x) t

theorem tget_stamped {l : List Nat} (hl : l.Nodup) (t : Tab Nat) (x c : Nat) : tget zeroN (stamped t l x) c = if c ∈ l then x else tget zeroN t c :=
  foldl_at (f := fun t c => tset zeroN t c x) (obs := fun t => tget zeroN t c) (new := fun _ => x) (fun _ => True) (fun _ _ _ => trivial)
    (fun _ _ => tget_tset_same ..) (fun _ _ hi => tget_tset_ne _ _ _ (Ne.symm hi)) hl trivial

/-- The port remembers what it asks for, and since when. -/
def asked (d : Dev) (p now : Nat) (l : List Nat) : Dev :=
  modPort d p (fun x => { x with xoffSent := now, xoffAt := stamped x.xoffAt l (tbIn d (portZone p)) })

/-! ## The commands -/

theorem exec_xoff_same (h : xoffClasses s.dev p = (port s.dev p).xoffSent) : Machine.exec (.xoff p) s = .next s := by
  show execXoff p s = _
  simp only [execXoff, State.onDev, h, beq_self_eq_true, Bool.or_true, if_true]

theorem exec_xoff_pfc (hu : portUp s.dev p = true) (hq : quadHeld s.dev (p.val / 4) = false) (hm : fcMode s.dev p = 2)
    (h : xoffClasses s.dev p ≠ (port s.dev p).xoffSent) :
    let on := ofBits ((List.range 8).filter (fun c => (xoffClasses s.dev p).testBit c && !(port s.dev p).xoffSent.testBit c))
    let off := ofBits ((List.range 8).filter (fun c => (port s.dev p).xoffSent.testBit c && !(xoffClasses s.dev p).testBit c))
    Machine.exec (.xoff p) s = .next { s with dev := sendFlow (asked s.dev p (xoffClasses s.dev p) (bitsOf on 8)) p on off } := by
  intro on off
  show execXoff p s = _
  simp only [execXoff, State.onDev, hu, hq, hm, beq_eq_false_iff_ne.mpr h, Bool.not_true, Bool.or_self, Bool.false_eq_true, if_false,
    fcMode_modPort, Nat.reduceBEq, Bool.false_and]
  rfl

theorem exec_xoff_pause (hu : portUp s.dev p = true) (hq : quadHeld s.dev (p.val / 4) = false) (hm : fcMode s.dev p = 1)
    (hw : (port s.dev p).xoffSent = 0) (h : xoffClasses s.dev p ≠ 0) :
    Machine.exec (.xoff p) s = .next { s with dev := sendFlow (asked s.dev p (xoffClasses s.dev p) [0]) p (xoffClasses s.dev p) 0 } := by
  have hoff : ofBits ((List.range 8).filter (fun c => (0 : Nat).testBit c && !(xoffClasses s.dev p).testBit c)) = 0 := by simp [ofBits]
  show execXoff p s = _
  simp only [execXoff, State.onDev, hu, hq, hm, hw, hoff, beq_eq_false_iff_ne.mpr h, Bool.not_true, Bool.or_self, Bool.false_eq_true, if_false,
    fcMode_modPort, Nat.reduceBEq, bne_self_eq_false, Bool.and_false, Bool.false_and, beq_self_eq_true, if_true]
  rfl

/-- Half of QUANTA has passed since class `c` last sent XOFF; in PAUSE mode since the port did. -/
def xoffDue (d : Dev) (p c : Nat) : Bool :=
  decide (quanta25 d p (rf d (Rg.QUAD_PAUSE_TIME (p / 4)) Fl.QUAD_PAUSE_TIME_QUANTA) ≤
    50 * elapsed (tbIn d (portZone p)) (tget zeroN (port d p).xoffAt (if fcMode d p = 1 then 0 else c)))
/-- The classes whose XOFF is due again. -/
def xoffAgain (d : Dev) (p : Nat) : List Nat :=
  (List.range 8).filter (fun c => (port d p).xoffSent.testBit c && (xoffClasses d p).testBit c && xoffDue d p c)

theorem exec_xoffRepeat (s : State) (p : Port) : Machine.exec (.xoffRepeat p) s = .next { s with
    dev := if portUp s.dev p && !quadHeld s.dev (p.val / 4) && !(xoffAgain s.dev p).isEmpty then
        sendFlow (asked s.dev p (port s.dev p).xoffSent (if fcMode s.dev p = 1 then [0] else xoffAgain s.dev p)) p (ofBits (xoffAgain s.dev p)) 0
      else s.dev } := by
  show execXoffRepeat p s = _
  simp only [execXoffRepeat, State.onDev, xoffAgain, xoffDue, beq_iff_eq]
  rfl

theorem exec_xoffRepeat_none (h : xoffAgain s.dev p = []) : Machine.exec (.xoffRepeat p) s = .next s := by
  rw [exec_xoffRepeat, h]
  simp

/-! ## What the commands leave -/

theorem port_asked (d : Dev) (p now : Nat) (l : List Nat) :
    port (asked d p now l) p = { port d p with xoffSent := now, xoffAt := stamped (port d p).xoffAt l (tbIn d (portZone p)) } := port_modPort_same ..

/-- The frame that a port sends, and what the port remembers then. -/
theorem sendFlow_asked (d : Dev) (p now on off : Nat) (l : List Nat) :
    (sendFlow (asked d p now l) p on off).out = d.out ++ [.flow p (flowFrame d p on off)] ∧
      port (sendFlow (asked d p now l) p on off) p = port (asked d p now l) p := by
  obtain ⟨c, hc⟩ := sendFlow_shape (asked d p now l) p on off
  rw [hc]
  exact ⟨rfl, rfl⟩

theorem xoff_pfc_spec (hu : portUp s.dev p = true) (hq : quadHeld s.dev (p.val / 4) = false) (hm : fcMode s.dev p = 2)
    (h : xoffClasses s.dev p ≠ (port s.dev p).xoffSent) :
    let on := ofBits ((List.range 8).filter (fun c => (xoffClasses s.dev p).testBit c && !(port s.dev p).xoffSent.testBit c))
    let off := ofBits ((List.range 8).filter (fun c => (port s.dev p).xoffSent.testBit c && !(xoffClasses s.dev p).testBit c))
    ∃ u, Machine.exec (.xoff p) s = .next u ∧ OnlyDev s u ∧ u.dev.out = s.dev.out ++ [.flow p (flowFrame s.dev p on off)] ∧
      (port u.dev p).xoffSent = xoffClasses s.dev p ∧ PfcCounted p on s.dev u.dev ∧
      ∀ c, c < 8 → tget zeroN (port u.dev p).xoffAt c = if on.testBit c then tbIn s.dev (portZone p) else tget zeroN (port s.dev p).xoffAt c := by
  intro on off
  obtain ⟨hout, hport⟩ := sendFlow_asked s.dev p (xoffClasses s.dev p) on off (bitsOf on 8)
  have hcount : PfcCounted p on (asked s.dev p (xoffClasses s.dev p) (bitsOf on 8)) (sendFlow (asked s.dev p (xoffClasses s.dev p) (bitsOf on 8)) p on off) :=
    pfcCounted_sendFlow (d := asked s.dev p (xoffClasses s.dev p) (bitsOf on 8)) hm on off
  refine ⟨_, exec_xoff_pfc hu hq hm h, ⟨rfl, rfl⟩, hout, ?_, ⟨hcount.pfc, hcount.frames, hcount.octets, hcount.xoff⟩, fun c hc => ?_⟩
  · show (port (sendFlow _ _ _ _) _).xoffSent = _
    rw [hport, port_asked]
  · show tget zeroN (port (sendFlow _ _ _ _) _).xoffAt c = _
    rw [hport, port_asked, tget_stamped (nodup_bitsOf on 8)]
    simp [mem_bitsOf, hc]

theorem xoff_pause_spec (hu : portUp s.dev p = true) (hq : quadHeld s.dev (p.val / 4) = false) (hm : fcMode s.dev p = 1)
    (hw : (port s.dev p).xoffSent = 0) (h : xoffClasses s.dev p ≠ 0) :
    ∃ u, Machine.exec (.xoff p) s = .next u ∧ u.dev.out = s.dev.out ++ [.flow p (flowFrame s.dev p (xoffClasses s.dev p) 0)] ∧
      ctr u.dev (Rg.TX_PAUSE (p.val / 4) (p.val % 4)) = ctr s.dev (Rg.TX_PAUSE (p.val / 4) (p.val % 4)) + 1 ∧
      (port u.dev p).xoffSent = xoffClasses s.dev p := by
  obtain ⟨hout, hport⟩ := sendFlow_asked s.dev p (xoffClasses s.dev p) (xoffClasses s.dev p) 0 [0]
  refine ⟨_, exec_xoff_pause hu hq hm hw h, hout, ctr_txPause_sendFlow (d := asked s.dev p (xoffClasses s.dev p) [0]) hm _ _, ?_⟩
  show (port (sendFlow _ _ _ _) _).xoffSent = _
  rw [hport, port_asked]

theorem xoffRepeat_spec (hu : portUp s.dev p = true) (hq : quadHeld s.dev (p.val / 4) = false) (hl : xoffAgain s.dev p ≠ []) :
    ∃ u, Machine.exec (.xoffRepeat p) s = .next u ∧ OnlyDev s u ∧ u.dev.out = s.dev.out ++ [.flow p (flowFrame s.dev p (ofBits (xoffAgain s.dev p)) 0)] ∧
      (∀ c ∈ xoffAgain s.dev p, tget zeroN (port u.dev p).xoffAt (if fcMode s.dev p = 1 then 0 else c) = tbIn s.dev (portZone p)) ∧
      ∀ j, (∀ c ∈ xoffAgain s.dev p, j ≠ if fcMode s.dev p = 1 then 0 else c) →
        tget zeroN (port u.dev p).xoffAt j = tget zeroN (port s.dev p).xoffAt j := by
  let places := if fcMode s.dev p = 1 then [0] else xoffAgain s.dev p
  have hgo : (portUp s.dev p && !quadHeld s.dev (p.val / 4) && !(xoffAgain s.dev p).isEmpty) = true := by simp [hu, hq, hl]
  obtain ⟨hout, hport⟩ := sendFlow_asked s.dev p (port s.dev p).xoffSent (ofBits (xoffAgain s.dev p)) 0 places
  have hnodup : places.Nodup := by
    show (if _ then _ else _ : List Nat).Nodup
    split
    · exact List.nodup_singleton 0
    · exact List.nodup_range.filter _
  have hat (j : Nat) : tget zeroN (port (sendFlow (asked s.dev p (port s.dev p).xoffSent places) p (ofBits (xoffAgain s.dev p)) 0) p).xoffAt j =
      if j ∈ places then tbIn s.dev (portZone p) else tget zeroN (port s.dev p).xoffAt j := by
    rw [hport, port_asked, tget_stamped hnodup]
  obtain ⟨c0, hc0⟩ := List.exists_mem_of_ne_nil _ hl
  rw [exec_xoffRepeat, if_pos hgo]
  refine ⟨_, rfl, ⟨rfl, rfl⟩, hout, fun c hc => (hat _).trans (if_pos ?_), fun j hj => (hat _).trans (if_neg ?_)⟩
  · show _ ∈ (if _ then _ else _ : List Nat)
    split
    · exact List.mem_singleton.mpr rfl
    · exact hc
  · show _ ∉ (if _ then _ else _ : List Nat)
    split
    next h1 => exact fun hm => hj c0 hc0 (by rw [if_pos h1]; exact List.mem_singleton.mp hm)
    next h1 => exact fun hm => hj j hm (by rw [if_neg h1])

end Sys2Proof.Machine
end

section
/-!
Admission of a frame (R85, R88, R103 to R110), and O33.
-/

namespace Sys2Proof.Machine
open Sys2Proof Sys2Proof.Terms

variable {d e : Dev} {s : State} {p : Port} {b : List Byte} {sfd t : Nat}

/-! ## Order domains, pools and stores -/

theorem dom_modDom_same (d : Dev) (n : Nat) (f : Domain → Domain) : dom (modDom d n f) n = f (dom d n) := by simp [dom, modDom]
theorem pipe_modPipe_same (d : Dev) (z k : Nat) (f : Pipe → Pipe) : pipe (modPipe d z k f) z k = f (pipe d z k) := by simp [pipe, modPipe]
theorem urnz_modUrnz_same (d : Dev) (z : Nat) (f : UrnZone → UrnZone) : urnz (modUrnz d z f) z = f (urnz d z) := by simp [urnz, modUrnz]
@[simp] theorem adm_raise (d : Dev) (p n : Nat) : (raise d p n).adm = d.adm := by obtain ⟨_, _, _, h⟩ := raise_shape d p n; rw [h]

theorem Charged.ctrs (w : Charged d e) : e.ctrs = d.ctrs := by obtain ⟨_, ⟨_, _, _, _, _, rfl⟩⟩ := w; rfl

/-- The causes of a domain are judged; its numbers and cells stay. -/
theorem dom_watchDom (d : Dev) (n : Nat) : (dom (watchDom d n) n).next = (dom d n).next ∧ (dom (watchDom d n) n).occ = (dom d n).occ ∧
    (dom (watchDom d n) n).out = (dom d n).out := by
  unfold watchDom
  dsimp only
  rw [dom_modDom_same]
  exact ⟨rfl, rfl, rfl⟩
theorem pipe_watchStore (d : Dev) (z k : Nat) : (pipe (watchStore d z k) z k).express = (pipe d z k).express ∧
    (pipe (watchStore d z k) z k).normal = (pipe d z k).normal ∧ (pipe (watchStore d z k) z k).blocks = (pipe d z k).blocks := by
  unfold watchStore
  dsimp only
  rw [pipe_modPipe_same]
  exact ⟨rfl, rfl, rfl⟩
/-- The thresholds of a pool are judged; its occupancy stays. -/
theorem watchPool_spec (d : Dev) (z : Nat) : (watchPool d z).adm = d.adm ∧ (urnz (watchPool d z) z).occ = (urnz d z).occ := by
  have hif (c : Bool) (x : Dev) (n : Nat) : (if c then raise x (urnPage z) n else x).adm = x.adm ∧ (if c then raise x (urnPage z) n else x).urn = x.urn := by
    split
    · exact ⟨adm_raise .., urn_raise ..⟩
    · exact ⟨rfl, rfl⟩
  have hz {x y : Dev} (h : x.urn = y.urn) : urnz x z = urnz y z := by simp only [urnz, h]
  unfold watchPool
  dsimp only
  constructor
  · rw [(hif _ _ _).1, (hif _ _ _).1, (hif _ _ _).1]
    rfl
  · rw [hz (hif _ _ _).2, hz (hif _ _ _).2, hz (hif _ _ _).2, urnz_modUrnz_same]
theorem chargePool_spec (d : Dev) (z n : Nat) : (chargePool d z n).adm = d.adm ∧ (urnz (chargePool d z n) z).occ = (urnz d z).occ + n := by
  unfold chargePool
  dsimp only
  obtain ⟨hadm, hocc⟩ := watchPool_spec (probeMax (modUrnz d z (fun u => { u with occ := u.occ + n })) 1 z
    (urnz (modUrnz d z (fun u => { u with occ := u.occ + n })) z).occ) z
  obtain ⟨x, hx⟩ := probeMax_shape (modUrnz d z (fun u => { u with occ := u.occ + n })) 1 z
    (urnz (modUrnz d z (fun u => { u with occ := u.occ + n })) z).occ
  rw [hadm, hocc, hx]
  exact ⟨rfl, congrArg UrnZone.occ (urnz_modUrnz_same ..)⟩

/-! ## A frame that no check refuses (R88, R103, R110) -/

/-- The frame takes the next number of its domain, and its cells count there. -/
def inDomain (d : Dev) (n len : Nat) : Dev :=
  let e := watchDom (modDom d n (fun x => { x with next := (x.next + 1) % 65536, occ := x.occ + cellsOf len, out := x.out + 1 })) n
  probeMax e 4 n (dom e n).occ
/-- Its cells are charged to the pool, and to the control cells where it is marked. -/
def inPool (d : Dev) (z len : Nat) (marked : Bool) : Dev :=
  chargePool (if marked then setCtrlCells d z (ctrlCells d z + cellsOf len) else d) z (cellsOf len)
/-- It stands last in its store. -/
def inStore (d : Dev) (z pl : Nat) (k : Pkt) : Dev :=
  watchStore (modPipe d z pl (fun x => { x with
    blocks := x.blocks + cdiv k.bytes.length 64, normal := if k.marked then x.normal else x.normal ++ [k],
    express := if k.marked then x.express ++ [k] else x.express })) z pl

/-- The frame as the store keeps it. -/
def packet (d : Dev) (p : Nat) (b : List Byte) (stamp : W64) : Pkt :=
  ⟨b, p, (classify d p b).1, (dom d (8 * p + (classify d p b).1)).next, (classify d p b).2, lossless d p (classify d p b).1, stamp⟩

/-- The frame `k` is in its domain, its pool and its store. -/
def taken (d : Dev) (k : Pkt) : Dev :=
  inStore (inPool (inDomain d (8 * k.port + k.cls) k.bytes.length) (k.port / 64) k.bytes.length k.marked) (k.port / 64) (k.port / 16 % 4) k

theorem admitFrame_admits {p : Nat} (h : refusedBy d p (classify d p b).1 (classify d p b).2 b.length = none) (stamp : W64) :
    (admitFrame d p b stamp).1 = bump (taken d (packet d p b stamp)) (Rg.ADM_ADMIT (p / 64) (classify d p b).1) 1 := by
  unfold admitFrame
  simp only [h]
  rfl

theorem inDomain_spec (d : Dev) (n len : Nat) : let e := inDomain d n len
    e.adm.pipes = d.adm.pipes ∧ e.urn = d.urn ∧ e.ctrs = d.ctrs ∧ (dom e n).next = ((dom d n).next + 1) % 65536 ∧
      (dom e n).occ = (dom d n).occ + cellsOf len ∧ (dom e n).out = (dom d n).out + 1 := by
  intro e
  let m := modDom d n (fun x => { x with next := (x.next + 1) % 65536, occ := x.occ + cellsOf len, out := x.out + 1 })
  obtain ⟨hnext, hocc, hout⟩ := dom_watchDom m n
  obtain ⟨x, hx⟩ := probeMax_shape (watchDom m n) 4 n (dom (watchDom m n) n).occ
  have he : e = { watchDom m n with tel := { (watchDom m n).tel with top := x } } := hx
  have hdom : dom e n = dom (watchDom m n) n := by rw [he]; rfl
  have hm : dom m n = { dom d n with
      next := ((dom d n).next + 1) % 65536, occ := (dom d n).occ + cellsOf len, out := (dom d n).out + 1 } := dom_modDom_same ..
  rw [hdom, hnext, hocc, hout, hm, he]
  exact ⟨rfl, rfl, rfl, rfl, rfl, rfl⟩

theorem inPool_spec (d : Dev) (z len : Nat) (marked : Bool) : let e := inPool d z len marked
    e.adm.pipes = d.adm.pipes ∧ e.adm.doms = d.adm.doms ∧ e.ctrs = d.ctrs ∧ (urnz e z).occ = (urnz d z).occ + cellsOf len := by
  intro e
  let m := if marked then setCtrlCells d z (ctrlCells d z + cellsOf len) else d
  have hm : m.adm.pipes = d.adm.pipes ∧ m.adm.doms = d.adm.doms ∧ m.ctrs = d.ctrs ∧ m.urn = d.urn := by
    cases marked
    · exact ⟨rfl, rfl, rfl, rfl⟩
    · exact ⟨rfl, rfl, rfl, rfl⟩
  obtain ⟨hpipes, hdoms, hctrs, hurn⟩ := hm
  obtain ⟨hadm, hocc⟩ := chargePool_spec m z (cellsOf len)
  have hc : e.ctrs = m.ctrs := ((Charged.of_pool (.refl m)).chargePool z (cellsOf len)).ctrs
  refine ⟨(congrArg Adm.pipes hadm).trans hpipes, (congrArg Adm.doms hadm).trans hdoms, hc.trans hctrs, hocc.trans ?_⟩
  simp only [urnz, hurn]

theorem inStore_spec (d : Dev) (z pl : Nat) (k : Pkt) : let e := inStore d z pl k
    e.adm.doms = d.adm.doms ∧ e.urn = d.urn ∧ e.ctrs = d.ctrs ∧
      (pipe e z pl).express = (pipe d z pl).express ++ (if k.marked then [k] else []) ∧
      (pipe e z pl).normal = (pipe d z pl).normal ++ (if k.marked then [] else [k]) ∧
      (pipe e z pl).blocks = (pipe d z pl).blocks + cdiv k.bytes.length 64 := by
  intro e
  refine ⟨rfl, rfl, rfl, ?_⟩
  obtain ⟨hex, hno, hbl⟩ := pipe_watchStore (modPipe d z pl (fun x => { x with
    blocks := x.blocks + cdiv k.bytes.length 64, normal := if k.marked then x.normal else x.normal ++ [k],
    express := if k.marked then x.express ++ [k] else x.express })) z pl
  rw [show e = inStore d z pl k from rfl, inStore, hex, hno, hbl, pipe_modPipe_same]
  cases hm : k.marked
  · simp
  · simp

/-- A frame in its store: what its pipeline, its domain and its pool hold then. -/
structure Stored (k : Pkt) (d e : Dev) : Prop where
  express : (pipe e (k.port / 64) (k.port / 16 % 4)).express =
    (pipe d (k.port / 64) (k.port / 16 % 4)).express ++ (if k.marked then [k] else [])
  normal : (pipe e (k.port / 64) (k.port / 16 % 4)).normal = (pipe d (k.port / 64) (k.port / 16 % 4)).normal ++ (if k.marked then [] else [k])
  blocks : (pipe e (k.port / 64) (k.port / 16 % 4)).blocks = (pipe d (k.port / 64) (k.port / 16 % 4)).blocks + cdiv k.bytes.length 64
  next : (dom e (8 * k.port + k.cls)).next = ((dom d (8 * k.port + k.cls)).next + 1) % 65536
  out : (dom e (8 * k.port + k.cls)).out = (dom d (8 * k.port + k.cls)).out + 1
  occ : (dom e (8 * k.port + k.cls)).occ = (dom d (8 * k.port + k.cls)).occ + cellsOf k.bytes.length
  pool : (urnz e (k.port / 64)).occ = (urnz d (k.port / 64)).occ + cellsOf k.bytes.length

theorem taken_spec (d : Dev) (k : Pkt) : Stored k d (taken d k) ∧ (taken d k).ctrs = d.ctrs := by
  have hdoms {x y : Dev} (h : x.adm.doms = y.adm.doms) (n : Nat) : dom x n = dom y n := by simp only [dom, h]
  have hpipes {x y : Dev} (h : x.adm.pipes = y.adm.pipes) (z i : Nat) : pipe x z i = pipe y z i := by simp only [pipe, h]
  have hurns {x y : Dev} (h : x.urn = y.urn) (z : Nat) : urnz x z = urnz y z := by simp only [urnz, h]
  obtain ⟨dp, du, dc, dnext, docc, dout⟩ := inDomain_spec d (8 * k.port + k.cls) k.bytes.length
  obtain ⟨pp, pd, pc, pocc⟩ := inPool_spec (inDomain d (8 * k.port + k.cls) k.bytes.length) (k.port / 64) k.bytes.length k.marked
  obtain ⟨sd, su, sc, sex, sno, sbl⟩ := inStore_spec (inPool (inDomain d (8 * k.port + k.cls) k.bytes.length) (k.port / 64) k.bytes.length k.marked)
    (k.port / 64) (k.port / 16 % 4) k
  have hd := hdoms (sd.trans pd) (8 * k.port + k.cls)
  have hp := hpipes (pp.trans dp) (k.port / 64) (k.port / 16 % 4)
  refine ⟨⟨?_, ?_, ?_, ?_, ?_, ?_, ?_⟩, sc.trans (pc.trans dc)⟩
  · exact sex.trans (by rw [hp])
  · exact sno.trans (by rw [hp])
  · exact sbl.trans (by rw [hp])
  · exact (congrArg Domain.next hd).trans dnext
  · exact (congrArg Domain.out hd).trans dout
  · exact (congrArg Domain.occ hd).trans docc
  · exact (congrArg UrnZone.occ (hurns su _)).trans (pocc.trans (by rw [hurns du]))

/-! ## Counters do not decide admission -/

theorem packet_bump (d : Dev) (a n p : Nat) (b : List Byte) (stamp : W64) : packet (bump d a n) p b stamp = packet d p b stamp := rfl
theorem refusedBy_bump (d : Dev) (a n p c : Nat) (m : Bool) (len : Nat) : refusedBy (bump d a n) p c m len = refusedBy d p c m len := rfl
theorem classify_bump (d : Dev) (a n p : Nat) (b : List Byte) : classify (bump d a n) p b = classify d p b := rfl
theorem rxStamp_bump (d : Dev) (a n p sfd : Nat) : rxStamp (bump d a n) p sfd = rxStamp d p sfd := rfl
theorem Stored.of_bump {k : Pkt} {a n : Nat} (h : Stored k (bump d a n) e) : Stored k d e := ⟨h.express, h.normal, h.blocks, h.next, h.out, h.occ, h.pool⟩
theorem Stored.bump {k : Pkt} (h : Stored k d e) (a n : Nat) : Stored k d (bump e a n) := ⟨h.express, h.normal, h.blocks, h.next, h.out, h.occ, h.pool⟩

/-- The counters of received frames lie apart from each other and below those of admission. -/
theorem rx_frames_apart (p c : Nat) : Rg.RX_FRAMES_OK (p / 4) (p % 4) ≠ Rg.RX_OCTETS_OK (p / 4) (p % 4) ∧
    Rg.RX_FRAMES_OK (p / 4) (p % 4) ≠ Rg.ADM_ADMIT (p / 64) c ∧ Rg.RX_OCTETS_OK (p / 4) (p % 4) ≠ Rg.ADM_ADMIT (p / 64) c := by
  unfold Rg.RX_FRAMES_OK Rg.RX_OCTETS_OK Rg.ADM_ADMIT Rg.baseQUAD Rg.baseADM Rg.zoneBase
  omega

theorem exec_frameReceive_admits (h : Good s.dev p b) (hty : beAt b 12 2 ≠ 0x8808) (hmin : 64 ≤ b.length)
    (hmax : b.length ≤ rf s.dev (Rg.QUAD_MAX_FRAME (p.val / 4)) Fl.QUAD_MAX_FRAME_MAX_FRAME) (hs : startShut s.dev p = false)
    (hq : quadHeld s.dev (p.val / 4) = false) (hr : refusedBy s.dev p (classify s.dev p b).1 (classify s.dev p b).2 b.length = none) :
    ∃ f, Machine.exec (.frameReceive p b false sfd t) s = .next { s with dev := f } ∧ Stored (packet s.dev p b (rxStamp s.dev p sfd)) s.dev f ∧
      ctr f (Rg.RX_FRAMES_OK (p.val / 4) (p.val % 4)) = ctr s.dev (Rg.RX_FRAMES_OK (p.val / 4) (p.val % 4)) + 1 ∧
      ctr f (Rg.RX_OCTETS_OK (p.val / 4) (p.val % 4)) = ctr s.dev (Rg.RX_OCTETS_OK (p.val / 4) (p.val % 4)) + BitVec.ofNat 64 b.length := by
  obtain ⟨hfo, hfa, hoa⟩ := rx_frames_apart p (classify s.dev p b).1
  let m := bump (bump s.dev (Rg.RX_FRAMES_OK (p.val / 4) (p.val % 4)) 1) (Rg.RX_OCTETS_OK (p.val / 4) (p.val % 4)) b.length
  obtain ⟨hst, hct⟩ := taken_spec m (packet s.dev p b (rxStamp s.dev p sfd))
  refine ⟨bump (taken m (packet s.dev p b (rxStamp s.dev p sfd))) (Rg.ADM_ADMIT (p / 64) (classify s.dev p b).1) 1, ?_, hst.of_bump.of_bump.bump _ _, ?_, ?_⟩
  · have hr' : refusedBy m p (classify m p b).1 (classify m p b).2 b.length = none := by
      rw [classify_bump, classify_bump, refusedBy_bump, refusedBy_bump]
      exact hr
    have ha := admitFrame_admits hr' (rxStamp m p sfd)
    rw [exec_frameReceive_data h hty, if_neg (Nat.not_lt.mpr hmin), if_neg (Nat.not_lt.mpr hmax)]
    simp only [hs, hq, Bool.false_eq_true, if_false]
    rw [ha, packet_bump, packet_bump, rxStamp_bump, rxStamp_bump, classify_bump, classify_bump]
  · rw [ctr_bump_ne _ _ hfa, ctr_congr hct, ctr_bump_ne _ _ hfo, ctr_bump_same]
    rfl
  · rw [ctr_bump_ne _ _ hoa, ctr_congr hct, ctr_bump_same, ctr_bump_ne _ _ hfo.symm]

/-! ## The statement -/

/-- Settles O33: each clause is the rule of its command. -/
theorem framesAndFlowControl : Obligations.FramesAndFlowControl := by
  unfold Obligations.FramesAndFlowControl
  intro s p
  dsimp only
  refine ⟨fun b un sfd t h => exec_frameReceive_closed h, fun b un sfd t h hbad => exec_frameReceive_fcs h hbad,
    fun b sfd t h hfcs hfree hty => ⟨fun hlen => ?_, fun hmin hmax => ?_⟩, fun b sfd t h hfcs hfree hty hop hs hq hm ha => ?_,
    fun b sfd t h hfcs hfree hty hmin hmax hs hq hr => ?_, fun c => ⟨fun h0 ht => ?_, exec_pauseExpiry_early⟩,
    ⟨exec_xoff_same, fun hu hq hm h => ?_, fun hu hq hm hw h => ?_⟩, fun hu hq hl => ?_, fun hl => ?_⟩
  · rw [exec_frameReceive_data ⟨h, hfcs, hfree⟩ hty, if_pos hlen]
  · rw [exec_frameReceive_data ⟨h, hfcs, hfree⟩ hty, if_neg (Nat.not_lt.mpr hmin), if_pos hmax]
  · obtain ⟨f, hu, hf⟩ := exec_frameReceive_pause (sfd := sfd) (t := t) ⟨h, hfcs, hfree⟩ hty hop hs hq hm ha
    exact ⟨_, hu, ⟨rfl, rfl⟩, hf.count, fun c hc => ⟨hf.xoff c hc, hf.timers c hc⟩, hf.adm⟩
  · obtain ⟨f, hu, hf, hframes, hoctets⟩ := exec_frameReceive_admits (sfd := sfd) (t := t) ⟨h, hfcs, hfree⟩ hty hmin hmax hs hq hr
    exact ⟨_, hu, ⟨rfl, rfl⟩, hf.express, hf.normal, hf.blocks, hf.next, hf.out, hf.occ, hf.pool, hframes, hoctets⟩
  · refine ⟨_, _, exec_pauseExpiry_due h0 ht, rfl, (pauseEnd_setPause ..).trans (if_pos rfl), fun c' _ hc' => ?_⟩
    exact (pauseEnd_setPause ..).trans (if_neg hc')
  · obtain ⟨u, hu, hd, hout, hsent, hcount, hat⟩ := xoff_pfc_spec hu hq hm h
    exact ⟨u, hu, hd, hout, hsent, hcount.pfc, hcount.frames, hcount.octets, fun c hc => ⟨hcount.xoff c hc, hat c hc⟩⟩
  · exact xoff_pause_spec hu hq hm hw h
  · exact xoffRepeat_spec hu hq hl
  · exact exec_xoffRepeat_none hl

end Sys2Proof.Machine
end

section
/-!
Admission stores and pipelines: shed counts (R109), and the parse of the first frame (R31, R87, R88, R114).
-/

namespace Sys2Proof.Machine
open Sys2Proof Sys2Proof.Terms

variable {d e : Dev} {s : State} {z : Zone} {pl : Fin 4}

theorem pipe_modPipe (d : Dev) (z k : Nat) (f : Pipe → Pipe) (j : Nat) :
    pipe (modPipe d z k f) z j = if j = k then f (pipe d z k) else pipe d z j := by
  simp [pipe, modPipe, tget_tmod]
theorem pipe_congr (h : e.adm = d.adm) (z k : Nat) : pipe e z k = pipe d z k := by simp only [pipe, h]
theorem poolShed_congr (h : e.adm.poolShed = d.adm.poolShed) (z : Nat) : poolShed e z = poolShed d z := by simp only [poolShed, h]

/-! ## Shed counts (R109) -/

theorem shedStep_eq (n p s step hyst : Nat) : shedStep n p s step hyst =
    if n < (if p < s then 0 else min 8 (1 + (p - s) / step)) then (if p < s then 0 else min 8 (1 + (p - s) / step))
    else if 0 < n ∧ p + hyst < s + (n - 1) * step then n - 1 else n := by
  simp only [shedStep, Bool.and_eq_true, decide_eq_true_eq]

/-- The pool shed count that the occupancy of the pool asks. -/
def poolShedNext (d : Dev) (z : Nat) : Nat :=
  shedStep (poolShed d z) (urnz d z).occ (rf d (Rg.URN_POOL_SHED z) Fl.URN_POOL_SHED_CELLS)
    (rf d (Rg.ADM_SHED_STEP z) Fl.ADM_SHED_STEP_STEP) (rf d (Rg.ADM_SHED_HYST z) Fl.ADM_SHED_HYST_HYST)
/-- The store shed count that the blocks of pipeline `k` ask. -/
def storeShedNext (d : Dev) (z k : Nat) : Nat :=
  shedStep (pipe d z k).shed (pipe d z k).blocks (rf d (Rg.ADM_STORE_SHED z) Fl.ADM_STORE_SHED_SHED)
    (rf d (Rg.ADM_STORE_SHED z) Fl.ADM_STORE_SHED_STEP) (rf d (Rg.ADM_STORE_HYST z) Fl.ADM_STORE_HYST_HYST)
/-- The pool's count has been judged. -/
def poolJudged (d : Dev) (z : Nat) : Dev := { d with adm := { d.adm with poolShed := tset zeroN d.adm.poolShed z (poolShedNext d z) } }
/-- The count of pipeline `k` becomes what `d` asks. -/
def storeJudged (d : Dev) (z : Nat) (e : Dev) (k : Nat) : Dev := modPipe e z k (fun x => { x with shed := storeShedNext d z k })
/-- Every count of the zone has been judged. -/
def shedJudged (d : Dev) (z : Nat) : Dev := (List.range 4).foldl (storeJudged d z) (poolJudged d z)

/-- The counts are judged; a count that leaves 0 is a page event beside. -/
theorem exec_shedCount (z : Zone) (s : State) : ∃ f, Machine.exec (.shedCount z) s = .next { s with dev := f } ∧
    f.adm = (shedJudged s.dev z).adm ∧ ∀ a, rd f a = rd (shedJudged s.dev z) a := by
  have hev (c : Bool) : (if c then raise (shedJudged s.dev z) (admPage z) 0 else shedJudged s.dev z).adm = (shedJudged s.dev z).adm ∧
      ∀ a, rd (if c then raise (shedJudged s.dev z) (admPage z) 0 else shedJudged s.dev z) a = rd (shedJudged s.dev z) a := by
    split
    · exact ⟨adm_raise .., fun a => rd_raise ..⟩
    · exact ⟨rfl, fun _ => rfl⟩
  exact ⟨_, rfl, hev _⟩

theorem foldl_storeJudged_shape (d : Dev) (z : Nat) (l : List Nat) (e : Dev) :
    ∃ p, l.foldl (storeJudged d z) e = { e with adm := { e.adm with pipes := p } } := by
  induction l generalizing e with
  | nil => exact ⟨_, rfl⟩
  | cons k l ih =>
    obtain ⟨p, hp⟩ := ih (storeJudged d z e k)
    exact ⟨p, by rw [List.foldl_cons, hp]; rfl⟩

theorem shedJudged_spec (d : Dev) (z : Nat) : (∀ a, rd (shedJudged d z) a = rd d a) ∧ poolShed (shedJudged d z) z = poolShedNext d z := by
  obtain ⟨p, hp⟩ := foldl_storeJudged_shape d z (List.range 4) (poolJudged d z)
  rw [shedJudged, hp]
  exact ⟨fun _ => rfl, tget_tset_same ..⟩

/-- Each pipeline of the zone has its own count judged, and keeps its frames. -/
theorem pipe_shedJudged (d : Dev) (z : Nat) {k : Nat} (hk : k < 4) :
    pipe (shedJudged d z) z k = { pipe d z k with shed := storeShedNext d z k } := by
  have hself (e : Dev) : pipe (storeJudged d z e k) z k = { pipe e z k with shed := storeShedNext d z k } := pipe_modPipe_same ..
  have hother (e : Dev) (i : Nat) (hi : i ≠ k) : pipe (storeJudged d z e i) z k = pipe e z k := (pipe_modPipe ..).trans (if_neg hi.symm)
  have hfold := foldl_at (obs := fun e => pipe e z k) (new := fun x => { x with shed := storeShedNext d z k }) (fun _ => True)
    (fun _ _ _ => trivial) (fun e _ => hself e) hother (List.nodup_range (n := 4)) (x := poolJudged d z) trivial
  exact hfold.trans (if_pos (List.mem_range.mpr hk))

/-! ## A parse begins (R31, R87, R88) -/

/-- Frames leave the stores of the pipeline: no hold, RUN, a level below 4, room for a frame in the parser. -/
structure Parses (d : Dev) (z pl : Nat) : Prop where
  held : strHeld d z = false
  run : devRuns d = true
  level : level d z < 4
  room : (pipe d z pl).parsing.length + (pipe d z pl).parsed.length < 240

/-- The parse of `k`, the first frame of its kind, begins; the model frees its blocks at once (log 60). -/
def parseBegun (d : Dev) (z pl : Nat) (k : Pkt) (ex : Bool) : Dev :=
  watchStore (modPipe d z pl (fun x => { x with
    express := if ex then x.express.drop 1 else x.express, normal := if ex then x.normal else x.normal.drop 1
    blocks := x.blocks - cdiv k.bytes.length 64
    parsing := x.parsing ++ [{ pkt := k, res := parsePkt d k, express := ex, start := d.mc }] })) z pl

theorem pipe_parseBegun (d : Dev) (z pl : Nat) (k : Pkt) (ex : Bool) :
    let x := pipe d z pl
    let y := pipe (parseBegun d z pl k ex) z pl
    y.express = (if ex then x.express.drop 1 else x.express) ∧ y.normal = (if ex then x.normal else x.normal.drop 1) ∧
      y.parsing = x.parsing ++ [⟨k, parsePkt d k, ex, d.mc⟩] ∧ y.blocks = x.blocks - cdiv k.bytes.length 64 := by
  unfold parseBegun watchStore
  dsimp only
  rw [pipe_modPipe_same, pipe_modPipe_same]
  exact ⟨rfl, rfl, rfl, rfl⟩

theorem exec_parse_stopped (h : strHeld s.dev z = true ∨ devRuns s.dev = false ∨ 4 ≤ level s.dev z) :
    Machine.exec (.parse z pl) s = .next s := by
  have hno : (strHeld s.dev z || !devRuns s.dev || decide (4 ≤ level s.dev z) ||
      decide (240 ≤ (pipe s.dev z pl).parsing.length + (pipe s.dev z pl).parsed.length)) = true := by
    rcases h with h | h | h
    · simp [h]
    · simp [h]
    · simp [h]
  show execParse z pl s = _
  simp only [execParse, State.onDev, if_pos hno]

theorem Parses.goes (h : Parses d z pl) : (strHeld d z || !devRuns d || decide (4 ≤ Machine.level d z) ||
    decide (240 ≤ (pipe d z pl).parsing.length + (pipe d z pl).parsed.length)) = false := by
  simp [h.held, h.run, h.level, h.room]

theorem exec_parse_express {k : Pkt} {r : List Pkt} (h : Parses s.dev z pl) (hx : (pipe s.dev z pl).express = k :: r)
    (hf : (former s.dev z pl true).stopped = false) :
    Machine.exec (.parse z pl) s = .next { s with dev := parseBegun s.dev z pl k true } := by
  show execParse z pl s = _
  simp only [execParse, State.onDev, h.goes, hx, hf, Bool.false_eq_true, if_false]
  rfl

theorem exec_parse_normal {k : Pkt} {r : List Pkt} (h : Parses s.dev z pl)
    (hx : (pipe s.dev z pl).express = [] ∨ (former s.dev z pl true).stopped = true) (hn : (pipe s.dev z pl).normal = k :: r)
    (hf : (former s.dev z pl false).stopped = false) :
    Machine.exec (.parse z pl) s = .next { s with dev := parseBegun s.dev z pl k false } := by
  show execParse z pl s = _
  cases he : (pipe s.dev z pl).express with
  | nil =>
    simp only [execParse, State.onDev, h.goes, he, hn, hf, Bool.false_eq_true, if_false]
    rfl
  | cons j l =>
    have hstop : (former s.dev z pl true).stopped = true := hx.resolve_left (by simp [he])
    simp only [execParse, State.onDev, h.goes, he, hstop, hn, hf, Bool.false_eq_true, if_false, if_true]
    rfl

theorem parse_express_spec {k : Pkt} {r : List Pkt} (h : Parses s.dev z pl) (hx : (pipe s.dev z pl).express = k :: r)
    (hf : (former s.dev z pl true).stopped = false) :
    ∃ u, Machine.exec (.parse z pl) s = .next u ∧ OnlyDev s u ∧ (pipe u.dev z pl).express = r ∧
      (pipe u.dev z pl).normal = (pipe s.dev z pl).normal ∧
      (pipe u.dev z pl).parsing = (pipe s.dev z pl).parsing ++ [⟨k, parsePkt s.dev k, true, s.dev.mc⟩] ∧
      (pipe u.dev z pl).blocks = (pipe s.dev z pl).blocks - cdiv k.bytes.length 64 := by
  obtain ⟨hex, hno, hpa, hbl⟩ := pipe_parseBegun s.dev z pl k true
  exact ⟨_, exec_parse_express h hx hf, ⟨rfl, rfl⟩, hex.trans (by simp [hx]), hno, hpa, hbl⟩

theorem parse_normal_spec {k : Pkt} {r : List Pkt} (h : Parses s.dev z pl)
    (hx : (pipe s.dev z pl).express = [] ∨ (former s.dev z pl true).stopped = true) (hn : (pipe s.dev z pl).normal = k :: r)
    (hf : (former s.dev z pl false).stopped = false) :
    ∃ u, Machine.exec (.parse z pl) s = .next u ∧ OnlyDev s u ∧ (pipe u.dev z pl).normal = r ∧
      (pipe u.dev z pl).express = (pipe s.dev z pl).express ∧
      (pipe u.dev z pl).parsing = (pipe s.dev z pl).parsing ++ [⟨k, parsePkt s.dev k, false, s.dev.mc⟩] ∧
      (pipe u.dev z pl).blocks = (pipe s.dev z pl).blocks - cdiv k.bytes.length 64 := by
  obtain ⟨hex, hno, hpa, hbl⟩ := pipe_parseBegun s.dev z pl k false
  exact ⟨_, exec_parse_normal h hx hn hf, ⟨rfl, rfl⟩, hno.trans (by simp [hn]), hex, hpa, hbl⟩

end Sys2Proof.Machine
end

section
/-!
Parsed frames and their cells (R88, R95, R99, R100), punt policers (R102), and O34.
-/

namespace Sys2Proof.Machine
open Sys2Proof Sys2Proof.Terms

variable {d e : Dev} {s : State} {z : Zone} {pl : Fin 4} {y : Parsed} {a : Nat}

/-! ## A frame has been parsed (R95, R99, R250) -/

/-- Admission and the counter at `a` are as before. -/
structure CountsBeside (a : Nat) (d e : Dev) : Prop where
  adm : e.adm = d.adm
  ctr : ctr e a = ctr d a

namespace CountsBeside

theorem refl (a : Nat) (d : Dev) : CountsBeside a d d := ⟨rfl, rfl⟩
theorem bump (w : CountsBeside a d e) {b : Nat} (h : a ≠ b) (n : Nat) : CountsBeside a d (bump e b n) := ⟨w.adm, (ctr_bump_ne _ _ h).trans w.ctr⟩
theorem raise (w : CountsBeside a d e) (p n : Nat) : CountsBeside a d (raise e p n) := ⟨(adm_raise ..).trans w.adm, (ctr_raise ..).trans w.ctr⟩
theorem ite (c : Prop) [Decidable c] {x y : Dev} (w : CountsBeside a d x) (g : CountsBeside a d y) : CountsBeside a d (if c then x else y) := by
  split <;> assumption
theorem learnDrop (w : CountsBeside a d e) {z : Nat} (h : a ≠ Rg.TBL_LEARN_DROP z) : CountsBeside a d (learnDrop e z) := (w.bump h 1).raise _ _
theorem useFree (w : CountsBeside a d e) : CountsBeside a d (useFree e) := ⟨w.adm, w.ctr⟩
theorem setLearnQ (w : CountsBeside a d e) (z : Nat) (l : List (List Byte × Nat)) : CountsBeside a d (setLearnQ e z l) := ⟨w.adm, w.ctr⟩

/-- A learn candidate that is dropped counts once; one that is merged or queued counts nowhere. -/
theorem learnCandidate (w : CountsBeside a d e) (h : ∀ z, a ≠ Rg.TBL_LEARN_DROP z) (p : Nat) (key : List Byte) :
    CountsBeside a d (learnCandidate e p key) := by
  unfold Machine.learnCandidate
  dsimp only
  split
  next => exact w
  next =>
    refine .ite _ w (.ite _ (w.learnDrop (h _)) ?_)
    split
    next => exact .ite _ w (.ite _ w.useFree (w.setLearnQ ..).useFree)
    next => exact .ite _ (w.learnDrop (h _)) (w.setLearnQ ..)

end CountsBeside

/-- The frame is counted, also where it is marked or was parsed in part. -/
def parseCounted (d : Dev) (z pl : Nat) (y : Parsed) : Dev :=
  let e := bump d (Rg.STR_PARSED_CNT z pl) 1
  let e := if y.pkt.marked then bump (bump e (Rg.STR_CTRL_CNT z) 1) (Rg.PORT_CTRL z (y.pkt.port % 64)) 1 else e
  if y.res.status.testBit 7 then raise (bump e (Rg.STR_PARTIAL_CNT z) 1) (Rg.pageOf (Rg.baseSTR z)) 1 else e
/-- A malformed frame is counted; the source of another is a learn candidate. -/
def parseJudged (d : Dev) (z : Nat) (y : Parsed) : Dev :=
  match y.res.mal with
  | some m => raise (bump (bump d (Rg.MAL_CNT z m) 1) (Rg.PORT_MAL z (y.pkt.port % 64)) 1) (Rg.pageOf (Rg.baseSTR z)) 0
  | none => learnCandidate d y.pkt.port (learnKey y.pkt.bytes)
/-- The frame is out of the parser. -/
def unparsed (d : Dev) (z pl : Nat) (r : List Parsed) : Dev := modPipe d z pl (fun x => { x with parsing := r })

theorem exec_parseDone {r : List Parsed} (h : (pipe s.dev z pl).parsing = y :: r) (hp : y.res.mal = none ∨ y.res.act ≠ 0) :
    Machine.exec (.parseDone z pl) s = .next { s with
      dev := modPipe (parseJudged (parseCounted (unparsed s.dev z pl r) z pl y) z y) z pl (fun x => { x with parsed := x.parsed ++ [y] }) } := by
  have hkept : (y.res.mal.isSome && y.res.act == 0) = false := by
    rcases hp with hp | hp
    · simp [hp]
    · simp [hp]
  show execParseDone z pl s = _
  unfold parseJudged
  cases hm : y.res.mal with
  | none =>
    simp only [execParseDone, State.onDev, h, hm, Option.isNone_none, Option.isSome_none, Bool.false_and, Bool.false_eq_true, if_true, if_false]
    rfl
  | some m =>
    rw [hm] at hkept
    simp only [execParseDone, State.onDev, h, hm, hkept, Option.isNone_some, Bool.false_eq_true, if_false]
    rfl

/-- The counter at `a` is none of those that a parse counts in beside its own: marked and partial frames, frames by port, dropped candidates. -/
structure OtherCtr (z a : Nat) : Prop where
  marked : a ≠ Rg.STR_CTRL_CNT z
  portMarked : ∀ i, a ≠ Rg.PORT_CTRL z i
  part : a ≠ Rg.STR_PARTIAL_CNT z
  portMal : ∀ i, a ≠ Rg.PORT_MAL z i
  drop : ∀ y, a ≠ Rg.TBL_LEARN_DROP y

/-- A counter of the first STR page that is not the one of marked or of partial frames. -/
theorem otherCtr_of_offset {z o : Nat} (ho : o < 0x1000) (hmarked : o ≠ 0x130) (hpart : o ≠ 0x108) : OtherCtr z (Rg.baseSTR z + o) := by
  refine ⟨?_, fun i => ?_, ?_, fun i => ?_, fun y => ?_⟩
  all_goals
    simp only [Rg.STR_CTRL_CNT, Rg.PORT_CTRL, Rg.STR_PARTIAL_CNT, Rg.PORT_MAL, Rg.TBL_LEARN_DROP, Rg.baseSTR, Rg.baseTBL, Rg.zoneBase]
    omega
theorem otherCtr_parsed (z : Nat) (pl : Fin 4) : OtherCtr z (Rg.STR_PARSED_CNT z pl) := by
  have hpl := pl.isLt
  rw [Rg.STR_PARSED_CNT, Nat.add_assoc]
  exact otherCtr_of_offset (by omega) (by omega) (by omega)
theorem otherCtr_mal (z : Nat) {m : Nat} (hm : m < 16) : OtherCtr z (Rg.MAL_CNT z m) := by
  rw [Rg.MAL_CNT, Nat.add_assoc]
  exact otherCtr_of_offset (by omega) (by omega) (by omega)
theorem parsed_ne_mal (z pl : Nat) {m : Nat} (hm : m < 16) : Rg.STR_PARSED_CNT z pl ≠ Rg.MAL_CNT z m := by
  unfold Rg.STR_PARSED_CNT Rg.MAL_CNT
  omega

/-- Beside the count of parsed frames no counter but those of marked and partial frames changes. -/
theorem parseCounted_beside {z : Nat} (h : OtherCtr z a) (d : Dev) (pl : Nat) (y : Parsed) :
    CountsBeside a (bump d (Rg.STR_PARSED_CNT z pl) 1) (parseCounted d z pl y) := by
  have hmark : CountsBeside a (bump d (Rg.STR_PARSED_CNT z pl) 1) (if y.pkt.marked then
      bump (bump (bump d (Rg.STR_PARSED_CNT z pl) 1) (Rg.STR_CTRL_CNT z) 1) (Rg.PORT_CTRL z (y.pkt.port % 64)) 1
      else bump d (Rg.STR_PARSED_CNT z pl) 1) := .ite _ (((CountsBeside.refl a _).bump h.marked 1).bump (h.portMarked _) 1) (.refl a _)
  exact .ite _ ((hmark.bump h.part 1).raise _ _) hmark

theorem parseJudged_beside {z : Nat} (h : OtherCtr z a) (hm : ∀ m, y.res.mal = some m → a ≠ Rg.MAL_CNT z m) (d : Dev) :
    CountsBeside a d (parseJudged d z y) := by
  unfold parseJudged
  split
  next m hy => exact (((CountsBeside.refl a d).bump (hm m hy) 1).bump (h.portMal _) 1).raise _ _
  next => exact (CountsBeside.refl a d).learnCandidate h.drop _ _

theorem ctr_mal_parseJudged {z m : Nat} (hm : m < 16) (h : y.res.mal = some m) (d : Dev) :
    ctr (parseJudged d z y) (Rg.MAL_CNT z m) = ctr d (Rg.MAL_CNT z m) + 1 := by
  have hw := ((CountsBeside.refl _ (bump d (Rg.MAL_CNT z m) 1)).bump ((otherCtr_mal z hm).portMal (y.pkt.port % 64)) 1).raise (Rg.pageOf (Rg.baseSTR z)) 0
  rw [parseJudged, h]
  exact hw.ctr.trans (ctr_bump_same ..)

theorem parseDone_spec {r : List Parsed} (h : (pipe s.dev z pl).parsing = y :: r) (hp : y.res.mal = none ∨ y.res.act ≠ 0)
    (hm : ∀ m, y.res.mal = some m → m < 16) :
    ∃ u, Machine.exec (.parseDone z pl) s = .next u ∧ OnlyDev s u ∧ (pipe u.dev z pl).parsing = r ∧
      (pipe u.dev z pl).parsed = (pipe s.dev z pl).parsed ++ [y] ∧
      ctr u.dev (Rg.STR_PARSED_CNT z pl) = ctr s.dev (Rg.STR_PARSED_CNT z pl) + 1 ∧
      ∀ m, y.res.mal = some m → ctr u.dev (Rg.MAL_CNT z m) = ctr s.dev (Rg.MAL_CNT z m) + 1 := by
  let d := unparsed s.dev z pl r
  have hcount := parseCounted_beside (otherCtr_parsed z pl) d pl y
  have hjudge := parseJudged_beside (otherCtr_parsed z pl) (fun m h => parsed_ne_mal z pl (hm m h)) (parseCounted d z pl y)
  have hpipe : pipe (parseJudged (parseCounted d z pl y) z y) z pl = { pipe s.dev z pl with parsing := r } :=
    (pipe_congr (hjudge.adm.trans hcount.adm) z pl).trans (pipe_modPipe_same ..)
  refine ⟨_, exec_parseDone h hp, ⟨rfl, rfl⟩, ?_, ?_, ?_, fun m hy => ?_⟩
  · rw [pipe_modPipe_same, hpipe]
  · rw [pipe_modPipe_same, hpipe]
  · exact hjudge.ctr.trans (hcount.ctr.trans (ctr_bump_same ..))
  · refine (ctr_mal_parseJudged (hm m hy) hy _).trans (congrArg (· + 1) ?_)
    exact (parseCounted_beside (otherCtr_mal z (hm m hy)) d pl y).ctr.trans (ctr_bump_ne _ _ (parsed_ne_mal z pl (hm m hy)).symm)

/-! ## The cells of a frame (R88, R95, R122) -/

theorem former_modFormer_same (d : Dev) (z k : Nat) (x : Bool) (f : Former → Former) : former (modFormer d z k x f) z k x = f (former d z k x) := by
  simp [former, modFormer, modBar]

/-- A packet joins an open flight that has room: its lane is the last of the former, and no block but the Barista changes. -/
theorem addLane_room {z k : Nat} {x : Bool} (h : (former d z k x).lanes.length < 32) (l : LaneInit) :
    ∃ b, addLane d z k x l = { d with bar := b } ∧ (former (addLane d z k x l) z k x).lanes = (former d z k x).lanes ++ [l] := by
  unfold addLane watchBacklog
  simp only [if_neg (Nat.not_le.mpr h)]
  split
  · exact ⟨_, rfl, by rw [former_modFormer_same, former_modFormer_same]⟩
  · exact ⟨_, rfl, by rw [former_modFormer_same]⟩

/-- The record of a frame in its cells, which its pipeline owns. -/
def pipeBuf (pl : Nat) (y : Parsed) : Buf :=
  { kind := 1, index := pl, len := y.pkt.bytes.length, bytes := y.pkt.bytes, tstamp := y.pkt.stamp, charged := some (8 * y.pkt.port + y.pkt.cls),
    marked := y.pkt.marked }
/-- That record as it is made at `t`, with the incarnation `i`. -/
def madeBuf (pl : Nat) (y : Parsed) (cells : List Nat) (i : BitVec 8) (t : Nat) : Buf :=
  { pipeBuf pl y with cells := cells, incarn := i, count := 0, stale := false, stamp := t }
/-- The frame has left its pipeline and lies in its cells. -/
def inCells (d : Dev) (z pl : Nat) (y : Parsed) (r : List Parsed) (cells : List Nat) : Dev :=
  fillCells (newBuf (modPipe d z pl (fun x => { x with parsed := r })) z cells (pipeBuf pl y)) z cells y.pkt.bytes.length
/-- The lane of its packet. -/
def laneOf (h : W32) (y : Parsed) : LaneInit :=
  ⟨h, y.pkt.bytes.length, 8 * y.pkt.port + y.pkt.cls, y.pkt.seq, y.pkt.marked, y.pkt.lossless, y.pkt.stamp, headerWindow y, laneMeta y⟩

theorem exec_cellWrite_refused {r : List Parsed} {cells : List Nat} (h : (pipe s.dev z pl).parsed = y :: r)
    (hc : cells.length ≠ cellsOf y.pkt.bytes.length ∨ cellsAvail s.dev z cells = false) : Machine.exec (.cellWrite z pl cells) s = .next s := by
  show execCellWrite z pl cells s = _
  rcases hc with hc | hc
  · simp [execCellWrite, State.onDev, h, hc]
  · simp [execCellWrite, State.onDev, h, hc]

theorem exec_cellWrite_lane {r : List Parsed} {cells : List Nat} (h : (pipe s.dev z pl).parsed = y :: r)
    (hlen : cells.length = cellsOf y.pkt.bytes.length) (hfree : cellsAvail s.dev z cells = true) (hmal : y.res.mal = none)
    (hroom : (former s.dev z pl y.express).lanes.length < 32) :
    Machine.exec (.cellWrite z pl cells) s = .next { s with
      dev := addLane (inCells s.dev z pl y r cells) z pl y.express (laneOf (headHandle (inCells s.dev z pl y r cells) z cells) y) } := by
  have htakes : takesLane s.dev z pl y.express = true := by simp [takesLane, hroom]
  have hgo : (cells.length != cellsOf y.pkt.bytes.length || !cellsAvail s.dev z cells || (!false && !takesLane s.dev z pl y.express)) = false := by
    simp [hlen, hfree, htakes]
  show execCellWrite z pl cells s = _
  simp only [execCellWrite, State.onDev, h, hmal, Option.isSome_none, Bool.false_and, hgo, Bool.false_eq_true, if_false]
  rfl

/-- A frame in its cells: its record, the frames behind it, its cells counted; the Barista is as before. -/
theorem inCells_spec (d : Dev) (z pl : Nat) (y : Parsed) (r : List Parsed) (c : Nat) (cells : List Nat) :
    (∃ t, bufAt (inCells d z pl y r (c :: cells)) (131072 * z + c) =
        madeBuf pl y (c :: cells) ((bufAt d (131072 * z + c)).incarn + 1) t) ∧
      (pipe (inCells d z pl y r (c :: cells)) z pl).parsed = r ∧ (inCells d z pl y r (c :: cells)).bar = d.bar ∧
      ctr (inCells d z pl y r (c :: cells)) (Rg.CELLS_ALLOC z) = ctr d (Rg.CELLS_ALLOC z) + BitVec.ofNat 64 (c :: cells).length := by
  let m := modPipe d z pl (fun x => { x with parsed := r })
  obtain ⟨⟨t, ht⟩, -, -⟩ := newBuf_spec m z c cells (pipeBuf pl y)
  have hadm : (newBuf m z (c :: cells) (pipeBuf pl y)).adm = m.adm := rfl
  have hbar : (newBuf m z (c :: cells) (pipeBuf pl y)).bar = d.bar := rfl
  have hctr : ctr (newBuf m z (c :: cells) (pipeBuf pl y)) (Rg.CELLS_ALLOC z) = ctr d (Rg.CELLS_ALLOC z) + BitVec.ofNat 64 (c :: cells).length := by
    rw [newBuf, ctr_bump_same]
    rfl
  have hpipe : (pipe (newBuf m z (c :: cells) (pipeBuf pl y)) z pl).parsed = r := by rw [pipe_congr hadm, pipe_modPipe_same]
  obtain ⟨w, o, hf⟩ := fillCells_shape (newBuf m z (c :: cells) (pipeBuf pl y)) z (c :: cells) y.pkt.bytes.length
  rw [inCells, hf]
  exact ⟨⟨t, ht⟩, hpipe, hbar, hctr⟩

theorem cellWrite_spec {r : List Parsed} {c : Nat} {cells : List Nat} (h : (pipe s.dev z pl).parsed = y :: r)
    (hlen : (c :: cells).length = cellsOf y.pkt.bytes.length) (hfree : cellsAvail s.dev z (c :: cells) = true) (hmal : y.res.mal = none)
    (hroom : (former s.dev z pl y.express).lanes.length < 32) :
    ∃ u t, Machine.exec (.cellWrite z pl (c :: cells)) s = .next u ∧ OnlyDev s u ∧ (pipe u.dev z pl).parsed = r ∧
      bufAt u.dev (131072 * z.val + c) = madeBuf pl y (c :: cells) ((bufAt s.dev (131072 * z.val + c)).incarn + 1) t ∧
      (former u.dev z pl y.express).lanes = (former s.dev z pl y.express).lanes ++
        [laneOf (mkHandle z c ((bufAt s.dev (131072 * z.val + c)).incarn + 1)) y] ∧
      ctr u.dev (Rg.CELLS_ALLOC z) = ctr s.dev (Rg.CELLS_ALLOC z) + BitVec.ofNat 64 (c :: cells).length := by
  have hexec := exec_cellWrite_lane h hlen hfree hmal hroom
  obtain ⟨⟨t, hbuf⟩, hpipe, hbar, hctr⟩ := inCells_spec s.dev z pl y r c cells
  generalize inCells s.dev z pl y r (c :: cells) = e at hexec hbuf hpipe hbar hctr
  have hformer : former e z pl y.express = former s.dev z pl y.express := by rw [former, hbar, former]
  have hhandle : headHandle e z (c :: cells) = mkHandle z c ((bufAt s.dev (131072 * z.val + c)).incarn + 1) := by
    rw [headHandle, List.headD_cons, hbuf, madeBuf]
  rw [hhandle] at hexec
  obtain ⟨b, hb, hlanes⟩ := addLane_room (hformer.symm ▸ hroom) (laneOf (mkHandle z c ((bufAt s.dev (131072 * z.val + c)).incarn + 1)) y)
  rw [hb] at hexec hlanes
  exact ⟨_, t, hexec, ⟨rfl, rfl⟩, hpipe, hbuf, by rw [hlanes, hformer], hctr⟩

/-! ## Punt policers (R102) -/

/-- A policer of the zone after `n` microseconds: it gains its rate, up to its burst. -/
def policed (d : Dev) (z n p t : Nat) : Nat := min (1000 * rf d (Rg.PUNT_POL z p) Fl.PUNT_POL_BURST) (t + n * rf d (Rg.PUNT_POL z p) Fl.PUNT_POL_RATE)
/-- Policer `p` of the zone takes `n` microseconds. -/
def policeOne (z n : Nat) (d : Dev) (p : Nat) : Dev :=
  { d with adm := { d.adm with tokens := tmod zeroN d.adm.tokens (32 * z + p) (policed d z n p) } }
/-- The refill of the zone at `us` microseconds is noted. -/
def refillNoted (d : Dev) (z us : Nat) : Dev := { d with adm := { d.adm with tokenUs := tset zeroN d.adm.tokenUs z us } }

theorem foldl_policeOne_shape (z n : Nat) (l : List Nat) (d : Dev) :
    ∃ t, l.foldl (policeOne z n) d = { d with adm := { d.adm with tokens := t } } := by
  induction l generalizing d with
  | nil => exact ⟨_, rfl⟩
  | cons p l ih =>
    obtain ⟨t, ht⟩ := ih (policeOne z n d p)
    exact ⟨t, by rw [List.foldl_cons, ht]; rfl⟩

/-- Each policer takes its own step; the rates do not change on the way. -/
theorem tokens_foldl_policeOne (z n : Nat) (d : Dev) {k : Nat} (hk : k < 32) :
    tget zeroN ((List.range 32).foldl (policeOne z n) d).adm.tokens (32 * z + k) = policed d z n k (tget zeroN d.adm.tokens (32 * z + k)) := by
  have hself (e : Dev) (he : e.regs = d.regs) : tget zeroN (policeOne z n e k).adm.tokens (32 * z + k) =
      policed d z n k (tget zeroN e.adm.tokens (32 * z + k)) := by
    rw [show policed d z n k = policed e z n k by unfold policed rf rd; rw [he]]
    exact tget_tmod_same ..
  have hother (e : Dev) (i : Nat) (hi : i ≠ k) : tget zeroN (policeOne z n e i).adm.tokens (32 * z + k) = tget zeroN e.adm.tokens (32 * z + k) :=
    tget_tmod_ne _ _ _ (by omega)
  have hfold := foldl_at (f := policeOne z n) (obs := fun e => tget zeroN e.adm.tokens (32 * z + k)) (new := policed d z n k) (fun e => e.regs = d.regs)
    (fun _ _ he => he) hself hother (List.nodup_range (n := 32)) (x := d) rfl
  exact hfold.trans (if_pos (List.mem_range.mpr hk))

theorem exec_puntPolicerRefill_early (h : nsIn s.dev z / 1000 ≤ tget zeroN s.dev.adm.tokenUs z) :
    Machine.exec (.puntPolicerRefill z) s = .next s := by
  show execPuntPolicerRefill z s = _
  simp only [execPuntPolicerRefill, State.onDev, if_pos h]

theorem exec_puntPolicerRefill_due (h : tget zeroN s.dev.adm.tokenUs z < nsIn s.dev z / 1000) :
    Machine.exec (.puntPolicerRefill z) s = .next { s with
      dev := (List.range 32).foldl (policeOne z (nsIn s.dev z / 1000 - tget zeroN s.dev.adm.tokenUs z)) (refillNoted s.dev z (nsIn s.dev z / 1000)) } := by
  show execPuntPolicerRefill z s = _
  simp only [execPuntPolicerRefill, State.onDev, if_neg (Nat.not_le.mpr h)]
  rfl

theorem puntPolicerRefill_spec (h : tget zeroN s.dev.adm.tokenUs z < nsIn s.dev z / 1000) :
    ∃ u a, Machine.exec (.puntPolicerRefill z) s = .next u ∧ u = { s with dev := { s.dev with adm := a } } ∧
      tget zeroN a.tokenUs z = nsIn s.dev z / 1000 ∧ ∀ k, k < 32 → tget zeroN a.tokens (32 * z.val + k) =
        policed s.dev z (nsIn s.dev z / 1000 - tget zeroN s.dev.adm.tokenUs z) k (tget zeroN s.dev.adm.tokens (32 * z.val + k)) := by
  let n := nsIn s.dev z / 1000 - tget zeroN s.dev.adm.tokenUs z
  let d := refillNoted s.dev z (nsIn s.dev z / 1000)
  obtain ⟨t, ht⟩ := foldl_policeOne_shape z n (List.range 32) d
  refine ⟨_, { d.adm with tokens := t }, exec_puntPolicerRefill_due h, congrArg (fun e => { s with dev := e }) ht, tget_tset_same .., fun k hk => ?_⟩
  exact (congrArg (fun e : Dev => tget zeroN e.adm.tokens (32 * z.val + k)) ht).symm.trans (tokens_foldl_policeOne z n d hk)

/-! ## The statement -/

/-- Settles O34: each clause is the rule of its command. -/
theorem packetsPassTheStrainer : Obligations.PacketsPassTheStrainer := by
  unfold Obligations.PacketsPassTheStrainer
  intro s z pl
  dsimp only
  refine ⟨?_, exec_parse_stopped, fun k r hheld hrun hlevel hroom => ⟨fun hx hf => ?_, fun hx hn hf => ?_⟩,
    fun y r h hp hm => parseDone_spec h hp hm, fun y r cells h => ⟨exec_cellWrite_refused h, fun c cs hcells hlen hfree hmal hroom => ?_⟩,
    exec_puntPolicerRefill_early, fun h => puntPolicerRefill_spec h⟩
  · obtain ⟨f, hf, hadm, hrd⟩ := exec_shedCount z s
    obtain ⟨hregs, hpool⟩ := shedJudged_spec s.dev z
    have hpipe : pipe f z pl = _ := (pipe_congr hadm z pl).trans (pipe_shedJudged s.dev z pl.isLt)
    refine ⟨_, hf, ⟨rfl, rfl⟩, fun a => (hrd a).trans (hregs a), ?_, ?_, (congrArg Pipe.normal hpipe).trans rfl,
      (congrArg Pipe.express hpipe).trans rfl⟩
    · exact ((poolShed_congr (congrArg Adm.poolShed hadm) z).trans hpool).trans (shedStep_eq ..)
    · exact (congrArg Pipe.shed hpipe).trans (shedStep_eq ..)
  · exact parse_express_spec ⟨hheld, hrun, hlevel, hroom⟩ hx hf
  · exact parse_normal_spec ⟨hheld, hrun, hlevel, hroom⟩ hx hn hf
  · subst hcells
    obtain ⟨u, t, hu, hdev, hparsed, hbuf, hlanes, hctr⟩ := cellWrite_spec h hlen hfree hmal hroom
    refine ⟨u, hu, hdev, hparsed, ?_, ?_, ?_, ?_, ?_, ?_, hlanes, hctr⟩
    all_goals rw [hbuf, madeBuf, pipeBuf]

end Sys2Proof.Machine
end

section
/-!
The Barista's watches and the issue of a thread's own instruction: which parts of the state each leaves alone.
-/

namespace Sys2Proof.Machine
open Sys2Proof Sys2Proof.Terms

variable {d e : Dev} {c t : Nat}

/-! ## Cores, flights and fault records as before -/

/-- Registers, cores, the Barista and fault records are as before. -/
structure WorkKept (d e : Dev) : Prop where
  regs : e.regs = d.regs
  core : e.core = d.core
  bar : e.bar = d.bar
  ras : e.ras = d.ras

namespace WorkKept

theorem refl (d : Dev) : WorkKept d d := ⟨rfl, rfl, rfl, rfl⟩
theorem trans {f : Dev} (h : WorkKept d e) (g : WorkKept e f) : WorkKept d f :=
  ⟨g.regs.trans h.regs, g.core.trans h.core, g.bar.trans h.bar, g.ras.trans h.ras⟩
theorem ite (b : Prop) [Decidable b] {x y : Dev} (h : WorkKept d x) (g : WorkKept d y) : WorkKept d (if b then x else y) := by
  split <;> assumption
theorem foldl {β : Type} (f : Dev → β → Dev) (hf : ∀ e x, WorkKept d e → WorkKept d (f e x)) (l : List β) (h : WorkKept d e) :
    WorkKept d (l.foldl f e) := by
  induction l generalizing e with
  | nil => exact h
  | cons x l ih => exact ih (hf e x h)
theorem bump (h : WorkKept d e) (a n : Nat) : WorkKept d (bump e a n) := h.trans ⟨rfl, rfl, rfl, rfl⟩
theorem raise (h : WorkKept d e) (p n : Nat) : WorkKept d (raise e p n) := by
  obtain ⟨_, _, _, hr⟩ := raise_shape e p n
  rw [hr]
  exact h.trans ⟨rfl, rfl, rfl, rfl⟩
theorem modTbl (h : WorkKept d e) (f : Tables → Tables) : WorkKept d (modTbl e f) := h.trans ⟨rfl, rfl, rfl, rfl⟩
theorem modLku (h : WorkKept d e) (f : LockUnit → LockUnit) : WorkKept d (modLku e f) := h.trans ⟨rfl, rfl, rfl, rfl⟩
theorem watchLocks (h : WorkKept d e) : WorkKept d (watchLocks e) := by
  unfold Machine.watchLocks
  refine .foldl _ (fun e x he => ?_) _ h
  dsimp only
  split
  · exact he
  · exact .ite _ (.ite _ (bump (he.modLku _) _ _) ((bump (he.modLku _) _ _).raise _ _)) he
theorem setBusy (h : WorkKept d e) (t : Tab Bool) : WorkKept d { e with egr := { e.egr with oldBusy := t } } :=
  h.trans ⟨rfl, rfl, rfl, rfl⟩
theorem watchBank (h : WorkKept d e) (z : Nat) : WorkKept d (watchBank e z) := .ite _ ((h.setBusy _).raise _ _) (h.setBusy _)
theorem watchOld (h : WorkKept d e) : WorkKept d (watchOld e) := by
  unfold Machine.watchOld
  refine .foldl _ (fun e x he => .ite _ (modTbl ?_ _) he) _ h
  exact .ite _ (he.modTbl _) ((he.modTbl _).raise _ _)
theorem rd (h : WorkKept d e) (a : Nat) : rd e a = rd d a := by simp only [Machine.rd, h.regs]
theorem thr (h : WorkKept d e) (c t : Nat) : thr e c t = thr d c t := thr_congr (congrArg Cores.threads h.core) c t
theorem items (h : WorkKept d e) (pl : Nat) : items e pl = items d pl := by simp only [Machine.items, h.bar]

end WorkKept

/-! ## The locks have been watched (R360) -/

/-- A lock but for the rank last reported of its waiters. -/
def unranked (e : LockEnt) : LockEnt := { e with top := 0 }

/-- Locks whose holders are outranked have been reported. -/
structure Reported (d e : Dev) : Prop where
  shape : ∃ t c p i k, e = { d with lku := { d.lku with table := t }, ctrs := c, pages := p, ic := i, ket := k }
  table : e.lku.table.map unranked = d.lku.table.map unranked
  count : ∀ a, a ≠ Rg.LKU_PI_REPORTS → a ≠ Rg.LKU_PI_HOST → ctr e a = ctr d a

namespace Reported

theorem refl (d : Dev) : Reported d d := ⟨⟨_, _, _, _, _, rfl⟩, rfl, fun _ _ _ => rfl⟩
theorem trans {f : Dev} (h : Reported d e) (g : Reported e f) : Reported d f := by
  obtain ⟨⟨_, _, _, _, _, rfl⟩, ht, hc⟩ := h
  obtain ⟨⟨t, c, p, i, k, rfl⟩, gt, gc⟩ := g
  exact ⟨⟨t, c, p, i, k, rfl⟩, gt.trans ht, fun a h1 h2 => (gc a h1 h2).trans (hc a h1 h2)⟩
theorem ite (q : Prop) [Decidable q] {x y : Dev} (h : Reported d x) (g : Reported d y) : Reported d (if q then x else y) := by
  split <;> assumption
theorem foldl {β : Type} (f : Dev → β → Dev) (hf : ∀ e x, Reported d e → Reported d (f e x)) (l : List β) (h : Reported d e) :
    Reported d (l.foldl f e) := by
  induction l generalizing e with
  | nil => exact h
  | cons x l ih => exact ih (hf e x h)
theorem bump (h : Reported d e) {a : Nat} (ha : a = Rg.LKU_PI_REPORTS ∨ a = Rg.LKU_PI_HOST) (n : Nat) : Reported d (bump e a n) :=
  h.trans ⟨⟨_, _, _, _, _, rfl⟩, rfl, fun _ h1 h2 => ctr_bump_ne _ _ fun hb => ha.elim (fun ha => h1 (hb.trans ha)) fun ha => h2 (hb.trans ha)⟩
theorem raise (h : Reported d e) (p n : Nat) : Reported d (raise e p n) := by
  obtain ⟨q, i, k, hr⟩ := raise_shape e p n
  exact h.trans ⟨⟨_, _, q, i, k, hr⟩, by rw [hr], fun a _ _ => ctr_raise ..⟩
/-- A lock takes a new rank. -/
theorem rank (h : Reported d e) (a r : Nat) : Reported d (modLockEnt e a (fun x => { x with top := r })) := by
  refine h.trans ⟨⟨_, _, _, _, _, rfl⟩, ?_, fun _ _ _ => rfl⟩
  rw [modLockEnt, modLku, List.map_map]
  refine List.map_congr_left fun x _ => ?_
  by_cases hx : (x.addr == a) = true
  · simp only [Function.comp_apply, if_pos hx, unranked]
  · simp only [Function.comp_apply, if_neg hx]

end Reported

theorem reported_watchLocks (d : Dev) : Reported d (watchLocks d) := by
  unfold watchLocks
  refine .foldl _ (fun e x he => ?_) _ (.refl d)
  dsimp only
  split
  · exact he
  · exact .ite _ (.ite _ ((he.rank _ _).bump (.inl rfl) _) (((he.rank _ _).bump (.inr rfl) _).raise _ _)) he

theorem Reported.waiters (h : Reported d e) : e.lku.waiters = d.lku.waiters := by obtain ⟨⟨_, _, _, _, _, rfl⟩, -, -⟩ := h; rfl
theorem Reported.coreOnly (h : Reported d e) : CoreOnlyDev { d with lku := e.lku } e := by
  obtain ⟨⟨_, _, _, _, _, rfl⟩, -, -⟩ := h
  exact ⟨_, _, _, _, _, _, _, _, _, rfl⟩
theorem CoreOnlyDev.setLku (h : CoreOnlyDev d e) (l : LockUnit) : CoreOnlyDev { d with lku := l } { e with lku := l } := by
  obtain ⟨r, c, p, i, k, t, a, b, o, rfl⟩ := h
  exact ⟨r, c, p, i, k, t, a, b, o, rfl⟩
theorem CoreOnlyDev.setEgr (h : CoreOnlyDev d e) (g : Egr) : CoreOnlyDev { d with egr := g } { e with egr := g } := by
  obtain ⟨r, c, p, i, k, t, a, b, o, rfl⟩ := h
  exact ⟨r, c, p, i, k, t, a, b, o, rfl⟩
theorem CoreOnlyDev.egr (h : CoreOnlyDev d e) : e.egr = d.egr := by obtain ⟨_, _, _, _, _, _, _, _, _, rfl⟩ := h; rfl
theorem CoreOnlyDev.lku (h : CoreOnlyDev d e) : e.lku = d.lku := by obtain ⟨_, _, _, _, _, _, _, _, _, rfl⟩ := h; rfl

/-! ## The issue of a thread's own instruction -/

theorem sameWork_coreCtr (d : Dev) (c : Nat) (z : Nat → Nat) (u : Option (Nat → Nat)) : SameWork d (coreCtr d c z u) := by
  unfold coreCtr
  split
  · split
    · exact (SameWork.refl d).bump ..
    · exact .refl d
  · exact (SameWork.refl d).bump ..

/-- Of what the Barista keeps, an issue changes the flights and the cycle of the core's last one alone; tags stay. -/
theorem countIssue_kept (d : Dev) (c t : Nat) :
    (countIssue d c t).core.tags = d.core.tags ∧ ∃ f i, (countIssue d c t).bar = { d.bar with flights := f, issued := i } := by
  unfold countIssue
  dsimp only
  have hctr := sameWork_coreCtr (endYield (setStall d c t .none) c) c Rg.CORE_ISSUED (some Rg.HCC_ISSUED)
  generalize coreCtr (endYield (setStall d c t .none) c) c Rg.CORE_ISSUED (some Rg.HCC_ISSUED) = d1 at hctr ⊢
  generalize hd2 : modThr d1 c t _ = d2
  have hpmc := (SameWork.refl d2).pmc c (if kernelThread (thr d c t) then 2 else 1) 1 (kernelThread (thr d c t)) 0
  generalize pmc d2 _ _ _ _ _ = d3 at hpmc ⊢
  have htags : d3.core.tags = d.core.tags := by
    rw [hpmc.core, ← hd2]
    exact (congrArg Cores.tags hctr.core :)
  have hbar : d3.bar = d.bar := by rw [hpmc.bar, ← hd2]; exact hctr.bar
  split
  · exact ⟨htags, _, _, by rw [modBar, modFlight, modBar, hbar]⟩
  · exact ⟨htags, _, _, hbar⟩

theorem atIssue_kept (d : Dev) (c t : Nat) :
    (atIssue d c t).core.tags = d.core.tags ∧ ∃ f i, (atIssue d c t).bar = { d.bar with flights := f, issued := i } := by
  unfold atIssue fetchAt
  split
  · exact countIssue_kept d c t
  · have hread := (Quiet.refl (countIssue d c t)).sramRead (cidPlace c) (imageArr c (thr d c t).bank) (4 * (thr d c t).pc) 4
    obtain ⟨htags, f, i, hbar⟩ := countIssue_kept d c t
    refine ⟨?_, f, i, hread.bar.trans hbar⟩
    obtain ⟨_, _, _, _, _, _, _, _, hr⟩ := hread
    rw [hr]
    exact htags

theorem items_atIssue (d : Dev) (c t pl : Nat) : items (atIssue d c t) pl = items d pl := by
  obtain ⟨-, _, _, hbar⟩ := atIssue_kept d c t
  simp only [items, hbar]

/-- At its issue a thread takes its place in the round-robin, and every other thread is as it was. -/
theorem thr_atIssue_all (d : Dev) (c t : Nat) :
    ∃ n, ∀ c' t', thr (atIssue d c t) c' t' = if 8 * c' + t' = 8 * c + t then { thr d c t with issued := n } else thr d c' t' := by
  obtain ⟨n, hn⟩ := thr_atIssue d c t c t
  refine ⟨n, fun c' t' => ?_⟩
  obtain ⟨n', hn'⟩ := thr_atIssue d c t c' t'
  split
  next hk => rw [show thr (atIssue d c t) c' t' = thr (atIssue d c t) c t by simp only [thr, hk], hn, if_pos rfl]
  next hk => rw [hn', if_neg hk]

/-- An instruction of format J that meets no cause: its effect on the state at its issue, and beside it what an issue counts. -/
theorem sameWork_jumpOp {op : Nat} {bad priv : Bool} {stack : Thread → Option Nat} {f : BitVec 24} {eff : Dev → Dev} (h : Free d c t)
    (hbad : (bad || fjZero f != 0) = false) (hpriv : priv = false) (hstack : stack (thr d c t) = none)
    (hcalm : (eff (atIssue d c t)).ras.todo = []) : SameWork (eff (atIssue d c t)) (settle (jumpOp op bad priv stack d c t f eff)) := by
  unfold jumpOp
  dsimp only
  rw [issue_runs h.issues _ rfl (cause_none rfl hbad hpriv hstack rfl rfl)]
  refine (sameWork_issueCycle ..).trans (sameWork_settle ?_)
  rw [(sameWork_issueCycle ..).ras]
  exact hcalm

/-- The same of format A where the effect is on the thread. -/
theorem sameWork_threadOp {op : Nat} {m : FormA} {priv perLane : Bool} {stack : Thread → Option Nat} {f : BitVec 24}
    {eff : FA → List Nat → Dev → Dev} (h : Free d c t) (hbad : badA m (fa f) = false) (hpriv : priv = false)
    (hstack : stack (thr d c t) = none)
    (hcalm : (eff (fa f) (actingLanes (thr d c t) ((fa f).s == 4)) (atIssue d c t)).ras.todo = []) :
    SameWork (eff (fa f) (actingLanes (thr d c t) ((fa f).s == 4)) (atIssue d c t)) (settle (threadOp op m priv perLane stack d c t f eff)) := by
  unfold threadOp
  dsimp only
  rw [issue_runs h.issues _ rfl (cause_none rfl hbad hpriv hstack rfl rfl)]
  refine (sameWork_issueCycle ..).trans (sameWork_settle ?_)
  rw [(sameWork_issueCycle ..).ras]
  exact hcalm

theorem SameWork.thr (h : SameWork d e) (c t : Nat) : thr e c t = thr d c t := thr_congr (congrArg Cores.threads h.core) c t
theorem SameWork.items (h : SameWork d e) (pl : Nat) : items e pl = items d pl := by simp only [Machine.items, h.bar]

end Sys2Proof.Machine
end

section
/-!
Instructions of kernel threads (R138, R139, R145, R181, R207): WAIT, POST, PRIO, HALT and RESUME, and O15.
-/

namespace Sys2Proof.Machine
open Sys2Proof Sys2Proof.Terms

variable {d e : Dev} {s : State} {c : Cid} {t : Tid}

theorem kernelThread_of (h : OfKernel x) : kernelThread x = true := by simp [kernelThread, show x.state = 4 from h]

/-! ## WAIT (R139, R145) -/

/-- A thread of the work that ended takes the new tag. -/
def retag (old new : Nat) (x : Thread) : Thread := if x.tag == old then { x with tag := new } else x

theorem retag_eq (old new : Nat) (x : Thread) : ∃ g, retag old new x = { x with tag := g } := by
  unfold retag
  split
  · exact ⟨new, rfl⟩
  · exact ⟨x.tag, rfl⟩

theorem lookup_map_values {α : Type} (g : α → α) (l : Tab α) (k : Nat) : (l.map fun e => (e.1, g e.2)).lookup k = (l.lookup k).map g := by
  induction l with
  | nil => rfl
  | cons e l ih =>
    rw [List.map_cons, lookup_pair, ih, show e :: l = (e.1, e.2) :: l from rfl, lookup_pair]
    split <;> rfl

/-- The work of the thread has ended: its raises are gone, and what ran under its tag has a new one. -/
def workEnded (d : Dev) (c t : Nat) : Dev :=
  let old := (thr d c t).tag
  { d with
    bar := { d.bar with raises := d.bar.raises.filter (fun r => !(r.tag == old || (r.cid == c && r.t == t))) }
    core := { d.core with tags := d.core.tags + 1, threads := d.core.threads.map (fun e => (e.1, retag old (d.core.tags + 1) e.2)) } }

theorem endWork_eq (d : Dev) (c t : Nat) : endWork d c t = watchLocks (workEnded d c t) := by
  have hmap : (fun e : Nat × Thread => if e.2.tag == (thr d c t).tag then (e.1, { e.2 with tag := d.core.tags + 1 }) else e) =
      fun e => (e.1, retag (thr d c t).tag (d.core.tags + 1) e.2) := by
    funext e
    unfold retag
    split <;> rfl
  unfold endWork workEnded
  dsimp only
  rw [← hmap]
  rfl

theorem thr_workEnded (d : Dev) (c t c' t' : Nat) : ∃ g, thr (workEnded d c t) c' t' = { thr d c' t' with tag := g } := by
  simp only [thr, tget, workEnded, lookup_map_values]
  cases d.core.threads.lookup (8 * c' + t') with
  | none => exact ⟨0, rfl⟩
  | some x => exact retag_eq ..

/-- A thread that is listed takes the new tag. -/
theorem thr_workEnded_self {c t : Nat} (h : (thr d c t).state ≠ 0) : thr (workEnded d c t) c t = { thr d c t with tag := d.core.tags + 1 } := by
  have hself : retag (thr d c t).tag (d.core.tags + 1) (thr d c t) = { thr d c t with tag := d.core.tags + 1 } := by simp [retag]
  revert h hself
  simp only [thr, tget, workEnded, lookup_map_values]
  cases d.core.threads.lookup (8 * c + t) with
  | none => exact fun h => absurd rfl h
  | some x => exact fun _ hself => hself

/-- The effect of WAIT. -/
def waited (c t : Nat) (d : Dev) : Dev :=
  let d := endWork d c t
  let d := if kernelRole d c t then modThr d c t (fun x => { x with state := 3, item := none }) else modThr d c t (fun x => { issued := x.issued })
  if isHub c then watchOld d else watchOld (watchBank d (cidZone c))

/-- `e` is `d` after the thread's WAIT in its role: it waits under a new tag, and its raises are gone. -/
structure Waits (c t : Nat) (d e : Dev) : Prop where
  ras : e.ras = d.ras
  self : (thr d c t).state ≠ 0 → thr e c t = { thr d c t with state := 3, item := none, tag := d.core.tags + 1 }
  others : ∀ c' t', 8 * c' + t' ≠ 8 * c + t → ∃ g, thr e c' t' = { thr d c' t' with tag := g }
  raises : e.bar.raises = d.bar.raises.filter (fun r => !(r.tag == (thr d c t).tag || (r.cid == c && r.t == t)))

theorem waits_waited {c t : Nat} (h : kernelRole d c t = true) : Waits c t d (waited c t d) := by
  have hended : WorkKept (workEnded d c t) (endWork d c t) := by
    rw [endWork_eq]
    exact (WorkKept.refl _).watchLocks
  have hrole : kernelRole (endWork d c t) c t = true := by
    rw [kernelRole, rf, hended.rd]
    exact h
  have hkept : WorkKept (modThr (endWork d c t) c t (fun x => { x with state := 3, item := none })) (waited c t d) := by
    unfold waited
    dsimp only
    rw [hrole, if_pos rfl]
    exact .ite _ (WorkKept.refl _).watchOld ((WorkKept.refl _).watchBank _).watchOld
  refine ⟨hkept.ras.trans hended.ras, fun hs => ?_, fun c' t' hne => ?_, ?_⟩
  · rw [hkept.thr, thr_modThr_same, hended.thr, thr_workEnded_self hs]
  · rw [hkept.thr, thr_modThr, if_neg hne, hended.thr]
    exact thr_workEnded ..
  · rw [hkept.bar]
    exact congrArg Bar.raises hended.bar

theorem exec_opWait (f : BitVec 24) : Machine.exec (.opWait c t f) s = .next { s with
    dev := settle (jumpOp 0x63 (f.toNat != 0) (!kernelThread (thr s.dev c t)) noStack s.dev c t f (waited c t)) } := rfl

theorem opWait_spec (h : Free s.dev c t) (hk : OfKernel (thr s.dev c t)) (hr : kernelRole (atIssue s.dev c t) c t = true) :
    ∃ u, Machine.exec (.opWait c t 0) s = .next u ∧ u.mem = s.mem ∧
      (∃ n, thr u.dev c t = { thr s.dev c t with state := 3, item := none, tag := s.dev.core.tags + 1, issued := n }) ∧
      (∀ c' t', 8 * c' + t' ≠ 8 * c.val + t.val → ∃ g, thr u.dev c' t' = { thr s.dev c' t' with tag := g }) ∧
      (∀ r ∈ u.dev.bar.raises, ¬(r.cid = c.val ∧ r.t = t.val) ∧ r.tag ≠ (thr s.dev c t).tag) := by
  obtain ⟨n, hthr⟩ := thr_atIssue_all s.dev c t
  have hissue : thr (atIssue s.dev c t) c t = { thr s.dev c t with issued := n } := (hthr c t).trans (if_pos rfl)
  have hw := waits_waited hr
  have hwork := sameWork_jumpOp (op := 0x63) (bad := (0 : BitVec 24).toNat != 0) (stack := noStack) (f := 0) (eff := waited c t) h rfl
    (priv := !kernelThread (thr s.dev c t)) (by rw [kernelThread_of hk]; rfl) rfl ((congrArg Ras.todo hw.ras).trans h.calm)
  refine ⟨_, exec_opWait 0, rfl, ⟨n, ?_⟩, fun c' t' hne => ?_, fun r hmem => ?_⟩
  · have hstate : (thr (atIssue s.dev c t) c t).state ≠ 0 := by rw [hissue]; exact fun h0 => absurd (hk.symm.trans h0) (by decide)
    rw [hwork.thr, hw.self hstate, hissue, (atIssue_kept ..).1]
  · obtain ⟨g, hg⟩ := hw.others c' t' hne
    exact ⟨g, by rw [hwork.thr, hg, hthr, if_neg hne]⟩
  · rw [hwork.bar, hw.raises, List.mem_filter, hissue] at hmem
    simpa [and_comm, imp_iff_not_or] using hmem.2

/-! ## POST (R138) -/

/-- The item is refused: a zone's Barista counts it and records a malformed one. -/
def postBusy (d : Dev) (pl : Nat) (v : W64) : Dev :=
  let d := if badItem pl v && pl != 0 then modPage d (barPage (pl - 1)) (fun s => { s with err := s.err ||| 8 }) else d
  if pl == 0 then d else raise (bump d (Rg.BAR_POST_BUSY_CNT (pl - 1)) 1) (barPage (pl - 1)) 1

theorem workKept_postBusy (d : Dev) (pl : Nat) (v : W64) : WorkKept d (postBusy d pl v) := by
  have hpage : WorkKept d (if badItem pl v && pl != 0 then modPage d (barPage (pl - 1)) (fun s => { s with err := s.err ||| 8 }) else d) :=
    .ite _ ⟨rfl, rfl, rfl, rfl⟩ (.refl d)
  exact .ite _ hpage ((hpage.bump _ _).raise _ _)

/-- The effect of POST: Z of lane 0 says whether the item was queued. -/
def posted (c t : Nat) (d : Dev) : Dev :=
  let pl := cidPlace c
  let v := (lctx (thr d c t) 0).a
  if badItem pl v || 4096 - (items d pl).length ≤ eventResv d pl then advance (modCtx (postBusy d pl v) c t 0 (fun l => { l with z := false })) c t
  else advance (modCtx (setItems d pl (items d pl ++ [v])) c t 0 (fun l => { l with z := true })) c t

theorem exec_opPost (f : BitVec 24) : Machine.exec (.opPost c t f) s = .next { s with
    dev := settle (jumpOp 0x65 (f.toNat != 0) (!kernelThread (thr s.dev c t)) noStack s.dev c t f (posted c t)) } := by
  show execOpPost c t f s = _
  unfold execOpPost
  rw [State.onDevF, State.onDev]
  dsimp only
  congr 4
  funext d
  unfold posted postBusy
  dsimp only
  cases badItem (cidPlace c) (lctx (thr d c t) 0).a with
  | true => simp only [Bool.true_or, if_true]
  | false => simp only [Bool.false_or, Bool.false_and, Bool.false_eq_true, if_false]

theorem lctx_modCtx_same (d : Dev) (c t n : Nat) (f : LaneCtx → LaneCtx) : lctx (thr (modCtx d c t n f) c t) n = f (lctx (thr d c t) n) := by
  rw [thr_modCtx, if_pos rfl, lctx, tget_tmod_same, lctx]

/-- The thread goes on with Z of lane 0. -/
theorem flagged_spec (h : (thr d c t).pc + 1 < 8192) (b : Bool) (pl : Nat) :
    let e := advance (modCtx d c t 0 (fun l => { l with z := b })) c t
    e.ras = d.ras ∧ items e pl = items d pl ∧ (lctx (thr e c t) 0).z = b ∧ (thr e c t).pc = (thr d c t).pc + 1 := by
  have hpc : (thr (modCtx d c t 0 (fun l => { l with z := b })) c t).pc = (thr d c t).pc := by rw [thr_modCtx, if_pos rfl]
  dsimp only
  rw [advance_eq _ _ _ (by rw [hpc]; exact h), thr_modThr_same, hpc]
  exact ⟨rfl, rfl, congrArg LaneCtx.z (lctx_modCtx_same ..), rfl⟩

theorem items_setItems (d : Dev) (pl : Nat) (l : List W64) : items (setItems d pl l) pl = l := tget_tset_same ..

/-- An item that is well formed and for which there is room is queued last (R138). -/
theorem posted_queued {pl : Nat} {v : W64} (hpl : cidPlace c = pl) (hv : (lctx (thr d c t) 0).a = v) (hpc : (thr d c t).pc + 1 < 8192)
    (hgood : badItem pl v = false) (hroom : eventResv d pl < 4096 - (items d pl).length) :
    (posted c t d).ras = d.ras ∧ items (posted c t d) pl = items d pl ++ [v] ∧ (lctx (thr (posted c t d) c t) 0).z = true ∧
      (thr (posted c t d) c t).pc = (thr d c t).pc + 1 := by
  have heq : posted c t d = advance (modCtx (setItems d pl (items d pl ++ [v])) c t 0 (fun l => { l with z := true })) c t := by
    unfold posted
    simp only [hpl, hv, hgood, Bool.false_or, decide_eq_true_eq, if_neg (Nat.not_le.mpr hroom)]
  obtain ⟨hras, hitems, hz, hnext⟩ := flagged_spec (d := setItems d pl (items d pl ++ [v])) (c := c) (t := t) hpc true pl
  rw [heq]
  exact ⟨hras, hitems.trans (items_setItems ..), hz, hnext⟩

/-- A refused item changes no queue. -/
theorem posted_busy {pl : Nat} {v : W64} (hpl : cidPlace c = pl) (hv : (lctx (thr d c t) 0).a = v) (hpc : (thr d c t).pc + 1 < 8192)
    (hbusy : badItem pl v = true ∨ 4096 - (items d pl).length ≤ eventResv d pl) :
    (posted c t d).ras = d.ras ∧ items (posted c t d) pl = items d pl ∧ (lctx (thr (posted c t d) c t) 0).z = false ∧
      (thr (posted c t d) c t).pc = (thr d c t).pc + 1 := by
  have heq : posted c t d = advance (modCtx (postBusy d pl v) c t 0 (fun l => { l with z := false })) c t := by
    unfold posted
    simp only [hpl, hv]
    exact if_pos (by simpa using hbusy)
  have hkept := workKept_postBusy d pl v
  obtain ⟨hras, hitems, hz, hnext⟩ := flagged_spec (d := postBusy d pl v) (c := c) (t := t) (by rw [hkept.thr]; exact hpc) false pl
  rw [heq]
  exact ⟨hras.trans hkept.ras, hitems.trans (hkept.items _), hz, hnext.trans (by rw [hkept.thr])⟩

theorem opPost_spec (h : Free s.dev c t) (hk : OfKernel (thr s.dev c t)) :
    let v := (lctx (thr s.dev c t) 0).a
    let pl := cidPlace c
    ∃ u, Machine.exec (.opPost c t 0) s = .next u ∧ u.mem = s.mem ∧
      (badItem pl v = false → eventResv (atIssue s.dev c t) pl < 4096 - (items s.dev pl).length →
        items u.dev pl = items s.dev pl ++ [v] ∧ (lctx (thr u.dev c t) 0).z = true) ∧
      (badItem pl v = true ∨ 4096 - (items s.dev pl).length ≤ eventResv (atIssue s.dev c t) pl →
        items u.dev pl = items s.dev pl ∧ (lctx (thr u.dev c t) 0).z = false) ∧
      (thr u.dev c t).pc = (thr s.dev c t).pc + 1 := by
  intro v pl
  obtain ⟨n, hthr⟩ := thr_atIssue_all s.dev c t
  have hissue : thr (atIssue s.dev c t) c t = { thr s.dev c t with issued := n } := (hthr c t).trans (if_pos rfl)
  have hpc : (thr (atIssue s.dev c t) c t).pc = (thr s.dev c t).pc := by rw [hissue]
  have hnext : (thr (atIssue s.dev c t) c t).pc + 1 < 8192 := by rw [hpc]; exact h.next
  have hv : (lctx (thr (atIssue s.dev c t) c t) 0).a = v := by rw [hissue]; rfl
  have hitems := items_atIssue s.dev c t pl
  have hqueued := posted_queued (pl := pl) (v := v) rfl hv hnext
  have hbusy := posted_busy (pl := pl) (v := v) rfl hv hnext
  rw [hitems, hpc] at hqueued hbusy
  have hdone : (posted c t (atIssue s.dev c t)).ras = (atIssue s.dev c t).ras ∧
      (thr (posted c t (atIssue s.dev c t)) c t).pc = (thr s.dev c t).pc + 1 := by
    by_cases hb : badItem pl v = true ∨ 4096 - (items s.dev pl).length ≤ eventResv (atIssue s.dev c t) pl
    · obtain ⟨hras, -, -, hp⟩ := hbusy hb
      exact ⟨hras, hp⟩
    · rw [not_or, Bool.not_eq_true, Nat.not_le] at hb
      obtain ⟨hras, -, -, hp⟩ := hqueued hb.1 hb.2
      exact ⟨hras, hp⟩
  have hwork := sameWork_jumpOp (op := 0x65) (bad := (0 : BitVec 24).toNat != 0) (stack := noStack) (f := 0) (eff := posted c t) h rfl
    (priv := !kernelThread (thr s.dev c t)) (by rw [kernelThread_of hk]; rfl) rfl ((congrArg Ras.todo hdone.1).trans h.calm)
  refine ⟨_, exec_opPost 0, rfl, fun hg hr => ?_, fun hb => ?_, ?_⟩
  · obtain ⟨-, hi, hz, -⟩ := hqueued hg hr
    exact ⟨(hwork.items pl).trans hi, by rw [hwork.thr]; exact hz⟩
  · obtain ⟨-, hi, hz, -⟩ := hbusy hb
    exact ⟨(hwork.items pl).trans hi, by rw [hwork.thr]; exact hz⟩
  · rw [hwork.thr]
    exact hdone.2

/-! ## PRIO (R145, R207) -/

/-- The effect of PRIO. -/
def leveled (c t v : Nat) (d : Dev) : Dev := advance (watchLocks (modThr d c t (fun x => { x with level := v }))) c t

theorem exec_opPrio (f : BitVec 24) : Machine.exec (.opPrio c t f) s = .next { s with
    dev := settle (threadOp 0x66 (formPlain false 0 15) (!kernelThread (thr s.dev c t)) false noStack s.dev c t f (fun a _ => leveled c t a.d)) } := rfl

/-- Fields of format A of which D alone is not 0. -/
theorem fa_of_small {f : BitVec 24} (h : f.toNat < 65536) : fa f = { w := 0, b := 0, s := 0, d := f.toNat } := by
  have hw : f.toNat / 2 ^ 22 % 4 = 0 := by omega
  have hb : f.toNat / 2 ^ 19 % 8 = 0 := by omega
  have hs : f.toNat / 2 ^ 16 % 8 = 0 := by omega
  have hd : f.toNat % 2 ^ 16 = f.toNat := by omega
  rw [fa, hw, hb, hs, hd]

theorem badA_plain {f : BitVec 24} {n : Nat} (h : f.toNat ≤ n) (hn : n < 65536) : badA (formPlain false 0 n) (fa f) = false := by
  simp [badA, fa_of_small (Nat.lt_of_le_of_lt h hn), formPlain, h]

/-- `e` is `d` with thread `t` of core `c` as `g` makes it, and no other thread changed. -/
def ThreadBy (c t : Nat) (g : Thread → Thread) (d e : Dev) : Prop :=
  ∀ c' t', thr e c' t' = if 8 * c' + t' = 8 * c + t then g (thr d c t) else thr d c' t'

/-- The thread that issues is changed by `g`, up to its place in the round-robin. -/
theorem ThreadBy.threadTo {g : Thread → Thread} {u : State} (h : ThreadBy c t g (atIssue s.dev c t) e) (hg : ∀ x n, g { x with issued := n } = { g x with issued := n })
    (hu : SameWork e u.dev) : ThreadTo s u c t g := by
  obtain ⟨n, hthr⟩ := thr_atIssue_all s.dev c t
  refine ⟨⟨n, ?_⟩, fun c' t' hne => ?_⟩
  · rw [hu.thr, h, if_pos rfl, hthr, if_pos rfl, hg]
  · rw [hu.thr, h, if_neg hne, hthr, if_neg hne]

theorem threadBy_leveled {c t : Nat} (v : Nat) (h : (thr d c t).pc + 1 < 8192) : ThreadBy c t (fun x => { x with level := v, pc := x.pc + 1 }) d (leveled c t v d) := by
  have hkept := (WorkKept.refl (modThr d c t (fun x => { x with level := v }))).watchLocks
  have hself : thr (watchLocks (modThr d c t (fun x => { x with level := v }))) c t = { thr d c t with level := v } := by rw [hkept.thr, thr_modThr_same]
  intro c' t'
  rw [leveled, advance_eq _ _ _ (by rw [hself]; exact h), thr_modThr, hself, hkept.thr, thr_modThr]
  split <;> rfl

/-- Beside its core a change of level reports locks alone (R360). -/
theorem leveled_frame {c t : Nat} (v : Nat) (h : (thr d c t).pc + 1 < 8192) :
    ∃ l : LockUnit, CoreOnlyDev { d with lku := l } (leveled c t v d) ∧ (leveled c t v d).ras = d.ras ∧ l.waiters = d.lku.waiters ∧
      l.table.map unranked = d.lku.table.map unranked := by
  have hrep := reported_watchLocks (modThr d c t (fun x => { x with level := v }))
  have hkept := (WorkKept.refl (modThr d c t (fun x => { x with level := v }))).watchLocks
  rw [leveled, advance_eq _ _ _ (by rw [hkept.thr, thr_modThr_same]; exact h)]
  refine ⟨_, (CoreOnlyDev.trans ?_ hrep.coreOnly).modThr _ _ _, hkept.ras, hrep.waiters, hrep.table⟩
  exact ((CoreOnlyDev.refl d).modThr c t _).setLku _

theorem opPrio_spec {f : BitVec 24} (h : Free s.dev c t) (hk : OfKernel (thr s.dev c t)) (hf : f.toNat < 16) :
    ∃ u, Machine.exec (.opPrio c t f) s = .next u ∧ CoreAndReports s u ∧ ThreadTo s u c t (fun x => { x with level := f.toNat, pc := x.pc + 1 }) := by
  obtain ⟨n, hthr⟩ := thr_atIssue_all s.dev c t
  have hnext : (thr (atIssue s.dev c t) c t).pc + 1 < 8192 := by rw [hthr, if_pos rfl]; exact h.next
  have hd : (fa f).d = f.toNat := by rw [fa_of_small (by omega)]
  obtain ⟨l, hcore, hras, hwait, htab⟩ := leveled_frame (fa f).d hnext
  have hissue := coreOnly_atIssue s.dev c t
  have hwork := sameWork_threadOp (op := 0x66) (m := formPlain false 0 15) (priv := !kernelThread (thr s.dev c t)) (perLane := false) (stack := noStack)
    (f := f) (eff := fun a _ => leveled c t a.d) h (badA_plain (by omega) (by omega)) (by rw [kernelThread_of hk]; rfl) rfl ((congrArg Ras.todo hras).trans h.calm)
  refine ⟨_, exec_opPrio f, ⟨l, ⟨rfl, rfl, ?_⟩, hwait.trans (congrArg _ hissue.lku), htab.trans (congrArg _ (congrArg _ hissue.lku))⟩, ?_⟩
  · exact ((hissue.setLku l).trans hcore).work hwork
  · rw [← hd]
    exact (threadBy_leveled _ hnext).threadTo (fun _ _ => rfl) hwork

/-! ## HALT (R181, R207) -/

/-- The effect of HALT. -/
def halted (c t : Nat) (d : Dev) : Dev := coreEvent (haltThread (advance d c t) c t false) c 2

theorem exec_opHalt (f : BitVec 24) : Machine.exec (.opHalt c t f) s = .next { s with
    dev := settle (threadOp 0x75 (formPlain false 0 0) (!kernelThread (thr s.dev c t)) false noStack s.dev c t f (fun _ _ => halted c t)) } := rfl

theorem watchBank_shape (d : Dev) (z : Nat) :
    ∃ b p i k, watchBank d z = { d with egr := { d.egr with oldBusy := b }, pages := p, ic := i, ket := k } := by
  unfold watchBank
  dsimp only
  split
  · obtain ⟨p, i, k, hr⟩ := raise_shape { d with egr := { d.egr with oldBusy := tset (fun _ => false) d.egr.oldBusy z (otherBusy d z) } } (Rg.pageOf (Rg.baseZCTL z)) 0
    exact ⟨_, p, i, k, hr⟩
  · exact ⟨_, _, _, _, rfl⟩

theorem coreEvent_shape (d : Dev) (c n : Nat) : ∃ p i k, coreEvent d c n = { d with pages := p, ic := i, ket := k } := by
  unfold coreEvent
  split
  · exact ⟨_, _, _, rfl⟩
  · exact raise_shape ..

/-- A thread becomes HALTED; beside its core, the record of busy banks and page events alone change. -/
theorem haltThread_shape (d : Dev) (c t : Nat) (q : Bool) :
    ∃ b p i k, haltThread d c t q = { modThr d c t (fun x => { x with state := 5, dbl := q }) with
      egr := { d.egr with oldBusy := b }, pages := p, ic := i, ket := k } := by
  unfold haltThread
  dsimp only
  split
  · exact ⟨_, _, _, _, rfl⟩
  · exact watchBank_shape ..

theorem halted_shape {c t : Nat} (h : (thr d c t).pc + 1 < 8192) :
    ∃ b p i k, halted c t d = { modThr (modThr d c t (fun x => { x with pc := (thr d c t).pc + 1 })) c t (fun x => { x with state := 5, dbl := false }) with
      egr := { d.egr with oldBusy := b }, pages := p, ic := i, ket := k } := by
  rw [halted, advance_eq _ _ _ h]
  obtain ⟨b, _, _, _, hb⟩ := haltThread_shape (modThr d c t (fun x => { x with pc := (thr d c t).pc + 1 })) c t false
  obtain ⟨p, i, k, he⟩ := coreEvent_shape (haltThread (modThr d c t (fun x => { x with pc := (thr d c t).pc + 1 })) c t false) c 2
  exact ⟨b, p, i, k, by rw [he, hb]; rfl⟩

theorem threadBy_halted {c t : Nat} (h : (thr d c t).pc + 1 < 8192) :
    ThreadBy c t (fun x => { x with state := 5, dbl := false, pc := x.pc + 1 }) d (halted c t d) := by
  obtain ⟨_, _, _, _, heq⟩ := halted_shape h
  intro c' t'
  rw [heq]
  show thr (modThr (modThr d c t _) c t _) c' t' = _
  rw [thr_modThr, thr_modThr_same, thr_modThr]
  split <;> rfl

theorem opHalt_spec (h : Free s.dev c t) (hk : OfKernel (thr s.dev c t)) :
    ∃ u b, Machine.exec (.opHalt c t 0) s = .next u ∧ CoreOnly { s with dev := { s.dev with egr := { s.dev.egr with oldBusy := b } } } u ∧
      ThreadTo s u c t (fun x => { x with state := 5, dbl := false, pc := x.pc + 1 }) := by
  obtain ⟨n, hthr⟩ := thr_atIssue_all s.dev c t
  have hnext : (thr (atIssue s.dev c t) c t).pc + 1 < 8192 := by rw [hthr, if_pos rfl]; exact h.next
  have hissue := coreOnly_atIssue s.dev c t
  obtain ⟨b, p, i, k, heq⟩ := halted_shape hnext
  have hframe : CoreOnlyDev { atIssue s.dev c t with egr := { s.dev.egr with oldBusy := b } } (halted c t (atIssue s.dev c t)) := by
    rw [heq, hissue.egr]
    exact ⟨_, _, _, _, _, _, _, _, _, rfl⟩
  have hwork := sameWork_threadOp (op := 0x75) (m := formPlain false 0 0) (priv := !kernelThread (thr s.dev c t)) (perLane := false) (stack := noStack)
    (f := 0) (eff := fun _ _ => halted c t) h rfl (by rw [kernelThread_of hk]; rfl) rfl (by rw [heq]; exact h.calm)
  exact ⟨_, b, exec_opHalt 0, ⟨rfl, rfl, ((hissue.setEgr _).trans hframe).work hwork⟩, (threadBy_halted hnext).threadTo (fun _ _ => rfl) hwork⟩

/-! ## RESUME (R181) -/

/-- A HALTED thread runs again: after its HALT, or at CSR_TPC after a double trap. -/
def resumed (x : Thread) : Thread :=
  if x.state != 5 then x else if x.dbl then { x with state := 4, pc := x.tpc, inTrap := false, dbl := false } else { x with state := 4 }

/-- One thread of the core is resumed, if it is HALTED. -/
def resumeThread (c : Nat) (d : Dev) (t : Nat) : Dev :=
  if (thr d c t).state != 5 then d
  else modThr d c t (fun x => if x.dbl then { x with state := 4, pc := x.tpc, inTrap := false, dbl := false } else { x with state := 4 })

theorem resumeThreads_eq (d : Dev) (c : Nat) (v : W32) : resumeThreads d c v = (bitsOf v.toNat 8).foldl (resumeThread c) d := rfl

theorem thr_resumeThread (d : Dev) (c k t : Nat) : thr (resumeThread c d k) c t = if t = k then resumed (thr d c t) else thr d c t := by
  unfold resumeThread resumed
  by_cases htk : t = k
  · subst htk
    split
    · simp
    · rw [thr_modThr_same, if_pos rfl]
  · rw [if_neg htk]
    split
    · rfl
    · rw [thr_modThr, if_neg (by omega)]

/-- RESUME acts on each thread that its word names. -/
theorem thr_resumeThreads (d : Dev) (c : Nat) (v : W32) {t : Nat} (ht : t < 8) (hv : v.toNat.testBit t = true) :
    thr (resumeThreads d c v) c t = resumed (thr d c t) := by
  have hfold := foldl_at (f := resumeThread c) (obs := fun d => thr d c t) (c := t) (new := resumed) (fun _ => True) (fun _ _ _ => trivial)
    (fun e _ => (thr_resumeThread ..).trans (if_pos rfl)) (fun e i hi => (thr_resumeThread ..).trans (if_neg (Ne.symm hi)))
    (nodup_bitsOf v.toNat 8) (x := d) trivial
  rw [resumeThreads_eq]
  exact hfold.trans (if_pos (mem_bitsOf.mpr ⟨ht, hv⟩))

theorem exec_resume {pg : BitVec 14} {m : Master} {c o : Nat} (hk : (pageId pg.toNat).bind kctrlOf = some (c, o))
    (ha : Admits s.dev (Rg.pageOf (0x1000 * pg.toNat + o)) m) (v : W32) :
    Machine.exec (.resume pg m v) s = .next { s with dev := resumeThreads s.dev c v } := by
  show execResume pg m v s = _
  simp only [execResume, State.onDev, hk, guardWrite_ok ha]

theorem resume_spec {pg : BitVec 14} {m : Master} {v : W32} {c o : Nat} (hk : (pageId pg.toNat).bind kctrlOf = some (c, o))
    (ha : Admits s.dev (Rg.pageOf (0x1000 * pg.toNat + o)) m) (hv : v.toNat.testBit t.val = true) (hs : (thr s.dev c t).state = 5) :
    ∃ u, Machine.exec (.resume pg m v) s = .next u ∧ u.mem = s.mem ∧ (thr u.dev c t).state = 4 ∧
      (thr u.dev c t).pc = (if (thr s.dev c t).dbl then (thr s.dev c t).tpc else (thr s.dev c t).pc) ∧
      (thr u.dev c t).inTrap = (if (thr s.dev c t).dbl then false else (thr s.dev c t).inTrap) := by
  have hthr := thr_resumeThreads s.dev c v t.isLt hv
  refine ⟨_, exec_resume hk ha v, rfl, ?_⟩
  rw [hthr]
  cases hd : (thr s.dev c t).dbl with
  | true => simp [resumed, hs, hd]
  | false => simp [resumed, hs, hd]

/-! ## The statement -/

/-- Settles O15: each clause is the rule of its command. -/
theorem kernelThreadInstructions : Obligations.KernelThreadInstructions := by
  unfold Obligations.KernelThreadInstructions
  exact ⟨fun _ _ _ h hk hr => opWait_spec h hk hr, fun _ _ _ h hk => opPost_spec h hk, fun _ _ _ _ h hk hf => opPrio_spec h hk hf,
    fun _ _ _ h hk => opHalt_spec h hk, fun _ _ _ _ _ _ _ hb ha hv hs => resume_spec hb ha hv hs⟩

end Sys2Proof.Machine
end

section
/-!
Formers, express windows and the active set (R122 to R128, R141, R143, R150).
-/

namespace Sys2Proof.Machine
open Sys2Proof Sys2Proof.Terms

variable {d e : Dev} {s : State} {z : Zone} {pl : Fin 4} {ex : Bool}

/-! ## Watches of the formers (R31, R125) -/

theorem former_modFormer (d : Dev) (z k : Nat) (x : Bool) (f : Former → Former) (z' k' : Nat) (x' : Bool) :
    former (modFormer d z k x f) z' k' x' = if 8 * z' + 2 * k' + b2n x' = 8 * z + 2 * k + b2n x then f (former d z k x) else former d z' k' x' := by
  simp only [former, modFormer, modBar, tget_tmod]

/-- Formers have been stopped, resumed or caught up: beside them, page events alone change, and every open flight is as before. -/
structure Watched (d e : Dev) : Prop where
  shape : ∃ f p i k, e = { d with bar := { d.bar with formers := f }, pages := p, ic := i, ket := k }
  lanes : ∀ z k x, (former e z k x).lanes = (former d z k x).lanes

namespace Watched

theorem refl (d : Dev) : Watched d d := ⟨⟨_, _, _, _, rfl⟩, fun _ _ _ => rfl⟩
theorem trans {f : Dev} (h : Watched d e) (g : Watched e f) : Watched d f := by
  obtain ⟨⟨_, _, _, _, rfl⟩, hl⟩ := h
  obtain ⟨⟨f, p, i, k, rfl⟩, gl⟩ := g
  exact ⟨⟨f, p, i, k, rfl⟩, fun z k x => (gl z k x).trans (hl z k x)⟩
theorem ite (q : Prop) [Decidable q] {x y : Dev} (h : Watched d x) (g : Watched d y) : Watched d (if q then x else y) := by
  split <;> assumption
theorem foldl {β : Type} (f : Dev → β → Dev) (hf : ∀ e x, Watched d e → Watched d (f e x)) (l : List β) (h : Watched d e) :
    Watched d (l.foldl f e) := by
  induction l generalizing e with
  | nil => exact h
  | cons x l ih => exact ih (hf e x h)
theorem raise (h : Watched d e) (p n : Nat) : Watched d (raise e p n) := by
  obtain ⟨q, i, k, hr⟩ := raise_shape e p n
  exact h.trans ⟨⟨_, q, i, k, hr⟩, fun _ _ _ => by rw [hr]; rfl⟩
theorem modFormer (h : Watched d e) (z k : Nat) (x : Bool) {f : Former → Former} (hf : ∀ y, (f y).lanes = y.lanes) :
    Watched d (modFormer e z k x f) := by
  refine h.trans ⟨⟨_, _, _, _, rfl⟩, fun z' k' x' => ?_⟩
  rw [former_modFormer]
  split
  next hkey => rw [hf, former, former, hkey]
  next => rfl

theorem flights (h : Watched d e) : e.bar.flights = d.bar.flights := by obtain ⟨⟨_, _, _, _, rfl⟩, -⟩ := h; rfl
theorem calm (h : Watched d e) (hc : Calm d) : Calm e := by obtain ⟨⟨_, _, _, _, rfl⟩, -⟩ := h; exact hc
theorem rd (h : Watched d e) (a : Nat) : rd e a = rd d a := by obtain ⟨⟨_, _, _, _, rfl⟩, -⟩ := h; rfl
theorem entriesUsed (h : Watched d e) (z : Nat) : entriesUsed e z = entriesUsed d z := by obtain ⟨⟨_, _, _, _, rfl⟩, -⟩ := h; rfl
theorem availEntries (h : Watched d e) (z : Nat) (x : Bool) : availEntries e z x = availEntries d z x := by obtain ⟨⟨_, _, _, _, rfl⟩, -⟩ := h; rfl

end Watched

theorem watched_watchFormers (d : Dev) (z : Nat) : Watched d (watchFormers d z) := by
  unfold watchFormers
  refine .foldl _ (fun e i he => ?_) _ (.refl d)
  refine .ite _ (.raise (he.modFormer _ _ _ ?_) _ _) (.ite _ (he.modFormer _ _ _ ?_) he)
  · exact fun _ => rfl
  · exact fun _ => rfl
theorem watched_watchBacklog (d : Dev) (z k : Nat) (x : Bool) : Watched d (watchBacklog d z k x) :=
  .ite _ ((Watched.refl d).modFormer _ _ _ fun _ => rfl) (.refl d)

/-! ## A former closes its open flight (R122 to R126) -/

theorem staysOpen_iff {z k : Nat} {x : Bool} : staysOpen d z k x = true ↔ (former d z k x).lanes.length < 32 ∧
    (((former d z k x).stopped = true ∨ 4 ≤ level d z) ∧ comingTo d z k x = true ∨ (former d z k x).backlog = true ∧ waitsFor d z k x = true) := by
  simp only [staysOpen, Bool.and_eq_true, Bool.or_eq_true, decide_eq_true_eq]

/-- That a former has caught up makes its flight stay open no less: it had nothing to wait for. -/
theorem staysOpen_watchBacklog (d : Dev) (z k : Nat) (x : Bool) : staysOpen (watchBacklog d z k x) z k x = staysOpen d z k x := by
  unfold watchBacklog
  split
  next h =>
    rw [Bool.and_eq_true, Bool.not_eq_true'] at h
    obtain ⟨-, hw⟩ := h
    unfold staysOpen
    dsimp only
    rw [former_modFormer_same, show waitsFor (modFormer d z k x _) z k x = waitsFor d z k x from rfl, hw, Bool.and_false, Bool.and_false]
    rfl
  next => rfl

/-- The flight that enters the queue. -/
def flightOf (d : Dev) (z k : Nat) (x : Bool) : Flight :=
  let r := Rg.BAR_FORMER z k
  { id := d.bar.seq + 1, entry := freeEntryOf d z, zone := z
    cls := rf d r (if x then Fl.BAR_FORMER_XCLASS else Fl.BAR_FORMER_NCLASS)
    level := rf d r (if x then Fl.BAR_FORMER_XLEVEL else Fl.BAR_FORMER_NLEVEL)
    pipe := k, express := x, bank := activeBank d z, lanes := (former d z k x).lanes, loc := .queued, group := 0, displaced := false
    faultCore := none, demoted := false, issues := 0, copyOf := none, copied := false, finished := false, order := d.bar.seq + 1
    owner := none, placed := 0, trace := [], results := [], verdicts := [] }
/-- It has entered, and its former is empty. -/
def entered (d : Dev) (z k : Nat) (x : Bool) : Dev :=
  modBar (modFormer (nextSeq d) z k x (fun f => { f with lanes := [] })) (fun b => { b with flights := b.flights ++ [flightOf d z k x] })

theorem closeFlight_none {z k : Nat} {x : Bool} (h : (former d z k x).lanes = [] ∨ availEntries d z x = 0) : closeFlight d z k x = d := by
  unfold closeFlight
  exact if_pos (by simpa using h)

theorem freeEntryOf_spec {z : Nat} (h : (entriesUsed d z).length < 1024) : freeEntryOf d z < 1024 ∧ freeEntryOf d z ∉ entriesUsed d z := by
  obtain ⟨i, hi, hfree⟩ : ∃ i ∈ List.range 1024, i ∉ entriesUsed d z := by
    by_contra hall
    push Not at hall
    have hle := (List.subperm_of_subset (List.nodup_range (n := 1024)) hall).length_le
    rw [List.length_range] at hle
    omega
  unfold freeEntryOf
  cases hf : (List.range 1024).find? (fun i => !(entriesUsed d z).contains i) with
  | none => exact absurd (List.find?_eq_none.mp hf i hi) (by simpa using hfree)
  | some n => exact ⟨List.mem_range.mp (List.mem_of_find?_eq_some hf), by simpa using List.find?_some hf⟩

theorem length_entriesUsed_of_avail {z : Nat} {x : Bool} (h : 0 < availEntries d z x) : (entriesUsed d z).length < 1024 := by
  unfold availEntries at h
  dsimp only at h
  split at h <;> omega

/-- The flight that enters takes a free entry. -/
theorem entry_flightOf {z k : Nat} {x : Bool} (h : 0 < availEntries d z x) :
    (flightOf d z k x).entry < 1024 ∧ (flightOf d z k x).entry ∉ entriesUsed d z := by
  have heq : (flightOf d z k x).entry = freeEntryOf d z := by simp only [flightOf]
  rw [heq]
  exact freeEntryOf_spec (length_entriesUsed_of_avail h)

theorem calm_watchGrow {z : Nat} (hc : Calm d) : Calm (watchGrow d z) := hc
theorem flights_watchGrow (d : Dev) (z : Nat) : (watchGrow d z).bar.flights = d.bar.flights := rfl
theorem former_watchGrow (d : Dev) (z z' k : Nat) (x : Bool) : former (watchGrow d z) z' k x = former d z' k x := rfl
theorem flights_entered (d : Dev) (z k : Nat) (x : Bool) : (entered d z k x).bar.flights = d.bar.flights ++ [flightOf d z k x] := rfl
theorem calm_entered {z k : Nat} {x : Bool} (hc : Calm d) : Calm (entered d z k x) := hc
theorem lanes_entered (d : Dev) (z k : Nat) (x : Bool) : (former (entered d z k x) z k x).lanes = [] :=
  congrArg Former.lanes (former_modFormer_same (nextSeq d) z k x (fun f => { f with lanes := [] }))

/-- A flight that can enter the queue is its last, and its former is empty (R122 to R124). -/
theorem closeFlight_some {z k : Nat} {x : Bool} (hc : Calm d) (hl : (former d z k x).lanes ≠ []) (ha : 0 < availEntries d z x) :
    Calm (closeFlight d z k x) ∧ (closeFlight d z k x).bar.flights = d.bar.flights ++ [flightOf d z k x] ∧
      (former (closeFlight d z k x) z k x).lanes = [] := by
  have heq : closeFlight d z k x = watchGrow (watchFormers (entered d z k x) z) z := by
    unfold closeFlight
    exact if_neg (by simp [hl, Nat.ne_of_gt ha])
  have hafter := watched_watchFormers (entered d z k x) z
  rw [heq]
  exact ⟨calm_watchGrow (hafter.calm (calm_entered hc)), (flights_watchGrow ..).trans (hafter.flights.trans (flights_entered ..)),
    (congrArg Former.lanes (former_watchGrow ..)).trans ((hafter.lanes ..).trans (lanes_entered ..))⟩

theorem exec_flightClose (z : Zone) (pl : Fin 4) (ex : Bool) (s : State) : Machine.exec (.flightClose z pl ex) s = .next { s with
    dev := settle (if staysOpen s.dev z pl ex then watchBacklog s.dev z pl ex else closeFlight (watchBacklog s.dev z pl ex) z pl ex) } := by
  rw [← staysOpen_watchBacklog]
  rfl

/-- Nothing closes. -/
theorem flightClose_stays (hc : Calm s.dev)
    (h : (former s.dev z pl ex).lanes = [] ∨ staysOpen s.dev z pl ex = true ∨ availEntries s.dev z ex = 0) :
    ∃ u, Machine.exec (.flightClose z pl ex) s = .next u ∧ OnlyDev s u ∧ u.dev.bar.flights = s.dev.bar.flights ∧
      (former u.dev z pl ex).lanes = (former s.dev z pl ex).lanes := by
  have hw := watched_watchBacklog s.dev z pl ex
  have heq : (if staysOpen s.dev z pl ex then watchBacklog s.dev z pl ex else closeFlight (watchBacklog s.dev z pl ex) z pl ex) = watchBacklog s.dev z pl ex := by
    split
    next => rfl
    next hopen =>
      refine closeFlight_none ?_
      rw [hw.lanes, hw.availEntries]
      exact h.imp_right fun h => h.resolve_left hopen
  rw [exec_flightClose, heq, settle_of_calm (hw.calm hc)]
  exact ⟨_, rfl, ⟨rfl, rfl⟩, hw.flights, hw.lanes ..⟩

/-- The open flight enters the queue. -/
theorem flightClose_closes (hc : Calm s.dev) (hl : (former s.dev z pl ex).lanes ≠ []) (hopen : staysOpen s.dev z pl ex = false)
    (ha : 0 < availEntries s.dev z ex) :
    ∃ u x, Machine.exec (.flightClose z pl ex) s = .next u ∧ OnlyDev s u ∧ u.dev.bar.flights = s.dev.bar.flights ++ [x] ∧
      (former u.dev z pl ex).lanes = [] ∧ x.lanes = (former s.dev z pl ex).lanes ∧ x.zone = z.val ∧ x.loc = .queued ∧ x.bank = activeBank s.dev z ∧
      x.entry < 1024 ∧ x.entry ∉ entriesUsed s.dev z ∧
      x.level = rf s.dev (Rg.BAR_FORMER z pl) (if ex then Fl.BAR_FORMER_XLEVEL else Fl.BAR_FORMER_NLEVEL) ∧
      x.cls = rf s.dev (Rg.BAR_FORMER z pl) (if ex then Fl.BAR_FORMER_XCLASS else Fl.BAR_FORMER_NCLASS) := by
  have hw := watched_watchBacklog s.dev z pl ex
  obtain ⟨hcalm, hflights, hlanes⟩ := closeFlight_some (hw.calm hc) (z := z) (k := pl) (x := ex) (by rw [hw.lanes]; exact hl) (by rw [hw.availEntries]; exact ha)
  obtain ⟨hentry, hfree⟩ := entry_flightOf (d := watchBacklog s.dev z pl ex) (z := z) (k := pl) (x := ex) (by rw [hw.availEntries]; exact ha)
  rw [hw.flights] at hflights
  rw [hw.entriesUsed] at hfree
  rw [exec_flightClose, if_neg (by simp [hopen]), settle_of_calm hcalm]
  exact ⟨_, flightOf (watchBacklog s.dev z pl ex) z pl ex, rfl, ⟨rfl, rfl⟩, hflights, hlanes, hw.lanes .., rfl, rfl, rf_congr (hw.rd _) _, hentry, hfree,
    rf_congr (hw.rd _) _, rf_congr (hw.rd _) _⟩

/-! ## Express windows and the active set (R128, R141) -/

theorem barz_modBarz (d : Dev) (z : Nat) (f : BarZone → BarZone) (y : Nat) : barz (modBarz d z f) y = if y = z then f (barz d z) else barz d y := by
  simp only [barz, modBarz, modBar, tget_tmod]
theorem barz_modBarz_same (d : Dev) (z : Nat) (f : BarZone → BarZone) : barz (modBarz d z f) z = f (barz d z) := by simp [barz_modBarz]

theorem enterWindow_in {z : Nat} (h : (barz d z).window = d.mc / 64) : enterWindow d z = d := if_pos (by simp [h])

theorem enterWindow_new {z : Nat} (h : (barz d z).window ≠ d.mc / 64) :
    enterWindow d z = modBarz d z (fun b => { b with window := d.mc / 64, expressUsed := 0 }) := if_neg (by simpa using h)

theorem testBit_setBit (x n i : Nat) : (setBit x n).testBit i = (x.testBit i || decide (i = n)) := by
  rw [setBit, Nat.testBit_or, Nat.one_shiftLeft, Nat.testBit_two_pow]
  simp only [eq_comm]

theorem testBit_pred_of_odd {q : Nat} (h : q % 2 = 1) (k : Nat) : (q - 1).testBit k = (q.testBit k && decide (k ≠ 0)) := by
  cases k with
  | zero =>
    have heven : (q - 1) % 2 = 0 := by omega
    simp [Nat.testBit_zero, heven]
  | succ k =>
    have hhalf : (q - 1) / 2 = q / 2 := by omega
    simp [Nat.testBit_succ, hhalf]

theorem testBit_clrBit (x n i : Nat) : (clrBit x n).testBit i = (x.testBit i && decide (i ≠ n)) := by
  unfold clrBit
  split
  next hx =>
    have hodd : x / 2 ^ n % 2 = 1 := of_decide_eq_true (Nat.testBit_eq_decide_div_mod_eq ▸ hx)
    have hpos := Nat.two_pow_pos n
    have hrem : x % 2 ^ n < 2 ^ n := Nat.mod_lt _ hpos
    have hsub : x - 2 ^ n = 2 ^ n * (x / 2 ^ n - 1) + x % 2 ^ n := by
      have hdiv := Nat.div_add_mod x (2 ^ n)
      rw [← Nat.sub_add_cancel (Nat.div_pos (Nat.ge_two_pow_of_testBit hx) hpos), Nat.mul_add, Nat.mul_one, Nat.add_right_comm] at hdiv
      exact Nat.sub_eq_of_eq_add hdiv.symm
    rw [Nat.one_shiftLeft, hsub, Nat.testBit_two_pow_mul_add _ hrem, testBit_pred_of_odd hodd]
    split
    next hlt => simp [Nat.testBit_mod_two_pow, hlt, Nat.ne_of_lt hlt]
    next hge =>
      rw [Nat.testBit_div_two_pow, Nat.sub_add_cancel (Nat.not_lt.mp hge)]
      congr 2
      simp only [ne_eq, eq_iff_iff]
      omega
  next hx =>
    by_cases hi : i = n
    · simp [hi, hx]
    · simp [hi]

theorem exec_expressWindow (z : Zone) (s : State) : Machine.exec (.expressWindow z) s = .next { s with dev := enterWindow s.dev z } := rfl

theorem exec_activeGrow_waits (h : (barz s.dev z).growSince = none) : Machine.exec (.activeGrow z) s = .next s := by
  show execActiveGrow z s = _
  simp only [execActiveGrow, State.onDev, h]

/-- The next core in service joins. -/
theorem exec_activeGrow {t k : Nat} (h : (barz s.dev z).growSince = some t) (hp : rb s.dev (Rg.BAR_CTRL z) Fl.BAR_CTRL_PACK_EN = true)
    (ht : t + 16 ≤ s.dev.mc) (hk : (serviceCores s.dev z).find? (fun k => !(barz s.dev z).active.testBit k) = some k) :
    Machine.exec (.activeGrow z) s = .next { s with
      dev := modBarz s.dev z (fun b => { b with active := setBit b.active k, growSince := some s.dev.mc }) } := by
  show execActiveGrow z s = _
  simp only [execActiveGrow, State.onDev, h, hp, ht, hk, decide_true, Bool.and_self, if_true]

/-- The highest core of the set leaves. -/
theorem exec_activeShrink {k : Nat} (hk : (packed s.dev z).getLast? = some k) (hp : rb s.dev (Rg.BAR_CTRL z) Fl.BAR_CTRL_PACK_EN = true)
    (hm : rf s.dev (Rg.BAR_PACK z) Fl.BAR_PACK_MIN_ACTIVE < (packed s.dev z).length)
    (hi : tget zeroN s.dev.bar.issued (32 * z.val + k) + 32 * rf s.dev (Rg.BAR_PACK z) Fl.BAR_PACK_SHRINK ≤ s.dev.mc) :
    Machine.exec (.activeShrink z) s = .next { s with dev := modBarz s.dev z (fun b => { b with active := clrBit b.active k }) } := by
  show execActiveShrink z s = _
  simp only [execActiveShrink, State.onDev, hk, hp, hm, hi, decide_true, Bool.and_self, if_true]

theorem exec_activeShrink_min (h : (packed s.dev z).length ≤ rf s.dev (Rg.BAR_PACK z) Fl.BAR_PACK_MIN_ACTIVE) :
    Machine.exec (.activeShrink z) s = .next s := by
  show execActiveShrink z s = _
  simp only [execActiveShrink, State.onDev]
  split
  · simp [Nat.not_lt.mpr h]
  · rfl

/-! ## A flight lost waits again (R150) -/

/-- A flight of the list that has the number of one changed is a changed one. -/
theorem mem_modFlight {id : Nat} {g : Flight → Flight} {y : Flight} (hy : y ∈ (modFlight d id g).bar.flights)
    (hid : y.id = id) : ∃ x ∈ d.bar.flights, y = g x := by
  obtain ⟨x, hx, rfl⟩ := List.mem_map.mp hy
  by_cases h : (x.id == id) = true
  · exact ⟨x, hx, if_pos h⟩
  · rw [if_neg h] at hid
    exact absurd (beq_iff_eq.mpr hid) h

/-- The flight `id` is in the queue again, and counted. -/
def requeued (d : Dev) (z id : Nat) : Dev := bump (modFlight d id (fun x => { x with loc := .queued })) (Rg.BAR_REEXEC z) 1

theorem exec_flightRebuild {n : Nat} {f : Flight} (hf : (zoneFlights s.dev z).find? (fun f => f.entry == n && f.loc == .lost) = some f) :
    Machine.exec (.flightRebuild z n) s = .next { s with dev := settle (watchGrow (requeued s.dev z f.id) z) } := by
  show execFlightRebuild z n s = _
  simp only [execFlightRebuild, State.onDevF, State.onDev, hf, requeued]

theorem ctr_watchGrow (d : Dev) (z a : Nat) : ctr (watchGrow d z) a = ctr d a := rfl
theorem calm_requeued {z id : Nat} (hc : Calm d) : Calm (requeued d z id) := hc
theorem loc_requeued {z id : Nat} {y : Flight} (hy : y ∈ (requeued d z id).bar.flights) (hid : y.id = id) : y.loc = .queued := by
  obtain ⟨x, -, rfl⟩ := mem_modFlight (g := fun x => { x with loc := .queued }) hy hid
  rfl
theorem ctr_requeued (d : Dev) (z id : Nat) : ctr (requeued d z id) (Rg.BAR_REEXEC z) = ctr d (Rg.BAR_REEXEC z) + 1 := ctr_bump_same ..

theorem flightRebuild_spec (hc : Calm s.dev) {n : Nat} {f : Flight}
    (hf : (zoneFlights s.dev z).find? (fun f => f.entry == n && f.loc == .lost) = some f) :
    ∃ u, Machine.exec (.flightRebuild z n) s = .next u ∧ OnlyDev s u ∧ (∀ y ∈ u.dev.bar.flights, y.id = f.id → y.loc = .queued) ∧
      ctr u.dev (Rg.BAR_REEXEC z) = ctr s.dev (Rg.BAR_REEXEC z) + 1 := by
  rw [exec_flightRebuild hf, settle_of_calm (calm_watchGrow (calm_requeued hc))]
  exact ⟨_, rfl, ⟨rfl, rfl⟩, fun y hy hid => loc_requeued (z := z) hy hid, (ctr_watchGrow ..).trans (ctr_requeued ..)⟩

end Sys2Proof.Machine
end

section
/-!
The start of a flight (R131, R150, R177), and O35.
-/

namespace Sys2Proof.Machine
open Sys2Proof Sys2Proof.Terms

variable {d e : Dev} {s : State} {z : Zone} {f : Flight} {cid t : Nat}

/-! ## Core memories and buffers change no thread and no flight -/

/-- Threads and the Barista are as before. -/
structure ThreadsKept (d e : Dev) : Prop where
  threads : e.core.threads = d.core.threads
  bar : e.bar = d.bar

namespace ThreadsKept

theorem refl (d : Dev) : ThreadsKept d d := ⟨rfl, rfl⟩
theorem trans {f : Dev} (h : ThreadsKept d e) (g : ThreadsKept e f) : ThreadsKept d f := ⟨g.threads.trans h.threads, g.bar.trans h.bar⟩
theorem ite (q : Prop) [Decidable q] {x y : Dev} (h : ThreadsKept d x) (g : ThreadsKept d y) : ThreadsKept d (if q then x else y) := by
  split <;> assumption
theorem foldl {β : Type} (f : Dev → β → Dev) (hf : ∀ e x, ThreadsKept d e → ThreadsKept d (f e x)) (l : List β) (h : ThreadsKept d e) :
    ThreadsKept d (l.foldl f e) := by
  induction l generalizing e with
  | nil => exact h
  | cons x l ih => exact ih (hf e x h)
theorem quiet (h : ThreadsKept d e) {x : Dev} (g : Quiet e x) : ThreadsKept d x := h.trans ⟨g.threads, g.bar⟩
theorem work (h : ThreadsKept d e) {x : Dev} (g : SameWork e x) : ThreadsKept d x := h.quiet g.quiet
theorem setMerges (h : ThreadsKept d e) (p n : Nat) (l : List MergeE) : ThreadsKept d (setMerges e p n l) := h.trans ⟨rfl, rfl⟩
theorem setSword (h : ThreadsKept d e) (p n w : Nat) (x : SWord) : ThreadsKept d (setSword e p n w x) := h.trans ⟨rfl, rfl⟩
theorem writeWord (h : ThreadsKept d e) (p n w : Nat) (v : W64) : ThreadsKept d (writeWord e p n w v) := (h.setSword ..).setMerges ..
theorem completeMerge (h : ThreadsKept d e) (p n : Nat) (m : MergeE) : ThreadsKept d (completeMerge e p n m) :=
  .ite _ (h.writeWord ..) (((h.quiet ((Quiet.refl e).checkWord ..)).setSword ..).setMerges ..)
theorem writePart (h : ThreadsKept d e) (p n w m v : Nat) : ThreadsKept d (writePart e p n w m v) := by
  unfold Machine.writePart
  split
  · exact h.writeWord ..
  · split
    · exact .ite _ ((h.setMerges ..).completeMerge ..) (h.setMerges ..)
    · refine setMerges ?_ _ _ _
      split
      · exact .ite _ (h.completeMerge ..) h
      · exact h
theorem sramWrite (h : ThreadsKept d e) (p n a k x : Nat) : ThreadsKept d (sramWrite e p n a k x) := by
  cases k with
  | zero => exact h
  | succ k => exact .foldl _ (fun _ _ hx => hx.writePart ..) _ h
theorem coreWrite (h : ThreadsKept d e) (c sp a n x : Nat) : ThreadsKept d (coreWrite e c sp a n x) := h.sramWrite ..
theorem freeRefused (h : ThreadsKept d e) (z k : Nat) : ThreadsKept d (freeRefused e z k) :=
  h.work (((SameWork.refl e).bump _ _).raise _ _)
theorem handOver (h : ThreadsKept d e) (x : W32) (k i k' i' : Nat) : ThreadsKept d (handOver e x k i k' i') := by
  unfold Machine.handOver
  split
  · exact .ite _ h (.ite _ (h.trans ⟨rfl, rfl⟩) (h.freeRefused _ _))
  · exact h.freeRefused _ _
theorem thr (h : ThreadsKept d e) (c t : Nat) : thr e c t = thr d c t := thr_congr h.threads c t

end ThreadsKept

/-! ## A flight is loaded (R150) -/

/-- The buffers of the flight's lanes pass to the thread, but for those of a copy. -/
def lanesTaken (d : Dev) (f : Flight) (cid t : Nat) : Dev :=
  let own := 8 * cidCore cid + t
  if f.copyOf.isSome then d
  else f.lanes.foldl (fun d l => match f.owner with
    | some o => handOver d l.handle 2 o 2 own
    | none => handOver d l.handle 1 f.pipe 2 own) d
/-- The flight that runs on the thread. -/
def running (d : Dev) (cid t : Nat) (f x : Flight) : Flight :=
  { x with
    loc := .run cid t, owner := if f.copyOf.isSome then none else some (8 * cidCore cid + t)
    limit := rf d (Rg.CORE_BUDGET cid) Fl.CORE_BUDGET_LIMIT, grace := rf d (Rg.CORE_BUDGET cid) Fl.CORE_BUDGET_GRACE
    forkEn := rb d (Rg.CORE_CTRL cid) Fl.CORE_CTRL_FORK_EN }
/-- H and M of the thread's lanes hold the headers and metadata of the packets. -/
def lanesWritten (d : Dev) (f : Flight) (cid t : Nat) : Dev :=
  f.lanes.zipIdx.foldl (fun d e => coreWrite (coreWrite d cid 0 (hAddr t e.2 0) 256 (beNat e.1.h)) cid 1 (mAddr t e.2 0) 128 (beNat e.1.m)) d
/-- The start is counted under a new tag. -/
def startCounted (d : Dev) (f : Flight) (cid t : Nat) : Dev :=
  pmc (pmc (newTag (clearPend d cid t)) cid 9 1 false 0) cid 10 f.lanes.length false 0
/-- The registers of a thread that starts a flight. -/
def started (f : Flight) (t tag : Nat) (x : Thread) : Thread :=
  { state := 1, bank := f.bank, act := 2 ^ f.lanes.length - 1, level := f.level, home := t, flight := some f.id, tag := tag, issued := x.issued }

theorem threadsKept_lanesTaken (d : Dev) (f : Flight) (cid t : Nat) : ThreadsKept d (lanesTaken d f cid t) := by
  refine .ite _ (.refl d) (.foldl _ (fun e l he => ?_) _ (.refl d))
  split
  · exact he.handOver ..
  · exact he.handOver ..
theorem threadsKept_lanesWritten (d : Dev) (f : Flight) (cid t : Nat) : ThreadsKept d (lanesWritten d f cid t) :=
  .foldl _ (fun _ _ he => (he.coreWrite ..).coreWrite ..) _ (.refl d)
theorem threadsKept_startCounted (d : Dev) (f : Flight) (cid t : Nat) : ThreadsKept d (startCounted d f cid t) :=
  ThreadsKept.trans (e := newTag (clearPend d cid t)) ⟨rfl, rfl⟩ ((ThreadsKept.refl _).work (((SameWork.refl _).pmc ..).pmc ..))

/-- The flight before its thread's registers are set. -/
def readied (d : Dev) (f : Flight) (cid t : Nat) : Dev :=
  startCounted (lanesWritten (modFlight (lanesTaken d f cid t) f.id (running (lanesTaken d f cid t) cid t f)) f cid t) f cid t

theorem loadFlight_eq (d : Dev) (f : Flight) (cid t : Nat) :
    loadFlight d f cid t = modThr (readied d f cid t) cid t (started f t (readied d f cid t).core.tags) := rfl

theorem threadsKept_readied (d : Dev) (f : Flight) (cid t : Nat) :
    ThreadsKept (modFlight (lanesTaken d f cid t) f.id (running (lanesTaken d f cid t) cid t f)) (readied d f cid t) :=
  (threadsKept_lanesWritten ..).trans (threadsKept_startCounted ..)

theorem thr_readied (d : Dev) (f : Flight) (cid t c' t' : Nat) : thr (readied d f cid t) c' t' = thr d c' t' :=
  ((threadsKept_readied ..).thr c' t').trans ((threadsKept_lanesTaken d f cid t).thr c' t')

theorem thr_loadFlight (d : Dev) (f : Flight) (cid t : Nat) : ∃ tag, ∀ c' t', thr (loadFlight d f cid t) c' t' =
    if 8 * c' + t' = 8 * cid + t then started f t tag (thr d cid t) else thr d c' t' := by
  refine ⟨(readied d f cid t).core.tags, fun c' t' => ?_⟩
  rw [loadFlight_eq, thr_modThr, thr_readied, thr_readied]

theorem loc_loadFlight {y : Flight} (hy : y ∈ (loadFlight d f cid t).bar.flights) (hid : y.id = f.id) : y.loc = .run cid t := by
  rw [loadFlight_eq, modThr, (threadsKept_readied d f cid t).bar] at hy
  obtain ⟨x, -, rfl⟩ := mem_modFlight hy hid
  rfl

/-! ## The flight starts at its entry point (R131, R177) -/

theorem startFlight_eq {w : Nat × Bool × Dev} (hw : sramRead (loadFlight d f cid t) (cidPlace cid) (imageArr cid f.bank) (4 * (32 + f.cls)) 4 = w)
    (hgood : w.2.1 = false) (hin : w.1 < 8192) : startFlight d f cid t = modThr w.2.2 cid t (fun x => { x with pc := w.1 }) := by
  unfold startFlight
  simp only [hw, hgood, Bool.false_eq_true, if_false, if_neg (Nat.not_le.mpr hin)]

theorem exec_flightStart {core : Fin 26} {t : Tid} (hs : (thr s.dev (32 * z.val + core.val) t).state = 0)
    (hr : kernelRole s.dev (32 * z.val + core.val) t = false) (hu : unitRuns s.dev (32 * z.val + core.val) = true)
    (hf : slotFirst s.dev (32 * z.val + core.val) = some f) :
    Machine.exec (.flightStart z core t) s = .next { s with dev := settle (startFlight s.dev f (32 * z.val + core.val) t) } := by
  show execFlightStart z core t s = _
  simp only [execFlightStart, State.onDevF, State.onDev, hs, hr, hu, hf, beq_self_eq_true, Bool.not_false, Bool.and_self, if_true]

/-- The thread runs the flight from the entry point `p`. -/
structure Starts (f : Flight) (cid t p : Nat) (d e : Dev) : Prop where
  self : ∃ tag, thr e cid t = { started f t tag (thr d cid t) with pc := p }
  others : ∀ c' t', 8 * c' + t' ≠ 8 * cid + t → thr e c' t' = thr d c' t'
  loc : ∀ y ∈ e.bar.flights, y.id = f.id → y.loc = .run cid t

theorem starts_startFlight {w : Nat × Bool × Dev} (hw : sramRead (loadFlight d f cid t) (cidPlace cid) (imageArr cid f.bank) (4 * (32 + f.cls)) 4 = w)
    (hgood : w.2.1 = false) (hin : w.1 < 8192) : Starts f cid t w.1 d (startFlight d f cid t) := by
  have hread : Quiet (loadFlight d f cid t) w.2.2 := hw ▸ (Quiet.refl _).sramRead ..
  obtain ⟨tag, hthr⟩ := thr_loadFlight d f cid t
  rw [startFlight_eq hw hgood hin]
  refine ⟨⟨tag, ?_⟩, fun c' t' hne => ?_, fun y hy hid => ?_⟩
  · rw [thr_modThr_same, hread.thr, hthr, if_pos rfl]
  · rw [thr_modThr, if_neg hne, hread.thr, hthr, if_neg hne]
  · rw [modThr, hread.bar] at hy
    exact loc_loadFlight hy hid

theorem flightStart_spec {core : Fin 26} {t : Tid} (hs : (thr s.dev (32 * z.val + core.val) t).state = 0)
    (hr : kernelRole s.dev (32 * z.val + core.val) t = false) (hu : unitRuns s.dev (32 * z.val + core.val) = true)
    (hf : slotFirst s.dev (32 * z.val + core.val) = some f) :
    let cid := 32 * z.val + core.val
    let w := sramRead (loadFlight s.dev f cid t) (cidPlace cid) (imageArr cid f.bank) (4 * (32 + f.cls)) 4
    w.2.1 = false → w.1 < 8192 →
    ∃ d, Machine.exec (.flightStart z core t) s = .next { s with dev := settle d } ∧ (thr d cid t).state = 1 ∧ (thr d cid t).pc = w.1 ∧
      (thr d cid t).act = 2 ^ f.lanes.length - 1 ∧ (thr d cid t).flight = some f.id ∧ (thr d cid t).bank = f.bank ∧ (thr d cid t).level = f.level ∧
      (thr d cid t).home = t.val ∧ (thr d cid t).rstack = [] ∧ (thr d cid t).sp = 0 ∧ (thr d cid t).inTrap = false ∧
      (∀ y ∈ d.bar.flights, y.id = f.id → y.loc = .run cid t) ∧
      ∀ c' t', 8 * c' + t' ≠ 8 * cid + t.val → thr d c' t' = thr s.dev c' t' := by
  intro cid w hgood hin
  have hstarts := starts_startFlight (d := s.dev) (f := f) (cid := cid) (t := t) (w := w) rfl hgood hin
  obtain ⟨tag, hself⟩ := hstarts.self
  refine ⟨_, exec_flightStart hs hr hu hf, ?_⟩
  rw [hself]
  exact ⟨rfl, rfl, rfl, rfl, rfl, rfl, rfl, rfl, rfl, rfl, hstarts.loc, hstarts.others⟩

/-! ## The statement -/

/-- Settles O35: each clause is the rule of its command. That a former that has resumed keeps its flight open while packets of its queue
wait (R31) is the model's choice (log 240). -/
theorem flightsFormStartAndReturn : Obligations.FlightsFormStartAndReturn := by
  unfold Obligations.FlightsFormStartAndReturn
  intro s z hc
  dsimp only
  refine ⟨fun pl ex => ⟨fun h => ?_, fun hl hopen ha => ?_⟩, fun h => ?_, fun h => ?_, fun t k h hp ht hk => ?_, exec_activeGrow_waits,
    fun k hk hp hm hi => ?_, exec_activeShrink_min, fun core t f hs hr hu hf hgood hin => flightStart_spec hs hr hu hf hgood hin,
    fun n f hf => flightRebuild_spec hc hf⟩
  · exact flightClose_stays hc (by rwa [staysOpen_iff])
  · exact flightClose_closes hc hl (Bool.eq_false_iff.mpr (staysOpen_iff.not.mpr hopen)) ha
  · rw [exec_expressWindow, enterWindow_in h]
  · rw [exec_expressWindow, enterWindow_new h]
    exact ⟨_, _, rfl, rfl, barz_modBarz_same ..⟩
  · refine ⟨_, _, exec_activeGrow h hp ht hk, rfl, fun i => ?_, ?_⟩
    · rw [barz_modBarz_same, testBit_setBit]
    · rw [barz_modBarz_same]
  · refine ⟨_, _, exec_activeShrink hk hp hm hi, rfl, fun i => ?_⟩
    rw [barz_modBarz_same, testBit_clrBit]

end Sys2Proof.Machine
end

section
/-!
Dispatch of flights (R128 to R134) and of kernel items (R138, R179, R188).
-/

namespace Sys2Proof.Machine
open Sys2Proof Sys2Proof.Terms

variable {d e : Dev} {s : State} {z : Zone} {f : Flight}

/-! ## A flight is placed (R129, R132) -/

/-- The flight in its slot. -/
def inSlot (d : Dev) (f : Flight) (k : Nat) (x : Flight) : Flight :=
  { x with loc := .slot (32 * f.zone + k), level := levelNow d f, demoted := f.demoted || overCap d f, placed := d.bar.seq + 1 }
def slotted (d : Dev) (f : Flight) (k : Nat) : Dev := modFlight (nextSeq d) f.id (inSlot d f k)
/-- The express cap has counted the dispatch, or the flight demoted by it. -/
def expressCounted (f : Flight) (beyond : Bool) (d : Dev) : Dev :=
  if beyond then bump d (Rg.BAR_EXPRESS_DEMOTED f.zone) 1
  else if f.express && f.group == 0 && !f.demoted then
    let d := modBarz d f.zone (fun b => { b with expressUsed := b.expressUsed + 1 })
    if (barz d f.zone).expressUsed == rf d (Rg.BAR_EXPRESS f.zone) Fl.BAR_EXPRESS_CAP then raise d (barPage f.zone) 3 else d
  else d
/-- The counters of dispatches have counted it. -/
def dispatchCounted (f : Flight) (lv : Nat) (d : Dev) : Dev :=
  let d := bump (bump d (Rg.BAR_DISPATCH f.zone lv) 1) (Rg.BAR_LANES f.zone) f.lanes.length
  if f.lanes.length == 32 then bump d (Rg.BAR_FULL f.zone) 1 else d

theorem dispatchTo_eq (d : Dev) (f : Flight) (k : Nat) :
    dispatchTo d f k = watchGrow (dispatchCounted f (levelNow d f) (expressCounted f (overCap d f) (slotted d f k))) f.zone := rfl

/-- The Barista's counts change no flight, no turn of the weighted discipline and no fault record, and leave the counters but those named. -/
structure TurnKept (d e : Dev) : Prop where
  ras : e.ras = d.ras
  turn : ∀ y, (barz e y).last = (barz d y).last ∧ (barz e y).credits = (barz d y).credits

namespace TurnKept

theorem refl (d : Dev) : TurnKept d d := ⟨rfl, fun _ => ⟨rfl, rfl⟩⟩
theorem trans {f : Dev} (h : TurnKept d e) (g : TurnKept e f) : TurnKept d f :=
  ⟨g.ras.trans h.ras, fun y => ⟨(g.turn y).1.trans (h.turn y).1, (g.turn y).2.trans (h.turn y).2⟩⟩
theorem ite (q : Prop) [Decidable q] {x y : Dev} (h : TurnKept d x) (g : TurnKept d y) : TurnKept d (if q then x else y) := by
  split <;> assumption
theorem zones (h : TurnKept d e) {x : Dev} (hr : x.ras = e.ras) (hz : x.bar.zones = e.bar.zones) : TurnKept d x :=
  h.trans ⟨hr, fun _ => by simp only [barz, hz]; exact ⟨trivial, trivial⟩⟩
theorem bump (h : TurnKept d e) (a n : Nat) : TurnKept d (bump e a n) := h.zones rfl rfl
theorem raise (h : TurnKept d e) (p n : Nat) : TurnKept d (raise e p n) := by
  obtain ⟨_, _, _, hr⟩ := raise_shape e p n
  rw [hr]
  exact h.zones rfl rfl
theorem modBarz (h : TurnKept d e) (z : Nat) {f : BarZone → BarZone} (hf : ∀ b, (f b).last = b.last ∧ (f b).credits = b.credits) :
    TurnKept d (modBarz e z f) := by
  refine h.trans ⟨rfl, fun y => ?_⟩
  rw [barz_modBarz]
  split
  next hy => rw [hy]; exact hf _
  next => exact ⟨rfl, rfl⟩

end TurnKept

theorem turnKept_expressCounted (f : Flight) (b : Bool) (d : Dev) : TurnKept d (expressCounted f b d) := by
  have hused : TurnKept d (modBarz d f.zone (fun b => { b with expressUsed := b.expressUsed + 1 })) := (TurnKept.refl d).modBarz _ fun _ => ⟨rfl, rfl⟩
  exact .ite _ ((TurnKept.refl d).bump _ _) (.ite _ (.ite _ (hused.raise _ _) hused) (.refl d))
theorem turnKept_dispatchCounted (f : Flight) (lv : Nat) (d : Dev) : TurnKept d (dispatchCounted f lv d) := by
  have hcount : TurnKept d (bump (bump d (Rg.BAR_DISPATCH f.zone lv) 1) (Rg.BAR_LANES f.zone) f.lanes.length) := ((TurnKept.refl d).bump _ _).bump _ _
  exact .ite _ (hcount.bump _ _) hcount
theorem turnKept_watchGrow (d : Dev) (z : Nat) : TurnKept d (watchGrow d z) := (TurnKept.refl d).modBarz z fun _ => ⟨rfl, rfl⟩
theorem turnKept_dispatchTo (d : Dev) (f : Flight) (k : Nat) : TurnKept d (dispatchTo d f k) := by
  have hslot : TurnKept d (slotted d f k) := (TurnKept.refl d).zones rfl rfl
  rw [dispatchTo_eq]
  exact ((hslot.trans (turnKept_expressCounted ..)).trans (turnKept_dispatchCounted ..)).trans (turnKept_watchGrow ..)

/-- The counts of a dispatch leave flights, fault records and every counter but those of R128 and R132. -/
theorem expressCounted_kept (f : Flight) (b : Bool) (d : Dev) :
    (expressCounted f b d).bar.flights = d.bar.flights ∧ (Calm d → Calm (expressCounted f b d)) ∧
      ∀ a, a ≠ Rg.BAR_EXPRESS_DEMOTED f.zone → ctr (expressCounted f b d) a = ctr d a := by
  unfold expressCounted
  dsimp only
  split
  · exact ⟨rfl, id, fun a ha => ctr_bump_ne _ _ ha⟩
  · split
    · split
      · obtain ⟨_, _, _, hr⟩ := raise_shape (modBarz d f.zone (fun b => { b with expressUsed := b.expressUsed + 1 })) (barPage f.zone) 3
        rw [hr]
        exact ⟨rfl, id, fun _ _ => rfl⟩
      · exact ⟨rfl, id, fun _ _ => rfl⟩
    · exact ⟨rfl, id, fun _ _ => rfl⟩

theorem dispatchCounted_spec (f : Flight) {lv : Nat} (hlv : lv < 16) (d : Dev) :
    (dispatchCounted f lv d).bar.flights = d.bar.flights ∧ (Calm d → Calm (dispatchCounted f lv d)) ∧
      ctr (dispatchCounted f lv d) (Rg.BAR_DISPATCH f.zone lv) = ctr d (Rg.BAR_DISPATCH f.zone lv) + 1 ∧
      ctr (dispatchCounted f lv d) (Rg.BAR_LANES f.zone) = ctr d (Rg.BAR_LANES f.zone) + BitVec.ofNat 64 f.lanes.length := by
  have hlanes : Rg.BAR_DISPATCH f.zone lv ≠ Rg.BAR_LANES f.zone := by unfold Rg.BAR_DISPATCH Rg.BAR_LANES; omega
  have hfull : Rg.BAR_DISPATCH f.zone lv ≠ Rg.BAR_FULL f.zone := by unfold Rg.BAR_DISPATCH Rg.BAR_FULL; omega
  have hlf : Rg.BAR_LANES f.zone ≠ Rg.BAR_FULL f.zone := by unfold Rg.BAR_LANES Rg.BAR_FULL; omega
  have hd : ctr (bump (bump d (Rg.BAR_DISPATCH f.zone lv) 1) (Rg.BAR_LANES f.zone) f.lanes.length) (Rg.BAR_DISPATCH f.zone lv) =
      ctr d (Rg.BAR_DISPATCH f.zone lv) + 1 := (ctr_bump_ne _ _ hlanes).trans (ctr_bump_same ..)
  have hl : ctr (bump (bump d (Rg.BAR_DISPATCH f.zone lv) 1) (Rg.BAR_LANES f.zone) f.lanes.length) (Rg.BAR_LANES f.zone) =
      ctr d (Rg.BAR_LANES f.zone) + BitVec.ofNat 64 f.lanes.length := by rw [ctr_bump_same, ctr_bump_ne _ _ hlanes.symm]
  unfold dispatchCounted
  dsimp only
  split
  · exact ⟨rfl, id, (ctr_bump_ne _ _ hfull).trans hd, (ctr_bump_ne _ _ hlf).trans hl⟩
  · exact ⟨rfl, id, hd, hl⟩

theorem ctr_slotted (d : Dev) (f : Flight) (k a : Nat) : ctr (slotted d f k) a = ctr d a := rfl
theorem calm_slotted {k : Nat} (hc : Calm d) : Calm (slotted d f k) := hc

/-- A placed flight lies in its slot at its level, and is counted. -/
theorem dispatchTo_spec (hc : Calm d) {k : Nat} (hlv : levelNow d f < 16) :
    Calm (dispatchTo d f k) ∧
      (∀ y ∈ (dispatchTo d f k).bar.flights, y.id = f.id → y.loc = .slot (32 * f.zone + k) ∧ y.level = levelNow d f) ∧
      ctr (dispatchTo d f k) (Rg.BAR_DISPATCH f.zone (levelNow d f)) = ctr d (Rg.BAR_DISPATCH f.zone (levelNow d f)) + 1 ∧
      ctr (dispatchTo d f k) (Rg.BAR_LANES f.zone) = ctr d (Rg.BAR_LANES f.zone) + BitVec.ofNat 64 f.lanes.length := by
  obtain ⟨hflights, hcalm, hctr⟩ := expressCounted_kept f (overCap d f) (slotted d f k)
  obtain ⟨hflights', hcalm', hcount, hlanes⟩ := dispatchCounted_spec f hlv (expressCounted f (overCap d f) (slotted d f k))
  have hdem : Rg.BAR_DISPATCH f.zone (levelNow d f) ≠ Rg.BAR_EXPRESS_DEMOTED f.zone := by
    unfold Rg.BAR_DISPATCH Rg.BAR_EXPRESS_DEMOTED; omega
  have hldem : Rg.BAR_LANES f.zone ≠ Rg.BAR_EXPRESS_DEMOTED f.zone := by unfold Rg.BAR_LANES Rg.BAR_EXPRESS_DEMOTED; omega
  rw [dispatchTo_eq, ctr_watchGrow, ctr_watchGrow, hcount, hlanes, hctr _ hdem, hctr _ hldem, ctr_slotted, ctr_slotted]
  refine ⟨calm_watchGrow (hcalm' (hcalm (calm_slotted hc))), fun y hy hid => ?_, rfl, rfl⟩
  rw [flights_watchGrow, hflights', hflights] at hy
  obtain ⟨x, -, rfl⟩ := mem_modFlight hy hid
  exact ⟨rfl, rfl⟩

/-! ## DISPATCH (R132 to R134) -/

theorem watchDisc_same {z : Nat} (h : (barz d z).weighted = weightedNow d z) : watchDisc d z = d := if_pos (by simp [h])

/-- In the window and discipline of the last look, DISPATCH serves by the discipline alone. -/
theorem exec_dispatch (hw : (barz s.dev z).window = s.dev.mc / 64) (hd : (barz s.dev z).weighted = weightedNow s.dev z) :
    Machine.exec (.dispatch z) s = .next { s with
      dev := settle (if barHeld s.dev z then s.dev else if weightedNow s.dev z then dispatchWeighted s.dev z else dispatchStrict s.dev z) } := by
  show execDispatch z s = _
  simp only [execDispatch, State.onDevF, State.onDev, enterWindow_in hw, watchDisc_same hd]

theorem mem_of_leastBy {α : Type} {key : α → Nat} {l : List α} {a : α} (h : leastBy key l = some a) : a ∈ l := by
  induction l generalizing a with
  | nil => cases h
  | cons x l ih =>
    unfold leastBy at h
    split at h
    next => exact List.mem_cons.mpr (.inl (Option.some.inj h).symm)
    next b hb =>
      split at h
      · exact List.mem_cons_of_mem _ (ih (hb.trans h))
      · exact List.mem_cons.mpr (.inl (Option.some.inj h).symm)

theorem zone_of_firstFlight {z g : Nat} (h : firstFlight d z g = some f) : f.zone = z := by
  have hmem := mem_of_leastBy h
  simp only [waiting, zoneFlights, List.mem_filter, beq_iff_eq] at hmem
  exact hmem.1.1.2

theorem dispatch_strict_spec (hc : Calm s.dev) (hw : (barz s.dev z).window = s.dev.mc / 64) (hh : barHeld s.dev z = false)
    (hn : weightedNow s.dev z = false) (hd : (barz s.dev z).weighted = false) {k : Nat} (hf : firstFlight s.dev z 0 = some f)
    (hk : place s.dev f = some k) (hlv : levelNow s.dev f < 16) :
    ∃ u, Machine.exec (.dispatch z) s = .next u ∧ OnlyDev s u ∧
      (∀ y ∈ u.dev.bar.flights, y.id = f.id → y.loc = .slot (32 * z.val + k) ∧ y.level = levelNow s.dev f) ∧
      ctr u.dev (Rg.BAR_DISPATCH z (levelNow s.dev f)) = ctr s.dev (Rg.BAR_DISPATCH z (levelNow s.dev f)) + 1 ∧
      ctr u.dev (Rg.BAR_LANES z) = ctr s.dev (Rg.BAR_LANES z) + BitVec.ofNat 64 f.lanes.length := by
  obtain ⟨hcalm, hflights, hcount, hlanes⟩ := dispatchTo_spec hc (k := k) hlv
  rw [zone_of_firstFlight hf] at hflights hcount hlanes
  have hstrict : dispatchStrict s.dev z = dispatchTo s.dev f k := by simp only [dispatchStrict, hf, hk]
  rw [exec_dispatch hw (hd.trans hn.symm), hh, hn, if_neg Bool.false_ne_true, if_neg Bool.false_ne_true, hstrict, settle_of_calm hcalm]
  exact ⟨_, rfl, ⟨rfl, rfl⟩, hflights, hcount, hlanes⟩

end Sys2Proof.Machine
end

section
/-!
Kernel items and the groups of the weighted discipline (R132, R134, R138, R179).
-/

namespace Sys2Proof.Machine
open Sys2Proof Sys2Proof.Terms

variable {d e : Dev} {s : State} {z : Zone}

/-! ## The program counter of a kernel thread (R165, R170 to R172) -/

/-- The thread at its next instruction, or in the trap of a counter behind the image (R171). -/
def arrived (p : Nat) (x : Thread) : Thread :=
  if p < 8192 then { x with pc := p }
  else { x with tpc := p, tcause := 3, tinfo := 0, tlanes := x.act, inTrap := true, pc := 3 }

/-- What a trap counts and records outside its thread. -/
theorem sameWork_trapCounted (d : Dev) (c : Nat) (last : W32) (x : Thread) :
    SameWork d (let d := pmc (coreCtr d c Rg.CORE_TRAPS (some Rg.HCC_TRAPS)) c 12 1 (kernelThread x) 0
      if isHub c then wr d (Rg.HCC_TRAP_LAST (c - 128)) last
      else wr d (Rg.CORE_TRAP_LAST c) (last ||| BitVec.ofNat 32 (x.bank * 2 ^ 12))) :=
  have h := (sameWork_coreCtr d c Rg.CORE_TRAPS (some Rg.HCC_TRAPS)).pmc c 12 1 (kernelThread x) 0
  .ite _ (h.wr ..) (h.wr ..)

theorem trap_first {c t cause lanes : Nat} {info : W32} (h : (thr d c t).inTrap = false) :
    ∃ e, SameWork d e ∧ trap d c t cause info lanes = modThr e c t (fun x =>
      { x with tpc := x.pc, tcause := cause, tinfo := info, tlanes := lanes, inTrap := true, pc := cause }) :=
  ⟨_, sameWork_trapCounted .., if_neg (by rw [h]; exact Bool.false_ne_true)⟩

/-- A trap of a kernel thread leaves the Barista and the fault records. -/
theorem trap_kept {c t cause lanes : Nat} {info : W32} (h : kernelThread (thr d c t) = true) :
    (trap d c t cause info lanes).bar = d.bar ∧ (trap d c t cause info lanes).ras = d.ras := by
  cases hin : (thr d c t).inTrap
  case false =>
    obtain ⟨e, he, heq⟩ := trap_first (cause := cause) (lanes := lanes) (info := info) hin
    rw [heq]
    exact ⟨he.bar, he.ras⟩
  case true =>
    have hcount := (sameWork_trapCounted d c (BitVec.ofNat 32 (cause + t * 2 ^ 8 + (thr d c t).pc * 2 ^ 16)) (thr d c t)).trans
      (sameWork_coreCtr _ c Rg.CORE_DOUBLE_TRAPS (some Rg.HCC_DOUBLE_TRAPS))
    unfold trap
    dsimp only
    rw [if_pos hin, if_pos h]
    dsimp only at hcount
    generalize coreCtr _ c Rg.CORE_DOUBLE_TRAPS (some Rg.HCC_DOUBLE_TRAPS) = e at hcount ⊢
    obtain ⟨_, _, _, _, hh⟩ := haltThread_shape e c t true
    obtain ⟨_, _, _, h0⟩ := coreEvent_shape (haltThread e c t true) c 0
    obtain ⟨_, _, _, h2⟩ := coreEvent_shape (coreEvent (haltThread e c t true) c 0) c 2
    rw [h2, h0, hh]
    exact ⟨hcount.bar, hcount.ras⟩

theorem setPc_kept {c t p : Nat} (h : kernelThread (thr d c t) = true) :
    (setPc d c t p).bar = d.bar ∧ (setPc d c t p).ras = d.ras := by
  unfold setPc
  dsimp only
  split
  · exact ⟨rfl, rfl⟩
  · exact trap_kept (d := modThr d c t _) (by rw [thr_modThr_same]; exact h)

theorem thr_setPc {c t p : Nat} (h : 8192 ≤ p → (thr d c t).inTrap = false) (c' t' : Nat) :
    thr (setPc d c t p) c' t' = thr (modThr d c t (arrived p)) c' t' := by
  by_cases hp : p < 8192
  · rw [setPc_eq _ _ _ _ hp, thr_modThr, thr_modThr, arrived, if_pos hp]
  · have hin : (thr (modThr d c t fun x => { x with pc := p }) c t).inTrap = false := by
      rw [thr_modThr_same]; exact h (Nat.le_of_not_lt hp)
    obtain ⟨e, he, heq⟩ := trap_first (cause := 3) (info := 0) (lanes := (thr (modThr d c t fun x => { x with pc := p }) c t).act) hin
    rw [setPc, if_neg hp, heq, thr_modThr, he.thr, he.thr, thr_modThr_same, thr_modThr, thr_modThr, arrived, if_neg hp]
    split <;> rfl

/-! ## An item is given (R138) -/

def itemBank (d : Dev) (pl : Nat) : Nat := if pl = 0 then 0 else activeBank d (pl - 1)
/-- Behind its WAIT, or at the entry of the bank it changes to (R179). -/
def itemPc (d : Dev) (pl cid t : Nat) : Nat := if (thr d cid t).bank = itemBank d pl then (thr d cid t).pc + 1 else 48
def given (v : W64) (tag bank : Nat) (x : Thread) : Thread :=
  { x with state := 4, item := some v, level := itemLevel v, tag := tag, wait := .none, bank := bank,
           lanes := tmod (fun _ => {}) x.lanes 0 (fun l => { l with a := v }) }
def itemTaken (d : Dev) (pl i cid t : Nat) (v : W64) : Dev :=
  modThr (newTag (setItems d pl ((items d pl).eraseIdx i))) cid t (given v (d.core.tags + 1) (itemBank d pl))
def givenAt (d : Dev) (pl i cid t : Nat) (v : W64) : Dev := watchLocks (setPc (itemTaken d pl i cid t v) cid t (itemPc d pl cid t))
def giveTo (d : Dev) (pl i cid t : Nat) (v : W64) : Dev :=
  if pl = 0 then givenAt d pl i cid t v else bump (givenAt d pl i cid t v) (Rg.BAR_KGIVEN (pl - 1)) 1

theorem giveItem_none {pl : Nat} (h : nextItem d pl = none) : giveItem d pl = d := by simp only [giveItem, h]

theorem giveItem_eq {pl i cid : Nat} {v : W64} (hn : nextItem d pl = some (v, i)) (hc : itemCoreNow d pl v = some cid) :
    giveItem d pl = match (pickFree d (waitingThreads d cid)).1 with
      | none => (pickFree d (waitingThreads d cid)).2
      | some t => giveTo (pickFree d (waitingThreads d cid)).2 pl i cid t v := by
  simp only [giveItem, hn, hc, giveTo, givenAt, itemTaken, itemPc, itemBank, beq_iff_eq]
    <;> rfl

theorem kernelThread_itemTaken (d : Dev) (pl i cid t : Nat) (v : W64) : kernelThread (thr (itemTaken d pl i cid t v) cid t) = true := by
  rw [itemTaken, thr_modThr_same]
  rfl

theorem workKept_giveTo (d : Dev) (pl i cid t : Nat) (v : W64) :
    WorkKept (setPc (itemTaken d pl i cid t v) cid t (itemPc d pl cid t)) (giveTo d pl i cid t v) :=
  have hwatch := (WorkKept.refl _).watchLocks
  .ite _ hwatch (hwatch.bump ..)

theorem bar_itemTaken (d : Dev) (pl i cid t : Nat) (v : W64) : (itemTaken d pl i cid t v).bar = (setItems d pl ((items d pl).eraseIdx i)).bar := rfl
theorem ras_itemTaken (d : Dev) (pl i cid t : Nat) (v : W64) : (itemTaken d pl i cid t v).ras = d.ras := rfl

theorem giveTo_kept (d : Dev) (pl i cid t : Nat) (v : W64) :
    (giveTo d pl i cid t v).bar = (setItems d pl ((items d pl).eraseIdx i)).bar ∧ (giveTo d pl i cid t v).ras = d.ras := by
  obtain ⟨hbar, hras⟩ := setPc_kept (p := itemPc d pl cid t) (kernelThread_itemTaken d pl i cid t v)
  have hgive := workKept_giveTo d pl i cid t v
  exact ⟨(hgive.bar.trans hbar).trans (bar_itemTaken ..), (hgive.ras.trans hras).trans (ras_itemTaken ..)⟩

theorem thr_itemTaken (d : Dev) (pl i cid t : Nat) (v : W64) (c' t' : Nat) : thr (itemTaken d pl i cid t v) c' t' =
    if 8 * c' + t' = 8 * cid + t then given v (d.core.tags + 1) (itemBank d pl) (thr d cid t) else thr d c' t' := thr_modThr ..

theorem thr_giveTo {pl i cid t : Nat} {v : W64} (h : 8192 ≤ itemPc d pl cid t → (thr d cid t).inTrap = false) (c' t' : Nat) :
    thr (giveTo d pl i cid t v) c' t' = if 8 * c' + t' = 8 * cid + t then
      arrived (itemPc d pl cid t) (given v (d.core.tags + 1) (itemBank d pl) (thr d cid t)) else thr d c' t' := by
  have hin : 8192 ≤ itemPc d pl cid t → (thr (itemTaken d pl i cid t v) cid t).inTrap = false := by
    rw [thr_itemTaken, if_pos rfl]; exact h
  rw [(workKept_giveTo ..).thr, thr_setPc hin, thr_modThr, thr_itemTaken, if_pos rfl, thr_itemTaken]
  split <;> rfl

theorem items_giveTo (d : Dev) (pl i cid t : Nat) (v : W64) : items (giveTo d pl i cid t v) pl = (items d pl).eraseIdx i := by
  unfold items
  rw [(giveTo_kept ..).1]
  exact items_setItems ..

theorem exec_kernelGive {pl : Place} (hub : pl.val = 0 → rb s.dev Rg.MGT_FW Fl.MGT_FW_READY = true)
    (zone : 0 < pl.val → barHeld s.dev (pl.val - 1) = false ∧ weightedNow s.dev (pl.val - 1) = false) :
    Machine.exec (.kernelGive pl) s = .next { s with dev := settle (giveItem s.dev pl) } := by
  obtain ⟨pl, hpl⟩ := pl
  show execKernelGive _ s = _
  cases pl with
  | zero => simp only [execKernelGive, State.onDevF, State.onDev, if_pos (hub rfl)]
  | succ p =>
    obtain ⟨hheld, hstrict⟩ := zone (Nat.succ_pos p)
    simp only [Nat.add_sub_cancel] at hheld hstrict
    simp only [execKernelGive, State.onDevF, State.onDev, hheld, hstrict]
    rw [if_pos (by simp; omega)]

theorem kernelGive_spec {pl : Place} {v : W64} {i cid t : Nat} (hc : Calm s.dev)
    (hub : pl.val = 0 → rb s.dev Rg.MGT_FW Fl.MGT_FW_READY = true)
    (zone : 0 < pl.val → barHeld s.dev (pl.val - 1) = false ∧ weightedNow s.dev (pl.val - 1) = false)
    (hn : nextItem s.dev pl = some (v, i)) (hcore : itemCoreNow s.dev pl v = some cid) (ht : waitingThreads s.dev cid = [t])
    (hp : 8192 ≤ itemPc s.dev pl cid t → (thr s.dev cid t).inTrap = false) :
    ∃ u, Machine.exec (.kernelGive pl) s = .next u ∧ OnlyDev s u ∧ items u.dev pl = (items s.dev pl).eraseIdx i ∧
      ∀ c' t', thr u.dev c' t' = if 8 * c' + t' = 8 * cid + t then
        arrived (itemPc s.dev pl cid t) (given v (s.dev.core.tags + 1) (itemBank s.dev pl) (thr s.dev cid t)) else thr s.dev c' t' := by
  have hgive : giveItem s.dev pl = giveTo s.dev pl i cid t v := by rw [giveItem_eq hn hcore, ht]; rfl
  have hw : SameWork (giveTo s.dev pl i cid t v) (settle (giveTo s.dev pl i cid t v)) := sameWork_settle (by rw [(giveTo_kept ..).2]; exact hc.1)
  refine ⟨_, exec_kernelGive hub zone, ⟨rfl, rfl⟩, ?_, fun c' t' => ?_⟩
  · rw [hgive, hw.items, items_giveTo]
  · rw [hgive, hw.thr, thr_giveTo hp]

/-! ## The weighted discipline serves (R132, R134) -/

theorem turnKept_giveTo (d : Dev) (pl i cid t : Nat) (v : W64) : TurnKept d (giveTo d pl i cid t v) :=
  (TurnKept.refl d).zones (giveTo_kept ..).2 (congrArg Bar.zones (giveTo_kept d pl i cid t v).1 :)

theorem turnKept_pickFree {α : Type} (d : Dev) (l : List α) : TurnKept d (pickFree d l).2 := by
  unfold pickFree
  split
  · exact .refl d
  · exact .refl d
  · exact (TurnKept.refl d).zones rfl rfl

theorem turnKept_giveItem (d : Dev) (pl : Nat) : TurnKept d (giveItem d pl) := by
  cases hn : nextItem d pl with
  | none => rw [giveItem_none hn]; exact .refl d
  | some x =>
    obtain ⟨v, i⟩ := x
    cases hc : itemCoreNow d pl v with
    | none => simp only [giveItem, hn, hc]; exact .refl d
    | some cid =>
      rw [giveItem_eq hn hc]
      split
      · exact turnKept_pickFree ..
      · exact (turnKept_pickFree ..).trans (turnKept_giveTo ..)

theorem turnKept_shadowCopy (d : Dev) (f : Flight) : TurnKept d (shadowCopy d f) := by
  unfold shadowCopy
  dsimp only
  refine TurnKept.modBarz ?_ _ fun _ => ⟨rfl, rfl⟩
  exact (TurnKept.refl d).zones rfl rfl

theorem turnKept_serve (d : Dev) (z g : Nat) : TurnKept d (serve d z g) := by
  have hflight : ∀ g, TurnKept d (match firstFlight d z g with
      | some f => (match place d f with | some k => dispatchTo d f k | none => d)
      | none => d) := by
    intro g
    split
    · split
      · exact turnKept_dispatchTo ..
      · exact .refl d
    · exact .refl d
  unfold serve
  split
  · exact hflight 0
  · exact hflight 2
  · split
    · exact turnKept_shadowCopy ..
    · exact .refl d
  · exact turnKept_giveItem ..

/-- The turn of the group that is served on a credit. -/
def spent (g : Nat) (cr : List Nat) (b : BarZone) : BarZone := { b with credits := cr.set g (cr.getD g 0 - 1), last := g }

theorem SameWork.barz (h : SameWork d e) (z : Nat) : barz e z = barz d z := by
  unfold Machine.barz
  rw [h.bar]

theorem dispatch_weighted_spec {g : Nat} (hc : Calm s.dev) (hw : (barz s.dev z).window = s.dev.mc / 64) (hh : barHeld s.dev z = false)
    (hn : weightedNow s.dev z = true) (hd : (barz s.dev z).weighted = true)
    (hg : credited s.dev z (barz s.dev z).last (barz s.dev z).credits = some g) :
    ∃ u, Machine.exec (.dispatch z) s = .next u ∧ OnlyDev s u ∧ (barz u.dev z).last = g ∧
      (barz u.dev z).credits = (barz s.dev z).credits.set g ((barz s.dev z).credits.getD g 0 - 1) := by
  have hserve : dispatchWeighted s.dev z = serve (modBarz s.dev z (spent g (barz s.dev z).credits)) z g := by
    simp only [dispatchWeighted, hg]
    rfl
  have hkept := turnKept_serve (modBarz s.dev z (spent g (barz s.dev z).credits)) z g
  have hsettle := sameWork_settle (hkept.ras ▸ hc.1)
  obtain ⟨hlast, hcredits⟩ := hkept.turn z
  rw [barz_modBarz_same, ← hsettle.barz] at hlast hcredits
  rw [exec_dispatch hw (hd.trans hn.symm), hh, hn, if_neg Bool.false_ne_true, if_pos rfl, hserve]
  exact ⟨_, rfl, ⟨rfl, rfl⟩, hlast, hcredits⟩

/-- A zone held dispatches nothing. -/
theorem dispatch_held (hc : Calm s.dev) (hw : (barz s.dev z).window = s.dev.mc / 64) (hh : barHeld s.dev z = true)
    (hd : (barz s.dev z).weighted = weightedNow s.dev z) : Machine.exec (.dispatch z) s = .next s := by
  rw [exec_dispatch hw hd, if_pos hh, settle_of_calm hc]

end Sys2Proof.Machine
end

section
/-!
Priority raises (R145, R188) and budget levels (R453); O36.
-/

namespace Sys2Proof.Machine
open Sys2Proof Sys2Proof.Terms

variable {d e : Dev} {s : State}

/-! ## PI_RAISE (R145, R188) -/

/-- The raise that the report of a lock asks for. -/
def raiseOf (c t : Nat) (x : LockEnt) : Raise :=
  { cid := c, t := t, addr := x.addr, band := (x.top - 1) / 16, level := (x.top - 1) % 16, tag := x.tag }
def raisedBy (d : Dev) (c t : Nat) (x : LockEnt) : Dev :=
  modBar d (fun b => { b with raises := b.raises.filter (fun r => !(r.cid == c && r.t == t && r.addr == x.addr)) ++ [raiseOf c t x] })
/-- A raise above the thread's rank counts. -/
def raiseCounted (d : Dev) (c t : Nat) (x : LockEnt) : Dev :=
  if isHub c || !decide (issueRank d c t < x.top - 1) then raisedBy d c t x else bump (raisedBy d c t x) (Rg.BAR_PI_RAISE (cidZone c)) 1

theorem exec_piRaise {c : Cid} {t : Tid} {x : LockEnt}
    (hl : s.dev.lku.table.filter (fun e => e.holder / 2 ^ 29 == 0 && e.holder % 256 == c.val && e.holder / 2 ^ 8 % 8 == t.val && e.top != 0 &&
      e.tag == (thr s.dev c t).tag && !e.orphan) = [x])
    (hnew : s.dev.bar.raises.any (fun r => r.cid == c.val && r.t == t.val && r.addr == x.addr && 16 * r.band + r.level == x.top - 1) = false) :
    Machine.exec (.piRaise c t) s = .next { s with dev := watchLocks (raiseCounted s.dev c t x) } := by
  show execPiRaise c t s = _
  simp only [execPiRaise, State.onDev, hl, List.foldl_cons, List.foldl_nil, hnew, if_neg Bool.false_ne_true]
  rfl

theorem raises_raiseCounted (d : Dev) (c t : Nat) (x : LockEnt) : (raiseCounted d c t x).bar.raises =
    d.bar.raises.filter (fun r => !(r.cid == c && r.t == t && r.addr == x.addr)) ++ [raiseOf c t x] := by
  unfold raiseCounted
  split <;> rfl

theorem ctr_raiseCounted {c : Nat} (h : isHub c = false) (d : Dev) (t : Nat) (x : LockEnt) :
    ctr (raiseCounted d c t x) (Rg.BAR_PI_RAISE (cidZone c)) =
      ctr d (Rg.BAR_PI_RAISE (cidZone c)) + (if issueRank d c t < x.top - 1 then 1 else 0) := by
  unfold raiseCounted
  by_cases hr : issueRank d c t < x.top - 1
  · rw [if_neg (by simp [h, hr]), if_pos hr]
    exact ctr_bump_same ..
  · rw [if_pos (by simp [hr]), if_neg hr]
    exact (BitVec.add_zero _).symm

/-- The Barista's counters lie apart from those of the lock unit. -/
theorem piRaise_ne_lku (z : Nat) : Rg.BAR_PI_RAISE z ≠ Rg.LKU_PI_REPORTS ∧ Rg.BAR_PI_RAISE z ≠ Rg.LKU_PI_HOST := by
  unfold Rg.BAR_PI_RAISE Rg.LKU_PI_REPORTS Rg.LKU_PI_HOST Rg.baseBAR Rg.zoneBase Rg.baseLKU
  omega

theorem piRaise_spec {c : Cid} {t : Tid} {x : LockEnt}
    (hl : s.dev.lku.table.filter (fun e => e.holder / 2 ^ 29 == 0 && e.holder % 256 == c.val && e.holder / 2 ^ 8 % 8 == t.val && e.top != 0 &&
      e.tag == (thr s.dev c t).tag && !e.orphan) = [x])
    (hnew : s.dev.bar.raises.any (fun r => r.cid == c.val && r.t == t.val && r.addr == x.addr && 16 * r.band + r.level == x.top - 1) = false) :
    ∃ u, Machine.exec (.piRaise c t) s = .next u ∧ OnlyDev s u ∧
      u.dev.bar.raises = s.dev.bar.raises.filter (fun r => !(r.cid == c.val && r.t == t.val && r.addr == x.addr)) ++ [raiseOf c t x] ∧
      (isHub c = false → ctr u.dev (Rg.BAR_PI_RAISE (cidZone c)) =
        ctr s.dev (Rg.BAR_PI_RAISE (cidZone c)) + (if issueRank s.dev c t < x.top - 1 then 1 else 0)) := by
  obtain ⟨hreports, hhost⟩ := piRaise_ne_lku (cidZone c)
  refine ⟨_, exec_piRaise hl hnew, ⟨rfl, rfl⟩, ?_, fun hz => ?_⟩
  · exact (congrArg Bar.raises (WorkKept.refl _).watchLocks.bar).trans (raises_raiseCounted ..)
  · exact ((reported_watchLocks _).count _ hreports hhost).trans (ctr_raiseCounted hz ..)

/-! ## LEVEL_CHANGE (R453) -/

/-- A die's level is the field of the die in PWR_LEVELS. -/
theorem level_congr (h : rd e Rg.PWR_LEVELS = rd d Rg.PWR_LEVELS) (y : Nat) : level e y = level d y := rf_congr h _

theorem level_wf {die : Fin 5} {n : Nat} (hn : n < 8) :
    level (wf d Rg.PWR_LEVELS (Fl.PWR_LEVELS_ZONE die) n) die = n ∧
      ∀ y : Fin 5, y ≠ die → level (wf d Rg.PWR_LEVELS (Fl.PWR_LEVELS_ZONE die) n) y = level d y := by
  refine ⟨?_, fun y hy => rf_wf_apart _ _ _ ?_⟩
  · have hhi : (Fl.PWR_LEVELS_ZONE die).hi < 32 := by show 2 + 4 * die.val < 32; omega
    have hwidth : (Fl.PWR_LEVELS_ZONE die).hi + 1 - (Fl.PWR_LEVELS_ZONE die).lo = 3 := by
      show 2 + 4 * die.val + 1 - (0 + 4 * die.val) = 3; omega
    exact (rf_wf_same _ _ _ hhi).trans (by rw [hwidth]; exact Nat.mod_eq_of_lt hn)
  · have hval : y.val ≠ die.val := fun h => hy (Fin.ext h)
    show 2 + 4 * die.val < 0 + 4 * y.val ∨ 2 + 4 * y.val < 0 + 4 * die.val
    omega

theorem rd_probeMax (d : Dev) (k i : Nat) (v : Int) (a : Nat) : rd (probeMax d k i v) a = rd d a := by
  obtain ⟨_, ht⟩ := probeMax_shape d k i v
  rw [ht]
  rfl

/-- Of the levels, a change sets that of its die. -/
theorem level_setLevel {die : Fin 5} (h : causedLevel d die < 8) :
    level (setLevel d die) die = causedLevel d die ∧ ∀ y : Fin 5, y ≠ die → level (setLevel d die) y = level d y := by
  by_cases hsame : causedLevel d die = level d die
  · rw [setLevel, if_pos (beq_iff_eq.mpr hsame)]
    exact ⟨hsame.symm, fun _ _ => rfl⟩
  · have hregs : rd (setLevel d die) Rg.PWR_LEVELS = rd (wf d Rg.PWR_LEVELS (Fl.PWR_LEVELS_ZONE die) (causedLevel d die)) Rg.PWR_LEVELS := by
      rw [setLevel, if_neg (by simpa using hsame)]
      dsimp only
      split
      · exact (rd_probeMax ..).trans (rd_raise ..)
      · exact (rd_probeMax ..).trans (rd_raise ..)
    obtain ⟨hself, hothers⟩ := level_wf (d := d) (die := die) h
    exact ⟨(level_congr hregs _).trans hself, fun y hy => (level_congr hregs _).trans (hothers y hy)⟩

theorem levelChange_spec {die : Fin 5} (hon : s.dev.ket.off = false) (h : causedLevel s.dev die < 8) :
    ∃ u, Machine.exec (.levelChange die) s = .next u ∧ OnlyDev s u ∧ level u.dev die = causedLevel s.dev die ∧
      (∀ y : Fin 5, y ≠ die → level u.dev y = level s.dev y) := by
  have hexec : Machine.exec (.levelChange die) s = .next { s with dev := setLevel s.dev die } := by
    show execLevelChange die s = _
    rw [execLevelChange, State.onDev, if_neg (by rw [hon]; exact Bool.false_ne_true)]
  obtain ⟨hself, hothers⟩ := level_setLevel h
  exact ⟨_, hexec, ⟨rfl, rfl⟩, hself, hothers⟩

/-! ## O36 -/

theorem a_given (v : W64) (tag bank : Nat) (x : Thread) : (lctx (given v tag bank x) 0).a = v :=
  congrArg LaneCtx.a (tget_tmod_same laneCtx0 x.lanes 0 fun l => { l with a := v })
theorem lctx_arrived (p n : Nat) (x : Thread) : lctx (arrived p x) n = lctx x n := by
  unfold arrived
  split <;> rfl

/-- The counter of the thread that takes the item: behind its WAIT, at the bank's entry, or in a trap behind the image. -/
theorem kernelGive_enters {pl : Place} {v : W64} {i cid t : Nat} (hc : Calm s.dev)
    (hub : pl.val = 0 → rb s.dev Rg.MGT_FW Fl.MGT_FW_READY = true)
    (zone : 0 < pl.val → barHeld s.dev (pl.val - 1) = false ∧ weightedNow s.dev (pl.val - 1) = false)
    (hn : nextItem s.dev pl = some (v, i)) (hcore : itemCoreNow s.dev pl v = some cid) (ht : waitingThreads s.dev cid = [t])
    (htrap : (thr s.dev cid t).bank = itemBank s.dev pl → 8192 ≤ (thr s.dev cid t).pc + 1 → (thr s.dev cid t).inTrap = false) :
    ∃ u, Machine.exec (.kernelGive pl) s = .next u ∧ OnlyDev s u ∧ items u.dev pl = (items s.dev pl).eraseIdx i ∧
      (thr u.dev cid t).state = 4 ∧ (thr u.dev cid t).item = some v ∧ (thr u.dev cid t).level = itemLevel v ∧
      (lctx (thr u.dev cid t) 0).a = v ∧ ((thr s.dev cid t).bank ≠ itemBank s.dev pl → (thr u.dev cid t).pc = 48) ∧
      ((thr s.dev cid t).bank = itemBank s.dev pl → (thr s.dev cid t).pc + 1 < 8192 → (thr u.dev cid t).pc = (thr s.dev cid t).pc + 1) ∧
      ((thr s.dev cid t).bank = itemBank s.dev pl → 8192 ≤ (thr s.dev cid t).pc + 1 → (thr u.dev cid t).pc = 3 ∧
        (thr u.dev cid t).tcause = 3 ∧ (thr u.dev cid t).tpc = (thr s.dev cid t).pc + 1 ∧ (thr u.dev cid t).tinfo = 0) ∧
      ∀ c' t', 8 * c' + t' ≠ 8 * cid + t → thr u.dev c' t' = thr s.dev c' t' := by
  have hpc : 8192 ≤ itemPc s.dev pl cid t → (thr s.dev cid t).inTrap = false := by
    unfold itemPc
    split
    next hb => exact htrap hb
    next => exact fun h => absurd h (by decide)
  obtain ⟨u, hu, honly, hitems, hthr⟩ := kernelGive_spec hc hub zone hn hcore ht hpc
  have hself := hthr cid t
  rw [if_pos rfl] at hself
  refine ⟨u, hu, honly, hitems, ?_, ?_, ?_, ?_, fun hb => ?_, fun hb hlt => ?_, fun hb hge => ?_, fun c' t' h => (hthr c' t').trans (if_neg h)⟩
  · rw [hself, arrived]; split <;> rfl
  · rw [hself, arrived]; split <;> rfl
  · rw [hself, arrived]; split <;> rfl
  · rw [hself, lctx_arrived]; exact a_given ..
  · rw [hself, itemPc, if_neg hb]; rfl
  · rw [hself, itemPc, if_pos hb, arrived, if_pos hlt]
  · rw [hself, itemPc, if_pos hb, arrived, if_neg (Nat.not_lt.mpr hge)]
    exact ⟨rfl, rfl, rfl, rfl⟩

/-- Settles O36: the discipline of the last look serves, an item's thread arrives at its next instruction or in its trap, a raise replaces the
one of its lock, and a level is a field of its own. -/
theorem baristaDispatchesByLevelAndCredit : Obligations.BaristaDispatchesByLevelAndCredit :=
  ⟨fun _ _ _ _ hc hw hh hn hd hf hk => dispatch_strict_spec hc hw hh hn hd hf hk, fun _ _ _ => dispatch_weighted_spec, fun _ _ => dispatch_held,
    fun _ _ _ _ _ _ => kernelGive_enters, fun _ _ _ _ => piRaise_spec, fun _ _ => levelChange_spec⟩

end Sys2Proof.Machine
end

section
/-!
The issue of a Chrotale instruction: its effect on the state at its issue, its traps, and writes of core memories (R156, R157, R170, R190).
-/

namespace Sys2Proof.Machine
open Sys2Proof Sys2Proof.Terms

variable {d e : Dev} {s u : State} {c t : Nat}

/-! ## Writes of a core memory -/

/-- Everything but registers, counters, page headers, event sources, telemetry, the wake time, fault records, SRAM words and merge
buffers is as before. -/
def Written (d e : Dev) : Prop :=
  ∃ r c p i t k a w m, e = { d with regs := r, ctrs := c, pages := p, ic := i, tel := t, ket := k, ras := a,
                                    core := { d.core with sram := w, merge := m } }

namespace Written

theorem refl (d : Dev) : Written d d := ⟨_, _, _, _, _, _, _, _, _, rfl⟩
theorem trans {f : Dev} (h : Written d e) (g : Written e f) : Written d f := by
  obtain ⟨_, _, _, _, _, _, _, _, _, rfl⟩ := h
  obtain ⟨r, x, p, i, t, k, y, z, m, rfl⟩ := g
  exact ⟨r, x, p, i, t, k, y, z, m, rfl⟩
theorem ite (q : Prop) [Decidable q] {x y : Dev} (h : Written d x) (g : Written d y) : Written d (if q then x else y) := by
  split <;> assumption
theorem foldl {β : Type} (f : Dev → β → Dev) (hf : ∀ e x, Written d e → Written d (f e x)) (l : List β) (h : Written d e) :
    Written d (l.foldl f e) := by
  induction l generalizing e with
  | nil => exact h
  | cons x l ih => exact ih (hf e x h)
theorem quiet (h : Written d e) {x : Dev} (g : Quiet e x) : Written d x := by
  obtain ⟨r, x, p, i, t, k, y, z, rfl⟩ := g
  exact h.trans ⟨r, x, p, i, t, k, y, z, _, rfl⟩
theorem setMerges (h : Written d e) (p n : Nat) (l : List MergeE) : Written d (setMerges e p n l) := h.trans ⟨_, _, _, _, _, _, _, _, _, rfl⟩
theorem setSword (h : Written d e) (p n w : Nat) (x : SWord) : Written d (setSword e p n w x) := h.trans ⟨_, _, _, _, _, _, _, _, _, rfl⟩
theorem writeWord (h : Written d e) (p n w : Nat) (v : W64) : Written d (writeWord e p n w v) := (h.setSword ..).setMerges ..
theorem completeMerge (h : Written d e) (p n : Nat) (m : MergeE) : Written d (completeMerge e p n m) :=
  .ite _ (h.writeWord ..) (((h.quiet ((Quiet.refl e).checkWord ..)).setSword ..).setMerges ..)
theorem writePart (h : Written d e) (p n w m v : Nat) : Written d (writePart e p n w m v) := by
  unfold Machine.writePart
  split
  · exact h.writeWord ..
  · split
    · exact .ite _ ((h.setMerges ..).completeMerge ..) (h.setMerges ..)
    · refine setMerges ?_ _ _ _
      split
      · exact .ite _ (h.completeMerge ..) h
      · exact h
theorem sramWrite (h : Written d e) (p n a k x : Nat) : Written d (sramWrite e p n a k x) := by
  cases k with
  | zero => exact h
  | succ k => exact .foldl _ (fun _ _ hx => hx.writePart ..) _ h
theorem coreWrite (h : Written d e) (c sp a n x : Nat) : Written d (coreWrite e c sp a n x) := h.sramWrite ..
theorem writeS (h : Written d e) (c a k x : Nat) : Written d (writeS e c a k x) := (h.coreWrite ..).coreWrite ..
theorem writeOperand (h : Written d e) (c t : Nat) (a : FA) (n v : Nat) : Written d (writeOperand e c t a n v) := by
  unfold Machine.writeOperand
  dsimp only
  split
  · exact h.coreWrite ..
  · exact h.coreWrite ..
  · exact h.coreWrite ..
  · exact h.writeS ..
  · exact h.writeS ..
  · exact h.coreWrite ..
  · exact h
theorem writeLanes (h : Written d e) (c t : Nat) (a : FA) (l : List (Nat × Nat)) : Written d (writeLanes e c t a l) :=
  .foldl _ (fun _ _ hx => hx.writeOperand ..) _ h
theorem threads (h : Written d e) : e.core.threads = d.core.threads := by obtain ⟨_, _, _, _, _, _, _, _, _, rfl⟩ := h; rfl
theorem thr (h : Written d e) (c t : Nat) : thr e c t = thr d c t := thr_congr h.threads c t
theorem coreOnly (h : Written d e) : CoreOnlyDev d e := by
  obtain ⟨r, c, p, i, t, k, a, w, m, rfl⟩ := h
  exact ⟨r, c, p, i, k, t, a, d.bar, { d.core with sram := w, merge := m }, rfl⟩

end Written

/-! ## An effect on the thread that issues -/

namespace ThreadBy

theorem of_threads (h : e.core.threads = d.core.threads) : ThreadBy c t id d e := fun c' t' => by
  rw [thr_congr h]
  split
  next hk => simp only [thr, hk, id]
  next => rfl
theorem self {g : Thread → Thread} (h : ThreadBy c t g d e) : thr e c t = g (thr d c t) := (h c t).trans (if_pos rfl)
theorem trans {f : Dev} {g k : Thread → Thread} (h : ThreadBy c t g d e) (h' : ThreadBy c t k e f) : ThreadBy c t (k ∘ g) d f := fun c' t' => by
  rw [h', h.self, h]
  split
  next => rfl
  next => rfl
theorem modThr (d : Dev) (c t : Nat) (g : Thread → Thread) : ThreadBy c t g d (modThr d c t g) := thr_modThr d c t g
/-- Changes of lanes, one for each. -/
theorem modCtxs (g : Nat → Nat → LaneCtx → LaneCtx) (vs : List (Nat × Nat)) (d : Dev) (c t : Nat) :
    ThreadBy c t (fun x => { x with lanes := lanesTo x.lanes vs g }) d (vs.foldl (fun d v => modCtx d c t v.1 (g v.1 v.2)) d) :=
  thr_foldl_modCtx g vs d c t
theorem setPc {p : Nat} (h : p < 8192) : ThreadBy c t (fun x => { x with pc := p }) d (setPc d c t p) := by
  rw [setPc_eq _ _ _ _ h]
  exact modThr _ _ _ _
/-- Where the thread's change keeps its PC, the next instruction is in the image as it was before. -/
theorem next {g : Thread → Thread} (h : ThreadBy c t g d e) (hg : ∀ x, (g x).pc = x.pc) (hp : (thr d c t).pc + 1 < 8192) :
    advance e c t = Machine.modThr e c t (fun x => { x with pc := x.pc + 1 }) :=
  advance_eq _ _ _ (by rw [h.self, hg]; exact hp)

end ThreadBy

theorem Written.threadBy (h : Written d e) : ThreadBy c t id d e := .of_threads h.threads
theorem SameWork.threadBy (h : SameWork d e) : ThreadBy c t id d e := .of_threads (congrArg Cores.threads h.core)
theorem Quiet.threadBy (h : Quiet d e) : ThreadBy c t id d e := .of_threads h.threads

theorem CoreOnlyDev.setPc {p : Nat} (h : CoreOnlyDev d e) (hp : p < 8192) : CoreOnlyDev d (setPc e c t p) := by
  rw [setPc_eq _ _ _ _ hp]
  exact h.modThr ..
theorem CoreOnlyDev.modCtxs (h : CoreOnlyDev d e) (g : Nat → Nat → LaneCtx → LaneCtx) (vs : List (Nat × Nat)) :
    CoreOnlyDev d (vs.foldl (fun d v => modCtx d c t v.1 (g v.1 v.2)) e) := .foldl (fun _ _ he => he.modThr ..) vs h
theorem ras_modCtxs (g : Nat → Nat → LaneCtx → LaneCtx) (vs : List (Nat × Nat)) (d : Dev) :
    (vs.foldl (fun d v => modCtx d c t v.1 (g v.1 v.2)) d).ras = d.ras := by
  induction vs generalizing d with
  | nil => rfl
  | cons v vs ih => rw [List.foldl_cons, ih]; rfl

theorem ThreadBy.issued {c : Cid} {t : Tid} {g : Thread → Thread} {x : Dev} (h : ThreadBy c t g (atIssue s.dev c t) e)
    (hg : ∀ x n, g { x with issued := n } = { g x with issued := n }) (hw : SameWork e x) : ThreadTo s { s with dev := x } c t g := h.threadTo hg hw

/-- A thread whose lanes took new registers, with the registers named by the state after. -/
theorem ThreadTo.lanes {a b : State} {g : Thread → Thread} {l : Tab LaneCtx → Tab LaneCtx}
    (h : ThreadTo a b c t (fun x => { g x with lanes := l x.lanes })) :
    (thr b.dev c t).lanes = l (thr a.dev c t).lanes ∧ ThreadTo a b c t (fun x => { g x with lanes := (thr b.dev c t).lanes }) := by
  obtain ⟨⟨n, hn⟩, hothers⟩ := h
  have hlanes : (thr b.dev c t).lanes = l (thr a.dev c t).lanes := by rw [hn]
  exact ⟨hlanes, ⟨n, by rw [hlanes]; exact hn⟩, hothers⟩

/-- The same of a thread whose active lanes changed. -/
theorem ThreadTo.act {a b : State} {g : Thread → Thread} {v : Thread → Nat} (h : ThreadTo a b c t (fun x => { g x with act := v x })) :
    (thr b.dev c t).act = v (thr a.dev c t) ∧ ThreadTo a b c t (fun x => { g x with act := (thr b.dev c t).act }) := by
  obtain ⟨⟨n, hn⟩, hothers⟩ := h
  have hact : (thr b.dev c t).act = v (thr a.dev c t) := by rw [hn]
  exact ⟨hact, ⟨n, by rw [hact]; exact hn⟩, hothers⟩

/-! ## New registers for a list of lanes, and the next instruction -/

/-- The thread that issues, at its issue. -/
theorem thr_atIssue_self (d : Dev) (c t : Nat) : ∃ n, thr (atIssue d c t) c t = { thr d c t with issued := n } := by
  obtain ⟨n, h⟩ := thr_atIssue_all d c t
  exact ⟨n, (h c t).trans (if_pos rfl)⟩
theorem pc_atIssue (d : Dev) (c t : Nat) : (thr (atIssue d c t) c t).pc = (thr d c t).pc := by
  obtain ⟨n, h⟩ := thr_atIssue_self d c t
  rw [h]

/-- Registers of the lanes after a change of the listed ones. -/
def lanesOn (l : Tab LaneCtx) (ls : List Nat) (g : Nat → LaneCtx → LaneCtx) : Tab LaneCtx := lanesTo l (ls.map (fun n => (n, 0))) (fun n _ => g n)

theorem tget_lanesOn {ls : List Nat} (h : ls.Nodup) (l : Tab LaneCtx) (g : Nat → LaneCtx → LaneCtx) (n : Nat) :
    tget laneCtx0 (lanesOn l ls g) n = if n ∈ ls then g n (tget laneCtx0 l n) else tget laneCtx0 l n := by
  have hkeys : (ls.map (fun n => (n, 0))).map (·.1) = ls := by rw [List.map_map]; exact List.map_id _
  obtain ⟨hin, hout⟩ := tget_lanesTo (fun n _ => g n) (ls.map (fun n => (n, 0))) l (by rw [hkeys]; exact h)
  rw [hkeys] at hout
  split
  next hm => exact hin n 0 (List.mem_map.mpr ⟨n, hm, rfl⟩)
  next hm => exact hout n hm

/-- The listed lanes change, and the thread goes on. -/
def nextOnLanes (c t : Nat) (ls : List Nat) (g : Nat → LaneCtx → LaneCtx) (d : Dev) : Dev :=
  advance (ls.foldl (fun d n => modCtx d c t n (g n)) d) c t

theorem nextOnLanes_spec (ls : List Nat) (g : Nat → LaneCtx → LaneCtx) (h : (thr d c t).pc + 1 < 8192) :
    (nextOnLanes c t ls g d).ras = d.ras ∧ CoreOnlyDev d (nextOnLanes c t ls g d) ∧
      ThreadBy c t (fun x => { x with pc := x.pc + 1, lanes := lanesOn x.lanes ls g }) d (nextOnLanes c t ls g d) := by
  have hfold : ls.foldl (fun d n => modCtx d c t n (g n)) d = (ls.map (fun n => (n, 0))).foldl (fun d v => modCtx d c t v.1 (g v.1)) d := by
    rw [List.foldl_map]
  have hthr := ThreadBy.modCtxs (fun n _ => g n) (ls.map (fun n => (n, 0))) d c t
  rw [nextOnLanes, hfold, hthr.next (fun _ => rfl) h]
  exact ⟨ras_modCtxs (fun n _ => g n) _ d, ((CoreOnlyDev.refl d).modCtxs (fun n _ => g n) _).modThr .., hthr.trans (.modThr _ _ _ _)⟩

/-- The registers that the thread has after them. -/
theorem nextOnLanes_issued {c : Cid} {t : Tid} {ls : List Nat} {g : Nat → LaneCtx → LaneCtx} {x : Dev} (hls : ls.Nodup) (hp : (thr s.dev c t).pc + 1 < 8192)
    (he : ThreadBy c t id (atIssue s.dev c t) e) (hw : SameWork (nextOnLanes c t ls g e) x) :
    (∀ n, lctx (thr x c t) n = if n ∈ ls then g n (lctx (thr s.dev c t) n) else lctx (thr s.dev c t) n) ∧
      ThreadTo s { s with dev := x } c t (fun y => { y with pc := y.pc + 1, lanes := (thr x c t).lanes }) := by
  obtain ⟨-, -, hthr⟩ := nextOnLanes_spec (d := e) (c := c) (t := t) ls g (by rw [he.self]; exact (congrArg (· + 1 < 8192) (pc_atIssue s.dev c t)).mpr hp)
  obtain ⟨hl, hto⟩ := ThreadTo.lanes (g := fun x => { x with pc := x.pc + 1 }) (l := fun l => lanesOn l ls g) ((he.trans hthr).issued (fun _ _ => rfl) hw)
  exact ⟨fun n => (congrArg (tget laneCtx0 · n) hl).trans (tget_lanesOn hls _ _ _), hto⟩

/-! ## The issue completes, or traps -/

/-- An instruction that meets no cause and no stall: its effect on the state at its issue, and beside it what an issue counts. -/
theorem sameWork_issue {i : Issue} {eff : Dev → Dev × Bool} {x : Dev} {b : Bool} (h : Issues d c t) (hs : i.stall = .none) (hc : i.cause = none)
    (heff : eff (atIssue d c t) = (x, b)) (hcalm : x.ras.todo = []) : SameWork x (settle (issue d c t i eff)) := by
  rw [issue_runs h i hs hc, heff]
  refine (sameWork_issueCycle ..).trans (sameWork_settle ?_)
  rw [(sameWork_issueCycle ..).ras]
  exact hcalm

/-- The same of an instruction whose effect is on what it reads first, when the reads meet no error (R174). -/
theorem sameWork_issue_reads {α : Type} {i : Issue} {read : Dev → α × Met × Dev} {err : α × Met × Dev → Dev × Bool} {eff : α → Dev → Dev} (h : Issues d c t)
    (hs : i.stall = .none) (hc : i.cause = none) (hok : (read (atIssue d c t)).2.1 = .ok)
    (hcalm : (eff (read (atIssue d c t)).1 (read (atIssue d c t)).2.2).ras.todo = []) :
    SameWork (eff (read (atIssue d c t)).1 (read (atIssue d c t)).2.2)
      (settle (issue d c t i (fun d => if (read d).2.1 != .ok then err (read d) else (eff (read d).1 (read d).2.2, false)))) :=
  sameWork_issue h hs hc (if_neg (by rw [hok]; decide)) hcalm

/-- A thread in its trap (R170). -/
def trapped (cause : Nat) (info : W32) (lanes : Nat) (x : Thread) : Thread :=
  { x with tpc := x.pc, tcause := cause, tinfo := info, tlanes := lanes, inTrap := true, pc := cause }

theorem trap_spec {cause lanes : Nat} {info : W32} (h : (thr d c t).inTrap = false) :
    CoreOnlyDev d (trap d c t cause info lanes) ∧ ThreadBy c t (trapped cause info lanes) d (trap d c t cause info lanes) ∧
      (trap d c t cause info lanes).ras = d.ras := by
  obtain ⟨e, he, heq⟩ := trap_first (cause := cause) (lanes := lanes) (info := info) h
  rw [heq]
  exact ⟨he.coreOnly.modThr .., he.threadBy.trans (.modThr _ _ _ _), he.ras⟩

/-- The frame of an instruction of the core, from the frame of its effect on the state at its issue. -/
theorem coreOnly_of (h : CoreOnlyDev (atIssue s.dev c t) e) {x : Dev} (hw : SameWork e x) : CoreOnly s { s with dev := x } :=
  ⟨rfl, rfl, ((coreOnly_atIssue s.dev c t).trans h).work hw⟩

/-- An instruction that meets a cause traps, and no lane's registers change (R170, R190). -/
theorem traps_spec {i : Issue} {eff : Dev → Dev × Bool} {v lanes : Nat} (c : Cid) (t : Tid) (h : Free s.dev c t) (hin : (thr s.dev c t).inTrap = false)
    (hc : i.cause = some v) (hl : lanes = if v == 8 then ofBits i.window else (thr s.dev c t).act) :
    CoreOnly s { s with dev := settle (issue s.dev c t i eff) } ∧
      ThreadTo s { s with dev := settle (issue s.dev c t i eff) } c t (trapped v i.word lanes) := by
  obtain ⟨n, hn⟩ := thr_atIssue_self s.dev c t
  obtain ⟨hcore, hthr, hras⟩ := trap_spec (d := atIssue s.dev c t) (c := c) (t := t) (cause := v) (lanes := lanes) (info := i.word) (by rw [hn]; exact hin)
  have hwork : SameWork (trap (atIssue s.dev c t) c t v i.word lanes) (settle (issue s.dev c t i eff)) := by
    rw [issue_traps h.issues i v hc, ← hl]
    refine (sameWork_issueCycle ..).trans (sameWork_settle ?_)
    rw [(sameWork_issueCycle ..).ras, hras]
    exact h.calm
  exact ⟨coreOnly_of hcore hwork, hthr.issued (fun _ _ => rfl) hwork⟩

end Sys2Proof.Machine
end

section
/-!
Stores, stack entries and predicates (R156, R160, R161, R166, R167, R196, R203, R206), and O8, O10, O11.
-/

namespace Sys2Proof.Machine
open Sys2Proof Sys2Proof.Terms

variable {d e : Dev} {s : State} {c : Cid} {t : Tid} {f : BitVec 24}

/-! ## Stores (R196) -/

theorem window_nil {x : Thread} {a : FA} {ls : List Nat} (h : ∀ n ∈ ls, outside x a n = false) : ls.filter (outside x a) = [] := by
  rw [List.filter_eq_nil_iff]
  intro n hn
  rw [h n hn]
  exact Bool.false_ne_true
theorem stallIf_false (ls slots : List Nat) : stallIf false ls slots = .none := rfl

/-- A store leaves what its writes make of the memories of its core. -/
theorem storeOp_spec {op : Nat} {val : Thread → Nat → Nat} (h : Executes s.dev c t f formDst) :
    let x := thr s.dev c t
    let dst := writeLanes (atIssue s.dev c t) c t (fa f) ((actingLanes x ((fa f).s == 4)).map (fun n => (n, val x n)))
    let u : State := { s with dev := settle (storeOp op s.dev c t f val) }
    dst.ras.todo = [] → SameSram u.dev dst ∧ ThreadTo s u c t (fun x => { x with pc := x.pc + 1 }) ∧ CoreOnly s u := by
  intro x dst u hcalm
  have hdst : Written (atIssue s.dev c t) dst := (Written.refl _).writeLanes ..
  have hnext : advance dst c t = modThr dst c t (fun x => { x with pc := x.pc + 1 }) :=
    hdst.threadBy.next (fun _ => rfl) (by rw [pc_atIssue]; exact h.next)
  have hwork : SameWork (advance dst c t) u.dev := sameWork_issue (i := ⟨_, _, _, _, _, _, _, _, _, _⟩) h.issues (by rw [stallOn, h.free, stallIf_false])
    (cause_none rfl h.form rfl h.stack (window_nil h.window) rfl) rfl (by rw [hnext]; exact hcalm)
  rw [hnext] at hwork
  refine ⟨?_, (hdst.threadBy.trans (.modThr _ _ _ _)).issued (fun _ _ => rfl) hwork, coreOnly_of (hdst.coreOnly.modThr _ _ _) hwork⟩
  rw [SameSram, hwork.core]
  exact ⟨rfl, rfl⟩

/-- Settles O8: ST, XST and YST are the store operation on A, X and Y. -/
theorem storesWriteTheirPlaces : Obligations.StoresWriteTheirPlaces :=
  ⟨fun _ _ _ _ h hcalm => ⟨_, rfl, storeOp_spec h hcalm⟩, fun _ _ _ _ h hcalm => ⟨_, rfl, storeOp_spec h hcalm⟩,
    fun _ _ _ _ h hcalm => ⟨_, rfl, storeOp_spec h hcalm⟩⟩

/-! ## The data stack (R166, R206) -/

/-- An instruction without fields, guarded or not. -/
theorem guarded_fields (h : f.toNat = 0 ∨ f.toNat = 4 * 2 ^ 16) :
    badA (formPlain true 0 0) (fa f) = false ∧ ((fa f).s == 4) = (f.toNat != 0) := by
  rcases h with h | h <;> simp [fa, h, badA, formPlain]

/-- A stack entry is one word of T. -/
theorem coreWrite_entry (d : Dev) (c t n k v : Nat) :
    coreWrite d c 3 (tAddr t n k) 8 v = writeWord d (cidPlace c) (coreArr c 3) (32 * (32 * t + n) + k) (BitVec.ofNat 64 v) := by
  have hone : (tAddr t n k + 8 - 1) / 8 + 1 - tAddr t n k / 8 = 1 := by unfold tAddr; omega
  have hword : tAddr t n k / 8 = 32 * (32 * t + n) + k := by unfold tAddr; omega
  have hlo : max (tAddr t n k) (8 * (32 * (32 * t + n) + k)) = tAddr t n k := by unfold tAddr; omega
  have hhi : min (tAddr t n k + 8) (8 * (32 * (32 * t + n) + k) + 8) = tAddr t n k + 8 := by unfold tAddr; omega
  have hsh : 8 * (32 * (32 * t + n) + k) + 8 - (tAddr t n k + 8) = 0 := by unfold tAddr; omega
  have hval : BitVec.ofNat 64 (v % 256 ^ 8) = BitVec.ofNat 64 v := by
    apply BitVec.eq_of_toNat_eq
    simp
  rw [coreWrite, sramWrite.eq_2 _ _ _ _ _ _ (by decide), hone]
  simp only [hword, List.range_one, List.foldl_cons, List.foldl_nil, Nat.add_zero, hlo, hhi, hsh, Nat.add_sub_cancel_left, Nat.sub_self,
    Nat.pow_zero, Nat.div_one, Nat.mul_one]
  rw [writePart, if_pos (by decide), hval]

/-- What PUSH writes for lane `n` when `k` free values have been used: A of an acting lane, else the next free value (R166). -/
def pushValue (x : Thread) (ls : List Nat) (k n : Nat) : Nat :=
  if ls.contains n then (lctx x n).a.toNat else (Config.free64 (k + (List.range n).countP (fun i => !ls.contains i))).toNat
/-- The parts of a new entry of the first `m` lanes. -/
def pushedLanes (d : Dev) (c t : Nat) (x : Thread) (ls : List Nat) (m : Nat) : Dev :=
  (List.range m).foldl (fun e n => coreWrite e c 3 (tAddr t n x.sp) 8 (pushValue x ls d.free n)) d

/-- Using free values between the writes of an entry leaves its words as they are without. -/
theorem foldl_push (d : Dev) (c t : Nat) (x : Thread) (ls : List Nat) (m : Nat) :
    (List.range m).foldl (fun d n => if ls.contains n then coreWrite d c 3 (tAddr t n x.sp) 8 (lctx x n).a.toNat
      else useFree (coreWrite d c 3 (tAddr t n x.sp) 8 (freeVal d).toNat)) d =
    { pushedLanes d c t x ls m with free := d.free + (List.range m).countP (fun i => !ls.contains i) } := by
  induction m with
  | zero => rfl
  | succ m ih =>
    have hstep : pushedLanes d c t x ls (m + 1) = coreWrite (pushedLanes d c t x ls m) c 3 (tAddr t m x.sp) 8 (pushValue x ls d.free m) := by
      rw [pushedLanes, List.range_succ, List.foldl_append]
      rfl
    have hfree (e : Dev) (k v : Nat) : coreWrite { e with free := k } c 3 (tAddr t m x.sp) 8 v = { coreWrite e c 3 (tAddr t m x.sp) 8 v with free := k } := by
      rw [coreWrite_entry, coreWrite_entry]
      rfl
    rw [hstep, List.range_succ, List.foldl_append, ih, List.countP_append, List.countP_singleton, List.foldl_cons, List.foldl_nil]
    by_cases hm : ls.contains m = true
    · rw [if_pos hm, hfree, pushValue, if_pos hm, hm]
      rfl
    · rw [if_neg hm, pushValue, if_neg hm, Bool.not_eq_true] at *
      rw [hfree, hm]
      rfl

theorem written_pushedLanes (d : Dev) (c t : Nat) (x : Thread) (ls : List Nat) (m : Nat) : Written d (pushedLanes d c t x ls m) :=
  .foldl _ (fun _ _ hx => hx.coreWrite ..) _ (.refl d)

/-- The effect of PUSH. -/
def pushed (c t : Nat) (ls : List Nat) (d : Dev) : Dev :=
  let d' := (List.range 32).foldl (fun e n => if ls.contains n then coreWrite e c 3 (tAddr t n (thr d c t).sp) 8 (lctx (thr d c t) n).a.toNat
    else useFree (coreWrite e c 3 (tAddr t n (thr d c t).sp) 8 (freeVal e).toNat)) d
  advance (modThr d' c t (fun x => { x with sp := x.sp + 1 })) c t

theorem exec_opPush (f : BitVec 24) : Machine.exec (.opPush c t f) s = .next { s with
    dev := settle (threadOp 0x58 (formPlain true 0 0) false true (fun x => if x.sp == 32 then some 6 else none) s.dev c t f (fun _ ls => pushed c t ls)) } := rfl

theorem pushed_spec {c t : Nat} (ls : List Nat) (h : (thr d c t).pc + 1 < 8192) :
    (pushed c t ls d).ras = (pushedLanes d c t (thr d c t) ls 32).ras ∧ SameSram (pushed c t ls d) (pushedLanes d c t (thr d c t) ls 32) ∧
      ThreadBy c t (fun x => { x with sp := x.sp + 1, pc := x.pc + 1 }) d (pushed c t ls d) := by
  have hwritten := written_pushedLanes d c t (thr d c t) ls 32
  obtain ⟨d', heq, hcore, hras⟩ : ∃ d', pushed c t ls d = advance (modThr d' c t (fun x => { x with sp := x.sp + 1 })) c t ∧
      d'.core = (pushedLanes d c t (thr d c t) ls 32).core ∧ d'.ras = (pushedLanes d c t (thr d c t) ls 32).ras :=
    ⟨_, congrArg (fun e => advance (modThr e c t fun x => { x with sp := x.sp + 1 }) c t) (foldl_push ..), rfl, rfl⟩
  have hsp := (ThreadBy.of_threads ((congrArg Cores.threads hcore).trans hwritten.threads)).trans (.modThr d' c t (fun x => { x with sp := x.sp + 1 }))
  rw [heq, hsp.next (fun _ => rfl) h]
  exact ⟨hras, ⟨(congrArg Cores.sram hcore :), (congrArg Cores.merge hcore :)⟩, hsp.trans (.modThr _ _ _ _)⟩

theorem opPush_spec (hf : f.toNat = 0 ∨ f.toNat = 4 * 2 ^ 16) (h : Free s.dev c t) (hsp : (thr s.dev c t).sp < 32) :
    let x := thr s.dev c t
    let ls := actingLanes x (f.toNat != 0)
    ∃ v : Nat → Nat, (∀ n ∈ ls, v n = (lctx x n).a.toNat) ∧
      let dst := (List.range 32).foldl (fun d n => coreWrite d c 3 (tAddr t n x.sp) 8 (v n)) (atIssue s.dev c t)
      (dst.ras.todo = [] → ∃ u, Machine.exec (.opPush c t f) s = .next u ∧ SameSram u.dev dst ∧ u.mem = s.mem ∧
        ThreadTo s u c t (fun x => { x with sp := x.sp + 1, pc := x.pc + 1 })) := by
  intro x ls
  obtain ⟨hfields, hguard⟩ := guarded_fields hf
  refine ⟨pushValue x ls (atIssue s.dev c t).free, fun n hn => if_pos (List.contains_iff_mem.mpr hn), fun hcalm => ⟨_, exec_opPush f, ?_⟩⟩
  obtain ⟨n, hn⟩ := thr_atIssue_self s.dev c t
  have hsame : pushedLanes (atIssue s.dev c t) c t (thr (atIssue s.dev c t) c t) ls 32 = pushedLanes (atIssue s.dev c t) c t x ls 32 := by rw [hn]; rfl
  obtain ⟨hras, hsram, hthr⟩ := pushed_spec (d := atIssue s.dev c t) ls (by rw [pc_atIssue]; exact h.next)
  rw [hsame] at hras hsram
  have hwork := sameWork_threadOp (op := 0x58) (m := formPlain true 0 0) (priv := false) (perLane := true) (stack := fun x => if x.sp == 32 then some 6 else none)
    (f := f) (eff := fun _ ls => pushed c t ls) h hfields rfl (if_neg (by simpa using hsp.ne)) (by rw [hguard]; exact (congrArg Ras.todo hras).trans hcalm)
  rw [hguard] at hwork
  refine ⟨?_, rfl, hthr.issued (fun _ _ => rfl) hwork⟩
  rw [SameSram, hwork.core]
  exact hsram

/-- The values of the top entry go to A of their lanes. -/
def popped (c t : Nat) (vs : List (Nat × Nat)) (d : Dev) : Dev :=
  advance (modThr (vs.foldl (fun d e => modCtx d c t e.1 (putA e.2)) d) c t (fun x => { x with sp := x.sp - 1 })) c t

theorem popped_spec {c t : Nat} (vs : List (Nat × Nat)) (h : (thr d c t).pc + 1 < 8192) :
    (popped c t vs d).ras = d.ras ∧ CoreOnlyDev d (popped c t vs d) ∧
      ThreadBy c t (fun x => { x with sp := x.sp - 1, pc := x.pc + 1, lanes := lanesTo x.lanes vs (fun _ v => putA v) }) d (popped c t vs d) := by
  have hsp := (ThreadBy.modCtxs (fun _ v => putA v) vs d c t).trans (.modThr _ c t (fun x => { x with sp := x.sp - 1 }))
  rw [popped, hsp.next (fun _ => rfl) h]
  exact ⟨ras_modCtxs (fun _ v => putA v) vs d, (((CoreOnlyDev.refl d).modCtxs (fun _ v => putA v) vs).modThr ..).modThr .., hsp.trans (.modThr _ _ _ _)⟩

theorem exec_opPop (f : BitVec 24) :
    let x := thr s.dev c t
    let ls := actingLanes x ((fa f).s == 4)
    Machine.exec (.opPop c t f) s = .next { s with dev := settle (issue s.dev c t
      { word := opWord 0x59 f, field := badA (formPlain true 0 0) (fa f), stack := if x.sp == 0 then some 7 else none, lanes := ls }
      (fun d =>
        let r := readLanes d ls (fun d n => spaceRead d c 3 (tAddr t n (x.sp - 1)) 8)
        if r.2.1 != .ok then metError r.2.2 c t (opWord 0x59 f) r.2.1 else (popped c t r.1 r.2.2, false))) } := rfl

theorem opPop_spec (hf : f.toNat = 0 ∨ f.toNat = 4 * 2 ^ 16) (h : Issues s.dev c t) (hp : (thr s.dev c t).pc + 1 < 8192) (hsp : 0 < (thr s.dev c t).sp) :
    let x := thr s.dev c t
    let ls := actingLanes x (f.toNat != 0)
    let r := readLanes (atIssue s.dev c t) ls (fun d n => spaceRead d c 3 (tAddr t n (x.sp - 1)) 8)
    r.2.1 = .ok → r.2.2.ras.todo = [] →
      ∃ u, Machine.exec (.opPop c t f) s = .next u ∧ CoreOnly s u ∧
        (∀ n v, (n, v) ∈ r.1 → lctx (thr u.dev c t) n = { lctx x n with a := BitVec.ofNat 64 v }) ∧
        (∀ n, n ∉ ls → lctx (thr u.dev c t) n = lctx x n) ∧
        ThreadTo s u c t (fun x => { x with sp := x.sp - 1, pc := x.pc + 1, lanes := (thr u.dev c t).lanes }) := by
  intro x ls r hok hcalm
  obtain ⟨hfields, hguard⟩ := guarded_fields hf
  have hread : Quiet (atIssue s.dev c t) r.2.2 := (Quiet.refl _).readLanes (fun _ _ hx => hx.spaceRead ..) _
  obtain ⟨hras, hcore, hthr⟩ := popped_spec (d := r.2.2) (c := c) (t := t) r.1 (by rw [hread.thr, pc_atIssue]; exact hp)
  have hwork := sameWork_issue_reads
    (i := { word := opWord 0x59 f, field := badA (formPlain true 0 0) (fa f), stack := if x.sp == 0 then some 7 else none, lanes := ls })
    (read := fun d => readLanes d ls (fun d n => spaceRead d c 3 (tAddr t n (x.sp - 1)) 8)) (err := fun r => metError r.2.2 c t (opWord 0x59 f) r.2.1)
    (eff := popped c t) h rfl (cause_none rfl hfields rfl (if_neg (by simpa using hsp.ne')) rfl rfl) hok ((congrArg Ras.todo hras).trans hcalm)
  have hexec := exec_opPop (s := s) (c := c) (t := t) f
  rw [hguard] at hexec
  obtain ⟨hl, hto⟩ := ThreadTo.lanes (g := fun x => { x with sp := x.sp - 1, pc := x.pc + 1 }) (l := fun l => lanesTo l r.1 (fun _ v => putA v))
    ((hread.threadBy.trans hthr).issued (fun _ _ => rfl) hwork)
  obtain ⟨hin, hout⟩ := tget_lanesTo (fun _ v => putA v) r.1 x.lanes (by rw [readLanes_keys]; exact nodup_actingLanes _ _)
  refine ⟨_, hexec, coreOnly_of (hread.coreOnly.trans hcore) hwork, fun n v hm => ?_, fun n hn => ?_, hto⟩
  · rw [lctx, hl]
    exact hin n v hm
  · rw [lctx, hl]
    exact hout n (by rw [readLanes_keys]; exact hn)

/-- Settles O10: PUSH writes A, or free values, into the words of its entry; POP reads them back. -/
theorem pushAndPopMoveEntries : Obligations.PushAndPopMoveEntries :=
  fun _ _ _ _ hf => ⟨fun h hsp => opPush_spec hf h hsp, fun h hp hsp => opPop_spec hf h hp hsp⟩

/-! ## Conditions and predicates (R160, R161, R167, R203) -/

theorem condHolds_table (l : LaneCtx) : (List.range 15).map (fun k => condHolds k l) =
    [l.z, !l.z, l.n != l.v, !(l.n != l.v), l.c, !l.c, !l.z && !(l.n != l.v), l.z || (l.n != l.v), !l.c && !l.z, l.c || l.z,
     l.v, !l.v, l.p, !l.p, true] := by
  obtain ⟨a, cur, z, n, c, v, p⟩ := l
  cases n <;> cases v <;> rfl

theorem mem_activeLanes {x : Thread} {n : Nat} : n ∈ activeLanes x ↔ n < 32 ∧ x.act.testBit n = true := mem_bitsOf
theorem nodup_activeLanes (x : Thread) : (activeLanes x).Nodup := nodup_bitsOf _ _
theorem activeLanes_atIssue (d : Dev) (c t : Nat) : activeLanes (thr (atIssue d c t) c t) = activeLanes (thr d c t) := by
  obtain ⟨n, h⟩ := thr_atIssue_self d c t
  rw [h]
  rfl

theorem exec_opSetp (f : BitVec 24) : Machine.exec (.opSetp c t f) s = .next { s with
    dev := settle (jumpOp 0x48 (fjCond f == 15 || fjQ f != 0 || fjT f != 0) false (fun _ => none) s.dev c t f (fun d =>
      nextOnLanes c t (activeLanes (thr d c t)) (fun _ l => { l with p := condHolds (fjCond f) l }) d)) } := rfl

theorem opSetp_spec (h : Free s.dev c t) (hcond : fjCond f < 15) (hf : FieldsJ (fjCond f) 0 f) (ht : fjT f = 0) :
    ∃ u, Machine.exec (.opSetp c t f) s = .next u ∧ CoreOnly s u ∧
      (∀ n, lctx (thr u.dev c t) n = if n < 32 ∧ (thr s.dev c t).act.testBit n
        then { lctx (thr s.dev c t) n with p := condHolds (fjCond f) (lctx (thr s.dev c t) n) } else lctx (thr s.dev c t) n) ∧
      ThreadTo s u c t (fun x => { x with pc := x.pc + 1, lanes := (thr u.dev c t).lanes }) := by
  obtain ⟨-, hq, hz, -⟩ := hf
  have hp : (thr (atIssue s.dev c t) c t).pc + 1 < 8192 := by rw [pc_atIssue]; exact h.next
  obtain ⟨hras, hcore, -⟩ := nextOnLanes_spec (activeLanes (thr (atIssue s.dev c t) c t)) (fun _ l => { l with p := condHolds (fjCond f) l }) hp
  have hwork := sameWork_jumpOp (op := 0x48) (bad := fjCond f == 15 || fjQ f != 0 || fjT f != 0) (priv := false) (stack := fun _ => none) (f := f)
    (eff := fun d => nextOnLanes c t (activeLanes (thr d c t)) (fun _ l => { l with p := condHolds (fjCond f) l }) d) h
    (by simp [hcond.ne, hq, hz, ht]) rfl rfl ((congrArg Ras.todo hras).trans h.calm)
  obtain ⟨hl, hto⟩ := nextOnLanes_issued (nodup_activeLanes _) h.next (.of_threads rfl) hwork
  refine ⟨_, exec_opSetp f, coreOnly_of hcore hwork, fun n => ?_, hto⟩
  rw [hl, activeLanes_atIssue]
  exact if_congr mem_activeLanes rfl rfl

/-! ### KILL -/

theorem testBit_ofBits (l : List Nat) (i : Nat) : (ofBits l).testBit i = decide (i ∈ l) := by
  have h (l : List Nat) (a : Nat) : (l.foldl (fun a i => a ||| (1 <<< i)) a).testBit i = (a.testBit i || decide (i ∈ l)) := by
    induction l generalizing a with
    | nil => simp
    | cons k l ih =>
      have hk : (1 <<< k).testBit i = decide (i = k) := by simpa [setBit] using testBit_setBit 0 k i
      rw [List.foldl_cons, ih, Nat.testBit_or, hk, Bool.or_assoc]
      simp
  rw [ofBits, h, Nat.zero_testBit, Bool.false_or]

/-- The lanes without P stay. -/
def stayers (x : Thread) : Nat := ofBits ((activeLanes x).filter (fun n => !(lctx x n).p))
theorem testBit_stayers (x : Thread) {n : Nat} (hn : n < 32) : (stayers x).testBit n = (x.act.testBit n && !(lctx x n).p) := by
  rw [stayers, testBit_ofBits, Bool.eq_iff_iff, decide_eq_true_eq, List.mem_filter, mem_activeLanes, Bool.and_eq_true]
  simp [hn]

/-- The effect of KILL. -/
def killed (c t : Nat) (d : Dev) : Dev := advance (modThr d c t (fun y => { y with act := stayers y })) c t

theorem exec_opKill (f : BitVec 24) : Machine.exec (.opKill c t f) s = .next { s with
    dev := settle (jumpOp 0x4A (fjCond f != 0 || fjQ f != 0 || fjT f != 0) (kernelThread (thr s.dev c t)) (fun _ => none) s.dev c t f (killed c t)) } := rfl

theorem not_kernel_of_flight {x : Thread} (h : OfFlight x) : kernelThread x = false := by
  rcases h with h | h <;> simp [kernelThread, h]

theorem opKill_spec (h : Free s.dev c t) (hfl : OfFlight (thr s.dev c t)) :
    ∃ u, Machine.exec (.opKill c t 0) s = .next u ∧ CoreOnly s u ∧
      (∀ n < 32, (thr u.dev c t).act.testBit n = ((thr s.dev c t).act.testBit n && !(lctx (thr s.dev c t) n).p)) ∧
      ThreadTo s u c t (fun x => { x with pc := x.pc + 1, act := (thr u.dev c t).act }) := by
  have hact := ThreadBy.modThr (atIssue s.dev c t) c t (fun y => { y with act := stayers y })
  have hnext := hact.next (fun _ => rfl) (by rw [pc_atIssue]; exact h.next)
  have hwork := sameWork_jumpOp (op := 0x4A) (bad := fjCond 0 != 0 || fjQ 0 != 0 || fjT 0 != 0) (priv := kernelThread (thr s.dev c t)) (stack := fun _ => none) (f := 0)
    (eff := killed c t) h rfl (not_kernel_of_flight hfl) rfl (by rw [killed, hnext]; exact h.calm)
  rw [killed, hnext] at hwork
  obtain ⟨hstay, hto⟩ := ThreadTo.act (g := fun x => { x with pc := x.pc + 1 }) (v := stayers) ((hact.trans (.modThr _ _ _ _)).issued (fun _ _ => rfl) hwork)
  exact ⟨_, exec_opKill 0, coreOnly_of (((CoreOnlyDev.refl _).modThr ..).modThr ..) hwork, fun n hn => (congrArg (Nat.testBit · n) hstay).trans (testBit_stayers _ hn), hto⟩

/-! ### LDP -/

/-- The fields that LDP admits. -/
def formLdp : FormA := { formOp with ws := [2], g := false }

theorem readLanes_singleton (d : Dev) (n : Nat) (g : Dev → Nat → Nat × Met × Dev) : readLanes d [n] g = ([(n, (g d n).1)], (g d n).2.1, (g d n).2.2) := rfl

theorem exec_opLdp (f : BitVec 24) (hls : (activeLanes (thr s.dev c t)).isEmpty = false) :
    let x := thr s.dev c t
    Machine.exec (.opLdp c t f) s = .next { s with dev := settle (issue s.dev c t
      { word := opWord 0x4B f, field := badA formLdp (fa f), stack := stackUnder x (fa f)
        window := [0].filter (outside x (fa f)), stall := stallOn s.dev c x (fa f) (0 :: activeLanes x), lanes := activeLanes x }
      (fun d =>
        let r := readOperand d c t (fa f) 0
        if r.2.1 != .ok then metError r.2.2 c t (opWord 0x4B f) r.2.1
        else (nextOnLanes c t (activeLanes x) (fun n l => { l with p := r.1.testBit n }) r.2.2, false))) } := by
  show execOpLdp c t f s = _
  unfold execOpLdp
  rw [State.onDevF, State.onDev]
  simp only [hls, readLanes_singleton, Bool.false_eq_true, if_false]
  rfl

theorem opLdp_spec :
    let x := thr s.dev c t
    let r := readOperand (atIssue s.dev c t) c t (fa f) 0
    Issues s.dev c t → x.pc + 1 < 8192 → x.act % 2 ^ 32 ≠ 0 → badA { formOp with ws := [2], g := false } (fa f) = false →
    stackUnder x (fa f) = none → outside x (fa f) 0 = false → operandStall s.dev c x (fa f) (0 :: activeLanes x) = false →
    r.2.1 = .ok → r.2.2.ras.todo = [] →
    ∃ u, Machine.exec (.opLdp c t f) s = .next u ∧ CoreOnly s u ∧
      (∀ n, lctx (thr u.dev c t) n = if n < 32 ∧ x.act.testBit n then { lctx x n with p := r.1.testBit n } else lctx x n) ∧
      ThreadTo s u c t (fun x => { x with pc := x.pc + 1, lanes := (thr u.dev c t).lanes }) := by
  intro x r h hp hact hform hstack hwin hstall hok hcalm
  have hls : (activeLanes x).isEmpty = false := by
    obtain ⟨i, hi⟩ := Nat.exists_testBit_of_ne_zero hact
    rw [Nat.testBit_mod_two_pow, Bool.and_eq_true, decide_eq_true_eq] at hi
    exact Bool.eq_false_iff.mpr fun hempty => List.ne_nil_of_mem (mem_activeLanes.mpr hi) (List.isEmpty_iff.mp hempty)
  have hread : Quiet (atIssue s.dev c t) r.2.2 := (Quiet.refl _).readOperand ..
  obtain ⟨hras, hcore, -⟩ := nextOnLanes_spec (d := r.2.2) (c := c) (t := t) (activeLanes x) (fun n l => { l with p := r.1.testBit n })
    (by rw [hread.thr, pc_atIssue]; exact hp)
  have hwork := sameWork_issue_reads
    (i := { word := opWord 0x4B f, field := badA formLdp (fa f), stack := stackUnder x (fa f)
            window := [0].filter (outside x (fa f)), stall := stallOn s.dev c x (fa f) (0 :: activeLanes x), lanes := activeLanes x })
    (read := fun d => readOperand d c t (fa f) 0) (err := fun r => metError r.2.2 c t (opWord 0x4B f) r.2.1)
    (eff := fun v => nextOnLanes c t (activeLanes x) (fun n l => { l with p := v.testBit n })) h
    (by rw [stallOn, hstall, stallIf_false]) (cause_none rfl hform rfl hstack (window_nil (by simpa using hwin)) rfl) hok ((congrArg Ras.todo hras).trans hcalm)
  obtain ⟨hl, hto⟩ := nextOnLanes_issued (nodup_activeLanes _) hp hread.threadBy hwork
  refine ⟨_, exec_opLdp f hls, coreOnly_of (hread.coreOnly.trans hcore) hwork,
    fun n => (hl n).trans (if_congr mem_activeLanes rfl rfl), hto⟩

/-- Settles O11: the table of conditions by cases, the instructions by what they do to the listed lanes. -/
theorem predicateInstructionsChangePAndAct : Obligations.PredicateInstructionsChangePAndAct :=
  ⟨condHolds_table, fun _ _ _ _ h hcond hf ht => opSetp_spec h hcond hf ht, fun _ _ _ h hfl => opKill_spec h hfl, fun _ _ _ _ => opLdp_spec⟩

end Sys2Proof.Machine
end

section
/-!
FORK, JOIN, verdicts and the ends of flights (R161 to R164, R208, R209), and O13, O14, O16.
-/

namespace Sys2Proof.Machine
open Sys2Proof Sys2Proof.Terms

variable {d e : Dev} {s : State} {c : Cid} {t : Tid} {f : BitVec 24}

/-! ## FORK (R162, R164) -/

/-- The lanes that a FORK moves: those with P. -/
def movers (x : Thread) : Nat := ofBits ((activeLanes x).filter (fun n => (lctx x n).p))

/-- The child that starts at a target with the moved lanes (R162). -/
def forked (x : Thread) (t p : Nat) (y : Thread) : Thread :=
  { state := 2, pc := p, bank := x.bank, x := x.x, y := x.y, act := movers x, lanes := x.lanes, inTrap := x.inTrap,
    level := x.level, home := x.home, parent := some t, flight := x.flight, tag := x.tag, issued := y.issued }

/-- A FORK that moves no lane pushes a frame. -/
def forkNone (c t : Nat) (d : Dev) : Dev := advance (pushFrame d c t (.child 0 false 0 [])) c t
/-- A serialised FORK. -/
def forkSerial (c t p : Nat) (x : Thread) (d : Dev) : Dev :=
  setPc (modThr (pushFrame (pmc (bump d (Rg.CORE_FORK_SERIAL c) 1) c 11 1 false 0) c t (.serial true (x.pc + 1) (stayers x) 0)) c t
    (fun y => { y with act := movers x })) c t p
/-- A FORK with thread `k` as the child. -/
def forkChild (c t p k : Nat) (x : Thread) (d : Dev) : Dev :=
  let d := modThr (bump d (Rg.CORE_FORK_THREAD c) 1) c k (forked x t p)
  let d := modBar d (fun b => { b with raises := b.raises ++ (b.raises.filter (fun r => r.cid == c && r.t == t)).map (fun r => { r with t := k }) })
  advance (pushFrame (modThr d c t (fun y => { y with act := stayers x })) c t (.child k true (movers x) [])) c t
/-- The effect of FORK. -/
def forks (c t p : Nat) (d : Dev) : Dev :=
  let x := thr d c t
  if movers x == 0 then forkNone c t d
  else
    let r := if forkEnabled d x.flight then pickFree d (forkThreads d c) else (none, d)
    match r.1 with
    | some k => forkChild c t p k x r.2
    | none => forkSerial c t p x r.2

theorem exec_opFork (f : BitVec 24) : Machine.exec (.opFork c t f) s = .next { s with
    dev := settle (jumpOp 0x60 (fjCond f != 0 || fjQ f != 0 || badT f) (kernelThread (thr s.dev c t)) rstackOver s.dev c t f (forks c t (fjT f))) } := rfl

theorem pickFree_nil {α : Type} (d : Dev) : pickFree d ([] : List α) = (none, d) := rfl
/-- A choice among some candidates is one of them, and uses at most a free value. -/
theorem pickFree_some {α : Type} (d : Dev) {l : List α} (h : l ≠ []) : ∃ a ∈ l, ∃ n, pickFree d l = (some a, { d with free := n }) := by
  match l, h with
  | [a], _ => exact ⟨a, List.mem_singleton_self a, d.free, rfl⟩
  | a :: b :: l, _ =>
    have hlt : (freeVal d).toNat % (a :: b :: l).length < (a :: b :: l).length := Nat.mod_lt _ (Nat.succ_pos _)
    exact ⟨_, List.getElem_mem hlt, d.free + 1, congrArg (·, useFree d) (List.getElem?_eq_getElem hlt)⟩

section
variable {c t p : Nat}

theorem forks_none (h : movers (thr d c t) = 0) : forks c t p d = forkNone c t d := by
  rw [forks, h]
  rfl
theorem forks_serial (h : movers (thr d c t) ≠ 0)
    (hno : forkEnabled d (thr d c t).flight ≠ true ∨ ¬ (slotFlights d c).length < (idleThreads d c).length) :
    forks c t p d = forkSerial c t p (thr d c t) d := by
  have hpick : (if forkEnabled d (thr d c t).flight then pickFree d (forkThreads d c) else (none, d)) = (none, d) := by
    rcases hno with hno | hno
    · exact if_neg hno
    · rw [forkThreads, if_pos (Nat.not_lt.mp hno), pickFree_nil, ite_self]
  unfold forks
  simp only [hpick]
  exact if_neg (by simpa using h)
theorem forks_child (h : movers (thr d c t) ≠ 0) (hen : forkEnabled d (thr d c t).flight = true)
    (hroom : (slotFlights d c).length < (idleThreads d c).length) :
    ∃ k ∈ idleThreads d c, ∃ n, forks c t p d = forkChild c t p k (thr d c t) { d with free := n } := by
  have hidle : idleThreads d c ≠ [] := List.ne_nil_of_length_pos (by omega)
  obtain ⟨k, hk, n, hpick⟩ := pickFree_some d hidle
  refine ⟨k, hk, n, ?_⟩
  unfold forks
  simp only [forkThreads, if_neg (Nat.not_le.mpr hroom), hpick, if_pos hen]
  exact if_neg (by simpa using h)

theorem forkNone_spec (h : (thr d c t).pc + 1 < 8192) : (forkNone c t d).ras = d.ras ∧
    ThreadBy c t (fun x => { x with rstack := .child 0 false 0 [] :: x.rstack, pc := x.pc + 1 }) d (forkNone c t d) := by
  have hpush := ThreadBy.modThr d c t (fun x => { x with rstack := .child 0 false 0 [] :: x.rstack })
  have hnext : forkNone c t d = _ := hpush.next (fun _ => rfl) h
  rw [hnext]
  exact ⟨rfl, hpush.trans (.modThr _ _ _ _)⟩

theorem forkSerial_spec (x : Thread) (h : p < 8192) : (forkSerial c t p x d).ras = d.ras ∧
    ThreadBy c t (fun y => { y with rstack := .serial true (x.pc + 1) (stayers x) 0 :: y.rstack, act := movers x, pc := p }) d (forkSerial c t p x d) := by
  obtain ⟨d1, heq, hcount⟩ : ∃ d1, forkSerial c t p x d = setPc (modThr (pushFrame d1 c t (.serial true (x.pc + 1) (stayers x) 0)) c t
      (fun y => { y with act := movers x })) c t p ∧ SameWork d d1 := ⟨_, rfl, ((SameWork.refl d).bump _ _).pmc ..⟩
  have hpush := (ThreadBy.modThr d1 c t (fun y => { y with rstack := .serial true (x.pc + 1) (stayers x) 0 :: y.rstack })).trans
    (.modThr _ c t (fun y => { y with act := movers x }))
  rw [heq, setPc_eq _ _ _ _ h]
  exact ⟨hcount.ras, (hcount.threadBy.trans hpush).trans (.modThr _ c t (fun y => { y with pc := p }))⟩

theorem forkChild_spec (x : Thread) {k : Nat} (hk : k ≠ t) (h : (thr d c t).pc + 1 < 8192) : (forkChild c t p k x d).ras = d.ras ∧
    thr (forkChild c t p k x d) c t = { thr d c t with act := stayers x, rstack := .child k true (movers x) [] :: (thr d c t).rstack, pc := (thr d c t).pc + 1 } ∧
    thr (forkChild c t p k x d) c k = forked x t p (thr d c k) := by
  obtain ⟨d1, heq, hras, hthr⟩ : ∃ d1, forkChild c t p k x d = advance (pushFrame (modThr d1 c t (fun y => { y with act := stayers x })) c t (.child k true (movers x) [])) c t ∧
      d1.ras = d.ras ∧ ∀ c' t', thr d1 c' t' = thr (modThr d c k (forked x t p)) c' t' := ⟨_, rfl, rfl, fun _ _ => rfl⟩
  have hself : thr d1 c t = thr d c t := by rw [hthr, thr_modThr, if_neg (by omega)]
  have hpush := (ThreadBy.modThr d1 c t (fun y => { y with act := stayers x })).trans (.modThr _ c t (fun y => { y with rstack := .child k true (movers x) [] :: y.rstack }))
  have hnext : forkChild c t p k x d = _ := heq.trans (hpush.next (fun _ => rfl) (by rw [hself]; exact h))
  have hall := hpush.trans (.modThr _ c t (fun y => { y with pc := y.pc + 1 }))
  rw [hnext]
  refine ⟨hras, ?_, ?_⟩
  · rw [← hself]
    exact hall.self
  · exact (hall c k).trans ((if_neg (by omega)).trans ((hthr c k).trans (thr_modThr_same ..)))

end

theorem opFork_spec (h : Free s.dev c t) (hfl : OfFlight (thr s.dev c t)) (hf : FieldsJ 0 0 f) (hstack : (thr s.dev c t).rstack.length < 16) :
    let x := thr s.dev c t
    let moved := ofBits ((activeLanes x).filter (fun n => (lctx x n).p))
    let rest := ofBits ((activeLanes x).filter (fun n => !(lctx x n).p))
    let e := atIssue s.dev c t
    let en := forkEnabled e x.flight = true
    let room := (slotFlights e c).length < (idleThreads e c).length
    ∃ u, Machine.exec (.opFork c t f) s = .next u ∧ u.mem = s.mem ∧
      (moved = 0 → ThreadTo s u c t (fun x => { x with rstack := .child 0 false 0 [] :: x.rstack, pc := x.pc + 1 })) ∧
      (moved ≠ 0 → (¬en ∨ ¬room) →
        ThreadTo s u c t (fun x => { x with rstack := .serial true (x.pc + 1) rest 0 :: x.rstack, act := moved, pc := fjT f })) ∧
      (moved ≠ 0 → en → room → ∃ k ∈ idleThreads e c, k ≠ t.val →
        (thr u.dev c t).rstack = .child k true moved [] :: x.rstack ∧ (thr u.dev c t).act = rest ∧ (thr u.dev c t).pc = x.pc + 1 ∧
        (thr u.dev c k).state = 2 ∧ (thr u.dev c k).act = moved ∧ (thr u.dev c k).pc = fjT f ∧ (thr u.dev c k).lanes = x.lanes ∧
        (thr u.dev c k).x = x.x ∧ (thr u.dev c k).y = x.y ∧ (thr u.dev c k).sp = 0 ∧ (thr u.dev c k).rstack = [] ∧
        (thr u.dev c k).parent = some t.val ∧ (thr u.dev c k).flight = x.flight ∧ (thr u.dev c k).home = x.home) := by
  intro x moved rest e en room
  obtain ⟨hcond, hq, hz, ht⟩ := hf
  obtain ⟨n, hn⟩ := thr_atIssue_self s.dev c t
  have hx : thr e c t = { x with issued := n } := hn
  have hp : (thr e c t).pc + 1 < 8192 := by rw [hx]; exact h.next
  have hmoved : movers (thr e c t) = moved := by rw [hx]; rfl
  have hflight : (thr e c t).flight = x.flight := by rw [hx]
  have hrun (hcalm : (forks c t (fjT f) e).ras = e.ras) := sameWork_jumpOp (op := 0x60) (bad := fjCond f != 0 || fjQ f != 0 || badT f)
    (priv := kernelThread x) (stack := rstackOver) (f := f) (eff := forks c t (fjT f)) h (by simp [hcond, hq, hz, badT, ht]) (not_kernel_of_flight hfl)
    (if_neg (Nat.not_le.mpr hstack)) ((congrArg Ras.todo hcalm).trans h.calm)
  refine ⟨_, exec_opFork f, rfl, fun h0 => ?_, fun h0 hno => ?_, fun h0 hen hroom => ?_⟩
  · obtain ⟨hras, hthr⟩ := forkNone_spec hp
    rw [← forks_none (p := fjT f) (hmoved.trans h0)] at hras hthr
    exact hthr.issued (fun _ _ => rfl) (hrun hras)
  · obtain ⟨hras, hthr⟩ := forkSerial_spec (d := e) (c := c) (t := t) (thr e c t) ht
    rw [← forks_serial (p := fjT f) (hmoved.trans_ne h0) (by rw [hflight]; exact hno)] at hras hthr
    rw [hx] at hthr
    exact hthr.issued (fun _ _ => rfl) (hrun hras)
  · obtain ⟨k, hk, m, heq⟩ := forks_child (p := fjT f) (hmoved.trans_ne h0) (by rw [hflight]; exact hen) hroom
    have hkt : k ≠ t.val := by
      rintro rfl
      have hidle := (List.mem_filter.mp hk).2
      rw [hx] at hidle
      rcases hfl with h1 | h1 <;> simp [x, h1] at hidle
    obtain ⟨hras, hparent, hchild⟩ := forkChild_spec (d := { e with free := m }) (c := c) (t := t) (p := fjT f) (thr e c t) hkt hp
    rw [← heq] at hras hparent hchild
    have hwork := hrun hras
    refine ⟨k, hk, fun _ => ?_⟩
    rw [hwork.thr, hwork.thr, hparent, hchild, show thr { e with free := m } c t = { x with issued := n } from hx, hx]
    exact ⟨rfl, rfl, rfl, rfl, rfl, rfl, rfl, rfl, rfl, rfl, rfl, rfl, rfl, rfl⟩

/-- Settles O13: the three outcomes of FORK, by the lanes it moves, FORK_EN and the idle threads. -/
theorem forkMovesLanesOrSerialises : Obligations.ForkMovesLanesOrSerialises := fun _ _ _ _ => opFork_spec

/-! ## JOIN (R163, R164) -/

/-- Lanes after those that an ended child returned. -/
def takeRegs (l : Tab LaneCtx) (g : List (Nat × LaneCtx)) : Tab LaneCtx := g.foldl (fun l e => tmod laneCtx0 l e.1 (fun _ => e.2)) l

theorem tget_takeRegs (g : List (Nat × LaneCtx)) (l : Tab LaneCtx) (h : (g.map (·.1)).Nodup) :
    (∀ n r, (n, r) ∈ g → tget laneCtx0 (takeRegs l g) n = r) ∧ (∀ n, n ∉ g.map (·.1) → tget laneCtx0 (takeRegs l g) n = tget laneCtx0 l n) := by
  induction g generalizing l with
  | nil => exact ⟨fun _ _ h => (nomatch h), fun _ _ => rfl⟩
  | cons e g ih =>
    obtain ⟨hk, hg⟩ := List.nodup_cons.mp h
    obtain ⟨hin, hout⟩ := ih (tmod laneCtx0 l e.1 (fun _ => e.2)) hg
    refine ⟨fun n r hm => ?_, fun n hm => ?_⟩
    · rcases List.mem_cons.mp hm with rfl | hm
      · exact (hout n hk).trans (tget_tmod_same ..)
      · exact hin n r hm
    · rw [List.map_cons, List.mem_cons, not_or] at hm
      exact (hout n hm.2).trans (tget_tmod_ne _ _ _ hm.1)

theorem takeRegs_threadBy (g : List (Nat × LaneCtx)) (d : Dev) (c t : Nat) :
    ThreadBy c t (fun x => { x with lanes := takeRegs x.lanes g }) d (g.foldl (fun d e => modCtx d c t e.1 (fun _ => e.2)) d) := by
  induction g generalizing d with
  | nil => exact .of_threads rfl
  | cons e g ih => exact (ThreadBy.modThr d c t (fun x => { x with lanes := tmod laneCtx0 x.lanes e.1 (fun _ => e.2) })).trans (ih _)
theorem takeRegs_ras (g : List (Nat × LaneCtx)) (d : Dev) (c t : Nat) : (g.foldl (fun d e => modCtx d c t e.1 (fun _ => e.2)) d).ras = d.ras := by
  induction g generalizing d with
  | nil => rfl
  | cons e g ih => exact ih _

/-- A thread that has taken back the lanes of its child. -/
def merged (m : Nat) (g : List (Nat × LaneCtx)) (x : Thread) : Thread :=
  { x with lanes := takeRegs x.lanes g, act := x.act ||| m, rstack := x.rstack.tail, pc := x.pc + 1 }

section
variable {c t : Nat}

/-- Lanes are added to the active ones, the frame is popped and the thread goes on. -/
theorem popNext_spec (m : Nat) (h : (thr d c t).pc + 1 < 8192) :
    let e := advance (popFrame (modThr d c t (fun x => { x with act := x.act ||| m })) c t) c t
    e.ras = d.ras ∧ ThreadBy c t (fun x => { x with act := x.act ||| m, rstack := x.rstack.tail, pc := x.pc + 1 }) d e := by
  have hpop := (ThreadBy.modThr d c t (fun x => { x with act := x.act ||| m })).trans (.modThr _ c t (fun x => { x with rstack := x.rstack.tail }))
  have hnext : advance (popFrame (modThr d c t (fun x => { x with act := x.act ||| m })) c t) c t = _ := hpop.next (fun _ => rfl) h
  dsimp only
  rw [hnext]
  exact ⟨rfl, hpop.trans (.modThr _ _ _ _)⟩

theorem mergeChild_spec (m : Nat) (g : List (Nat × LaneCtx)) (h : (thr d c t).pc + 1 < 8192) :
    (mergeChild d c t m g).ras = d.ras ∧ ThreadBy c t (merged m g) d (mergeChild d c t m g) := by
  have hregs := takeRegs_threadBy g d c t
  obtain ⟨hras, hthr⟩ := popNext_spec (d := g.foldl (fun d e => modCtx d c t e.1 (fun _ => e.2)) d) (c := c) (t := t) m (by rw [hregs.self]; exact h)
  exact ⟨hras.trans (takeRegs_ras ..), hregs.trans hthr⟩

/-- The effect of JOIN. -/
def joins (c t : Nat) (d : Dev) : Dev :=
  let x := thr d c t
  match x.rstack with
  | .child _ true _ _ :: _ => modThr d c t (fun x => { x with wait := .join })
  | .child _ false m regs :: _ => mergeChild d c t m regs
  | .serial true p rest _ :: r => setPc (modThr d c t (fun x => { x with rstack := .serial false p rest x.act :: r, act := rest })) c t p
  | .serial false _ _ sv :: _ => advance (popFrame (modThr d c t (fun x => { x with act := x.act ||| sv })) c t) c t
  | _ => if x.parent.isSome then endAsDone d c t else advance d c t

/-- JOIN with a return address on top, or nothing. -/
theorem joins_rest (h : (thr d c t).rstack = [] ∨ ∃ p l, (thr d c t).rstack = .ret p :: l) :
    joins c t d = if (thr d c t).parent.isSome then endAsDone d c t else advance d c t := by
  rcases h with h | ⟨p, l, h⟩ <;> simp only [joins, h]

end

theorem ThreadTo.congr {a b : State} {g k : Thread → Thread} (h : ThreadTo a b c t g) (hg : g (thr a.dev c t) = k (thr a.dev c t)) :
    ThreadTo a b c t k := by
  obtain ⟨⟨n, hn⟩, hothers⟩ := h
  exact ⟨⟨n, by rw [← hg]; exact hn⟩, hothers⟩

theorem exec_opJoin (f : BitVec 24) : Machine.exec (.opJoin c t f) s =
    .next { s with dev := settle (jumpOp 0x61 (f.toNat != 0) (kernelThread (thr s.dev c t)) noStack s.dev c t f (joins c t)) } := rfl

theorem opJoin_spec (h : Free s.dev c t) (hfl : OfFlight (thr s.dev c t)) :
    let x := thr s.dev c t
    ∃ u, Machine.exec (.opJoin c t 0) s = .next u ∧ u.mem = s.mem ∧
      (∀ k m g l, x.rstack = .child k true m g :: l → ThreadTo s u c t (fun x => { x with wait := .join })) ∧
      (∀ k m g l, x.rstack = .child k false m g :: l →
        (thr u.dev c t).act = x.act ||| m ∧ (thr u.dev c t).rstack = l ∧ (thr u.dev c t).pc = x.pc + 1) ∧
      (∀ p rest v l, x.rstack = .serial true p rest v :: l → p < 8192 →
        ThreadTo s u c t (fun x => { x with rstack := .serial false p rest x.act :: l, act := rest, pc := p })) ∧
      (∀ p rest v l, x.rstack = .serial false p rest v :: l →
        ThreadTo s u c t (fun x => { x with rstack := l, act := x.act ||| v, pc := x.pc + 1 })) ∧
      ((x.rstack = [] ∨ ∃ p l, x.rstack = .ret p :: l) → x.parent.isSome → ThreadTo s u c t (fun x => { x with wait := .done })) ∧
      ((x.rstack = [] ∨ ∃ p l, x.rstack = .ret p :: l) → x.parent = none → ThreadTo s u c t (fun x => { x with pc := x.pc + 1 })) := by
  intro x
  let e := atIssue s.dev c t
  obtain ⟨n, hx⟩ : ∃ n, thr e c t = { x with issued := n } := thr_atIssue_self s.dev c t
  have hp : (thr e c t).pc + 1 < 8192 := by rw [hx]; exact h.next
  have hstack : (thr e c t).rstack = x.rstack := by rw [hx]
  have hparent : (thr e c t).parent = x.parent := by rw [hx]
  have hrun {y : Dev} (heq : joins c t e = y) (hcalm : y.ras = e.ras) := heq ▸ sameWork_jumpOp (op := 0x61) (bad := (0 : BitVec 24).toNat != 0)
    (priv := kernelThread x) (stack := noStack) (f := 0) (eff := joins c t) h rfl (not_kernel_of_flight hfl) rfl
    ((congrArg Ras.todo (heq ▸ hcalm)).trans h.calm)
  refine ⟨_, exec_opJoin 0, rfl, fun k m g l hl => ?_, fun k m g l hl => ?_, fun p rest v l hl hp' => ?_, fun p rest v l hl => ?_,
    fun hl hpar => ?_, fun hl hpar => ?_⟩
  · have heq : joins c t e = modThr e c t (fun x => { x with wait := .join }) := by simp only [joins, hstack, hl]
    exact (ThreadBy.modThr e c t _).issued (fun _ _ => rfl) (hrun heq rfl)
  · obtain ⟨hras, hthr⟩ := mergeChild_spec m g hp
    have heq : joins c t e = mergeChild e c t m g := by simp only [joins, hstack, hl]
    rw [(hrun heq hras).thr, hthr.self, hx]
    exact ⟨rfl, congrArg List.tail hl, rfl⟩
  · have heq : joins c t e = setPc (modThr e c t (fun x => { x with rstack := .serial false p rest x.act :: l, act := rest })) c t p := by
      simp only [joins, hstack, hl]
    rw [setPc_eq _ _ _ _ hp'] at heq
    exact ((ThreadBy.modThr e c t _).trans (.modThr _ c t (fun x => { x with pc := p }))).issued (fun _ _ => rfl) (hrun heq rfl)
  · obtain ⟨hras, hthr⟩ := popNext_spec v hp
    have heq : joins c t e = advance (popFrame (modThr e c t (fun x => { x with act := x.act ||| v })) c t) c t := by simp only [joins, hstack, hl]
    exact (hthr.issued (fun _ _ => rfl) (hrun heq hras)).congr (congrArg (fun r => { x with act := x.act ||| v, rstack := r.tail, pc := x.pc + 1 }) hl)
  · have heq : joins c t e = modThr e c t (fun x => { x with wait := .done }) := by
      rw [joins_rest (by rw [hstack]; exact hl), if_pos (by rw [hparent]; exact hpar)]
      rfl
    exact (ThreadBy.modThr e c t _).issued (fun _ _ => rfl) (hrun heq rfl)
  · have heq : joins c t e = modThr e c t (fun x => { x with pc := x.pc + 1 }) := by
      rw [joins_rest (by rw [hstack]; exact hl), if_neg (by rw [hparent, hpar]; decide)]
      exact (ThreadBy.of_threads rfl).next (fun _ => rfl) hp
    exact (ThreadBy.modThr e c t _).issued (fun _ _ => rfl) (hrun heq rfl)

theorem joinComplete_spec {k m : Nat} {g : List (Nat × LaneCtx)} {l : List RFrame} (h : Calm s.dev) (hw : (thr s.dev c t).wait = .join)
    (hl : (thr s.dev c t).rstack = .child k false m g :: l) (hp : (thr s.dev c t).pc + 1 < 8192) (hg : (g.map (·.1)).Nodup) :
    ∃ u, Machine.exec (.joinComplete c t) s = .next u ∧ u.mem = s.mem ∧
      (∀ n r, (n, r) ∈ g → lctx (thr u.dev c t) n = r) ∧
      (∀ n, n ∉ g.map (·.1) → lctx (thr u.dev c t) n = lctx (thr s.dev c t) n) ∧
      (thr u.dev c t).act = (thr s.dev c t).act ||| m ∧ (thr u.dev c t).rstack = l ∧ (thr u.dev c t).wait = .none ∧
      (thr u.dev c t).pc = (thr s.dev c t).pc + 1 := by
  have hready := ThreadBy.modThr s.dev c t (fun x => { x with wait := .none })
  obtain ⟨hras, hthr⟩ := mergeChild_spec (d := modThr s.dev c t (fun x => { x with wait := .none })) (c := c) (t := t) m g (by rw [hready.self]; exact hp)
  have hexec : Machine.exec (.joinComplete c t) s = .next { s with dev := settle (mergeChild (modThr s.dev c t (fun x => { x with wait := .none })) c t m g) } := by
    change Host.Outcome.next { s with dev := settle _ } = _
    simp only [hw, hl]
  have hwork := sameWork_settle (d := mergeChild (modThr s.dev c t (fun x => { x with wait := .none })) c t m g) ((congrArg Ras.todo hras).trans h.1)
  obtain ⟨hin, hout⟩ := tget_takeRegs g (thr s.dev c t).lanes hg
  refine ⟨_, hexec, rfl, ?_⟩
  dsimp only
  rw [hwork.thr, (hready.trans hthr).self]
  exact ⟨hin, hout, rfl, congrArg List.tail hl, rfl, rfl⟩

/-- Settles O14: JOIN by the frame on top, and its completion, from what the merge of a child gives back. -/
theorem joinActsOnTheTopFrame : Obligations.JoinActsOnTheTopFrame :=
  ⟨fun _ _ _ => opJoin_spec, fun _ _ _ _ _ _ _ => joinComplete_spec⟩

end Sys2Proof.Machine
end

section
/-!
Verdicts, DONE and the ends of children and flights (R161, R163, R208, R209), and O16.
-/

namespace Sys2Proof.Machine
open Sys2Proof Sys2Proof.Terms

variable {d e : Dev} {s : State} {c : Cid} {t : Tid} {f : BitVec 24}

/-! ## DROP and PUNT (R209) -/

/-- A verdict word with ACTION `act` and REASON `r`. -/
def verdict (act r v : Nat) : Nat := act * 2 ^ 14 + v % 2 ^ 14 / 64 * 64 + r

theorem verdict_fields {act r : Nat} (ha : act < 4) (hr : r < 64) (v : Nat) :
    verdict act r v < 2 ^ 16 ∧ verdict act r v / 2 ^ 14 = act ∧ verdict act r v % 64 = r ∧ verdict act r v / 64 % 256 = v / 64 % 256 := by
  unfold verdict
  omega

/-- The verdict words of the listed lanes are rewritten. -/
def verdictsTo (act r c home : Nat) (vs : List (Nat × Nat)) (d : Dev) : Dev :=
  vs.foldl (fun d e => coreWrite d c 1 (mAddr home e.1 0x1E) 2 (verdict act r e.2)) d
/-- The read of the lanes' verdict words. -/
def readVerdicts (c home : Nat) (ls : List Nat) (d : Dev) : List (Nat × Nat) × Met × Dev :=
  readLanes d ls (fun d n => spaceRead d c 1 (mAddr home n 0x1E) 2)

theorem verdictsTo_written {c : Nat} (act r home : Nat) (vs : List (Nat × Nat)) (d : Dev) : Written d (verdictsTo act r c home vs d) :=
  .foldl _ (fun _ _ h => h.coreWrite ..) _ (.refl d)

/-- DROP and PUNT in their fields: the width 0, no operand, D the reason. -/
theorem fa_verdict {r : Nat} (h : r < 64) (g : Bool) : fa (BitVec.ofNat 24 (r + one g * 4 * 2 ^ 16)) = { w := 0, b := 0, s := 4 * one g, d := r } := by
  have hg : one g ≤ 1 := by cases g <;> decide
  have hn : (BitVec.ofNat 24 (r + one g * 4 * 2 ^ 16)).toNat = r + one g * 4 * 2 ^ 16 := by
    rw [BitVec.toNat_ofNat]
    omega
  simp only [fa, hn, FA.mk.injEq]
  omega

theorem verdict_form {r n : Nat} (h : r ≤ n) (g : Bool) : badA (formPlain true 0 n) { w := 0, b := 0, s := 4 * one g, d := r } = false := by
  have hmax : decide (n < r) = false := decide_eq_false (Nat.not_lt.mpr h)
  cases g <;> simp [badA, formPlain, one] <;> exact hmax

theorem exec_verdict (q : Bool) (f : BitVec 24) :
    let x := thr s.dev c t
    let ls := actingLanes x ((fa f).s == 4)
    let op := if q then 0x69 else 0x68
    Machine.exec (if q then .opPunt c t f else .opDrop c t f) s = .next { s with
      dev := settle (issue s.dev c t { word := opWord op f, field := badA (formPlain true 0 (if q then 63 else 60)) (fa f), priv := kernelThread x, lanes := ls }
        (fun d => if (readVerdicts c x.home ls d).2.1 != .ok then metError (readVerdicts c x.home ls d).2.2 c t (opWord op f) (readVerdicts c x.home ls d).2.1
          else (advance (verdictsTo (if q then 2 else 0) (fa f).d c x.home (readVerdicts c x.home ls d).1 (readVerdicts c x.home ls d).2.2) c t, false))) } := by
  cases q <;> rfl

theorem verdict_spec (q : Bool) {r : Nat} (g : Bool) (hr : r ≤ (if q then 63 else 60)) (hfl : OfFlight (thr s.dev c t)) :
    let f := BitVec.ofNat 24 (r + one g * 4 * 2 ^ 16)
    let x := thr s.dev c t
    let w := readLanes (atIssue s.dev c t) (actingLanes x g) (fun d n => spaceRead d c 1 (mAddr x.home n 0x1E) 2)
    Issues s.dev c t → x.pc + 1 < 8192 → w.2.1 = .ok →
    ∃ new : Nat → Nat, (∀ v, new v < 2 ^ 16 ∧ new v / 2 ^ 14 = (if q then 2 else 0) ∧ new v % 64 = r ∧ new v / 64 % 256 = v / 64 % 256) ∧
      let dst := w.1.foldl (fun d e => coreWrite d c 1 (mAddr x.home e.1 0x1E) 2 (new e.2)) w.2.2
      (dst.ras.todo = [] → ∃ u, Machine.exec (if q then .opPunt c t f else .opDrop c t f) s = .next u ∧ SameSram u.dev dst ∧
        ThreadTo s u c t (fun x => { x with pc := x.pc + 1 }) ∧ CoreOnly s u) := by
  intro f x w h hp hok
  have hr64 : r < 64 := by cases q <;> simp at hr <;> omega
  refine ⟨verdict (if q then 2 else 0) r, verdict_fields (by split <;> omega) hr64, fun hcalm => ?_⟩
  have hfa : fa f = { w := 0, b := 0, s := 4 * one g, d := r } := fa_verdict hr64 g
  have hguard : ((fa f).s == 4) = g := by rw [hfa]; cases g <;> rfl
  have hform : badA (formPlain true 0 (if q then 63 else 60)) (fa f) = false := by
    rw [hfa]
    exact verdict_form hr g
  have hread : Quiet (atIssue s.dev c t) w.2.2 := (Quiet.refl _).readLanes (fun _ _ hx => hx.spaceRead ..) _
  have hwritten := (Written.refl _).quiet hread |>.trans (verdictsTo_written (c := c) (if q then 2 else 0) r x.home w.1 w.2.2)
  have hnext : advance (verdictsTo (if q then 2 else 0) r c x.home w.1 w.2.2) c t = _ :=
    hwritten.threadBy.next (fun _ => rfl) (by rw [pc_atIssue]; exact hp)
  have hexec := exec_verdict (s := s) (c := c) (t := t) q f
  dsimp only at hexec
  rw [hguard, show (fa f).d = r by rw [hfa]] at hexec
  have hwork := sameWork_issue_reads
    (i := { word := opWord (if q then 0x69 else 0x68) f, field := badA (formPlain true 0 (if q then 63 else 60)) (fa f), priv := kernelThread x, lanes := actingLanes x g })
    (read := readVerdicts c x.home (actingLanes x g)) (err := fun r => metError r.2.2 c t (opWord (if q then 0x69 else 0x68) f) r.2.1)
    (eff := fun vs d => advance (verdictsTo (if q then 2 else 0) r c x.home vs d) c t) h rfl
    (cause_none rfl hform (not_kernel_of_flight hfl) rfl rfl rfl) hok ((congrArg (fun d => d.ras.todo) hnext).trans hcalm)
  have hwork' := hnext ▸ hwork
  refine ⟨_, hexec, ?_, (hwritten.threadBy.trans (.modThr _ _ _ _)).issued (fun _ _ => rfl) hwork', coreOnly_of (hwritten.coreOnly.modThr _ _ _) hwork'⟩
  rw [SameSram, hwork'.core]
  exact ⟨rfl, rfl⟩

/-! ## DONE, and the ends of children and of flights (R145, R161, R163, R208) -/

section
variable {c t : Nat}

/-- When the raises of a thread are discarded, its locks are reported anew and all else stays. -/
theorem dropRaises_reported (d : Dev) (c t : Nat) : ∃ l, Reported { d with bar := { d.bar with raises := l } } (dropRaises d c t) :=
  ⟨_, reported_watchLocks _⟩
theorem dropRaises_kept (d : Dev) (c t : Nat) : ∃ l, WorkKept { d with bar := { d.bar with raises := l } } (dropRaises d c t) :=
  ⟨_, (WorkKept.refl _).watchLocks⟩
theorem thr_dropRaises (d : Dev) (c t c' t' : Nat) : thr (dropRaises d c t) c' t' = thr d c' t' := by
  obtain ⟨l, h⟩ := dropRaises_kept d c t
  exact h.thr c' t'
theorem ras_dropRaises (d : Dev) (c t : Nat) : (dropRaises d c t).ras = d.ras := by
  obtain ⟨l, h⟩ := dropRaises_kept d c t
  exact h.ras

end

theorem exec_opDone (f : BitVec 24) : Machine.exec (.opDone c t f) s = .next { s with
    dev := settle (jumpOp 0x64 (f.toNat != 0) (kernelThread (thr s.dev c t)) noStack s.dev c t f (fun d => endAsDone (dropRaises d c t) c t)) } := rfl

theorem opDone_spec (h : Free s.dev c t) (hfl : OfFlight (thr s.dev c t)) :
    ∃ u, Machine.exec (.opDone c t 0) s = .next u ∧ ThreadTo s u c t (fun x => { x with wait := .done }) ∧ CoreAndReports s u := by
  have hwork := sameWork_jumpOp (op := 0x64) (bad := (0 : BitVec 24).toNat != 0) (priv := kernelThread (thr s.dev c t)) (stack := noStack) (f := 0)
    (eff := fun d => endAsDone (dropRaises d c t) c t) h rfl (not_kernel_of_flight hfl) rfl ((congrArg Ras.todo (ras_dropRaises ..)).trans h.calm)
  have hissue := coreOnly_atIssue s.dev c t
  obtain ⟨l, hrep⟩ := dropRaises_reported (atIssue s.dev c t) c t
  have hdrop : ThreadBy c t id (atIssue s.dev c t) (dropRaises (atIssue s.dev c t) c t) := fun c' t' => by
    rw [thr_dropRaises]
    exact (ThreadBy.of_threads rfl) c' t'
  refine ⟨_, exec_opDone 0, (hdrop.trans (.modThr _ _ _ _)).issued (fun _ _ => rfl) hwork,
    (dropRaises (atIssue s.dev c t) c t).lku, ⟨rfl, rfl, ?_⟩, hrep.waiters.trans (congrArg _ hissue.lku), hrep.table.trans (congrArg _ (congrArg _ hissue.lku))⟩
  have hcore : CoreOnlyDev { atIssue s.dev c t with lku := (dropRaises (atIssue s.dev c t) c t).lku } (dropRaises (atIssue s.dev c t) c t) :=
    CoreOnlyDev.trans ⟨_, _, _, _, _, _, _, _, _, rfl⟩ hrep.coreOnly
  exact (((hissue.setLku _).trans hcore).modThr _ _ _).work hwork

section
variable {c t : Nat}

/-- A flight thread becomes free. -/
theorem freeThread_eq (h : kernelRole d c t = false) :
    freeThread d c t = setStall (modThr d c t (fun x => { issued := x.issued })) c t .none := if_neg (by
  rw [show kernelRole (setStall (modThr d c t (fun x => { issued := x.issued })) c t .none) c t = false from h, Bool.false_and]
  exact Bool.false_ne_true)

/-- The frames of the parent of child `t`, when it ends with the lanes of `x`. -/
def ended (x : Thread) (t : Nat) (r : RFrame) : RFrame :=
  match r with
  | .child k true m _ => if k == t then .child k false x.act ((activeLanes x).map (fun n => (n, lctx x n))) else .child k true m []
  | r => r

theorem endChild_eq (d : Dev) (c t p : Nat) : endChild d c t p =
    freeThread (dropRaises (modThr d c p (fun y => { y with rstack := y.rstack.map (ended (thr d c t) t) })) c t) c t := rfl

theorem endChild_spec {p : Nat} (hp : p ≠ t) (h : kernelRole d c t = false) :
    (endChild d c t p).ras = d.ras ∧ thr (endChild d c t p) c t = { issued := (thr d c t).issued } ∧
      (thr (endChild d c t p) c p).rstack = (thr d c p).rstack.map (ended (thr d c t) t) := by
  obtain ⟨d1, heq, hras, hthr, hrole⟩ : ∃ d1, endChild d c t p = freeThread d1 c t ∧ d1.ras = d.ras ∧
      (∀ c' t', thr d1 c' t' = thr (modThr d c p (fun y => { y with rstack := y.rstack.map (ended (thr d c t) t) })) c' t') ∧ kernelRole d1 c t = kernelRole d c t := by
    refine ⟨_, endChild_eq d c t p, ras_dropRaises .., thr_dropRaises _ c t, ?_⟩
    obtain ⟨l, ⟨_, _, _, _, _, hs⟩, -, -⟩ := dropRaises_reported (modThr d c p (fun y => { y with rstack := y.rstack.map (ended (thr d c t) t) })) c t
    rw [hs]
    rfl
  have hfree (c' t' : Nat) : thr (endChild d c t p) c' t' = thr (modThr d1 c t (fun x => { issued := x.issued })) c' t' := by
    rw [heq, freeThread_eq (hrole.trans h)]
    rfl
  refine ⟨?_, ?_, ?_⟩
  · rw [heq, freeThread_eq (hrole.trans h)]
    exact hras
  · rw [hfree, thr_modThr_same, hthr, thr_modThr, if_neg (by omega)]
  · rw [hfree, thr_modThr, if_neg (by omega), hthr, thr_modThr_same]

end

theorem doneComplete_child {p : Nat} (h : Calm s.dev) (hend : mayEnd s.dev c t = true) (hpar : (thr s.dev c t).parent = some p) (hp : p ≠ t.val)
    (hrole : kernelRole s.dev c t = false) :
    let x := thr s.dev c t
    ∃ u, Machine.exec (.doneComplete c t) s = .next u ∧ u.mem = s.mem ∧ thr u.dev c t = { issued := x.issued } ∧
      (∀ m g l, (thr s.dev c p).rstack = .child t true m g :: l → ∃ l', (thr u.dev c p).rstack =
        .child t false x.act ((activeLanes x).map (fun n => (n, lctx x n))) :: l') := by
  intro x
  have hexec : Machine.exec (.doneComplete c t) s = .next { s with dev := settle (endChild s.dev c t p) } := by
    change Host.Outcome.next { s with dev := settle _ } = _
    simp only [hend, hpar]
    rfl
  obtain ⟨hras, hchild, hframes⟩ := endChild_spec hp hrole
  have hwork := sameWork_settle ((congrArg Ras.todo hras).trans h.1)
  refine ⟨_, hexec, rfl, (hwork.thr ..).trans hchild, fun m g l hl => ⟨l.map (ended x t), ?_⟩⟩
  rw [hwork.thr, hframes, hl, List.map_cons]
  exact congrArg (· :: l.map (ended x t)) (if_pos (beq_self_eq_true t.val))

theorem doneComplete_root {fl : Flight} (hend : mayEnd s.dev c t = true) (hpar : (thr s.dev c t).parent = none)
    (hfl : (thr s.dev c t).flight.bind (flightById s.dev) = some fl) :
    Machine.exec (.doneComplete c t) s = .next { s with dev := settle (finishFlight s.dev c t fl) } := by
  change Host.Outcome.next { s with dev := settle _ } = _
  simp only [hend, hpar, hfl]
  rfl

/-- Settles O16: the verdict words, DONE, and the two ways in which a thread ends. -/
theorem verdictsAndTheEndOfAFlight : Obligations.VerdictsAndTheEndOfAFlight :=
  ⟨fun q _ _ _ _ g hr hfl => verdict_spec q g hr hfl, fun _ _ _ => opDone_spec, fun _ _ _ _ h hend hpar hp _ => doneComplete_child h hend hpar hp,
    fun _ _ _ _ => doneComplete_root⟩

end Sys2Proof.Machine
end

section
/-!
System instructions, the thread that issues, FENCE, and causes that trap before any effect (R127, R157, R170 to R176, R188 to R191, R210),
and O17, O18 and O19.
-/

namespace Sys2Proof.Machine
open Sys2Proof Sys2Proof.Terms

variable {d e : Dev} {s : State} {c : Cid} {t : Tid} {f : BitVec 24}

/-! ## TRAP, RETT and unassigned opcodes (R170, R210) -/

theorem exec_opTrap (f : BitVec 24) : Machine.exec (.opTrap c t f) s = .next { s with
    dev := settle (issue s.dev c t { word := opWord 0x70 f, field := badA (formPlain false 0 15) (fa f), perLane := false }
      (fun d => (trap d c t (16 + (fa f).d) (opWord 0x70 f) (thr s.dev c t).act, true))) } := rfl

theorem opTrap_spec (h : Free s.dev c t) (hf : f.toNat < 16) (hin : (thr s.dev c t).inTrap = false) :
    ∃ u, Machine.exec (.opTrap c t f) s = .next u ∧ ThreadTo s u c t (fun x =>
      { x with tpc := x.pc, tcause := 16 + f.toNat, tinfo := opWord 0x70 f, tlanes := x.act, inTrap := true, pc := 16 + f.toNat }) ∧ CoreOnly s u := by
  obtain ⟨n, hn⟩ := thr_atIssue_self s.dev c t
  have hd : (fa f).d = f.toNat := by rw [fa_of_small (by omega)]
  obtain ⟨hcore, hthr, hras⟩ := trap_spec (d := atIssue s.dev c t) (c := c) (t := t) (cause := 16 + (fa f).d) (lanes := (thr s.dev c t).act) (info := opWord 0x70 f)
    (by rw [hn]; exact hin)
  have hwork := sameWork_issue (i := { word := opWord 0x70 f, field := badA (formPlain false 0 15) (fa f), perLane := false })
    (eff := fun d => (trap d c t (16 + (fa f).d) (opWord 0x70 f) (thr s.dev c t).act, true)) h.issues rfl
    (cause_none rfl (badA_plain (by omega) (by omega)) rfl rfl rfl rfl) rfl ((congrArg Ras.todo hras).trans h.calm)
  refine ⟨_, exec_opTrap f, ?_, coreOnly_of hcore hwork⟩
  rw [hd] at hthr hwork
  have hto := hthr.issued (fun _ _ => rfl) hwork
  exact hd ▸ hto.congr rfl

theorem exec_opRett (f : BitVec 24) : Machine.exec (.opRett c t f) s = .next { s with
    dev := settle (issue s.dev c t { word := opWord 0x71 f, illegal := !(thr s.dev c t).inTrap, field := badA (formPlain false 0 1) (fa f), perLane := false }
      (fun d => (setPc (modThr d c t (fun x => { x with inTrap := false })) c t (((thr s.dev c t).tpc + (fa f).d) % 2 ^ 14), false))) } := rfl

theorem opRett_spec (h : Free s.dev c t) (hf : f.toNat < 2) (hin : (thr s.dev c t).inTrap = true) (hp : (thr s.dev c t).tpc + f.toNat < 8192) :
    ∃ u, Machine.exec (.opRett c t f) s = .next u ∧ ThreadTo s u c t (fun x => { x with inTrap := false, pc := x.tpc + f.toNat }) ∧ CoreOnly s u := by
  have htarget : ((thr s.dev c t).tpc + (fa f).d) % 2 ^ 14 = (thr s.dev c t).tpc + f.toNat := by
    rw [fa_of_small (by omega)]
    dsimp only
    omega
  have hexec := exec_opRett (s := s) (c := c) (t := t) f
  simp only [htarget, setPc_eq _ _ _ _ hp] at hexec
  have hwork := sameWork_issue (i := { word := opWord 0x71 f, illegal := !(thr s.dev c t).inTrap, field := badA (formPlain false 0 1) (fa f), perLane := false })
    (eff := fun d => (modThr (modThr d c t (fun x => { x with inTrap := false })) c t (fun x => { x with pc := (thr s.dev c t).tpc + f.toNat }), false))
    h.issues rfl (cause_none (by rw [hin]; rfl) (badA_plain (by omega) (by omega)) rfl rfl rfl rfl) rfl h.calm
  exact ⟨_, hexec, (((ThreadBy.modThr _ c t (fun x => { x with inTrap := false })).trans
    (.modThr _ c t (fun x => { x with pc := (thr s.dev c t).tpc + f.toNat }))).issued (fun _ _ => rfl) hwork).congr rfl,
    coreOnly_of (((CoreOnlyDev.refl _).modThr _ _ _).modThr _ _ _) hwork⟩

theorem illegalOp_spec {w : W32} (h : Free s.dev c t) (hin : (thr s.dev c t).inTrap = false) (hw : assigned (w.toNat / 2 ^ 24) = false) :
    ∃ u, Machine.exec (.illegalOp c t w) s = .next u ∧ CoreOnly s u ∧ ThreadTo s u c t (trapped 1 w (thr s.dev c t).act) := by
  have hexec : Machine.exec (.illegalOp c t w) s = .next { s with
      dev := settle (issue s.dev c t { word := w, illegal := true, perLane := false } (fun d => (d, true))) } := by
    change Host.Outcome.next { s with dev := settle (if assigned (w.toNat / 2 ^ 24) then _ else _) } = _
    rw [hw]
    rfl
  exact ⟨_, hexec, traps_spec c t h hin rfl rfl⟩

/-! ## Control registers (R176) -/

theorem took_resultZN (v : Nat) (l : LaneCtx) : Took 64 v l.c false l (resultZN 64 v l) := by
  have hz : (v % 2 ^ 64 == 0) = decide (v % 2 ^ 64 = 0) := rfl
  have hn : v.testBit 63 = top 64 v := by
    rw [Nat.testBit_eq_decide_div_mod_eq, top]
    exact decide_eq_decide.mpr (by omega)
  simp only [Took, resultZN, putA, flagsZN, setZN, hz, ← hn]

/-- The state in which CSRR has read register `n`: of a kernel thread those of a flight are free values. -/
def csrDrawn (c t n : Nat) (d : Dev) : Dev := if 7 ≤ n && (thr d c t).flight.isNone then useFree d else d

theorem exec_opCsrr (f : BitVec 24) : Machine.exec (.opCsrr c t f) s = .next { s with
    dev := settle (threadOp 0x72 (formPlain false 0 8) false true noStack s.dev c t f
      (fun a ls d => nextOnLanes c t ls (fun _ => resultZN 64 (csrRead d c t a.d)) (csrDrawn c t a.d d))) } := rfl

theorem opCsrr_spec (h : Free s.dev c t) (hf : f.toNat < 9) :
    ∃ u, Machine.exec (.opCsrr c t f) s = .next u ∧ u.mem = s.mem ∧
      (∀ n ∈ activeLanes (thr s.dev c t), Took 64 (csrRead (atIssue s.dev c t) c t f.toNat) (lctx (thr s.dev c t) n).c false
        (lctx (thr s.dev c t) n) (lctx (thr u.dev c t) n)) ∧
      (∀ n, n ∉ activeLanes (thr s.dev c t) → lctx (thr u.dev c t) n = lctx (thr s.dev c t) n) ∧
      ThreadTo s u c t (fun x => { x with pc := x.pc + 1, lanes := (thr u.dev c t).lanes }) := by
  have hfa : fa f = { w := 0, b := 0, s := 0, d := f.toNat } := fa_of_small (by omega)
  have hls : actingLanes (thr s.dev c t) ((fa f).s == 4) = activeLanes (thr s.dev c t) := by
    rw [hfa]
    exact List.filter_eq_self.mpr fun _ _ => rfl
  obtain ⟨hras, hthr⟩ : (csrDrawn c t (fa f).d (atIssue s.dev c t)).ras = (atIssue s.dev c t).ras ∧
      ThreadBy c t id (atIssue s.dev c t) (csrDrawn c t (fa f).d (atIssue s.dev c t)) := by
    unfold csrDrawn
    split
    · exact ⟨rfl, .of_threads rfl⟩
    · exact ⟨rfl, .of_threads rfl⟩
  obtain ⟨hras', -, -⟩ := nextOnLanes_spec (d := csrDrawn c t (fa f).d (atIssue s.dev c t)) (c := c) (t := t) (activeLanes (thr s.dev c t))
    (fun _ => resultZN 64 (csrRead (atIssue s.dev c t) c t (fa f).d)) (by rw [hthr.self]; exact (congrArg (· + 1 < 8192) (pc_atIssue s.dev c t)).mpr h.next)
  have hwork := sameWork_threadOp (op := 0x72) (m := formPlain false 0 8) (priv := false) (perLane := true) (stack := noStack) (f := f)
    (eff := fun a ls d => nextOnLanes c t ls (fun _ => resultZN 64 (csrRead d c t a.d)) (csrDrawn c t a.d d)) h (badA_plain (by omega) (by omega)) rfl rfl
    (by rw [hls]; exact (congrArg Ras.todo (hras'.trans hras)).trans h.calm)
  rw [hls] at hwork
  obtain ⟨hl, hto⟩ := nextOnLanes_issued (nodup_activeLanes _) h.next hthr hwork
  refine ⟨_, exec_opCsrr f, rfl, fun n hn => ?_, fun n hn => (hl n).trans (if_neg hn), hto⟩
  rw [hl n, if_pos hn, hfa]
  exact took_resultZN ..

/-- The thread that writes register `n`. -/
def csrWritten (n : Nat) (x : Thread) : Thread :=
  let v := (lctx x 0).a.toNat
  if n = 0 then { x with inTrap := v.testBit 0 } else if n = 1 then { x with tpc := v % 2 ^ 14 } else x
/-- The write of register `n`. -/
def csrWrite (c t n : Nat) (d : Dev) : Dev :=
  let v := (lctx (thr d c t) 0).a
  match n with
  | 0 => modThr d c t (fun x => { x with inTrap := v.toNat.testBit 0 })
  | 1 => modThr d c t (fun x => { x with tpc := v.toNat % 2 ^ 14 })
  | _ => d

theorem exec_opCsrw (f : BitVec 24) : Machine.exec (.opCsrw c t f) s = .next { s with
    dev := settle (threadOp 0x73 (formPlain false 0 8) (!kernelThread (thr s.dev c t)) false noStack s.dev c t f (fun a _ d => advance (csrWrite c t a.d d) c t)) } := rfl

theorem ThreadBy.congr {c t : Nat} {g k : Thread → Thread} (h : ThreadBy c t g d e) (hg : g (thr d c t) = k (thr d c t)) : ThreadBy c t k d e := fun c' t' => by
  rw [h, hg]

theorem csrWrite_spec {c t : Nat} (n : Nat) (d : Dev) : (csrWrite c t n d).ras = d.ras ∧ CoreOnlyDev d (csrWrite c t n d) ∧
    ThreadBy c t (csrWritten n) d (csrWrite c t n d) := by
  match n with
  | 0 => exact ⟨rfl, (CoreOnlyDev.refl d).modThr _ _ _, ThreadBy.congr (.modThr _ _ _ _) rfl⟩
  | 1 => exact ⟨rfl, (CoreOnlyDev.refl d).modThr _ _ _, ThreadBy.congr (.modThr _ _ _ _) rfl⟩
  | n + 2 => exact ⟨rfl, .refl d, ThreadBy.of_threads rfl⟩

theorem csrWritten_pc (n : Nat) (x : Thread) : (csrWritten n x).pc = x.pc := by
  unfold csrWritten
  split_ifs <;> rfl
theorem csrWritten_issued (n m : Nat) (x : Thread) : csrWritten n { x with issued := m } = { csrWritten n x with issued := m } := by
  unfold csrWritten
  split_ifs <;> rfl

theorem opCsrw_spec (h : Free s.dev c t) (hf : f.toNat < 9) (hk : OfKernel (thr s.dev c t)) :
    ∃ u, Machine.exec (.opCsrw c t f) s = .next u ∧ ThreadTo s u c t (fun x =>
      let v := (lctx x 0).a.toNat
      if f.toNat = 0 then { x with inTrap := v.testBit 0, pc := x.pc + 1 }
      else if f.toNat = 1 then { x with tpc := v % 2 ^ 14, pc := x.pc + 1 }
      else { x with pc := x.pc + 1 }) ∧ CoreOnly s u := by
  have hd : (fa f).d = f.toNat := by rw [fa_of_small (by omega)]
  obtain ⟨hras, hcore, hthr⟩ := csrWrite_spec (c := c) (t := t) (fa f).d (atIssue s.dev c t)
  have hnext : advance (csrWrite c t (fa f).d (atIssue s.dev c t)) c t = _ :=
    hthr.next (csrWritten_pc _) (by rw [pc_atIssue]; exact h.next)
  have hwork := sameWork_threadOp (op := 0x73) (m := formPlain false 0 8) (priv := !kernelThread (thr s.dev c t)) (perLane := false) (stack := noStack) (f := f)
    (eff := fun a _ d => advance (csrWrite c t a.d d) c t) h (badA_plain (by omega) (by omega)) (by rw [kernelThread_of hk]; rfl) rfl
    ((congrArg (fun d => d.ras.todo) hnext).trans ((congrArg Ras.todo hras).trans h.calm))
  rw [hnext] at hwork
  refine ⟨_, exec_opCsrw f, ((hthr.trans (.modThr _ _ _ _)).issued (fun x n => ?_) hwork).congr ?_, coreOnly_of (hcore.modThr _ _ _) hwork⟩
  · simp only [Function.comp_apply, csrWritten_issued]
  · simp only [Function.comp_apply, csrWritten, hd]
    split_ifs <;> rfl

/-- Settles O17: TRAP and an unassigned opcode by the trap entry, RETT by the PC it sets, CSRR and CSRW by the register they name. -/
theorem systemInstructions : Obligations.SystemInstructions :=
  ⟨fun _ _ _ _ h ⟨hf, hin⟩ => opTrap_spec h hf hin, fun _ _ _ _ h ⟨hf, hin, hp⟩ => opRett_spec h hf hin hp,
    fun _ _ _ _ h hin hw => illegalOp_spec h hin hw, fun _ _ _ _ => opCsrr_spec, fun _ _ _ _ h ⟨hf, hk⟩ => opCsrw_spec h hf hk⟩

/-! ## The thread that issues (R127, R157) -/

/-- Thread `b` issues no later than thread `a` where both are ready. -/
def NotAfter (d : Dev) (c b a : Nat) : Prop :=
  issueRank d c a ≤ issueRank d c b ∧ (issueRank d c a = issueRank d c b → (thr d c b).issued ≤ (thr d c a).issued)

section
variable {c : Nat}

theorem NotAfter.refl (d : Dev) (c a : Nat) : NotAfter d c a a := ⟨le_refl _, fun _ => le_refl _⟩
theorem NotAfter.trans {a b k : Nat} (h : NotAfter d c a b) (g : NotAfter d c b k) : NotAfter d c a k := by
  obtain ⟨h1, h2⟩ := h
  obtain ⟨g1, g2⟩ := g
  exact ⟨g1.trans h1, fun heq => (h2 (by omega)).trans (g2 (by omega))⟩
/-- Of two threads the one taken issues no later than either. -/
theorem notAfter_taken (d : Dev) (c m b : Nat) :
    NotAfter d c (if issuesBefore d c b m then b else m) m ∧ NotAfter d c (if issuesBefore d c b m then b else m) b := by
  unfold issuesBefore
  split
  next h =>
    refine ⟨?_, .refl ..⟩
    simp only [Bool.or_eq_true, decide_eq_true_eq, Bool.and_eq_true, beq_iff_eq] at h
    unfold NotAfter
    omega
  next h =>
    refine ⟨.refl .., ?_⟩
    simp only [Bool.or_eq_true, decide_eq_true_eq, Bool.and_eq_true, beq_iff_eq] at h
    unfold NotAfter
    omega

theorem notAfter_foldl (d : Dev) (c : Nat) (l : List Nat) (m : Nat) :
    let r := l.foldl (fun m b => if issuesBefore d c b m then b else m) m
    r ∈ m :: l ∧ ∀ k ∈ m :: l, NotAfter d c r k := by
  induction l generalizing m with
  | nil => exact ⟨List.mem_singleton_self m, fun k hk => by rw [List.mem_singleton.mp hk]; exact .refl ..⟩
  | cons b l ih =>
    obtain ⟨hmem, hall⟩ := ih (if issuesBefore d c b m then b else m)
    obtain ⟨hm, hb⟩ := notAfter_taken d c m b
    have hfirst := hall _ (List.mem_cons_self ..)
    refine ⟨?_, fun k hk => ?_⟩
    · rcases List.mem_cons.mp hmem with heq | hmem
      · rw [List.foldl_cons, heq]
        split <;> simp
      · exact List.mem_cons_of_mem _ (List.mem_cons_of_mem _ hmem)
    · rcases List.mem_cons.mp hk with rfl | hk
      · exact hfirst.trans hm
      rcases List.mem_cons.mp hk with rfl | hk
      · exact hfirst.trans hb
      · exact hall k (List.mem_cons_of_mem _ hk)

theorem nextThread_spec {t : Nat} (h : nextThread d c = some t) : t < 8 ∧ threadReady d c t = true ∧ ∀ k < 8, threadReady d c k = true → NotAfter d c t k := by
  have hready {k : Nat} : k ∈ readyThreads d c ↔ k < 8 ∧ threadReady d c k = true := by rw [readyThreads, List.mem_filter, List.mem_range]
  unfold nextThread at h
  generalize readyThreads d c = l at h hready
  match l with
  | [] => exact nomatch h
  | a :: l =>
    obtain ⟨hmem, hall⟩ := notAfter_foldl d c l a
    rw [Option.some.inj h] at hmem hall
    exact ⟨(hready.mp hmem).1, (hready.mp hmem).2, fun k hk hkr => hall k (hready.mpr ⟨hk, hkr⟩)⟩

/-! ## An offer that comes to nothing -/

theorem sameWork_perfN (d : Dev) (c off n : Nat) : SameWork d (perfN d c off n) := .ite _ ((SameWork.refl d).bump _ _) (.refl d)
theorem sameWork_lostCycles (d : Dev) (c n : Nat) : SameWork d (lostCycles d c n) := by
  have hcount : SameWork d (perfN (perfN d c 0 n) c 0x18 n) := (sameWork_perfN ..).trans (sameWork_perfN ..)
  unfold lostCycles
  dsimp only
  split
  · exact hcount.trans (sameWork_perfN ..)
  · split
    · exact (hcount.trans (sameWork_perfN ..)).pmc ..
    · exact (hcount.trans (sameWork_perfN ..)).pmc ..
    · exact (hcount.trans (sameWork_perfN ..)).pmc ..
    · exact hcount.trans (sameWork_perfN ..)

theorem offered_kept (d : Dev) (c : Nat) : (offered d c).core.threads = d.core.threads ∧ (offered d c).ras = d.ras := by
  have hlost := sameWork_lostCycles d c 1
  unfold offered
  split
  · exact ⟨(congrArg Cores.threads hlost.core :), hlost.ras⟩
  · exact ⟨rfl, rfl⟩

end

/-- An instruction offered by a thread from which the core does not issue. -/
theorem issue_offered (i : Issue) (eff : Dev → Dev × Bool) (h : nextThread d c ≠ some t.val) : issue d c t i eff = d ∨ issue d c t i eff = offered d c := by
  unfold issue
  dsimp only
  split
  · exact .inl rfl
  · exact .inr (if_pos (by simpa using h))

theorem opNop_offered (h : Calm s.dev) (hne : nextThread s.dev c ≠ some t.val) :
    ∃ u, Machine.exec (.opNop c t f) s = .next u ∧ u.mem = s.mem ∧ u.dev.core.threads = s.dev.core.threads := by
  refine ⟨_, rfl, rfl, ?_⟩
  have hkept (e : Dev) (he : e = s.dev ∨ e = offered s.dev c) : e.core.threads = s.dev.core.threads ∧ e.ras = s.dev.ras := by
    rcases he with rfl | rfl
    · exact ⟨rfl, rfl⟩
    · exact offered_kept ..
  obtain ⟨hthr, hras⟩ := hkept _ (issue_offered _ _ hne)
  have hwork := sameWork_settle ((congrArg Ras.todo hras).trans h.1)
  exact (congrArg Cores.threads hwork.core).trans hthr

/-! ## FENCE, and the ends of waits (R191) -/

/-- The effect of FENCE. -/
def fenced (c t : Nat) (d : Dev) : Dev :=
  if outstanding (advance d c t) c t then modThr (advance d c t) c t (fun x => { x with wait := .fence }) else advance d c t

theorem exec_opFence (f : BitVec 24) : Machine.exec (.opFence c t f) s = .next { s with
    dev := settle (threadOp 0x74 (formPlain false 0 0) false false noStack s.dev c t f (fun _ _ => fenced c t)) } := rfl

theorem CoreOnlyDev.outstanding (h : CoreOnlyDev d e) (c t : Nat) : outstanding e c t = outstanding d c t := by
  obtain ⟨_, _, _, _, _, _, _, _, _, rfl⟩ := h
  rfl

theorem opFence_spec (h : Free s.dev c t) :
    ∃ u, Machine.exec (.opFence c t 0) s = .next u ∧ CoreOnly s u ∧
      ThreadTo s u c t (fun x => { x with pc := x.pc + 1, wait := if outstanding s.dev c t then .fence else x.wait }) := by
  let e := atIssue s.dev c t
  have hnext : advance e c t = _ := (ThreadBy.of_threads rfl).next (fun _ => rfl) (by rw [pc_atIssue]; exact h.next)
  have hthr := ThreadBy.modThr e c t (fun x => { x with pc := x.pc + 1 })
  have hcore : CoreOnlyDev e (modThr e c t (fun x => { x with pc := x.pc + 1 })) := (CoreOnlyDev.refl e).modThr _ _ _
  have hout : outstanding (advance e c t) c t = outstanding s.dev c t := by
    rw [hnext]
    exact ((coreOnly_atIssue s.dev c t).trans hcore).outstanding c t
  obtain ⟨hras, hfenced, hwait⟩ : (fenced c t e).ras = e.ras ∧ CoreOnlyDev e (fenced c t e) ∧
      ThreadBy c t (fun x => { x with pc := x.pc + 1, wait := if outstanding s.dev c t then .fence else x.wait }) e (fenced c t e) := by
    rw [fenced, hout, hnext]
    split
    next => exact ⟨rfl, hcore.modThr _ _ _, hthr.trans (.modThr _ _ _ _)⟩
    next => exact ⟨rfl, hcore, hthr⟩
  have hwork := sameWork_threadOp (op := 0x74) (m := formPlain false 0 0) (priv := false) (perLane := false) (stack := noStack) (f := 0)
    (eff := fun _ _ => fenced c t) h (badA_plain (n := 0) (by decide) (by omega)) rfl rfl ((congrArg Ras.todo hras).trans h.calm)
  exact ⟨_, exec_opFence 0, coreOnly_of hfenced hwork, hwait.issued (fun _ _ => rfl) hwork⟩

/-- A thread whose wait ends. -/
theorem waitEnds (s : State) (c : Cid) (t : Tid) :
    thr (modThr s.dev c t (fun x => { x with wait := .none })) c t = { thr s.dev c t with wait := .none } ∧
      CoreOnly s { s with dev := modThr s.dev c t (fun x => { x with wait := .none }) } :=
  ⟨thr_modThr_same .., rfl, rfl, (CoreOnlyDev.refl s.dev).modThr _ _ _⟩

theorem exec_fenceDone : Machine.exec (.fenceDone c t) s = .next { s with
    dev := if (thr s.dev c t).wait == .fence && !outstanding s.dev c t then modThr s.dev c t (fun x => { x with wait := .none }) else s.dev } := rfl
theorem exec_divisionReady : Machine.exec (.divisionReady c t) s = .next { s with
    dev := if (thr s.dev c t).wait == .div then modThr s.dev c t (fun x => { x with wait := .none }) else s.dev } := rfl

theorem fenceDone_spec (hw : (thr s.dev c t).wait = .fence) (ho : outstanding s.dev c t = false) :
    ∃ u, Machine.exec (.fenceDone c t) s = .next u ∧ thr u.dev c t = { thr s.dev c t with wait := .none } ∧ CoreOnly s u := by
  rw [exec_fenceDone, if_pos (by rw [hw, ho]; rfl)]
  exact ⟨_, rfl, waitEnds s c t⟩
theorem divisionReady_spec (hw : (thr s.dev c t).wait = .div) :
    ∃ u, Machine.exec (.divisionReady c t) s = .next u ∧ thr u.dev c t = { thr s.dev c t with wait := .none } ∧ CoreOnly s u := by
  rw [exec_divisionReady, if_pos (by rw [hw]; rfl)]
  exact ⟨_, rfl, waitEnds s c t⟩

/-- Settles O18: the thread that issues is the last of the fold's choices, an offer from another counts at most a lost cycle, and the
waits of FENCE and of a division end. -/
theorem fenceAndDivisionWaits : Obligations.FenceAndDivisionWaits :=
  ⟨fun _ _ _ => nextThread_spec, fun _ _ _ _ => opNop_offered, fun _ _ _ => opFence_spec, fun _ _ _ => fenceDone_spec, fun _ _ _ => divisionReady_spec⟩

end Sys2Proof.Machine
end

section
namespace Sys2Proof.Machine
open Sys2Proof Sys2Proof.Terms

variable {d e : Dev} {s : State} {c : Cid} {t : Tid} {f : BitVec 24}

/-! ## Causes before any effect (R170, R190) -/

/-- An instruction of the lane operations on the operand of every base. -/
def IsLaneOp (mk : Cid → Tid → BitVec 24 → Instr) (op : Nat) : Prop :=
  ∀ (s : State) (c : Cid) (t : Tid) (f : BitVec 24), ∃ fn after, Machine.exec (mk c t f) s = .next { s with dev := settle (laneOp op formOp s.dev c t f fn after) }

theorem isLaneOp_opShl : IsLaneOp .opShl 0x2C := fun _ _ _ _ => ⟨fun w v l => resultShift w (shlW w (lowA w l) (v % 256)) l, id, rfl⟩

theorem isLaneOp {mk : Cid → Tid → BitVec 24 → Instr} {op : Nat} (h : (mk, op) ∈ [(Instr.opLd, 0x01), (Instr.opAdd, 0x10), (Instr.opSub, 0x12), (Instr.opMul, 0x1B),
    (Instr.opDiv, 0x1E), (Instr.opAnd, 0x28), (Instr.opShl, 0x2C), (Instr.opCadd, 0x40)]) : IsLaneOp mk op := by
  simp only [List.mem_cons, Prod.mk.injEq, List.not_mem_nil, or_false] at h
  rcases h with ⟨rfl, rfl⟩ | ⟨rfl, rfl⟩ | ⟨rfl, rfl⟩ | ⟨rfl, rfl⟩ | ⟨rfl, rfl⟩ | ⟨rfl, rfl⟩ | ⟨rfl, rfl⟩ | ⟨rfl, rfl⟩
  case inr.inr.inr.inr.inr.inr.inl => exact isLaneOp_opShl
  all_goals exact fun _ _ _ _ => ⟨_, _, rfl⟩

/-- The causes of an instruction with operands, in the order of R190. -/
theorem cause_operand (i : Issue) (hill : i.illegal = false) (hpriv : i.priv = false) :
    (i.field = true → i.cause = some 3) ∧ (∀ k, i.field = false → i.stack = some k → i.cause = some k) ∧
      (i.field = false → i.stack = none → i.window ≠ [] → i.cause = some 8) := by
  refine ⟨fun hf => ?_, fun k hf hs => ?_, fun hf hs hw => ?_⟩
  · simp [Issue.cause, Issue.early, hill, hf]
  · simp [Issue.cause, Issue.early, hill, hpriv, hf, hs]
  · simp [Issue.cause, Issue.early, hill, hpriv, hf, hs, hw]

/-- What an instruction of the lane operations finds at its issue. -/
def laneIssue (op : Nat) (d : Dev) (c t : Nat) (f : BitVec 24) : Issue :=
  let x := thr d c t
  let ls := actingLanes x ((fa f).s == 4)
  { word := opWord op f, field := badA formOp (fa f), stack := stackUnder x (fa f), window := ls.filter (outside x (fa f))
    stall := stallOn d c x (fa f) ls, lanes := ls }

/-- Its effect. -/
def laneEffect (op : Nat) (c t : Nat) (f : BitVec 24) (ls : List Nat) (fn : Nat → Nat → LaneCtx → LaneCtx) (after : Dev → Dev) (d : Dev) : Dev × Bool :=
  let r := readLanes d ls (fun d n => readOperand d c t (fa f) n)
  if r.2.1 != .ok then metError r.2.2 c t (opWord op f) r.2.1
  else (advance (after (r.1.foldl (fun d v => modCtx d c t v.1 (fn (fa f).width v.2)) r.2.2)) c t, false)

theorem laneOp_issue (op : Nat) (fn : Nat → Nat → LaneCtx → LaneCtx) (after : Dev → Dev) (d : Dev) (c t : Nat) (f : BitVec 24) :
    laneOp op formOp d c t f fn after =
      issue d c t (laneIssue op d c t f) (laneEffect op c t f (actingLanes (thr d c t) ((fa f).s == 4)) fn after) := rfl

theorem laneOp_traps {op v lanes : Nat} {fn : Nat → Nat → LaneCtx → LaneCtx} {after : Dev → Dev} (h : Free s.dev c t) (hin : (thr s.dev c t).inTrap = false)
    (hc : (laneIssue op s.dev c t f).cause = some v)
    (hl : lanes = if v == 8 then ofBits (laneIssue op s.dev c t f).window else (thr s.dev c t).act) :
    CoreOnly s { s with dev := settle (laneOp op formOp s.dev c t f fn after) } ∧
      ThreadTo s { s with dev := settle (laneOp op formOp s.dev c t f fn after) } c t (trapped v (opWord op f) lanes) := by
  rw [laneOp_issue]
  exact traps_spec c t h hin hc hl

/-- Settles O19: each form is a lane operation, whose causes the issue judges before its effect. -/
theorem causesTrapBeforeAnyEffect : Obligations.CausesTrapBeforeAnyEffect := by
  intro mk op hmk s c t f h hin x out traps
  obtain ⟨fn, after, hexec⟩ := isLaneOp hmk s c t f
  obtain ⟨hfield, hstack, hwindow⟩ := cause_operand (laneIssue op s.dev c t f) rfl rfl
  refine ⟨fun hf => ⟨_, hexec, laneOp_traps h hin (hfield hf) rfl⟩, fun hf hb hsp => ⟨_, hexec, laneOp_traps h hin (hstack 7 hf ?_) rfl⟩,
    fun hf hb ho => ⟨_, hexec, laneOp_traps h hin (hwindow hf ?_ ho) rfl⟩⟩
  · exact if_pos (by simp [hb, x, hsp])
  · exact if_neg (by simp [hb])

end Sys2Proof.Machine
end

section
/-!
The issue of helper instructions: refusal, capture and acceptance (R158, R211 to R215), and O20 and O21.
-/

namespace Sys2Proof.Machine
open Sys2Proof Sys2Proof.Terms

variable {d e : Dev} {s : State}

/-! ## The fields of a helper instruction's word (R211) -/

theorem hOp_hWord {op sub : Nat} (hop : op < 256) (hsub : sub < 16) (sel : BitVec 4) (id : BitVec 16) : hOp (hWord op sub sel id) = op := by
  have hs := sel.isLt
  have hi := id.isLt
  rw [hOp, hWord, BitVec.toNat_ofNat]
  omega

/-! ## Captures (R213) -/

/-- Reads of a core memory, of which one that fails may take a free value. -/
def Captured (d e : Dev) : Prop :=
  ∃ r c p i t k a w n, e = { d with regs := r, ctrs := c, pages := p, ic := i, tel := t, ket := k, ras := a, free := n, core := { d.core with sram := w } }

namespace Captured

theorem refl (d : Dev) : Captured d d := ⟨_, _, _, _, _, _, _, _, _, rfl⟩
theorem quiet (h : Captured d e) {x : Dev} (g : Quiet e x) : Captured d x := by
  obtain ⟨_, _, _, _, _, _, _, _, n, rfl⟩ := h
  obtain ⟨r, c, p, i, t, k, a, w, rfl⟩ := g
  exact ⟨r, c, p, i, t, k, a, w, n, rfl⟩
theorem useFree (h : Captured d e) : Captured d (useFree e) := by
  obtain ⟨r, c, p, i, t, k, a, w, n, rfl⟩ := h
  exact ⟨r, c, p, i, t, k, a, w, n + 1, rfl⟩
theorem threads (h : Captured d e) : e.core.threads = d.core.threads := by obtain ⟨_, _, _, _, _, _, _, _, _, rfl⟩ := h; rfl
theorem thr (h : Captured d e) (c t : Nat) : thr e c t = thr d c t := thr_congr h.threads c t
theorem inf (h : Captured d e) : e.inf = d.inf := by obtain ⟨_, _, _, _, _, _, _, _, _, rfl⟩ := h; rfl
theorem pend (h : Captured d e) : e.core.pend = d.core.pend := by obtain ⟨_, _, _, _, _, _, _, _, _, rfl⟩ := h; rfl
theorem captureLane (h : Captured d e) (c t : Nat) (w : W32) (k n : Nat) : Captured d (captureLane e c t w k n).2.2 := by
  have hkey : Captured d (readM e c (Machine.thr e c t).home n (hKeyAt w) k).2.2 := h.quiet ((Quiet.refl e).readM ..)
  unfold Machine.captureLane
  dsimp only
  split
  next =>
    have hlen := hkey.quiet ((Quiet.refl _).readM c (Machine.thr e c t).home n 2 2)
    split
    · exact hlen
    · exact hlen.useFree
  next => exact hkey

end Captured

theorem captureAll_concat (d : Dev) (c t : Nat) (w : W32) (k : Nat) (ls : List Nat) (n : Nat) :
    let r := captureAll d c t w k ls
    let q := captureLane r.2.2 c t w k n
    captureAll d c t w k (ls ++ [n]) = (r.1 ++ [hlane q.2.2 c t n q.1], r.2.1.and q.2.1, q.2.2) := by
  dsimp only
  rw [captureAll, List.foldl_append]
  rfl

/-- The entry's lanes hold A of the acting lanes. -/
theorem captureAll_spec (d : Dev) (c t : Nat) (w : W32) (k : Nat) (ls : List Nat) : Captured d (captureAll d c t w k ls).2.2 ∧
    (captureAll d c t w k ls).1.map (fun l => (l.lane, l.a)) = ls.map (fun n => (n, (lctx (thr d c t) n).a)) := by
  induction ls using List.reverseRecOn with
  | nil => exact ⟨.refl d, rfl⟩
  | append_singleton ls n ih =>
    obtain ⟨hcap, hmap⟩ := ih
    have hlane := hcap.captureLane c t w k n
    rw [captureAll_concat]
    refine ⟨hlane, ?_⟩
    rw [List.map_append, List.map_append, hmap, ← hlane.thr c t]
    rfl

/-! ## Acceptance (R158, R211, R215) -/

/-- The slot becomes pending in the lanes of an entry. -/
def pendSlot (c home slot : Nat) (ls : List HLane) (d : Dev) : Dev :=
  ls.foldl (fun d l => setPend d c home l.lane (setBit (pendOf d c home l.lane) slot)) d

theorem pendSlot_shape (c home slot : Nat) (ls : List HLane) (d : Dev) : ∃ p, pendSlot c home slot ls d = { d with core := { d.core with pend := p } } := by
  induction ls generalizing d with
  | nil => exact ⟨_, rfl⟩
  | cons l ls ih =>
    obtain ⟨p, hp⟩ := ih (setPend d c home l.lane (setBit (pendOf d c home l.lane) slot))
    exact ⟨p, hp⟩

theorem testBit_pendSlot (c home slot : Nat) (ls : List HLane) (d : Dev) (n k : Nat) :
    (pendOf (pendSlot c home slot ls d) c home n).testBit k = ((pendOf d c home n).testBit k || decide (n ∈ ls.map (·.lane) ∧ k = slot)) := by
  induction ls generalizing d with
  | nil => simp [pendSlot]
  | cons l ls ih =>
    have hset : (pendOf (setPend d c home l.lane (setBit (pendOf d c home l.lane) slot)) c home n).testBit k =
        ((pendOf d c home n).testBit k || decide (n = l.lane ∧ k = slot)) := by
      rw [pendOf, setPend, tget_tset]
      by_cases hn : n = l.lane
      · rw [if_pos (by rw [hn]), testBit_setBit, hn]
        simp
      · rw [if_neg (by omega), pendOf]
        simp [hn]
    rw [show pendSlot c home slot (l :: ls) d = pendSlot c home slot ls (setPend d c home l.lane (setBit (pendOf d c home l.lane) slot)) from rfl, ih, hset,
      Bool.or_assoc, ← Bool.decide_or, List.map_cons]
    congr 2
    simp only [List.mem_cons, eq_iff_iff]
    tauto

/-- What an accepted helper instruction makes of its thread. -/
def helperWaits (w : W32) (x : Thread) : Thread := { x with wait := if hOp w = 0xCB then .lock else x.wait }

theorem queue_setQueue (d : Dev) (c h k : Nat) (l : List HEntry) : queue (setQueue d c h l) c k = if k = h then l else queue d c k := by
  rw [queue, setQueue, tget_tset]
  split
  next hk => rw [if_pos (by omega)]
  next hk => rw [if_neg (by omega)]; rfl

/-- The entry of an accepted instruction. -/
def helperEntry (d : Dev) (c t : Nat) (w : W32) (ls : List HLane) : HEntry :=
  let x := thr d c t
  { word := w, t := t, home := x.home, lanes := ls, flight := x.flight
    copy := match x.flight.bind (flightById d) with | some f => f.copyOf.isSome | none => false
    stamp := if isHub c then d.tb else tbIn d (cidZone c)
    holder := threadHolder d c t, tag := x.tag
    regs := helperRegs d c t w }
/-- The requests are recorded for the comparator (R391). -/
def traced (flight : Option Nat) (w : W32) (ls : List HLane) (d : Dev) : Dev :=
  match flight with
  | some id => modFlight d id (fun f => { f with trace := f.trace ++ ls.map (fun l => (l.lane, w, l.a, l.key)) })
  | none => d

theorem accept_eq (d : Dev) (c t : Nat) (w : W32) (ls : List HLane) :
    let h := helperOf (hOp w)
    let e := traced (thr d c t).flight w ls (pendSlot c (thr d c t).home (hSlot w) ls (setQueue d c h (queue d c h ++ [helperEntry d c t w ls])))
    accept d c t w ls = if hOp w == 0xCB then modThr e c t (fun y => { y with wait := .lock }) else e := rfl

theorem traced_shape (flight : Option Nat) (w : W32) (ls : List HLane) (d : Dev) : ∃ b, traced flight w ls d = { d with bar := b } := by
  cases flight
  · exact ⟨_, rfl⟩
  · exact ⟨_, rfl⟩

theorem accept_spec (d : Dev) (c t : Nat) (w : W32) (ls : List HLane) :
    let x := thr d c t
    let h := helperOf (hOp w)
    let e := accept d c t w ls
    e.ras = d.ras ∧ ThreadBy c t (helperWaits w) d e ∧ queue e c h = queue d c h ++ [helperEntry d c t w ls] ∧ (∀ k ≠ h, queue e c k = queue d c k) ∧
      ∀ n k, (pendOf e c x.home n).testBit k = ((pendOf d c x.home n).testBit k || decide (n ∈ ls.map (·.lane) ∧ k = hSlot w)) := by
  intro x h e
  let e1 := setQueue d c h (queue d c h ++ [helperEntry d c t w ls])
  obtain ⟨b, p, heq, hpend⟩ : ∃ b p, traced x.flight w ls (pendSlot c x.home (hSlot w) ls e1) = { d with bar := b, inf := e1.inf, core := { d.core with pend := p } } ∧
      ∀ n k, (tget zeroN p ((8 * c + x.home) * 32 + n)).testBit k = ((pendOf d c x.home n).testBit k || decide (n ∈ ls.map (·.lane) ∧ k = hSlot w)) := by
    obtain ⟨p, hp⟩ := pendSlot_shape c x.home (hSlot w) ls e1
    have hpend := testBit_pendSlot c x.home (hSlot w) ls e1
    rw [hp] at hpend ⊢
    obtain ⟨b, hb⟩ := traced_shape x.flight w ls { e1 with core := { e1.core with pend := p } }
    exact ⟨b, p, hb, hpend⟩
  have he : e = if hOp w == 0xCB then modThr { d with bar := b, inf := e1.inf, core := { d.core with pend := p } } c t (fun y => { y with wait := .lock })
      else { d with bar := b, inf := e1.inf, core := { d.core with pend := p } } := by
    rw [← heq]
    exact accept_eq d c t w ls
  obtain ⟨hcore, hwait⟩ : (∃ l, e = { d with bar := b, inf := e1.inf, core := { d.core with pend := p, threads := l } }) ∧ ThreadBy c t (helperWaits w) d e := by
    rw [he]
    split
    next hop =>
      have hg : helperWaits w = fun y => { y with wait := .lock } := funext fun y => by rw [helperWaits, if_pos (by simpa using hop)]
      exact ⟨⟨_, rfl⟩, hg ▸ (ThreadBy.of_threads rfl).trans (.modThr _ _ _ _)⟩
    next hop =>
      have hg : helperWaits w = id := funext fun y => by rw [helperWaits, if_neg (by simpa using hop)]; rfl
      exact ⟨⟨_, rfl⟩, hg ▸ .of_threads rfl⟩
  obtain ⟨l, hl⟩ := hcore
  have hqueue (k : Nat) : queue e c k = if k = h then queue d c h ++ [helperEntry d c t w ls] else queue d c k := by
    rw [← queue_setQueue, hl]
    rfl
  rw [hl]
  exact ⟨rfl, hl ▸ hwait, hl ▸ (hqueue h).trans (if_pos rfl), fun k hk => hl ▸ (hqueue k).trans (if_neg hk), hpend⟩

theorem pend_atIssue (d : Dev) (c t : Nat) : (atIssue d c t).core.pend = d.core.pend := by
  have hcount : (countIssue d c t).core.pend = d.core.pend := by
    have hctr := congrArg Cores.pend (sameWork_coreCtr (endYield (setStall d c t .none) c) c Rg.CORE_ISSUED (some Rg.HCC_ISSUED)).core
    unfold countIssue
    dsimp only
    generalize coreCtr (endYield (setStall d c t .none) c) c Rg.CORE_ISSUED (some Rg.HCC_ISSUED) = d1 at hctr ⊢
    generalize hd2 : modThr d1 c t _ = d2
    have hpmc := congrArg Cores.pend ((SameWork.refl d2).pmc c (if kernelThread (thr d c t) then 2 else 1) 1 (kernelThread (thr d c t)) 0).core
    have hd : d2.core.pend = d.core.pend := by
      rw [← hd2]
      exact hctr
    split
    · exact hpmc.trans hd
    · exact hpmc.trans hd
  unfold atIssue fetchAt
  split
  · exact hcount
  · obtain ⟨_, _, _, _, _, _, _, _, hr⟩ := (Quiet.refl (countIssue d c t)).sramRead (cidPlace c) (imageArr c (thr d c t).bank) (4 * (thr d c t).pc) 4
    rw [hr]
    exact hcount

theorem inf_atIssue (d : Dev) (c t : Nat) : (atIssue d c t).inf = d.inf := by
  obtain ⟨_, _, _, _, _, _, _, _, _, h⟩ := coreOnly_atIssue d c t
  rw [h]
theorem queue_of_inf (h : e.inf = d.inf) (c k : Nat) : queue e c k = queue d c k := by rw [queue, h, queue]
theorem pendOf_of_pend (h : e.core.pend = d.core.pend) (c home n : Nat) : pendOf e c home n = pendOf d c home n := by rw [pendOf, h, pendOf]

/-! ## The issue -/

section
variable {c t : Nat}

/-- What a helper instruction meets before it is offered to its helper (R158). -/
def helperStall (d : Dev) (c t : Nat) (w : W32) (ls : List Nat) : Stall :=
  if ls.isEmpty then .none else if slotPending d c (thr d c t).home ls [hSlot w] then .slots ls [hSlot w]
  else if queueFull d c (helperOf (hOp w)) then .queue (helperOf (hOp w)) else .none
/-- What it finds at its issue. -/
def helperFinds (d : Dev) (c t : Nat) (w : W32) : Issue :=
  let ls := actingLanes (thr d c t) (hGuard w)
  { word := w, refused := helperRefuses d c t w, stall := helperStall d c t w ls, lanes := ls }
/-- The acceptance of what it captured. -/
def helperEnters (c t : Nat) (w : W32) (k : Bool) (ls : List Nat) (caps : List HLane) (d : Dev) : Dev :=
  let d := advance (pmc d c 4 1 k (helperOf (hOp w))) c t
  if ls.isEmpty then d else accept d c t w caps

theorem helperIssue_eq (d : Dev) (c t : Nat) (w : W32) :
    let ls := actingLanes (thr d c t) (hGuard w)
    let cap (e : Dev) := captureAll e c t w (keyBytes w (helperRegs e c t w)) ls
    helperIssue d c t w = issue d c t (helperFinds d c t w) (fun e => if (cap e).2.1 != .ok then metError (cap e).2.2 c t w (cap e).2.1
      else (helperEnters c t w (kernelThread (thr d c t)) ls (cap e).1 (cap e).2.2, false)) := rfl

theorem helperEnters_spec {ls : List Nat} (d : Dev) (w : W32) (k : Bool) (caps : List HLane) (hls : ls ≠ []) (hp : (thr d c t).pc + 1 < 8192) :
    let x := thr d c t
    let h := helperOf (hOp w)
    let e := helperEnters c t w k ls caps d
    e.ras = d.ras ∧ ThreadBy c t (fun x => { x with pc := x.pc + 1, wait := if hOp w = 0xCB then .lock else x.wait }) d e ∧
      (∃ a, queue e c h = queue d c h ++ [a] ∧ a.word = w ∧ a.t = t ∧ a.home = x.home ∧ a.flight = x.flight ∧ a.lanes = caps) ∧
      (∀ k ≠ h, queue e c k = queue d c k) ∧
      ∀ n k, (pendOf e c x.home n).testBit k = ((pendOf d c x.home n).testBit k || decide (n ∈ caps.map (·.lane) ∧ k = hSlot w)) := by
  intro x h e
  have hcount : SameWork d (pmc d c 4 1 k h) := (SameWork.refl d).pmc ..
  have hthr : ThreadBy c t (fun x => { x with pc := x.pc + 1 }) d (modThr (pmc d c 4 1 k h) c t (fun x => { x with pc := x.pc + 1 })) :=
    hcount.threadBy.trans (.modThr _ _ _ _)
  have he : e = accept (modThr (pmc d c 4 1 k h) c t (fun x => { x with pc := x.pc + 1 })) c t w caps := by
    have hempty : ls.isEmpty = false := List.isEmpty_eq_false_iff.mpr hls
    simp only [e, helperEnters, hempty]
    rw [hcount.threadBy.next (fun _ => rfl) hp]
    rfl
  generalize hd2 : modThr (pmc d c 4 1 k h) c t (fun x => { x with pc := x.pc + 1 }) = d2 at hthr he
  have hras : d2.ras = d.ras := by rw [← hd2]; exact hcount.ras
  have hqueue (k : Nat) : queue d2 c k = queue d c k := queue_of_inf (by rw [← hd2]; exact hcount.inf) c k
  have hpend (n : Nat) : pendOf d2 c x.home n = pendOf d c x.home n := pendOf_of_pend (by rw [← hd2]; exact (congrArg Cores.pend hcount.core :)) c x.home n
  obtain ⟨hras', hthr', hq, hqo, hpend'⟩ := accept_spec d2 c t w caps
  have hx : thr d2 c t = { x with pc := x.pc + 1 } := hthr.self
  rw [← he] at hras' hthr' hq hqo hpend'
  rw [hx] at hpend'
  refine ⟨hras'.trans hras, hthr.trans hthr', ⟨helperEntry d2 c t w caps, hq.trans (congrArg (· ++ _) (hqueue h)), rfl, rfl, ?_, ?_, rfl⟩,
    fun k hk => (hqo k hk).trans (hqueue k), fun n k => (hpend' n k).trans (congrArg (fun p => p.testBit k || _) (hpend n))⟩
  · exact (congrArg Thread.home hx :)
  · exact (congrArg Thread.flight hx :)

end

section
variable {c : Cid} {t : Tid} {w : W32}

theorem helperIssue_spec {cap : List HLane × Met × Dev}
    (hdef : cap = captureAll (atIssue s.dev c t) c t w (keyBytes w (helperRegs (atIssue s.dev c t) c t w)) (actingLanes (thr s.dev c t) (hGuard w))) :
    let x := thr s.dev c t
    let ls := actingLanes x (hGuard w)
    let h := helperOf (hOp w)
    Issues s.dev c t → helperRefuses s.dev c t w = false → ls ≠ [] →
    slotPending s.dev c x.home ls [hSlot w] = false → queueFull s.dev c h = false →
    cap.2.1 = .ok → cap.2.2.ras.todo = [] → x.pc + 1 < 8192 →
    ∃ a : HEntry,
      let u : State := { s with dev := settle (helperIssue s.dev c t w) }
      queue u.dev c h = queue s.dev c h ++ [a] ∧ (∀ k ≠ h, k < 10 → queue u.dev c k = queue s.dev c k) ∧
      a.word = w ∧ a.t = t.val ∧ a.home = x.home ∧ a.flight = x.flight ∧
      a.lanes.map (fun l => (l.lane, l.a)) = ls.map (fun n => (n, (lctx x n).a)) ∧
      (∀ n k, n < 32 → k < 4 → ((pendOf u.dev c x.home n).testBit k =
        ((pendOf s.dev c x.home n).testBit k || decide (n ∈ ls ∧ k = hSlot w)))) ∧
      ThreadTo s u c t (fun x => { x with pc := x.pc + 1, wait := if hOp w = 0xCB then .lock else x.wait }) := by
  subst hdef
  intro x ls h hissue hrefuses hls hslot hfull hok hcalm hp
  let e := atIssue s.dev c t
  let cap := captureAll e c t w (keyBytes w (helperRegs e c t w)) ls
  obtain ⟨m, hm⟩ := thr_atIssue_self s.dev c t
  obtain ⟨hcap, hlanes⟩ := captureAll_spec e c t w (keyBytes w (helperRegs e c t w)) ls
  have hx : thr cap.2.2 c t = { x with issued := m } := (hcap.thr c t).trans hm
  obtain ⟨hras, hthr, ⟨a, hq, hword, ht, hhome, hflight, halanes⟩, hqo, hpend⟩ :=
    helperEnters_spec (c := c) (t := t) cap.2.2 w (kernelThread x) cap.1 hls (by rw [hx]; exact hp)
  have hstall : (helperFinds s.dev c t w).stall = .none := by
    have hempty : ls.isEmpty = false := List.isEmpty_eq_false_iff.mpr hls
    simp only [helperFinds, helperStall]
    rw [hempty, hslot, hfull]
    rfl
  have hwork := sameWork_issue_reads (i := helperFinds s.dev c t w) (read := fun d => captureAll d c t w (keyBytes w (helperRegs d c t w)) ls)
    (err := fun r => metError r.2.2 c t w r.2.1) (eff := helperEnters c t w (kernelThread x) ls) hissue hstall (cause_none rfl rfl rfl rfl rfl hrefuses) hok
    ((congrArg Ras.todo hras).trans hcalm)
  rw [← helperIssue_eq] at hwork
  have hqueue := queue_of_inf (hcap.inf.trans (inf_atIssue s.dev c t)) c
  have hpend0 := pendOf_of_pend (hcap.pend.trans (pend_atIssue s.dev c t)) c x.home
  rw [hx] at hpend hhome hflight
  have hq' := queue_of_inf hwork.inf c
  have hpend' := pendOf_of_pend (congrArg Cores.pend hwork.core) c x.home
  have hcaps : cap.1.map (·.lane) = ls := by
    have hfst := congrArg (List.map Prod.fst) hlanes
    rw [List.map_map, List.map_map] at hfst
    exact hfst.trans (List.map_id _)
  refine ⟨a, (hq' h).trans (hq.trans (congrArg (· ++ [a]) (hqueue h))), fun k hk _ => (hq' k).trans ((hqo k hk).trans (hqueue k)), hword, ht, hhome, hflight, ?_, ?_, ?_⟩
  · rw [halanes, hlanes, hm]
    rfl
  · intro n k _ _
    rw [hpend', hpend, hpend0, hcaps]
  · exact (ThreadBy.trans (.of_threads hcap.threads) hthr).issued (fun _ _ => rfl) hwork

end

/-- The fields of every form fit its word. -/
theorem helperForm_fields : ∀ q ∈ helperForms.map (·.2), q.1 < 256 ∧ q.2 < 16 := by decide

/-- The command issues the word of opcode `op` and SUB `sub`. -/
def IssuesForm (mk : Cid → Tid → BitVec 4 → BitVec 16 → Instr) (op sub : Nat) : Prop :=
  ∀ (s : State) (c : Cid) (t : Tid) (sel : BitVec 4) (id : BitVec 16),
    Machine.exec (mk c t sel id) s = .next { s with dev := settle (helperIssue s.dev c t (hWord op sub sel id)) }

theorem issuesForm : ∀ p ∈ helperForms, IssuesForm p.1 p.2.1 p.2.2 := by
  unfold helperForms
  refine List.forall_mem_append.mpr ⟨List.forall_mem_append.mpr ⟨List.forall_mem_append.mpr ⟨?_, ?_⟩, ?_⟩, ?_⟩
  all_goals
    repeat refine List.forall_mem_cons.mpr ⟨fun _ _ _ _ _ => rfl, ?_⟩
    exact List.forall_mem_nil _

/-- Settles O20: a form issues its word, and what its helper accepts is the entry that the acting lanes captured. -/
theorem helperInstructionsEnterTheirQueue : Obligations.HelperInstructionsEnterTheirQueue := by
  intro p hp s c t sel id w x ls h e cap hissue hrefuses hls hslot hfull hok hcalm hpc
  obtain ⟨hop, hsub⟩ := helperForm_fields p.2 (List.mem_map.mpr ⟨p, hp, rfl⟩)
  have hexec : Machine.exec (p.1 c t sel id) s = .next { s with dev := settle (helperIssue s.dev c t w) } := issuesForm p hp s c t sel id
  have hw : hOp w = p.2.1 := hOp_hWord hop hsub sel id
  obtain ⟨a, hq, hqo, hword, ht, hhome, hflight, hlanes, hpend, hto⟩ :=
    helperIssue_spec (w := w) (cap := cap) rfl hissue hrefuses hls hslot (by rw [hw]; exact hfull) hok hcalm hpc
  rw [hw] at hq hqo hto
  exact ⟨_, a, hexec, rfl, hq, hqo, hword, ht, hhome, hflight, hlanes, hpend, hto⟩

/-- Settles O21: a refused word is a cause of its issue. -/
theorem refusedHelperInstructionsTrap : Obligations.RefusedHelperInstructionsTrap := by
  intro s c t w h hin hlo hhi hrefuses
  have hexec : Machine.exec (.helperRefused c t w) s = .next { s with dev := settle (helperIssue s.dev c t w) } := by
    change Host.Outcome.next { s with dev := settle (if 0xC0 ≤ hOp w && hOp w ≤ 0xEF && helperRefuses s.dev c t w then _ else _) } = _
    rw [hrefuses, show (decide (0xC0 ≤ hOp w)) = true from decide_eq_true hlo, show (decide (hOp w ≤ 0xEF)) = true from decide_eq_true hhi]
    rfl
  rw [helperIssue_eq] at hexec
  exact ⟨_, hexec, traps_spec c t h hin (by simp [helperFinds, Issue.cause, Issue.early, hrefuses]) rfl⟩

end Sys2Proof.Machine
end

section
/-!
Table DMA (R178, R244, R245, R255, R256, R411): what a descriptor that is taken leaves unchanged, and checked reads of entries.
-/

namespace Sys2Proof.Machine
open Sys2Proof Sys2Proof.Terms

variable {d e : Dev} {h ch : Nat}

/-! ## A descriptor is taken -/

/-- The device when the next descriptor of a channel has been taken and counted. -/
def dmaTaken (d : Dev) (h ch : Nat) : Dev := bump (takeDesc d h 2 ch).2 (Rg.TDMA_DESC h) 1

theorem rd_dmaTaken (d : Dev) (h ch a : Nat) :
    rd (dmaTaken d h ch) a = rd (wf d (ringIdx h 2 ch) Fl.PRING_IDX_CONSUMED (ringConsumed d h 2 ch + 1)) a := rd_bump ..
theorem consumed_dmaTaken (d : Dev) (h ch : Nat) : ringConsumed (dmaTaken d h ch) h 2 ch = (ringConsumed d h 2 ch + 1) % 65536 := by
  rw [ringConsumed, rf_congr (rd_dmaTaken d h ch _), rf_wf_same _ _ _ (by decide)]
  rfl

/-- The registers of a ring of a host lie below those of the zones. -/
theorem ringIdx_lt_zone (hh : h < 2) (hc : ch < 8) (z t i : Nat) : Rg.TBL_DESC z t + 4 * i ≠ ringIdx h 2 ch := by
  unfold Rg.TBL_DESC Rg.baseTBL Rg.zoneBase ringIdx Rg.ringBlock Rg.baseHIF
  norm_num
  omega

theorem descAt_dmaTaken (hh : h < 2) (hc : ch < 8) {z t : Nat} (hz : z < 4) (ht : t < 32) : descAt (dmaTaken d h ch) (1 + z) t = descAt d (1 + z) t := by
  have hne : ¬ (1 + z - 1 == 4) = true := by
    rw [beq_iff_eq]
    omega
  have hregs : descRegs (dmaTaken d h ch) (1 + z - 1) t = descRegs d (1 + z - 1) t := by
    rw [descRegs, if_neg hne, descRegs, if_neg hne]
    exact List.map_congr_left fun i _ => by rw [rd_dmaTaken, rd_wf_ne _ _ _ (ringIdx_lt_zone hh hc _ _ _)]
  rw [descAt, if_neg (by omega), hregs, descAt, if_neg (by omega)]

/-! ## Its completion -/

/-- The completion of a descriptor leaves its tables, its memories and what was put out before. -/
theorem complete4_spec (d : Dev) (h kind r idx st n : Nat) :
    let e := complete4 d h kind r idx st n
    e.tbl = d.tbl ∧ e.core = d.core ∧ e.ras = d.ras ∧ e.tel = d.tel ∧ (∀ o ∈ d.out, o ∈ e.out) ∧
      (∀ a, a ≠ Rg.HIF_ERR h → a ≠ Rg.HIF_STATUS h → a ≠ ringMod h kind r → rd e a = rd d a) ∧
      (∀ a, a ≠ Rg.MSIX_SENT h → a ≠ Rg.PME_SENT h → ctr e a = ctr d a) ∧ (st = 5 → (rd e (Rg.HIF_ERR h)).getLsbD 3 = true) := by
  intro e
  obtain ⟨x, hx, rg, p, i, k, hs, hrd, herr⟩ : ∃ x, e = makeEntry x h kind r [BitVec.ofNat 32 (idx % 65536 + st * 65536), BitVec.ofNat 32 n, 0, 0] ∧
      ∃ rg p i k, x = { d with regs := rg, pages := p, ic := i, ket := k } ∧ (∀ a, a ≠ Rg.HIF_ERR h → rd x a = rd d a) ∧
        (st = 5 → (rd x (Rg.HIF_ERR h)).getLsbD 3 = true) := by
    by_cases h5 : st = 5
    · obtain ⟨rg, p, i, k, hs⟩ := hifErr_shape d h 3
      exact ⟨hifErr d h 3, congrArg (fun x => makeEntry x h kind r _) (if_pos (by simpa using h5)), rg, p, i, k, hs,
        fun a ha => rd_hifErr_ne _ _ _ ha, fun _ => rd_hifErr _ _ (by decide)⟩
    · exact ⟨d, congrArg (fun x => makeEntry x h kind r _) (if_neg (by simpa using h5)), _, _, _, _, rfl, fun _ _ => rfl, fun hst => absurd hst h5⟩
  have hw : HostWork h kind r x e := hx ▸ (HostWork.refl h kind r x).makeEntry _
  obtain ⟨-, -, -, -, -, -, -, hemod, hest⟩ := ring_regs_apart h kind r
  have htbl : e.tbl = x.tbl ∧ e.core = x.core := by obtain ⟨⟨_, _, _, _, _, _, _, he, -, -⟩, -, -, -⟩ := hw; rw [he]; exact ⟨rfl, rfl⟩
  refine ⟨htbl.1.trans (by rw [hs]), htbl.2.trans (by rw [hs]), hw.ras.trans (by rw [hs]), hw.tel.trans (by rw [hs]), fun o ho => hw.mem_out (by rw [hs]; exact ho),
    fun a h1 h2 h3 => (hw.reg a h2 h3).trans (hrd a h1), fun a h1 h2 => (hw.count a h1 h2).trans (by rw [hs]; rfl), fun h5 => ?_⟩
  rw [hw.reg _ hest hemod]
  exact herr h5

/-! ## What a table's entries are read by: the entries, the withdrawn rows, the words that read uncorrectable -/

/-- Tables read the same in `e` as in `d`. -/
structure SameTables (d e : Dev) : Prop where
  tbl : e.tbl = d.tbl
  chans : e.ras.chans = d.ras.chans
  bad : ∀ pl n w, wordBad (sword e pl n w) = wordBad (sword d pl n w)

/-- A checked read of the word is uncorrectable. -/
def wordLost (d : Dev) (pl n w : Nat) : Bool := rowWithdrawn d pl n (w / 128) || wordBad (sword d pl n w)
/-- A checked read of the entry is uncorrectable. -/
def entLost (d : Dev) (pl t r : Nat) (x : TDesc) (p : Nat) : Bool := (entWords pl t r x p).any (fun w => wordLost d pl w.arr w.word)

theorem sword_setSword (d : Dev) (pl n w : Nat) (x : SWord) (pl' n' w' : Nat) :
    sword (setSword d pl n w x) pl' n' w' = if swordKey pl' n' w' = swordKey pl n w then x else sword d pl' n' w' := tget_tset ..

namespace SameTables

theorem refl (d : Dev) : SameTables d d := ⟨rfl, rfl, fun _ _ _ => rfl⟩
theorem trans {f : Dev} (h : SameTables d e) (g : SameTables e f) : SameTables d f :=
  ⟨g.tbl.trans h.tbl, g.chans.trans h.chans, fun pl n w => (g.bad pl n w).trans (h.bad pl n w)⟩
/-- A change beside the tables, their memories and the fault records. -/
theorem beside (ht : e.tbl = d.tbl) (hr : e.ras.chans = d.ras.chans) (hc : e.core.sram = d.core.sram) : SameTables d e :=
  ⟨ht, hr, fun _ _ _ => by rw [sword, sword, hc]⟩

theorem ent (h : SameTables d e) (pl t r p : Nat) : ent e pl t r p = ent d pl t r p := by rw [Machine.ent, h.tbl, Machine.ent]
theorem regionEnts (h : SameTables d e) (pl t r : Nat) : regionEnts e pl t r = regionEnts d pl t r := by rw [Machine.regionEnts, h.tbl, Machine.regionEnts]
theorem rowWithdrawn (h : SameTables d e) (pl n k : Nat) : rowWithdrawn e pl n k = rowWithdrawn d pl n k := by
  rw [Machine.rowWithdrawn, h.chans, Machine.rowWithdrawn]
theorem rowsGone (h : SameTables d e) (pl : Nat) : rowsGone e pl = rowsGone d pl := by rw [Machine.rowsGone, h.chans, Machine.rowsGone]
theorem posGone (h : SameTables d e) (pl t r : Nat) (x : TDesc) (p : Nat) : posGone e pl t r x p = posGone d pl t r x p := by
  simp only [Machine.posGone, h.rowsGone, h.rowWithdrawn]
theorem entBad (h : SameTables d e) (pl t r : Nat) {x : TDesc} (hx : x.ext = false) (p : Nat) : entBad e pl t r x p = entBad d pl t r x p := by
  simp only [Machine.entBad, hx, Bool.false_eq_true, if_false, h.posGone, h.bad]
theorem wordLost (h : SameTables d e) (pl n w : Nat) : wordLost e pl n w = wordLost d pl n w := by simp only [Machine.wordLost, h.rowWithdrawn, h.bad]
theorem entLost (h : SameTables d e) (pl t r : Nat) (x : TDesc) (p : Nat) : entLost e pl t r x p = entLost d pl t r x p := by
  simp only [Machine.entLost, h.wordLost]
theorem findKey (h : SameTables d e) (pl t r : Nat) {x : TDesc} (hx : x.ext = false) (k : List Byte) : findKey e pl t r x k = findKey d pl t r x k := by
  simp only [Machine.findKey, h.ent, h.regionEnts, h.entBad pl t r hx]
theorem emptyPos (h : SameTables d e) (pl t r : Nat) {x : TDesc} (hx : x.ext = false) (p : Nat) : emptyPos e pl t r x p = emptyPos d pl t r x p := by
  simp only [Machine.emptyPos, h.ent, h.entBad pl t r hx]
theorem readSet (h : SameTables d e) (pl t r : Nat) {x : TDesc} (hx : x.ext = false) (ht : x.ty = 1) (k : List Byte) : readSet e pl t r x k = readSet d pl t r x k := by
  simp only [Machine.readSet, ht, hx, beq_self_eq_true, Bool.not_false, Bool.and_self, if_true, h.regionEnts]

end SameTables

/-! ## Checked reads (R373, R387) -/

/-- A report of an error: tables, memory words and withdrawn rows are as before. -/
structure Reports (d e : Dev) : Prop where
  tbl : e.tbl = d.tbl
  core : e.core = d.core
  chans : e.ras.chans = d.ras.chans

namespace Reports

theorem refl (d : Dev) : Reports d d := ⟨rfl, rfl, rfl⟩
theorem trans {f : Dev} (h : Reports d e) (g : Reports e f) : Reports d f := ⟨g.tbl.trans h.tbl, g.core.trans h.core, g.chans.trans h.chans⟩
theorem ite (c : Prop) [Decidable c] {x y : Dev} (h : Reports d x) (g : Reports d y) : Reports d (if c then x else y) := by split <;> assumption
theorem bump (h : Reports d e) (a n : Nat) : Reports d (bump e a n) := h.trans ⟨rfl, rfl, rfl⟩
theorem raise (h : Reports d e) (p n : Nat) : Reports d (raise e p n) := by
  obtain ⟨q, i, k, hr⟩ := raise_shape e p n
  rw [hr]
  exact h.trans ⟨rfl, rfl, rfl⟩
theorem noteFault (h : Reports d e) (k : Nat) (b : Bool) : Reports d (noteFault e k b) := h.trans ⟨rfl, rfl, rfl⟩
theorem setLogs (h : Reports d e) (l : Tab (List LogE)) : Reports d (modRas e (fun r => { r with logs := l })) := h.trans ⟨rfl, rfl, rfl⟩
theorem uncorrWord (h : Reports d e) (pl n w : Nat) (j : Bool) : Reports d (uncorrWord e pl n w j) := by
  have hb := h.bump (pwAt pl Rg.PW_UNCORR Rg.ZPW_UNCORR) 1
  have hr : Reports d (if pl == 0 then Machine.bump e (pwAt pl Rg.PW_UNCORR Rg.ZPW_UNCORR) 1
      else Machine.raise (Machine.bump e (pwAt pl Rg.PW_UNCORR Rg.ZPW_UNCORR) 1) (Rg.pageOf (Rg.baseZRAS (pl - 1))) 0) := .ite _ hb (hb.raise _ _)
  exact .ite _ hr (hr.noteFault _ _)
theorem logInto (h : Reports d e) (k w : Nat) (s : BitVec 8) (j : Bool) (o : Nat) : Reports d (logInto e k w s j o) := by
  unfold Machine.logInto
  dsimp only
  refine .ite _ (h.setLogs _) ?_
  split
  · exact h.setLogs _
  · exact .ite _ (h.setLogs _) ((h.bump ..).setLogs _)
theorem logError (h : Reports d e) (pl n w : Nat) (s : BitVec 8) (j : Bool) : Reports d (logError e pl n w s j) := .logInto (.ite _ (h.raise _ _) h) ..
theorem same (h : Reports d e) : SameTables d e := .beside h.tbl h.chans (by rw [h.core])

end Reports

theorem SameTables.setGood {pl n w : Nat} (v : W64) (h : wordBad (sword d pl n w) = false) :
    SameTables d (setSword d pl n w { valid := true, data := v }) := by
  refine ⟨rfl, rfl, fun pl' n' w' => ?_⟩
  rw [sword_setSword]
  split
  next hk => rw [show sword d pl' n' w' = sword d pl n w by rw [sword, hk, sword], h]; rfl
  next => rfl

theorem checkWord_spec (d : Dev) (pl n w : Nat) :
    SramWork d (checkWord d pl n w).2.2 ∧ SameTables d (checkWord d pl n w).2.2 ∧ (checkWord d pl n w).2.1 = wordLost d pl n w := by
  refine ⟨(SramWork.refl d).checkWord .., ?_⟩
  have hun (j : Bool) : SameTables d (uncorrWord d pl n w j) := ((Reports.refl d).uncorrWord ..).same
  unfold checkWord wordLost wordBad
  dsimp only
  split
  next hg => exact ⟨hun false, by rw [hg, Bool.true_or]⟩
  next hg =>
    rw [Bool.eq_false_iff.mpr hg, Bool.false_or]
    split
    next hv => exact ⟨.refl d, by simp_all⟩
    next hv =>
      split
      next hp => exact ⟨hun (sword d pl n w).inj, by simp_all⟩
      next hp =>
        split
        next hk => exact ⟨.refl d, by simp_all⟩
        next hk =>
          split
          next m hm =>
            have hgood : wordBad (sword d pl n w) = false := by simp_all [wordBad]
            have hset := SameTables.setGood ((sword d pl n w).data ^^^ m.setWidth 64) hgood
            have hlog := ((Reports.refl (setSword d pl n w { valid := true, data := (sword d pl n w).data ^^^ m.setWidth 64 })).logError pl n w
              (sword d pl n w).chk (sword d pl n w).inj).bump (pwAt pl Rg.PW_CORRECTED Rg.ZPW_CORRECTED) 1
            exact ⟨hset.trans (Reports.ite _ hlog (hlog.noteFault _ _)).same, by simp_all⟩
          next hm => exact ⟨hun (sword d pl n w).inj, by simp_all⟩

/-- The checked read of one word of an entry. -/
def readEntWord (pl : Nat) (acc : Bool × Dev) (w : PartWord) : Bool × Dev :=
  (acc.1 || (checkWord acc.2 pl w.arr w.word).2.1, (checkWord acc.2 pl w.arr w.word).2.2)

theorem readEnt_eq (d : Dev) (pl t r : Nat) {x : TDesc} (hx : x.ty = 1) (p : Nat) :
    readEnt d pl t r x p = (entWords pl t r x p).foldl (readEntWord pl) (false, d) := by
  have hty : (x.ty == 4) = false := by rw [hx]; rfl
  simp only [readEnt, hty, Bool.false_eq_true, if_false]
  conv_rhs => rw [← List.zipIdx_map_fst 0 (entWords pl t r x p), List.foldl_map]
  rfl

theorem readEntWords_spec (pl : Nat) (l : List PartWord) : ∀ acc : Bool × Dev, SramWork acc.2 (l.foldl (readEntWord pl) acc).2 ∧
    SameTables acc.2 (l.foldl (readEntWord pl) acc).2 ∧ (l.foldl (readEntWord pl) acc).1 = (acc.1 || l.any (fun w => wordLost acc.2 pl w.arr w.word)) := by
  induction l with
  | nil => exact fun acc => ⟨.refl _, .refl _, (Bool.or_false _).symm⟩
  | cons w l ih =>
    intro acc
    obtain ⟨gw, gs, gb⟩ := checkWord_spec acc.2 pl w.arr w.word
    obtain ⟨iw, is, ib⟩ := ih (readEntWord pl acc w)
    refine ⟨gw.trans iw, gs.trans is, ib.trans ?_⟩
    simp only [readEntWord, gb, gs.wordLost, List.any_cons, Bool.or_assoc]

/-- A checked read of an entry of an EXACT table. -/
theorem readEnt_spec (d : Dev) (pl t r : Nat) {x : TDesc} (hx : x.ty = 1) (p : Nat) :
    SramWork d (readEnt d pl t r x p).2 ∧ SameTables d (readEnt d pl t r x p).2 ∧ (readEnt d pl t r x p).1 = entLost d pl t r x p := by
  rw [readEnt_eq d pl t r hx p]
  obtain ⟨hw, hs, hb⟩ := readEntWords_spec pl (entWords pl t r x p) (false, d)
  exact ⟨hw, hs, hb.trans (Bool.false_or _)⟩

/-! ## Writes of entries (R242) -/

theorem SramWork.coverWord {pl : Nat} (h : SramWork d e) (w : PartWord) (v : W64) : SramWork d (coverWord e pl w v) :=
  .ite _ (h.setSword ..) ((h.checkWord ..).setSword ..)
theorem SramWork.tbl (h : SramWork d e) : e.tbl = d.tbl := by obtain ⟨⟨_, _, _, _, _, _, rfl⟩, -⟩ := h; rfl
theorem SramWork.tb (h : SramWork d e) : e.tb = d.tb := by obtain ⟨⟨_, _, _, _, _, _, rfl⟩, -⟩ := h; rfl

theorem entKey_ent {ents : Tab TEnt} {k : Nat} {f : TEnt} (he : e.tbl.ents = tset entDflt ents k f) (pl t r p : Nat) :
    ent e pl t r p = if entKey pl t r p = k then f else tget entDflt ents (entKey pl t r p) := by rw [ent, he, tget_tset]

/-- An entry of an on-die table is written whole, and no other entry changes. -/
theorem writeEnt_spec (d : Dev) (pl t r : Nat) {x : TDesc} (hx : x.ext = false) (p : Nat) (v : TEnt) (pl' t' r' p' : Nat) :
    ent (writeEnt d pl t r x p v) pl' t' r' p' = if entKey pl' t' r' p' = entKey pl t r p then kept v else ent d pl' t' r' p' := by
  have htbl : (writeEnt d pl t r x p v).tbl.ents = tset entDflt d.tbl.ents (entKey pl t r p) (kept v) := by
    simp only [writeEnt, hx, Bool.false_and, Bool.false_eq_true, if_false]
    rw [(SramWork.foldl _ (fun _ _ h => h.coverWord ..) _ (.refl _)).tbl]
    rfl
  exact entKey_ent htbl pl' t' r' p'

theorem modEnt_spec (d : Dev) (pl t r p : Nat) (f : TEnt → TEnt) (pl' t' r' p' : Nat) :
    ent (modEnt d pl t r p f) pl' t' r' p' = if entKey pl' t' r' p' = entKey pl t r p then f (ent d pl t r p) else ent d pl' t' r' p' := tget_tmod ..

/-! ## Searches of EXACT tables (R240, R241, R261) -/

theorem not_isEmpty_filter {α : Type} (p : α → Bool) (l : List α) : (!(l.filter p).isEmpty) = l.any p := by
  rw [Bool.eq_iff_iff, Bool.not_eq_true', List.isEmpty_eq_false_iff_exists_mem, List.any_eq_true]
  simp only [List.mem_filter]

/-- The reads of a search. -/
def readEach (pl t r : Nat) (x : TDesc) (acc : List Nat × Dev) (p : Nat) : List Nat × Dev :=
  (if (readEnt acc.2 pl t r x p).1 then acc.1 ++ [p] else acc.1, (readEnt acc.2 pl t r x p).2)

theorem readEach_spec (pl t r : Nat) {x : TDesc} (hx : x.ty = 1) (l : List Nat) : ∀ acc : List Nat × Dev, SramWork acc.2 (l.foldl (readEach pl t r x) acc).2 ∧
    SameTables acc.2 (l.foldl (readEach pl t r x) acc).2 ∧ (l.foldl (readEach pl t r x) acc).1 = acc.1 ++ l.filter (entLost acc.2 pl t r x) := by
  induction l with
  | nil => exact fun acc => ⟨.refl _, .refl _, (List.append_nil _).symm⟩
  | cons p l ih =>
    intro acc
    obtain ⟨gw, gs, gb⟩ := readEnt_spec acc.2 pl t r hx p
    obtain ⟨iw, is, ib⟩ := ih (readEach pl t r x acc p)
    have hlost : entLost (readEach pl t r x acc p).2 pl t r x = entLost acc.2 pl t r x := funext (gs.entLost pl t r x)
    refine ⟨gw.trans iw, gs.trans is, ib.trans ?_⟩
    rw [hlost, readEach, gb, List.filter_cons]
    split
    · rw [List.append_assoc]; rfl
    · rfl

theorem searchTbl_spec (d : Dev) (pl t r : Nat) {x : TDesc} (hx : x.ty = 1) (he : x.ext = false) (k : List Byte) :
    (searchTbl d pl t r x k).1 = findKey d pl t r x (k.take x.keyBytes) ∧
      (searchTbl d pl t r x k).2.1 = (readSet d pl t r x k).any (entLost d pl t r x) ∧
      ((searchTbl d pl t r x k).2.1 = false → SameTables d (searchTbl d pl t r x k).2.2 ∧ (searchTbl d pl t r x k).2.2.out = d.out) := by
  obtain ⟨hw, hs, hl⟩ := readEach_spec pl t r hx (readSet d pl t r x k) ([], d)
  have heq : searchTbl d pl t r x k = (matchPos ((readSet d pl t r x k).foldl (readEach pl t r x) ([], d)).2 pl t r x k,
      !((readSet d pl t r x k).foldl (readEach pl t r x) ([], d)).1.isEmpty,
      ((readSet d pl t r x k).foldl (readEach pl t r x) ([], d)).1.foldl (fun d p => lostEnt d pl t r x p) ((readSet d pl t r x k).foldl (readEach pl t r x) ([], d)).2) := rfl
  rw [heq, hl]
  dsimp only
  refine ⟨?_, ?_, fun hb => ?_⟩
  · simp only [matchPos, hx]
    exact hs.findKey pl t r he _
  · rw [List.nil_append, not_isEmpty_filter]
  · have hnil : (readSet d pl t r x k).filter (entLost d pl t r x) = [] := by simpa using hb
    rw [List.nil_append, hnil]
    exact ⟨hs, hw.out⟩

end Sys2Proof.Machine
end

section
/-!
Table DMA of one record (R255, R256): the descriptor's run, and what each operation does to a local EXACT table.
-/

namespace Sys2Proof.Machine
open Sys2Proof Sys2Proof.Terms

variable {d e : Dev} {h ch : Nat}

/-! ## The run of a descriptor of one record -/

/-- What a descriptor leaves whose one record answered `w`: its record is out, and the tables and memories are those of the record. -/
structure DmaDone (h ch a : Nat) (w : RecRes × Dev) (e : Dev) : Prop where
  tbl : e.tbl = w.2.tbl
  core : e.core = w.2.core
  out : .hostBytes h a w.1.out ∈ e.out
  reg : ringConsumed e h 2 ch = ringConsumed w.2 h 2 ch

theorem dmaDone_complete4 (a : Nat) (w : RecRes × Dev) (idx st n : Nat) :
    DmaDone h ch a w (complete4 (emit w.2 (.hostBytes h a w.1.out)) h 2 ch idx st n) := by
  obtain ⟨htbl, hcore, -, -, hout, hrd, -⟩ := complete4_spec (emit w.2 (.hostBytes h a w.1.out)) h 2 ch idx st n
  obtain ⟨h1, h2, h3, -⟩ := ring_regs_apart h 2 ch
  exact ⟨htbl, hcore, hout _ (by simp [emit]), rf_congr (hrd _ h1 h2 h3) _⟩

theorem dmaRun_works {m : Memory} {q : DmaReq} {op z p : Nat} (ht : ringTakes d h 2 ch = true) (hr : q.readErr = false)
    (hb : badDesc d q.desc = false) (hop : (dmaDesc q.desc).op = op) (hpg : dmaPage (dmaTaken d h ch) (dmaDesc q.desc) = (some p, some z))
    (hi : isolated d z = false) (hp : (page d p).ready = true) {w : Memory × Dev × Nat × Nat}
    (hw : dmaWork m (dmaTaken d h ch) h ch (dmaDesc q.desc) q.data = w) :
    dmaRun m d h ch op q = (w.1, complete4 w.2.1 h 2 ch (ringConsumed d h 2 ch) w.2.2.1 w.2.2.2) := by
  have hi' : isolated (dmaTaken d h ch) z = false := hi
  have hp' : (page (dmaTaken d h ch) p).ready = true := hp
  subst hw
  unfold dmaRun
  simp only [ht, hr, hb, hop, beq_self_eq_true, Bool.not_true, Bool.not_false, Bool.true_and, Bool.true_or, Bool.false_or, Bool.false_eq_true, if_false]
  rw [show bump (takeDesc d h 2 ch).2 (Rg.TDMA_DESC h) 1 = dmaTaken d h ch from rfl, hpg]
  simp only [hi', hp', Bool.not_true, Bool.false_eq_true, if_false]
  rfl

theorem dmaWork_one {m : Memory} {x : DmaDesc} {l : List W32} {w : RecRes × Dev} (h4 : x.target ≠ 4) (h5 : x.target ≠ 5)
    (hw : dmaRecords d x (8 * h + ch) l = ([w.1], w.2)) :
    ∃ st n, dmaWork m d h ch x l = (m, emit w.2 (.hostBytes h x.host w.1.out), st, n) := by
  unfold dmaWork
  split
  next hx => exact absurd hx h4
  next hx => exact absurd hx h5
  next =>
    rw [hw]
    exact ⟨_, _, congrArg (fun o => (m, emit w.2 (.hostBytes h x.host o), _, _)) (List.append_nil _)⟩

/-- A descriptor of one record whose block is ready. -/
theorem dmaRun_one {m : Memory} {q : DmaReq} {op p : Nat} (ht : ringTakes d h 2 ch = true) (hr : q.readErr = false)
    (hb : badDesc d q.desc = false) (hop : (dmaDesc q.desc).op = op)
    (hpg : dmaPage (dmaTaken d h ch) (dmaDesc q.desc) = (some p, some (dmaDesc q.desc).zone)) (hi : isolated d (dmaDesc q.desc).zone = false)
    (hp : (page d p).ready = true) (h4 : (dmaDesc q.desc).target ≠ 4) (h5 : (dmaDesc q.desc).target ≠ 5) {w : RecRes × Dev}
    (hw : dmaRecords (dmaTaken d h ch) (dmaDesc q.desc) (8 * h + ch) q.data = ([w.1], w.2)) :
    ∃ e, dmaRun m d h ch op q = (m, e) ∧ DmaDone h ch (dmaDesc q.desc).host w e := by
  obtain ⟨st, n, hwork⟩ := dmaWork_one (m := m) h4 h5 hw
  exact ⟨_, dmaRun_works ht hr hb hop hpg hi hp hwork, dmaDone_complete4 ..⟩

theorem onMemF_next {s : State} {op : Nat} {q : DmaReq} (hrun : dmaRun s.mem s.dev h ch op q = (s.mem, e)) :
    s.onMemF (fun m d => dmaRun m d h ch op q) = .next { s with dev := settle e } := by
  simp only [State.onMemF, State.onMem, hrun]

/-! ## One record of a local EXACT table -/

section
variable {z t p c : Nat} {x : TDesc} {b : List Byte} (hty : x.ty = 1) (hext : x.ext = false) (hrepl : x.repl = false)
include hty hext hrepl

section
variable (hpos : posOk x x.bank p = true) (hgone : posGone d (1 + z) t x.bank x p = false)
include hpos hgone

/-- READ gives the entry as a checked read finds it. -/
theorem dmaEntry_read : dmaEntry d (1 + z) t x.bank x z c 0 b p =
    (entRec (ent d (1 + z) t x.bank p) (readEnt d (1 + z) t x.bank x p).1 0 p, (readEnt d (1 + z) t x.bank x p).2) := by
  rw [← (readEnt_spec d (1 + z) t x.bank hty p).2.1.ent]
  simp [dmaEntry, dmaReadEnt, byKey, badLpm, hty, hext, hrepl, hpos, hgone]

/-- READ_LOCK locks an entry that nobody has locked. -/
theorem dmaEntry_lock (hl : (ent d (1 + z) t x.bank p).lock = none) : (dmaEntry d (1 + z) t x.bank x z c 1 b p).2 =
    modEnt (readEnt d (1 + z) t x.bank x p).2 (1 + z) t x.bank p (fun e => { e with lock := some (c, nowNs d) }) := by
  rw [show nowNs d = nowNs (readEnt d (1 + z) t x.bank x p).2 by rw [nowNs, nowNs, (readEnt_spec d (1 + z) t x.bank hty p).1.tb]]
  simp [dmaEntry, dmaReadEnt, byKey, badLpm, hty, hext, hrepl, hpos, hgone, hl, modEnt]

/-- READ_LOCK of an entry that another has locked answers status 1. -/
theorem dmaEntry_locked {o n : Nat} (hl : (ent d (1 + z) t x.bank p).lock = some (o, n)) (ho : o ≠ c) :
    dmaEntry d (1 + z) t x.bank x z c 1 b p = (echoRec b 1 p, d) := by
  simp [dmaEntry, byKey, badLpm, hty, hext, hrepl, hpos, hgone, hl, ho]

/-- WRITE of an entry that nobody has locked. -/
theorem dmaEntry_write (hl : (ent d (1 + z) t x.bank p).lock = none) :
    (dmaEntry d (1 + z) t x.bank x z c 2 b p).2 = writeEnt d (1 + z) t x.bank x p (recEnt x b) := by
  simp [dmaEntry, byKey, badLpm, hty, hext, hrepl, hpos, hgone, hl]

theorem dmaEntry_write_locked (hl : (ent d (1 + z) t x.bank p).lock ≠ none) : (dmaEntry d (1 + z) t x.bank x z c 2 b p).2 = d := by
  simp [dmaEntry, byKey, badLpm, hty, hext, hrepl, hpos, hgone, Option.isSome_iff_ne_none.mpr hl]

/-- WRITE_UNLOCK by the channel that holds the entry. -/
theorem dmaEntry_writeUnlock {n : Nat} (hl : (ent d (1 + z) t x.bank p).lock = some (c, n)) :
    (dmaEntry d (1 + z) t x.bank x z c 3 b p).2 = writeEnt d (1 + z) t x.bank x p (recEnt x b) := by
  simp [dmaEntry, byKey, badLpm, hty, hext, hrepl, hpos, hgone, hl]

/-- UNLOCK by the channel that holds the entry. -/
theorem dmaEntry_unlock {n : Nat} (hl : (ent d (1 + z) t x.bank p).lock = some (c, n)) :
    (dmaEntry d (1 + z) t x.bank x z c 4 b p).2 = modEnt d (1 + z) t x.bank p (fun e => { e with lock := none }) := by
  simp [dmaEntry, byKey, badLpm, hty, hext, hrepl, hpos, hgone, hl, modEnt]

end

/-- INSERT of a new key takes its first empty candidate. -/
theorem dmaEntry_insert {p0 : Nat} (hk : findKey d (1 + z) t x.bank x (b.take x.keyBytes) = none)
    (hp : (cands x x.bank (b.take x.keyBytes)).find? (emptyPos d (1 + z) t x.bank x) = some p) :
    (dmaEntry d (1 + z) t x.bank x z c 5 b p0).2 = writeEnt d (1 + z) t x.bank x p
      { valid := true, key := b.take x.keyBytes, data := BitVec.ofNat 64 (leNat ((b.drop 104).take 8)), stamp := tableTime d (1 + z) x } := by
  simp [dmaEntry, byKey, badLpm, hty, hext, hrepl, insertTbl, placeExact, storedKey, hk, hp, noteNoRoom, noteEvicted]

/-- DELETE of a key that is there. -/
theorem dmaEntry_delete {p0 : Nat} (hk : findKey d (1 + z) t x.bank x (b.take x.keyBytes) = some p) (hl : (ent d (1 + z) t x.bank p).lock = none) :
    (dmaEntry d (1 + z) t x.bank x z c 6 b p0).2 = writeEnt d (1 + z) t x.bank x p {} := by
  simp [dmaEntry, byKey, badLpm, hty, hext, hrepl, deleteTbl, storedKey, hk, hl, clearEnt]

/-- SEARCH of a key that is there gives its entry. -/
theorem dmaEntry_hit {p0 : Nat} (hk : (searchTbl d (1 + z) t x.bank x b).1 = some p) : dmaEntry d (1 + z) t x.bank x z c 7 b p0 =
    (entRec (ent (searchTbl d (1 + z) t x.bank x b).2.2 (1 + z) t x.bank p) (searchTbl d (1 + z) t x.bank x b).2.1 0 p,
      (searchTbl d (1 + z) t x.bank x b).2.2) := by
  simp [dmaEntry, byKey, badLpm, hty, hext, hrepl, hk]

/-- SEARCH of a key that is not there: a miss, or a poisoned record. -/
theorem dmaEntry_miss {p0 : Nat} (hk : (searchTbl d (1 + z) t x.bank x b).1 = none) : dmaEntry d (1 + z) t x.bank x z c 7 b p0 =
    (if (searchTbl d (1 + z) t x.bank x b).2.1 then { out := recPoisoned 4 0 noPos, status := 0, poisoned := true } else echoRec b 3 noPos,
      (searchTbl d (1 + z) t x.bank x b).2.2) := by
  simp [dmaEntry, byKey, badLpm, hty, hext, hrepl, hk]
  split <;> rfl

end

end Sys2Proof.Machine
end

section
/-!
Table DMA of one record on a local EXACT table (R255, R256): what its run leaves of the tables.
-/

namespace Sys2Proof.Machine
open Sys2Proof Sys2Proof.Terms

variable {s : State} {h : Host2} {ch : Fin 8} {q : DmaReq} {op : Nat} {d e : Dev} {w : RecRes × Dev} {a : Nat}

/-! ## The run -/

theorem ext_descAt (d : Dev) (pl : Nat) {t : Nat} (ht : t < 32) : (descAt d pl t).ext = false := by
  rw [descAt, if_neg (by omega)]
  rfl

/-- The record of a request for a local EXACT table. -/
def dmaOneEntry (s : State) (h : Host2) (ch : Fin 8) (q : DmaReq) (op : Nat) : RecRes × Dev :=
  let x := dmaDesc q.desc
  let t := descAt s.dev (1 + x.zone) x.table
  dmaEntry (dmaTaken s.dev h ch) (1 + x.zone) x.table t.bank t x.zone (8 * h.val + ch.val) op (wordsBytes (q.data.take 32)) x.pos

theorem dmaDesc_zone_lt (l : List W32) : (dmaDesc l).zone < 4 := Nat.mod_lt _ (by decide)
theorem dmaDesc_table_lt (l : List W32) : (dmaDesc l).table < 32 := Nat.mod_lt _ (by decide)

theorem dmaOne_run (hq : DmaOne s h ch q op) : ∃ e, s.onMemF (fun m d => dmaRun m d h ch op q) = .next { s with dev := settle e } ∧
    DmaDone h ch (dmaDesc q.desc).host (dmaOneEntry s h ch q op) e := by
  have hdesc := descAt_dmaTaken (d := s.dev) h.isLt ch.isLt (dmaDesc_zone_lt q.desc) (dmaDesc_table_lt q.desc)
  have hpg : dmaPage (dmaTaken s.dev h ch) (dmaDesc q.desc) =
      (some (Rg.pageOf (Rg.baseTBL (dmaDesc q.desc).zone)), some (dmaDesc q.desc).zone) := by
    simp only [dmaPage, hdesc, hq.target, hq.here, Bool.false_eq_true, if_false]
  have hrec : dmaRecords (dmaTaken s.dev h ch) (dmaDesc q.desc) (8 * h.val + ch.val) q.data =
      ([(dmaOneEntry s h ch q op).1], (dmaOneEntry s h ch q op).2) := by
    simp only [dmaRecords, hq.count, hq.target, hq.op, hq.region, hdesc, hq.here, dmaOneEntry, Bool.false_eq_true, if_false, List.range_one,
      List.foldl_cons, List.foldl_nil, Nat.mul_zero, List.drop_zero, Nat.add_zero, List.nil_append]
  obtain ⟨e, hrun, hdone⟩ := dmaRun_one hq.takes hq.read hq.good hq.op hpg hq.reach hq.ready (by rw [hq.target]; decide) (by rw [hq.target]; decide) hrec
  exact ⟨e, onMemF_next hrun, hdone⟩

/-! ## The tables after it -/

theorem taken_same (d : Dev) (h ch : Nat) : SameTables d (dmaTaken d h ch) := .beside rfl rfl rfl

namespace DmaDone

theorem same (hd : DmaDone h ch a w e) (hs : SameTables s.dev w.2) (pl t r p : Nat) : ent e pl t r p = ent s.dev pl t r p := by
  rw [ent, hd.tbl, hs.tbl, ent]

theorem wrote (hd : DmaDone h ch a w e) (hs : SameTables s.dev d) {pl t r p : Nat} {x : TDesc} {v : TEnt} (hx : x.ext = false)
    (hw : w.2 = writeEnt d pl t r x p v) : ent e pl t r p = kept v ∧ EntOnly s e pl t r p := by
  have hent (pl' t' r' p' : Nat) : ent e pl' t' r' p' = ent (writeEnt d pl t r x p v) pl' t' r' p' := by rw [ent, hd.tbl, hw, ent]
  refine ⟨?_, fun pl' t' r' p' hne => ?_⟩
  · rw [hent, writeEnt_spec _ _ _ _ hx, if_pos rfl]
  · rw [hent, writeEnt_spec _ _ _ _ hx, if_neg hne, hs.ent]

theorem changed (hd : DmaDone h ch a w e) (hs : SameTables s.dev d) {pl t r p : Nat} {f : TEnt → TEnt} (hw : w.2 = modEnt d pl t r p f) :
    ent e pl t r p = f (ent s.dev pl t r p) ∧ EntOnly s e pl t r p := by
  have hent (pl' t' r' p' : Nat) : ent e pl' t' r' p' = ent (modEnt d pl t r p f) pl' t' r' p' := by rw [ent, hd.tbl, hw, ent]
  refine ⟨?_, fun pl' t' r' p' hne => ?_⟩
  · rw [hent, modEnt_spec, if_pos rfl, hs.ent]
  · rw [hent, modEnt_spec, if_neg hne, hs.ent]

end DmaDone

/-! ## The operations on an entry by its position -/

/-- The position of the record may be used. -/
def DmaUsable (s : State) (q : DmaReq) : Prop :=
  let x := dmaDesc q.desc
  let t := descAt s.dev (1 + x.zone) x.table
  posOk t t.bank x.pos = true ∧ posGone s.dev (1 + x.zone) x.table t.bank t x.pos = false

/-- The entry at the position of the record. -/
def dmaEnt (d : Dev) (s : State) (q : DmaReq) : TEnt :=
  ent d (1 + (dmaDesc q.desc).zone) (dmaDesc q.desc).table (descAt s.dev (1 + (dmaDesc q.desc).zone) (dmaDesc q.desc).table).bank (dmaDesc q.desc).pos

theorem dmaOne_local (hq : DmaOne s h ch q op) : let t := descAt s.dev (1 + (dmaDesc q.desc).zone) (dmaDesc q.desc).table
    t.ty = 1 ∧ t.ext = false ∧ t.repl = false := ⟨hq.exact_, ext_descAt _ _ (dmaDesc_table_lt _), hq.here⟩

theorem posGone_taken (hu : DmaUsable s q) : posGone (dmaTaken s.dev h ch) (1 + (dmaDesc q.desc).zone) (dmaDesc q.desc).table
    (descAt s.dev (1 + (dmaDesc q.desc).zone) (dmaDesc q.desc).table).bank (descAt s.dev (1 + (dmaDesc q.desc).zone) (dmaDesc q.desc).table)
    (dmaDesc q.desc).pos = false := ((taken_same s.dev h ch).posGone ..).trans hu.2

theorem lock_taken {l : Option (Nat × Nat)} (hl : (dmaEnt s.dev s q).lock = l) : (dmaEnt (dmaTaken s.dev h ch) s q).lock = l := by
  rw [dmaEnt, (taken_same s.dev h ch).ent]
  exact hl

/-- READ puts out the record of the entry, and takes its descriptor. -/
theorem dmaOne_read (hq : DmaOne s h ch q 0) (hu : DmaUsable s q) : let x := dmaDesc q.desc
    let t := descAt s.dev (1 + x.zone) x.table
    ∃ e, s.onMemF (fun m d => dmaRun m d h ch 0 q) = .next { s with dev := settle e } ∧ (∀ pl t r p, ent e pl t r p = ent s.dev pl t r p) ∧
      .hostBytes h x.host (entRec (dmaEnt s.dev s q) (readEnt s.dev (1 + x.zone) x.table t.bank t x.pos).1 0 x.pos).out ∈ e.out ∧
      ringConsumed e h 2 ch = (ringConsumed s.dev h 2 ch + 1) % 65536 := by
  intro x t
  obtain ⟨hty, hext, hrepl⟩ := dmaOne_local hq
  obtain ⟨e, hrun, hd⟩ := dmaOne_run hq
  have hs := taken_same s.dev h ch
  obtain ⟨hwork, hsame, hlost⟩ := readEnt_spec (dmaTaken s.dev h ch) (1 + x.zone) x.table t.bank hty x.pos
  have hw : dmaOneEntry s h ch q 0 = (entRec (dmaEnt s.dev s q) (readEnt s.dev (1 + x.zone) x.table t.bank t x.pos).1 0 x.pos,
      (readEnt (dmaTaken s.dev h ch) (1 + x.zone) x.table t.bank t x.pos).2) := by
    rw [dmaOneEntry, dmaEntry_read hty hext hrepl hu.1 (posGone_taken hu), hs.ent, hlost, hs.entLost, (readEnt_spec _ _ _ _ hty _).2.2]
    rfl
  rw [hw] at hd
  exact ⟨e, hrun, hd.same (hs.trans hsame), hd.out, hd.reg.trans ((rf_congr (hwork.rd _) _).trans (consumed_dmaTaken ..))⟩

/-- READ_LOCK locks a free entry for its channel. -/
theorem dmaOne_lock (hq : DmaOne s h ch q 1) (hu : DmaUsable s q) (hl : (dmaEnt s.dev s q).lock = none) : let x := dmaDesc q.desc
    let t := descAt s.dev (1 + x.zone) x.table
    ∃ e, s.onMemF (fun m d => dmaRun m d h ch 1 q) = .next { s with dev := settle e } ∧
      ent e (1 + x.zone) x.table t.bank x.pos = { dmaEnt s.dev s q with lock := some (8 * h.val + ch.val, nowNs s.dev) } ∧
      EntOnly s e (1 + x.zone) x.table t.bank x.pos := by
  obtain ⟨hty, hext, hrepl⟩ := dmaOne_local hq
  obtain ⟨e, hrun, hd⟩ := dmaOne_run hq
  exact ⟨e, hrun, hd.changed ((taken_same s.dev h ch).trans (readEnt_spec _ _ _ _ hty _).2.1)
    (dmaEntry_lock hty hext hrepl hu.1 (posGone_taken hu) (lock_taken hl))⟩

/-- READ_LOCK of an entry that another holds answers status 1. -/
theorem dmaOne_locked (hq : DmaOne s h ch q 1) (hu : DmaUsable s q) {c n : Nat} (hl : (dmaEnt s.dev s q).lock = some (c, n))
    (hc : c ≠ 8 * h.val + ch.val) : let x := dmaDesc q.desc
    ∃ e, s.onMemF (fun m d => dmaRun m d h ch 1 q) = .next { s with dev := settle e } ∧ (∀ pl t r p, ent e pl t r p = ent s.dev pl t r p) ∧
      .hostBytes h x.host (echoRec (wordsBytes (q.data.take 32)) 1 x.pos).out ∈ e.out := by
  intro x
  obtain ⟨hty, hext, hrepl⟩ := dmaOne_local hq
  obtain ⟨e, hrun, hd⟩ := dmaOne_run hq
  rw [dmaOneEntry, dmaEntry_locked hty hext hrepl hu.1 (posGone_taken hu) (lock_taken hl) hc] at hd
  exact ⟨e, hrun, hd.same (taken_same ..), hd.out⟩

/-- WRITE and WRITE_UNLOCK, as their record gives the entry. -/
theorem dmaOne_write (hq : DmaOne s h ch q op) (hu : DmaUsable s q)
    (hop : op = 2 ∧ (dmaEnt s.dev s q).lock = none ∨ op = 3 ∧ ∃ n, (dmaEnt s.dev s q).lock = some (8 * h.val + ch.val, n)) : let x := dmaDesc q.desc
    let t := descAt s.dev (1 + x.zone) x.table
    ∃ e, s.onMemF (fun m d => dmaRun m d h ch op q) = .next { s with dev := settle e } ∧
      ent e (1 + x.zone) x.table t.bank x.pos = kept (recEnt t (wordsBytes (q.data.take 32))) ∧ EntOnly s e (1 + x.zone) x.table t.bank x.pos := by
  obtain ⟨hty, hext, hrepl⟩ := dmaOne_local hq
  obtain ⟨e, hrun, hd⟩ := dmaOne_run hq
  refine ⟨e, hrun, hd.wrote (taken_same s.dev h ch) hext ?_⟩
  obtain ⟨rfl, hl⟩ | ⟨rfl, n, hl⟩ := hop
  · exact dmaEntry_write hty hext hrepl hu.1 (posGone_taken hu) (lock_taken hl)
  · exact dmaEntry_writeUnlock hty hext hrepl hu.1 (posGone_taken hu) (lock_taken hl)

/-- WRITE of an entry that somebody has locked changes none. -/
theorem dmaOne_write_locked (hq : DmaOne s h ch q 2) (hu : DmaUsable s q) (hl : (dmaEnt s.dev s q).lock ≠ none) :
    ∃ e, s.onMemF (fun m d => dmaRun m d h ch 2 q) = .next { s with dev := settle e } ∧ (∀ pl t r p, ent e pl t r p = ent s.dev pl t r p) := by
  obtain ⟨hty, hext, hrepl⟩ := dmaOne_local hq
  obtain ⟨e, hrun, hd⟩ := dmaOne_run hq
  have hw : (dmaOneEntry s h ch q 2).2 = dmaTaken s.dev h ch :=
    dmaEntry_write_locked hty hext hrepl hu.1 (posGone_taken hu) (by rwa [← dmaEnt, lock_taken rfl])
  exact ⟨e, hrun, hd.same (by rw [hw]; exact taken_same ..)⟩

/-- UNLOCK by the channel that holds the entry. -/
theorem dmaOne_unlock (hq : DmaOne s h ch q 4) (hu : DmaUsable s q) {n : Nat} (hl : (dmaEnt s.dev s q).lock = some (8 * h.val + ch.val, n)) :
    let x := dmaDesc q.desc
    let t := descAt s.dev (1 + x.zone) x.table
    ∃ e, s.onMemF (fun m d => dmaRun m d h ch 4 q) = .next { s with dev := settle e } ∧
      ent e (1 + x.zone) x.table t.bank x.pos = { dmaEnt s.dev s q with lock := none } ∧ EntOnly s e (1 + x.zone) x.table t.bank x.pos := by
  obtain ⟨hty, hext, hrepl⟩ := dmaOne_local hq
  obtain ⟨e, hrun, hd⟩ := dmaOne_run hq
  exact ⟨e, hrun, hd.changed (taken_same s.dev h ch) (dmaEntry_unlock hty hext hrepl hu.1 (posGone_taken hu) (lock_taken hl))⟩

/-! ## The operations by key -/

section
variable {x : DmaDesc} {t : TDesc} {b k : List Byte} (hx : x = dmaDesc q.desc) (ht : t = descAt s.dev (1 + x.zone) x.table)
  (hb : b = wordsBytes (q.data.take 32)) (hk : k = b.take t.keyBytes)
include hx ht hb hk

/-- INSERT of a new key, at its first empty candidate. -/
theorem dmaOne_insert (hq : DmaOne s h ch q 5) {p : Nat} (hnew : findKey s.dev (1 + x.zone) x.table t.bank t k = none)
    (hp : (cands t t.bank k).find? (emptyPos s.dev (1 + x.zone) x.table t.bank t) = some p) :
    ∃ e, s.onMemF (fun m d => dmaRun m d h ch 5 q) = .next { s with dev := settle e } ∧
      ent e (1 + x.zone) x.table t.bank p =
        kept { valid := true, key := k, data := BitVec.ofNat 64 (leNat ((b.drop 104).take 8)), stamp := tableTime s.dev (1 + x.zone) t } ∧
      EntOnly s e (1 + x.zone) x.table t.bank p := by
  subst hx ht hb hk
  obtain ⟨hty, hext, hrepl⟩ := dmaOne_local hq
  obtain ⟨e, hrun, hd⟩ := dmaOne_run hq
  have hs := taken_same s.dev h ch
  rw [← hs.findKey _ _ _ hext] at hnew
  rw [← funext (hs.emptyPos _ _ _ hext)] at hp
  exact ⟨e, hrun, hd.wrote hs hext (dmaEntry_insert (p0 := (dmaDesc q.desc).pos) hty hext hrepl hnew hp)⟩

/-- DELETE of a key that nobody has locked. -/
theorem dmaOne_delete (hq : DmaOne s h ch q 6) {p : Nat} (hold : findKey s.dev (1 + x.zone) x.table t.bank t k = some p)
    (hl : (ent s.dev (1 + x.zone) x.table t.bank p).lock = none) :
    ∃ e, s.onMemF (fun m d => dmaRun m d h ch 6 q) = .next { s with dev := settle e } ∧
      ent e (1 + x.zone) x.table t.bank p = {} ∧ EntOnly s e (1 + x.zone) x.table t.bank p := by
  subst hx ht hb hk
  obtain ⟨hty, hext, hrepl⟩ := dmaOne_local hq
  obtain ⟨e, hrun, hd⟩ := dmaOne_run hq
  have hs := taken_same s.dev h ch
  rw [← hs.findKey _ _ _ hext] at hold
  rw [← hs.ent] at hl
  exact ⟨e, hrun, hd.wrote hs hext (dmaEntry_delete (p0 := (dmaDesc q.desc).pos) hty hext hrepl hold hl)⟩

theorem searchTbl_taken (hq : DmaOne s h ch q op) :
    (searchTbl (dmaTaken s.dev h ch) (1 + x.zone) x.table t.bank t b).1 = findKey s.dev (1 + x.zone) x.table t.bank t k ∧
      (searchTbl (dmaTaken s.dev h ch) (1 + x.zone) x.table t.bank t b).2.1 = (searchTbl s.dev (1 + x.zone) x.table t.bank t b).2.1 := by
  subst hx ht hb hk
  obtain ⟨hty, hext, -⟩ := dmaOne_local hq
  have hs := taken_same s.dev h ch
  obtain ⟨hhit, hbad, -⟩ := searchTbl_spec (dmaTaken s.dev h ch) (1 + (dmaDesc q.desc).zone) (dmaDesc q.desc).table
    (descAt s.dev (1 + (dmaDesc q.desc).zone) (dmaDesc q.desc).table).bank hty hext (wordsBytes (q.data.take 32))
  refine ⟨hhit.trans (hs.findKey _ _ _ hext _), hbad.trans ?_⟩
  rw [(searchTbl_spec s.dev _ _ _ hty hext _).2.1, hs.readSet _ _ _ hext hty, funext (hs.entLost _ _ _ _)]

/-- SEARCH of a key that is not there. -/
theorem dmaOne_miss (hq : DmaOne s h ch q 7) (hnone : findKey s.dev (1 + x.zone) x.table t.bank t k = none) :
    ∃ e, s.onMemF (fun m d => dmaRun m d h ch 7 q) = .next { s with dev := settle e } ∧
      ((searchTbl s.dev (1 + x.zone) x.table t.bank t b).2.1 = false →
        (∀ pl t r p, ent e pl t r p = ent s.dev pl t r p) ∧ .hostBytes h x.host (echoRec b 3 noPos).out ∈ e.out) ∧
      ((searchTbl s.dev (1 + x.zone) x.table t.bank t b).2.1 = true → .hostBytes h x.host (recPoisoned 4 0 noPos) ∈ e.out) := by
  obtain ⟨hhit, hbad⟩ := searchTbl_taken hx ht hb hk hq
  subst hx ht hb hk
  obtain ⟨hty, hext, hrepl⟩ := dmaOne_local hq
  obtain ⟨e, hrun, hd⟩ := dmaOne_run hq
  rw [dmaOneEntry, dmaEntry_miss hty hext hrepl (hhit.trans hnone)] at hd
  refine ⟨e, hrun, fun hf => ⟨hd.same ?_, ?_⟩, fun hf => ?_⟩
  · exact (taken_same ..).trans ((searchTbl_spec _ _ _ _ hty hext _).2.2 (hbad.trans hf)).1
  · have hout := hd.out
    rwa [hbad, hf] at hout
  · have hout := hd.out
    rwa [hbad, hf] at hout

/-- SEARCH of a key that is there, read without error. -/
theorem dmaOne_hit (hq : DmaOne s h ch q 7) {p : Nat} (hsome : findKey s.dev (1 + x.zone) x.table t.bank t k = some p)
    (hf : (searchTbl s.dev (1 + x.zone) x.table t.bank t b).2.1 = false) :
    ∃ e, s.onMemF (fun m d => dmaRun m d h ch 7 q) = .next { s with dev := settle e } ∧ (∀ pl t r p, ent e pl t r p = ent s.dev pl t r p) ∧
      .hostBytes h x.host (entRec (ent s.dev (1 + x.zone) x.table t.bank p) false 0 p).out ∈ e.out := by
  obtain ⟨hhit, hbad⟩ := searchTbl_taken hx ht hb hk hq
  subst hx ht hb hk
  obtain ⟨hty, hext, hrepl⟩ := dmaOne_local hq
  obtain ⟨e, hrun, hd⟩ := dmaOne_run hq
  have hs := (taken_same s.dev h ch).trans ((searchTbl_spec _ _ _ _ hty hext _).2.2 (hbad.trans hf)).1
  rw [dmaOneEntry, dmaEntry_hit hty hext hrepl (hhit.trans hsome), hbad, hf, hs.ent] at hd
  exact ⟨e, hrun, hd.same hs, hd.out⟩

end

end Sys2Proof.Machine
end

section
/-!
Words of counter pairs and meters (R244, R245): what is written is read again; and the descriptor that cannot be read (R411).
-/

namespace Sys2Proof.Machine
open Sys2Proof Sys2Proof.Terms

variable {s : State} {h : Host2} {ch : Fin 8} {q : DmaReq} {d e : Dev} {pl n w : Nat} {v : W64}

/-! ## A word that was written whole reads what was written -/

/-- The word holds `v`, without an error and without bytes that wait to be merged. -/
structure Clean (d : Dev) (pl n w : Nat) (v : W64) : Prop where
  word : sword d pl n w = { valid := true, data := v }
  merge : ∀ m ∈ merges d pl n, m.word ≠ w

theorem Clean.congr (hc : Clean d pl n w v) (he : e.core = d.core) : Clean e pl n w v :=
  ⟨by rw [sword, he]; exact hc.word, by rw [merges, he]; exact hc.merge⟩

theorem clean_writeWord (d : Dev) (pl n w : Nat) (v : W64) : Clean (writeWord d pl n w v) pl n w v := by
  refine ⟨(sword_setSword d pl n w { valid := true, data := v } pl n w).trans (if_pos rfl), fun m hm => ?_⟩
  rw [merges, writeWord, setMerges, tget_tset_same] at hm
  simpa using (List.mem_filter.mp hm).2

theorem Clean.writeWord (hc : Clean d pl n w v) {w' : Nat} (hne : w ≠ w') (v' : W64) : Clean (writeWord d pl n w' v') pl n w v := by
  refine ⟨(sword_setSword d pl n w' { valid := true, data := v' } pl n w).trans ((if_neg fun hk => hne (Nat.add_left_cancel hk)).trans hc.word),
    fun m hm => ?_⟩
  rw [merges, Machine.writeWord, setMerges, tget_tset_same] at hm
  exact hc.merge m (List.mem_filter.mp hm).1

theorem Clean.readWord (hc : Clean d pl n w v) : (readWord d pl n w).1 = v ∧ (readWord d pl n w).2.2.core = d.core := by
  have hnone : (merges d pl n).find? (fun m => m.word == w) = none :=
    List.find?_eq_none.mpr fun m hm => by simpa using hc.merge m hm
  unfold Machine.readWord checkWord
  rw [hnone, hc.word]
  dsimp only
  split
  · exact ⟨rfl, ((Reports.refl d).uncorrWord ..).core⟩
  · exact ⟨rfl, rfl⟩

/-! ## Counter pairs (R244) -/

theorem readPair_writePair (d : Dev) (z p a b : Nat) (he : e.core = (writePair d z p a b).core) :
    (readPair e z p).1 = a % 2 ^ 64 ∧ (readPair e z p).2.1 = b % 2 ^ 64 := by
  have h0 := ((clean_writeWord d (1 + z) (pairArr p) (2 * (p / 16)) (BitVec.ofNat 64 a)).writeWord (by omega) (BitVec.ofNat 64 b)).congr he
  have h1 := (clean_writeWord (writeWord d (1 + z) (pairArr p) (2 * (p / 16)) (BitVec.ofNat 64 a)) (1 + z) (pairArr p) (2 * (p / 16) + 1)
    (BitVec.ofNat 64 b)).congr he
  obtain ⟨g0, k0⟩ := h0.readWord
  obtain ⟨g1, -⟩ := (h1.congr k0).readWord
  exact ⟨(congrArg BitVec.toNat g0).trans (BitVec.toNat_ofNat ..), (congrArg BitVec.toNat g1).trans (BitVec.toNat_ofNat ..)⟩

/-! ## Meters (R245) -/

/-- Word `i` of a meter record. -/
def meterWord (v i : Nat) : W64 := BitVec.ofNat 64 (v / 2 ^ (64 * (3 - i)))

theorem meter_words (m : Nat) : (32 * m + 32 - 1) / 8 + 1 - 32 * m / 8 = 4 ∧ 32 * m / 8 = 4 * m := by omega

/-- A write of a meter record writes its next word. -/
def meterWrite (z m v : Nat) (d : Dev) (i : Nat) : Dev := writeWord d (1 + z) (10 * 2048) (4 * m + i) (meterWord v i)

theorem writeMeter_eq (d : Dev) (z m v : Nat) : writeMeter d z m v = (List.range 4).foldl (meterWrite z m v) d := by
  obtain ⟨hn, hw⟩ := meter_words m
  change List.foldl _ d (List.range ((32 * m + 32 - 1) / 8 + 1 - 32 * m / 8)) = _
  rw [hn, hw]
  refine List.foldl_ext _ _ _ fun d i hi => ?_
  have hi4 : i < 4 := List.mem_range.mp hi
  have hlo : max (32 * m) (8 * (4 * m + i)) = 8 * (4 * m + i) := by omega
  have hhi : min (32 * m + 32) (8 * (4 * m + i) + 8) = 8 * (4 * m + i) + 8 := by omega
  have hsh : 32 * m + 32 - (8 * (4 * m + i) + 8) = 8 * (3 - i) := by omega
  have hword : BitVec.ofNat 64 (v / 256 ^ (8 * (3 - i)) % 256 ^ 8 * 256 ^ 0) = meterWord v i := by
    rw [pow_zero, mul_one, meterWord, show 64 * (3 - i) = 8 * (8 * (3 - i)) by omega, pow_mul 2 8]
    exact BitVec.eq_of_toNat_eq (by simp)
  dsimp only
  rw [hlo, hhi, hsh, Nat.add_sub_cancel_left, Nat.sub_self]
  exact congrArg (writeWord d (1 + z) (10 * 2048) (4 * m + i)) hword

/-- A read of a meter record takes its next word. -/
def meterRead (z m : Nat) (acc : Nat × Bool × Dev) (i : Nat) : Nat × Bool × Dev :=
  (acc.1 * 2 ^ 64 + (readWord acc.2.2 (1 + z) (10 * 2048) (4 * m + i)).1.toNat, acc.2.1 || (readWord acc.2.2 (1 + z) (10 * 2048) (4 * m + i)).2.1,
    (readWord acc.2.2 (1 + z) (10 * 2048) (4 * m + i)).2.2)

theorem readMeter_eq (d : Dev) (z m : Nat) : readMeter d z m = (List.range 4).foldl (meterRead z m) (0, false, d) := by
  obtain ⟨hn, hw⟩ := meter_words m
  change List.foldl _ (0, false, d) (List.range ((32 * m + 32 - 1) / 8 + 1 - 32 * m / 8)) = _
  rw [hn, hw]
  refine List.foldl_ext _ _ _ fun acc i hi => ?_
  have hi4 : i < 4 := List.mem_range.mp hi
  have hlo : max (32 * m) (8 * (4 * m + i)) = 8 * (4 * m + i) := by omega
  have hhi : min (32 * m + 32) (8 * (4 * m + i) + 8) = 8 * (4 * m + i) + 8 := by omega
  dsimp only
  rw [hlo, hhi, Nat.add_sub_cancel_left, Nat.sub_self, pow_zero, Nat.div_one, show 256 ^ 8 = 2 ^ 64 from rfl, Nat.mod_eq_of_lt (BitVec.isLt _)]
  rfl

theorem meterRead_clean {z m i : Nat} {acc : Nat × Bool × Dev} (hc : Clean acc.2.2 (1 + z) (10 * 2048) (4 * m + i) v) :
    (meterRead z m acc i).1 = acc.1 * 2 ^ 64 + v.toNat ∧ (meterRead z m acc i).2.2.core = acc.2.2.core := by
  obtain ⟨hv, hcore⟩ := hc.readWord
  exact ⟨by rw [meterRead, hv], hcore⟩

theorem clean_meterWrite (d : Dev) (z m v i : Nat) : Clean (meterWrite z m v d i) (1 + z) (10 * 2048) (4 * m + i) (meterWord v i) := clean_writeWord ..
theorem Clean.meterWrite {z m i j : Nat} {x : W64} (hc : Clean d (1 + z) (10 * 2048) (4 * m + i) x) (hne : i ≠ j) (v : Nat) :
    Clean (meterWrite z m v d j) (1 + z) (10 * 2048) (4 * m + i) x := hc.writeWord (by omega) _

theorem readMeter_writeMeter (d : Dev) (z m v : Nat) (he : e.core = (writeMeter d z m v).core) : (readMeter e z m).1 = v % 2 ^ 256 := by
  have hclean (i : Nat) (hi : i < 4) : Clean e (1 + z) (10 * 2048) (4 * m + i) (meterWord v i) := by
    refine Clean.congr ?_ he
    rw [writeMeter_eq]
    obtain rfl | rfl | rfl | rfl : i = 0 ∨ i = 1 ∨ i = 2 ∨ i = 3 := by omega
    · exact (((clean_meterWrite ..).meterWrite (by decide) v).meterWrite (by decide) v).meterWrite (by decide) v
    · exact ((clean_meterWrite ..).meterWrite (by decide) v).meterWrite (by decide) v
    · exact (clean_meterWrite ..).meterWrite (by decide) v
    · exact clean_meterWrite ..
  obtain ⟨v0, c0⟩ := meterRead_clean (acc := (0, false, e)) (hclean 0 (by decide))
  obtain ⟨v1, c1⟩ := meterRead_clean (acc := meterRead z m (0, false, e) 0) ((hclean 1 (by decide)).congr c0)
  obtain ⟨v2, c2⟩ := meterRead_clean (acc := meterRead z m (meterRead z m (0, false, e) 0) 1) ((hclean 2 (by decide)).congr (c1.trans c0))
  obtain ⟨v3, -⟩ := meterRead_clean (acc := meterRead z m (meterRead z m (meterRead z m (0, false, e) 0) 1) 2)
    ((hclean 3 (by decide)).congr (c2.trans (c1.trans c0)))
  rw [readMeter_eq]
  refine v3.trans ?_
  rw [v2, v1, v0]
  simp only [meterWord, BitVec.toNat_ofNat]
  omega

theorem mField_lt (v hi lo : Nat) : mField v hi lo < 2 ^ (hi + 1 - lo) := Nat.mod_lt _ (Nat.two_pow_pos _)

theorem meterSet_lt (v now : Nat) : meterSet v now < 2 ^ 256 := by
  have h1 := mField_lt v 255 254
  have h2 := mField_lt v 231 208
  have h3 := mField_lt v 207 184
  have h4 := mField_lt v 183 160
  have h5 := mField_lt v 159 136
  have h6 := Nat.mod_lt now (Nat.two_pow_pos 64)
  unfold meterSet
  omega

theorem beNat_foldl_lt (l : List Byte) : ∀ a : Nat, l.foldl (fun a b => a * 256 + b.toNat) a < (a + 1) * 256 ^ l.length := by
  induction l with
  | nil => exact fun a => by simp
  | cons b l ih =>
    intro a
    calc l.foldl (fun a b => a * 256 + b.toNat) (a * 256 + b.toNat) < (a * 256 + b.toNat + 1) * 256 ^ l.length := ih _
      _ ≤ (a + 1) * 256 * 256 ^ l.length := Nat.mul_le_mul_right _ (by have := b.isLt; omega)
      _ = (a + 1) * 256 ^ (l.length + 1) := by rw [pow_succ]; ring

/-- A meter record has 32 bytes. -/
theorem leNat_take_lt (l : List Byte) : leNat (l.take 32) < 2 ^ 256 := by
  calc leNat (l.take 32) < (0 + 1) * 256 ^ (l.take 32).reverse.length := beNat_foldl_lt _ 0
    _ ≤ (0 + 1) * 256 ^ 32 := Nat.mul_le_mul_left _ (Nat.pow_le_pow_right (by decide) (by rw [List.length_reverse]; exact List.length_take_le _ _))
    _ = 2 ^ 256 := by norm_num

end Sys2Proof.Machine
end

section
/-!
Table DMA (R178, R245, R255, R256, R411): counter pairs, meters, a descriptor that cannot be read, and O39.
-/

namespace Sys2Proof.Machine
open Sys2Proof Sys2Proof.Terms

variable {s : State} {h : Host2} {ch : Fin 8} {q : DmaReq} {d : Dev} {z op p : Nat} {b : List Byte}

/-! ## One record of a counter pair or a meter -/

/-- READ_CLEAR of a counter pair writes zeros after its read. -/
theorem dmaPair_readClear (hp : p < 1048576) : (dmaPair d z 8 b p).2 = writePair (readPair d z p).2.2.2 z p 0 0 := by
  rw [dmaPair, if_neg (by decide), if_neg (by omega), if_neg (by decide)]
  simp only [beq_self_eq_true, Bool.or_true, if_true]

/-- A meter of MODE 3 is written as MODE 0, with status 5. -/
theorem dmaMeter_mode3 (hp : p < 65536) (hm : mField (leNat (b.take 32)) 255 254 = 3) :
    dmaMeter d z 2 b p = (echoRec b 5 p, writeMeter d z p (meterSet (leNat (b.take 32) % 2 ^ 254) (nsIn d z))) := by
  rw [dmaMeter, if_neg (by decide), if_neg (by omega), if_pos (by decide)]
  dsimp only
  rw [if_pos (beq_iff_eq.mpr hm)]

theorem dmaMeter_write (hp : p < 65536) (hm : mField (leNat (b.take 32)) 255 254 ≠ 3) :
    dmaMeter d z 2 b p = (echoRec b 0 p, writeMeter d z p (meterSet (leNat (b.take 32)) (nsIn d z))) := by
  rw [dmaMeter, if_neg (by decide), if_neg (by omega), if_pos (by decide)]
  dsimp only
  rw [if_neg (mt beq_iff_eq.mp hm)]

theorem mField_mode {v : Nat} (hv : v < 2 ^ 256) : mField v 255 254 = v / 2 ^ 254 := Nat.mod_eq_of_lt (by omega)

/-! ## Their descriptors -/

/-- A request of one record for a counter pair or a meter of a zone, which its channel takes. -/
structure DmaZone (s : State) (h : Host2) (ch : Fin 8) (q : DmaReq) (op target : Nat) : Prop where
  takes : ringTakes s.dev h 2 ch = true
  read : q.readErr = false
  good : badDesc s.dev q.desc = false
  op : (dmaDesc q.desc).op = op
  target : (dmaDesc q.desc).target = target
  count : (dmaDesc q.desc).count = 1
  reach : isolated s.dev (dmaDesc q.desc).zone = false
  ready : (page s.dev (Rg.pageOf (Rg.baseTBL (dmaDesc q.desc).zone))).ready = true

theorem dmaZone_run {tgt : Nat} (hq : DmaZone s h ch q op tgt) (ht : tgt = 2 ∨ tgt = 3) {w : RecRes × Dev}
    (hw : w = if tgt = 2 then dmaPair (dmaTaken s.dev h ch) (dmaDesc q.desc).zone op (wordsBytes (q.data.take 32)) (dmaDesc q.desc).pos
      else dmaMeter (dmaTaken s.dev h ch) (dmaDesc q.desc).zone op (wordsBytes (q.data.take 32)) (dmaDesc q.desc).pos) :
    ∃ e, s.onMemF (fun m d => dmaRun m d h ch op q) = .next { s with dev := settle e } ∧ DmaDone h ch (dmaDesc q.desc).host w e := by
  have hrec : dmaRecords (dmaTaken s.dev h ch) (dmaDesc q.desc) (8 * h.val + ch.val) q.data = ([w.1], w.2) := by
    rw [hw]
    obtain rfl | rfl := ht
    · simp only [dmaRecords, hq.count, hq.target, hq.op, List.range_one, List.foldl_cons, List.foldl_nil, Nat.mul_zero, List.drop_zero, Nat.add_zero,
        List.nil_append, if_true]
    · simp only [dmaRecords, hq.count, hq.target, hq.op, List.range_one, List.foldl_cons, List.foldl_nil, Nat.mul_zero, List.drop_zero, Nat.add_zero,
        List.nil_append, Nat.reduceEqDiff, if_false]
  have hpg : dmaPage (dmaTaken s.dev h ch) (dmaDesc q.desc) =
      (some (Rg.pageOf (Rg.baseTBL (dmaDesc q.desc).zone)), some (dmaDesc q.desc).zone) := by
    obtain rfl | rfl := ht <;> simp only [dmaPage, hq.target]
  have htgt := hq.target
  obtain ⟨e, hrun, hdone⟩ := dmaRun_one hq.takes hq.read hq.good hq.op hpg hq.reach hq.ready (by omega) (by omega) hrec
  exact ⟨e, onMemF_next hrun, hdone⟩

theorem dmaZone_readClear (hq : DmaZone s h ch q 8 2) (hp : (dmaDesc q.desc).pos < 1048576) :
    ∃ e, s.onMemF (fun m d => dmaRun m d h ch 8 q) = .next { s with dev := settle e } ∧
      (readPair e (dmaDesc q.desc).zone (dmaDesc q.desc).pos).1 = 0 ∧ (readPair e (dmaDesc q.desc).zone (dmaDesc q.desc).pos).2.1 = 0 := by
  obtain ⟨e, hrun, hd⟩ := dmaZone_run hq (.inl rfl) rfl
  exact ⟨e, hrun, readPair_writePair _ _ _ 0 0 (hd.core.trans (congrArg Dev.core (dmaPair_readClear hp)))⟩

theorem dmaZone_meter (hq : DmaZone s h ch q 2 3) (hp : (dmaDesc q.desc).pos < 65536) :
    let b := wordsBytes (q.data.take 32)
    let v := leNat (b.take 32)
    let x := dmaDesc q.desc
    ∃ e, s.onMemF (fun m d => dmaRun m d h ch 2 q) = .next { s with dev := settle e } ∧
      (v / 2 ^ 254 = 3 → (readMeter e x.zone x.pos).1 = meterSet (v % 2 ^ 254) (nsIn s.dev x.zone) ∧ .hostBytes h x.host (echoRec b 5 x.pos).out ∈ e.out) ∧
      (¬ v / 2 ^ 254 = 3 → (readMeter e x.zone x.pos).1 = meterSet v (nsIn s.dev x.zone) ∧ .hostBytes h x.host (echoRec b 0 x.pos).out ∈ e.out) := by
  intro b v x
  obtain ⟨e, hrun, hd⟩ := dmaZone_run hq (.inr rfl) rfl
  have hmode : mField v 255 254 = v / 2 ^ 254 := mField_mode (leNat_take_lt b)
  have hread {y : Nat} (hcore : e.core = (writeMeter (dmaTaken s.dev h ch) x.zone x.pos (meterSet y (nsIn s.dev x.zone))).core) :
      (readMeter e x.zone x.pos).1 = meterSet y (nsIn s.dev x.zone) :=
    (readMeter_writeMeter _ _ _ _ hcore).trans (Nat.mod_eq_of_lt (meterSet_lt ..))
  refine ⟨e, hrun, fun h3 => ?_, fun h3 => ?_⟩
  · have hw := dmaMeter_mode3 (d := dmaTaken s.dev h ch) (z := x.zone) hp (hmode.trans h3)
    exact ⟨hread (hd.core.trans (congrArg (fun w => w.2.core) hw)), by have hout := hd.out; rwa [if_neg (by decide), hw] at hout⟩
  · have hw := dmaMeter_write (d := dmaTaken s.dev h ch) (z := x.zone) hp (hmode ▸ h3)
    exact ⟨hread (hd.core.trans (congrArg (fun w => w.2.core) hw)), by have hout := hd.out; rwa [if_neg (by decide), hw] at hout⟩

/-- A record gives an entry that nobody has locked. -/
theorem lock_recEnt (x : TDesc) (b : List Byte) : (recEnt x b).lock = none := by
  unfold recEnt
  split
  · rfl
  · split <;> rfl

/-! ## A descriptor that cannot be read (R411) -/

theorem dmaRun_readErr {m : Memory} {h ch : Nat} (ht : ringTakes d h 2 ch = true) (hr : q.readErr = true) (op : Nat) :
    dmaRun m d h ch op q = (m, complete4 (dmaTaken d h ch) h 2 ch (ringConsumed d h 2 ch) 5 0) := by
  unfold dmaRun
  simp only [ht, hr, Bool.not_true, Bool.false_or, Bool.false_and, Bool.false_eq_true, if_false, if_true]
  rfl

theorem readErr_spec (hc : Calm s.dev) (ht : ringTakes s.dev h 2 ch = true) (hr : q.readErr = true) (op : Nat) :
    ∃ u, s.onMemF (fun m d => dmaRun m d h ch op q) = .next u ∧ OnlyDev s u ∧ (rd u.dev (Rg.HIF_ERR h)).getLsbD 3 = true ∧
      ctr u.dev (Rg.TDMA_DESC h) = ctr s.dev (Rg.TDMA_DESC h) + 1 := by
  obtain ⟨-, -, hras, htel, -, -, hctr, herr⟩ := complete4_spec (dmaTaken s.dev h ch) h 2 ch (ringConsumed s.dev h 2 ch) 5 0
  have hcalm := calm_congr hras (congrArg Tel.freezing htel) (show Calm (dmaTaken s.dev h ch) from hc)
  refine ⟨_, onMemF_next (dmaRun_readErr ht hr op), ⟨rfl, rfl⟩, ?_, ?_⟩
  · rw [settle_of_calm hcalm]
    exact herr rfl
  · rw [settle_of_calm hcalm, hctr _ (by unfold Rg.TDMA_DESC Rg.MSIX_SENT; omega) (by unfold Rg.TDMA_DESC Rg.PME_SENT; omega)]
    exact ctr_bump_same ..

/-- Settles O39: a descriptor of one record is taken, its record worked on, and its completion leaves the tables and memories. -/
theorem tableDmaWorksOnRecords : Obligations.TableDmaWorksOnRecords := by
  intro s h ch q x b pl t r e mine same usable
  refine ⟨fun hq hu => ?_, fun hq hu hl => dmaOne_lock hq hu hl, fun hq hu ⟨c, n, hl, hc⟩ => ?_, fun hq hu hl => dmaOne_write hq hu (.inl ⟨rfl, hl⟩),
    fun hq hu hl => ?_, fun hq hu hl => ?_, fun hq hu ⟨n, hl⟩ => dmaOne_unlock hq hu hl, fun p hq hk hp => ?_, fun p hq hk hl => ?_,
    fun hq hk => ?_, fun p hq hk hf => ?_, fun ht hr hb ho hx hn hi hy hp => ?_, fun ht hr hb ho hx hn hi hy hp => ?_, fun ht hr hc c hm => ?_⟩
  · obtain ⟨d, hrun, hsame, hout⟩ := dmaOne_read hq hu
    exact ⟨d, hrun, hsame _ _ _, hout⟩
  · obtain ⟨d, hrun, hsame, hout⟩ := dmaOne_locked hq hu hl hc
    exact ⟨d, hrun, hsame _ _ _, hout⟩
  · obtain ⟨d, hrun, hsame⟩ := dmaOne_write_locked hq hu hl
    exact ⟨d, hrun, hsame _ _ _⟩
  · obtain ⟨d, hrun, hent, honly⟩ := dmaOne_write hq hu (.inr ⟨rfl, hl⟩)
    exact ⟨d, hrun, hent, (congrArg TEnt.lock hent).trans (lock_recEnt ..), honly⟩
  · obtain ⟨d, hrun, hent, honly⟩ := dmaOne_insert rfl rfl rfl rfl hq hk hp
    exact ⟨d, hrun, honly, hent⟩
  · exact dmaOne_delete rfl rfl rfl rfl hq hk hl
  · obtain ⟨d, hrun, hmiss, hpoison⟩ := dmaOne_miss rfl rfl rfl rfl hq hk
    exact ⟨fun hf => ⟨d, hrun, (hmiss hf).1 _ _ _, (hmiss hf).2⟩, fun hf => ⟨d, hrun, hpoison hf⟩⟩
  · obtain ⟨d, hrun, hsame, hout⟩ := dmaOne_hit rfl rfl rfl rfl hq hk hf
    exact ⟨d, hrun, hsame _ _ _, hout⟩
  · exact dmaZone_readClear ⟨ht, hr, hb, ho, hx, hn, hi, hy⟩ hp
  · exact dmaZone_meter ⟨ht, hr, hb, ho, hx, hn, hi, hy⟩ hp
  · simp only [List.mem_cons, List.not_mem_nil, or_false] at hm
    obtain rfl | rfl | rfl | rfl | rfl | rfl | rfl | rfl | rfl := hm <;> exact readErr_spec hc ht hr _

end Sys2Proof.Machine
end
